-- ==== Sys2Proof/Word.lean ====
section
/-! DEFINITION. The words of the PB8: registers are 32 bits wide (R2), memories are addressed in
bytes, MRAM is written in 64-bit words. -/

namespace Sys2Proof

/-- A register's 32 bits (R2). -/
abbrev Word := BitVec 32

/-- A byte of a memory region of R33. -/
abbrev Byte := BitVec 8

end Sys2Proof
end

