-- ==== Sys2Proof/Syntax.lean ====
section
/-! DEFINITION. The commands of the PB8: one constructor per row of the table of operations and
events, with the row's operands; and the records that operands are made of. -/

namespace Sys2Proof

/-- A VJP message as it reaches ITK (R98): the header fields that carry meaning, the type, the body
and the tag. -/
structure VjpMsg where
  flags : Nat
  slot : Nat
  sid : Nat
  seq : Nat
  ack : Nat
  sack : Nat
  type : Nat
  body : List Byte
  tag : List Byte
  deriving DecidableEq, Repr

/-- The header of a PTP message (R431): domain, the sender's port identity (clock identity × 2^16 +
port number), sequence number, correctionField in 2^-16 ns. -/
structure PtpHdr where
  dom : Nat
  sender : Nat
  seq : Nat
  corr : Int
  deriving DecidableEq, Repr

/-- What an Announce carries (R430): the grandmaster's priority1, class, accuracy, variance, priority2
and identity, stepsRemoved, currentUtcOffset and whether it is valid. -/
structure PtpAnn where
  p1 : Nat
  cls : Nat
  acc : Nat
  var : Nat
  p2 : Nat
  gm : Nat
  steps : Nat
  utc : Int
  utcValid : Bool
  deriving DecidableEq, Repr

/-- A fabric packet (R399): the fields of its header and its payload. -/
structure FabPkt where
  dst : Nat
  src : Nat
  bcast : Bool
  hops : Nat
  cls : Nat
  ptype : Nat
  len : Nat
  payload : List Byte
  deriving DecidableEq, Repr

/-- A packet as it arrives on a fabric port (R398, R403): LSEQ and NBLK of its PSTART, whether the CRC
of its PEND matches, whether the reserved header bits are 0, whether a switch buffer failed, the packet,
and when its PSTART came. -/
structure FabRx where
  lseq : Nat
  nblk : Nat
  crcOk : Bool
  resv : Bool
  ecc : Bool
  pkt : FabPkt
  t : Nat
  deriving DecidableEq, Repr

/-- An INPUT of the twin link (R382): KIND, UNIT, COUNT and payload, as numbers and as bytes. The spec
gives no KIND codes: those of the model stand at `Dev.applyInput`. -/
structure TwInput where
  kind : Nat
  unit : Nat
  count : Nat
  args : List Nat
  data : List Byte
  deriving DecidableEq, Repr

/-- A COPY of the twin link (R380): REGION, OFFSET, COUNT and data, as numbers and as bytes. The spec
gives no REGION codes: those of the model stand at `Dev.applyCopy`. -/
structure TwCopy where
  region : Nat
  offset : Nat
  count : Nat
  args : List (Nat × Int)
  data : List Byte
  deriving DecidableEq, Repr

/-- A command: one row of the table of operations and events. -/
inductive Instr where
  /-- REGISTER_WRITE (R501): A register write to a register with no row of its own is checked for alignment, rights, reserved bits, locked fields, values and state, then applied or rejected. -/
  | registerWrite (req : Nat) (addr : Nat) (width : Nat) (value : Nat)
  /-- LO_READ_CAPTURE (R255): A read of a ...LO register captures the matching HI register for that requester, so that a 64-bit value reads coherently. -/
  | loReadCapture (req : Nat) (addr : Nat) (width : Nat)
  /-- REJCLR (R38): A write to xxx_REJCLR clears REJ, REJCNT or both; a rejection in the same cycle is counted after the clear. -/
  | rejclr (req : Nat) (block : Fin 29) (value : Nat)
  /-- INTERRUPT_CLAIM (R42): A hart claims the highest-priority pending interrupt line, or gets 0 when the line was withdrawn. -/
  | interruptClaim (ctx : Fin 8)
  /-- MACHINE_TIMER_EXPIRY (R18): mtime reaches a hart's mtimecmp and the timer interrupt is raised. -/
  | machineTimerExpiry (hart : Fin 4)
  /-- CLOCK_CHECK_WINDOW (R15): at the end of each 1 ms window SYS compares the SAF oscillator with REFCLK, updates SYS_CLKCHK and raises source 0 beyond ±2 %. -/
  | clockCheckWindow (ppm : Int)
  /-- REFCLK_LOSS (R15): REFCLK is absent for more than 10 µs and the SYS reference-loss fault is raised. -/
  | refclkLoss
  /-- POWER_ON_RESET (R44): A feed becomes valid after both were below threshold, power-on reset ends 200 µs later and the device starts in SAF_BOOT. -/
  | powerOnReset (vina : Bool) (vinb : Bool) (viom33 : Bool)
  /-- RST_N_ASSERT (R46): RST_N held low for at least 1 µs resets the whole device, aborts any start and floats the xSPI pins. -/
  | rstNAssert
  /-- RST_N_RELEASE (R46): RST_N returns high and the start begins again at SAF_BOOT. -/
  | rstNRelease
  /-- TRUSTED_WATCHDOG_EXPIRY (R44): the trusted-core watchdog gets no kick within 100 ms, raising the FATAL source 2 and a device reset after harvest. -/
  | trustedWatchdogExpiry
  /-- HART_WATCHDOG_EXPIRY (R44): the hart watchdog expires: the first expiry raises HWD_WARN and source 3, a second with ACTION 1 makes a CTL reset. -/
  | hartWatchdogExpiry
  /-- SYS_HWD_KICK (R44): A write of 0xA5C3 restarts the hart watchdog; any other value is rejected. -/
  | sysHwdKick (req : Nat) (value : Nat)
  /-- SYS_TWD_KICK (R44): the trusted core writes 0x3CA5 to restart the 100 ms trusted watchdog. -/
  | sysTwdKick (req : Nat) (value : Nat)
  /-- SOFTWARE_RESET (R44): SYS_RSTCTL KIND 1 with the key resets the whole device, finalising items in flight INTERRUPTED. -/
  | softwareReset (req : Nat) (value : Nat)
  /-- CTL_RESET (R45): SYS_RSTCTL KIND 2, or a second hart-watchdog expiry, resets CTL only and reloads and checks the firmware records. -/
  | ctlReset (flash : Bool)
  /-- SAF_BOOT_COMPLETE (R47): the boot ROM has checked itself, the fuses and the rollback floor, and the device enters IMAGE_CHECK. -/
  | safBootComplete (ok : Bool)
  /-- SLOT_CHECK (R69): A candidate slot's signature and record digests have been checked, and it is loaded or recorded as failed. -/
  | slotCheck (same : Bool)
  /-- REGISTER_LIST_POLL (R60): A POLL entry of a register list ends when the masked read matches VALUE, or fails with TIMEOUT after 10 ms. -/
  | registerListPoll (timeout : Bool)
  /-- CONFIG_DONE (R63): all on-die records have been applied: the RWS shadows are copied, the LCK fields lock, the deferred device-wide checks run and TRAINING begins. -/
  | configDone
  /-- TRAINING_COMPLETE (R47): DRAM is trained, the DRAM records are loaded and every configured lane has ended its first attempt, so SELFTEST begins. -/
  | trainingComplete (failed : Fin 256)
  /-- SELFTEST_COMPLETE (R47): the self-tests and journal recovery are done: the device enters READY, the harts are released and READY and FAULT_N go high. -/
  | selftestComplete (failure : Option (Fin 256))
  /-- START_LIMIT_EXCEEDED (R48): A start state exceeds its time limit and the fault is reported under its own source. -/
  | startLimitExceeded (src : Fin 256)
  /-- JOURNAL_RECOVERY (R126): the boot-ROM routine reads every in-use slot and sets each item ACCEPTED or final, or quarantines the slot. -/
  | journalRecovery (us : Fin 16001)
  /-- UPDATE_ERASE_COMPLETE (R72): the background erase of the non-running slot ends. -/
  | updateEraseComplete (answers : Bool)
  /-- FLASH_WRITE_COMPLETE (R88): the flash write of an UPD_DATA ends and the request is answered. -/
  | flashWriteComplete (answers : Bool)
  /-- UPDATE_CHECK_COMPLETE (R72): the read-back and IMAGE_CHECK of a written slot end; CFG_UPDSTAT is set, CFG line 0 rises, and source 10 is raised on failure. -/
  | updateCheckComplete
  /-- CFG_CLAIM_GO (R74): A write names a feature, and the claim or release held in CFG_CLAIM_RES is carried out or rejected. -/
  | cfgClaimGo (req : Nat) (value : Nat)
  /-- INFO (R88): mailbox opcode 0x01 returns VERSION, SEC_STATUS, CFG_SEQ and CFG_FLOOR. -/
  | info (n : Fin 4)
  /-- DEVPUB (R88): mailbox opcode 0x02 returns half of the device public key Q. -/
  | devpub (n : Fin 4)
  /-- KEY_LIST (R88): mailbox opcode 0x03 returns the bitmap of loaded key slots for one group of 32. -/
  | keyList (n : Fin 4)
  /-- JNL_READ (R125): mailbox opcode 0x10 returns the journal record of an item ID, or ABSENT, or INTEGRITY with quarantine. -/
  | jnlRead (n : Fin 4)
  /-- FLT_SETSEV (R8): mailbox opcode 0x20 sets a source's severity, never below its minimum. -/
  | fltSetsev (n : Fin 4)
  /-- FLT_INJECT (R469): mailbox opcode 0x21 has the trusted core inject a fault report. -/
  | fltInject (n : Fin 4)
  /-- UPD_OPEN (R73): mailbox opcode 0x30 opens an image update, checks SEQ, FLOOR, length and slot, and starts the erase. -/
  | updOpen (n : Fin 4)
  /-- UPD_DATA (R88): mailbox opcode 0x31 writes up to 1 MiB of image data to flash. -/
  | updData (n : Fin 4)
  /-- UPD_CLOSE (R72): mailbox opcode 0x32 writes the directory, signature and header and starts the background check. -/
  | updClose (n : Fin 4)
  /-- SAFE_ENTER (R472): mailbox opcode 0x50 takes the device to SAFE. -/
  | safeEnter (n : Fin 4)
  /-- FUSE_PROG_KEYHASH (R80): FUSE_PROG targets 0 to 3 blow a customer key hash from a 48-byte buffer into an empty slot. -/
  | fuseProgKeyhash (n : Fin 4)
  /-- FUSE_PROG_SLOT_REVOKE (R80): FUSE_PROG targets 4 to 7 revoke a key-hash slot, but not the slot of the running image. -/
  | fuseProgSlotRevoke (n : Fin 4)
  /-- FUSE_PROG_DEBUG_KILL (R80): FUSE_PROG target 8 blows the three copies of DEBUG_KILL. -/
  | fuseProgDebugKill (n : Fin 4)
  /-- FUSE_PROG_ROOT_KILL (R80): FUSE_PROG target 9 blows the three copies of ROOT_KILL. -/
  | fuseProgRootKill (n : Fin 4)
  /-- FUSE_PROG_ZKEY_REVOKE (R80): FUSE_PROG targets 10 and 11 revoke the Zelnath key not used by the running trusted firmware. -/
  | fuseProgZkeyRevoke (n : Fin 4)
  /-- MAILBOX_UNKNOWN (R87): A mailbox request with an unknown opcode is answered UNSUPPORTED. -/
  | mailboxUnknown (n : Fin 4)
  /-- TAMPER_ALARM (R89): TAMP0 or TAMP1 stays at its active level longer than FILTER and fires its alarm. -/
  | tamperAlarm (input : Fin 2)
  /-- MESH_SAMPLE (R89): MESH_IN is sampled 500 ns after each change of MESH_OUT; two mismatched samples in a row fire SEC_MESH. -/
  | meshSample (ok : Bool)
  /-- VOLTAGE_GLITCH (R89): A core rail outside ±12 % for 5 ns fires SEC_VGLITCH. -/
  | voltageGlitch
  /-- CLOCK_GLITCH (R89): A short high or low phase of a SAF clock or REFCLK fires SEC_CLKGLITCH. -/
  | clockGlitch
  /-- SEC_TEMP_ALARM (R89): die temperature below −60 °C or above +135 °C fires SEC_TEMP. -/
  | secTempAlarm
  /-- SEC_ERASE (R90): the trusted core writes SEC_ERASE with its key to carry out an erase at level 1 or 2 without an alarm. -/
  | secErase (req : Nat) (value : Nat)
  /-- MAC_OPERATION (R84): IMP, ITK or PGF asks the MAC unit for a tag from a named key slot, and gets the tag, ABSENT or DENIED. -/
  | macOperation (use : Fin 3) (slot : Fin 256) (msg : List Byte)
  /-- EXTEST (R94): JTAG EXTEST becomes current, first taking the device to SAFE if it is not already there. -/
  | extest (cells : List Nat)
  /-- SAMPLE_PRELOAD (R93): JTAG SAMPLE/PRELOAD samples or preloads the boundary register. -/
  | samplePreload (cells : List Nat)
  /-- CLAMP (R94): JTAG CLAMP takes effect in SAF_BOOT, CONFIG_FAIL or SAFE, first taking the device to SAFE otherwise. -/
  | clamp
  /-- HIGHZ (R94): JTAG HIGHZ takes effect in SAF_BOOT, CONFIG_FAIL or SAFE, first taking the device to SAFE otherwise. -/
  | highz
  /-- DEVID (R93): JTAG DEVID shifts out the 32-bit value of SYS_ID. -/
  | devid
  /-- UNLOCK (R95): JTAG UNLOCK draws a new 128-bit nonce at Capture-DR and shifts it out. -/
  | unlock
  /-- UNLOCK_TOKEN (R95): A shifted-in token is checked; a good one grants its rights and the third failure raises source 23. -/
  | unlockToken (rights : Nat) (slot : Nat) (pub : List Byte) (sig : List Byte)
  /-- DBG_APP (R93): JTAG DBG_APP reaches the application cluster's debug module after an unlock with APP. -/
  | dbgApp (words : List Nat)
  /-- DBG_REG (R96): JTAG DBG_REG makes register and memory accesses as requester 7 within its rights. -/
  | dbgReg (write : Bool) (addr : Nat) (width : Nat) (value : Nat)
  /-- BYPASS (R93): JTAG BYPASS, which unknown or disallowed instructions also act as. -/
  | bypass
  /-- VJP_MALFORMED (R98): A datagram that is a fragment, too short, of mismatched length, or breaks the header rules is discarded and counted. -/
  | vjpMalformed (port : Fin 4) (v6 : Bool) (fragment : Bool) (data : List Byte)
  /-- OPEN (R101): A host OPEN on a session slot derives a session key and is answered with OPEN_OK, ending any earlier session. -/
  | vjpOpen (port : Fin 4) (v6 : Bool) (msg : VjpMsg)
  /-- CLOSE (R102): A CLOSE ends the session. -/
  | close (port : Fin 4) (v6 : Bool) (msg : VjpMsg)
  /-- ACKONLY (R103): A host ACKONLY updates the peer's ACK and SACK only. -/
  | ackonly (port : Fin 4) (v6 : Bool) (msg : VjpMsg)
  /-- SUBMIT (R111): A SUBMIT is checked in order and, when it passes, its journal record write starts. -/
  | submit (port : Fin 4) (v6 : Bool) (msg : VjpMsg)
  /-- ACCEPT (R112): the record is durable, and in a pair the twin has answered JACK, so the ACCEPT leaves. -/
  | accept
  /-- DATA (R108): A DATA message places part of a brine block into the page store after its checks. -/
  | vjpData (port : Fin 4) (v6 : Bool) (msg : VjpMsg)
  /-- CANCEL (R115): A CANCEL makes an item that is not yet FIRING CANCELLED, or gets BAD_STATE or ABSENT. -/
  | cancel (port : Fin 4) (v6 : Bool) (msg : VjpMsg)
  /-- FINAL_ACK (R116): A FINAL_ACK retires every named item, or fails whole if one of them is live. -/
  | finalAck (port : Fin 4) (v6 : Bool) (msg : VjpMsg)
  /-- QUERY (R109): A QUERY returns the item's state, reason and ZSEQ, or ABSENT. -/
  | query (port : Fin 4) (v6 : Bool) (msg : VjpMsg)
  /-- ZONE_BASE (R122): A ZONE_BASE writes a later ZSEQ into the zone's ACC mark, or gets SEQUENCE. -/
  | zoneBase (port : Fin 4) (v6 : Bool) (msg : VjpMsg)
  /-- REG_READ (R118): A VJP REG_READ reads a register as requester 6 and answers with a RESULT. -/
  | regRead (port : Fin 4) (v6 : Bool) (msg : VjpMsg)
  /-- REG_WRITE (R118): A VJP REG_WRITE writes a register as requester 6, within the VJP list, and answers with a RESULT. -/
  | regWrite (port : Fin 4) (v6 : Bool) (msg : VjpMsg)
  /-- VJP_UNKNOWN_TYPE (R106): A validly tagged message of an unknown type is answered with UNSUPPORTED. -/
  | vjpUnknownType (port : Fin 4) (v6 : Bool) (msg : VjpMsg)
  /-- ACK_TIMER (R104): A host message has been unacknowledged for 100 µs, so an ACKONLY is sent. -/
  | ackTimer (n : Fin 8)
  /-- RETRANSMIT_TIMER (R104): the session's retransmission timer expires: unacknowledged messages are resent, the interval doubles, and the session is lost after 10 expiries. -/
  | retransmitTimer (n : Fin 8)
  /-- SESSION_IDLE (R102): no valid host message has arrived for IDLE and the session ends. -/
  | sessionIdle (n : Fin 8)
  /-- QUEUED_MESSAGE_SEND (R104): room among the 256 unacknowledged messages lets a waiting RESULT, FINAL or EVENT be sent. -/
  | queuedMessageSend (n : Fin 8)
  /-- PAGE_FREE (R108): no unfinished item names the page and HOLD has passed, so the page is freed. -/
  | pageFree (page : Fin 65536)
  /-- ITEM_STAGED (R115): all blocks of the page are complete and the fields are rendered: the fit check runs and the item becomes STAGED. -/
  | itemStaged (id : Nat)
  /-- ITEM_BIND (R113): A FOLLOW or AT item whose predecessor is SCHEDULED or final is bound to a position and becomes SCHEDULED. -/
  | itemBind (id : Nat)
  /-- FINAL_SEND (R116): A final state that both chips hold durably is sent as a FINAL on the lowest qualifying open session. -/
  | finalSend (id : Nat)
  /-- REFUSAL_HOLD_EXPIRY (R119): A refusal kept for a SUBMIT that has not yet arrived expires after 10 s. -/
  | refusalHoldExpiry (link : Nat) (id : Nat)
  /-- ITK_CNTCLR (R98): A write clears the selected ITK drop and link counters. -/
  | itkCntclr (req : Nat) (value : Nat)
  /-- INPUT_RING_FETCH (R157): A 256-byte real-time fetch of a block's bytes completes into the input ring. -/
  | inputRingFetch (hg : Fin 8) (k : Fin 8) (ecc : Bool)
  /-- DECODER_INPUT_READY (R158): A decoder waiting for 64 bits of payload resumes when they are present. -/
  | decoderInputReady (hg : Fin 8) (k : Fin 8)
  /-- DECODER_STALL_END (R159): A decoder stopped for lack of room toward the pan resumes at the same sample. -/
  | decoderStallEnd (hg : Fin 8) (clocks : Nat)
  /-- BRD_DJOB_GO (R162): A decode-to-DRAM job of bands of one plane is started or rejected. -/
  | brdDjobGo (req : Nat)
  /-- DJOB_COMPLETE (R162): A decode-to-DRAM job ends OK, or with INTEGRITY, and BRD line 1 rises. -/
  | djobComplete
  /-- BRC_GO (R163): the compressor job registers are checked whole and copied into the queue. -/
  | brcGo (req : Nat)
  /-- BRC_BLOCK_VERIFY (R167): A compressed block is verified and written, or rewritten STORED, and the job ends after its last block. -/
  | brcBlockVerify (coded : List Byte) (fail : Fin 3)
  /-- BRC_RING_ROOM (R166): the output ring gains enough free space and a waiting compressor block begins. -/
  | brcRingRoom
  /-- BRC_OUTSIZE (R163): A write sets the output ring size and sets BRC_OUTWR and BRC_OUTRD to 0. -/
  | brcOutsize (req : Nat) (value : Nat)
  /-- ASSEMBLE_LINE (R181): A line of a row is assembled from decoded samples and field overlays, deselected, stitched and passed to nozzle mapping. -/
  | assembleLine (row : Fin 16) (zone : Fin 16) (err : Fin 4)
  /-- RAS_STATCLR (R190): A write clears RAS_CLIPCNT and the selected head groups' LATE and MINLEAD. -/
  | rasStatclr (req : Nat) (value : Nat)
  /-- RAS_ERR_CLEAR (R188): writing 1 to RAS_ERR.VALID clears RAS_ERR and the error item registers. -/
  | rasErrClear (req : Nat)
  /-- IMP_ITEM_RENDER (R209): IMP begins an item once its page's stream header has passed: it composes, encodes and writes the field rasters. -/
  | impItemRender (err : Fin 3)
  /-- MAC_RESULT (R198): A tag from the MAC unit is rendered into the field, or ABSENT finalises the item with reason KEYS. -/
  | macResult (err : Fin 3)
  /-- FIELD_STORE_ROOM (R209): IMP waiting for field-store room resumes the item when room is freed. -/
  | fieldStoreRoom (err : Fin 3)
  /-- IMP_ERR_CLEAR (R210): writing 1 to IMP_ERR.VALID clears IMP_ERR and the error item registers. -/
  | impErrClear (req : Nat)
  /-- NZM_STATEWR (R222): firmware writes OK or OUT for a nozzle, handled under the state-change table. -/
  | nzmStatewr (req : Nat) (nozzle : Nat) (state4 : Fin 4)
  /-- NOZZLE_STATE_APPLY (R221): A taken state change is applied at the next line boundary of its head group. -/
  | nozzleStateApply (hg : Fin 8)
  /-- PROBE_DELAY_EXPIRY (R223): an inspection-made OUT nozzle has been out for its delay and the rake sets it to PROBE. -/
  | probeDelayExpiry (nozzle : Fin 262144)
  /-- RAKE_SWEEP (R227): the rake writes the next trim bank one bounded step toward the targets and marks it ready. -/
  | rakeSweep (hg : Fin 8) (eccHead : Option (Fin 8))
  /-- DENSITY_REPORT (R228): the rake takes or discards a nozzle's density report and updates its correction. -/
  | densityReport (nozzle : Fin 262144) (r : Nat) (lowSeq : Nat)
  /-- TEMP_STALE_TIMEOUT (R225): no head temperature has been reported for 100 ms, so the head's trims are held and source 84 is raised. -/
  | tempStaleTimeout (h : Fin 64)
  /-- PB4_RUN (R229): A head falls due and the rake binds a 512-line calibration pattern in the zones concerned. -/
  | pb4Run
  /-- PB4_ANALYSIS (R229): the staircase and patches are analysed, giving verdicts and ratios, and CAL line 0 rises. -/
  | pb4Analysis (failed : List Nat) (ratios : List (Nat × Nat))
  /-- PB4_ANALYSIS_TIMEOUT (R229): the pattern is not seen or analysed within 20 ms, so source 86 is raised and the heads stay due. -/
  | pb4AnalysisTimeout
  /-- CAL_PB4REQ (R229): A W1S write makes the named heads due for a PB4 run. -/
  | calPb4req (req : Nat) (hi : Bool) (heads : Nat)
  /-- ENCODER_COUNT (R235): A decoded encoder count updates RAW, P, speed, direction and the high-water mark. -/
  | encoderCount (enc : Fin 4) (a : Bool) (b : Bool) (t : Nat)
  /-- Z_EDGE (R234): A rising edge of Z, with ZEN set, latches RAW into ZLAT and raises line 4. -/
  | zEdge (enc : Fin 4) (t : Nat)
  /-- ENCODER_STILL (R240): no count has arrived within STILL ms: the speed reads 0 and STILL is set. -/
  | encoderStill (enc : Fin 4) (t : Nat)
  /-- COMPARE_ARM (R243): an ARM write arms a compare unit at a position after checks. -/
  | compareArm (req : Nat) (cmp : Fin 16) (lateOk : Bool)
  /-- COMPARE_DISARM (R245): A DISARM write disarms a compare unit. -/
  | compareDisarm (req : Nat) (cmp : Fin 16)
  /-- COMPARE_MATCH (R244): the zone position passes an armed unit's position, which then carries out its action and re-arms by PERIOD. -/
  | compareMatch (c : Fin 16) (t : Nat)
  /-- COMPARE_PULSE_END (R244): A compare pulse of WIDTH × 10 ns ends on its pad. -/
  | comparePulseEnd (c : Fin 16)
  /-- PRINT_GO_EDGE (R246): A filtered PRINT_GO edge is taken, or locked out, and binds waiting PRINT_GO items in order. -/
  | printGoEdge (input : Fin 4) (rising : Bool) (full : Bool) (t : Nat)
  /-- REJECT_PULSE_START (R249): A queued reject request's position passes and the REJECT output is asserted. -/
  | rejectPulseStart (o : Fin 2) (t : Nat)
  /-- REJECT_PULSE_END (R249): the pulse has advanced WIDTH sub-lines and lasted MINTIME, so the output is released. -/
  | rejectPulseEnd (o : Fin 2) (t : Nat)
  /-- EMU_OUTPUT_STEP (R251): an emulated encoder output steps one count toward its target after MINSEP. -/
  | emuOutputStep (k : Fin 2) (t : Nat)
  /-- SLUICE_EVENT (R302): the sluice forms an event from mapped lines, thins it against nozzle and head limits, and lets it into the pan. -/
  | sluiceEvent (h : Fin 64) (err : Option (Option Nat))
  /-- FIRE_INSTANT (R258): the position plus the throw advance reaches an event's fire position and its command leaves, or is squeezed or late. -/
  | fireInstant (h : Fin 64) (t : Nat)
  /-- FIR_COMMIT (R268): FIR_HGn_COMMIT arms the head group's shadow set, or is rejected over the trim limit. -/
  | firCommit (req : Nat) (hg : Fin 8)
  /-- FIR_STATCLR (R259): A write clears FIR_RECDROP and the selected head groups' SQUEEZE and MAXLAG. -/
  | firStatclr (req : Nat) (value : Nat)
  /-- FRAME_START (R279): the framer picks the waiting event with the earliest predicted instant and starts its next frame. -/
  | frameStart (lane : Fin 24) (t : Nat) (ecc : Bool)
  /-- FIRE_BLOCK_SEND (R282): A FIRE block is sent in the latest free slot with its DLY, freeing the pan slot. -/
  | fireBlockSend (h : Fin 64) (slot : Nat)
  /-- IDLE_BLOCK (R285): an IDLE block is sent when nothing else is pending, or once in every 1,024 blocks. -/
  | idleBlock (lane : Fin 24)
  /-- IDLE_UP (R287): A head board's IDLE_UP updates its state, SEL, STALE and EPOCHSEEN, and a later epoch is passed to TWN. -/
  | idleUp (lane : Fin 24) (good : Bool) (state : Fin 16) (sel : Bool) (stale : Bool) (epoch : Fin 65536)
  /-- HELLO_UP (R289): A HELLO_UP ends step 2 of training, or ends the series as MISMATCH. -/
  | helloUp (lane : Fin 24) (good : Bool) (ver : Fin 16) (heads : Nat) (bufev : Nat) (fixns : Nat) (turnns : Nat)
  /-- ECHO_UP (R289): an ECHO_UP gives one round-trip measurement. -/
  | echoUp (lane : Fin 24) (good : Bool) (tag : Nat) (t : Nat)
  /-- FIRED_UP (R284): A FIRED_UP reports an event as fired, MISS, EMPTY or IGNORED; MISS and EMPTY are handled as a late line. -/
  | firedUp (lane : Fin 24) (good : Bool) (head : Fin 8) (evseq : Fin 256) (status : Fin 4)
  /-- TEMP_UP (R287): A TEMP_UP records a head's temperature and supply. -/
  | tempUp (lane : Fin 24) (good : Bool) (head : Fin 8) (temp : Int) (vsup : Nat) (flags : Nat)
  /-- NAK_UP (R281): A NAK_UP makes the framer resend the named frame if the event's FIRE has not yet been sent. -/
  | nakUp (lane : Fin 24) (good : Bool) (head : Fin 8) (evseq : Fin 256) (offset : Nat)
  /-- CMDACK_UP (R286): A CMDACK_UP answers a head command and updates HLK_CMDSTAT. -/
  | cmdackUp (lane : Fin 24) (good : Bool) (head : Fin 8) (opc : Nat) (status : Nat) (ctag : Nat) (arg : Nat)
  /-- FAULT_UP (R287): A board-defined FAULT_UP is received and HLK line 6 rises. -/
  | faultUp (lane : Fin 24) (good : Bool) (head : Fin 8) (code : Nat) (arg : Nat)
  /-- FIRED_UP_TIMEOUT (R284): A FIRE without a FIRED_UP within 2 µs counts as MISS. -/
  | firedUpTimeout (h : Fin 64)
  /-- NOP (R286): HLK command opcode 0 is sent to a head or a head group. -/
  | hlkNop (req : Nat) (hg : Fin 8) (head : Fin 8) (all : Bool) (arg : Nat)
  /-- SPIT (R286): HLK command opcode 1 asks for ARG spit cycles. -/
  | spit (req : Nat) (hg : Fin 8) (head : Fin 8) (all : Bool) (arg : Nat)
  /-- WAVESET (R286): HLK command opcode 2 selects the board's waveform set. -/
  | waveset (req : Nat) (hg : Fin 8) (head : Fin 8) (all : Bool) (arg : Nat)
  /-- HEATER (R286): HLK command opcode 3 sets a heater set point. -/
  | heater (req : Nat) (hg : Fin 8) (head : Fin 8) (all : Bool) (arg : Nat)
  /-- HEADRESET (R286): HLK command opcode 4 resets a head. -/
  | headreset (req : Nat) (hg : Fin 8) (head : Fin 8) (all : Bool) (arg : Nat)
  /-- BOARD_DEFINED_COMMAND (R286): HLK command opcodes 8 to 15 carry a command that the board defines. -/
  | boardDefinedCommand (req : Nat) (hg : Fin 8) (head : Fin 8) (opc : Fin 8) (all : Bool) (arg : Nat)
  /-- HLK_CMD_TIMEOUT (R286): A head's CMDACK_UP is missing after 1 ms and HLK_CMDSTAT holds TIMEOUT. -/
  | hlkCmdTimeout
  /-- LANE_SERIES_START (R289): A head-lane training series starts at CONFIG_DONE, on signal at an ABSENT lane, on DOWN or on RETRAIN. -/
  | laneSeriesStart (lane : Fin 24)
  /-- LANE_LOCK (R289): the PB8 gains signal, CDR lock, adapted equalisation and block lock, ending step 1. -/
  | laneLock (lane : Fin 24)
  /-- HELLO_TIMER (R289): every 10 µs of step 2 a HELLO is sent. -/
  | helloTimer (lane : Fin 24)
  /-- ECHO_TIMER (R289): every 1 µs of step 3 one of 16 ECHO blocks is sent. -/
  | echoTimer (lane : Fin 24) (t : Nat)
  /-- ECHO_WINDOW_END (R289): step 3 ends: FLIGHT and LINKDELAY are set, RUN is sent and the lane is UP. -/
  | echoWindowEnd (lane : Fin 24)
  /-- LANE_ABORT (R289): an attempt aborts on 1 ms loss of signal, no lock, no HELLO_UP or a wrong VER, and becomes ABSENT after ATTEMPTS. -/
  | laneAbort (lane : Fin 24) (why : Fin 3)
  /-- LANE_BACKOFF_END (R289): 10 ms after an abort the lane tries again. -/
  | laneBackoffEnd (lane : Fin 24)
  /-- LANE_DOWN (R290): an UP lane loses signal, block lock, upstream blocks or PLL lock, goes DOWN and starts a new series. -/
  | laneDown (lane : Fin 24)
  /-- RETRAIN (R289): HLK_LANEl_CTL.RETRAIN starts a new training series. -/
  | retrain (req : Nat) (lane : Fin 24)
  /-- ERRCLR (R275): HLK_LANEl_CTL.ERRCLR sets the lane's error counters to 0. -/
  | errclr (req : Nat) (lane : Fin 24)
  /-- LANE_PLL_LOSS (R299): A lane PLL loses lock, which raises source 180 and appears as loss of signal. -/
  | lanePllLoss (lane : Fin 42)
  /-- DFE_TAP_LIMIT (R296): A DFE tap is held at its limit for 1 s and source 181 is raised. -/
  | dfeTapLimit (lane : Fin 42)
  /-- PRBS_ERROR (R299): the PRBS checker counts a bit error. -/
  | prbsError (lane : Fin 42) (errs : Nat)
  /-- LOS_CHANGE (R297): A loss-of-signal detector asserts after 1 µs below 50 mV, or deasserts. -/
  | losChange (lane : Fin 42) (los : Bool)
  /-- EYE_MONITOR_REFRESH (R297): the eye monitor refreshes its openings every 1 ms. -/
  | eyeMonitorRefresh (lane : Fin 42) (eyeh : Nat) (eyev : Nat)
  /-- SRD_PD (R298): SRD_LANEl_CTL.PD puts a lane into or out of the deep low-power state. -/
  | srdPd (req : Nat) (lane : Fin 42) (pd : Fin 2)
  /-- SRD_PRBS (R299): SRD_LANEl_CTL.PRBS starts or stops a PRBS pattern and clears its error count. -/
  | srdPrbs (req : Nat) (lane : Fin 42) (prbs : Fin 4)
  /-- SRD_LOOP (R299): SRD_LANEl_CTL.LOOP sets near-end or far-end loopback on a lane out of service. -/
  | srdLoop (req : Nat) (lane : Fin 42) (loop : Fin 4)
  /-- LANE_POWER_UP_COMPLETE (R298): after PD is cleared the transmitter becomes valid and the receiver locks and adapts. -/
  | lanePowerUpComplete (lane : Fin 42)
  /-- HEAD_TEMP_STALE (R307): A head's TEMP AGE reaches STALE, so its level is held at least at 2 and source 124 is raised. -/
  | headTempStale (h : Fin 64)
  /-- MARGIN_RECOMPUTE (R309): every 1,024 lines a zone's staged-ahead margin is recomputed and checked against THRESH. -/
  | marginRecompute (zone : Fin 16)
  /-- SPEED_REQ_UPDATE (R310): every 100 µs the sluice computes the SPEED_REQ target from the zone margins and head temperatures. -/
  | speedReqUpdate
  /-- SPEED_FLOOR_TIMEOUT (R310): the duty has stayed at FLOOR for more than 1 s and source 127 is raised. -/
  | speedFloorTimeout
  /-- SLU_STATCLR (R305): A write clears the selected sluice counters. -/
  | sluStatclr (req : Nat) (value : Nat)
  /-- CSI_FRAME_START (R330): A CSI frame start opens a frame, closing an open one as NOFE. -/
  | csiFrameStart (port : Fin 4) (vc : Fin 16)
  /-- CSI_FRAME_END (R330): A CSI frame end closes the frame, fills missing lines and writes the frame descriptor. -/
  | csiFrameEnd (port : Fin 4) (vc : Fin 16)
  /-- CSI_LINE (R317): A long packet is routed to its source and buffered with its checks, fill and flags. -/
  | csiLine (port : Fin 4) (vc : Fin 16) (dt : Fin 64) (payload : List Byte) (crcOk : Bool) (cor : Bool)
  /-- CSI_GENERIC_SHORT (R317): A line start, line end or generic short packet is counted or ignored. -/
  | csiGenericShort (port : Fin 4) (dt : Fin 64)
  /-- CSI_HEADER_ERROR (R318): an uncorrectable header or start-of-transmission error loses the packet and raises source 131. -/
  | csiHeaderError (port : Fin 4)
  /-- CSI_FRAME_TIMEOUT (R330): no frame end arrives within TOUT ms and the frame closes with TIMEOUT. -/
  | csiFrameTimeout (src : Fin 16)
  /-- DESKEW (R316): A D-PHY deskew sequence is taken. -/
  | deskew (port : Fin 4)
  /-- TILE_LINE (R322): A tile's TLS, data blocks and TLE deliver its part of a line, which closes when every part is good. -/
  | tileLine (tile : Fin 32) (line : Fin 16777216) (shape : Bool) (lcrcOk : Bool) (px : List Nat)
  /-- TILE_LINE_TIMEOUT (R322): TOUT µs after its trigger a tile line closes with its missing parts filled. -/
  | tileLineTimeout (src : Fin 16)
  /-- TIDLE_UP (R323): A bridge's TIDLE_UP keeps the tile lane alive and reports its state and FIXNS. -/
  | tidleUp (lane : Fin 4) (good : Bool) (state : Fin 16) (fixns : Nat)
  /-- THELLO_UP (R323): A THELLO_UP reports the tiles served during tile-lane bring-up. -/
  | thelloUp (lane : Fin 4) (good : Bool) (ver : Fin 16) (tiles : Nat)
  /-- TACK_UP (R323): A TACK_UP acknowledges a TCFG during bring-up. -/
  | tackUp (lane : Fin 4) (good : Bool) (tile : Fin 32) (status : Nat)
  /-- TFAULT_UP (R320): A bridge fault report is received. -/
  | tfaultUp (lane : Fin 4) (good : Bool) (tile : Fin 32) (code : Nat) (arg : Nat)
  /-- TACK_TIMEOUT (R323): A TACK_UP is missing after 1 ms and the tile-lane attempt aborts. -/
  | tackTimeout (lane : Fin 4)
  /-- TLANE_ATTEMPT_START (R323): A tile-lane bring-up attempt starts, or retries 10 ms after an abort. -/
  | tlaneAttemptStart (lane : Fin 4) (fail : Fin 4)
  /-- TLANE_DOWN (R323): an UP tile lane goes DOWN and source 132 is raised. -/
  | tlaneDown (lane : Fin 4)
  /-- TRG_ARM (R325): CAM_TRGk_ARM.ARM starts a trigger generator from a position or a compare match. -/
  | trgArm (req : Nat) (trg : Fin 4) (lateOk : Bool)
  /-- TRG_STOP (R325): CAM_TRGk_ARM.STOP ends the generator after the frame in progress. -/
  | trgStop (req : Nat) (trg : Fin 4)
  /-- TRIGGER_DUE (R324): the zone position reaches T_m and the trigger is issued with its pulse, TTRIG, strobes and records, or is skipped. -/
  | triggerDue (k : Fin 4) (t : Nat)
  /-- CAM_TRG_COMMIT (R326): CAM_TRGk_COMMIT arms the generator's shadow group. -/
  | camTrgCommit (req : Nat) (trg : Fin 4)
  /-- LINE_GRANT (R332): the pipeline takes a whole line by weighted round robin and VIS processes it. -/
  | lineGrant (err : Fin 3)
  /-- CAM_FDSIZE (R331): A write sets the descriptor ring size and sets CAM_FDWR and CAM_FDRD to 0. -/
  | camFdsize (req : Nat) (value : Nat)
  /-- CAM_STATCLR (R331): A write clears the selected CAM counters. -/
  | camStatclr (req : Nat) (value : Nat)
  /-- VIS_TBLDATA (R336): A write stores a table word at TBLADDR and advances TBLADDR. -/
  | visTbldata (req : Nat) (value : Nat)
  /-- ARCHIVE_BAND (R340): ARCBH archive lines complete and a compressor job is queued, or dropped. -/
  | archiveBand (o : Fin 4)
  /-- EXPECTED_FOLD (R342): A fired event's record and selects are folded into the expected image. -/
  | expectedFold (ecc : Bool)
  /-- INSPECTION_WINDOW (R345): the comparator source's frame closes and the window ends with registration, declarations, reports, defects and verdicts. -/
  | inspectionWindow (room : Nat)
  /-- INS_STATCLR (R354): A write clears the selected INS counters. -/
  | insStatclr (req : Nat) (value : Nat)
  /-- LAMP_FRAME (R355): A lamp-chain frame ends with a latch: the status words are taken, sets are staged and applied, and words are resent. -/
  | lampFrame (c : Fin 4) (sts : List Nat) (ecc : Option (Fin 128))
  /-- LAMP_STROBE (R356): A strobe event raises LAT in a CLK high phase at or after its start. -/
  | lampStrobe (c : Fin 4) (t : Nat) (late : Bool)
  /-- LAMP_STROBE_END (R356): A strobe ends and LAT falls, with CLK falling 10 ns later. -/
  | lampStrobeEnd (c : Fin 4) (t : Nat)
  /-- DIAG_PERIOD_END (R364): A diagnostic period ends with a lit string undiagnosed, so a DIAG is queued or UNDIAGNOSED is set. -/
  | diagPeriodEnd (c : Fin 4) (b : Fin 32) (k : Fin 4)
  /-- DIAG_LATCH_HOLD_END (R364): A DIAG latch held for a strobe-mode string is released after the next strobe, or after 1 ms. -/
  | diagLatchHoldEnd (c : Fin 4)
  /-- CHAIN_IDENT (R368): at CONFIG_DONE and every 100 ms while DOWN, the chain sends IDENT and NOP frames to bring itself UP. -/
  | chainIdent (c : Fin 4)
  /-- LMP_COMMIT (R361): LMP_CHc_COMMIT arms the chain's level shadow. -/
  | lmpCommit (req : Nat) (chain : Fin 4)
  /-- SAFE_NOP_TIMER (R370): in SAFE, PIN sends a NOP frame on each chain every 1 ms after the safe sequence. -/
  | safeNopTimer
  /-- TWIDLE (R375): A TWIDLE from the partner reports its epoch and role, and a later epoch fences this chip. -/
  | twidle (epoch : Nat) (role : Nat)
  /-- TWN_HELLO (R379): A twin HELLO is received and the pair role is decided under the formation table. -/
  | twnHello (role : Nat) (side : Nat) (last : Nat) (epoch : Nat) (seq : Nat) (tag : Nat) (gen : Nat)
  /-- TWN_HEALTH (R383): A HEALTH message carries the partner's health and encoder positions for comparison. -/
  | twnHealth (health : Nat) (encs : List (Int × Int))
  /-- JREC (R384): the partner writes a replicated ACCEPTED record and answers JACK. -/
  | jrec (slot : Fin 49152) (rec : List Byte)
  /-- JFIN (R384): the partner writes and reads back a replicated FINAL word. -/
  | jfin (slot : Fin 49152) (final : Nat)
  /-- JRET (R384): the partner retires the named slots. -/
  | jret (slots : List (Fin 49152))
  /-- JACK (R384): the ACTIVE receives the partner's durability answer for a record or FINAL. -/
  | jack (slot : Fin 49152) (status : Nat)
  /-- TWN_INPUT (R382): A STANDBY applies an input that the ACTIVE decided, at its named event. -/
  | twnInput (x : TwInput)
  /-- TWN_SIG (R386): A partner signature is compared with this chip's own; a difference is a divergence that starts diagnosis. -/
  | twnSig (head : Fin 64) (count : Nat) (sig : Nat)
  /-- TWN_PAGE (R381): forwarded page data is placed in the page store of the non-ACTIVE chip. -/
  | twnPage (body : List Byte)
  /-- TWN_COPY (R380): A SYNCING chip applies a COPY of the ACTIVE's state, and takes the epoch when COPY ends. -/
  | twnCopy (c : TwCopy)
  /-- TWN_DIAG (R387): the partner's diagnosis result is received and the divergence outcome is applied. -/
  | twnDiag (head : Fin 64) (count : Nat) (failed : Bool)
  /-- RESIGN (R389): A STANDBY receives RESIGN and takes over at the named events. -/
  | resign (cause : Fin 8) (counts : List Nat)
  /-- FENCE (R385): A FENCE from the ACTIVE puts the partner into FENCED. -/
  | fence (epoch : Nat)
  /-- MACK (R375): an MACK acknowledges a twin message. -/
  | mack (mseq : Fin 65536)
  /-- MNAK (R375): an MNAK makes the sender resend a twin message. -/
  | mnak (mseq : Fin 65536)
  /-- MESSAGE_RESEND_TIMER (R375): A twin message with no MACK within 5 µs is resent. -/
  | messageResendTimer (mseq : Fin 65536)
  /-- SIDEBAND_FRAME (R377): A side-band frame from the partner is taken for its role, epoch and health. -/
  | sidebandFrame (frame : Nat)
  /-- SIDEBAND_SEND (R377): every 10 µs a side-band frame is sent. -/
  | sidebandSend
  /-- ALIVE_LOST (R377): TWIN_ALVI shows no edge for 80 ns, which with a silent link is partner loss. -/
  | aliveLost
  /-- ALIVE_REGAINED (R377): 16 edges in a row on TWIN_ALVI regain the partner's ALIVE. -/
  | aliveRegained
  /-- TWIN_LINK_SILENT (R375): no valid block has come on either twin lane for 100 ns. -/
  | twinLinkSilent
  /-- FORMWAIT_EXPIRY (R379): with no twin link and no partner ALIVE for FORMWAIT, the chip becomes ACTIVE alone or stays FENCED. -/
  | formwaitExpiry
  /-- SIG_TIMEOUT (R386): the partner's SIG has not arrived within SIGWIN, which is a divergence. -/
  | sigTimeout (head : Fin 64) (count : Nat)
  /-- DIAGNOSIS_COMPLETE (R387): A chip's diagnosis of the diverged head group ends with pass or fail and a DIAG is sent. -/
  | diagnosisComplete (scrub : Bool) (slot : Bool)
  /-- REPLICATION_TIMEOUT (R385): no JACK has come within REPLTO, so the ACTIVE fences its partner and goes on ALONE. -/
  | replicationTimeout
  /-- STANDBY_LINK_TIMEOUT (R385): A STANDBY whose link has been silent for LINKTO resigns to FENCED. -/
  | standbyLinkTimeout
  /-- TWN_HELLO_SEND (R376): every 100 ms a twin HELLO is sent. -/
  | twnHelloSend
  /-- TWN_HEALTH_SEND (R376): every 10 ms a HEALTH message is sent. -/
  | twnHealthSend
  /-- MEMORY_SCRUB (R393): the scrub of every SEC-DED memory, once every 10 s, updates TWN_HEALTH. -/
  | memoryScrub (bad : Bool)
  /-- MRAM_TEST (R393): every 1 s an MRAM test word is written and read back. -/
  | mramTest (pattern : Nat)
  /-- MAC_SELF_TEST (R393): every 1 s the MAC unit runs a known-answer test. -/
  | macSelfTest (failed : Bool)
  /-- TWN_INFO (R394): mailbox opcode 0x80 returns TWN_STAT, the epochs and the partner's health. -/
  | twnInfo (n : Fin 4)
  /-- TWN_SWAP (R394): mailbox opcode 0x81, or TWN_CTL CMD 1, makes an ACTIVE with a healthy STANDBY resign. -/
  | twnSwap (n : Fin 4)
  /-- TWN_REJOIN (R394): mailbox opcode 0x82, or TWN_CTL CMD 2, takes a FENCED chip into SYNCING. -/
  | twnRejoin (n : Fin 4)
  /-- TWN_RESIGN (R394): mailbox opcode 0x83, or TWN_CTL CMD 3, fences a STANDBY or SYNCING chip, or swaps an ACTIVE one. -/
  | twnResign (n : Fin 4)
  /-- TWN_FORCE (R394): mailbox opcode 0x84, or TWN_CTL CMD 4, makes a lone FENCED chip ACTIVE outside the guarantee. -/
  | twnForce (n : Fin 4)
  /-- PGF_HELLO (R405): A fabric HELLO announces the neighbour's UID, kind and credits during port bring-up. -/
  | pgfHello (p : Fin 4) (rx : FabRx)
  /-- PGF_AUTH (R406): A fabric AUTH tag is checked and the port becomes UP, or the attempt aborts. -/
  | pgfAuth (p : Fin 4) (rx : FabRx)
  /-- ROOTADV (R407): A root advert updates the root, parent port and tree ports. -/
  | rootadv (p : Fin 4) (rx : FabRx)
  /-- TSYNC (R415): A TSYNC from the parent sets fabric time and gives an offset as a time source. -/
  | tsync (p : Fin 4) (rx : FabRx)
  /-- PDREQ (R415): A peer-delay request is answered with a PDRESP. -/
  | pdreq (p : Fin 4) (rx : FabRx)
  /-- PDRESP (R415): A peer-delay response gives the port's mean link delay. -/
  | pdresp (p : Fin 4) (rx : FabRx)
  /-- ADDRREQ (R408): the root answers an address request with an ADDRGRANT. -/
  | addrreq (p : Fin 4) (rx : FabRx)
  /-- ADDRGRANT (R408): A device takes its address grant, CONFLICT or NO_ROOM. -/
  | addrgrant (p : Fin 4) (rx : FabRx)
  /-- TOPO (R409): the root takes a topology report, which may change its picture of the fabric. -/
  | topo (p : Fin 4) (rx : FabRx)
  /-- TOPOREQ (R409): A TOPOREQ makes the device send TOPO. -/
  | toporeq (p : Fin 4) (rx : FabRx)
  /-- ROUTE (R410): A ROUTE part for this device is kept, and a complete later GEN replaces the table. -/
  | route (p : Fin 4) (rx : FabRx)
  /-- REFUSE (R413): A fabric REFUSE is filtered and handed once to ITK, which finalises the named item REFUSED. -/
  | refuse (p : Fin 4) (rx : FabRx)
  /-- EPOCH (R414): A fabric EPOCH updates the epoch kept for its PAIRTAG and may fence this chip. -/
  | epoch (p : Fin 4) (rx : FabRx)
  /-- PGF_VJP (R412): A VJP packet addressed to the device is handed to ITK as a datagram. -/
  | pgfVjp (p : Fin 4) (rx : FabRx)
  /-- PGF_VJPDATA (R412): A VJPDATA packet addressed to the device is handed to ITK as a DATA datagram. -/
  | pgfVjpdata (p : Fin 4) (rx : FabRx)
  /-- FCRED (R401): an FCRED returns credits and acknowledges packets up to its ACK. -/
  | fcred (p : Fin 4) (good : Bool) (cls : Fin 4) (count : Fin 4096) (ack : Fin 4096)
  /-- FNAK (R403): an FNAK makes the sender resend from the named LSEQ. -/
  | fnak (p : Fin 4) (good : Bool) (lseq : Fin 4096)
  /-- PGF_PACKET_SEND (R402): an output port starts a queued packet once it holds the credits, in class order. -/
  | pgfPacketSend (p : Fin 4) (t : Nat)
  /-- PGF_REPLAY_TIMEOUT (R403): ACK has not advanced for 20 µs, so the sender resends, and takes the port DOWN after 8 resends. -/
  | pgfReplayTimeout (p : Fin 4)
  /-- FCRED_TIMER (R403): at least every 1 µs while packets have arrived, an FCRED is sent. -/
  | fcredTimer (p : Fin 4)
  /-- ROOTADV_TIMER (R407): every 10 ms a ROOTADV is sent on every UP port. -/
  | rootadvTimer
  /-- ROOTADV_AGE_OUT (R407): A root's adverts are older than 35 ms and the device chooses its root again. -/
  | rootadvAgeOut (p : Fin 4)
  /-- ADDRREQ_TIMER (R408): 10 ms after the parent is chosen, and every 100 ms until granted, an ADDRREQ is sent. -/
  | addrreqTimer
  /-- ADDRESS_FREE (R408): the root frees an address whose UID it has not heard for 1 s. -/
  | addressFree (addr : Fin 2048)
  /-- TOPO_TIMER (R409): every 250 ms a device holding an address sends TOPO. -/
  | topoTimer
  /-- ROUTE_COMPUTE (R409): within 20 ms of the last topology change the root computes routes, raises GEN and broadcasts ROUTE. -/
  | routeCompute
  /-- ROUTE_PART_DISCARD (R410): parts of a GEN still incomplete after 50 ms are discarded. -/
  | routePartDiscard
  /-- REFUSE_REPEAT (R413): A REFUSE is sent again 1 ms and 2 ms after the first. -/
  | refuseRepeat (refid : Nat)
  /-- EPOCH_BROADCAST_TIMER (R414): every 100 ms an ACTIVE or STANDBY chip broadcasts EPOCH. -/
  | epochBroadcastTimer
  /-- TSYNC_TIMER (R415): every 1 ms a TSYNC is sent on each child tree port. -/
  | tsyncTimer
  /-- PDREQ_TIMER (R415): every 100 ms each UP port sends PDREQ to measure its delay. -/
  | pdreqTimer
  /-- PGF_PORT_ATTEMPT (R405): A fabric port bring-up attempt starts at once after DOWN, or 100 ms after an abort. -/
  | pgfPortAttempt (p : Fin 4)
  /-- PGF_PORT_ABORT (R405): A bring-up step misses its time limit, or fails, and the attempt aborts with LASTFAIL. -/
  | pgfPortAbort (p : Fin 4) (why : Fin 6)
  /-- PGF_LANE_ALIGN (R397): A port's lanes align on ALIGN blocks, or a retrained lane rejoins. -/
  | pgfLaneAlign (p : Fin 4) (mask : Fin 4)
  /-- PGF_PORT_DOWN (R404): A port goes DOWN, its replay buffer and queue are discarded and source 152 is raised. -/
  | pgfPortDown (p : Fin 4) (mask : Fin 4)
  /-- PGF_RETRAIN (R405): PGF_CTL.RETRAIN takes a port DOWN and starts a new attempt. -/
  | pgfRetrain (req : Nat) (ports : Nat)
  /-- PGF_STATCLR (R404): A write clears the selected PGF counters. -/
  | pgfStatclr (req : Nat) (value : Nat)
  /-- ETH_LINK_CHANGE (R418): A port's PCS gains or loses block lock; leaving UP raises source 160. -/
  | ethLinkChange (p : Fin 4) (lock : Bool)
  /-- PAUSE (R418): A received PAUSE frame is obeyed when PAUSEEN is set. -/
  | pause (p : Fin 4) (quanta : Fin 65536)
  /-- ARP_REQUEST (R419): an ARP request for the port's IPv4 address is answered in hardware. -/
  | arpRequest (p : Fin 4) (mac : Nat) (sip : Nat) (ip : Nat)
  /-- NEIGHBOUR_SOLICITATION (R419): an IPv6 neighbour solicitation is answered in hardware. -/
  | neighbourSolicitation (p : Fin 4) (mac : Nat) (sip : Nat) (target : Nat)
  /-- ECHO_REQUEST (R419): an ICMP echo request is answered in hardware. -/
  | echoRequest (p : Fin 4) (v6 : Bool) (mac : Nat) (sip : Nat) (dst : Nat) (data : List Byte)
  /-- SWRX_FRAME (R423): an unclassified frame goes to the receive ring, or is counted RXNOBUF or OVERFLOW. -/
  | swrxFrame (p : Fin 4) (frame : List Byte) (vlan : Bool) (pcs : Nat) (err : Bool)
  /-- ETH_RX_DROP (R420): A frame failing FCS, length, address or VLAN checks, or unclaimed, is dropped and counted. -/
  | ethRxDrop (p : Fin 4) (why : Fin 3)
  /-- ETH_TXKICK (R424): A TXKICK makes ETH look at the next transmit entry. -/
  | ethTxkick (req : Nat) (port : Fin 4)
  /-- TX_FRAME_DONE (R424): A transmit frame ends and its descriptor is written back, with a timestamp if requested. -/
  | txFrameDone (p : Fin 4) (pcs : Nat) (err : Bool)
  /-- TIMED_LAUNCH (R429): device time reaches a LAUNCH descriptor's TIME and the frame leaves. -/
  | timedLaunch (p : Fin 4) (t : Nat)
  /-- ETH_TXTS_POP (R428): A write removes the oldest transmit timestamp. -/
  | ethTxtsPop (req : Nat)
  /-- ETH_RING_SIZE (R423): A write of TXSIZE or RXSIZE sets the ring size and sets its NEXT to 0. -/
  | ethRingSize (req : Nat) (port : Fin 4) (rx : Bool) (value : Nat)
  /-- ETH_COUNTER_CLR (R420): ETH_PORTp_CLR sets the port's counters to 0. -/
  | ethCounterClr (req : Nat) (port : Fin 4)
  /-- ANNOUNCE (R430): A PTP Announce enters the BMCA and may select a source or give the UTC offset. -/
  | announce (p : Fin 4) (h : PtpHdr) (a : PtpAnn)
  /-- SYNC (R431): A PTP Sync on a SLAVE port gives an offset, which drives the servo and the time state. -/
  | ptpSync (p : Fin 4) (h : PtpHdr) (twoStep : Bool) (t1 : Nat) (pcs : Nat)
  /-- FOLLOW_UP (R431): A Follow_Up completes a two-step Sync. -/
  | followUp (p : Fin 4) (h : PtpHdr) (t1 : Nat)
  /-- DELAY_REQ (R431): A Delay_Req to a MASTER port is answered with Delay_Resp. -/
  | delayReq (p : Fin 4) (h : PtpHdr) (pcs : Nat)
  /-- DELAY_RESP (R431): A Delay_Resp updates meanPathDelay. -/
  | delayResp (p : Fin 4) (h : PtpHdr) (req : Nat) (t4 : Nat)
  /-- PDELAY_REQ (R431): A Pdelay_Req is answered. -/
  | pdelayReq (p : Fin 4) (h : PtpHdr) (pcs : Nat) (tx : Nat)
  /-- PDELAY_RESP (R431): A Pdelay_Resp gives a peer-delay measurement. -/
  | pdelayResp (p : Fin 4) (h : PtpHdr) (req : Nat) (twoStep : Bool) (t2 : Nat) (pcs : Nat)
  /-- PDELAY_RESP_FOLLOW_UP (R431): A Pdelay_Resp_Follow_Up completes a two-step peer-delay measurement. -/
  | pdelayRespFollowUp (p : Fin 4) (h : PtpHdr) (req : Nat) (t3 : Nat)
  /-- MANAGEMENT_MESSAGE (R430): A PTP management message is dropped. -/
  | managementMessage (p : Fin 4)
  /-- PTP_SEND_TIMER (R431): A PTP port's Sync, Announce or delay-request interval expires and the message is sent. -/
  | ptpSendTimer (p : Fin 4) (kind : Fin 3) (tx : Nat)
  /-- SYNC_TIMEOUT (R431): no Sync has come for SYNCTO intervals, the source is lost and HOLDOVER may be entered. -/
  | syncTimeout (p : Fin 4)
  /-- ANNOUNCE_RECEIPT_TIMEOUT (R431): the profile's Announce receipt timeout passes and the source is lost. -/
  | announceReceiptTimeout (p : Fin 4)
  /-- HOLDOVER_EXPIRY (R433): HOLDOVER has lasted HOLDMAX s and the state becomes EXPIRED. -/
  | holdoverExpiry
  /-- PTP_SNAP (R426): A write captures C and device time for the requester. -/
  | ptpSnap (req : Nat)
  /-- PTP_RATE (R425): A write of RATE first moves the anchor to the present time, so time does not jump. -/
  | ptpRate (req : Nat) (value : Nat)
  /-- PTP_STEP (R425): A write adds a signed amount to T0 and counts a step. -/
  | ptpStep (req : Nat) (value : Nat)
  /-- DRAM_REQUEST (R444): A DRAM request is served by class and age, with ECC correction or an error mark. -/
  | dramRequest (cls : Fin 4) (addr : Nat) (lat : Nat) (err : Fin 3)
  /-- REFRESH (R445): A per-bank refresh falls due and is issued, ahead of RT after 8 have been postponed. -/
  | refresh (ch : Fin 8) (rank : Fin 2) (bank : Fin 16) (rt : Bool)
  /-- MR4_POLL (R445): every 16 ms MR4 is read to set the refresh rate and check temperature. -/
  | mr4Poll (codes : List Nat)
  /-- SELF_REFRESH_ENTRY (R446): A channel idle for SRIDLE µs outside PRINTING enters self-refresh. -/
  | selfRefreshEntry (ch : Fin 8)
  /-- DRAM_RETRAIN_CHECK (R448): every RETRAIN ms a channel's drift is checked and its DQ timing may be retrained. -/
  | dramRetrainCheck (ch : Fin 8) (drift : Bool)
  /-- DRAM_RETRAIN_DONE (R448): A periodic retrain ends, keeping old settings on failure, and a pending frequency request may proceed. -/
  | dramRetrainDone (fail : Bool)
  /-- DMC_FREQ (R449): A write requests a set point, which is carried out, held pending or rejected. -/
  | dmcFreq (req : Nat) (value : Nat)
  /-- FREQ_CHANGE_DONE (R449): A set-point change ends, or a channel returns to the old set point, and DMC line 3 rises. -/
  | freqChangeDone (relock : Bool)
  /-- DRAM_SCRUB (R450): the scrub reads and corrects memory to cover it once in HOURS. -/
  | dramScrub (err : Fin 3)
  /-- CE_RATE_WINDOW (R450): at the end of each 1 s the corrected-error count is judged against CETHR. -/
  | ceRateWindow
  /-- DMC_STATCLR (R450): A write clears the selected DMC counters. -/
  | dmcStatclr (req : Nat) (value : Nat)
  /-- DMC_UEADDR_CLEAR (R450): writing 1 to UEADDRHI.VALID clears both error-address registers. -/
  | dmcUeaddrClear (req : Nat)
  /-- DMA_KICK (R454): A write makes a DMA channel eligible, or is rejected while STOPPED. -/
  | dmaKick (req : Nat) (chan : Fin 16)
  /-- DMA_DESCRIPTOR_FETCH (R455): the engine fetches and checks the next eligible descriptor and starts its reads. -/
  | dmaDescriptorFetch (err : Bool)
  /-- DMA_WRITEBACK (R453): once every data write is acknowledged, the descriptor is written back DONE. -/
  | dmaWriteback
  /-- DMA_BUS_ERROR (R456): A data error stops the channel with INTEGRITY, or stops every channel if it came after the last beat. -/
  | dmaBusError (kind : Fin 3) (count : Nat)
  /-- DMA_RESET (R458): DMA_CTL.RESET clears STOPPED and every channel stop. -/
  | dmaReset (req : Nat)
  /-- DMA_RING_SIZE (R452): A write of a channel's SIZE sets its ring size and NEXT to 0. -/
  | dmaRingSize (req : Nat) (chan : Fin 16) (value : Nat)
  /-- FAULT_REPORT (R460): the collector takes a fault report, sets it pending, records it and starts its reaction. -/
  | faultReport (reports : List (Nat × Nat)) (damaged : Option (Fin 64))
  /-- SAFE_JOURNAL_COMPLETE (R472): the last INTERRUPTED write ends and FLT_SAFESTAT.JOURNAL is set. -/
  | safeJournalComplete
  /-- FLT_INJ (R469): the trusted core writes FLT_INJ and an injected report is taken the next cycle. -/
  | fltInj (req : Nat) (value : Nat)
  /-- FLT_FWRAISE (R468): A write raises firmware source 200 + N with DETAIL. -/
  | fltFwraise (req : Nat) (value : Nat)
  /-- FLT_PEND_CLEAR (R465): W1C writes to FLT_PENDk clear pending bits, possibly ending STOP and raising FAULT_N. -/
  | fltPendClear (req : Nat) (word : Fin 8) (value : Nat)
  /-- FLT_SAFECTL_EXIT (R473): an EXIT write with its key leaves SAFE for READY when every condition holds. -/
  | fltSafectlExit (req : Nat) (value : Nat)
  /-- FLT_HISTCLR (R462): A write empties the history, clears FIRST or LOSTCNT, and re-opens detail capture. -/
  | fltHistclr (req : Nat) (value : Nat)
  /-- SEVERITY_CHECK (R471): every 256 cycles the two severity copies are compared; a mismatch takes the higher and raises source 32. -/
  | severityCheck (copies : List (Fin 256 × Fin 6)) (words : List (Fin 8))
  /-- HARVEST (R474): once the journal is consistent after a FATAL fault, the harvest writes the MRAM summary and the DRAM dump. -/
  | harvest (err : Bool)
  /-- HARVEST_COMPLETE (R474): the harvest writes DRAMWORD and applies the FATALPOL reset or hold. -/
  | harvestComplete
  /-- HARVEST_TIMEOUT (R474): A harvest unfinished after 30 ms is abandoned with TIMEOUT. -/
  | harvestTimeout
  /-- FEED_OUT_OF_RANGE (R479): A feed outside 3.0 to 3.6 V for 10 µs while the other is valid raises source 188 or 189. -/
  | feedOutOfRange (feed : Fin 2) (mv : Nat)
  /-- FEED_SWITCH_OPEN (R479): A feed 20 mV below the joined node has its ORing switch opened within 1 µs. -/
  | feedSwitchOpen (feed : Fin 2)
  /-- ORING_FAULT (R479): an ORing switch carries reverse current or fails to close, raising source 191. -/
  | oringFault (feed : Fin 2)
  /-- REGULATOR_FAULT (R468): A regulator output outside ±5 % for 1 µs raises source 190. -/
  | regulatorFault (mv : Nat)
  /-- POWER_FAIL_WARNING (R480): both feeds fall below 2.9 V: ALIVE stops and JNL finishes only its word in progress. -/
  | powerFailWarning
  /-- DIE_TEMP_THRESHOLD (R468): the on-die temperature crosses WARN, HOT or COLD, raising source 192, 193 or 194. -/
  | dieTempThreshold (hot : Int) (cold : Int)
  /-- DIE_SENSOR_MISMATCH (R468): two on-die sensors differ by more than 10 °C and source 195 is raised. -/
  | dieSensorMismatch (diff : Nat)
  /-- SAFE_N_LOW (R468): SAFE_N held low longer than the filter raises SAFEN, source 196. -/
  | safeNLow
  /-- SAFE_N_SHORT (R468): A low pulse on SAFE_N shorter than the filter raises source 197. -/
  | safeNShort
  /-- RAIL_CHANGE (R481): A VIO bank or DRAM rail leaves or enters its range, updating RAILS and raising PIN line 2. -/
  | railChange (ok : Bool)
  /-- GPIO_EDGE (R500): an enabled edge on a pad sets its bit in PIN_GPIO_EDGE. -/
  | gpioEdge (pad : Fin 64) (level : Bool)
  /-- FEED_RESTORED (R479): A feed that had failed returns within 3.0 to 3.6 V while the other stays valid; its ORing switch closes, PIN_PWRSTAT.VINx_OK and TWN_HEALTH.FEED clear, and PIN line 2 rises. -/
  | feedRestored (feed : Fin 2) (mv : Nat)
  /-- SUPPLY_LOSS (R480): both feeds fall below 2.6 V, and the power-on reset holds the device, which enters OFF. -/
  | supplyLoss
  /-- SAFE_N_RELEASE (R468): SAFE_N returns high: PIN line 1 rises, the SAFEN pending bit becomes clearable, and the SAFE_N condition of the EXIT check holds again. -/
  | safeNRelease
  /-- ALARM_INPUT_INACTIVE (R473): an enabled alarm input stops being active, so SEC_STATUS.ALARM clears and the alarm conditions of SAFE exit and of erase-marker clearing can hold. -/
  | alarmInputInactive (n : Fin 8)
  deriving DecidableEq, Repr

end Sys2Proof
end

