-- ==== Sys2Proof/Config.lean ====
section
/-! DEFINITION. What the spec leaves open: the free values. -/

namespace Sys2Proof

/-- The `n`-th value that the spec leaves open (log entry 2): no body, so nothing constrains it. -/
opaque Config.freeValue : Nat → Nat

/-- Characters of a GS1 element string whose AI begins with 23 (R205): the spec calls the length
predefined and does not state it. -/
opaque Config.gs1Len23 : Nat

/-- The channel `c` of a pixel of a source with one channel of value `v` (R336, R339): the spec gives a
mono source no green and no blue. -/
opaque Config.absentChannel : Nat → Nat → Nat

/-- The density of a linear value above paper white (R339): the spec's formula leaves the ten bits. -/
opaque Config.brightDensity : Nat → Nat

/-- Whether the conversion of a YUV pixel to channel `c` rounds a fraction up (R336): the arguments are
`c`, Y, U and V. -/
opaque Config.yuvRoundsUp : Nat → Nat → Nat → Nat → Bool

/-- offsetScaledLogVariance of this device's own clock (R430): the spec gives none. -/
opaque Config.clockVariance : Nat

/-- Whether the servo rounds the quotient of its arguments up (R432): the spec gives no rounding. -/
opaque Config.servoRoundsUp : Int → Int → Bool

/-- The two Zelnath public keys of the boot ROM, X then Y (R77): the spec does not give them. -/
opaque Config.zelnathKey : Nat → List Byte

end Sys2Proof
end

