-- ==== Sys2Proof/Machine/RegMap.lean ====
section
/-! DEFINITION. The register map: every register block of R34, the header of R37, every register
of every chapter's register tables (offset, array strides, fields with their access code of R4 and
their reset value), the register's address by name (`R.…`) and each field by name (`F.…`).
Reserved bits are the bits that no field covers (R5). -/

namespace Sys2Proof.Machine

/-- Access codes of R4; `trsWo` and `trsRo` are a TRS field that is also WO or RO. -/
inductive Acc where
  | rw | ro | wo | w1c | w1s | rws | lck | trs | trsWo | trsRo
  deriving DecidableEq, Repr

/-- One field of a register row: bits `[hi:lo]` and its access code. -/
structure FieldRow where
  hi : Nat
  lo : Nat
  acc : Acc
  deriving DecidableEq, Repr

/-- One register, or one array of registers: the address of its first element, the strides and
counts of its indices (largest stride first), its fields and its reset value. -/
structure RegRow where
  base : Nat
  dims : List (Nat × Nat)
  fields : List FieldRow
  reset : Nat
  deriving DecidableEq, Repr

/-- A named field of one register: the register's address, its lowest bit and its width. -/
structure Fld where
  addr : Nat
  lo : Nat
  width : Nat
  deriving DecidableEq, Repr

/-- Registers of block SYS, part 0, in offset order. -/
def regMapSys0 : List RegRow := [
  ⟨0x02000010, [], [⟨11, 8, .ro⟩, ⟨3, 0, .ro⟩], 0x1⟩,
  ⟨0x02000014, [], [⟨5, 5, .w1c⟩, ⟨4, 4, .ro⟩, ⟨3, 3, .ro⟩, ⟨2, 2, .ro⟩, ⟨1, 1, .ro⟩, ⟨0, 0, .ro⟩], 0x1⟩,
  ⟨0x02000018, [], [⟨31, 16, .trsWo⟩, ⟨1, 0, .trsWo⟩], 0x0⟩,
  ⟨0x02000020, [(0x4, 4)], [⟨31, 0, .ro⟩], 0x0⟩,
  ⟨0x02000030, [], [⟨6, 0, .trs⟩], 0x0⟩,
  ⟨0x02000034, [], [⟨23, 0, .ro⟩], 0x0⟩,
  ⟨0x02000038, [], [⟨16, 16, .lck⟩, ⟨15, 0, .lck⟩], 0x0⟩,
  ⟨0x0200003C, [], [⟨15, 0, .wo⟩], 0x0⟩,
  ⟨0x02000040, [], [⟨15, 0, .trsWo⟩], 0x0⟩,
  ⟨0x02000044, [], [⟨31, 0, .ro⟩], 0x0⟩,
  ⟨0x02000048, [], [⟨3, 3, .w1c⟩, ⟨2, 2, .w1c⟩, ⟨1, 1, .w1c⟩], 0x0⟩,
  ⟨0x0200004C, [], [⟨3, 3, .rw⟩, ⟨2, 2, .rw⟩, ⟨1, 1, .rw⟩], 0x0⟩]

/-- The registers of block SYS after its header. -/
def regMapSys : List RegRow := regMapSys0

/-- Registers of block CFG, part 0, in offset order. -/
def regMapCfg0 : List RegRow := [
  ⟨0x02010010, [], [⟨15, 8, .ro⟩, ⟨4, 4, .ro⟩, ⟨3, 3, .ro⟩, ⟨2, 2, .ro⟩, ⟨1, 1, .ro⟩, ⟨0, 0, .ro⟩], 0x0⟩,
  ⟨0x02010014, [], [⟨31, 0, .ro⟩], 0x0⟩,
  ⟨0x02010018, [], [⟨31, 0, .ro⟩], 0x0⟩,
  ⟨0x0201001C, [], [⟨25, 16, .ro⟩, ⟨11, 11, .ro⟩, ⟨10, 10, .ro⟩, ⟨9, 9, .ro⟩, ⟨8, 8, .ro⟩, ⟨7, 0, .ro⟩], 0x0⟩,
  ⟨0x02010020, [], [⟨25, 16, .ro⟩, ⟨11, 11, .ro⟩, ⟨10, 10, .ro⟩, ⟨9, 9, .ro⟩, ⟨8, 8, .ro⟩, ⟨7, 0, .ro⟩], 0x0⟩,
  ⟨0x02010024, [], [⟨31, 0, .ro⟩], 0x0⟩,
  ⟨0x02010028, [], [⟨17, 16, .ro⟩, ⟨15, 0, .ro⟩], 0x0⟩,
  ⟨0x02010030, [], [⟨31, 31, .rw⟩, ⟨22, 16, .rw⟩, ⟨14, 8, .rw⟩, ⟨3, 0, .rw⟩], 0x0⟩,
  ⟨0x02010034, [], [⟨15, 0, .wo⟩], 0x0⟩,
  ⟨0x02010038, [], [⟨15, 8, .ro⟩, ⟨1, 0, .ro⟩], 0x0⟩,
  ⟨0x0201003C, [], [⟨1, 1, .w1c⟩, ⟨0, 0, .w1c⟩], 0x0⟩,
  ⟨0x02010040, [], [⟨1, 1, .rw⟩, ⟨0, 0, .rw⟩], 0x0⟩]

/-- Registers of block CFG, part 1, in offset order. -/
def regMapCfg1 : List RegRow := [
  ⟨0x02010100, [(0x4, 64)], [⟨31, 24, .ro⟩, ⟨23, 16, .ro⟩, ⟨15, 0, .ro⟩], 0x0⟩]

/-- The registers of block CFG after its header. -/
def regMapCfg : List RegRow := regMapCfg0 ++ regMapCfg1

/-- Registers of block SEC, part 0, in offset order. -/
def regMapSec0 : List RegRow := [
  ⟨0x02020010, [], [⟨15, 8, .ro⟩, ⟨4, 4, .ro⟩, ⟨3, 3, .ro⟩, ⟨2, 2, .ro⟩, ⟨1, 1, .ro⟩, ⟨0, 0, .ro⟩], 0x0⟩,
  ⟨0x02020014, [], [⟨7, 0, .w1c⟩], 0x0⟩,
  ⟨0x02020020, [(0x4, 8)], [⟨31, 16, .lck⟩, ⟨8, 8, .lck⟩, ⟨5, 4, .lck⟩, ⟨1, 1, .lck⟩, ⟨0, 0, .lck⟩], 0xA0000⟩,
  ⟨0x02020040, [], [⟨6, 0, .lck⟩], 0x0⟩,
  ⟨0x02020044, [], [⟨2, 2, .w1c⟩, ⟨1, 1, .w1c⟩, ⟨0, 0, .w1c⟩], 0x0⟩,
  ⟨0x02020048, [], [⟨2, 2, .rw⟩, ⟨1, 1, .rw⟩, ⟨0, 0, .rw⟩], 0x0⟩,
  ⟨0x0202004C, [], [⟨31, 16, .trsWo⟩, ⟨1, 0, .trsWo⟩], 0x0⟩,
  ⟨0x02020080, [(0x4, 8)], [⟨31, 0, .ro⟩], 0x0⟩,
  ⟨0x02020100, [(0x4, 24)], [⟨31, 0, .ro⟩], 0x0⟩]

/-- The registers of block SEC after its header. -/
def regMapSec : List RegRow := regMapSec0

/-- Registers of block JNL, part 0, in offset order. -/
def regMapJnl0 : List RegRow := [
  ⟨0x02030010, [], [⟨17, 17, .ro⟩, ⟨16, 16, .ro⟩, ⟨15, 0, .ro⟩], 0x0⟩,
  ⟨0x02030014, [], [⟨31, 0, .ro⟩], 0x0⟩,
  ⟨0x02030018, [], [⟨31, 16, .ro⟩, ⟨15, 0, .ro⟩], 0x0⟩,
  ⟨0x0203001C, [], [⟨15, 0, .ro⟩], 0x0⟩,
  ⟨0x02030020, [], [⟨31, 0, .ro⟩], 0x0⟩,
  ⟨0x02030024, [], [⟨31, 0, .ro⟩], 0x0⟩,
  ⟨0x02030028, [], [⟨15, 0, .rw⟩], 0x400⟩,
  ⟨0x0203002C, [], [⟨2, 2, .w1c⟩, ⟨1, 1, .w1c⟩, ⟨0, 0, .w1c⟩], 0x0⟩,
  ⟨0x02030030, [], [⟨2, 2, .rw⟩, ⟨1, 1, .rw⟩, ⟨0, 0, .rw⟩], 0x0⟩]

/-- The registers of block JNL after its header. -/
def regMapJnl : List RegRow := regMapJnl0

/-- Registers of block FLT, part 0, in offset order. -/
def regMapFlt0 : List RegRow := [
  ⟨0x02040010, [], [⟨11, 9, .lck⟩, ⟨8, 6, .lck⟩, ⟨2, 2, .lck⟩, ⟨1, 1, .lck⟩, ⟨0, 0, .lck⟩], 0x6C0⟩,
  ⟨0x02040014, [], [⟨31, 24, .ro⟩, ⟨23, 23, .ro⟩, ⟨22, 22, .ro⟩, ⟨21, 21, .ro⟩, ⟨20, 20, .ro⟩, ⟨12, 6, .ro⟩, ⟨5, 0, .ro⟩], 0x0⟩,
  ⟨0x02040018, [], [⟨31, 31, .ro⟩, ⟨23, 16, .ro⟩, ⟨15, 8, .ro⟩, ⟨7, 0, .ro⟩], 0x0⟩,
  ⟨0x0204001C, [], [⟨31, 0, .ro⟩], 0x0⟩,
  ⟨0x02040020, [], [⟨31, 16, .wo⟩, ⟨0, 0, .wo⟩], 0x0⟩,
  ⟨0x02040024, [], [⟨31, 28, .ro⟩, ⟨27, 20, .ro⟩, ⟨19, 16, .ro⟩, ⟨2, 2, .ro⟩, ⟨1, 1, .ro⟩, ⟨0, 0, .ro⟩], 0x0⟩,
  ⟨0x02040028, [], [⟨31, 8, .trsWo⟩, ⟨7, 0, .trsWo⟩], 0x0⟩,
  ⟨0x0204002C, [], [⟨31, 8, .wo⟩, ⟨4, 0, .wo⟩], 0x0⟩,
  ⟨0x02040030, [], [⟨31, 31, .lck⟩, ⟨30, 30, .lck⟩, ⟨15, 0, .lck⟩], 0x0⟩,
  ⟨0x02040034, [], [⟨31, 16, .ro⟩, ⟨15, 8, .ro⟩, ⟨2, 0, .ro⟩], 0x0⟩,
  ⟨0x02040038, [], [⟨5, 5, .w1c⟩, ⟨4, 4, .w1c⟩, ⟨3, 3, .w1c⟩, ⟨2, 2, .w1c⟩, ⟨1, 1, .w1c⟩, ⟨0, 0, .w1c⟩], 0x0⟩,
  ⟨0x0204003C, [], [⟨5, 5, .rw⟩, ⟨4, 4, .rw⟩, ⟨3, 3, .rw⟩, ⟨2, 2, .rw⟩, ⟨1, 1, .rw⟩, ⟨0, 0, .rw⟩], 0x0⟩]

/-- Registers of block FLT, part 1, in offset order. -/
def regMapFlt1 : List RegRow := [
  ⟨0x02040040, [], [⟨2, 2, .wo⟩, ⟨1, 1, .wo⟩, ⟨0, 0, .wo⟩], 0x0⟩,
  ⟨0x02040044, [], [⟨31, 24, .lck⟩, ⟨23, 16, .lck⟩, ⟨15, 8, .lck⟩, ⟨7, 0, .lck⟩], 0x6E7DC905⟩,
  ⟨0x02040048, [], [⟨15, 0, .ro⟩], 0x0⟩,
  ⟨0x0204004C, [], [⟨15, 0, .lck⟩], 0xA⟩,
  ⟨0x02040080, [(0x4, 8)], [⟨31, 0, .w1c⟩], 0x0⟩,
  ⟨0x02040100, [(0x4, 16)], [⟨31, 0, .ro⟩], 0x0⟩,
  ⟨0x02040400, [(0x4, 256)], [⟨26, 24, .ro⟩, ⟨18, 16, .ro⟩, ⟨10, 8, .lck⟩, ⟨3, 3, .ro⟩, ⟨2, 0, .trs⟩], 0x0⟩,
  ⟨0x02040800, [(0x20, 64), (0x4, 8)], [⟨31, 0, .ro⟩], 0x0⟩]

/-- The registers of block FLT after its header. -/
def regMapFlt : List RegRow := regMapFlt0 ++ regMapFlt1

/-- Registers of block TWN, part 0, in offset order. -/
def regMapTwn0 : List RegRow := [
  ⟨0x02050010, [], [⟨31, 31, .lck⟩, ⟨30, 30, .lck⟩, ⟨29, 29, .lck⟩, ⟨28, 28, .lck⟩, ⟨27, 24, .lck⟩, ⟨23, 16, .lck⟩, ⟨15, 8, .lck⟩, ⟨7, 0, .lck⟩], 0xA3232⟩,
  ⟨0x02050014, [], [⟨31, 0, .lck⟩], 0x0⟩,
  ⟨0x02050018, [], [⟨31, 29, .ro⟩, ⟨28, 26, .ro⟩, ⟨25, 25, .ro⟩, ⟨24, 24, .ro⟩, ⟨23, 22, .ro⟩, ⟨21, 21, .ro⟩, ⟨20, 20, .ro⟩, ⟨19, 19, .ro⟩], 0x0⟩,
  ⟨0x0205001C, [], [⟨31, 0, .ro⟩], 0x0⟩,
  ⟨0x02050020, [], [⟨31, 0, .ro⟩], 0x0⟩,
  ⟨0x02050024, [], [⟨31, 0, .ro⟩], 0x0⟩,
  ⟨0x02050028, [], [⟨31, 0, .ro⟩], 0x0⟩,
  ⟨0x0205002C, [], [⟨31, 0, .ro⟩], 0x0⟩,
  ⟨0x02050030, [], [⟨31, 28, .ro⟩, ⟨15, 0, .ro⟩], 0x0⟩,
  ⟨0x02050034, [], [⟨31, 0, .ro⟩], 0x0⟩,
  ⟨0x02050038, [], [⟨31, 0, .ro⟩], 0x0⟩,
  ⟨0x0205003C, [], [⟨31, 16, .ro⟩, ⟨7, 7, .ro⟩, ⟨6, 6, .ro⟩, ⟨5, 5, .ro⟩, ⟨4, 4, .ro⟩, ⟨3, 3, .ro⟩, ⟨2, 2, .ro⟩, ⟨1, 1, .ro⟩, ⟨0, 0, .ro⟩], 0x0⟩]

/-- Registers of block TWN, part 1, in offset order. -/
def regMapTwn1 : List RegRow := [
  ⟨0x02050040, [], [⟨31, 16, .ro⟩, ⟨7, 7, .ro⟩, ⟨6, 6, .ro⟩, ⟨5, 5, .ro⟩, ⟨4, 4, .ro⟩, ⟨3, 3, .ro⟩, ⟨2, 2, .ro⟩, ⟨1, 1, .ro⟩, ⟨0, 0, .ro⟩], 0x0⟩,
  ⟨0x02050044, [], [⟨7, 7, .w1c⟩, ⟨6, 6, .w1c⟩, ⟨5, 5, .w1c⟩, ⟨4, 4, .w1c⟩, ⟨3, 3, .w1c⟩, ⟨2, 2, .w1c⟩, ⟨1, 1, .w1c⟩, ⟨0, 0, .w1c⟩], 0x0⟩,
  ⟨0x02050048, [], [⟨7, 7, .rw⟩, ⟨6, 6, .rw⟩, ⟨5, 5, .rw⟩, ⟨4, 4, .rw⟩, ⟨3, 3, .rw⟩, ⟨2, 2, .rw⟩, ⟨1, 1, .rw⟩, ⟨0, 0, .rw⟩], 0x0⟩,
  ⟨0x0205004C, [], [⟨31, 16, .trsWo⟩, ⟨2, 0, .trsWo⟩], 0x0⟩,
  ⟨0x02050100, [(0x8, 4)], [⟨31, 0, .ro⟩], 0x0⟩,
  ⟨0x02050104, [(0x8, 4)], [⟨31, 0, .ro⟩], 0x0⟩]

/-- The registers of block TWN after its header. -/
def regMapTwn : List RegRow := regMapTwn0 ++ regMapTwn1

/-- Registers of block MBX, part 0, in offset order. -/
def regMapMbx0 : List RegRow := [
  ⟨0x02060010, [], [⟨3, 0, .trsRo⟩], 0x0⟩,
  ⟨0x02060014, [], [⟨3, 0, .trs⟩], 0x0⟩,
  ⟨0x02060018, [], [⟨3, 0, .w1c⟩], 0x0⟩,
  ⟨0x0206001C, [], [⟨3, 0, .rw⟩], 0x0⟩,
  ⟨0x02060100, [(0x100, 4), (0x4, 16)], [⟨31, 0, .rw⟩], 0x0⟩,
  ⟨0x02060140, [(0x100, 4), (0x4, 16)], [⟨31, 0, .ro⟩], 0x0⟩,
  ⟨0x02060180, [(0x100, 4)], [⟨2, 2, .w1c⟩, ⟨1, 1, .ro⟩, ⟨0, 0, .w1s⟩], 0x0⟩]

/-- The registers of block MBX after its header. -/
def regMapMbx : List RegRow := regMapMbx0

/-- Registers of block ITK, part 0, in offset order. -/
def regMapItk0 : List RegRow := [
  ⟨0x08000010, [], [⟨21, 18, .lck⟩, ⟨17, 17, .lck⟩, ⟨16, 16, .lck⟩, ⟨15, 0, .lck⟩], 0x5650⟩,
  ⟨0x08000014, [], [⟨31, 0, .ro⟩], 0x0⟩,
  ⟨0x08000018, [], [⟨31, 0, .ro⟩], 0x0⟩,
  ⟨0x0800001C, [], [⟨31, 0, .ro⟩], 0x0⟩,
  ⟨0x08000020, [], [⟨31, 0, .ro⟩], 0x0⟩,
  ⟨0x08000024, [], [⟨3, 0, .wo⟩], 0x0⟩,
  ⟨0x08000028, [], [⟨15, 0, .lck⟩], 0x3E8⟩,
  ⟨0x0800002C, [], [⟨31, 0, .lck⟩], 0x0⟩,
  ⟨0x08000030, [], [⟨31, 0, .lck⟩], 0x0⟩,
  ⟨0x08000034, [], [⟨3, 3, .w1c⟩, ⟨2, 2, .w1c⟩, ⟨1, 1, .w1c⟩, ⟨0, 0, .w1c⟩], 0x0⟩,
  ⟨0x08000038, [], [⟨3, 3, .rw⟩, ⟨2, 2, .rw⟩, ⟨1, 1, .rw⟩, ⟨0, 0, .rw⟩], 0x0⟩,
  ⟨0x08000100, [(0x10, 8)], [⟨31, 16, .lck⟩, ⟨15, 8, .lck⟩, ⟨0, 0, .lck⟩], 0x0⟩]

/-- Registers of block ITK, part 1, in offset order. -/
def regMapItk1 : List RegRow := [
  ⟨0x08000104, [(0x10, 8)], [⟨31, 16, .lck⟩, ⟨15, 8, .lck⟩, ⟨3, 0, .lck⟩], 0x320200⟩,
  ⟨0x08000108, [(0x10, 8)], [⟨16, 8, .ro⟩, ⟨1, 0, .ro⟩], 0x0⟩,
  ⟨0x0800010C, [(0x10, 8)], [⟨31, 0, .ro⟩], 0x0⟩,
  ⟨0x08000200, [(0x10, 16)], [⟨17, 17, .lck⟩, ⟨16, 16, .lck⟩, ⟨15, 0, .lck⟩], 0x1000⟩,
  ⟨0x08000204, [(0x10, 16)], [⟨31, 0, .ro⟩], 0x0⟩,
  ⟨0x08000208, [(0x10, 16)], [⟨31, 0, .ro⟩], 0x0⟩,
  ⟨0x0800020C, [(0x10, 16)], [⟨31, 16, .ro⟩, ⟨15, 0, .ro⟩], 0x0⟩,
  ⟨0x08000300, [(0x4, 32)], [⟨31, 31, .lck⟩, ⟨29, 23, .lck⟩, ⟨22, 16, .lck⟩, ⟨15, 0, .lck⟩], 0x0⟩]

/-- The registers of block ITK after its header. -/
def regMapItk : List RegRow := regMapItk0 ++ regMapItk1

/-- Registers of block BRD, part 0, in offset order. -/
def regMapBrd0 : List RegRow := [
  ⟨0x08010010, [], [⟨2, 2, .w1c⟩, ⟨1, 1, .w1c⟩, ⟨0, 0, .w1c⟩], 0x0⟩,
  ⟨0x08010014, [], [⟨2, 2, .rw⟩, ⟨1, 1, .rw⟩, ⟨0, 0, .rw⟩], 0x0⟩,
  ⟨0x08010020, [], [⟨22, 20, .rw⟩, ⟨19, 16, .rw⟩, ⟨15, 0, .rw⟩], 0x0⟩,
  ⟨0x08010024, [], [⟨31, 16, .rw⟩, ⟨15, 0, .rw⟩], 0x0⟩,
  ⟨0x08010028, [], [⟨31, 0, .rw⟩], 0x0⟩,
  ⟨0x0801002C, [], [⟨31, 0, .rw⟩], 0x0⟩,
  ⟨0x08010030, [], [⟨19, 0, .rw⟩], 0x0⟩,
  ⟨0x08010034, [], [⟨0, 0, .wo⟩], 0x0⟩,
  ⟨0x08010038, [], [⟨15, 8, .ro⟩, ⟨1, 0, .ro⟩], 0x0⟩,
  ⟨0x08010100, [(0x20, 8)], [⟨31, 16, .ro⟩, ⟨12, 4, .ro⟩, ⟨3, 0, .ro⟩], 0x0⟩,
  ⟨0x08010104, [(0x20, 8)], [⟨31, 0, .ro⟩], 0x0⟩,
  ⟨0x08010108, [(0x20, 8)], [⟨31, 0, .ro⟩], 0x0⟩]

/-- Registers of block BRD, part 1, in offset order. -/
def regMapBrd1 : List RegRow := [
  ⟨0x0801010C, [(0x20, 8)], [⟨31, 31, .w1c⟩, ⟨19, 16, .ro⟩, ⟨15, 0, .ro⟩], 0x0⟩,
  ⟨0x08010110, [(0x20, 8)], [⟨15, 0, .ro⟩], 0x0⟩]

/-- The registers of block BRD after its header. -/
def regMapBrd : List RegRow := regMapBrd0 ++ regMapBrd1

/-- Registers of block BRC, part 0, in offset order. -/
def regMapBrc0 : List RegRow := [
  ⟨0x08020010, [], [⟨31, 0, .rw⟩], 0x0⟩,
  ⟨0x08020014, [], [⟨31, 0, .rw⟩], 0x0⟩,
  ⟨0x08020018, [], [⟨19, 0, .rw⟩], 0x0⟩,
  ⟨0x0802001C, [], [⟨31, 0, .rw⟩], 0x0⟩,
  ⟨0x08020020, [], [⟨31, 0, .rw⟩], 0x0⟩,
  ⟨0x08020024, [], [⟨31, 16, .rw⟩, ⟨15, 8, .rw⟩, ⟨6, 4, .rw⟩, ⟨3, 0, .rw⟩], 0x40003F04⟩,
  ⟨0x08020028, [], [⟨3, 0, .rw⟩], 0x0⟩,
  ⟨0x0802002C, [], [⟨31, 0, .rw⟩], 0x0⟩,
  ⟨0x08020030, [], [⟨31, 0, .rw⟩], 0x0⟩,
  ⟨0x08020034, [], [⟨31, 0, .rw⟩], 0x0⟩,
  ⟨0x08020038, [], [⟨31, 0, .ro⟩], 0x0⟩,
  ⟨0x0802003C, [], [⟨31, 0, .rw⟩], 0x0⟩]

/-- Registers of block BRC, part 1, in offset order. -/
def regMapBrc1 : List RegRow := [
  ⟨0x08020040, [], [⟨0, 0, .wo⟩], 0x0⟩,
  ⟨0x08020044, [], [⟨31, 24, .ro⟩, ⟨18, 16, .ro⟩, ⟨1, 0, .ro⟩], 0x0⟩,
  ⟨0x08020048, [], [⟨31, 0, .ro⟩], 0x0⟩,
  ⟨0x0802004C, [], [⟨31, 0, .ro⟩], 0x0⟩,
  ⟨0x08020050, [], [⟨2, 2, .w1c⟩, ⟨1, 1, .w1c⟩, ⟨0, 0, .w1c⟩], 0x0⟩,
  ⟨0x08020054, [], [⟨2, 2, .rw⟩, ⟨1, 1, .rw⟩, ⟨0, 0, .rw⟩], 0x0⟩]

/-- The registers of block BRC after its header. -/
def regMapBrc : List RegRow := regMapBrc0 ++ regMapBrc1

/-- Registers of block RAS, part 0, in offset order. -/
def regMapRas0 : List RegRow := [
  ⟨0x08030010, [], [⟨22, 16, .ro⟩, ⟨12, 8, .ro⟩, ⟨4, 0, .ro⟩], 0x0⟩,
  ⟨0x08030014, [], [⟨5, 0, .lck⟩], 0x8⟩,
  ⟨0x08030018, [], [⟨4, 4, .w1c⟩, ⟨3, 3, .w1c⟩, ⟨2, 2, .w1c⟩, ⟨1, 1, .w1c⟩, ⟨0, 0, .w1c⟩], 0x0⟩,
  ⟨0x0803001C, [], [⟨4, 4, .rw⟩, ⟨3, 3, .rw⟩, ⟨2, 2, .rw⟩, ⟨1, 1, .rw⟩, ⟨0, 0, .rw⟩], 0x0⟩,
  ⟨0x08030020, [], [⟨31, 31, .w1c⟩, ⟨19, 16, .ro⟩, ⟨11, 8, .ro⟩, ⟨2, 0, .ro⟩], 0x0⟩,
  ⟨0x08030024, [], [⟨31, 0, .ro⟩], 0x0⟩,
  ⟨0x08030028, [], [⟨31, 0, .ro⟩], 0x0⟩,
  ⟨0x0803002C, [], [⟨31, 0, .ro⟩], 0x0⟩,
  ⟨0x08030030, [], [⟨8, 8, .wo⟩, ⟨7, 0, .wo⟩], 0x0⟩,
  ⟨0x08030034, [], [⟨23, 16, .ro⟩, ⟨15, 0, .ro⟩], 0x0⟩,
  ⟨0x08030100, [(0x10, 16)], [⟨23, 20, .ro⟩, ⟨19, 16, .ro⟩, ⟨15, 12, .ro⟩, ⟨11, 8, .ro⟩, ⟨4, 4, .ro⟩, ⟨3, 0, .ro⟩], 0x0⟩,
  ⟨0x08030104, [(0x10, 16)], [⟨31, 0, .ro⟩], 0x0⟩]

/-- Registers of block RAS, part 1, in offset order. -/
def regMapRas1 : List RegRow := [
  ⟨0x08030108, [(0x10, 16)], [⟨18, 0, .ro⟩], 0x0⟩,
  ⟨0x0803010C, [(0x10, 16)], [⟨7, 0, .ro⟩], 0x0⟩,
  ⟨0x08030200, [(0x10, 16)], [⟨31, 16, .ro⟩, ⟨4, 4, .ro⟩, ⟨3, 0, .ro⟩], 0x0⟩,
  ⟨0x08030204, [(0x10, 16)], [⟨18, 0, .ro⟩], 0x0⟩,
  ⟨0x08030208, [(0x10, 16)], [⟨18, 0, .ro⟩], 0x0⟩,
  ⟨0x08030300, [(0x10, 8)], [⟨31, 16, .ro⟩, ⟨6, 0, .ro⟩], 0x40⟩,
  ⟨0x08030304, [(0x10, 8)], [⟨31, 0, .ro⟩], 0x0⟩,
  ⟨0x08030400, [(0x10, 64)], [⟨31, 24, .ro⟩, ⟨17, 17, .ro⟩, ⟨16, 16, .ro⟩, ⟨15, 0, .ro⟩], 0x0⟩,
  ⟨0x08030404, [(0x10, 64)], [⟨31, 28, .ro⟩, ⟨18, 0, .ro⟩], 0x0⟩,
  ⟨0x08030408, [(0x10, 64)], [⟨17, 0, .ro⟩], 0x0⟩,
  ⟨0x08038000, [(0x200, 16), (0x4, 64)], [⟨31, 24, .lck⟩, ⟨23, 16, .lck⟩, ⟨15, 8, .lck⟩, ⟨7, 0, .lck⟩], 0x0⟩,
  ⟨0x08038100, [(0x200, 16), (0x4, 64)], [⟨31, 24, .lck⟩, ⟨23, 16, .lck⟩, ⟨15, 8, .lck⟩, ⟨7, 0, .lck⟩], 0x0⟩]

/-- Registers of block RAS, part 2, in offset order. -/
def regMapRas2 : List RegRow := [
  ⟨0x0803A000, [(0x200, 8), (0x4, 64)], [⟨31, 0, .lck⟩], 0x0⟩,
  ⟨0x0803A100, [(0x200, 8), (0x10, 16), (0x4, 4)], [⟨31, 0, .lck⟩], 0x0⟩]

/-- The registers of block RAS after its header. -/
def regMapRas : List RegRow := regMapRas0 ++ regMapRas1 ++ regMapRas2

/-- Registers of block IMP, part 0, in offset order. -/
def regMapImp0 : List RegRow := [
  ⟨0x08040010, [], [⟨0, 0, .lck⟩], 0x0⟩,
  ⟨0x08040014, [], [⟨31, 0, .lck⟩], 0x0⟩,
  ⟨0x08040018, [], [⟨31, 0, .lck⟩], 0x0⟩,
  ⟨0x0804001C, [], [⟨31, 0, .lck⟩], 0x0⟩,
  ⟨0x08040020, [], [⟨31, 0, .lck⟩], 0x0⟩,
  ⟨0x08040024, [], [⟨28, 16, .ro⟩, ⟨15, 0, .ro⟩], 0x0⟩,
  ⟨0x08040028, [], [⟨31, 31, .w1c⟩, ⟨19, 16, .ro⟩, ⟨13, 8, .ro⟩, ⟨3, 0, .ro⟩], 0x0⟩,
  ⟨0x0804002C, [], [⟨31, 0, .ro⟩], 0x0⟩,
  ⟨0x08040030, [], [⟨31, 0, .ro⟩], 0x0⟩,
  ⟨0x08040034, [], [⟨31, 0, .ro⟩], 0x0⟩,
  ⟨0x08040038, [], [⟨31, 0, .ro⟩], 0x0⟩,
  ⟨0x0804003C, [], [⟨4, 4, .w1c⟩, ⟨3, 3, .w1c⟩, ⟨2, 2, .w1c⟩, ⟨1, 1, .w1c⟩, ⟨0, 0, .w1c⟩], 0x0⟩]

/-- Registers of block IMP, part 1, in offset order. -/
def regMapImp1 : List RegRow := [
  ⟨0x08040040, [], [⟨4, 4, .rw⟩, ⟨3, 3, .rw⟩, ⟨2, 2, .rw⟩, ⟨1, 1, .rw⟩, ⟨0, 0, .rw⟩], 0x0⟩,
  ⟨0x08040100, [(0x8, 16)], [⟨31, 0, .lck⟩], 0x0⟩,
  ⟨0x08040104, [(0x8, 16)], [⟨31, 0, .lck⟩], 0x0⟩,
  ⟨0x08040200, [(0x40, 16)], [⟨31, 31, .lck⟩, ⟨27, 24, .lck⟩, ⟨20, 20, .lck⟩, ⟨18, 18, .lck⟩, ⟨17, 16, .lck⟩, ⟨13, 8, .lck⟩, ⟨4, 0, .lck⟩], 0x0⟩,
  ⟨0x08040204, [(0x40, 16)], [⟨31, 0, .lck⟩], 0x0⟩,
  ⟨0x08040208, [(0x40, 16)], [⟨31, 0, .lck⟩], 0x0⟩,
  ⟨0x0804020C, [(0x40, 16)], [⟨31, 0, .lck⟩], 0x0⟩,
  ⟨0x08040210, [(0x40, 16)], [⟨31, 0, .lck⟩], 0x0⟩,
  ⟨0x08040214, [(0x40, 16)], [⟨31, 0, .lck⟩], 0x0⟩,
  ⟨0x08040218, [(0x40, 16)], [⟨31, 0, .lck⟩], 0x0⟩,
  ⟨0x0804021C, [(0x40, 16)], [⟨31, 0, .lck⟩], 0x0⟩,
  ⟨0x08040220, [(0x40, 16)], [⟨31, 0, .lck⟩], 0x0⟩]

/-- Registers of block IMP, part 2, in offset order. -/
def regMapImp2 : List RegRow := [
  ⟨0x08040224, [(0x40, 16)], [⟨31, 0, .lck⟩], 0x0⟩,
  ⟨0x08040228, [(0x40, 16)], [⟨31, 0, .ro⟩], 0x0⟩,
  ⟨0x0804022C, [(0x40, 16)], [⟨31, 0, .ro⟩], 0x0⟩,
  ⟨0x08040600, [(0x20, 8)], [⟨31, 16, .lck⟩, ⟨15, 5, .lck⟩, ⟨2, 1, .lck⟩, ⟨0, 0, .lck⟩], 0x0⟩,
  ⟨0x08040604, [(0x20, 8), (0x4, 4)], [⟨31, 0, .lck⟩], 0x0⟩,
  ⟨0x08041000, [(0x80, 64)], [⟨31, 31, .lck⟩, ⟨30, 30, .lck⟩, ⟨29, 29, .lck⟩, ⟨27, 24, .lck⟩, ⟨23, 22, .lck⟩, ⟨21, 20, .lck⟩, ⟨19, 16, .lck⟩, ⟨15, 12, .lck⟩, ⟨11, 10, .lck⟩, ⟨7, 0, .lck⟩], 0x0⟩,
  ⟨0x08041004, [(0x80, 64)], [⟨21, 0, .lck⟩], 0x0⟩,
  ⟨0x08041008, [(0x80, 64)], [⟨21, 0, .lck⟩], 0x0⟩,
  ⟨0x0804100C, [(0x80, 64)], [⟨31, 16, .lck⟩, ⟨15, 8, .lck⟩, ⟨7, 0, .lck⟩], 0x0⟩,
  ⟨0x08041010, [(0x80, 64)], [⟨31, 24, .lck⟩, ⟨23, 16, .lck⟩, ⟨15, 8, .lck⟩, ⟨7, 6, .lck⟩, ⟨5, 4, .lck⟩, ⟨3, 3, .lck⟩], 0x0⟩,
  ⟨0x08041014, [(0x80, 64)], [⟨15, 8, .lck⟩, ⟨7, 0, .lck⟩], 0x0⟩,
  ⟨0x08041018, [(0x80, 64)], [⟨23, 16, .lck⟩, ⟨15, 14, .lck⟩, ⟨7, 0, .lck⟩], 0x0⟩]

/-- Registers of block IMP, part 3, in offset order. -/
def regMapImp3 : List RegRow := [
  ⟨0x0804101C, [(0x80, 64)], [⟨31, 0, .lck⟩], 0x0⟩,
  ⟨0x08041020, [(0x80, 64)], [⟨22, 16, .lck⟩, ⟨15, 0, .lck⟩], 0x0⟩,
  ⟨0x08041040, [(0x80, 64), (0x4, 16)], [⟨31, 0, .lck⟩], 0x0⟩]

/-- The registers of block IMP after its header. -/
def regMapImp : List RegRow := regMapImp0 ++ regMapImp1 ++ regMapImp2 ++ regMapImp3

/-- Registers of block NZM, part 0, in offset order. -/
def regMapNzm0 : List RegRow := [
  ⟨0x08050010, [], [⟨31, 16, .lck⟩, ⟨0, 0, .lck⟩], 0x0⟩,
  ⟨0x08050014, [], [⟨19, 18, .wo⟩, ⟨17, 0, .wo⟩], 0x0⟩,
  ⟨0x08050018, [], [⟨17, 0, .rw⟩], 0x0⟩,
  ⟨0x0805001C, [], [⟨17, 16, .ro⟩, ⟨13, 8, .ro⟩, ⟨5, 0, .ro⟩], 0x0⟩,
  ⟨0x08050020, [], [⟨31, 0, .ro⟩], 0x0⟩,
  ⟨0x08050024, [], [⟨4, 4, .w1c⟩, ⟨3, 3, .w1c⟩, ⟨2, 2, .w1c⟩, ⟨1, 1, .w1c⟩, ⟨0, 0, .w1c⟩], 0x0⟩,
  ⟨0x08050028, [], [⟨4, 4, .rw⟩, ⟨3, 3, .rw⟩, ⟨2, 2, .rw⟩, ⟨1, 1, .rw⟩, ⟨0, 0, .rw⟩], 0x0⟩,
  ⟨0x08050100, [(0x4, 16)], [⟨16, 16, .lck⟩, ⟨15, 8, .lck⟩, ⟨7, 0, .lck⟩], 0x1C880⟩,
  ⟨0x08050200, [(0x8, 64)], [⟨5, 0, .lck⟩], 0x0⟩,
  ⟨0x08050204, [(0x8, 64)], [⟨31, 16, .ro⟩, ⟨15, 0, .ro⟩], 0x0⟩,
  ⟨0x08050400, [(0x10, 8)], [⟨31, 0, .ro⟩], 0x0⟩,
  ⟨0x08050404, [(0x10, 8)], [⟨31, 0, .ro⟩], 0x0⟩]

/-- Registers of block NZM, part 1, in offset order. -/
def regMapNzm1 : List RegRow := [
  ⟨0x08050408, [(0x10, 8)], [⟨31, 0, .ro⟩], 0x0⟩,
  ⟨0x0805040C, [(0x10, 8)], [⟨1, 1, .ro⟩, ⟨0, 0, .ro⟩], 0x0⟩,
  ⟨0x08058000, [(0x200, 64), (0x4, 128)], [⟨31, 16, .lck⟩, ⟨15, 0, .lck⟩], 0x0⟩]

/-- The registers of block NZM after its header. -/
def regMapNzm : List RegRow := regMapNzm0 ++ regMapNzm1

/-- Registers of block CAL, part 0, in offset order. -/
def regMapCal0 : List RegRow := [
  ⟨0x08060010, [], [⟨31, 30, .lck⟩, ⟨27, 24, .lck⟩, ⟨23, 16, .lck⟩, ⟨11, 8, .lck⟩, ⟨4, 4, .lck⟩, ⟨1, 0, .lck⟩], 0x1800100⟩,
  ⟨0x08060014, [], [⟨31, 0, .lck⟩], 0x0⟩,
  ⟨0x08060018, [], [⟨31, 0, .lck⟩], 0x0⟩,
  ⟨0x0806001C, [], [⟨31, 0, .lck⟩], 0x0⟩,
  ⟨0x08060020, [], [⟨31, 16, .lck⟩, ⟨15, 0, .lck⟩], 0x258000A⟩,
  ⟨0x08060024, [], [⟨31, 16, .lck⟩, ⟨15, 0, .lck⟩], 0x100030⟩,
  ⟨0x08060028, [], [⟨0, 0, .rw⟩], 0x0⟩,
  ⟨0x0806002C, [], [⟨31, 16, .ro⟩, ⟨2, 0, .ro⟩], 0x0⟩,
  ⟨0x08060030, [], [⟨31, 0, .ro⟩], 0x0⟩,
  ⟨0x08060034, [], [⟨31, 0, .ro⟩], 0x0⟩,
  ⟨0x08060038, [], [⟨31, 0, .w1s⟩], 0x0⟩,
  ⟨0x0806003C, [], [⟨31, 0, .w1s⟩], 0x0⟩]

/-- Registers of block CAL, part 1, in offset order. -/
def regMapCal1 : List RegRow := [
  ⟨0x08060040, [], [⟨31, 0, .ro⟩], 0x0⟩,
  ⟨0x08060044, [], [⟨4, 4, .w1c⟩, ⟨3, 3, .w1c⟩, ⟨2, 2, .w1c⟩, ⟨1, 1, .w1c⟩, ⟨0, 0, .w1c⟩], 0x0⟩,
  ⟨0x08060048, [], [⟨4, 4, .rw⟩, ⟨3, 3, .rw⟩, ⟨2, 2, .rw⟩, ⟨1, 1, .rw⟩, ⟨0, 0, .rw⟩], 0x0⟩,
  ⟨0x08060100, [(0x4, 64)], [⟨15, 0, .ro⟩], 0x0⟩]

/-- The registers of block CAL after its header. -/
def regMapCal : List RegRow := regMapCal0 ++ regMapCal1

/-- Registers of block POS, part 0, in offset order. -/
def regMapPos0 : List RegRow := [
  ⟨0x08070010, [], [⟨7, 7, .w1c⟩, ⟨6, 6, .w1c⟩, ⟨5, 5, .w1c⟩, ⟨4, 4, .w1c⟩, ⟨3, 3, .w1c⟩, ⟨2, 2, .w1c⟩, ⟨1, 1, .w1c⟩, ⟨0, 0, .w1c⟩], 0x0⟩,
  ⟨0x08070014, [], [⟨7, 7, .rw⟩, ⟨6, 6, .rw⟩, ⟨5, 5, .rw⟩, ⟨4, 4, .rw⟩, ⟨3, 3, .rw⟩, ⟨2, 2, .rw⟩, ⟨1, 1, .rw⟩, ⟨0, 0, .rw⟩], 0x0⟩,
  ⟨0x08070100, [(0x40, 4)], [⟨31, 31, .lck⟩, ⟨27, 26, .lck⟩, ⟨25, 25, .lck⟩, ⟨24, 24, .lck⟩, ⟨23, 16, .lck⟩, ⟨15, 8, .lck⟩], 0x40200⟩,
  ⟨0x08070104, [(0x40, 4)], [⟨31, 0, .lck⟩], 0x0⟩,
  ⟨0x08070108, [(0x40, 4)], [⟨31, 0, .lck⟩], 0x0⟩,
  ⟨0x0807010C, [(0x40, 4)], [⟨31, 16, .lck⟩, ⟨7, 0, .lck⟩], 0x64000A⟩,
  ⟨0x08070110, [(0x40, 4)], [⟨31, 0, .ro⟩], 0x0⟩,
  ⟨0x08070114, [(0x40, 4)], [⟨31, 0, .ro⟩], 0x0⟩,
  ⟨0x08070118, [(0x40, 4)], [⟨31, 0, .ro⟩], 0x0⟩,
  ⟨0x0807011C, [(0x40, 4)], [⟨31, 0, .ro⟩], 0x0⟩,
  ⟨0x08070120, [(0x40, 4)], [⟨31, 0, .ro⟩], 0x0⟩,
  ⟨0x08070124, [(0x40, 4)], [⟨31, 0, .ro⟩], 0x0⟩]

/-- Registers of block POS, part 1, in offset order. -/
def regMapPos1 : List RegRow := [
  ⟨0x08070128, [(0x40, 4)], [⟨31, 0, .ro⟩], 0x0⟩,
  ⟨0x0807012C, [(0x40, 4)], [⟨31, 16, .ro⟩, ⟨3, 3, .ro⟩, ⟨2, 2, .ro⟩, ⟨1, 1, .ro⟩], 0x4⟩,
  ⟨0x08070130, [(0x40, 4)], [⟨31, 0, .ro⟩], 0x0⟩,
  ⟨0x08070134, [(0x40, 4)], [⟨31, 0, .ro⟩], 0x0⟩,
  ⟨0x08070200, [(0x10, 16)], [⟨23, 20, .lck⟩, ⟨9, 8, .lck⟩, ⟨1, 0, .lck⟩], 0x0⟩,
  ⟨0x08070204, [(0x10, 16)], [⟨30, 0, .lck⟩], 0x0⟩,
  ⟨0x08070208, [(0x10, 16)], [⟨31, 0, .ro⟩], 0x0⟩,
  ⟨0x0807020C, [(0x10, 16)], [⟨31, 0, .ro⟩], 0x0⟩,
  ⟨0x08070300, [(0x10, 4)], [⟨31, 31, .lck⟩, ⟨30, 29, .lck⟩, ⟨17, 16, .lck⟩, ⟨15, 0, .lck⟩], 0xA⟩,
  ⟨0x08070304, [(0x10, 4)], [⟨30, 0, .lck⟩], 0x0⟩,
  ⟨0x08070308, [(0x10, 4)], [⟨30, 0, .lck⟩], 0x0⟩,
  ⟨0x0807030C, [(0x10, 4)], [⟨31, 24, .ro⟩, ⟨23, 16, .ro⟩, ⟨15, 0, .ro⟩], 0x0⟩]

/-- Registers of block POS, part 2, in offset order. -/
def regMapPos2 : List RegRow := [
  ⟨0x08070400, [(0x20, 16)], [⟨31, 16, .rw⟩, ⟨11, 8, .rw⟩, ⟨5, 4, .rw⟩], 0x0⟩,
  ⟨0x08070404, [(0x20, 16)], [⟨31, 0, .rw⟩], 0x0⟩,
  ⟨0x08070408, [(0x20, 16)], [⟨31, 0, .rw⟩], 0x0⟩,
  ⟨0x0807040C, [(0x20, 16)], [⟨31, 0, .rw⟩], 0x0⟩,
  ⟨0x08070410, [(0x20, 16)], [⟨31, 0, .rw⟩], 0x0⟩,
  ⟨0x08070414, [(0x20, 16)], [⟨2, 2, .wo⟩, ⟨1, 1, .wo⟩, ⟨0, 0, .wo⟩], 0x0⟩,
  ⟨0x08070418, [(0x20, 16)], [⟨31, 16, .ro⟩, ⟨2, 2, .ro⟩, ⟨1, 1, .w1c⟩, ⟨0, 0, .ro⟩], 0x0⟩,
  ⟨0x08070500, [(0x10, 2)], [⟨31, 16, .lck⟩, ⟨15, 0, .lck⟩], 0x400064⟩,
  ⟨0x08070504, [(0x10, 2)], [⟨31, 20, .ro⟩, ⟨19, 19, .ro⟩, ⟨8, 0, .ro⟩], 0x0⟩,
  ⟨0x08070508, [(0x10, 2)], [⟨31, 0, .ro⟩], 0x0⟩,
  ⟨0x08070600, [(0x20, 2)], [⟨31, 31, .lck⟩, ⟨30, 30, .lck⟩, ⟨25, 24, .lck⟩, ⟨23, 16, .lck⟩], 0x200000⟩,
  ⟨0x08070604, [(0x20, 2)], [⟨31, 0, .lck⟩], 0x0⟩]

/-- Registers of block POS, part 3, in offset order. -/
def regMapPos3 : List RegRow := [
  ⟨0x08070608, [(0x20, 2)], [⟨31, 0, .lck⟩], 0x0⟩,
  ⟨0x0807060C, [(0x20, 2)], [⟨31, 0, .lck⟩], 0x0⟩,
  ⟨0x08070610, [(0x20, 2)], [⟨31, 16, .ro⟩, ⟨15, 0, .ro⟩], 0x0⟩,
  ⟨0x08070614, [(0x20, 2)], [⟨31, 0, .ro⟩], 0x0⟩]

/-- The registers of block POS after its header. -/
def regMapPos : List RegRow := regMapPos0 ++ regMapPos1 ++ regMapPos2 ++ regMapPos3

/-- Registers of block FIR, part 0, in offset order. -/
def regMapFir0 : List RegRow := [
  ⟨0x08080010, [], [⟨4, 4, .w1c⟩, ⟨3, 3, .w1c⟩, ⟨2, 2, .w1c⟩, ⟨1, 1, .w1c⟩, ⟨0, 0, .w1c⟩], 0x0⟩,
  ⟨0x08080014, [], [⟨4, 4, .rw⟩, ⟨3, 3, .rw⟩, ⟨2, 2, .rw⟩, ⟨1, 1, .rw⟩, ⟨0, 0, .rw⟩], 0x0⟩,
  ⟨0x08080018, [], [⟨31, 0, .ro⟩], 0x0⟩,
  ⟨0x0808001C, [], [⟨8, 8, .wo⟩, ⟨7, 0, .wo⟩], 0x0⟩,
  ⟨0x08080800, [(0x100, 8)], [⟨31, 16, .rws⟩, ⟨13, 8, .rws⟩, ⟨6, 0, .rws⟩], 0x1E03F40⟩,
  ⟨0x08080804, [(0x100, 8)], [⟨15, 0, .rws⟩], 0x100⟩,
  ⟨0x08080808, [(0x100, 8)], [⟨0, 0, .wo⟩], 0x0⟩,
  ⟨0x0808080C, [(0x100, 8)], [⟨31, 0, .ro⟩], 0x0⟩,
  ⟨0x08080810, [(0x100, 8)], [⟨31, 0, .ro⟩], 0x0⟩,
  ⟨0x08080814, [(0x100, 8)], [⟨9, 9, .ro⟩, ⟨8, 8, .ro⟩, ⟨6, 0, .ro⟩], 0x0⟩,
  ⟨0x08080818, [(0x100, 8)], [⟨31, 0, .ro⟩], 0x0⟩,
  ⟨0x0808081C, [(0x100, 8)], [⟨31, 0, .ro⟩], 0x0⟩]

/-- Registers of block FIR, part 1, in offset order. -/
def regMapFir1 : List RegRow := [
  ⟨0x08080820, [(0x100, 8)], [⟨31, 0, .ro⟩], 0x0⟩,
  ⟨0x08080840, [(0x100, 8), (0x8, 8)], [⟨15, 0, .rws⟩], 0x0⟩,
  ⟨0x08080844, [(0x100, 8), (0x8, 8)], [⟨15, 0, .rws⟩], 0x0⟩]

/-- The registers of block FIR after its header. -/
def regMapFir : List RegRow := regMapFir0 ++ regMapFir1

/-- Registers of block HLK, part 0, in offset order. -/
def regMapHlk0 : List RegRow := [
  ⟨0x08090010, [], [⟨16, 16, .ro⟩, ⟨15, 0, .ro⟩], 0x0⟩,
  ⟨0x08090014, [], [⟨7, 7, .w1c⟩, ⟨6, 6, .w1c⟩, ⟨5, 5, .w1c⟩, ⟨4, 4, .w1c⟩, ⟨3, 3, .w1c⟩, ⟨2, 2, .w1c⟩, ⟨1, 1, .w1c⟩, ⟨0, 0, .w1c⟩], 0x0⟩,
  ⟨0x08090018, [], [⟨7, 7, .rw⟩, ⟨6, 6, .rw⟩, ⟨5, 5, .rw⟩, ⟨4, 4, .rw⟩, ⟨3, 3, .rw⟩, ⟨2, 2, .rw⟩, ⟨1, 1, .rw⟩, ⟨0, 0, .rw⟩], 0x0⟩,
  ⟨0x0809001C, [], [⟨15, 0, .lck⟩], 0x64⟩,
  ⟨0x08090020, [], [⟨31, 16, .rw⟩, ⟨15, 12, .rw⟩, ⟨11, 11, .rw⟩, ⟨10, 8, .rw⟩, ⟨6, 4, .rw⟩], 0x0⟩,
  ⟨0x08090024, [], [⟨0, 0, .wo⟩], 0x0⟩,
  ⟨0x08090028, [], [⟨31, 16, .ro⟩, ⟨15, 8, .ro⟩, ⟨1, 0, .ro⟩], 0x0⟩,
  ⟨0x08090100, [(0x20, 8)], [⟨23, 16, .lck⟩, ⟨15, 8, .lck⟩, ⟨0, 0, .lck⟩], 0x81400⟩,
  ⟨0x08090104, [(0x20, 8)], [⟨5, 4, .ro⟩, ⟨2, 0, .ro⟩], 0x0⟩,
  ⟨0x08090400, [(0x20, 24)], [⟨31, 28, .ro⟩, ⟨27, 24, .ro⟩, ⟨23, 16, .ro⟩, ⟨15, 8, .ro⟩, ⟨7, 0, .ro⟩], 0x0⟩,
  ⟨0x08090404, [(0x20, 24)], [⟨31, 16, .ro⟩, ⟨5, 5, .ro⟩, ⟨4, 4, .ro⟩, ⟨3, 0, .ro⟩], 0x0⟩,
  ⟨0x08090408, [(0x20, 24)], [⟨31, 20, .ro⟩, ⟨19, 11, .ro⟩, ⟨10, 0, .ro⟩], 0x0⟩]

/-- Registers of block HLK, part 1, in offset order. -/
def regMapHlk1 : List RegRow := [
  ⟨0x0809040C, [(0x20, 24)], [⟨31, 16, .ro⟩, ⟨15, 0, .ro⟩], 0x0⟩,
  ⟨0x08090410, [(0x20, 24)], [⟨1, 1, .wo⟩, ⟨0, 0, .wo⟩], 0x0⟩,
  ⟨0x08090800, [(0x10, 64)], [⟨2, 0, .lck⟩], 0x0⟩,
  ⟨0x08090804, [(0x10, 64)], [⟨31, 16, .ro⟩, ⟨15, 0, .ro⟩], 0x0⟩,
  ⟨0x08090808, [(0x10, 64)], [⟨15, 0, .ro⟩], 0x0⟩,
  ⟨0x0809080C, [(0x10, 64)], [⟨31, 16, .ro⟩, ⟨7, 0, .ro⟩], 0x0⟩]

/-- The registers of block HLK after its header. -/
def regMapHlk : List RegRow := regMapHlk0 ++ regMapHlk1

/-- Registers of block SLU, part 0, in offset order. -/
def regMapSlu0 : List RegRow := [
  ⟨0x080A0010, [], [⟨6, 6, .w1c⟩, ⟨5, 5, .w1c⟩, ⟨4, 4, .w1c⟩, ⟨3, 3, .w1c⟩, ⟨2, 2, .w1c⟩, ⟨1, 1, .w1c⟩, ⟨0, 0, .w1c⟩], 0x0⟩,
  ⟨0x080A0014, [], [⟨6, 6, .rw⟩, ⟨5, 5, .rw⟩, ⟨4, 4, .rw⟩, ⟨3, 3, .rw⟩, ⟨2, 2, .rw⟩, ⟨1, 1, .rw⟩, ⟨0, 0, .rw⟩], 0x0⟩,
  ⟨0x080A0018, [], [⟨31, 31, .lck⟩, ⟨23, 16, .lck⟩, ⟨11, 0, .lck⟩], 0xA0040⟩,
  ⟨0x080A001C, [], [⟨27, 16, .lck⟩, ⟨11, 0, .lck⟩], 0xFFF0000⟩,
  ⟨0x080A0020, [], [⟨11, 0, .lck⟩], 0x400⟩,
  ⟨0x080A0024, [], [⟨27, 16, .ro⟩, ⟨11, 4, .ro⟩, ⟨3, 0, .ro⟩], 0x4⟩,
  ⟨0x080A0028, [], [⟨9, 9, .wo⟩, ⟨8, 8, .wo⟩, ⟨7, 0, .wo⟩], 0x0⟩,
  ⟨0x080A0100, [(0x40, 8), (0x4, 4)], [⟨31, 0, .lck⟩], 0x0⟩,
  ⟨0x080A0110, [(0x40, 8)], [⟨31, 0, .lck⟩], 0x0⟩,
  ⟨0x080A0114, [(0x40, 8)], [⟨31, 0, .lck⟩], 0x0⟩,
  ⟨0x080A0118, [(0x40, 8)], [⟨31, 16, .lck⟩, ⟨3, 0, .lck⟩], 0xFFFF0004⟩,
  ⟨0x080A011C, [(0x40, 8)], [⟨31, 0, .lck⟩], 0xFFFFFFFF⟩]

/-- Registers of block SLU, part 1, in offset order. -/
def regMapSlu1 : List RegRow := [
  ⟨0x080A0120, [(0x40, 8)], [⟨14, 0, .lck⟩], 0x1900⟩,
  ⟨0x080A0124, [(0x40, 8)], [⟨31, 16, .lck⟩, ⟨15, 0, .lck⟩], 0x3700320⟩,
  ⟨0x080A0128, [(0x40, 8)], [⟨31, 16, .lck⟩, ⟨15, 0, .lck⟩], 0x3E003A0⟩,
  ⟨0x080A012C, [(0x40, 8)], [⟨31, 24, .lck⟩, ⟨23, 16, .lck⟩, ⟨15, 0, .lck⟩], 0xC0100064⟩,
  ⟨0x080A0130, [(0x40, 8)], [⟨8, 8, .ro⟩, ⟨2, 0, .ro⟩], 0x0⟩,
  ⟨0x080A0134, [(0x40, 8)], [⟨31, 0, .ro⟩], 0x0⟩,
  ⟨0x080A0138, [(0x40, 8)], [⟨31, 0, .ro⟩], 0x0⟩,
  ⟨0x080A013C, [(0x40, 8)], [⟨31, 0, .ro⟩], 0x0⟩,
  ⟨0x080A0300, [(0x4, 8)], [⟨31, 0, .ro⟩], 0x0⟩,
  ⟨0x080A0400, [(0x4, 64)], [⟨31, 24, .ro⟩, ⟨23, 16, .ro⟩, ⟨3, 3, .ro⟩, ⟨2, 0, .ro⟩], 0x0⟩,
  ⟨0x080A0600, [(0x10, 16)], [⟨31, 31, .lck⟩, ⟨23, 0, .lck⟩], 0x1000⟩,
  ⟨0x080A0604, [(0x10, 16)], [⟨31, 31, .ro⟩, ⟨23, 0, .ro⟩], 0x80000000⟩]

/-- Registers of block SLU, part 2, in offset order. -/
def regMapSlu2 : List RegRow := [
  ⟨0x080A0608, [(0x10, 16)], [⟨31, 16, .ro⟩, ⟨15, 0, .ro⟩], 0x0⟩]

/-- The registers of block SLU after its header. -/
def regMapSlu : List RegRow := regMapSlu0 ++ regMapSlu1 ++ regMapSlu2

/-- Registers of block CAM, part 0, in offset order. -/
def regMapCam0 : List RegRow := [
  ⟨0x080B0010, [], [⟨7, 7, .w1c⟩, ⟨6, 6, .w1c⟩, ⟨5, 5, .w1c⟩, ⟨4, 4, .w1c⟩, ⟨3, 3, .w1c⟩, ⟨2, 2, .w1c⟩, ⟨1, 1, .w1c⟩, ⟨0, 0, .w1c⟩], 0x0⟩,
  ⟨0x080B0014, [], [⟨7, 7, .rw⟩, ⟨6, 6, .rw⟩, ⟨5, 5, .rw⟩, ⟨4, 4, .rw⟩, ⟨3, 3, .rw⟩, ⟨2, 2, .rw⟩, ⟨1, 1, .rw⟩, ⟨0, 0, .rw⟩], 0x0⟩,
  ⟨0x080B0018, [], [⟨31, 0, .rw⟩], 0x0⟩,
  ⟨0x080B001C, [], [⟨31, 0, .rw⟩], 0x0⟩,
  ⟨0x080B0020, [], [⟨16, 0, .rw⟩], 0x0⟩,
  ⟨0x080B0024, [], [⟨31, 0, .ro⟩], 0x0⟩,
  ⟨0x080B0028, [], [⟨31, 0, .rw⟩], 0x0⟩,
  ⟨0x080B002C, [], [⟨31, 0, .ro⟩], 0x0⟩,
  ⟨0x080B0030, [], [⟨31, 16, .wo⟩, ⟨8, 8, .wo⟩, ⟨7, 4, .wo⟩, ⟨3, 0, .wo⟩], 0x0⟩,
  ⟨0x080B0100, [(0x10, 4)], [⟨31, 31, .lck⟩, ⟨19, 16, .lck⟩, ⟨15, 8, .lck⟩, ⟨1, 0, .lck⟩], 0xE400⟩,
  ⟨0x080B0104, [(0x10, 4)], [⟨31, 16, .ro⟩, ⟨2, 2, .ro⟩, ⟨1, 0, .ro⟩], 0x0⟩,
  ⟨0x080B0108, [(0x10, 4)], [⟨31, 16, .ro⟩, ⟨15, 0, .ro⟩], 0x0⟩]

/-- Registers of block CAM, part 1, in offset order. -/
def regMapCam1 : List RegRow := [
  ⟨0x080B0180, [(0x10, 4)], [⟨31, 28, .ro⟩, ⟨27, 24, .ro⟩, ⟨11, 0, .ro⟩], 0x0⟩,
  ⟨0x080B0184, [(0x10, 4)], [⟨31, 16, .ro⟩, ⟨15, 0, .ro⟩], 0x0⟩,
  ⟨0x080B0200, [(0x20, 16)], [⟨31, 31, .lck⟩, ⟨30, 30, .lck⟩, ⟨29, 28, .lck⟩, ⟨27, 24, .lck⟩, ⟨23, 18, .lck⟩, ⟨15, 12, .lck⟩, ⟨10, 8, .lck⟩], 0x1000⟩,
  ⟨0x080B0204, [(0x20, 16)], [⟨31, 16, .lck⟩, ⟨14, 0, .lck⟩], 0x0⟩,
  ⟨0x080B0208, [(0x20, 16)], [⟨14, 8, .lck⟩, ⟨6, 0, .lck⟩], 0x0⟩,
  ⟨0x080B020C, [(0x20, 16)], [⟨31, 16, .lck⟩, ⟨15, 0, .lck⟩], 0x640000⟩,
  ⟨0x080B0210, [(0x20, 16)], [⟨31, 0, .ro⟩], 0x0⟩,
  ⟨0x080B0214, [(0x20, 16)], [⟨31, 0, .ro⟩], 0x0⟩,
  ⟨0x080B0218, [(0x20, 16)], [⟨31, 16, .ro⟩, ⟨15, 8, .ro⟩, ⟨7, 0, .ro⟩], 0x0⟩,
  ⟨0x080B021C, [(0x20, 16)], [⟨31, 16, .ro⟩, ⟨15, 0, .ro⟩], 0x0⟩,
  ⟨0x080B0400, [(0x40, 4)], [⟨31, 31, .lck⟩, ⟨30, 30, .lck⟩, ⟨29, 29, .lck⟩, ⟨27, 24, .lck⟩, ⟨19, 16, .lck⟩, ⟨3, 0, .lck⟩], 0x0⟩,
  ⟨0x080B0404, [(0x40, 4)], [⟨31, 16, .rws⟩, ⟨13, 0, .rws⟩], 0x500064⟩]

/-- Registers of block CAM, part 2, in offset order. -/
def regMapCam2 : List RegRow := [
  ⟨0x080B0408, [(0x40, 4)], [⟨31, 0, .rws⟩], 0x800000⟩,
  ⟨0x080B040C, [(0x40, 4)], [⟨31, 16, .rws⟩, ⟨15, 0, .rws⟩], 0x0⟩,
  ⟨0x080B0410, [(0x40, 4)], [⟨15, 0, .rws⟩], 0x1⟩,
  ⟨0x080B0414, [(0x40, 4)], [⟨0, 0, .wo⟩], 0x0⟩,
  ⟨0x080B0418, [(0x40, 4)], [⟨31, 0, .ro⟩], 0x0⟩,
  ⟨0x080B041C, [(0x40, 4)], [⟨31, 0, .rw⟩], 0x0⟩,
  ⟨0x080B0420, [(0x40, 4)], [⟨31, 0, .rw⟩], 0x0⟩,
  ⟨0x080B0424, [(0x40, 4)], [⟨2, 2, .wo⟩, ⟨1, 1, .wo⟩, ⟨0, 0, .wo⟩], 0x0⟩,
  ⟨0x080B0428, [(0x40, 4)], [⟨31, 16, .ro⟩, ⟨3, 3, .ro⟩, ⟨2, 2, .ro⟩, ⟨1, 1, .ro⟩, ⟨0, 0, .ro⟩], 0x0⟩,
  ⟨0x080B042C, [(0x40, 4)], [⟨31, 0, .ro⟩], 0x0⟩,
  ⟨0x080B0800, [(0x8, 32)], [⟨31, 31, .lck⟩, ⟨27, 24, .lck⟩, ⟨21, 20, .lck⟩, ⟨18, 16, .lck⟩], 0x0⟩,
  ⟨0x080B0804, [(0x8, 32)], [⟨31, 18, .lck⟩, ⟨17, 7, .lck⟩, ⟨6, 0, .lck⟩], 0x0⟩]

/-- The registers of block CAM after its header. -/
def regMapCam : List RegRow := regMapCam0 ++ regMapCam1 ++ regMapCam2

/-- Registers of block VIS, part 0, in offset order. -/
def regMapVis0 : List RegRow := [
  ⟨0x080C0010, [], [⟨2, 2, .w1c⟩, ⟨1, 1, .w1c⟩, ⟨0, 0, .w1c⟩], 0x0⟩,
  ⟨0x080C0014, [], [⟨2, 2, .rw⟩, ⟨1, 1, .rw⟩, ⟨0, 0, .rw⟩], 0x0⟩,
  ⟨0x080C0018, [], [⟨31, 0, .lck⟩], 0x0⟩,
  ⟨0x080C001C, [], [⟨31, 0, .lck⟩], 0x0⟩,
  ⟨0x080C0100, [(0x20, 16)], [⟨31, 31, .lck⟩, ⟨30, 30, .lck⟩, ⟨29, 28, .lck⟩, ⟨26, 24, .lck⟩], 0x0⟩,
  ⟨0x080C0104, [(0x20, 16)], [⟨31, 16, .lck⟩, ⟨15, 0, .lck⟩], 0x0⟩,
  ⟨0x080C0108, [(0x20, 16), (0x4, 5)], [⟨31, 0, .lck⟩], 0x0⟩,
  ⟨0x080C0400, [(0x40, 4)], [⟨31, 31, .lck⟩, ⟨30, 28, .lck⟩, ⟨27, 24, .lck⟩, ⟨23, 22, .lck⟩, ⟨21, 20, .lck⟩, ⟨19, 17, .lck⟩, ⟨8, 0, .lck⟩], 0x0⟩,
  ⟨0x080C0404, [(0x40, 4)], [⟨31, 16, .lck⟩, ⟨15, 0, .lck⟩], 0x0⟩,
  ⟨0x080C0408, [(0x40, 4)], [⟨7, 4, .lck⟩, ⟨3, 0, .lck⟩], 0x0⟩,
  ⟨0x080C040C, [(0x40, 4)], [⟨31, 0, .lck⟩], 0x0⟩,
  ⟨0x080C0410, [(0x40, 4)], [⟨31, 0, .lck⟩], 0x0⟩]

/-- Registers of block VIS, part 1, in offset order. -/
def regMapVis1 : List RegRow := [
  ⟨0x080C0414, [(0x40, 4)], [⟨31, 0, .lck⟩], 0x0⟩,
  ⟨0x080C0418, [(0x40, 4)], [⟨31, 0, .ro⟩], 0x0⟩,
  ⟨0x080C041C, [(0x40, 4)], [⟨31, 0, .rw⟩], 0x0⟩,
  ⟨0x080C0420, [(0x40, 4)], [⟨31, 0, .ro⟩], 0x0⟩]

/-- The registers of block VIS after its header. -/
def regMapVis : List RegRow := regMapVis0 ++ regMapVis1

/-- Registers of block INS, part 0, in offset order. -/
def regMapIns0 : List RegRow := [
  ⟨0x080D0010, [], [⟨31, 31, .lck⟩, ⟨25, 24, .lck⟩, ⟨15, 0, .lck⟩], 0x0⟩,
  ⟨0x080D0014, [], [⟨31, 0, .lck⟩], 0x0⟩,
  ⟨0x080D0018, [], [⟨31, 0, .lck⟩], 0x1000⟩,
  ⟨0x080D001C, [], [⟨31, 0, .lck⟩], 0x4000⟩,
  ⟨0x080D0020, [], [⟨31, 0, .lck⟩], 0x0⟩,
  ⟨0x080D0024, [], [⟨30, 0, .lck⟩], 0x0⟩,
  ⟨0x080D0028, [], [⟨31, 16, .lck⟩, ⟨15, 8, .lck⟩, ⟨7, 0, .lck⟩], 0x403008⟩,
  ⟨0x080D002C, [], [⟨31, 16, .lck⟩, ⟨15, 0, .lck⟩], 0x200001⟩,
  ⟨0x080D0030, [], [⟨7, 4, .lck⟩, ⟨3, 0, .lck⟩], 0x26⟩,
  ⟨0x080D0034, [], [⟨31, 24, .ro⟩, ⟨23, 16, .ro⟩, ⟨15, 8, .ro⟩, ⟨7, 0, .ro⟩], 0x0⟩,
  ⟨0x080D0038, [], [⟨6, 6, .w1c⟩, ⟨5, 5, .w1c⟩, ⟨4, 4, .w1c⟩, ⟨3, 3, .w1c⟩, ⟨2, 2, .w1c⟩, ⟨1, 1, .w1c⟩, ⟨0, 0, .w1c⟩], 0x0⟩,
  ⟨0x080D003C, [], [⟨6, 6, .rw⟩, ⟨5, 5, .rw⟩, ⟨4, 4, .rw⟩, ⟨3, 3, .rw⟩, ⟨2, 2, .rw⟩, ⟨1, 1, .rw⟩, ⟨0, 0, .rw⟩], 0x0⟩]

/-- Registers of block INS, part 1, in offset order. -/
def regMapIns1 : List RegRow := [
  ⟨0x080D0040, [], [⟨31, 0, .ro⟩], 0x0⟩,
  ⟨0x080D0044, [], [⟨31, 0, .ro⟩], 0x0⟩,
  ⟨0x080D0048, [], [⟨31, 0, .ro⟩], 0x0⟩,
  ⟨0x080D004C, [], [⟨31, 0, .ro⟩], 0x0⟩,
  ⟨0x080D0050, [], [⟨3, 0, .wo⟩], 0x0⟩,
  ⟨0x080D0054, [], [⟨31, 0, .lck⟩], 0x0⟩,
  ⟨0x080D0058, [], [⟨31, 0, .lck⟩], 0x0⟩,
  ⟨0x080D005C, [], [⟨31, 24, .ro⟩, ⟨23, 18, .ro⟩, ⟨17, 15, .ro⟩, ⟨14, 12, .ro⟩, ⟨11, 9, .ro⟩, ⟨2, 0, .ro⟩], 0x0⟩,
  ⟨0x080D0100, [(0x10, 4)], [⟨11, 8, .lck⟩, ⟨1, 0, .lck⟩], 0xC00⟩,
  ⟨0x080D0104, [(0x10, 4)], [⟨29, 20, .lck⟩, ⟨19, 10, .lck⟩, ⟨9, 0, .lck⟩], 0x0⟩,
  ⟨0x080D0200, [(0x4, 16)], [⟨4, 4, .lck⟩, ⟨1, 0, .lck⟩], 0x0⟩,
  ⟨0x080D0300, [(0x10, 8), (0x4, 4)], [⟨31, 0, .lck⟩], 0x0⟩]

/-- The registers of block INS after its header. -/
def regMapIns : List RegRow := regMapIns0 ++ regMapIns1

/-- Registers of block LMP, part 0, in offset order. -/
def regMapLmp0 : List RegRow := [
  ⟨0x080E0010, [], [⟨7, 7, .w1c⟩, ⟨6, 6, .w1c⟩, ⟨5, 5, .w1c⟩, ⟨4, 4, .w1c⟩, ⟨3, 3, .w1c⟩, ⟨2, 2, .w1c⟩, ⟨1, 1, .w1c⟩, ⟨0, 0, .w1c⟩], 0x0⟩,
  ⟨0x080E0014, [], [⟨7, 7, .rw⟩, ⟨6, 6, .rw⟩, ⟨5, 5, .rw⟩, ⟨4, 4, .rw⟩, ⟨3, 3, .rw⟩, ⟨2, 2, .rw⟩, ⟨1, 1, .rw⟩, ⟨0, 0, .rw⟩], 0x0⟩,
  ⟨0x080E0020, [], [⟨8, 7, .rw⟩, ⟨6, 2, .rw⟩, ⟨1, 0, .rw⟩], 0x0⟩,
  ⟨0x080E0024, [], [⟨31, 24, .ro⟩, ⟨23, 15, .ro⟩, ⟨14, 11, .ro⟩, ⟨10, 10, .ro⟩, ⟨9, 9, .ro⟩, ⟨8, 8, .ro⟩, ⟨7, 6, .ro⟩, ⟨5, 5, .ro⟩], 0x0⟩,
  ⟨0x080E0028, [], [⟨31, 0, .ro⟩], 0x0⟩,
  ⟨0x080E002C, [], [⟨31, 0, .ro⟩], 0x0⟩,
  ⟨0x080E0100, [(0x40, 4)], [⟨31, 31, .lck⟩, ⟨28, 24, .lck⟩, ⟨23, 16, .lck⟩, ⟨15, 13, .lck⟩, ⟨11, 11, .lck⟩, ⟨10, 10, .lck⟩, ⟨3, 0, .lck⟩], 0x70401⟩,
  ⟨0x080E0104, [(0x40, 4)], [⟨31, 24, .lck⟩, ⟨23, 16, .lck⟩, ⟨15, 8, .lck⟩, ⟨7, 0, .lck⟩], 0x900000A⟩,
  ⟨0x080E0108, [(0x40, 4)], [⟨31, 16, .lck⟩, ⟨15, 8, .lck⟩, ⟨7, 0, .lck⟩], 0x40003C50⟩,
  ⟨0x080E010C, [(0x40, 4)], [⟨9, 8, .lck⟩, ⟨7, 0, .lck⟩], 0x80⟩,
  ⟨0x080E0110, [(0x40, 4)], [⟨6, 2, .rw⟩, ⟨1, 0, .rw⟩], 0x0⟩,
  ⟨0x080E0114, [(0x40, 4)], [⟨31, 16, .rws⟩, ⟨15, 0, .rws⟩], 0x0⟩]

/-- Registers of block LMP, part 1, in offset order. -/
def regMapLmp1 : List RegRow := [
  ⟨0x080E0118, [(0x40, 4)], [⟨0, 0, .wo⟩], 0x0⟩,
  ⟨0x080E011C, [(0x40, 4)], [⟨31, 0, .ro⟩], 0x0⟩,
  ⟨0x080E0120, [(0x40, 4)], [⟨31, 30, .ro⟩, ⟨29, 29, .ro⟩, ⟨28, 28, .ro⟩, ⟨27, 16, .ro⟩, ⟨15, 0, .ro⟩], 0x0⟩]

/-- The registers of block LMP after its header. -/
def regMapLmp : List RegRow := regMapLmp0 ++ regMapLmp1

/-- Registers of block PGF, part 0, in offset order. -/
def regMapPgf0 : List RegRow := [
  ⟨0x080F0010, [], [⟨31, 31, .lck⟩, ⟨30, 30, .lck⟩, ⟨29, 29, .lck⟩, ⟨28, 28, .lck⟩, ⟨27, 27, .lck⟩, ⟨23, 16, .lck⟩, ⟨15, 8, .lck⟩], 0x800000⟩,
  ⟨0x080F0014, [], [⟨10, 0, .lck⟩], 0x0⟩,
  ⟨0x080F0018, [], [⟨31, 31, .ro⟩, ⟨30, 30, .ro⟩, ⟨29, 25, .ro⟩, ⟨24, 24, .ro⟩, ⟨21, 11, .ro⟩, ⟨10, 0, .ro⟩], 0x0⟩,
  ⟨0x080F001C, [(0x4, 4)], [⟨31, 0, .ro⟩], 0x0⟩,
  ⟨0x080F002C, [], [⟨31, 0, .ro⟩], 0x0⟩,
  ⟨0x080F0030, [], [⟨31, 0, .ro⟩], 0x0⟩,
  ⟨0x080F0034, [], [⟨7, 7, .w1c⟩, ⟨6, 6, .w1c⟩, ⟨5, 5, .w1c⟩, ⟨4, 4, .w1c⟩, ⟨3, 3, .w1c⟩, ⟨2, 2, .w1c⟩, ⟨1, 1, .w1c⟩, ⟨0, 0, .w1c⟩], 0x0⟩,
  ⟨0x080F0038, [], [⟨7, 7, .rw⟩, ⟨6, 6, .rw⟩, ⟨5, 5, .rw⟩, ⟨4, 4, .rw⟩, ⟨3, 3, .rw⟩, ⟨2, 2, .rw⟩, ⟨1, 1, .rw⟩, ⟨0, 0, .rw⟩], 0x0⟩,
  ⟨0x080F003C, [], [⟨31, 22, .ro⟩, ⟨21, 11, .ro⟩, ⟨10, 0, .ro⟩], 0x0⟩,
  ⟨0x080F0040, [], [⟨31, 16, .ro⟩, ⟨15, 0, .ro⟩], 0x0⟩,
  ⟨0x080F0044, [], [⟨31, 16, .ro⟩, ⟨15, 0, .ro⟩], 0x0⟩,
  ⟨0x080F0048, [], [⟨6, 3, .wo⟩, ⟨2, 2, .wo⟩, ⟨1, 1, .wo⟩, ⟨0, 0, .wo⟩], 0x0⟩]

/-- Registers of block PGF, part 1, in offset order. -/
def regMapPgf1 : List RegRow := [
  ⟨0x080F004C, [], [⟨10, 0, .rw⟩], 0x0⟩,
  ⟨0x080F0050, [], [⟨2, 0, .ro⟩], 0x0⟩,
  ⟨0x080F0054, [], [⟨3, 0, .wo⟩], 0x0⟩,
  ⟨0x080F0080, [(0x4, 8)], [⟨31, 16, .lck⟩, ⟨15, 0, .lck⟩], 0x0⟩,
  ⟨0x080F0100, [(0x40, 4)], [⟨31, 31, .lck⟩, ⟨15, 8, .lck⟩, ⟨7, 0, .lck⟩], 0x104⟩,
  ⟨0x080F0104, [(0x40, 4)], [⟨31, 28, .ro⟩, ⟨27, 24, .ro⟩, ⟨23, 22, .ro⟩, ⟨21, 21, .ro⟩, ⟨10, 0, .ro⟩], 0x0⟩,
  ⟨0x080F0108, [(0x40, 4)], [⟨31, 16, .ro⟩, ⟨15, 0, .ro⟩], 0x0⟩,
  ⟨0x080F010C, [(0x40, 4)], [⟨31, 0, .ro⟩], 0x0⟩,
  ⟨0x080F0110, [(0x40, 4), (0x4, 4)], [⟨31, 0, .ro⟩], 0x0⟩]

/-- The registers of block PGF after its header. -/
def regMapPgf : List RegRow := regMapPgf0 ++ regMapPgf1

/-- Registers of block ETH, part 0, in offset order. -/
def regMapEth0 : List RegRow := [
  ⟨0x08100010, [], [⟨6, 6, .w1c⟩, ⟨5, 5, .w1c⟩, ⟨4, 4, .w1c⟩, ⟨3, 3, .w1c⟩, ⟨2, 2, .w1c⟩, ⟨1, 1, .w1c⟩, ⟨0, 0, .w1c⟩], 0x0⟩,
  ⟨0x08100014, [], [⟨6, 6, .rw⟩, ⟨5, 5, .rw⟩, ⟨4, 4, .rw⟩, ⟨3, 3, .rw⟩, ⟨2, 2, .rw⟩, ⟨1, 1, .rw⟩, ⟨0, 0, .rw⟩], 0x0⟩,
  ⟨0x08100018, [], [⟨31, 16, .ro⟩, ⟨8, 2, .ro⟩, ⟨1, 0, .ro⟩], 0x0⟩,
  ⟨0x0810001C, [], [⟨31, 0, .ro⟩], 0x0⟩,
  ⟨0x08100020, [], [⟨31, 0, .ro⟩], 0x0⟩,
  ⟨0x08100024, [], [⟨31, 0, .ro⟩], 0x0⟩,
  ⟨0x08100028, [], [⟨31, 0, .ro⟩], 0x0⟩,
  ⟨0x0810002C, [], [⟨0, 0, .wo⟩], 0x0⟩,
  ⟨0x08100100, [(0x80, 4)], [⟨31, 31, .lck⟩, ⟨30, 29, .lck⟩, ⟨28, 28, .lck⟩, ⟨27, 27, .lck⟩, ⟨26, 26, .lck⟩, ⟨11, 0, .lck⟩], 0x0⟩,
  ⟨0x08100104, [(0x80, 4)], [⟨31, 0, .lck⟩], 0x0⟩,
  ⟨0x08100108, [(0x80, 4)], [⟨31, 0, .lck⟩], 0x0⟩,
  ⟨0x0810010C, [(0x80, 4)], [⟨31, 0, .lck⟩], 0x0⟩]

/-- Registers of block ETH, part 1, in offset order. -/
def regMapEth1 : List RegRow := [
  ⟨0x08100110, [(0x80, 4), (0x4, 4)], [⟨31, 0, .lck⟩], 0x0⟩,
  ⟨0x08100120, [(0x80, 4)], [⟨31, 0, .lck⟩], 0x0⟩,
  ⟨0x08100124, [(0x80, 4)], [⟨31, 0, .rw⟩], 0x0⟩,
  ⟨0x08100128, [(0x80, 4)], [⟨31, 0, .rw⟩], 0x0⟩,
  ⟨0x0810012C, [(0x80, 4)], [⟨12, 0, .rw⟩], 0x0⟩,
  ⟨0x08100130, [(0x80, 4)], [⟨0, 0, .wo⟩], 0x0⟩,
  ⟨0x08100134, [(0x80, 4)], [⟨31, 0, .rw⟩], 0x0⟩,
  ⟨0x08100138, [(0x80, 4)], [⟨31, 0, .rw⟩], 0x0⟩,
  ⟨0x0810013C, [(0x80, 4)], [⟨12, 0, .rw⟩], 0x0⟩,
  ⟨0x08100140, [(0x80, 4)], [⟨31, 16, .ro⟩, ⟨15, 0, .ro⟩], 0x0⟩,
  ⟨0x08100144, [(0x80, 4)], [⟨31, 30, .ro⟩], 0x0⟩,
  ⟨0x08100148, [(0x80, 4)], [⟨31, 0, .ro⟩], 0x0⟩]

/-- Registers of block ETH, part 2, in offset order. -/
def regMapEth2 : List RegRow := [
  ⟨0x0810014C, [(0x80, 4)], [⟨31, 0, .ro⟩], 0x0⟩,
  ⟨0x08100150, [(0x80, 4)], [⟨31, 0, .ro⟩], 0x0⟩,
  ⟨0x08100154, [(0x80, 4)], [⟨31, 0, .ro⟩], 0x0⟩,
  ⟨0x08100158, [(0x80, 4)], [⟨31, 0, .ro⟩], 0x0⟩,
  ⟨0x0810015C, [(0x80, 4)], [⟨0, 0, .wo⟩], 0x0⟩]

/-- The registers of block ETH after its header. -/
def regMapEth : List RegRow := regMapEth0 ++ regMapEth1 ++ regMapEth2

/-- Registers of block PTP, part 0, in offset order. -/
def regMapPtp0 : List RegRow := [
  ⟨0x08110010, [], [⟨31, 29, .lck⟩, ⟨28, 27, .lck⟩, ⟨26, 26, .lck⟩, ⟨25, 25, .lck⟩, ⟨24, 23, .lck⟩, ⟨19, 16, .lck⟩, ⟨15, 8, .lck⟩], 0x4000000⟩,
  ⟨0x08110014, [], [⟨31, 24, .lck⟩, ⟨23, 16, .lck⟩, ⟨15, 8, .lck⟩, ⟨7, 0, .lck⟩], 0x8080F8FE⟩,
  ⟨0x08110018, [], [⟨31, 24, .lck⟩, ⟨23, 16, .lck⟩, ⟨15, 8, .lck⟩, ⟨7, 4, .lck⟩, ⟨3, 0, .lck⟩], 0xFD000038⟩,
  ⟨0x0811001C, [], [⟨31, 24, .lck⟩, ⟨23, 16, .lck⟩, ⟨15, 0, .lck⟩], 0xB34D00C8⟩,
  ⟨0x08110020, [], [⟨31, 16, .lck⟩, ⟨15, 0, .lck⟩], 0x6403E8⟩,
  ⟨0x08110024, [], [⟨31, 16, .lck⟩, ⟨15, 0, .lck⟩], 0x3C0025⟩,
  ⟨0x08110028, [], [⟨0, 0, .wo⟩], 0x0⟩,
  ⟨0x0811002C, [], [⟨31, 0, .ro⟩], 0x0⟩,
  ⟨0x08110030, [], [⟨31, 0, .ro⟩], 0x0⟩,
  ⟨0x08110034, [], [⟨31, 0, .ro⟩], 0x0⟩,
  ⟨0x08110038, [], [⟨31, 0, .ro⟩], 0x0⟩,
  ⟨0x0811003C, [], [⟨31, 0, .ro⟩], 0x0⟩]

/-- Registers of block PTP, part 1, in offset order. -/
def regMapPtp1 : List RegRow := [
  ⟨0x08110040, [], [⟨31, 29, .ro⟩, ⟨28, 27, .ro⟩, ⟨26, 25, .ro⟩, ⟨15, 0, .ro⟩], 0x0⟩,
  ⟨0x08110044, [], [⟨31, 0, .ro⟩], 0x0⟩,
  ⟨0x08110048, [], [⟨31, 0, .rw⟩], 0x0⟩,
  ⟨0x0811004C, [], [⟨31, 0, .wo⟩], 0x0⟩,
  ⟨0x08110050, [], [⟨31, 31, .ro⟩, ⟨15, 0, .ro⟩], 0x0⟩,
  ⟨0x08110054, [], [⟨31, 0, .ro⟩], 0x0⟩,
  ⟨0x08110058, [], [⟨31, 0, .ro⟩], 0x0⟩,
  ⟨0x08110060, [], [⟨4, 4, .w1c⟩, ⟨3, 3, .w1c⟩, ⟨2, 2, .w1c⟩, ⟨1, 1, .w1c⟩, ⟨0, 0, .w1c⟩], 0x0⟩,
  ⟨0x08110064, [], [⟨4, 4, .rw⟩, ⟨3, 3, .rw⟩, ⟨2, 2, .rw⟩, ⟨1, 1, .rw⟩, ⟨0, 0, .rw⟩], 0x0⟩,
  ⟨0x08110100, [(0x10, 4)], [⟨31, 28, .ro⟩, ⟨15, 0, .ro⟩], 0x0⟩,
  ⟨0x08110104, [(0x10, 4)], [⟨31, 0, .ro⟩], 0x0⟩]

/-- The registers of block PTP after its header. -/
def regMapPtp : List RegRow := regMapPtp0 ++ regMapPtp1

/-- Registers of block DMC, part 0, in offset order. -/
def regMapDmc0 : List RegRow := [
  ⟨0x08120010, [], [⟨19, 16, .lck⟩, ⟨8, 8, .lck⟩, ⟨7, 7, .lck⟩, ⟨6, 6, .lck⟩, ⟨5, 4, .lck⟩, ⟨3, 0, .lck⟩], 0x10000⟩,
  ⟨0x08120014, [], [⟨15, 0, .lck⟩], 0x5⟩,
  ⟨0x08120018, [(0x4, 3)], [⟨22, 0, .lck⟩], 0x0⟩,
  ⟨0x08120024, [(0x4, 4)], [⟨15, 0, .lck⟩], 0x0⟩,
  ⟨0x08120034, [], [⟨15, 8, .lck⟩, ⟨7, 0, .lck⟩], 0xA28⟩,
  ⟨0x08120038, [], [⟨31, 16, .lck⟩, ⟨15, 0, .lck⟩], 0x640064⟩,
  ⟨0x0812003C, [], [⟨1, 0, .rw⟩], 0x0⟩,
  ⟨0x08120040, [], [⟨31, 30, .ro⟩, ⟨17, 16, .ro⟩, ⟨15, 8, .ro⟩], 0x0⟩,
  ⟨0x08120044, [], [⟨23, 16, .ro⟩, ⟨15, 8, .ro⟩, ⟨7, 0, .ro⟩], 0x0⟩,
  ⟨0x08120048, [], [⟨31, 0, .ro⟩], 0x0⟩,
  ⟨0x0812004C, [], [⟨31, 0, .ro⟩], 0x0⟩,
  ⟨0x08120050, [], [⟨31, 0, .ro⟩], 0x0⟩]

/-- Registers of block DMC, part 1, in offset order. -/
def regMapDmc1 : List RegRow := [
  ⟨0x08120054, [], [⟨31, 31, .w1c⟩, ⟨7, 0, .ro⟩], 0x0⟩,
  ⟨0x08120058, [], [⟨31, 0, .lck⟩], 0x3E8⟩,
  ⟨0x0812005C, [], [⟨31, 16, .ro⟩, ⟨15, 0, .ro⟩], 0x0⟩,
  ⟨0x08120060, [], [⟨15, 0, .lck⟩], 0x0⟩,
  ⟨0x08120064, [], [⟨2, 0, .wo⟩], 0x0⟩,
  ⟨0x08120068, [], [⟨5, 5, .w1c⟩, ⟨4, 4, .w1c⟩, ⟨3, 3, .w1c⟩, ⟨2, 2, .w1c⟩, ⟨1, 1, .w1c⟩, ⟨0, 0, .w1c⟩], 0x0⟩,
  ⟨0x0812006C, [], [⟨5, 5, .rw⟩, ⟨4, 4, .rw⟩, ⟨3, 3, .rw⟩, ⟨2, 2, .rw⟩, ⟨1, 1, .rw⟩, ⟨0, 0, .rw⟩], 0x0⟩,
  ⟨0x08120070, [], [⟨7, 0, .ro⟩], 0x0⟩]

/-- The registers of block DMC after its header. -/
def regMapDmc : List RegRow := regMapDmc0 ++ regMapDmc1

/-- Registers of block DMA, part 0, in offset order. -/
def regMapDma0 : List RegRow := [
  ⟨0x08130010, [], [⟨0, 0, .wo⟩], 0x0⟩,
  ⟨0x08130014, [], [⟨31, 31, .ro⟩, ⟨19, 16, .ro⟩, ⟨15, 8, .ro⟩, ⟨4, 4, .ro⟩, ⟨3, 0, .ro⟩], 0x0⟩,
  ⟨0x08130018, [], [⟨3, 3, .w1c⟩, ⟨2, 2, .w1c⟩, ⟨1, 1, .w1c⟩, ⟨0, 0, .ro⟩], 0x0⟩,
  ⟨0x0813001C, [], [⟨3, 3, .rw⟩, ⟨2, 2, .rw⟩, ⟨1, 1, .rw⟩, ⟨0, 0, .rw⟩], 0x0⟩,
  ⟨0x08130020, [], [⟨15, 0, .w1c⟩], 0x0⟩,
  ⟨0x08130100, [(0x20, 16)], [⟨31, 31, .rw⟩, ⟨15, 0, .rw⟩], 0x0⟩,
  ⟨0x08130104, [(0x20, 16)], [⟨31, 0, .rw⟩], 0x0⟩,
  ⟨0x08130108, [(0x20, 16)], [⟨31, 0, .rw⟩], 0x0⟩,
  ⟨0x0813010C, [(0x20, 16)], [⟨12, 0, .rw⟩], 0x0⟩,
  ⟨0x08130110, [(0x20, 16)], [⟨0, 0, .wo⟩], 0x0⟩,
  ⟨0x08130114, [(0x20, 16)], [⟨31, 30, .ro⟩, ⟨11, 0, .ro⟩], 0x0⟩]

/-- The registers of block DMA after its header. -/
def regMapDma : List RegRow := regMapDma0

/-- Registers of block SRD, part 0, in offset order. -/
def regMapSrd0 : List RegRow := [
  ⟨0x08140010, [], [⟨3, 3, .w1c⟩, ⟨2, 2, .w1c⟩, ⟨1, 1, .w1c⟩, ⟨0, 0, .w1c⟩], 0x0⟩,
  ⟨0x08140014, [], [⟨3, 3, .rw⟩, ⟨2, 2, .rw⟩, ⟨1, 1, .rw⟩, ⟨0, 0, .rw⟩], 0x0⟩,
  ⟨0x08140100, [(0x10, 42)], [⟨27, 24, .lck⟩, ⟨23, 23, .lck⟩, ⟨22, 22, .lck⟩, ⟨21, 19, .lck⟩, ⟨18, 16, .lck⟩, ⟨15, 12, .lck⟩], 0x0⟩,
  ⟨0x08140104, [(0x10, 42)], [⟨9, 8, .rw⟩, ⟨5, 4, .rw⟩, ⟨0, 0, .rw⟩], 0x0⟩,
  ⟨0x08140108, [(0x10, 42)], [⟨31, 24, .ro⟩, ⟨23, 16, .ro⟩, ⟨4, 4, .ro⟩, ⟨3, 3, .ro⟩, ⟨2, 2, .ro⟩, ⟨1, 1, .ro⟩, ⟨0, 0, .ro⟩], 0x8⟩,
  ⟨0x0814010C, [(0x10, 42)], [⟨31, 0, .ro⟩], 0x0⟩]

/-- The registers of block SRD after its header. -/
def regMapSrd : List RegRow := regMapSrd0

/-- Registers of block PIN, part 0, in offset order. -/
def regMapPin0 : List RegRow := [
  ⟨0x08150010, [], [⟨31, 0, .rw⟩], 0x0⟩,
  ⟨0x08150014, [], [⟨31, 0, .rw⟩], 0x0⟩,
  ⟨0x08150018, [], [⟨31, 0, .ro⟩], 0x0⟩,
  ⟨0x0815001C, [], [⟨31, 0, .rw⟩], 0x0⟩,
  ⟨0x08150020, [], [⟨31, 0, .rw⟩], 0x0⟩,
  ⟨0x08150024, [], [⟨31, 0, .w1c⟩], 0x0⟩,
  ⟨0x08150028, [], [⟨31, 0, .lck⟩], 0x0⟩,
  ⟨0x0815002C, [], [⟨31, 0, .lck⟩], 0x0⟩,
  ⟨0x08150030, [], [⟨2, 2, .w1c⟩, ⟨1, 1, .w1c⟩, ⟨0, 0, .ro⟩], 0x0⟩,
  ⟨0x08150034, [], [⟨2, 2, .rw⟩, ⟨1, 1, .rw⟩, ⟨0, 0, .rw⟩], 0x0⟩,
  ⟨0x08150038, [], [⟨5, 5, .ro⟩, ⟨4, 4, .ro⟩, ⟨3, 3, .ro⟩, ⟨2, 2, .ro⟩, ⟨1, 1, .ro⟩, ⟨0, 0, .ro⟩], 0x0⟩,
  ⟨0x0815003C, [], [⟨31, 16, .ro⟩, ⟨15, 0, .ro⟩], 0x0⟩]

/-- Registers of block PIN, part 1, in offset order. -/
def regMapPin1 : List RegRow := [
  ⟨0x08150040, [], [⟨31, 0, .ro⟩], 0x0⟩,
  ⟨0x08150100, [(0x4, 64)], [⟨13, 12, .lck⟩, ⟨11, 10, .lck⟩, ⟨9, 9, .lck⟩, ⟨7, 0, .lck⟩], 0x1400⟩]

/-- The registers of block PIN after its header. -/
def regMapPin : List RegRow := regMapPin0 ++ regMapPin1

/-- The register rows of the block with number `b` (R34). -/
def regMapOf (b : Nat) : List RegRow :=
  match b with
  | 0 => regMapSys
  | 1 => regMapCfg
  | 2 => regMapSec
  | 3 => regMapJnl
  | 4 => regMapFlt
  | 5 => regMapTwn
  | 6 => regMapMbx
  | 7 => regMapItk
  | 8 => regMapBrd
  | 9 => regMapBrc
  | 10 => regMapRas
  | 11 => regMapImp
  | 12 => regMapNzm
  | 13 => regMapCal
  | 14 => regMapPos
  | 15 => regMapFir
  | 16 => regMapHlk
  | 17 => regMapSlu
  | 18 => regMapCam
  | 19 => regMapVis
  | 20 => regMapIns
  | 21 => regMapLmp
  | 22 => regMapPgf
  | 23 => regMapEth
  | 24 => regMapPtp
  | 25 => regMapDmc
  | 26 => regMapDma
  | 27 => regMapSrd
  | 28 => regMapPin
  | _ => []

end Sys2Proof.Machine
end

