-- ==== Sys2Proof/Machine/RegNames.lean ====
section
/-! DEFINITION. The names of the registers and their fields: `R.X` is the address of register X,
`F.X_Y` its field Y, with the indices of register arrays as arguments, from the register tables of
the spec's chapters. -/

namespace Sys2Proof.Machine

def R.SYS_STATE : Nat := 0x02000010
def F.SYS_STATE_PREV : Fld := ⟨R.SYS_STATE, 8, 4⟩
def F.SYS_STATE_STATE : Fld := ⟨R.SYS_STATE, 0, 4⟩
def R.SYS_RSTCAUSE : Nat := 0x02000014
def F.SYS_RSTCAUSE_CTL : Fld := ⟨R.SYS_RSTCAUSE, 5, 1⟩
def F.SYS_RSTCAUSE_FATAL : Fld := ⟨R.SYS_RSTCAUSE, 4, 1⟩
def F.SYS_RSTCAUSE_SOFT : Fld := ⟨R.SYS_RSTCAUSE, 3, 1⟩
def F.SYS_RSTCAUSE_TWDOG : Fld := ⟨R.SYS_RSTCAUSE, 2, 1⟩
def F.SYS_RSTCAUSE_PIN : Fld := ⟨R.SYS_RSTCAUSE, 1, 1⟩
def F.SYS_RSTCAUSE_POR : Fld := ⟨R.SYS_RSTCAUSE, 0, 1⟩
def R.SYS_RSTCTL : Nat := 0x02000018
def F.SYS_RSTCTL_KEY : Fld := ⟨R.SYS_RSTCTL, 16, 16⟩
def F.SYS_RSTCTL_KIND : Fld := ⟨R.SYS_RSTCTL, 0, 2⟩
def R.SYS_UID (i : Nat) : Nat := 0x02000020 + 0x4 * i
def F.SYS_UID_UID (i : Nat) : Fld := ⟨(R.SYS_UID i), 0, 32⟩
def R.SYS_DRAMWIN : Nat := 0x02000030
def F.SYS_DRAMWIN_WIN : Fld := ⟨R.SYS_DRAMWIN, 0, 7⟩
def R.SYS_CLKCHK : Nat := 0x02000034
def F.SYS_CLKCHK_PPM : Fld := ⟨R.SYS_CLKCHK, 0, 24⟩
def R.SYS_HWD_CFG : Nat := 0x02000038
def F.SYS_HWD_CFG_ACTION : Fld := ⟨R.SYS_HWD_CFG, 16, 1⟩
def F.SYS_HWD_CFG_TIMEOUT : Fld := ⟨R.SYS_HWD_CFG, 0, 16⟩
def R.SYS_HWD_KICK : Nat := 0x0200003C
def F.SYS_HWD_KICK_CODE : Fld := ⟨R.SYS_HWD_KICK, 0, 16⟩
def R.SYS_TWD_KICK : Nat := 0x02000040
def F.SYS_TWD_KICK_CODE : Fld := ⟨R.SYS_TWD_KICK, 0, 16⟩
def R.SYS_STARTUS : Nat := 0x02000044
def F.SYS_STARTUS_TIME : Fld := ⟨R.SYS_STARTUS, 0, 32⟩
def R.SYS_IRQ_STAT : Nat := 0x02000048
def F.SYS_IRQ_STAT_CLKCHK : Fld := ⟨R.SYS_IRQ_STAT, 3, 1⟩
def F.SYS_IRQ_STAT_HWD_WARN : Fld := ⟨R.SYS_IRQ_STAT, 2, 1⟩
def F.SYS_IRQ_STAT_STATE : Fld := ⟨R.SYS_IRQ_STAT, 1, 1⟩
def R.SYS_IRQ_EN : Nat := 0x0200004C
def F.SYS_IRQ_EN_CLKCHK : Fld := ⟨R.SYS_IRQ_EN, 3, 1⟩
def F.SYS_IRQ_EN_HWD_WARN : Fld := ⟨R.SYS_IRQ_EN, 2, 1⟩
def F.SYS_IRQ_EN_STATE : Fld := ⟨R.SYS_IRQ_EN, 1, 1⟩
def R.CFG_STATUS : Nat := 0x02010010
def F.CFG_STATUS_FAILCODE : Fld := ⟨R.CFG_STATUS, 8, 8⟩
def F.CFG_STATUS_OTHERFAIL : Fld := ⟨R.CFG_STATUS, 4, 1⟩
def F.CFG_STATUS_QUADFB : Fld := ⟨R.CFG_STATUS, 3, 1⟩
def F.CFG_STATUS_LENIENT : Fld := ⟨R.CFG_STATUS, 2, 1⟩
def F.CFG_STATUS_SLOT : Fld := ⟨R.CFG_STATUS, 1, 1⟩
def F.CFG_STATUS_DONE : Fld := ⟨R.CFG_STATUS, 0, 1⟩
def R.CFG_SEQ : Nat := 0x02010014
def F.CFG_SEQ_VALUE : Fld := ⟨R.CFG_SEQ, 0, 32⟩
def R.CFG_FLOOR : Nat := 0x02010018
def F.CFG_FLOOR_VALUE : Fld := ⟨R.CFG_FLOOR, 0, 32⟩
def R.CFG_SLOTA : Nat := 0x0201001C
def F.CFG_SLOTA_REC : Fld := ⟨R.CFG_SLOTA, 16, 10⟩
def F.CFG_SLOTA_HDR : Fld := ⟨R.CFG_SLOTA, 11, 1⟩
def F.CFG_SLOTA_LOADED : Fld := ⟨R.CFG_SLOTA, 10, 1⟩
def F.CFG_SLOTA_CHECKED : Fld := ⟨R.CFG_SLOTA, 9, 1⟩
def F.CFG_SLOTA_CANDIDATE : Fld := ⟨R.CFG_SLOTA, 8, 1⟩
def F.CFG_SLOTA_CODE : Fld := ⟨R.CFG_SLOTA, 0, 8⟩
def R.CFG_SLOTB : Nat := 0x02010020
def F.CFG_SLOTB_REC : Fld := ⟨R.CFG_SLOTB, 16, 10⟩
def F.CFG_SLOTB_HDR : Fld := ⟨R.CFG_SLOTB, 11, 1⟩
def F.CFG_SLOTB_LOADED : Fld := ⟨R.CFG_SLOTB, 10, 1⟩
def F.CFG_SLOTB_CHECKED : Fld := ⟨R.CFG_SLOTB, 9, 1⟩
def F.CFG_SLOTB_CANDIDATE : Fld := ⟨R.CFG_SLOTB, 8, 1⟩
def F.CFG_SLOTB_CODE : Fld := ⟨R.CFG_SLOTB, 0, 8⟩
def R.CFG_LOGCNT : Nat := 0x02010024
def F.CFG_LOGCNT_COUNT : Fld := ⟨R.CFG_LOGCNT, 0, 32⟩
def R.CFG_XSPI : Nat := 0x02010028
def F.CFG_XSPI_MODE : Fld := ⟨R.CFG_XSPI, 16, 2⟩
def F.CFG_XSPI_MHZ : Fld := ⟨R.CFG_XSPI, 0, 16⟩
def R.CFG_CLAIM_RES : Nat := 0x02010030
def F.CFG_CLAIM_RES_RELEASE : Fld := ⟨R.CFG_CLAIM_RES, 31, 1⟩
def F.CFG_CLAIM_RES_NUM : Fld := ⟨R.CFG_CLAIM_RES, 16, 7⟩
def F.CFG_CLAIM_RES_FIRST : Fld := ⟨R.CFG_CLAIM_RES, 8, 7⟩
def F.CFG_CLAIM_RES_CLASS : Fld := ⟨R.CFG_CLAIM_RES, 0, 4⟩
def R.CFG_CLAIM_GO : Nat := 0x02010034
def F.CFG_CLAIM_GO_FEATURE : Fld := ⟨R.CFG_CLAIM_GO, 0, 16⟩
def R.CFG_UPDSTAT : Nat := 0x02010038
def F.CFG_UPDSTAT_CODE : Fld := ⟨R.CFG_UPDSTAT, 8, 8⟩
def F.CFG_UPDSTAT_STEP : Fld := ⟨R.CFG_UPDSTAT, 0, 2⟩
def R.CFG_IRQ_STAT : Nat := 0x0201003C
def F.CFG_IRQ_STAT_CLAIM_REJ : Fld := ⟨R.CFG_IRQ_STAT, 1, 1⟩
def F.CFG_IRQ_STAT_UPD_DONE : Fld := ⟨R.CFG_IRQ_STAT, 0, 1⟩
def R.CFG_IRQ_EN : Nat := 0x02010040
def F.CFG_IRQ_EN_CLAIM_REJ : Fld := ⟨R.CFG_IRQ_EN, 1, 1⟩
def F.CFG_IRQ_EN_UPD_DONE : Fld := ⟨R.CFG_IRQ_EN, 0, 1⟩
def R.CFG_LOG (i : Nat) : Nat := 0x02010100 + 0x4 * i
def F.CFG_LOG_CLASS (i : Nat) : Fld := ⟨(R.CFG_LOG i), 24, 8⟩
def F.CFG_LOG_CODE (i : Nat) : Fld := ⟨(R.CFG_LOG i), 16, 8⟩
def F.CFG_LOG_FEATURE (i : Nat) : Fld := ⟨(R.CFG_LOG i), 0, 16⟩
def R.SEC_STATUS : Nat := 0x02020010
def F.SEC_STATUS_KEYS : Fld := ⟨R.SEC_STATUS, 8, 8⟩
def F.SEC_STATUS_UNLOCKED : Fld := ⟨R.SEC_STATUS, 4, 1⟩
def F.SEC_STATUS_DEBUG_KILL : Fld := ⟨R.SEC_STATUS, 3, 1⟩
def F.SEC_STATUS_ROOT_KILL : Fld := ⟨R.SEC_STATUS, 2, 1⟩
def F.SEC_STATUS_ERASED : Fld := ⟨R.SEC_STATUS, 1, 1⟩
def F.SEC_STATUS_ALARM : Fld := ⟨R.SEC_STATUS, 0, 1⟩
def R.SEC_ALARM_STAT : Nat := 0x02020014
def F.SEC_ALARM_STAT_SRC : Fld := ⟨R.SEC_ALARM_STAT, 0, 8⟩
def R.SEC_ALARM_CFG (i : Nat) : Nat := 0x02020020 + 0x4 * i
def F.SEC_ALARM_CFG_FILTER (i : Nat) : Fld := ⟨(R.SEC_ALARM_CFG i), 16, 16⟩
def F.SEC_ALARM_CFG_POL (i : Nat) : Fld := ⟨(R.SEC_ALARM_CFG i), 8, 1⟩
def F.SEC_ALARM_CFG_ERASE (i : Nat) : Fld := ⟨(R.SEC_ALARM_CFG i), 4, 2⟩
def F.SEC_ALARM_CFG_ROOTKILL (i : Nat) : Fld := ⟨(R.SEC_ALARM_CFG i), 1, 1⟩
def F.SEC_ALARM_CFG_ENABLE (i : Nat) : Fld := ⟨(R.SEC_ALARM_CFG i), 0, 1⟩
def R.SEC_MBX_ALLOW : Nat := 0x02020040
def F.SEC_MBX_ALLOW_GROUP : Fld := ⟨R.SEC_MBX_ALLOW, 0, 7⟩
def R.SEC_IRQ_STAT : Nat := 0x02020044
def F.SEC_IRQ_STAT_UNLOCK : Fld := ⟨R.SEC_IRQ_STAT, 2, 1⟩
def F.SEC_IRQ_STAT_ERASED : Fld := ⟨R.SEC_IRQ_STAT, 1, 1⟩
def F.SEC_IRQ_STAT_ALARM : Fld := ⟨R.SEC_IRQ_STAT, 0, 1⟩
def R.SEC_IRQ_EN : Nat := 0x02020048
def F.SEC_IRQ_EN_UNLOCK : Fld := ⟨R.SEC_IRQ_EN, 2, 1⟩
def F.SEC_IRQ_EN_ERASED : Fld := ⟨R.SEC_IRQ_EN, 1, 1⟩
def F.SEC_IRQ_EN_ALARM : Fld := ⟨R.SEC_IRQ_EN, 0, 1⟩
def R.SEC_ERASE : Nat := 0x0202004C
def F.SEC_ERASE_KEY : Fld := ⟨R.SEC_ERASE, 16, 16⟩
def F.SEC_ERASE_LEVEL : Fld := ⟨R.SEC_ERASE, 0, 2⟩
def R.SEC_KEYMAP (i : Nat) : Nat := 0x02020080 + 0x4 * i
def F.SEC_KEYMAP_LOADED (i : Nat) : Fld := ⟨(R.SEC_KEYMAP i), 0, 32⟩
def R.SEC_DEVPUB (i : Nat) : Nat := 0x02020100 + 0x4 * i
def F.SEC_DEVPUB_Q (i : Nat) : Fld := ⟨(R.SEC_DEVPUB i), 0, 32⟩
def R.JNL_STATUS : Nat := 0x02030010
def F.JNL_STATUS_QUAR : Fld := ⟨R.JNL_STATUS, 17, 1⟩
def F.JNL_STATUS_RECOVERED : Fld := ⟨R.JNL_STATUS, 16, 1⟩
def F.JNL_STATUS_INUSE : Fld := ⟨R.JNL_STATUS, 0, 16⟩
def R.JNL_RECUS : Nat := 0x02030014
def F.JNL_RECUS_TIME : Fld := ⟨R.JNL_RECUS, 0, 32⟩
def R.JNL_RECCNT : Nat := 0x02030018
def F.JNL_RECCNT_REACC : Fld := ⟨R.JNL_RECCNT, 16, 16⟩
def F.JNL_RECCNT_INTR : Fld := ⟨R.JNL_RECCNT, 0, 16⟩
def R.JNL_QUAR : Nat := 0x0203001C
def F.JNL_QUAR_COUNT : Fld := ⟨R.JNL_QUAR, 0, 16⟩
def R.JNL_GENLO : Nat := 0x02030020
def F.JNL_GENLO_GEN : Fld := ⟨R.JNL_GENLO, 0, 32⟩
def R.JNL_GENHI : Nat := 0x02030024
def F.JNL_GENHI_GEN : Fld := ⟨R.JNL_GENHI, 0, 32⟩
def R.JNL_LOWMARK : Nat := 0x02030028
def F.JNL_LOWMARK_FREE : Fld := ⟨R.JNL_LOWMARK, 0, 16⟩
def R.JNL_IRQ_STAT : Nat := 0x0203002C
def F.JNL_IRQ_STAT_MRAMERR : Fld := ⟨R.JNL_IRQ_STAT, 2, 1⟩
def F.JNL_IRQ_STAT_LOW : Fld := ⟨R.JNL_IRQ_STAT, 1, 1⟩
def F.JNL_IRQ_STAT_RECOVERED : Fld := ⟨R.JNL_IRQ_STAT, 0, 1⟩
def R.JNL_IRQ_EN : Nat := 0x02030030
def F.JNL_IRQ_EN_MRAMERR : Fld := ⟨R.JNL_IRQ_EN, 2, 1⟩
def F.JNL_IRQ_EN_LOW : Fld := ⟨R.JNL_IRQ_EN, 1, 1⟩
def F.JNL_IRQ_EN_RECOVERED : Fld := ⟨R.JNL_IRQ_EN, 0, 1⟩
def R.FLT_CFG : Nat := 0x02040010
def F.FLT_CFG_FNSEV : Fld := ⟨R.FLT_CFG, 9, 3⟩
def F.FLT_CFG_DETSEV : Fld := ⟨R.FLT_CFG, 6, 3⟩
def F.FLT_CFG_INJACT : Fld := ⟨R.FLT_CFG, 2, 1⟩
def F.FLT_CFG_FATALPOL : Fld := ⟨R.FLT_CFG, 1, 1⟩
def F.FLT_CFG_MODE : Fld := ⟨R.FLT_CFG, 0, 1⟩
def R.FLT_STAT : Nat := 0x02040014
def F.FLT_STAT_LAST : Fld := ⟨R.FLT_STAT, 24, 8⟩
def F.FLT_STAT_STOP : Fld := ⟨R.FLT_STAT, 23, 1⟩
def F.FLT_STAT_SAFE : Fld := ⟨R.FLT_STAT, 22, 1⟩
def F.FLT_STAT_FROZEN : Fld := ⟨R.FLT_STAT, 21, 1⟩
def F.FLT_STAT_HARVEST : Fld := ⟨R.FLT_STAT, 20, 1⟩
def F.FLT_STAT_COUNT : Fld := ⟨R.FLT_STAT, 6, 7⟩
def F.FLT_STAT_NEXT : Fld := ⟨R.FLT_STAT, 0, 6⟩
def R.FLT_FIRST : Nat := 0x02040018
def F.FLT_FIRST_VALID : Fld := ⟨R.FLT_FIRST, 31, 1⟩
def F.FLT_FIRST_FLAGS : Fld := ⟨R.FLT_FIRST, 16, 8⟩
def F.FLT_FIRST_SEV : Fld := ⟨R.FLT_FIRST, 8, 8⟩
def F.FLT_FIRST_SOURCE : Fld := ⟨R.FLT_FIRST, 0, 8⟩
def R.FLT_LOSTCNT : Nat := 0x0204001C
def F.FLT_LOSTCNT_COUNT : Fld := ⟨R.FLT_LOSTCNT, 0, 32⟩
def R.FLT_SAFECTL : Nat := 0x02040020
def F.FLT_SAFECTL_KEY : Fld := ⟨R.FLT_SAFECTL, 16, 16⟩
def F.FLT_SAFECTL_EXIT : Fld := ⟨R.FLT_SAFECTL, 0, 1⟩
def R.FLT_SAFESTAT : Nat := 0x02040024
def F.FLT_SAFESTAT_CAUSE : Fld := ⟨R.FLT_SAFESTAT, 28, 4⟩
def F.FLT_SAFESTAT_SRC : Fld := ⟨R.FLT_SAFESTAT, 20, 8⟩
def F.FLT_SAFESTAT_FROM : Fld := ⟨R.FLT_SAFESTAT, 16, 4⟩
def F.FLT_SAFESTAT_EXITOK : Fld := ⟨R.FLT_SAFESTAT, 2, 1⟩
def F.FLT_SAFESTAT_JOURNAL : Fld := ⟨R.FLT_SAFESTAT, 1, 1⟩
def F.FLT_SAFESTAT_ACTIVE : Fld := ⟨R.FLT_SAFESTAT, 0, 1⟩
def R.FLT_INJ : Nat := 0x02040028
def F.FLT_INJ_DETAIL : Fld := ⟨R.FLT_INJ, 8, 24⟩
def F.FLT_INJ_SOURCE : Fld := ⟨R.FLT_INJ, 0, 8⟩
def R.FLT_FWRAISE : Nat := 0x0204002C
def F.FLT_FWRAISE_DETAIL : Fld := ⟨R.FLT_FWRAISE, 8, 24⟩
def F.FLT_FWRAISE_N : Fld := ⟨R.FLT_FWRAISE, 0, 5⟩
def R.FLT_HVCFG : Nat := 0x02040030
def F.FLT_HVCFG_ENABLE : Fld := ⟨R.FLT_HVCFG, 31, 1⟩
def F.FLT_HVCFG_SRAM : Fld := ⟨R.FLT_HVCFG, 30, 1⟩
def F.FLT_HVCFG_BASE : Fld := ⟨R.FLT_HVCFG, 0, 16⟩
def R.FLT_HVSTAT : Nat := 0x02040034
def F.FLT_HVSTAT_COUNT : Fld := ⟨R.FLT_HVSTAT, 16, 16⟩
def F.FLT_HVSTAT_CODE : Fld := ⟨R.FLT_HVSTAT, 8, 8⟩
def F.FLT_HVSTAT_SLOT : Fld := ⟨R.FLT_HVSTAT, 0, 3⟩
def R.FLT_IRQ_STAT : Nat := 0x02040038
def F.FLT_IRQ_STAT_REGERR : Fld := ⟨R.FLT_IRQ_STAT, 5, 1⟩
def F.FLT_IRQ_STAT_HELD : Fld := ⟨R.FLT_IRQ_STAT, 4, 1⟩
def F.FLT_IRQ_STAT_LOST : Fld := ⟨R.FLT_IRQ_STAT, 3, 1⟩
def F.FLT_IRQ_STAT_SAFE : Fld := ⟨R.FLT_IRQ_STAT, 2, 1⟩
def F.FLT_IRQ_STAT_STOP : Fld := ⟨R.FLT_IRQ_STAT, 1, 1⟩
def F.FLT_IRQ_STAT_RECORD : Fld := ⟨R.FLT_IRQ_STAT, 0, 1⟩
def R.FLT_IRQ_EN : Nat := 0x0204003C
def F.FLT_IRQ_EN_REGERR : Fld := ⟨R.FLT_IRQ_EN, 5, 1⟩
def F.FLT_IRQ_EN_HELD : Fld := ⟨R.FLT_IRQ_EN, 4, 1⟩
def F.FLT_IRQ_EN_LOST : Fld := ⟨R.FLT_IRQ_EN, 3, 1⟩
def F.FLT_IRQ_EN_SAFE : Fld := ⟨R.FLT_IRQ_EN, 2, 1⟩
def F.FLT_IRQ_EN_STOP : Fld := ⟨R.FLT_IRQ_EN, 1, 1⟩
def F.FLT_IRQ_EN_RECORD : Fld := ⟨R.FLT_IRQ_EN, 0, 1⟩
def R.FLT_HISTCLR : Nat := 0x02040040
def F.FLT_HISTCLR_LOST : Fld := ⟨R.FLT_HISTCLR, 2, 1⟩
def F.FLT_HISTCLR_FIRST : Fld := ⟨R.FLT_HISTCLR, 1, 1⟩
def F.FLT_HISTCLR_HIST : Fld := ⟨R.FLT_HISTCLR, 0, 1⟩
def R.FLT_TEMP : Nat := 0x02040044
def F.FLT_TEMP_WARN : Fld := ⟨R.FLT_TEMP, 24, 8⟩
def F.FLT_TEMP_HOT : Fld := ⟨R.FLT_TEMP, 16, 8⟩
def F.FLT_TEMP_COLD : Fld := ⟨R.FLT_TEMP, 8, 8⟩
def F.FLT_TEMP_HYST : Fld := ⟨R.FLT_TEMP, 0, 8⟩
def R.FLT_DIETEMP : Nat := 0x02040048
def F.FLT_DIETEMP_TEMP : Fld := ⟨R.FLT_DIETEMP, 0, 16⟩
def R.FLT_SAFEN : Nat := 0x0204004C
def F.FLT_SAFEN_FILTER : Fld := ⟨R.FLT_SAFEN, 0, 16⟩
def R.FLT_PEND (i : Nat) : Nat := 0x02040080 + 0x4 * i
def F.FLT_PEND_PEND (i : Nat) : Fld := ⟨(R.FLT_PEND i), 0, 32⟩
def R.FLT_DETAIL (i : Nat) : Nat := 0x02040100 + 0x4 * i
def F.FLT_DETAIL_VALUE (i : Nat) : Fld := ⟨(R.FLT_DETAIL i), 0, 32⟩
def R.FLT_SRC_CFG (n : Nat) : Nat := 0x02040400 + 0x4 * n
def F.FLT_SRC_CFG_MIN (n : Nat) : Fld := ⟨(R.FLT_SRC_CFG n), 24, 3⟩
def F.FLT_SRC_CFG_DEF (n : Nat) : Fld := ⟨(R.FLT_SRC_CFG n), 16, 3⟩
def F.FLT_SRC_CFG_ISEV (n : Nat) : Fld := ⟨(R.FLT_SRC_CFG n), 8, 3⟩
def F.FLT_SRC_CFG_USED (n : Nat) : Fld := ⟨(R.FLT_SRC_CFG n), 3, 1⟩
def F.FLT_SRC_CFG_SEV (n : Nat) : Fld := ⟨(R.FLT_SRC_CFG n), 0, 3⟩
def R.FLT_HIST_W (e w : Nat) : Nat := 0x02040800 + 0x20 * e + 0x4 * w
def F.FLT_HIST_W_BYTES (e w : Nat) : Fld := ⟨(R.FLT_HIST_W e w), 0, 32⟩
def R.TWN_CFG : Nat := 0x02050010
def F.TWN_CFG_PAIR : Fld := ⟨R.TWN_CFG, 31, 1⟩
def F.TWN_CFG_SIDE : Fld := ⟨R.TWN_CFG, 30, 1⟩
def F.TWN_CFG_AUTOREJOIN : Fld := ⟨R.TWN_CFG, 29, 1⟩
def F.TWN_CFG_DATAPATH : Fld := ⟨R.TWN_CFG, 28, 1⟩
def F.TWN_CFG_REPLTO : Fld := ⟨R.TWN_CFG, 24, 4⟩
def F.TWN_CFG_LINKTO : Fld := ⟨R.TWN_CFG, 16, 8⟩
def F.TWN_CFG_SIGWIN : Fld := ⟨R.TWN_CFG, 8, 8⟩
def F.TWN_CFG_FORMWAIT : Fld := ⟨R.TWN_CFG, 0, 8⟩
def R.TWN_PAIRTAG : Nat := 0x02050014
def F.TWN_PAIRTAG_TAG : Fld := ⟨R.TWN_PAIRTAG, 0, 32⟩
def R.TWN_STAT : Nat := 0x02050018
def F.TWN_STAT_ROLE : Fld := ⟨R.TWN_STAT, 29, 3⟩
def F.TWN_STAT_PROLE : Fld := ⟨R.TWN_STAT, 26, 3⟩
def F.TWN_STAT_LINKUP : Fld := ⟨R.TWN_STAT, 25, 1⟩
def F.TWN_STAT_PALIVE : Fld := ⟨R.TWN_STAT, 24, 1⟩
def F.TWN_STAT_SYNCSTEP : Fld := ⟨R.TWN_STAT, 22, 2⟩
def F.TWN_STAT_ACCHOLD : Fld := ⟨R.TWN_STAT, 21, 1⟩
def F.TWN_STAT_ALONE : Fld := ⟨R.TWN_STAT, 20, 1⟩
def F.TWN_STAT_DIAG : Fld := ⟨R.TWN_STAT, 19, 1⟩
def R.TWN_EPOCH : Nat := 0x0205001C
def F.TWN_EPOCH_EPOCH : Fld := ⟨R.TWN_EPOCH, 0, 32⟩
def R.TWN_PEPOCH : Nat := 0x02050020
def F.TWN_PEPOCH_EPOCH : Fld := ⟨R.TWN_PEPOCH, 0, 32⟩
def R.TWN_SIGCNT : Nat := 0x02050024
def F.TWN_SIGCNT_COUNT : Fld := ⟨R.TWN_SIGCNT, 0, 32⟩
def R.TWN_DIVCNT : Nat := 0x02050028
def F.TWN_DIVCNT_COUNT : Fld := ⟨R.TWN_DIVCNT, 0, 32⟩
def R.TWN_TKOCNT : Nat := 0x0205002C
def F.TWN_TKOCNT_COUNT : Fld := ⟨R.TWN_TKOCNT, 0, 32⟩
def R.TWN_LASTTKO : Nat := 0x02050030
def F.TWN_LASTTKO_CAUSE : Fld := ⟨R.TWN_LASTTKO, 28, 4⟩
def F.TWN_LASTTKO_UNCERTAIN : Fld := ⟨R.TWN_LASTTKO, 0, 16⟩
def R.TWN_TKOTIMELO : Nat := 0x02050034
def F.TWN_TKOTIMELO_TIME : Fld := ⟨R.TWN_TKOTIMELO, 0, 32⟩
def R.TWN_TKOTIMEHI : Nat := 0x02050038
def F.TWN_TKOTIMEHI_TIME : Fld := ⟨R.TWN_TKOTIMEHI, 0, 32⟩
def R.TWN_HEALTH : Nat := 0x0205003C
def F.TWN_HEALTH_AGE : Fld := ⟨R.TWN_HEALTH, 16, 16⟩
def F.TWN_HEALTH_STOPFLT : Fld := ⟨R.TWN_HEALTH, 7, 1⟩
def F.TWN_HEALTH_CAMERA : Fld := ⟨R.TWN_HEALTH, 6, 1⟩
def F.TWN_HEALTH_HEADLANE : Fld := ⟨R.TWN_HEALTH, 5, 1⟩
def F.TWN_HEALTH_FEED : Fld := ⟨R.TWN_HEALTH, 4, 1⟩
def F.TWN_HEALTH_MARGIN : Fld := ⟨R.TWN_HEALTH, 3, 1⟩
def F.TWN_HEALTH_MAC : Fld := ⟨R.TWN_HEALTH, 2, 1⟩
def F.TWN_HEALTH_MRAM : Fld := ⟨R.TWN_HEALTH, 1, 1⟩
def F.TWN_HEALTH_SCRUB : Fld := ⟨R.TWN_HEALTH, 0, 1⟩
def R.TWN_PHEALTH : Nat := 0x02050040
def F.TWN_PHEALTH_AGE : Fld := ⟨R.TWN_PHEALTH, 16, 16⟩
def F.TWN_PHEALTH_STOPFLT : Fld := ⟨R.TWN_PHEALTH, 7, 1⟩
def F.TWN_PHEALTH_CAMERA : Fld := ⟨R.TWN_PHEALTH, 6, 1⟩
def F.TWN_PHEALTH_HEADLANE : Fld := ⟨R.TWN_PHEALTH, 5, 1⟩
def F.TWN_PHEALTH_FEED : Fld := ⟨R.TWN_PHEALTH, 4, 1⟩
def F.TWN_PHEALTH_MARGIN : Fld := ⟨R.TWN_PHEALTH, 3, 1⟩
def F.TWN_PHEALTH_MAC : Fld := ⟨R.TWN_PHEALTH, 2, 1⟩
def F.TWN_PHEALTH_MRAM : Fld := ⟨R.TWN_PHEALTH, 1, 1⟩
def F.TWN_PHEALTH_SCRUB : Fld := ⟨R.TWN_PHEALTH, 0, 1⟩
def R.TWN_IRQ_STAT : Nat := 0x02050044
def F.TWN_IRQ_STAT_EPOCH : Fld := ⟨R.TWN_IRQ_STAT, 7, 1⟩
def F.TWN_IRQ_STAT_SYNCED : Fld := ⟨R.TWN_IRQ_STAT, 6, 1⟩
def F.TWN_IRQ_STAT_PHEALTH : Fld := ⟨R.TWN_IRQ_STAT, 5, 1⟩
def F.TWN_IRQ_STAT_PALIVE : Fld := ⟨R.TWN_IRQ_STAT, 4, 1⟩
def F.TWN_IRQ_STAT_LINK : Fld := ⟨R.TWN_IRQ_STAT, 3, 1⟩
def F.TWN_IRQ_STAT_TAKEOVER : Fld := ⟨R.TWN_IRQ_STAT, 2, 1⟩
def F.TWN_IRQ_STAT_DIVERGE : Fld := ⟨R.TWN_IRQ_STAT, 1, 1⟩
def F.TWN_IRQ_STAT_ROLE : Fld := ⟨R.TWN_IRQ_STAT, 0, 1⟩
def R.TWN_IRQ_EN : Nat := 0x02050048
def F.TWN_IRQ_EN_EPOCH : Fld := ⟨R.TWN_IRQ_EN, 7, 1⟩
def F.TWN_IRQ_EN_SYNCED : Fld := ⟨R.TWN_IRQ_EN, 6, 1⟩
def F.TWN_IRQ_EN_PHEALTH : Fld := ⟨R.TWN_IRQ_EN, 5, 1⟩
def F.TWN_IRQ_EN_PALIVE : Fld := ⟨R.TWN_IRQ_EN, 4, 1⟩
def F.TWN_IRQ_EN_LINK : Fld := ⟨R.TWN_IRQ_EN, 3, 1⟩
def F.TWN_IRQ_EN_TAKEOVER : Fld := ⟨R.TWN_IRQ_EN, 2, 1⟩
def F.TWN_IRQ_EN_DIVERGE : Fld := ⟨R.TWN_IRQ_EN, 1, 1⟩
def F.TWN_IRQ_EN_ROLE : Fld := ⟨R.TWN_IRQ_EN, 0, 1⟩
def R.TWN_CTL : Nat := 0x0205004C
def F.TWN_CTL_KEY : Fld := ⟨R.TWN_CTL, 16, 16⟩
def F.TWN_CTL_CMD : Fld := ⟨R.TWN_CTL, 0, 3⟩
def R.TWN_ENC_OFSLO (e : Nat) : Nat := 0x02050100 + 0x8 * e
def F.TWN_ENC_OFSLO_OFS (e : Nat) : Fld := ⟨(R.TWN_ENC_OFSLO e), 0, 32⟩
def R.TWN_ENC_OFSHI (e : Nat) : Nat := 0x02050104 + 0x8 * e
def F.TWN_ENC_OFSHI_OFS (e : Nat) : Fld := ⟨(R.TWN_ENC_OFSHI e), 0, 32⟩
def R.MBX_TPEND : Nat := 0x02060010
def F.MBX_TPEND_PEND : Fld := ⟨R.MBX_TPEND, 0, 4⟩
def R.MBX_TIRQ_EN : Nat := 0x02060014
def F.MBX_TIRQ_EN_EN : Fld := ⟨R.MBX_TIRQ_EN, 0, 4⟩
def R.MBX_IRQ_STAT : Nat := 0x02060018
def F.MBX_IRQ_STAT_DONE : Fld := ⟨R.MBX_IRQ_STAT, 0, 4⟩
def R.MBX_IRQ_EN : Nat := 0x0206001C
def F.MBX_IRQ_EN_DONE : Fld := ⟨R.MBX_IRQ_EN, 0, 4⟩
def R.MBX_REQ_W (n i : Nat) : Nat := 0x02060100 + 0x100 * n + 0x4 * i
def F.MBX_REQ_W_WORD (n i : Nat) : Fld := ⟨(R.MBX_REQ_W n i), 0, 32⟩
def R.MBX_RSP_W (n i : Nat) : Nat := 0x02060140 + 0x100 * n + 0x4 * i
def F.MBX_RSP_W_WORD (n i : Nat) : Fld := ⟨(R.MBX_RSP_W n i), 0, 32⟩
def R.MBX_CTL (n : Nat) : Nat := 0x02060180 + 0x100 * n
def F.MBX_CTL_DONE (n : Nat) : Fld := ⟨(R.MBX_CTL n), 2, 1⟩
def F.MBX_CTL_BUSY (n : Nat) : Fld := ⟨(R.MBX_CTL n), 1, 1⟩
def F.MBX_CTL_GO (n : Nat) : Fld := ⟨(R.MBX_CTL n), 0, 1⟩
def R.ITK_NETCFG : Nat := 0x08000010
def F.ITK_NETCFG_PORTS : Fld := ⟨R.ITK_NETCFG, 18, 4⟩
def F.ITK_NETCFG_IPV6 : Fld := ⟨R.ITK_NETCFG, 17, 1⟩
def F.ITK_NETCFG_IPV4 : Fld := ⟨R.ITK_NETCFG, 16, 1⟩
def F.ITK_NETCFG_PORT : Fld := ⟨R.ITK_NETCFG, 0, 16⟩
def R.ITK_DROP_FMT : Nat := 0x08000014
def F.ITK_DROP_FMT_COUNT : Fld := ⟨R.ITK_DROP_FMT, 0, 32⟩
def R.ITK_DROP_AUTH : Nat := 0x08000018
def F.ITK_DROP_AUTH_COUNT : Fld := ⟨R.ITK_DROP_AUTH, 0, 32⟩
def R.ITK_DROP_WIN : Nat := 0x0800001C
def F.ITK_DROP_WIN_COUNT : Fld := ⟨R.ITK_DROP_WIN, 0, 32⟩
def R.ITK_LINKCNT : Nat := 0x08000020
def F.ITK_LINKCNT_COUNT : Fld := ⟨R.ITK_LINKCNT, 0, 32⟩
def R.ITK_CNTCLR : Nat := 0x08000024
def F.ITK_CNTCLR_CLR : Fld := ⟨R.ITK_CNTCLR, 0, 4⟩
def R.ITK_PAGECFG : Nat := 0x08000028
def F.ITK_PAGECFG_HOLD : Fld := ⟨R.ITK_PAGECFG, 0, 16⟩
def R.ITK_PAGEBASE : Nat := 0x0800002C
def F.ITK_PAGEBASE_MIB : Fld := ⟨R.ITK_PAGEBASE, 0, 32⟩
def R.ITK_PAGESIZE : Nat := 0x08000030
def F.ITK_PAGESIZE_MIB : Fld := ⟨R.ITK_PAGESIZE, 0, 32⟩
def R.ITK_IRQ_STAT : Nat := 0x08000034
def F.ITK_IRQ_STAT_LINKREF : Fld := ⟨R.ITK_IRQ_STAT, 3, 1⟩
def F.ITK_IRQ_STAT_AUTHDROP : Fld := ⟨R.ITK_IRQ_STAT, 2, 1⟩
def F.ITK_IRQ_STAT_NOROOM : Fld := ⟨R.ITK_IRQ_STAT, 1, 1⟩
def F.ITK_IRQ_STAT_SESSION : Fld := ⟨R.ITK_IRQ_STAT, 0, 1⟩
def R.ITK_IRQ_EN : Nat := 0x08000038
def F.ITK_IRQ_EN_LINKREF : Fld := ⟨R.ITK_IRQ_EN, 3, 1⟩
def F.ITK_IRQ_EN_AUTHDROP : Fld := ⟨R.ITK_IRQ_EN, 2, 1⟩
def F.ITK_IRQ_EN_NOROOM : Fld := ⟨R.ITK_IRQ_EN, 1, 1⟩
def F.ITK_IRQ_EN_SESSION : Fld := ⟨R.ITK_IRQ_EN, 0, 1⟩
def R.ITK_SESS_CFG (n : Nat) : Nat := 0x08000100 + 0x10 * n
def F.ITK_SESS_CFG_ZONES (n : Nat) : Fld := ⟨(R.ITK_SESS_CFG n), 16, 16⟩
def F.ITK_SESS_CFG_KEYSLOT (n : Nat) : Fld := ⟨(R.ITK_SESS_CFG n), 8, 8⟩
def F.ITK_SESS_CFG_ENABLE (n : Nat) : Fld := ⟨(R.ITK_SESS_CFG n), 0, 1⟩
def R.ITK_SESS_CFG2 (n : Nat) : Nat := 0x08000104 + 0x10 * n
def F.ITK_SESS_CFG2_IDLE (n : Nat) : Fld := ⟨(R.ITK_SESS_CFG2 n), 16, 16⟩
def F.ITK_SESS_CFG2_RTO (n : Nat) : Fld := ⟨(R.ITK_SESS_CFG2 n), 8, 8⟩
def F.ITK_SESS_CFG2_RIGHTS (n : Nat) : Fld := ⟨(R.ITK_SESS_CFG2 n), 0, 4⟩
def R.ITK_SESS_STAT (n : Nat) : Nat := 0x08000108 + 0x10 * n
def F.ITK_SESS_STAT_UNACKED (n : Nat) : Fld := ⟨(R.ITK_SESS_STAT n), 8, 9⟩
def F.ITK_SESS_STAT_STATE (n : Nat) : Fld := ⟨(R.ITK_SESS_STAT n), 0, 2⟩
def R.ITK_SESS_SID (n : Nat) : Nat := 0x0800010C + 0x10 * n
def F.ITK_SESS_SID_SID (n : Nat) : Fld := ⟨(R.ITK_SESS_SID n), 0, 32⟩
def R.ITK_ZONE_CFG (n : Nat) : Nat := 0x08000200 + 0x10 * n
def F.ITK_ZONE_CFG_ENABLE (n : Nat) : Fld := ⟨(R.ITK_ZONE_CFG n), 17, 1⟩
def F.ITK_ZONE_CFG_REJIDLE (n : Nat) : Fld := ⟨(R.ITK_ZONE_CFG n), 16, 1⟩
def F.ITK_ZONE_CFG_MAXLIVE (n : Nat) : Fld := ⟨(R.ITK_ZONE_CFG n), 0, 16⟩
def R.ITK_ZONE_LASTLO (n : Nat) : Nat := 0x08000204 + 0x10 * n
def F.ITK_ZONE_LASTLO_ZSEQ (n : Nat) : Fld := ⟨(R.ITK_ZONE_LASTLO n), 0, 32⟩
def R.ITK_ZONE_LASTHI (n : Nat) : Nat := 0x08000208 + 0x10 * n
def F.ITK_ZONE_LASTHI_ZSEQ (n : Nat) : Fld := ⟨(R.ITK_ZONE_LASTHI n), 0, 32⟩
def R.ITK_ZONE_STAT (n : Nat) : Nat := 0x0800020C + 0x10 * n
def F.ITK_ZONE_STAT_IDLETRIG (n : Nat) : Fld := ⟨(R.ITK_ZONE_STAT n), 16, 16⟩
def F.ITK_ZONE_STAT_LIVE (n : Nat) : Fld := ⟨(R.ITK_ZONE_STAT n), 0, 16⟩
def R.ITK_VJPLIST (n : Nat) : Nat := 0x08000300 + 0x4 * n
def F.ITK_VJPLIST_WRITE (n : Nat) : Fld := ⟨(R.ITK_VJPLIST n), 31, 1⟩
def F.ITK_VJPLIST_COUNT (n : Nat) : Fld := ⟨(R.ITK_VJPLIST n), 23, 7⟩
def F.ITK_VJPLIST_BLOCK (n : Nat) : Fld := ⟨(R.ITK_VJPLIST n), 16, 7⟩
def F.ITK_VJPLIST_OFFSET (n : Nat) : Fld := ⟨(R.ITK_VJPLIST n), 0, 16⟩
def R.BRD_IRQ_STAT : Nat := 0x08010010
def F.BRD_IRQ_STAT_NOFIT : Fld := ⟨R.BRD_IRQ_STAT, 2, 1⟩
def F.BRD_IRQ_STAT_DJOB : Fld := ⟨R.BRD_IRQ_STAT, 1, 1⟩
def F.BRD_IRQ_STAT_ERR : Fld := ⟨R.BRD_IRQ_STAT, 0, 1⟩
def R.BRD_IRQ_EN : Nat := 0x08010014
def F.BRD_IRQ_EN_NOFIT : Fld := ⟨R.BRD_IRQ_EN, 2, 1⟩
def F.BRD_IRQ_EN_DJOB : Fld := ⟨R.BRD_IRQ_EN, 1, 1⟩
def F.BRD_IRQ_EN_ERR : Fld := ⟨R.BRD_IRQ_EN, 0, 1⟩
def R.BRD_DJOB_PAGE : Nat := 0x08010020
def F.BRD_DJOB_PAGE_HG : Fld := ⟨R.BRD_DJOB_PAGE, 20, 3⟩
def F.BRD_DJOB_PAGE_PLANE : Fld := ⟨R.BRD_DJOB_PAGE, 16, 4⟩
def F.BRD_DJOB_PAGE_PAGE : Fld := ⟨R.BRD_DJOB_PAGE, 0, 16⟩
def R.BRD_DJOB_BANDS : Nat := 0x08010024
def F.BRD_DJOB_BANDS_COUNTM1 : Fld := ⟨R.BRD_DJOB_BANDS, 16, 16⟩
def F.BRD_DJOB_BANDS_FIRST : Fld := ⟨R.BRD_DJOB_BANDS, 0, 16⟩
def R.BRD_DJOB_DSTLO : Nat := 0x08010028
def F.BRD_DJOB_DSTLO_ADDR : Fld := ⟨R.BRD_DJOB_DSTLO, 0, 32⟩
def R.BRD_DJOB_DSTHI : Nat := 0x0801002C
def F.BRD_DJOB_DSTHI_ADDR : Fld := ⟨R.BRD_DJOB_DSTHI, 0, 32⟩
def R.BRD_DJOB_STRIDE : Nat := 0x08010030
def F.BRD_DJOB_STRIDE_STRIDE : Fld := ⟨R.BRD_DJOB_STRIDE, 0, 20⟩
def R.BRD_DJOB_GO : Nat := 0x08010034
def F.BRD_DJOB_GO_GO : Fld := ⟨R.BRD_DJOB_GO, 0, 1⟩
def R.BRD_DJOB_STAT : Nat := 0x08010038
def F.BRD_DJOB_STAT_CODE : Fld := ⟨R.BRD_DJOB_STAT, 8, 8⟩
def F.BRD_DJOB_STAT_STATE : Fld := ⟨R.BRD_DJOB_STAT, 0, 2⟩
def R.BRD_HG_STAT (n : Nat) : Nat := 0x08010100 + 0x20 * n
def F.BRD_HG_STAT_NOFIT (n : Nat) : Fld := ⟨(R.BRD_HG_STAT n), 16, 16⟩
def F.BRD_HG_STAT_HISTKIB (n : Nat) : Fld := ⟨(R.BRD_HG_STAT n), 4, 9⟩
def F.BRD_HG_STAT_OPEN (n : Nat) : Fld := ⟨(R.BRD_HG_STAT n), 0, 4⟩
def R.BRD_HG_STALL (n : Nat) : Nat := 0x08010104 + 0x20 * n
def F.BRD_HG_STALL_COUNT (n : Nat) : Fld := ⟨(R.BRD_HG_STALL n), 0, 32⟩
def R.BRD_HG_STARVE (n : Nat) : Nat := 0x08010108 + 0x20 * n
def F.BRD_HG_STARVE_COUNT (n : Nat) : Fld := ⟨(R.BRD_HG_STARVE n), 0, 32⟩
def R.BRD_HG_ERR (n : Nat) : Nat := 0x0801010C + 0x20 * n
def F.BRD_HG_ERR_VALID (n : Nat) : Fld := ⟨(R.BRD_HG_ERR n), 31, 1⟩
def F.BRD_HG_ERR_KIND (n : Nat) : Fld := ⟨(R.BRD_HG_ERR n), 16, 4⟩
def F.BRD_HG_ERR_BLOCK (n : Nat) : Fld := ⟨(R.BRD_HG_ERR n), 0, 16⟩
def R.BRD_HG_ERRPAGE (n : Nat) : Nat := 0x08010110 + 0x20 * n
def F.BRD_HG_ERRPAGE_PAGE (n : Nat) : Fld := ⟨(R.BRD_HG_ERRPAGE n), 0, 16⟩
def R.BRC_SRCLO : Nat := 0x08020010
def F.BRC_SRCLO_ADDR : Fld := ⟨R.BRC_SRCLO, 0, 32⟩
def R.BRC_SRCHI : Nat := 0x08020014
def F.BRC_SRCHI_ADDR : Fld := ⟨R.BRC_SRCHI, 0, 32⟩
def R.BRC_STRIDE : Nat := 0x08020018
def F.BRC_STRIDE_STRIDE : Fld := ⟨R.BRC_STRIDE, 0, 20⟩
def R.BRC_WIDTH : Nat := 0x0802001C
def F.BRC_WIDTH_VALUE : Fld := ⟨R.BRC_WIDTH, 0, 32⟩
def R.BRC_LINES : Nat := 0x08020020
def F.BRC_LINES_VALUE : Fld := ⟨R.BRC_LINES, 0, 32⟩
def R.BRC_BLK : Nat := 0x08020024
def F.BRC_BLK_BW : Fld := ⟨R.BRC_BLK, 16, 16⟩
def F.BRC_BLK_BHM1 : Fld := ⟨R.BRC_BLK, 8, 8⟩
def F.BRC_BLK_EFFORT : Fld := ⟨R.BRC_BLK, 4, 3⟩
def F.BRC_BLK_DEPTH : Fld := ⟨R.BRC_BLK, 0, 4⟩
def R.BRC_PLANES : Nat := 0x08020028
def F.BRC_PLANES_PLANESM1 : Fld := ⟨R.BRC_PLANES, 0, 4⟩
def R.BRC_OUTBASELO : Nat := 0x0802002C
def F.BRC_OUTBASELO_ADDR : Fld := ⟨R.BRC_OUTBASELO, 0, 32⟩
def R.BRC_OUTBASEHI : Nat := 0x08020030
def F.BRC_OUTBASEHI_ADDR : Fld := ⟨R.BRC_OUTBASEHI, 0, 32⟩
def R.BRC_OUTSIZE : Nat := 0x08020034
def F.BRC_OUTSIZE_BYTES : Fld := ⟨R.BRC_OUTSIZE, 0, 32⟩
def R.BRC_OUTWR : Nat := 0x08020038
def F.BRC_OUTWR_COUNT : Fld := ⟨R.BRC_OUTWR, 0, 32⟩
def R.BRC_OUTRD : Nat := 0x0802003C
def F.BRC_OUTRD_COUNT : Fld := ⟨R.BRC_OUTRD, 0, 32⟩
def R.BRC_GO : Nat := 0x08020040
def F.BRC_GO_GO : Fld := ⟨R.BRC_GO, 0, 1⟩
def R.BRC_STAT : Nat := 0x08020044
def F.BRC_STAT_CODE : Fld := ⟨R.BRC_STAT, 24, 8⟩
def F.BRC_STAT_QUEUED : Fld := ⟨R.BRC_STAT, 16, 3⟩
def F.BRC_STAT_STATE : Fld := ⟨R.BRC_STAT, 0, 2⟩
def R.BRC_JOBBYTES : Nat := 0x08020048
def F.BRC_JOBBYTES_COUNT : Fld := ⟨R.BRC_JOBBYTES, 0, 32⟩
def R.BRC_VFYCNT : Nat := 0x0802004C
def F.BRC_VFYCNT_COUNT : Fld := ⟨R.BRC_VFYCNT, 0, 32⟩
def R.BRC_IRQ_STAT : Nat := 0x08020050
def F.BRC_IRQ_STAT_VERIFY : Fld := ⟨R.BRC_IRQ_STAT, 2, 1⟩
def F.BRC_IRQ_STAT_WAIT : Fld := ⟨R.BRC_IRQ_STAT, 1, 1⟩
def F.BRC_IRQ_STAT_DONE : Fld := ⟨R.BRC_IRQ_STAT, 0, 1⟩
def R.BRC_IRQ_EN : Nat := 0x08020054
def F.BRC_IRQ_EN_VERIFY : Fld := ⟨R.BRC_IRQ_EN, 2, 1⟩
def F.BRC_IRQ_EN_WAIT : Fld := ⟨R.BRC_IRQ_EN, 1, 1⟩
def F.BRC_IRQ_EN_DONE : Fld := ⟨R.BRC_IRQ_EN, 0, 1⟩
def R.RAS_GEOM : Nat := 0x08030010
def F.RAS_GEOM_NHEAD : Fld := ⟨R.RAS_GEOM, 16, 7⟩
def F.RAS_GEOM_NROW : Fld := ⟨R.RAS_GEOM, 8, 5⟩
def F.RAS_GEOM_NZONE : Fld := ⟨R.RAS_GEOM, 0, 5⟩
def R.RAS_RTCFG : Nat := 0x08030014
def F.RAS_RTCFG_WARN : Fld := ⟨R.RAS_RTCFG, 0, 6⟩
def R.RAS_IRQ_STAT : Nat := 0x08030018
def F.RAS_IRQ_STAT_LOWLEAD : Fld := ⟨R.RAS_IRQ_STAT, 4, 1⟩
def F.RAS_IRQ_STAT_CLIP : Fld := ⟨R.RAS_IRQ_STAT, 3, 1⟩
def F.RAS_IRQ_STAT_TBLECC : Fld := ⟨R.RAS_IRQ_STAT, 2, 1⟩
def F.RAS_IRQ_STAT_FIELDERR : Fld := ⟨R.RAS_IRQ_STAT, 1, 1⟩
def F.RAS_IRQ_STAT_LATE : Fld := ⟨R.RAS_IRQ_STAT, 0, 1⟩
def R.RAS_IRQ_EN : Nat := 0x0803001C
def F.RAS_IRQ_EN_LOWLEAD : Fld := ⟨R.RAS_IRQ_EN, 4, 1⟩
def F.RAS_IRQ_EN_CLIP : Fld := ⟨R.RAS_IRQ_EN, 3, 1⟩
def F.RAS_IRQ_EN_TBLECC : Fld := ⟨R.RAS_IRQ_EN, 2, 1⟩
def F.RAS_IRQ_EN_FIELDERR : Fld := ⟨R.RAS_IRQ_EN, 1, 1⟩
def F.RAS_IRQ_EN_LATE : Fld := ⟨R.RAS_IRQ_EN, 0, 1⟩
def R.RAS_ERR : Nat := 0x08030020
def F.RAS_ERR_VALID : Fld := ⟨R.RAS_ERR, 31, 1⟩
def F.RAS_ERR_KIND : Fld := ⟨R.RAS_ERR, 16, 4⟩
def F.RAS_ERR_ZONE : Fld := ⟨R.RAS_ERR, 8, 4⟩
def F.RAS_ERR_HG : Fld := ⟨R.RAS_ERR, 0, 3⟩
def R.RAS_ERRITEMLO : Nat := 0x08030024
def F.RAS_ERRITEMLO_ITEM : Fld := ⟨R.RAS_ERRITEMLO, 0, 32⟩
def R.RAS_ERRITEMHI : Nat := 0x08030028
def F.RAS_ERRITEMHI_ITEM : Fld := ⟨R.RAS_ERRITEMHI, 0, 32⟩
def R.RAS_CLIPCNT : Nat := 0x0803002C
def F.RAS_CLIPCNT_COUNT : Fld := ⟨R.RAS_CLIPCNT, 0, 32⟩
def R.RAS_STATCLR : Nat := 0x08030030
def F.RAS_STATCLR_CLIP : Fld := ⟨R.RAS_STATCLR, 8, 1⟩
def F.RAS_STATCLR_HG : Fld := ⟨R.RAS_STATCLR, 0, 8⟩
def R.RAS_TBLVALID : Nat := 0x08030034
def F.RAS_TBLVALID_FEED : Fld := ⟨R.RAS_TBLVALID, 16, 8⟩
def F.RAS_TBLVALID_BLEND : Fld := ⟨R.RAS_TBLVALID, 0, 16⟩
def R.RAS_ROW_CFG (n : Nat) : Nat := 0x08030100 + 0x10 * n
def F.RAS_ROW_CFG_LPHASE (n : Nat) : Fld := ⟨(R.RAS_ROW_CFG n), 20, 4⟩
def F.RAS_ROW_CFG_LSTEP (n : Nat) : Fld := ⟨(R.RAS_ROW_CFG n), 16, 4⟩
def F.RAS_ROW_CFG_XPHASE (n : Nat) : Fld := ⟨(R.RAS_ROW_CFG n), 12, 4⟩
def F.RAS_ROW_CFG_XSTEP (n : Nat) : Fld := ⟨(R.RAS_ROW_CFG n), 8, 4⟩
def F.RAS_ROW_CFG_VALID (n : Nat) : Fld := ⟨(R.RAS_ROW_CFG n), 4, 1⟩
def F.RAS_ROW_CFG_PLANE (n : Nat) : Fld := ⟨(R.RAS_ROW_CFG n), 0, 4⟩
def R.RAS_ROW_DELAY (n : Nat) : Nat := 0x08030104 + 0x10 * n
def F.RAS_ROW_DELAY_DELAY (n : Nat) : Fld := ⟨(R.RAS_ROW_DELAY n), 0, 32⟩
def R.RAS_ROW_COLS (n : Nat) : Nat := 0x08030108 + 0x10 * n
def F.RAS_ROW_COLS_COLS (n : Nat) : Fld := ⟨(R.RAS_ROW_COLS n), 0, 19⟩
def R.RAS_ROW_HGMASK (n : Nat) : Nat := 0x0803010C + 0x10 * n
def F.RAS_ROW_HGMASK_HG (n : Nat) : Fld := ⟨(R.RAS_ROW_HGMASK n), 0, 8⟩
def R.RAS_ZONE_CFG (n : Nat) : Nat := 0x08030200 + 0x10 * n
def F.RAS_ZONE_CFG_ROWMASK (n : Nat) : Fld := ⟨(R.RAS_ZONE_CFG n), 16, 16⟩
def F.RAS_ZONE_CFG_VALID (n : Nat) : Fld := ⟨(R.RAS_ZONE_CFG n), 4, 1⟩
def F.RAS_ZONE_CFG_FEED (n : Nat) : Fld := ⟨(R.RAS_ZONE_CFG n), 0, 4⟩
def R.RAS_ZONE_X0 (n : Nat) : Nat := 0x08030204 + 0x10 * n
def F.RAS_ZONE_X0_COL (n : Nat) : Fld := ⟨(R.RAS_ZONE_X0 n), 0, 19⟩
def R.RAS_ZONE_XW (n : Nat) : Nat := 0x08030208 + 0x10 * n
def F.RAS_ZONE_XW_COL (n : Nat) : Fld := ⟨(R.RAS_ZONE_XW n), 0, 19⟩
def R.RAS_HG_STAT (n : Nat) : Nat := 0x08030300 + 0x10 * n
def F.RAS_HG_STAT_LATE (n : Nat) : Fld := ⟨(R.RAS_HG_STAT n), 16, 16⟩
def F.RAS_HG_STAT_MINLEAD (n : Nat) : Fld := ⟨(R.RAS_HG_STAT n), 0, 7⟩
def R.RAS_HG_LINES (n : Nat) : Nat := 0x08030304 + 0x10 * n
def F.RAS_HG_LINES_COUNT (n : Nat) : Fld := ⟨(R.RAS_HG_LINES n), 0, 32⟩
def R.RAS_HEAD_CFG (h : Nat) : Nat := 0x08030400 + 0x10 * h
def F.RAS_HEAD_CFG_BLEND (h : Nat) : Fld := ⟨(R.RAS_HEAD_CFG h), 24, 8⟩
def F.RAS_HEAD_CFG_DIR (h : Nat) : Fld := ⟨(R.RAS_HEAD_CFG h), 17, 1⟩
def F.RAS_HEAD_CFG_VALID (h : Nat) : Fld := ⟨(R.RAS_HEAD_CFG h), 16, 1⟩
def F.RAS_HEAD_CFG_NOZCOUNTM1 (h : Nat) : Fld := ⟨(R.RAS_HEAD_CFG h), 0, 16⟩
def R.RAS_HEAD_COL (h : Nat) : Nat := 0x08030404 + 0x10 * h
def F.RAS_HEAD_COL_ROW (h : Nat) : Fld := ⟨(R.RAS_HEAD_COL h), 28, 4⟩
def F.RAS_HEAD_COL_COLFIRST (h : Nat) : Fld := ⟨(R.RAS_HEAD_COL h), 0, 19⟩
def R.RAS_HEAD_NOZ (h : Nat) : Nat := 0x08030408 + 0x10 * h
def F.RAS_HEAD_NOZ_NOZFIRST (h : Nat) : Fld := ⟨(R.RAS_HEAD_NOZ h), 0, 18⟩
def R.RAS_BLEND_CURVE (m k : Nat) : Nat := 0x08038000 + 0x200 * m + 0x4 * k
def F.RAS_BLEND_CURVE_B3 (m k : Nat) : Fld := ⟨(R.RAS_BLEND_CURVE m k), 24, 8⟩
def F.RAS_BLEND_CURVE_B2 (m k : Nat) : Fld := ⟨(R.RAS_BLEND_CURVE m k), 16, 8⟩
def F.RAS_BLEND_CURVE_B1 (m k : Nat) : Fld := ⟨(R.RAS_BLEND_CURVE m k), 8, 8⟩
def F.RAS_BLEND_CURVE_B0 (m k : Nat) : Fld := ⟨(R.RAS_BLEND_CURVE m k), 0, 8⟩
def R.RAS_BLEND_MATRIX (m k : Nat) : Nat := 0x08038100 + 0x200 * m + 0x4 * k
def F.RAS_BLEND_MATRIX_B3 (m k : Nat) : Fld := ⟨(R.RAS_BLEND_MATRIX m k), 24, 8⟩
def F.RAS_BLEND_MATRIX_B2 (m k : Nat) : Fld := ⟨(R.RAS_BLEND_MATRIX m k), 16, 8⟩
def F.RAS_BLEND_MATRIX_B1 (m k : Nat) : Fld := ⟨(R.RAS_BLEND_MATRIX m k), 8, 8⟩
def F.RAS_BLEND_MATRIX_B0 (m k : Nat) : Fld := ⟨(R.RAS_BLEND_MATRIX m k), 0, 8⟩
def R.RAS_FEED_MATRIX (s k : Nat) : Nat := 0x0803A000 + 0x200 * s + 0x4 * k
def F.RAS_FEED_MATRIX_BYTES (s k : Nat) : Fld := ⟨(R.RAS_FEED_MATRIX s k), 0, 32⟩
def R.RAS_FEED_PASSW (s p j : Nat) : Nat := 0x0803A100 + 0x200 * s + 0x10 * p + 0x4 * j
def F.RAS_FEED_PASSW_BYTES (s p j : Nat) : Fld := ⟨(R.RAS_FEED_PASSW s p j), 0, 32⟩
def R.IMP_CFG : Nat := 0x08040010
def F.IMP_CFG_TIMEPOL : Fld := ⟨R.IMP_CFG, 0, 1⟩
def R.IMP_FRBASE : Nat := 0x08040014
def F.IMP_FRBASE_MIB : Fld := ⟨R.IMP_FRBASE, 0, 32⟩
def R.IMP_FRSIZE : Nat := 0x08040018
def F.IMP_FRSIZE_MIB : Fld := ⟨R.IMP_FRSIZE, 0, 32⟩
def R.IMP_FONTBASE : Nat := 0x0804001C
def F.IMP_FONTBASE_MIB : Fld := ⟨R.IMP_FONTBASE, 0, 32⟩
def R.IMP_FONTSIZE : Nat := 0x08040020
def F.IMP_FONTSIZE_MIB : Fld := ⟨R.IMP_FONTSIZE, 0, 32⟩
def R.IMP_STAT : Nat := 0x08040024
def F.IMP_STAT_QUEUED : Fld := ⟨R.IMP_STAT, 16, 13⟩
def F.IMP_STAT_FRFREE : Fld := ⟨R.IMP_STAT, 0, 16⟩
def R.IMP_ERR : Nat := 0x08040028
def F.IMP_ERR_VALID : Fld := ⟨R.IMP_ERR, 31, 1⟩
def F.IMP_ERR_KIND : Fld := ⟨R.IMP_ERR, 16, 4⟩
def F.IMP_ERR_TPL : Fld := ⟨R.IMP_ERR, 8, 6⟩
def F.IMP_ERR_ZONE : Fld := ⟨R.IMP_ERR, 0, 4⟩
def R.IMP_ERRITEMLO : Nat := 0x0804002C
def F.IMP_ERRITEMLO_ITEM : Fld := ⟨R.IMP_ERRITEMLO, 0, 32⟩
def R.IMP_ERRITEMHI : Nat := 0x08040030
def F.IMP_ERRITEMHI_ITEM : Fld := ⟨R.IMP_ERRITEMHI, 0, 32⟩
def R.IMP_CODECNT : Nat := 0x08040034
def F.IMP_CODECNT_COUNT : Fld := ⟨R.IMP_CODECNT, 0, 32⟩
def R.IMP_FAILCNT : Nat := 0x08040038
def F.IMP_FAILCNT_COUNT : Fld := ⟨R.IMP_FAILCNT, 0, 32⟩
def R.IMP_IRQ_STAT : Nat := 0x0804003C
def F.IMP_IRQ_STAT_TIME : Fld := ⟨R.IMP_IRQ_STAT, 4, 1⟩
def F.IMP_IRQ_STAT_ROLL : Fld := ⟨R.IMP_IRQ_STAT, 3, 1⟩
def F.IMP_IRQ_STAT_FRFULL : Fld := ⟨R.IMP_IRQ_STAT, 2, 1⟩
def F.IMP_IRQ_STAT_KEYS : Fld := ⟨R.IMP_IRQ_STAT, 1, 1⟩
def F.IMP_IRQ_STAT_FIELD : Fld := ⟨R.IMP_IRQ_STAT, 0, 1⟩
def R.IMP_IRQ_EN : Nat := 0x08040040
def F.IMP_IRQ_EN_TIME : Fld := ⟨R.IMP_IRQ_EN, 4, 1⟩
def F.IMP_IRQ_EN_ROLL : Fld := ⟨R.IMP_IRQ_EN, 3, 1⟩
def F.IMP_IRQ_EN_FRFULL : Fld := ⟨R.IMP_IRQ_EN, 2, 1⟩
def F.IMP_IRQ_EN_KEYS : Fld := ⟨R.IMP_IRQ_EN, 1, 1⟩
def F.IMP_IRQ_EN_FIELD : Fld := ⟨R.IMP_IRQ_EN, 0, 1⟩
def R.IMP_ZONE_TPLLO (z : Nat) : Nat := 0x08040100 + 0x8 * z
def F.IMP_ZONE_TPLLO_MASK (z : Nat) : Fld := ⟨(R.IMP_ZONE_TPLLO z), 0, 32⟩
def R.IMP_ZONE_TPLHI (z : Nat) : Nat := 0x08040104 + 0x8 * z
def F.IMP_ZONE_TPLHI_MASK (z : Nat) : Fld := ⟨(R.IMP_ZONE_TPLHI z), 0, 32⟩
def R.IMP_CNT_CFG (c : Nat) : Nat := 0x08040200 + 0x40 * c
def F.IMP_CNT_CFG_ENABLE (c : Nat) : Fld := ⟨(R.IMP_CNT_CFG c), 31, 1⟩
def F.IMP_CNT_CFG_ZONE (c : Nat) : Fld := ⟨(R.IMP_CNT_CFG c), 24, 4⟩
def F.IMP_CNT_CFG_ROLL (c : Nat) : Fld := ⟨(R.IMP_CNT_CFG c), 20, 1⟩
def F.IMP_CNT_CFG_CHK (c : Nat) : Fld := ⟨(R.IMP_CNT_CFG c), 18, 1⟩
def F.IMP_CNT_CFG_PAD (c : Nat) : Fld := ⟨(R.IMP_CNT_CFG c), 16, 2⟩
def F.IMP_CNT_CFG_RADIX (c : Nat) : Fld := ⟨(R.IMP_CNT_CFG c), 8, 6⟩
def F.IMP_CNT_CFG_DIGITS (c : Nat) : Fld := ⟨(R.IMP_CNT_CFG c), 0, 5⟩
def R.IMP_CNT_ORIGINLO (c : Nat) : Nat := 0x08040204 + 0x40 * c
def F.IMP_CNT_ORIGINLO_ZSEQ (c : Nat) : Fld := ⟨(R.IMP_CNT_ORIGINLO c), 0, 32⟩
def R.IMP_CNT_ORIGINHI (c : Nat) : Nat := 0x08040208 + 0x40 * c
def F.IMP_CNT_ORIGINHI_ZSEQ (c : Nat) : Fld := ⟨(R.IMP_CNT_ORIGINHI c), 0, 32⟩
def R.IMP_CNT_STARTLO (c : Nat) : Nat := 0x0804020C + 0x40 * c
def F.IMP_CNT_STARTLO_VALUE (c : Nat) : Fld := ⟨(R.IMP_CNT_STARTLO c), 0, 32⟩
def R.IMP_CNT_STARTHI (c : Nat) : Nat := 0x08040210 + 0x40 * c
def F.IMP_CNT_STARTHI_VALUE (c : Nat) : Fld := ⟨(R.IMP_CNT_STARTHI c), 0, 32⟩
def R.IMP_CNT_STEP (c : Nat) : Nat := 0x08040214 + 0x40 * c
def F.IMP_CNT_STEP_STEP (c : Nat) : Fld := ⟨(R.IMP_CNT_STEP c), 0, 32⟩
def R.IMP_CNT_MINLO (c : Nat) : Nat := 0x08040218 + 0x40 * c
def F.IMP_CNT_MINLO_VALUE (c : Nat) : Fld := ⟨(R.IMP_CNT_MINLO c), 0, 32⟩
def R.IMP_CNT_MINHI (c : Nat) : Nat := 0x0804021C + 0x40 * c
def F.IMP_CNT_MINHI_VALUE (c : Nat) : Fld := ⟨(R.IMP_CNT_MINHI c), 0, 32⟩
def R.IMP_CNT_MAXLO (c : Nat) : Nat := 0x08040220 + 0x40 * c
def F.IMP_CNT_MAXLO_VALUE (c : Nat) : Fld := ⟨(R.IMP_CNT_MAXLO c), 0, 32⟩
def R.IMP_CNT_MAXHI (c : Nat) : Nat := 0x08040224 + 0x40 * c
def F.IMP_CNT_MAXHI_VALUE (c : Nat) : Fld := ⟨(R.IMP_CNT_MAXHI c), 0, 32⟩
def R.IMP_CNT_LASTLO (c : Nat) : Nat := 0x08040228 + 0x40 * c
def F.IMP_CNT_LASTLO_VALUE (c : Nat) : Fld := ⟨(R.IMP_CNT_LASTLO c), 0, 32⟩
def R.IMP_CNT_LASTHI (c : Nat) : Nat := 0x0804022C + 0x40 * c
def F.IMP_CNT_LASTHI_VALUE (c : Nat) : Fld := ⟨(R.IMP_CNT_LASTHI c), 0, 32⟩
def R.IMP_DATE_CFG (d : Nat) : Nat := 0x08040600 + 0x20 * d
def F.IMP_DATE_CFG_EXPDAYS (d : Nat) : Fld := ⟨(R.IMP_DATE_CFG d), 16, 16⟩
def F.IMP_DATE_CFG_LOCALMIN (d : Nat) : Fld := ⟨(R.IMP_DATE_CFG d), 5, 11⟩
def F.IMP_DATE_CFG_ROUND (d : Nat) : Fld := ⟨(R.IMP_DATE_CFG d), 1, 2⟩
def F.IMP_DATE_CFG_ENABLE (d : Nat) : Fld := ⟨(R.IMP_DATE_CFG d), 0, 1⟩
def R.IMP_DATE_PAT (d k : Nat) : Nat := 0x08040604 + 0x20 * d + 0x4 * k
def F.IMP_DATE_PAT_BYTES (d k : Nat) : Fld := ⟨(R.IMP_DATE_PAT d k), 0, 32⟩
def R.IMP_TPL_CFG (t : Nat) : Nat := 0x08041000 + 0x80 * t
def F.IMP_TPL_CFG_ENABLE (t : Nat) : Fld := ⟨(R.IMP_TPL_CFG t), 31, 1⟩
def F.IMP_TPL_CFG_REQUIRED (t : Nat) : Fld := ⟨(R.IMP_TPL_CFG t), 30, 1⟩
def F.IMP_TPL_CFG_GS1 (t : Nat) : Fld := ⟨(R.IMP_TPL_CFG t), 29, 1⟩
def F.IMP_TPL_CFG_PLANE (t : Nat) : Fld := ⟨(R.IMP_TPL_CFG t), 24, 4⟩
def F.IMP_TPL_CFG_ROT (t : Nat) : Fld := ⟨(R.IMP_TPL_CFG t), 22, 2⟩
def F.IMP_TPL_CFG_MODE (t : Nat) : Fld := ⟨(R.IMP_TPL_CFG t), 20, 2⟩
def F.IMP_TPL_CFG_LEVEL (t : Nat) : Fld := ⟨(R.IMP_TPL_CFG t), 16, 4⟩
def F.IMP_TPL_CFG_BG (t : Nat) : Fld := ⟨(R.IMP_TPL_CFG t), 12, 4⟩
def F.IMP_TPL_CFG_BWR (t : Nat) : Fld := ⟨(R.IMP_TPL_CFG t), 10, 2⟩
def F.IMP_TPL_CFG_TYPE (t : Nat) : Fld := ⟨(R.IMP_TPL_CFG t), 0, 8⟩
def R.IMP_TPL_X (t : Nat) : Nat := 0x08041004 + 0x80 * t
def F.IMP_TPL_X_POS (t : Nat) : Fld := ⟨(R.IMP_TPL_X t), 0, 22⟩
def R.IMP_TPL_Y (t : Nat) : Nat := 0x08041008 + 0x80 * t
def F.IMP_TPL_Y_POS (t : Nat) : Fld := ⟨(R.IMP_TPL_Y t), 0, 22⟩
def R.IMP_TPL_SCALE (t : Nat) : Nat := 0x0804100C + 0x80 * t
def F.IMP_TPL_SCALE_HEIGHT (t : Nat) : Fld := ⟨(R.IMP_TPL_SCALE t), 16, 16⟩
def F.IMP_TPL_SCALE_SY (t : Nat) : Fld := ⟨(R.IMP_TPL_SCALE t), 8, 8⟩
def F.IMP_TPL_SCALE_SX (t : Nat) : Fld := ⟨(R.IMP_TPL_SCALE t), 0, 8⟩
def R.IMP_TPL_SYM (t : Nat) : Nat := 0x08041010 + 0x80 * t
def F.IMP_TPL_SYM_HRIFONT (t : Nat) : Fld := ⟨(R.IMP_TPL_SYM t), 24, 8⟩
def F.IMP_TPL_SYM_QZ (t : Nat) : Fld := ⟨(R.IMP_TPL_SYM t), 16, 8⟩
def F.IMP_TPL_SYM_SIZE (t : Nat) : Fld := ⟨(R.IMP_TPL_SYM t), 8, 8⟩
def F.IMP_TPL_SYM_ECL (t : Nat) : Fld := ⟨(R.IMP_TPL_SYM t), 6, 2⟩
def F.IMP_TPL_SYM_SHAPE (t : Nat) : Fld := ⟨(R.IMP_TPL_SYM t), 4, 2⟩
def F.IMP_TPL_SYM_B256 (t : Nat) : Fld := ⟨(R.IMP_TPL_SYM t), 3, 1⟩
def R.IMP_TPL_TEXT (t : Nat) : Nat := 0x08041014 + 0x80 * t
def F.IMP_TPL_TEXT_SPACING (t : Nat) : Fld := ⟨(R.IMP_TPL_TEXT t), 8, 8⟩
def F.IMP_TPL_TEXT_FONT (t : Nat) : Fld := ⟨(R.IMP_TPL_TEXT t), 0, 8⟩
def R.IMP_TPL_MAC (t : Nat) : Nat := 0x08041018 + 0x80 * t
def F.IMP_TPL_MAC_TAGBITS (t : Nat) : Fld := ⟨(R.IMP_TPL_MAC t), 16, 8⟩
def F.IMP_TPL_MAC_FORM (t : Nat) : Fld := ⟨(R.IMP_TPL_MAC t), 14, 2⟩
def F.IMP_TPL_MAC_KEYSLOT (t : Nat) : Fld := ⟨(R.IMP_TPL_MAC t), 0, 8⟩
def R.IMP_TPL_CTX (t : Nat) : Nat := 0x0804101C + 0x80 * t
def F.IMP_TPL_CTX_CTX (t : Nat) : Fld := ⟨(R.IMP_TPL_CTX t), 0, 32⟩
def R.IMP_TPL_KODEF (t : Nat) : Nat := 0x08041020 + 0x80 * t
def F.IMP_TPL_KODEF_DEFLEN (t : Nat) : Fld := ⟨(R.IMP_TPL_KODEF t), 16, 7⟩
def F.IMP_TPL_KODEF_KOMASK (t : Nat) : Fld := ⟨(R.IMP_TPL_KODEF t), 0, 16⟩
def R.IMP_TPL_DEF (t k : Nat) : Nat := 0x08041040 + 0x80 * t + 0x4 * k
def F.IMP_TPL_DEF_BYTES (t k : Nat) : Fld := ⟨(R.IMP_TPL_DEF t k), 0, 32⟩
def R.NZM_CFG : Nat := 0x08050010
def F.NZM_CFG_MAXOUT : Fld := ⟨R.NZM_CFG, 16, 16⟩
def F.NZM_CFG_DISDEG : Fld := ⟨R.NZM_CFG, 0, 1⟩
def R.NZM_STATEWR : Nat := 0x08050014
def F.NZM_STATEWR_STATE : Fld := ⟨R.NZM_STATEWR, 18, 2⟩
def F.NZM_STATEWR_NOZZLE : Fld := ⟨R.NZM_STATEWR, 0, 18⟩
def R.NZM_NOZSEL : Nat := 0x08050018
def F.NZM_NOZSEL_NOZZLE : Fld := ⟨R.NZM_NOZSEL, 0, 18⟩
def R.NZM_NOZINFO : Nat := 0x0805001C
def F.NZM_NOZINFO_STATE : Fld := ⟨R.NZM_NOZINFO, 16, 2⟩
def F.NZM_NOZINFO_ACTIVE : Fld := ⟨R.NZM_NOZINFO, 8, 6⟩
def F.NZM_NOZINFO_NEXT : Fld := ⟨R.NZM_NOZINFO, 0, 6⟩
def R.NZM_DECLIGN : Nat := 0x08050020
def F.NZM_DECLIGN_COUNT : Fld := ⟨R.NZM_DECLIGN, 0, 32⟩
def R.NZM_IRQ_STAT : Nat := 0x08050024
def F.NZM_IRQ_STAT_RESTORED : Fld := ⟨R.NZM_IRQ_STAT, 4, 1⟩
def F.NZM_IRQ_STAT_ECC : Fld := ⟨R.NZM_IRQ_STAT, 3, 1⟩
def F.NZM_IRQ_STAT_LOST : Fld := ⟨R.NZM_IRQ_STAT, 2, 1⟩
def F.NZM_IRQ_STAT_MAXOUT : Fld := ⟨R.NZM_IRQ_STAT, 1, 1⟩
def F.NZM_IRQ_STAT_OUT : Fld := ⟨R.NZM_IRQ_STAT, 0, 1⟩
def R.NZM_IRQ_EN : Nat := 0x08050028
def F.NZM_IRQ_EN_RESTORED : Fld := ⟨R.NZM_IRQ_EN, 4, 1⟩
def F.NZM_IRQ_EN_ECC : Fld := ⟨R.NZM_IRQ_EN, 3, 1⟩
def F.NZM_IRQ_EN_LOST : Fld := ⟨R.NZM_IRQ_EN, 2, 1⟩
def F.NZM_IRQ_EN_MAXOUT : Fld := ⟨R.NZM_IRQ_EN, 1, 1⟩
def F.NZM_IRQ_EN_OUT : Fld := ⟨R.NZM_IRQ_EN, 0, 1⟩
def R.NZM_ROW_COMP (r : Nat) : Nat := 0x08050100 + 0x4 * r
def F.NZM_ROW_COMP_EN (r : Nat) : Fld := ⟨(R.NZM_ROW_COMP r), 16, 1⟩
def F.NZM_ROW_COMP_CG1 (r : Nat) : Fld := ⟨(R.NZM_ROW_COMP r), 8, 8⟩
def F.NZM_ROW_COMP_CG2 (r : Nat) : Fld := ⟨(R.NZM_ROW_COMP r), 0, 8⟩
def R.NZM_HEAD_CFG (h : Nat) : Nat := 0x08050200 + 0x8 * h
def F.NZM_HEAD_CFG_TT (h : Nat) : Fld := ⟨(R.NZM_HEAD_CFG h), 0, 6⟩
def R.NZM_HEAD_STAT (h : Nat) : Nat := 0x08050204 + 0x8 * h
def F.NZM_HEAD_STAT_DISCNT (h : Nat) : Fld := ⟨(R.NZM_HEAD_STAT h), 16, 16⟩
def F.NZM_HEAD_STAT_OUTCNT (h : Nat) : Fld := ⟨(R.NZM_HEAD_STAT h), 0, 16⟩
def R.NZM_HG_STEPSEQ (n : Nat) : Nat := 0x08050400 + 0x10 * n
def F.NZM_HG_STEPSEQ_SEQ (n : Nat) : Fld := ⟨(R.NZM_HG_STEPSEQ n), 0, 32⟩
def R.NZM_HG_COMPCNT (n : Nat) : Nat := 0x08050404 + 0x10 * n
def F.NZM_HG_COMPCNT_COUNT (n : Nat) : Fld := ⟨(R.NZM_HG_COMPCNT n), 0, 32⟩
def R.NZM_HG_LOST (n : Nat) : Nat := 0x08050408 + 0x10 * n
def F.NZM_HG_LOST_COUNT (n : Nat) : Fld := ⟨(R.NZM_HG_LOST n), 0, 32⟩
def R.NZM_HG_FLAGS (n : Nat) : Nat := 0x0805040C + 0x10 * n
def F.NZM_HG_FLAGS_READY (n : Nat) : Fld := ⟨(R.NZM_HG_FLAGS n), 1, 1⟩
def F.NZM_HG_FLAGS_DEGRADE (n : Nat) : Fld := ⟨(R.NZM_HG_FLAGS n), 0, 1⟩
def R.NZM_TT_W (t k : Nat) : Nat := 0x08058000 + 0x200 * t + 0x4 * k
def F.NZM_TT_W_ODD (t k : Nat) : Fld := ⟨(R.NZM_TT_W t k), 16, 16⟩
def F.NZM_TT_W_EVEN (t k : Nat) : Fld := ⟨(R.NZM_TT_W t k), 0, 16⟩
def R.CAL_CFG : Nat := 0x08060010
def F.CAL_CFG_RESTORE : Fld := ⟨R.CAL_CFG, 30, 2⟩
def F.CAL_CFG_DEADBAND : Fld := ⟨R.CAL_CFG, 24, 4⟩
def F.CAL_CFG_GAIN : Fld := ⟨R.CAL_CFG, 16, 8⟩
def F.CAL_CFG_STEP : Fld := ⟨R.CAL_CFG, 8, 4⟩
def F.CAL_CFG_STEPPT : Fld := ⟨R.CAL_CFG, 4, 1⟩
def F.CAL_CFG_MODE : Fld := ⟨R.CAL_CFG, 0, 2⟩
def R.CAL_TSBASE : Nat := 0x08060014
def F.CAL_TSBASE_MIB : Fld := ⟨R.CAL_TSBASE, 0, 32⟩
def R.CAL_TSSIZE : Nat := 0x08060018
def F.CAL_TSSIZE_MIB : Fld := ⟨R.CAL_TSSIZE, 0, 32⟩
def R.CAL_WORKBASE : Nat := 0x0806001C
def F.CAL_WORKBASE_MIB : Fld := ⟨R.CAL_WORKBASE, 0, 32⟩
def R.CAL_RESTORE : Nat := 0x08060020
def F.CAL_RESTORE_MAXDELAY : Fld := ⟨R.CAL_RESTORE, 16, 16⟩
def F.CAL_RESTORE_DELAY : Fld := ⟨R.CAL_RESTORE, 0, 16⟩
def R.CAL_PB4 : Nat := 0x08060024
def F.CAL_PB4_GAP : Fld := ⟨R.CAL_PB4, 16, 16⟩
def F.CAL_PB4_DELTA : Fld := ⟨R.CAL_PB4, 0, 16⟩
def R.CAL_HOLD : Nat := 0x08060028
def F.CAL_HOLD_HOLD : Fld := ⟨R.CAL_HOLD, 0, 1⟩
def R.CAL_STAT : Nat := 0x0806002C
def F.CAL_STAT_SETTLING : Fld := ⟨R.CAL_STAT, 16, 16⟩
def F.CAL_STAT_STATE : Fld := ⟨R.CAL_STAT, 0, 3⟩
def R.CAL_UPDCNT : Nat := 0x08060030
def F.CAL_UPDCNT_COUNT : Fld := ⟨R.CAL_UPDCNT, 0, 32⟩
def R.CAL_DISCCNT : Nat := 0x08060034
def F.CAL_DISCCNT_COUNT : Fld := ⟨R.CAL_DISCCNT, 0, 32⟩
def R.CAL_PB4REQLO : Nat := 0x08060038
def F.CAL_PB4REQLO_HEADS : Fld := ⟨R.CAL_PB4REQLO, 0, 32⟩
def R.CAL_PB4REQHI : Nat := 0x0806003C
def F.CAL_PB4REQHI_HEADS : Fld := ⟨R.CAL_PB4REQHI, 0, 32⟩
def R.CAL_PB4LAST : Nat := 0x08060040
def F.CAL_PB4LAST_TIME : Fld := ⟨R.CAL_PB4LAST, 0, 32⟩
def R.CAL_IRQ_STAT : Nat := 0x08060044
def F.CAL_IRQ_STAT_PB4FAIL : Fld := ⟨R.CAL_IRQ_STAT, 4, 1⟩
def F.CAL_IRQ_STAT_ECC : Fld := ⟨R.CAL_IRQ_STAT, 3, 1⟩
def F.CAL_IRQ_STAT_SAT : Fld := ⟨R.CAL_IRQ_STAT, 2, 1⟩
def F.CAL_IRQ_STAT_TEMPSTALE : Fld := ⟨R.CAL_IRQ_STAT, 1, 1⟩
def F.CAL_IRQ_STAT_PB4DONE : Fld := ⟨R.CAL_IRQ_STAT, 0, 1⟩
def R.CAL_IRQ_EN : Nat := 0x08060048
def F.CAL_IRQ_EN_PB4FAIL : Fld := ⟨R.CAL_IRQ_EN, 4, 1⟩
def F.CAL_IRQ_EN_ECC : Fld := ⟨R.CAL_IRQ_EN, 3, 1⟩
def F.CAL_IRQ_EN_SAT : Fld := ⟨R.CAL_IRQ_EN, 2, 1⟩
def F.CAL_IRQ_EN_TEMPSTALE : Fld := ⟨R.CAL_IRQ_EN, 1, 1⟩
def F.CAL_IRQ_EN_PB4DONE : Fld := ⟨R.CAL_IRQ_EN, 0, 1⟩
def R.CAL_HEAD_TREF (h : Nat) : Nat := 0x08060100 + 0x4 * h
def F.CAL_HEAD_TREF_TEMP (h : Nat) : Fld := ⟨(R.CAL_HEAD_TREF h), 0, 16⟩
def R.POS_IRQ_STAT : Nat := 0x08070010
def F.POS_IRQ_STAT_EMULOST : Fld := ⟨R.POS_IRQ_STAT, 7, 1⟩
def F.POS_IRQ_STAT_REJ : Fld := ⟨R.POS_IRQ_STAT, 6, 1⟩
def F.POS_IRQ_STAT_QERR : Fld := ⟨R.POS_IRQ_STAT, 5, 1⟩
def F.POS_IRQ_STAT_ZIDX : Fld := ⟨R.POS_IRQ_STAT, 4, 1⟩
def F.POS_IRQ_STAT_PGOVF : Fld := ⟨R.POS_IRQ_STAT, 3, 1⟩
def F.POS_IRQ_STAT_CMP : Fld := ⟨R.POS_IRQ_STAT, 2, 1⟩
def F.POS_IRQ_STAT_STILL : Fld := ⟨R.POS_IRQ_STAT, 1, 1⟩
def F.POS_IRQ_STAT_DIR : Fld := ⟨R.POS_IRQ_STAT, 0, 1⟩
def R.POS_IRQ_EN : Nat := 0x08070014
def F.POS_IRQ_EN_EMULOST : Fld := ⟨R.POS_IRQ_EN, 7, 1⟩
def F.POS_IRQ_EN_REJ : Fld := ⟨R.POS_IRQ_EN, 6, 1⟩
def F.POS_IRQ_EN_QERR : Fld := ⟨R.POS_IRQ_EN, 5, 1⟩
def F.POS_IRQ_EN_ZIDX : Fld := ⟨R.POS_IRQ_EN, 4, 1⟩
def F.POS_IRQ_EN_PGOVF : Fld := ⟨R.POS_IRQ_EN, 3, 1⟩
def F.POS_IRQ_EN_CMP : Fld := ⟨R.POS_IRQ_EN, 2, 1⟩
def F.POS_IRQ_EN_STILL : Fld := ⟨R.POS_IRQ_EN, 1, 1⟩
def F.POS_IRQ_EN_DIR : Fld := ⟨R.POS_IRQ_EN, 0, 1⟩
def R.POS_ENC_CFG (e : Nat) : Nat := 0x08070100 + 0x40 * e
def F.POS_ENC_CFG_ENABLE (e : Nat) : Fld := ⟨(R.POS_ENC_CFG e), 31, 1⟩
def F.POS_ENC_CFG_MODE (e : Nat) : Fld := ⟨(R.POS_ENC_CFG e), 26, 2⟩
def F.POS_ENC_CFG_INV (e : Nat) : Fld := ⟨(R.POS_ENC_CFG e), 25, 1⟩
def F.POS_ENC_CFG_ZEN (e : Nat) : Fld := ⟨(R.POS_ENC_CFG e), 24, 1⟩
def F.POS_ENC_CFG_FILTER (e : Nat) : Fld := ⟨(R.POS_ENC_CFG e), 16, 8⟩
def F.POS_ENC_CFG_HYST (e : Nat) : Fld := ⟨(R.POS_ENC_CFG e), 8, 8⟩
def R.POS_ENC_SCALELO (e : Nat) : Nat := 0x08070104 + 0x40 * e
def F.POS_ENC_SCALELO_VALUE (e : Nat) : Fld := ⟨(R.POS_ENC_SCALELO e), 0, 32⟩
def R.POS_ENC_SCALEHI (e : Nat) : Nat := 0x08070108 + 0x40 * e
def F.POS_ENC_SCALEHI_VALUE (e : Nat) : Fld := ⟨(R.POS_ENC_SCALEHI e), 0, 32⟩
def R.POS_ENC_SPD (e : Nat) : Nat := 0x0807010C + 0x40 * e
def F.POS_ENC_SPD_WIN (e : Nat) : Fld := ⟨(R.POS_ENC_SPD e), 16, 16⟩
def F.POS_ENC_SPD_STILL (e : Nat) : Fld := ⟨(R.POS_ENC_SPD e), 0, 8⟩
def R.POS_ENC_COUNTLO (e : Nat) : Nat := 0x08070110 + 0x40 * e
def F.POS_ENC_COUNTLO_RAW (e : Nat) : Fld := ⟨(R.POS_ENC_COUNTLO e), 0, 32⟩
def R.POS_ENC_COUNTHI (e : Nat) : Nat := 0x08070114 + 0x40 * e
def F.POS_ENC_COUNTHI_RAW (e : Nat) : Fld := ⟨(R.POS_ENC_COUNTHI e), 0, 32⟩
def R.POS_ENC_POSLO (e : Nat) : Nat := 0x08070118 + 0x40 * e
def F.POS_ENC_POSLO_P (e : Nat) : Fld := ⟨(R.POS_ENC_POSLO e), 0, 32⟩
def R.POS_ENC_POSHI (e : Nat) : Nat := 0x0807011C + 0x40 * e
def F.POS_ENC_POSHI_P (e : Nat) : Fld := ⟨(R.POS_ENC_POSHI e), 0, 32⟩
def R.POS_ENC_HWMLO (e : Nat) : Nat := 0x08070120 + 0x40 * e
def F.POS_ENC_HWMLO_H (e : Nat) : Fld := ⟨(R.POS_ENC_HWMLO e), 0, 32⟩
def R.POS_ENC_HWMHI (e : Nat) : Nat := 0x08070124 + 0x40 * e
def F.POS_ENC_HWMHI_H (e : Nat) : Fld := ⟨(R.POS_ENC_HWMHI e), 0, 32⟩
def R.POS_ENC_SPEED (e : Nat) : Nat := 0x08070128 + 0x40 * e
def F.POS_ENC_SPEED_SPEED (e : Nat) : Fld := ⟨(R.POS_ENC_SPEED e), 0, 32⟩
def R.POS_ENC_STAT (e : Nat) : Nat := 0x0807012C + 0x40 * e
def F.POS_ENC_STAT_QERR (e : Nat) : Fld := ⟨(R.POS_ENC_STAT e), 16, 16⟩
def F.POS_ENC_STAT_LOW_CONF (e : Nat) : Fld := ⟨(R.POS_ENC_STAT e), 3, 1⟩
def F.POS_ENC_STAT_STILL (e : Nat) : Fld := ⟨(R.POS_ENC_STAT e), 2, 1⟩
def F.POS_ENC_STAT_DIR (e : Nat) : Fld := ⟨(R.POS_ENC_STAT e), 1, 1⟩
def R.POS_ENC_ZLATLO (e : Nat) : Nat := 0x08070130 + 0x40 * e
def F.POS_ENC_ZLATLO_RAW (e : Nat) : Fld := ⟨(R.POS_ENC_ZLATLO e), 0, 32⟩
def R.POS_ENC_ZLATHI (e : Nat) : Nat := 0x08070134 + 0x40 * e
def F.POS_ENC_ZLATHI_RAW (e : Nat) : Fld := ⟨(R.POS_ENC_ZLATHI e), 0, 32⟩
def R.POS_ZONE_CFG (z : Nat) : Nat := 0x08070200 + 0x10 * z
def F.POS_ZONE_CFG_REJMASK (z : Nat) : Fld := ⟨(R.POS_ZONE_CFG z), 20, 4⟩
def F.POS_ZONE_CFG_REJOUT (z : Nat) : Fld := ⟨(R.POS_ZONE_CFG z), 8, 2⟩
def F.POS_ZONE_CFG_ENC (z : Nat) : Fld := ⟨(R.POS_ZONE_CFG z), 0, 2⟩
def R.POS_ZONE_REJDIST (z : Nat) : Nat := 0x08070204 + 0x10 * z
def F.POS_ZONE_REJDIST_DIST (z : Nat) : Fld := ⟨(R.POS_ZONE_REJDIST z), 0, 31⟩
def R.POS_ZONE_POSLO (z : Nat) : Nat := 0x08070208 + 0x10 * z
def F.POS_ZONE_POSLO_POS (z : Nat) : Fld := ⟨(R.POS_ZONE_POSLO z), 0, 32⟩
def R.POS_ZONE_POSHI (z : Nat) : Nat := 0x0807020C + 0x10 * z
def F.POS_ZONE_POSHI_POS (z : Nat) : Fld := ⟨(R.POS_ZONE_POSHI z), 0, 32⟩
def R.POS_PG_CFG (i : Nat) : Nat := 0x08070300 + 0x10 * i
def F.POS_PG_CFG_ENABLE (i : Nat) : Fld := ⟨(R.POS_PG_CFG i), 31, 1⟩
def F.POS_PG_CFG_EDGE (i : Nat) : Fld := ⟨(R.POS_PG_CFG i), 29, 2⟩
def F.POS_PG_CFG_LENC (i : Nat) : Fld := ⟨(R.POS_PG_CFG i), 16, 2⟩
def F.POS_PG_CFG_FILTER (i : Nat) : Fld := ⟨(R.POS_PG_CFG i), 0, 16⟩
def R.POS_PG_DIST (i : Nat) : Nat := 0x08070304 + 0x10 * i
def F.POS_PG_DIST_SUBLINES (i : Nat) : Fld := ⟨(R.POS_PG_DIST i), 0, 31⟩
def R.POS_PG_LOCKOUT (i : Nat) : Nat := 0x08070308 + 0x10 * i
def F.POS_PG_LOCKOUT_SUBLINES (i : Nat) : Fld := ⟨(R.POS_PG_LOCKOUT i), 0, 31⟩
def R.POS_PG_STAT (i : Nat) : Nat := 0x0807030C + 0x10 * i
def F.POS_PG_STAT_OVF (i : Nat) : Fld := ⟨(R.POS_PG_STAT i), 24, 8⟩
def F.POS_PG_STAT_LOCKED (i : Nat) : Fld := ⟨(R.POS_PG_STAT i), 16, 8⟩
def F.POS_PG_STAT_EDGES (i : Nat) : Fld := ⟨(R.POS_PG_STAT i), 0, 16⟩
def R.POS_CMP_CFG (c : Nat) : Nat := 0x08070400 + 0x20 * c
def F.POS_CMP_CFG_FEATURE (c : Nat) : Fld := ⟨(R.POS_CMP_CFG c), 16, 16⟩
def F.POS_CMP_CFG_ZONE (c : Nat) : Fld := ⟨(R.POS_CMP_CFG c), 8, 4⟩
def F.POS_CMP_CFG_ACTION (c : Nat) : Fld := ⟨(R.POS_CMP_CFG c), 4, 2⟩
def R.POS_CMP_POSLO (c : Nat) : Nat := 0x08070404 + 0x20 * c
def F.POS_CMP_POSLO_POS (c : Nat) : Fld := ⟨(R.POS_CMP_POSLO c), 0, 32⟩
def R.POS_CMP_POSHI (c : Nat) : Nat := 0x08070408 + 0x20 * c
def F.POS_CMP_POSHI_POS (c : Nat) : Fld := ⟨(R.POS_CMP_POSHI c), 0, 32⟩
def R.POS_CMP_PERIOD (c : Nat) : Nat := 0x0807040C + 0x20 * c
def F.POS_CMP_PERIOD_VALUE (c : Nat) : Fld := ⟨(R.POS_CMP_PERIOD c), 0, 32⟩
def R.POS_CMP_WIDTH (c : Nat) : Nat := 0x08070410 + 0x20 * c
def F.POS_CMP_WIDTH_VALUE (c : Nat) : Fld := ⟨(R.POS_CMP_WIDTH c), 0, 32⟩
def R.POS_CMP_ARM (c : Nat) : Nat := 0x08070414 + 0x20 * c
def F.POS_CMP_ARM_DISARM (c : Nat) : Fld := ⟨(R.POS_CMP_ARM c), 2, 1⟩
def F.POS_CMP_ARM_LATE_OK (c : Nat) : Fld := ⟨(R.POS_CMP_ARM c), 1, 1⟩
def F.POS_CMP_ARM_ARM (c : Nat) : Fld := ⟨(R.POS_CMP_ARM c), 0, 1⟩
def R.POS_CMP_STAT (c : Nat) : Nat := 0x08070418 + 0x20 * c
def F.POS_CMP_STAT_MISSCNT (c : Nat) : Fld := ⟨(R.POS_CMP_STAT c), 16, 16⟩
def F.POS_CMP_STAT_LATE (c : Nat) : Fld := ⟨(R.POS_CMP_STAT c), 2, 1⟩
def F.POS_CMP_STAT_MATCHED (c : Nat) : Fld := ⟨(R.POS_CMP_STAT c), 1, 1⟩
def F.POS_CMP_STAT_ARMED (c : Nat) : Fld := ⟨(R.POS_CMP_STAT c), 0, 1⟩
def R.POS_REJ_CFG (o : Nat) : Nat := 0x08070500 + 0x10 * o
def F.POS_REJ_CFG_WIDTH (o : Nat) : Fld := ⟨(R.POS_REJ_CFG o), 16, 16⟩
def F.POS_REJ_CFG_MINTIME (o : Nat) : Fld := ⟨(R.POS_REJ_CFG o), 0, 16⟩
def R.POS_REJ_STAT (o : Nat) : Nat := 0x08070504 + 0x10 * o
def F.POS_REJ_STAT_LATECNT (o : Nat) : Fld := ⟨(R.POS_REJ_STAT o), 20, 12⟩
def F.POS_REJ_STAT_HELD (o : Nat) : Fld := ⟨(R.POS_REJ_STAT o), 19, 1⟩
def F.POS_REJ_STAT_PENDING (o : Nat) : Fld := ⟨(R.POS_REJ_STAT o), 0, 9⟩
def R.POS_REJ_COUNT (o : Nat) : Nat := 0x08070508 + 0x10 * o
def F.POS_REJ_COUNT_COUNT (o : Nat) : Fld := ⟨(R.POS_REJ_COUNT o), 0, 32⟩
def R.POS_EMU_CFG (k : Nat) : Nat := 0x08070600 + 0x20 * k
def F.POS_EMU_CFG_ENABLE (k : Nat) : Fld := ⟨(R.POS_EMU_CFG k), 31, 1⟩
def F.POS_EMU_CFG_FOLLOW (k : Nat) : Fld := ⟨(R.POS_EMU_CFG k), 30, 1⟩
def F.POS_EMU_CFG_SRC (k : Nat) : Fld := ⟨(R.POS_EMU_CFG k), 24, 2⟩
def F.POS_EMU_CFG_MINSEP (k : Nat) : Fld := ⟨(R.POS_EMU_CFG k), 16, 8⟩
def R.POS_EMU_RATIOLO (k : Nat) : Nat := 0x08070604 + 0x20 * k
def F.POS_EMU_RATIOLO_VALUE (k : Nat) : Fld := ⟨(R.POS_EMU_RATIOLO k), 0, 32⟩
def R.POS_EMU_RATIOHI (k : Nat) : Nat := 0x08070608 + 0x20 * k
def F.POS_EMU_RATIOHI_VALUE (k : Nat) : Fld := ⟨(R.POS_EMU_RATIOHI k), 0, 32⟩
def R.POS_EMU_ZPER (k : Nat) : Nat := 0x0807060C + 0x20 * k
def F.POS_EMU_ZPER_COUNTS (k : Nat) : Fld := ⟨(R.POS_EMU_ZPER k), 0, 32⟩
def R.POS_EMU_STAT (k : Nat) : Nat := 0x08070610 + 0x20 * k
def F.POS_EMU_STAT_LOST (k : Nat) : Fld := ⟨(R.POS_EMU_STAT k), 16, 16⟩
def F.POS_EMU_STAT_BACKLOG (k : Nat) : Fld := ⟨(R.POS_EMU_STAT k), 0, 16⟩
def R.POS_EMU_COUNT (k : Nat) : Nat := 0x08070614 + 0x20 * k
def F.POS_EMU_COUNT_COUNT (k : Nat) : Fld := ⟨(R.POS_EMU_COUNT k), 0, 32⟩
def R.FIR_IRQ_STAT : Nat := 0x08080010
def F.FIR_IRQ_STAT_RECDROP : Fld := ⟨R.FIR_IRQ_STAT, 4, 1⟩
def F.FIR_IRQ_STAT_PANECC : Fld := ⟨R.FIR_IRQ_STAT, 3, 1⟩
def F.FIR_IRQ_STAT_HANDOVER : Fld := ⟨R.FIR_IRQ_STAT, 2, 1⟩
def F.FIR_IRQ_STAT_SQUEEZE : Fld := ⟨R.FIR_IRQ_STAT, 1, 1⟩
def F.FIR_IRQ_STAT_SLIP : Fld := ⟨R.FIR_IRQ_STAT, 0, 1⟩
def R.FIR_IRQ_EN : Nat := 0x08080014
def F.FIR_IRQ_EN_RECDROP : Fld := ⟨R.FIR_IRQ_EN, 4, 1⟩
def F.FIR_IRQ_EN_PANECC : Fld := ⟨R.FIR_IRQ_EN, 3, 1⟩
def F.FIR_IRQ_EN_HANDOVER : Fld := ⟨R.FIR_IRQ_EN, 2, 1⟩
def F.FIR_IRQ_EN_SQUEEZE : Fld := ⟨R.FIR_IRQ_EN, 1, 1⟩
def F.FIR_IRQ_EN_SLIP : Fld := ⟨R.FIR_IRQ_EN, 0, 1⟩
def R.FIR_RECDROP : Nat := 0x08080018
def F.FIR_RECDROP_COUNT : Fld := ⟨R.FIR_RECDROP, 0, 32⟩
def R.FIR_STATCLR : Nat := 0x0808001C
def F.FIR_STATCLR_REC : Fld := ⟨R.FIR_STATCLR, 8, 1⟩
def F.FIR_STATCLR_HG : Fld := ⟨R.FIR_STATCLR, 0, 8⟩
def R.FIR_HG_CFG (n : Nat) : Nat := 0x08080800 + 0x100 * n
def F.FIR_HG_CFG_MINGAP (n : Nat) : Fld := ⟨(R.FIR_HG_CFG n), 16, 16⟩
def F.FIR_HG_CFG_MERGE (n : Nat) : Fld := ⟨(R.FIR_HG_CFG n), 8, 6⟩
def F.FIR_HG_CFG_HIWM (n : Nat) : Fld := ⟨(R.FIR_HG_CFG n), 0, 7⟩
def R.FIR_HG_SLIP (n : Nat) : Nat := 0x08080804 + 0x100 * n
def F.FIR_HG_SLIP_MAXSLIP (n : Nat) : Fld := ⟨(R.FIR_HG_SLIP n), 0, 16⟩
def R.FIR_HG_COMMIT (n : Nat) : Nat := 0x08080808 + 0x100 * n
def F.FIR_HG_COMMIT_COMMIT (n : Nat) : Fld := ⟨(R.FIR_HG_COMMIT n), 0, 1⟩
def R.FIR_HG_ACTIVE_SEQ (n : Nat) : Nat := 0x0808080C + 0x100 * n
def F.FIR_HG_ACTIVE_SEQ_SEQ (n : Nat) : Fld := ⟨(R.FIR_HG_ACTIVE_SEQ n), 0, 32⟩
def R.FIR_HG_FIRESEQ (n : Nat) : Nat := 0x08080810 + 0x100 * n
def F.FIR_HG_FIRESEQ_SEQ (n : Nat) : Fld := ⟨(R.FIR_HG_FIRESEQ n), 0, 32⟩
def R.FIR_HG_STAT (n : Nat) : Nat := 0x08080814 + 0x100 * n
def F.FIR_HG_STAT_IDLESAFE (n : Nat) : Fld := ⟨(R.FIR_HG_STAT n), 9, 1⟩
def F.FIR_HG_STAT_ARMED (n : Nat) : Fld := ⟨(R.FIR_HG_STAT n), 8, 1⟩
def F.FIR_HG_STAT_LEVEL (n : Nat) : Fld := ⟨(R.FIR_HG_STAT n), 0, 7⟩
def R.FIR_HG_SQUEEZE (n : Nat) : Nat := 0x08080818 + 0x100 * n
def F.FIR_HG_SQUEEZE_VALUE (n : Nat) : Fld := ⟨(R.FIR_HG_SQUEEZE n), 0, 32⟩
def R.FIR_HG_MAXLAG (n : Nat) : Nat := 0x0808081C + 0x100 * n
def F.FIR_HG_MAXLAG_VALUE (n : Nat) : Fld := ⟨(R.FIR_HG_MAXLAG n), 0, 32⟩
def R.FIR_HG_EVENTS (n : Nat) : Nat := 0x08080820 + 0x100 * n
def F.FIR_HG_EVENTS_VALUE (n : Nat) : Fld := ⟨(R.FIR_HG_EVENTS n), 0, 32⟩
def R.FIR_HG_HEAD_TRIM (n j : Nat) : Nat := 0x08080840 + 0x100 * n + 0x8 * j
def F.FIR_HG_HEAD_TRIM_TRIM (n j : Nat) : Fld := ⟨(R.FIR_HG_HEAD_TRIM n j), 0, 16⟩
def R.FIR_HG_HEAD_THROW (n j : Nat) : Nat := 0x08080844 + 0x100 * n + 0x8 * j
def F.FIR_HG_HEAD_THROW_THROW (n j : Nat) : Fld := ⟨(R.FIR_HG_HEAD_THROW n j), 0, 16⟩
def R.HLK_EPOCH : Nat := 0x08090010
def F.HLK_EPOCH_ACT : Fld := ⟨R.HLK_EPOCH, 16, 1⟩
def F.HLK_EPOCH_EPOCH : Fld := ⟨R.HLK_EPOCH, 0, 16⟩
def R.HLK_IRQ_STAT : Nat := 0x08090014
def F.HLK_IRQ_STAT_MISMATCH : Fld := ⟨R.HLK_IRQ_STAT, 7, 1⟩
def F.HLK_IRQ_STAT_BOARDFLT : Fld := ⟨R.HLK_IRQ_STAT, 6, 1⟩
def F.HLK_IRQ_STAT_EPOCH : Fld := ⟨R.HLK_IRQ_STAT, 5, 1⟩
def F.HLK_IRQ_STAT_CMD : Fld := ⟨R.HLK_IRQ_STAT, 4, 1⟩
def F.HLK_IRQ_STAT_ERRRATE : Fld := ⟨R.HLK_IRQ_STAT, 3, 1⟩
def F.HLK_IRQ_STAT_DATA : Fld := ⟨R.HLK_IRQ_STAT, 2, 1⟩
def F.HLK_IRQ_STAT_ABSENT : Fld := ⟨R.HLK_IRQ_STAT, 1, 1⟩
def F.HLK_IRQ_STAT_LINK : Fld := ⟨R.HLK_IRQ_STAT, 0, 1⟩
def R.HLK_IRQ_EN : Nat := 0x08090018
def F.HLK_IRQ_EN_MISMATCH : Fld := ⟨R.HLK_IRQ_EN, 7, 1⟩
def F.HLK_IRQ_EN_BOARDFLT : Fld := ⟨R.HLK_IRQ_EN, 6, 1⟩
def F.HLK_IRQ_EN_EPOCH : Fld := ⟨R.HLK_IRQ_EN, 5, 1⟩
def F.HLK_IRQ_EN_CMD : Fld := ⟨R.HLK_IRQ_EN, 4, 1⟩
def F.HLK_IRQ_EN_ERRRATE : Fld := ⟨R.HLK_IRQ_EN, 3, 1⟩
def F.HLK_IRQ_EN_DATA : Fld := ⟨R.HLK_IRQ_EN, 2, 1⟩
def F.HLK_IRQ_EN_ABSENT : Fld := ⟨R.HLK_IRQ_EN, 1, 1⟩
def F.HLK_IRQ_EN_LINK : Fld := ⟨R.HLK_IRQ_EN, 0, 1⟩
def R.HLK_ERRTHR : Nat := 0x0809001C
def F.HLK_ERRTHR_PERSEC : Fld := ⟨R.HLK_ERRTHR, 0, 16⟩
def R.HLK_CMD : Nat := 0x08090020
def F.HLK_CMD_ARG : Fld := ⟨R.HLK_CMD, 16, 16⟩
def F.HLK_CMD_OPC : Fld := ⟨R.HLK_CMD, 12, 4⟩
def F.HLK_CMD_ALL : Fld := ⟨R.HLK_CMD, 11, 1⟩
def F.HLK_CMD_HEAD : Fld := ⟨R.HLK_CMD, 8, 3⟩
def F.HLK_CMD_HG : Fld := ⟨R.HLK_CMD, 4, 3⟩
def R.HLK_CMDGO : Nat := 0x08090024
def F.HLK_CMDGO_GO : Fld := ⟨R.HLK_CMDGO, 0, 1⟩
def R.HLK_CMDSTAT : Nat := 0x08090028
def F.HLK_CMDSTAT_ARG : Fld := ⟨R.HLK_CMDSTAT, 16, 16⟩
def F.HLK_CMDSTAT_STATUS : Fld := ⟨R.HLK_CMDSTAT, 8, 8⟩
def F.HLK_CMDSTAT_STATE : Fld := ⟨R.HLK_CMDSTAT, 0, 2⟩
def R.HLK_HG_CFG (n : Nat) : Nat := 0x08090100 + 0x20 * n
def F.HLK_HG_CFG_ATTEMPTS (n : Nat) : Fld := ⟨(R.HLK_HG_CFG n), 16, 8⟩
def F.HLK_HG_CFG_TRAINWIN (n : Nat) : Fld := ⟨(R.HLK_HG_CFG n), 8, 8⟩
def F.HLK_HG_CFG_POLICY (n : Nat) : Fld := ⟨(R.HLK_HG_CFG n), 0, 1⟩
def R.HLK_HG_STAT (n : Nat) : Nat := 0x08090104 + 0x20 * n
def F.HLK_HG_STAT_MODE (n : Nat) : Fld := ⟨(R.HLK_HG_STAT n), 4, 2⟩
def F.HLK_HG_STAT_UP (n : Nat) : Fld := ⟨(R.HLK_HG_STAT n), 0, 3⟩
def R.HLK_LANE_STAT (l : Nat) : Nat := 0x08090400 + 0x20 * l
def F.HLK_LANE_STAT_STATE (l : Nat) : Fld := ⟨(R.HLK_LANE_STAT l), 28, 4⟩
def F.HLK_LANE_STAT_LASTFAIL (l : Nat) : Fld := ⟨(R.HLK_LANE_STAT l), 24, 4⟩
def F.HLK_LANE_STAT_ATTEMPT (l : Nat) : Fld := ⟨(R.HLK_LANE_STAT l), 16, 8⟩
def F.HLK_LANE_STAT_BUFEV (l : Nat) : Fld := ⟨(R.HLK_LANE_STAT l), 8, 8⟩
def F.HLK_LANE_STAT_HEADS (l : Nat) : Fld := ⟨(R.HLK_LANE_STAT l), 0, 8⟩
def R.HLK_LANE_PEER (l : Nat) : Nat := 0x08090404 + 0x20 * l
def F.HLK_LANE_PEER_EPOCHSEEN (l : Nat) : Fld := ⟨(R.HLK_LANE_PEER l), 16, 16⟩
def F.HLK_LANE_PEER_STALE (l : Nat) : Fld := ⟨(R.HLK_LANE_PEER l), 5, 1⟩
def F.HLK_LANE_PEER_SEL (l : Nat) : Fld := ⟨(R.HLK_LANE_PEER l), 4, 1⟩
def F.HLK_LANE_PEER_STATE (l : Nat) : Fld := ⟨(R.HLK_LANE_PEER l), 0, 4⟩
def R.HLK_LANE_DELAY (l : Nat) : Nat := 0x08090408 + 0x20 * l
def F.HLK_LANE_DELAY_FIXNS (l : Nat) : Fld := ⟨(R.HLK_LANE_DELAY l), 20, 12⟩
def F.HLK_LANE_DELAY_TURNNS (l : Nat) : Fld := ⟨(R.HLK_LANE_DELAY l), 11, 9⟩
def F.HLK_LANE_DELAY_FLIGHT (l : Nat) : Fld := ⟨(R.HLK_LANE_DELAY l), 0, 11⟩
def R.HLK_LANE_ERR (l : Nat) : Nat := 0x0809040C + 0x20 * l
def F.HLK_LANE_ERR_CTLERR (l : Nat) : Fld := ⟨(R.HLK_LANE_ERR l), 16, 16⟩
def F.HLK_LANE_ERR_NAK (l : Nat) : Fld := ⟨(R.HLK_LANE_ERR l), 0, 16⟩
def R.HLK_LANE_CTL (l : Nat) : Nat := 0x08090410 + 0x20 * l
def F.HLK_LANE_CTL_ERRCLR (l : Nat) : Fld := ⟨(R.HLK_LANE_CTL l), 1, 1⟩
def F.HLK_LANE_CTL_RETRAIN (l : Nat) : Fld := ⟨(R.HLK_LANE_CTL l), 0, 1⟩
def R.HLK_HEAD_MAP (h : Nat) : Nat := 0x08090800 + 0x10 * h
def F.HLK_HEAD_MAP_LANES (h : Nat) : Fld := ⟨(R.HLK_HEAD_MAP h), 0, 3⟩
def R.HLK_HEAD_TEMP (h : Nat) : Nat := 0x08090804 + 0x10 * h
def F.HLK_HEAD_TEMP_AGE (h : Nat) : Fld := ⟨(R.HLK_HEAD_TEMP h), 16, 16⟩
def F.HLK_HEAD_TEMP_TEMP (h : Nat) : Fld := ⟨(R.HLK_HEAD_TEMP h), 0, 16⟩
def R.HLK_HEAD_DELAY (h : Nat) : Nat := 0x08090808 + 0x10 * h
def F.HLK_HEAD_DELAY_LINKDELAY (h : Nat) : Fld := ⟨(R.HLK_HEAD_DELAY h), 0, 16⟩
def R.HLK_HEAD_FIRED (h : Nat) : Nat := 0x0809080C + 0x10 * h
def F.HLK_HEAD_FIRED_MISS (h : Nat) : Fld := ⟨(R.HLK_HEAD_FIRED h), 16, 16⟩
def F.HLK_HEAD_FIRED_EVSEQ (h : Nat) : Fld := ⟨(R.HLK_HEAD_FIRED h), 0, 8⟩
def R.SLU_IRQ_STAT : Nat := 0x080A0010
def F.SLU_IRQ_STAT_ECC : Fld := ⟨R.SLU_IRQ_STAT, 6, 1⟩
def F.SLU_IRQ_STAT_ROUNDS : Fld := ⟨R.SLU_IRQ_STAT, 5, 1⟩
def F.SLU_IRQ_STAT_STALE : Fld := ⟨R.SLU_IRQ_STAT, 4, 1⟩
def F.SLU_IRQ_STAT_MARGIN : Fld := ⟨R.SLU_IRQ_STAT, 3, 1⟩
def F.SLU_IRQ_STAT_HARD : Fld := ⟨R.SLU_IRQ_STAT, 2, 1⟩
def F.SLU_IRQ_STAT_LEVEL : Fld := ⟨R.SLU_IRQ_STAT, 1, 1⟩
def F.SLU_IRQ_STAT_THIN : Fld := ⟨R.SLU_IRQ_STAT, 0, 1⟩
def R.SLU_IRQ_EN : Nat := 0x080A0014
def F.SLU_IRQ_EN_ECC : Fld := ⟨R.SLU_IRQ_EN, 6, 1⟩
def F.SLU_IRQ_EN_ROUNDS : Fld := ⟨R.SLU_IRQ_EN, 5, 1⟩
def F.SLU_IRQ_EN_STALE : Fld := ⟨R.SLU_IRQ_EN, 4, 1⟩
def F.SLU_IRQ_EN_MARGIN : Fld := ⟨R.SLU_IRQ_EN, 3, 1⟩
def F.SLU_IRQ_EN_HARD : Fld := ⟨R.SLU_IRQ_EN, 2, 1⟩
def F.SLU_IRQ_EN_LEVEL : Fld := ⟨R.SLU_IRQ_EN, 1, 1⟩
def F.SLU_IRQ_EN_THIN : Fld := ⟨R.SLU_IRQ_EN, 0, 1⟩
def R.SLU_SPD_CFG : Nat := 0x080A0018
def F.SLU_SPD_CFG_ENABLE : Fld := ⟨R.SLU_SPD_CFG, 31, 1⟩
def F.SLU_SPD_CFG_FREQ : Fld := ⟨R.SLU_SPD_CFG, 16, 8⟩
def F.SLU_SPD_CFG_SLEW : Fld := ⟨R.SLU_SPD_CFG, 0, 12⟩
def R.SLU_SPD_DUTY : Nat := 0x080A001C
def F.SLU_SPD_DUTY_FULL : Fld := ⟨R.SLU_SPD_DUTY, 16, 12⟩
def F.SLU_SPD_DUTY_SAFE : Fld := ⟨R.SLU_SPD_DUTY, 0, 12⟩
def R.SLU_SPD_FLOOR : Nat := 0x080A0020
def F.SLU_SPD_FLOOR_FLOOR : Fld := ⟨R.SLU_SPD_FLOOR, 0, 12⟩
def R.SLU_SPD_STAT : Nat := 0x080A0024
def F.SLU_SPD_STAT_DUTY : Fld := ⟨R.SLU_SPD_STAT, 16, 12⟩
def F.SLU_SPD_STAT_SRC : Fld := ⟨R.SLU_SPD_STAT, 4, 8⟩
def F.SLU_SPD_STAT_CAUSE : Fld := ⟨R.SLU_SPD_STAT, 0, 4⟩
def R.SLU_STATCLR : Nat := 0x080A0028
def F.SLU_STATCLR_ZONE : Fld := ⟨R.SLU_STATCLR, 9, 1⟩
def F.SLU_STATCLR_MAXLOAD : Fld := ⟨R.SLU_STATCLR, 8, 1⟩
def F.SLU_STATCLR_HG : Fld := ⟨R.SLU_STATCLR, 0, 8⟩
def R.SLU_HG_W (n k : Nat) : Nat := 0x080A0100 + 0x40 * n + 0x4 * k
def F.SLU_HG_W_BYTES (n k : Nat) : Fld := ⟨(R.SLU_HG_W n k), 0, 32⟩
def R.SLU_HG_STEPDN0 (n : Nat) : Nat := 0x080A0110 + 0x40 * n
def F.SLU_HG_STEPDN0_SEL (n : Nat) : Fld := ⟨(R.SLU_HG_STEPDN0 n), 0, 32⟩
def R.SLU_HG_STEPDN1 (n : Nat) : Nat := 0x080A0114 + 0x40 * n
def F.SLU_HG_STEPDN1_SEL (n : Nat) : Fld := ⟨(R.SLU_HG_STEPDN1 n), 0, 32⟩
def R.SLU_HG_NDUTY (n : Nat) : Nat := 0x080A0118 + 0x40 * n
def F.SLU_HG_NDUTY_NLIM (n : Nat) : Fld := ⟨(R.SLU_HG_NDUTY n), 16, 16⟩
def F.SLU_HG_NDUTY_NSHIFT (n : Nat) : Fld := ⟨(R.SLU_HG_NDUTY n), 0, 4⟩
def R.SLU_HG_HLIM (n : Nat) : Nat := 0x080A011C + 0x40 * n
def F.SLU_HG_HLIM_LIMIT (n : Nat) : Fld := ⟨(R.SLU_HG_HLIM n), 0, 32⟩
def R.SLU_HG_HWIN (n : Nat) : Nat := 0x080A0120 + 0x40 * n
def F.SLU_HG_HWIN_SUBLINES (n : Nat) : Fld := ⟨(R.SLU_HG_HWIN n), 0, 15⟩
def R.SLU_HG_TEMPA (n : Nat) : Nat := 0x080A0124 + 0x40 * n
def F.SLU_HG_TEMPA_HI (n : Nat) : Fld := ⟨(R.SLU_HG_TEMPA n), 16, 16⟩
def F.SLU_HG_TEMPA_LO (n : Nat) : Fld := ⟨(R.SLU_HG_TEMPA n), 0, 16⟩
def R.SLU_HG_TEMPB (n : Nat) : Nat := 0x080A0128 + 0x40 * n
def F.SLU_HG_TEMPB_HI (n : Nat) : Fld := ⟨(R.SLU_HG_TEMPB n), 16, 16⟩
def F.SLU_HG_TEMPB_LO (n : Nat) : Fld := ⟨(R.SLU_HG_TEMPB n), 0, 16⟩
def R.SLU_HG_THERM (n : Nat) : Nat := 0x080A012C + 0x40 * n
def F.SLU_HG_THERM_HOTSCALE (n : Nat) : Fld := ⟨(R.SLU_HG_THERM n), 24, 8⟩
def F.SLU_HG_THERM_THYST (n : Nat) : Fld := ⟨(R.SLU_HG_THERM n), 16, 8⟩
def F.SLU_HG_THERM_STALE (n : Nat) : Fld := ⟨(R.SLU_HG_THERM n), 0, 16⟩
def R.SLU_HG_STAT (n : Nat) : Nat := 0x080A0130 + 0x40 * n
def F.SLU_HG_STAT_HELD (n : Nat) : Fld := ⟨(R.SLU_HG_STAT n), 8, 1⟩
def F.SLU_HG_STAT_LEVEL (n : Nat) : Fld := ⟨(R.SLU_HG_STAT n), 0, 3⟩
def R.SLU_HG_THINEV (n : Nat) : Nat := 0x080A0134 + 0x40 * n
def F.SLU_HG_THINEV_COUNT (n : Nat) : Fld := ⟨(R.SLU_HG_THINEV n), 0, 32⟩
def R.SLU_HG_STEPS (n : Nat) : Nat := 0x080A0138 + 0x40 * n
def F.SLU_HG_STEPS_COUNT (n : Nat) : Fld := ⟨(R.SLU_HG_STEPS n), 0, 32⟩
def R.SLU_HG_ROUNDS (n : Nat) : Nat := 0x080A013C + 0x40 * n
def F.SLU_HG_ROUNDS_COUNT (n : Nat) : Fld := ⟨(R.SLU_HG_ROUNDS n), 0, 32⟩
def R.SLU_HG_HARDCNT (n : Nat) : Nat := 0x080A0300 + 0x4 * n
def F.SLU_HG_HARDCNT_COUNT (n : Nat) : Fld := ⟨(R.SLU_HG_HARDCNT n), 0, 32⟩
def R.SLU_HEAD_STAT (h : Nat) : Nat := 0x080A0400 + 0x4 * h
def F.SLU_HEAD_STAT_LOAD (h : Nat) : Fld := ⟨(R.SLU_HEAD_STAT h), 24, 8⟩
def F.SLU_HEAD_STAT_MAXLOAD (h : Nat) : Fld := ⟨(R.SLU_HEAD_STAT h), 16, 8⟩
def F.SLU_HEAD_STAT_STALE (h : Nat) : Fld := ⟨(R.SLU_HEAD_STAT h), 3, 1⟩
def F.SLU_HEAD_STAT_LEVEL (h : Nat) : Fld := ⟨(R.SLU_HEAD_STAT h), 0, 3⟩
def R.SLU_ZONE_CFG (z : Nat) : Nat := 0x080A0600 + 0x10 * z
def F.SLU_ZONE_CFG_SPDEN (z : Nat) : Fld := ⟨(R.SLU_ZONE_CFG z), 31, 1⟩
def F.SLU_ZONE_CFG_THRESH (z : Nat) : Fld := ⟨(R.SLU_ZONE_CFG z), 0, 24⟩
def R.SLU_ZONE_MARGIN (z : Nat) : Nat := 0x080A0604 + 0x10 * z
def F.SLU_ZONE_MARGIN_FULL (z : Nat) : Fld := ⟨(R.SLU_ZONE_MARGIN z), 31, 1⟩
def F.SLU_ZONE_MARGIN_LINES (z : Nat) : Fld := ⟨(R.SLU_ZONE_MARGIN z), 0, 24⟩
def R.SLU_ZONE_LATECNT (z : Nat) : Nat := 0x080A0608 + 0x10 * z
def F.SLU_ZONE_LATECNT_LATEDATA (z : Nat) : Fld := ⟨(R.SLU_ZONE_LATECNT z), 16, 16⟩
def F.SLU_ZONE_LATECNT_LOW (z : Nat) : Fld := ⟨(R.SLU_ZONE_LATECNT z), 0, 16⟩
def R.CAM_IRQ_STAT : Nat := 0x080B0010
def F.CAM_IRQ_STAT_LATE : Fld := ⟨R.CAM_IRQ_STAT, 7, 1⟩
def F.CAM_IRQ_STAT_FDFULL : Fld := ⟨R.CAM_IRQ_STAT, 6, 1⟩
def F.CAM_IRQ_STAT_TRGSKIP : Fld := ⟨R.CAM_IRQ_STAT, 5, 1⟩
def F.CAM_IRQ_STAT_LINK : Fld := ⟨R.CAM_IRQ_STAT, 4, 1⟩
def F.CAM_IRQ_STAT_SHAPE : Fld := ⟨R.CAM_IRQ_STAT, 3, 1⟩
def F.CAM_IRQ_STAT_CRC : Fld := ⟨R.CAM_IRQ_STAT, 2, 1⟩
def F.CAM_IRQ_STAT_DROP : Fld := ⟨R.CAM_IRQ_STAT, 1, 1⟩
def F.CAM_IRQ_STAT_FRAME : Fld := ⟨R.CAM_IRQ_STAT, 0, 1⟩
def R.CAM_IRQ_EN : Nat := 0x080B0014
def F.CAM_IRQ_EN_LATE : Fld := ⟨R.CAM_IRQ_EN, 7, 1⟩
def F.CAM_IRQ_EN_FDFULL : Fld := ⟨R.CAM_IRQ_EN, 6, 1⟩
def F.CAM_IRQ_EN_TRGSKIP : Fld := ⟨R.CAM_IRQ_EN, 5, 1⟩
def F.CAM_IRQ_EN_LINK : Fld := ⟨R.CAM_IRQ_EN, 4, 1⟩
def F.CAM_IRQ_EN_SHAPE : Fld := ⟨R.CAM_IRQ_EN, 3, 1⟩
def F.CAM_IRQ_EN_CRC : Fld := ⟨R.CAM_IRQ_EN, 2, 1⟩
def F.CAM_IRQ_EN_DROP : Fld := ⟨R.CAM_IRQ_EN, 1, 1⟩
def F.CAM_IRQ_EN_FRAME : Fld := ⟨R.CAM_IRQ_EN, 0, 1⟩
def R.CAM_FDBASELO : Nat := 0x080B0018
def F.CAM_FDBASELO_ADDR : Fld := ⟨R.CAM_FDBASELO, 0, 32⟩
def R.CAM_FDBASEHI : Nat := 0x080B001C
def F.CAM_FDBASEHI_ADDR : Fld := ⟨R.CAM_FDBASEHI, 0, 32⟩
def R.CAM_FDSIZE : Nat := 0x080B0020
def F.CAM_FDSIZE_ENTRIES : Fld := ⟨R.CAM_FDSIZE, 0, 17⟩
def R.CAM_FDWR : Nat := 0x080B0024
def F.CAM_FDWR_COUNT : Fld := ⟨R.CAM_FDWR, 0, 32⟩
def R.CAM_FDRD : Nat := 0x080B0028
def F.CAM_FDRD_COUNT : Fld := ⟨R.CAM_FDRD, 0, 32⟩
def R.CAM_FDLOST : Nat := 0x080B002C
def F.CAM_FDLOST_COUNT : Fld := ⟨R.CAM_FDLOST, 0, 32⟩
def R.CAM_STATCLR : Nat := 0x080B0030
def F.CAM_STATCLR_SRC : Fld := ⟨R.CAM_STATCLR, 16, 16⟩
def F.CAM_STATCLR_FDLOST : Fld := ⟨R.CAM_STATCLR, 8, 1⟩
def F.CAM_STATCLR_TLANE : Fld := ⟨R.CAM_STATCLR, 4, 4⟩
def F.CAM_STATCLR_PORT : Fld := ⟨R.CAM_STATCLR, 0, 4⟩
def R.CAM_PORT_CFG (p : Nat) : Nat := 0x080B0100 + 0x10 * p
def F.CAM_PORT_CFG_ENABLE (p : Nat) : Fld := ⟨(R.CAM_PORT_CFG p), 31, 1⟩
def F.CAM_PORT_CFG_POL (p : Nat) : Fld := ⟨(R.CAM_PORT_CFG p), 16, 4⟩
def F.CAM_PORT_CFG_MAP (p : Nat) : Fld := ⟨(R.CAM_PORT_CFG p), 8, 8⟩
def F.CAM_PORT_CFG_LANES (p : Nat) : Fld := ⟨(R.CAM_PORT_CFG p), 0, 2⟩
def R.CAM_PORT_STAT (p : Nat) : Nat := 0x080B0104 + 0x10 * p
def F.CAM_PORT_STAT_HDRCOR (p : Nat) : Fld := ⟨(R.CAM_PORT_STAT p), 16, 16⟩
def F.CAM_PORT_STAT_DESKEWED (p : Nat) : Fld := ⟨(R.CAM_PORT_STAT p), 2, 1⟩
def F.CAM_PORT_STAT_STATE (p : Nat) : Fld := ⟨(R.CAM_PORT_STAT p), 0, 2⟩
def R.CAM_PORT_ERR (p : Nat) : Nat := 0x080B0108 + 0x10 * p
def F.CAM_PORT_ERR_HDRERR (p : Nat) : Fld := ⟨(R.CAM_PORT_ERR p), 16, 16⟩
def F.CAM_PORT_ERR_UNKNOWN (p : Nat) : Fld := ⟨(R.CAM_PORT_ERR p), 0, 16⟩
def R.CAM_TLANE_STAT (l : Nat) : Nat := 0x080B0180 + 0x10 * l
def F.CAM_TLANE_STAT_STATE (l : Nat) : Fld := ⟨(R.CAM_TLANE_STAT l), 28, 4⟩
def F.CAM_TLANE_STAT_LASTFAIL (l : Nat) : Fld := ⟨(R.CAM_TLANE_STAT l), 24, 4⟩
def F.CAM_TLANE_STAT_FIXNS (l : Nat) : Fld := ⟨(R.CAM_TLANE_STAT l), 0, 12⟩
def R.CAM_TLANE_ERR (l : Nat) : Nat := 0x080B0184 + 0x10 * l
def F.CAM_TLANE_ERR_CTLERR (l : Nat) : Fld := ⟨(R.CAM_TLANE_ERR l), 16, 16⟩
def F.CAM_TLANE_ERR_LCRC (l : Nat) : Fld := ⟨(R.CAM_TLANE_ERR l), 0, 16⟩
def R.CAM_SRC_CFG (s : Nat) : Nat := 0x080B0200 + 0x20 * s
def F.CAM_SRC_CFG_ENABLE (s : Nat) : Fld := ⟨(R.CAM_SRC_CFG s), 31, 1⟩
def F.CAM_SRC_CFG_KIND (s : Nat) : Fld := ⟨(R.CAM_SRC_CFG s), 30, 1⟩
def F.CAM_SRC_CFG_PORT (s : Nat) : Fld := ⟨(R.CAM_SRC_CFG s), 28, 2⟩
def F.CAM_SRC_CFG_VC (s : Nat) : Fld := ⟨(R.CAM_SRC_CFG s), 24, 4⟩
def F.CAM_SRC_CFG_DT (s : Nat) : Fld := ⟨(R.CAM_SRC_CFG s), 18, 6⟩
def F.CAM_SRC_CFG_WEIGHT (s : Nat) : Fld := ⟨(R.CAM_SRC_CFG s), 12, 4⟩
def F.CAM_SRC_CFG_TRG (s : Nat) : Fld := ⟨(R.CAM_SRC_CFG s), 8, 3⟩
def R.CAM_SRC_GEOM (s : Nat) : Nat := 0x080B0204 + 0x20 * s
def F.CAM_SRC_GEOM_LINES (s : Nat) : Fld := ⟨(R.CAM_SRC_GEOM s), 16, 16⟩
def F.CAM_SRC_GEOM_WIDTHM1 (s : Nat) : Fld := ⟨(R.CAM_SRC_GEOM s), 0, 15⟩
def R.CAM_SRC_BUF (s : Nat) : Nat := 0x080B0208 + 0x20 * s
def F.CAM_SRC_BUF_NSEG (s : Nat) : Fld := ⟨(R.CAM_SRC_BUF s), 8, 7⟩
def F.CAM_SRC_BUF_FIRST (s : Nat) : Fld := ⟨(R.CAM_SRC_BUF s), 0, 7⟩
def R.CAM_SRC_FILL (s : Nat) : Nat := 0x080B020C + 0x20 * s
def F.CAM_SRC_FILL_TOUT (s : Nat) : Fld := ⟨(R.CAM_SRC_FILL s), 16, 16⟩
def F.CAM_SRC_FILL_FILL (s : Nat) : Fld := ⟨(R.CAM_SRC_FILL s), 0, 16⟩
def R.CAM_SRC_FRAME (s : Nat) : Nat := 0x080B0210 + 0x20 * s
def F.CAM_SRC_FRAME_FRAME (s : Nat) : Fld := ⟨(R.CAM_SRC_FRAME s), 0, 32⟩
def R.CAM_SRC_DROPCNT (s : Nat) : Nat := 0x080B0214 + 0x20 * s
def F.CAM_SRC_DROPCNT_COUNT (s : Nat) : Fld := ⟨(R.CAM_SRC_DROPCNT s), 0, 32⟩
def R.CAM_SRC_BADCNT (s : Nat) : Nat := 0x080B0218 + 0x20 * s
def F.CAM_SRC_BADCNT_CRC (s : Nat) : Fld := ⟨(R.CAM_SRC_BADCNT s), 16, 16⟩
def F.CAM_SRC_BADCNT_SHORT (s : Nat) : Fld := ⟨(R.CAM_SRC_BADCNT s), 8, 8⟩
def F.CAM_SRC_BADCNT_LONG (s : Nat) : Fld := ⟨(R.CAM_SRC_BADCNT s), 0, 8⟩
def R.CAM_SRC_LEVEL (s : Nat) : Nat := 0x080B021C + 0x20 * s
def F.CAM_SRC_LEVEL_MAXLINES (s : Nat) : Fld := ⟨(R.CAM_SRC_LEVEL s), 16, 16⟩
def F.CAM_SRC_LEVEL_LINES (s : Nat) : Fld := ⟨(R.CAM_SRC_LEVEL s), 0, 16⟩
def R.CAM_TRG_CFG (k : Nat) : Nat := 0x080B0400 + 0x40 * k
def F.CAM_TRG_CFG_ENABLE (k : Nat) : Fld := ⟨(R.CAM_TRG_CFG k), 31, 1⟩
def F.CAM_TRG_CFG_PADEN (k : Nat) : Fld := ⟨(R.CAM_TRG_CFG k), 30, 1⟩
def F.CAM_TRG_CFG_START (k : Nat) : Fld := ⟨(R.CAM_TRG_CFG k), 29, 1⟩
def F.CAM_TRG_CFG_CMP (k : Nat) : Fld := ⟨(R.CAM_TRG_CFG k), 24, 4⟩
def F.CAM_TRG_CFG_ZONE (k : Nat) : Fld := ⟨(R.CAM_TRG_CFG k), 16, 4⟩
def F.CAM_TRG_CFG_LMPMASK (k : Nat) : Fld := ⟨(R.CAM_TRG_CFG k), 0, 4⟩
def R.CAM_TRG_TIMING (k : Nat) : Nat := 0x080B0404 + 0x40 * k
def F.CAM_TRG_TIMING_MINPER (k : Nat) : Fld := ⟨(R.CAM_TRG_TIMING k), 16, 16⟩
def F.CAM_TRG_TIMING_EXP (k : Nat) : Fld := ⟨(R.CAM_TRG_TIMING k), 0, 14⟩
def R.CAM_TRG_PERIOD (k : Nat) : Nat := 0x080B0408 + 0x40 * k
def F.CAM_TRG_PERIOD_PERIOD (k : Nat) : Fld := ⟨(R.CAM_TRG_PERIOD k), 0, 32⟩
def R.CAM_TRG_STROBE (k : Nat) : Nat := 0x080B040C + 0x40 * k
def F.CAM_TRG_STROBE_SWIDTH (k : Nat) : Fld := ⟨(R.CAM_TRG_STROBE k), 16, 16⟩
def F.CAM_TRG_STROBE_SDLY (k : Nat) : Fld := ⟨(R.CAM_TRG_STROBE k), 0, 16⟩
def R.CAM_TRG_FRAME (k : Nat) : Nat := 0x080B0410 + 0x40 * k
def F.CAM_TRG_FRAME_NTRIG (k : Nat) : Fld := ⟨(R.CAM_TRG_FRAME k), 0, 16⟩
def R.CAM_TRG_COMMIT (k : Nat) : Nat := 0x080B0414 + 0x40 * k
def F.CAM_TRG_COMMIT_COMMIT (k : Nat) : Fld := ⟨(R.CAM_TRG_COMMIT k), 0, 1⟩
def R.CAM_TRG_ACTIVE_SEQ (k : Nat) : Nat := 0x080B0418 + 0x40 * k
def F.CAM_TRG_ACTIVE_SEQ_SEQ (k : Nat) : Fld := ⟨(R.CAM_TRG_ACTIVE_SEQ k), 0, 32⟩
def R.CAM_TRG_POSLO (k : Nat) : Nat := 0x080B041C + 0x40 * k
def F.CAM_TRG_POSLO_POS (k : Nat) : Fld := ⟨(R.CAM_TRG_POSLO k), 0, 32⟩
def R.CAM_TRG_POSHI (k : Nat) : Nat := 0x080B0420 + 0x40 * k
def F.CAM_TRG_POSHI_POS (k : Nat) : Fld := ⟨(R.CAM_TRG_POSHI k), 0, 32⟩
def R.CAM_TRG_ARM (k : Nat) : Nat := 0x080B0424 + 0x40 * k
def F.CAM_TRG_ARM_STOP (k : Nat) : Fld := ⟨(R.CAM_TRG_ARM k), 2, 1⟩
def F.CAM_TRG_ARM_LATE_OK (k : Nat) : Fld := ⟨(R.CAM_TRG_ARM k), 1, 1⟩
def F.CAM_TRG_ARM_ARM (k : Nat) : Fld := ⟨(R.CAM_TRG_ARM k), 0, 1⟩
def R.CAM_TRG_STAT (k : Nat) : Nat := 0x080B0428 + 0x40 * k
def F.CAM_TRG_STAT_SKIPCNT (k : Nat) : Fld := ⟨(R.CAM_TRG_STAT k), 16, 16⟩
def F.CAM_TRG_STAT_LATE (k : Nat) : Fld := ⟨(R.CAM_TRG_STAT k), 3, 1⟩
def F.CAM_TRG_STAT_SHADOW (k : Nat) : Fld := ⟨(R.CAM_TRG_STAT k), 2, 1⟩
def F.CAM_TRG_STAT_RUNNING (k : Nat) : Fld := ⟨(R.CAM_TRG_STAT k), 1, 1⟩
def F.CAM_TRG_STAT_WAITING (k : Nat) : Fld := ⟨(R.CAM_TRG_STAT k), 0, 1⟩
def R.CAM_TRG_COUNT (k : Nat) : Nat := 0x080B042C + 0x40 * k
def F.CAM_TRG_COUNT_COUNT (k : Nat) : Fld := ⟨(R.CAM_TRG_COUNT k), 0, 32⟩
def R.CAM_TILE_CFG (t : Nat) : Nat := 0x080B0800 + 0x8 * t
def F.CAM_TILE_CFG_ENABLE (t : Nat) : Fld := ⟨(R.CAM_TILE_CFG t), 31, 1⟩
def F.CAM_TILE_CFG_SRC (t : Nat) : Fld := ⟨(R.CAM_TILE_CFG t), 24, 4⟩
def F.CAM_TILE_CFG_LANE (t : Nat) : Fld := ⟨(R.CAM_TILE_CFG t), 20, 2⟩
def F.CAM_TILE_CFG_FMT (t : Nat) : Fld := ⟨(R.CAM_TILE_CFG t), 16, 3⟩
def R.CAM_TILE_GEOM (t : Nat) : Nat := 0x080B0804 + 0x8 * t
def F.CAM_TILE_GEOM_X0 (t : Nat) : Fld := ⟨(R.CAM_TILE_GEOM t), 18, 14⟩
def F.CAM_TILE_GEOM_NPIXM1 (t : Nat) : Fld := ⟨(R.CAM_TILE_GEOM t), 7, 11⟩
def F.CAM_TILE_GEOM_SKIP (t : Nat) : Fld := ⟨(R.CAM_TILE_GEOM t), 0, 7⟩
def R.VIS_IRQ_STAT : Nat := 0x080C0010
def F.VIS_IRQ_STAT_ECC : Fld := ⟨R.VIS_IRQ_STAT, 2, 1⟩
def F.VIS_IRQ_STAT_ARCSKIP : Fld := ⟨R.VIS_IRQ_STAT, 1, 1⟩
def F.VIS_IRQ_STAT_OUTLOST : Fld := ⟨R.VIS_IRQ_STAT, 0, 1⟩
def R.VIS_IRQ_EN : Nat := 0x080C0014
def F.VIS_IRQ_EN_ECC : Fld := ⟨R.VIS_IRQ_EN, 2, 1⟩
def F.VIS_IRQ_EN_ARCSKIP : Fld := ⟨R.VIS_IRQ_EN, 1, 1⟩
def F.VIS_IRQ_EN_OUTLOST : Fld := ⟨R.VIS_IRQ_EN, 0, 1⟩
def R.VIS_TBLADDR : Nat := 0x080C0018
def F.VIS_TBLADDR_VALUE : Fld := ⟨R.VIS_TBLADDR, 0, 32⟩
def R.VIS_TBLDATA : Nat := 0x080C001C
def F.VIS_TBLDATA_VALUE : Fld := ⟨R.VIS_TBLDATA, 0, 32⟩
def R.VIS_SRC_CFG (s : Nat) : Nat := 0x080C0100 + 0x20 * s
def F.VIS_SRC_CFG_MERGE (s : Nat) : Fld := ⟨(R.VIS_SRC_CFG s), 31, 1⟩
def F.VIS_SRC_CFG_DEMOSAIC (s : Nat) : Fld := ⟨(R.VIS_SRC_CFG s), 30, 1⟩
def F.VIS_SRC_CFG_BAYER (s : Nat) : Fld := ⟨(R.VIS_SRC_CFG s), 28, 2⟩
def F.VIS_SRC_CFG_FFBANK (s : Nat) : Fld := ⟨(R.VIS_SRC_CFG s), 24, 3⟩
def R.VIS_SRC_MERGE (s : Nat) : Nat := 0x080C0104 + 0x20 * s
def F.VIS_SRC_MERGE_RATIO (s : Nat) : Fld := ⟨(R.VIS_SRC_MERGE s), 16, 16⟩
def F.VIS_SRC_MERGE_KNEE (s : Nat) : Fld := ⟨(R.VIS_SRC_MERGE s), 0, 16⟩
def R.VIS_SRC_CCM (s i : Nat) : Nat := 0x080C0108 + 0x20 * s + 0x4 * i
def F.VIS_SRC_CCM_COEF (s i : Nat) : Fld := ⟨(R.VIS_SRC_CCM s i), 0, 32⟩
def R.VIS_OUT_CFG (o : Nat) : Nat := 0x080C0400 + 0x40 * o
def F.VIS_OUT_CFG_ENABLE (o : Nat) : Fld := ⟨(R.VIS_OUT_CFG o), 31, 1⟩
def F.VIS_OUT_CFG_DEST (o : Nat) : Fld := ⟨(R.VIS_OUT_CFG o), 28, 3⟩
def F.VIS_OUT_CFG_SRC (o : Nat) : Fld := ⟨(R.VIS_OUT_CFG o), 24, 4⟩
def F.VIS_OUT_CFG_FMT (o : Nat) : Fld := ⟨(R.VIS_OUT_CFG o), 22, 2⟩
def F.VIS_OUT_CFG_ARCCH (o : Nat) : Fld := ⟨(R.VIS_OUT_CFG o), 20, 2⟩
def F.VIS_OUT_CFG_ARCEFF (o : Nat) : Fld := ⟨(R.VIS_OUT_CFG o), 17, 3⟩
def F.VIS_OUT_CFG_ARCBHM1 (o : Nat) : Fld := ⟨(R.VIS_OUT_CFG o), 0, 9⟩
def R.VIS_OUT_CROP (o : Nat) : Nat := 0x080C0404 + 0x40 * o
def F.VIS_OUT_CROP_CX0 (o : Nat) : Fld := ⟨(R.VIS_OUT_CROP o), 16, 16⟩
def F.VIS_OUT_CROP_CW (o : Nat) : Fld := ⟨(R.VIS_OUT_CROP o), 0, 16⟩
def R.VIS_OUT_SCALE (o : Nat) : Nat := 0x080C0408 + 0x40 * o
def F.VIS_OUT_SCALE_YDIVM1 (o : Nat) : Fld := ⟨(R.VIS_OUT_SCALE o), 4, 4⟩
def F.VIS_OUT_SCALE_XDIVM1 (o : Nat) : Fld := ⟨(R.VIS_OUT_SCALE o), 0, 4⟩
def R.VIS_OUT_DSTLO (o : Nat) : Nat := 0x080C040C + 0x40 * o
def F.VIS_OUT_DSTLO_ADDR (o : Nat) : Fld := ⟨(R.VIS_OUT_DSTLO o), 0, 32⟩
def R.VIS_OUT_DSTHI (o : Nat) : Nat := 0x080C0410 + 0x40 * o
def F.VIS_OUT_DSTHI_ADDR (o : Nat) : Fld := ⟨(R.VIS_OUT_DSTHI o), 0, 32⟩
def R.VIS_OUT_SIZE (o : Nat) : Nat := 0x080C0414 + 0x40 * o
def F.VIS_OUT_SIZE_LINES (o : Nat) : Fld := ⟨(R.VIS_OUT_SIZE o), 0, 32⟩
def R.VIS_OUT_WR (o : Nat) : Nat := 0x080C0418 + 0x40 * o
def F.VIS_OUT_WR_COUNT (o : Nat) : Fld := ⟨(R.VIS_OUT_WR o), 0, 32⟩
def R.VIS_OUT_RD (o : Nat) : Nat := 0x080C041C + 0x40 * o
def F.VIS_OUT_RD_COUNT (o : Nat) : Fld := ⟨(R.VIS_OUT_RD o), 0, 32⟩
def R.VIS_OUT_LOST (o : Nat) : Nat := 0x080C0420 + 0x40 * o
def F.VIS_OUT_LOST_COUNT (o : Nat) : Fld := ⟨(R.VIS_OUT_LOST o), 0, 32⟩
def R.INS_CFG : Nat := 0x080D0010
def F.INS_CFG_ENABLE : Fld := ⟨R.INS_CFG, 31, 1⟩
def F.INS_CFG_OUT : Fld := ⟨R.INS_CFG, 24, 2⟩
def F.INS_CFG_ZONES : Fld := ⟨R.INS_CFG, 0, 16⟩
def R.INS_EXPBASE : Nat := 0x080D0014
def F.INS_EXPBASE_MIB : Fld := ⟨R.INS_EXPBASE, 0, 32⟩
def R.INS_EXPLINES : Nat := 0x080D0018
def F.INS_EXPLINES_LINES : Fld := ⟨R.INS_EXPLINES, 0, 32⟩
def R.INS_GEOM : Nat := 0x080D001C
def F.INS_GEOM_XSCALE : Fld := ⟨R.INS_GEOM, 0, 32⟩
def R.INS_X0 : Nat := 0x080D0020
def F.INS_X0_X0 : Fld := ⟨R.INS_X0, 0, 32⟩
def R.INS_CAMDIST : Nat := 0x080D0024
def F.INS_CAMDIST_DIST : Fld := ⟨R.INS_CAMDIST, 0, 31⟩
def R.INS_EVID : Nat := 0x080D0028
def F.INS_EVID_EMIN : Fld := ⟨R.INS_EVID, 16, 16⟩
def F.INS_EVID_OUTQ : Fld := ⟨R.INS_EVID, 8, 8⟩
def F.INS_EVID_EPIX : Fld := ⟨R.INS_EVID, 0, 8⟩
def R.INS_DEF : Nat := 0x080D002C
def F.INS_DEF_DEFTHR : Fld := ⟨R.INS_DEF, 16, 16⟩
def F.INS_DEF_DEFMIN : Fld := ⟨R.INS_DEF, 0, 16⟩
def R.INS_REG : Nat := 0x080D0030
def F.INS_REG_MINGRADE : Fld := ⟨R.INS_REG, 4, 4⟩
def F.INS_REG_REGLIM : Fld := ⟨R.INS_REG, 0, 4⟩
def R.INS_REGSTAT : Nat := 0x080D0034
def F.INS_REGSTAT_DX : Fld := ⟨R.INS_REGSTAT, 24, 8⟩
def F.INS_REGSTAT_DY : Fld := ⟨R.INS_REGSTAT, 16, 8⟩
def F.INS_REGSTAT_EX : Fld := ⟨R.INS_REGSTAT, 8, 8⟩
def F.INS_REGSTAT_EY : Fld := ⟨R.INS_REGSTAT, 0, 8⟩
def R.INS_IRQ_STAT : Nat := 0x080D0038
def F.INS_IRQ_STAT_RPTDROP : Fld := ⟨R.INS_IRQ_STAT, 6, 1⟩
def F.INS_IRQ_STAT_ECC : Fld := ⟨R.INS_IRQ_STAT, 5, 1⟩
def F.INS_IRQ_STAT_REG : Fld := ⟨R.INS_IRQ_STAT, 4, 1⟩
def F.INS_IRQ_STAT_VOID : Fld := ⟨R.INS_IRQ_STAT, 3, 1⟩
def F.INS_IRQ_STAT_GRADE : Fld := ⟨R.INS_IRQ_STAT, 2, 1⟩
def F.INS_IRQ_STAT_DEFECT : Fld := ⟨R.INS_IRQ_STAT, 1, 1⟩
def F.INS_IRQ_STAT_DECL : Fld := ⟨R.INS_IRQ_STAT, 0, 1⟩
def R.INS_IRQ_EN : Nat := 0x080D003C
def F.INS_IRQ_EN_RPTDROP : Fld := ⟨R.INS_IRQ_EN, 6, 1⟩
def F.INS_IRQ_EN_ECC : Fld := ⟨R.INS_IRQ_EN, 5, 1⟩
def F.INS_IRQ_EN_REG : Fld := ⟨R.INS_IRQ_EN, 4, 1⟩
def F.INS_IRQ_EN_VOID : Fld := ⟨R.INS_IRQ_EN, 3, 1⟩
def F.INS_IRQ_EN_GRADE : Fld := ⟨R.INS_IRQ_EN, 2, 1⟩
def F.INS_IRQ_EN_DEFECT : Fld := ⟨R.INS_IRQ_EN, 1, 1⟩
def F.INS_IRQ_EN_DECL : Fld := ⟨R.INS_IRQ_EN, 0, 1⟩
def R.INS_DECLCNT : Nat := 0x080D0040
def F.INS_DECLCNT_COUNT : Fld := ⟨R.INS_DECLCNT, 0, 32⟩
def R.INS_DEFCNT : Nat := 0x080D0044
def F.INS_DEFCNT_COUNT : Fld := ⟨R.INS_DEFCNT, 0, 32⟩
def R.INS_VOIDCNT : Nat := 0x080D0048
def F.INS_VOIDCNT_COUNT : Fld := ⟨R.INS_VOIDCNT, 0, 32⟩
def R.INS_RPTDROP : Nat := 0x080D004C
def F.INS_RPTDROP_COUNT : Fld := ⟨R.INS_RPTDROP, 0, 32⟩
def R.INS_STATCLR : Nat := 0x080D0050
def F.INS_STATCLR_CLR : Fld := ⟨R.INS_STATCLR, 0, 4⟩
def R.INS_GRADELO : Nat := 0x080D0054
def F.INS_GRADELO_MASK : Fld := ⟨R.INS_GRADELO, 0, 32⟩
def R.INS_GRADEHI : Nat := 0x080D0058
def F.INS_GRADEHI_MASK : Fld := ⟨R.INS_GRADEHI, 0, 32⟩
def R.INS_LASTGRADE : Nat := 0x080D005C
def F.INS_LASTGRADE_SC : Fld := ⟨R.INS_LASTGRADE, 24, 8⟩
def F.INS_LASTGRADE_TPL : Fld := ⟨R.INS_LASTGRADE, 18, 6⟩
def F.INS_LASTGRADE_GSC : Fld := ⟨R.INS_LASTGRADE, 15, 3⟩
def F.INS_LASTGRADE_GMOD : Fld := ⟨R.INS_LASTGRADE, 12, 3⟩
def F.INS_LASTGRADE_GUEC : Fld := ⟨R.INS_LASTGRADE, 9, 3⟩
def F.INS_LASTGRADE_GRADE : Fld := ⟨R.INS_LASTGRADE, 0, 3⟩
def R.INS_GRP_CFG (g : Nat) : Nat := 0x080D0100 + 0x10 * g
def F.INS_GRP_CFG_GSHIFT (g : Nat) : Fld := ⟨(R.INS_GRP_CFG g), 8, 4⟩
def F.INS_GRP_CFG_CH (g : Nat) : Fld := ⟨(R.INS_GRP_CFG g), 0, 2⟩
def R.INS_GRP_K (g : Nat) : Nat := 0x080D0104 + 0x10 * g
def F.INS_GRP_K_KB (g : Nat) : Fld := ⟨(R.INS_GRP_K g), 20, 10⟩
def F.INS_GRP_K_KG (g : Nat) : Fld := ⟨(R.INS_GRP_K g), 10, 10⟩
def F.INS_GRP_K_KR (g : Nat) : Fld := ⟨(R.INS_GRP_K g), 0, 10⟩
def R.INS_ROW_GRP (r : Nat) : Nat := 0x080D0200 + 0x4 * r
def F.INS_ROW_GRP_EN (r : Nat) : Fld := ⟨(R.INS_ROW_GRP r), 4, 1⟩
def F.INS_ROW_GRP_GRP (r : Nat) : Fld := ⟨(R.INS_ROW_GRP r), 0, 2⟩
def R.INS_HG_VOL (n k : Nat) : Nat := 0x080D0300 + 0x10 * n + 0x4 * k
def F.INS_HG_VOL_BYTES (n k : Nat) : Fld := ⟨(R.INS_HG_VOL n k), 0, 32⟩
def R.LMP_IRQ_STAT : Nat := 0x080E0010
def F.LMP_IRQ_STAT_ECC : Fld := ⟨R.LMP_IRQ_STAT, 7, 1⟩
def F.LMP_IRQ_STAT_APPLY : Fld := ⟨R.LMP_IRQ_STAT, 6, 1⟩
def F.LMP_IRQ_STAT_UNDIAG : Fld := ⟨R.LMP_IRQ_STAT, 5, 1⟩
def F.LMP_IRQ_STAT_CHAIN : Fld := ⟨R.LMP_IRQ_STAT, 4, 1⟩
def F.LMP_IRQ_STAT_TEMP : Fld := ⟨R.LMP_IRQ_STAT, 3, 1⟩
def F.LMP_IRQ_STAT_BYPASS : Fld := ⟨R.LMP_IRQ_STAT, 2, 1⟩
def F.LMP_IRQ_STAT_SHORT : Fld := ⟨R.LMP_IRQ_STAT, 1, 1⟩
def F.LMP_IRQ_STAT_OPEN : Fld := ⟨R.LMP_IRQ_STAT, 0, 1⟩
def R.LMP_IRQ_EN : Nat := 0x080E0014
def F.LMP_IRQ_EN_ECC : Fld := ⟨R.LMP_IRQ_EN, 7, 1⟩
def F.LMP_IRQ_EN_APPLY : Fld := ⟨R.LMP_IRQ_EN, 6, 1⟩
def F.LMP_IRQ_EN_UNDIAG : Fld := ⟨R.LMP_IRQ_EN, 5, 1⟩
def F.LMP_IRQ_EN_CHAIN : Fld := ⟨R.LMP_IRQ_EN, 4, 1⟩
def F.LMP_IRQ_EN_TEMP : Fld := ⟨R.LMP_IRQ_EN, 3, 1⟩
def F.LMP_IRQ_EN_BYPASS : Fld := ⟨R.LMP_IRQ_EN, 2, 1⟩
def F.LMP_IRQ_EN_SHORT : Fld := ⟨R.LMP_IRQ_EN, 1, 1⟩
def F.LMP_IRQ_EN_OPEN : Fld := ⟨R.LMP_IRQ_EN, 0, 1⟩
def R.LMP_SSEL : Nat := 0x080E0020
def F.LMP_SSEL_CHAIN : Fld := ⟨R.LMP_SSEL, 7, 2⟩
def F.LMP_SSEL_BOARD : Fld := ⟨R.LMP_SSEL, 2, 5⟩
def F.LMP_SSEL_STRING : Fld := ⟨R.LMP_SSEL, 0, 2⟩
def R.LMP_SSTAT : Nat := 0x080E0024
def F.LMP_SSTAT_TEMP : Fld := ⟨R.LMP_SSTAT, 24, 8⟩
def F.LMP_SSTAT_F : Fld := ⟨R.LMP_SSTAT, 15, 9⟩
def F.LMP_SSTAT_BYPASSED : Fld := ⟨R.LMP_SSTAT, 11, 4⟩
def F.LMP_SSTAT_UNDIAG : Fld := ⟨R.LMP_SSTAT, 10, 1⟩
def F.LMP_SSTAT_SHORT : Fld := ⟨R.LMP_SSTAT, 9, 1⟩
def F.LMP_SSTAT_OPEN : Fld := ⟨R.LMP_SSTAT, 8, 1⟩
def F.LMP_SSTAT_MODE : Fld := ⟨R.LMP_SSTAT, 6, 2⟩
def F.LMP_SSTAT_CLASS : Fld := ⟨R.LMP_SSTAT, 5, 1⟩
def R.LMP_SDOSELO : Nat := 0x080E0028
def F.LMP_SDOSELO_DOSE : Fld := ⟨R.LMP_SDOSELO, 0, 32⟩
def R.LMP_SDOSEHI : Nat := 0x080E002C
def F.LMP_SDOSEHI_DOSE : Fld := ⟨R.LMP_SDOSEHI, 0, 32⟩
def R.LMP_CH_CFG (c : Nat) : Nat := 0x080E0100 + 0x40 * c
def F.LMP_CH_CFG_ENABLE (c : Nat) : Fld := ⟨(R.LMP_CH_CFG c), 31, 1⟩
def F.LMP_CH_CFG_NBM1 (c : Nat) : Fld := ⟨(R.LMP_CH_CFG c), 24, 5⟩
def F.LMP_CH_CFG_DIV (c : Nat) : Fld := ⟨(R.LMP_CH_CFG c), 16, 8⟩
def F.LMP_CH_CFG_RETSKEW (c : Nat) : Fld := ⟨(R.LMP_CH_CFG c), 13, 3⟩
def F.LMP_CH_CFG_AUTOBYP (c : Nat) : Fld := ⟨(R.LMP_CH_CFG c), 11, 1⟩
def F.LMP_CH_CFG_DIAGEN (c : Nat) : Fld := ⟨(R.LMP_CH_CFG c), 10, 1⟩
def F.LMP_CH_CFG_BYPMAX (c : Nat) : Fld := ⟨(R.LMP_CH_CFG c), 0, 4⟩
def R.LMP_CH_BOARD (c : Nat) : Nat := 0x080E0104 + 0x40 * c
def F.LMP_CH_BOARD_PWMDIV (c : Nat) : Fld := ⟨(R.LMP_CH_BOARD c), 24, 8⟩
def F.LMP_CH_BOARD_SLOT (c : Nat) : Fld := ⟨(R.LMP_CH_BOARD c), 16, 8⟩
def F.LMP_CH_BOARD_PRECHG (c : Nat) : Fld := ⟨(R.LMP_CH_BOARD c), 8, 8⟩
def F.LMP_CH_BOARD_DIAGPER (c : Nat) : Fld := ⟨(R.LMP_CH_BOARD c), 0, 8⟩
def R.LMP_CH_DIM (c : Nat) : Nat := 0x080E0108 + 0x40 * c
def F.LMP_CH_DIM_KNEE (c : Nat) : Fld := ⟨(R.LMP_CH_DIM c), 16, 16⟩
def F.LMP_CH_DIM_TDERATE (c : Nat) : Fld := ⟨(R.LMP_CH_DIM c), 8, 8⟩
def F.LMP_CH_DIM_TMAX (c : Nat) : Fld := ⟨(R.LMP_CH_DIM c), 0, 8⟩
def R.LMP_CH_THERM (c : Nat) : Nat := 0x080E010C + 0x40 * c
def F.LMP_CH_THERM_ROWSM1 (c : Nat) : Fld := ⟨(R.LMP_CH_THERM c), 8, 2⟩
def F.LMP_CH_THERM_DERMIN (c : Nat) : Fld := ⟨(R.LMP_CH_THERM c), 0, 8⟩
def R.LMP_CH_LVLSEL (c : Nat) : Nat := 0x080E0110 + 0x40 * c
def F.LMP_CH_LVLSEL_BOARD (c : Nat) : Fld := ⟨(R.LMP_CH_LVLSEL c), 2, 5⟩
def F.LMP_CH_LVLSEL_STRING (c : Nat) : Fld := ⟨(R.LMP_CH_LVLSEL c), 0, 2⟩
def R.LMP_CH_LVL (c : Nat) : Nat := 0x080E0114 + 0x40 * c
def F.LMP_CH_LVL_FADE (c : Nat) : Fld := ⟨(R.LMP_CH_LVL c), 16, 16⟩
def F.LMP_CH_LVL_LEVEL (c : Nat) : Fld := ⟨(R.LMP_CH_LVL c), 0, 16⟩
def R.LMP_CH_COMMIT (c : Nat) : Nat := 0x080E0118 + 0x40 * c
def F.LMP_CH_COMMIT_COMMIT (c : Nat) : Fld := ⟨(R.LMP_CH_COMMIT c), 0, 1⟩
def R.LMP_CH_ACTIVE_SEQ (c : Nat) : Nat := 0x080E011C + 0x40 * c
def F.LMP_CH_ACTIVE_SEQ_SEQ (c : Nat) : Fld := ⟨(R.LMP_CH_ACTIVE_SEQ c), 0, 32⟩
def R.LMP_CH_STAT (c : Nat) : Nat := 0x080E0120 + 0x40 * c
def F.LMP_CH_STAT_STATE (c : Nat) : Fld := ⟨(R.LMP_CH_STAT c), 30, 2⟩
def F.LMP_CH_STAT_ARMED (c : Nat) : Fld := ⟨(R.LMP_CH_STAT c), 29, 1⟩
def F.LMP_CH_STAT_STAGING (c : Nat) : Fld := ⟨(R.LMP_CH_STAT c), 28, 1⟩
def F.LMP_CH_STAT_STRBLATE (c : Nat) : Fld := ⟨(R.LMP_CH_STAT c), 16, 12⟩
def F.LMP_CH_STAT_CRCERR (c : Nat) : Fld := ⟨(R.LMP_CH_STAT c), 0, 16⟩
def R.PGF_CFG : Nat := 0x080F0010
def F.PGF_CFG_ENABLE : Fld := ⟨R.PGF_CFG, 31, 1⟩
def F.PGF_CFG_AUTH : Fld := ⟨R.PGF_CFG, 30, 1⟩
def F.PGF_CFG_VJPEN : Fld := ⟨R.PGF_CFG, 29, 1⟩
def F.PGF_CFG_FIXED : Fld := ⟨R.PGF_CFG, 28, 1⟩
def F.PGF_CFG_TIMESRC : Fld := ⟨R.PGF_CFG, 27, 1⟩
def F.PGF_CFG_PRIO : Fld := ⟨R.PGF_CFG, 16, 8⟩
def F.PGF_CFG_KEYSLOT : Fld := ⟨R.PGF_CFG, 8, 8⟩
def R.PGF_FIXADDR : Nat := 0x080F0014
def F.PGF_FIXADDR_ADDR : Fld := ⟨R.PGF_FIXADDR, 0, 11⟩
def R.PGF_STAT : Nat := 0x080F0018
def F.PGF_STAT_ROOT : Fld := ⟨R.PGF_STAT, 31, 1⟩
def F.PGF_STAT_ADDRVALID : Fld := ⟨R.PGF_STAT, 30, 1⟩
def F.PGF_STAT_DIST : Fld := ⟨R.PGF_STAT, 25, 5⟩
def F.PGF_STAT_TABLE : Fld := ⟨R.PGF_STAT, 24, 1⟩
def F.PGF_STAT_ROOTADDR : Fld := ⟨R.PGF_STAT, 11, 11⟩
def F.PGF_STAT_ADDR : Fld := ⟨R.PGF_STAT, 0, 11⟩
def R.PGF_ROOTUID (i : Nat) : Nat := 0x080F001C + 0x4 * i
def F.PGF_ROOTUID_VALUE (i : Nat) : Fld := ⟨(R.PGF_ROOTUID i), 0, 32⟩
def R.PGF_GEN : Nat := 0x080F002C
def F.PGF_GEN_VALUE : Fld := ⟨R.PGF_GEN, 0, 32⟩
def R.PGF_MEMBERS : Nat := 0x080F0030
def F.PGF_MEMBERS_VALUE : Fld := ⟨R.PGF_MEMBERS, 0, 32⟩
def R.PGF_IRQ_STAT : Nat := 0x080F0034
def F.PGF_IRQ_STAT_ECC : Fld := ⟨R.PGF_IRQ_STAT, 7, 1⟩
def F.PGF_IRQ_STAT_EPOCH : Fld := ⟨R.PGF_IRQ_STAT, 6, 1⟩
def F.PGF_IRQ_STAT_DROP : Fld := ⟨R.PGF_IRQ_STAT, 5, 1⟩
def F.PGF_IRQ_STAT_AUTH : Fld := ⟨R.PGF_IRQ_STAT, 4, 1⟩
def F.PGF_IRQ_STAT_ROUTE : Fld := ⟨R.PGF_IRQ_STAT, 3, 1⟩
def F.PGF_IRQ_STAT_ADDR : Fld := ⟨R.PGF_IRQ_STAT, 2, 1⟩
def F.PGF_IRQ_STAT_ROOT : Fld := ⟨R.PGF_IRQ_STAT, 1, 1⟩
def F.PGF_IRQ_STAT_PORT : Fld := ⟨R.PGF_IRQ_STAT, 0, 1⟩
def R.PGF_IRQ_EN : Nat := 0x080F0038
def F.PGF_IRQ_EN_ECC : Fld := ⟨R.PGF_IRQ_EN, 7, 1⟩
def F.PGF_IRQ_EN_EPOCH : Fld := ⟨R.PGF_IRQ_EN, 6, 1⟩
def F.PGF_IRQ_EN_DROP : Fld := ⟨R.PGF_IRQ_EN, 5, 1⟩
def F.PGF_IRQ_EN_AUTH : Fld := ⟨R.PGF_IRQ_EN, 4, 1⟩
def F.PGF_IRQ_EN_ROUTE : Fld := ⟨R.PGF_IRQ_EN, 3, 1⟩
def F.PGF_IRQ_EN_ADDR : Fld := ⟨R.PGF_IRQ_EN, 2, 1⟩
def F.PGF_IRQ_EN_ROOT : Fld := ⟨R.PGF_IRQ_EN, 1, 1⟩
def F.PGF_IRQ_EN_PORT : Fld := ⟨R.PGF_IRQ_EN, 0, 1⟩
def R.PGF_DROP : Nat := 0x080F003C
def F.PGF_DROP_BAD : Fld := ⟨R.PGF_DROP, 22, 10⟩
def F.PGF_DROP_NOROUTE : Fld := ⟨R.PGF_DROP, 11, 11⟩
def F.PGF_DROP_HOPS : Fld := ⟨R.PGF_DROP, 0, 11⟩
def R.PGF_STALE : Nat := 0x080F0040
def F.PGF_STALE_EPOCH : Fld := ⟨R.PGF_STALE, 16, 16⟩
def F.PGF_STALE_DUP : Fld := ⟨R.PGF_STALE, 0, 16⟩
def R.PGF_REFCNT : Nat := 0x080F0044
def F.PGF_REFCNT_SENT : Fld := ⟨R.PGF_REFCNT, 16, 16⟩
def F.PGF_REFCNT_TAKEN : Fld := ⟨R.PGF_REFCNT, 0, 16⟩
def R.PGF_STATCLR : Nat := 0x080F0048
def F.PGF_STATCLR_PORT : Fld := ⟨R.PGF_STATCLR, 3, 4⟩
def F.PGF_STATCLR_REF : Fld := ⟨R.PGF_STATCLR, 2, 1⟩
def F.PGF_STATCLR_STALE : Fld := ⟨R.PGF_STATCLR, 1, 1⟩
def F.PGF_STATCLR_DROP : Fld := ⟨R.PGF_STATCLR, 0, 1⟩
def R.PGF_ROUTESEL : Nat := 0x080F004C
def F.PGF_ROUTESEL_ADDR : Fld := ⟨R.PGF_ROUTESEL, 0, 11⟩
def R.PGF_ROUTE : Nat := 0x080F0050
def F.PGF_ROUTE_ENTRY : Fld := ⟨R.PGF_ROUTE, 0, 3⟩
def R.PGF_CTL : Nat := 0x080F0054
def F.PGF_CTL_RETRAIN : Fld := ⟨R.PGF_CTL, 0, 4⟩
def R.PGF_LGRP (k : Nat) : Nat := 0x080F0080 + 0x4 * k
def F.PGF_LGRP_LINKB (k : Nat) : Fld := ⟨(R.PGF_LGRP k), 16, 16⟩
def F.PGF_LGRP_LINKA (k : Nat) : Fld := ⟨(R.PGF_LGRP k), 0, 16⟩
def R.PGF_PORT_CFG (p : Nat) : Nat := 0x080F0100 + 0x40 * p
def F.PGF_PORT_CFG_ENABLE (p : Nat) : Fld := ⟨(R.PGF_PORT_CFG p), 31, 1⟩
def F.PGF_PORT_CFG_WEIGHT3 (p : Nat) : Fld := ⟨(R.PGF_PORT_CFG p), 8, 8⟩
def F.PGF_PORT_CFG_WEIGHT2 (p : Nat) : Fld := ⟨(R.PGF_PORT_CFG p), 0, 8⟩
def R.PGF_PORT_STAT (p : Nat) : Nat := 0x080F0104 + 0x40 * p
def F.PGF_PORT_STAT_STATE (p : Nat) : Fld := ⟨(R.PGF_PORT_STAT p), 28, 4⟩
def F.PGF_PORT_STAT_LASTFAIL (p : Nat) : Fld := ⟨(R.PGF_PORT_STAT p), 24, 4⟩
def F.PGF_PORT_STAT_TREE (p : Nat) : Fld := ⟨(R.PGF_PORT_STAT p), 22, 2⟩
def F.PGF_PORT_STAT_NBKIND (p : Nat) : Fld := ⟨(R.PGF_PORT_STAT p), 21, 1⟩
def F.PGF_PORT_STAT_NBADDR (p : Nat) : Fld := ⟨(R.PGF_PORT_STAT p), 0, 11⟩
def R.PGF_PORT_ERR (p : Nat) : Nat := 0x080F0108 + 0x40 * p
def F.PGF_PORT_ERR_CRCERR (p : Nat) : Fld := ⟨(R.PGF_PORT_ERR p), 16, 16⟩
def F.PGF_PORT_ERR_RETRY (p : Nat) : Fld := ⟨(R.PGF_PORT_ERR p), 0, 16⟩
def R.PGF_PORT_DROP (p : Nat) : Nat := 0x080F010C + 0x40 * p
def F.PGF_PORT_DROP_COUNT (p : Nat) : Fld := ⟨(R.PGF_PORT_DROP p), 0, 32⟩
def R.PGF_PORT_NBUID (p k : Nat) : Nat := 0x080F0110 + 0x40 * p + 0x4 * k
def F.PGF_PORT_NBUID_UID (p k : Nat) : Fld := ⟨(R.PGF_PORT_NBUID p k), 0, 32⟩
def R.ETH_IRQ_STAT : Nat := 0x08100010
def F.ETH_IRQ_STAT_LATE : Fld := ⟨R.ETH_IRQ_STAT, 6, 1⟩
def F.ETH_IRQ_STAT_TSOVF : Fld := ⟨R.ETH_IRQ_STAT, 5, 1⟩
def F.ETH_IRQ_STAT_TSREADY : Fld := ⟨R.ETH_IRQ_STAT, 4, 1⟩
def F.ETH_IRQ_STAT_RXDONE : Fld := ⟨R.ETH_IRQ_STAT, 3, 1⟩
def F.ETH_IRQ_STAT_TXDONE : Fld := ⟨R.ETH_IRQ_STAT, 2, 1⟩
def F.ETH_IRQ_STAT_RXERR : Fld := ⟨R.ETH_IRQ_STAT, 1, 1⟩
def F.ETH_IRQ_STAT_LINK : Fld := ⟨R.ETH_IRQ_STAT, 0, 1⟩
def R.ETH_IRQ_EN : Nat := 0x08100014
def F.ETH_IRQ_EN_LATE : Fld := ⟨R.ETH_IRQ_EN, 6, 1⟩
def F.ETH_IRQ_EN_TSOVF : Fld := ⟨R.ETH_IRQ_EN, 5, 1⟩
def F.ETH_IRQ_EN_TSREADY : Fld := ⟨R.ETH_IRQ_EN, 4, 1⟩
def F.ETH_IRQ_EN_RXDONE : Fld := ⟨R.ETH_IRQ_EN, 3, 1⟩
def F.ETH_IRQ_EN_TXDONE : Fld := ⟨R.ETH_IRQ_EN, 2, 1⟩
def F.ETH_IRQ_EN_RXERR : Fld := ⟨R.ETH_IRQ_EN, 1, 1⟩
def F.ETH_IRQ_EN_LINK : Fld := ⟨R.ETH_IRQ_EN, 0, 1⟩
def R.ETH_TXTS_STAT : Nat := 0x08100018
def F.ETH_TXTS_STAT_OVF : Fld := ⟨R.ETH_TXTS_STAT, 16, 16⟩
def F.ETH_TXTS_STAT_COUNT : Fld := ⟨R.ETH_TXTS_STAT, 2, 7⟩
def F.ETH_TXTS_STAT_PORT : Fld := ⟨R.ETH_TXTS_STAT, 0, 2⟩
def R.ETH_TXTS_ID : Nat := 0x0810001C
def F.ETH_TXTS_ID_TSID : Fld := ⟨R.ETH_TXTS_ID, 0, 32⟩
def R.ETH_TXTS_SECLO : Nat := 0x08100020
def F.ETH_TXTS_SECLO_SEC : Fld := ⟨R.ETH_TXTS_SECLO, 0, 32⟩
def R.ETH_TXTS_SECHI : Nat := 0x08100024
def F.ETH_TXTS_SECHI_SEC : Fld := ⟨R.ETH_TXTS_SECHI, 0, 32⟩
def R.ETH_TXTS_NS : Nat := 0x08100028
def F.ETH_TXTS_NS_NS : Fld := ⟨R.ETH_TXTS_NS, 0, 32⟩
def R.ETH_TXTS_POP : Nat := 0x0810002C
def F.ETH_TXTS_POP_POP : Fld := ⟨R.ETH_TXTS_POP, 0, 1⟩
def R.ETH_PORT_CFG (p : Nat) : Nat := 0x08100100 + 0x80 * p
def F.ETH_PORT_CFG_ENABLE (p : Nat) : Fld := ⟨(R.ETH_PORT_CFG p), 31, 1⟩
def F.ETH_PORT_CFG_FEC (p : Nat) : Fld := ⟨(R.ETH_PORT_CFG p), 29, 2⟩
def F.ETH_PORT_CFG_PAUSEEN (p : Nat) : Fld := ⟨(R.ETH_PORT_CFG p), 28, 1⟩
def F.ETH_PORT_CFG_SWRX (p : Nat) : Fld := ⟨(R.ETH_PORT_CFG p), 27, 1⟩
def F.ETH_PORT_CFG_VLANEN (p : Nat) : Fld := ⟨(R.ETH_PORT_CFG p), 26, 1⟩
def F.ETH_PORT_CFG_VID (p : Nat) : Fld := ⟨(R.ETH_PORT_CFG p), 0, 12⟩
def R.ETH_PORT_MACLO (p : Nat) : Nat := 0x08100104 + 0x80 * p
def F.ETH_PORT_MACLO_MAC (p : Nat) : Fld := ⟨(R.ETH_PORT_MACLO p), 0, 32⟩
def R.ETH_PORT_MACHI (p : Nat) : Nat := 0x08100108 + 0x80 * p
def F.ETH_PORT_MACHI_MAC (p : Nat) : Fld := ⟨(R.ETH_PORT_MACHI p), 0, 32⟩
def R.ETH_PORT_IPV4 (p : Nat) : Nat := 0x0810010C + 0x80 * p
def F.ETH_PORT_IPV4_ADDR (p : Nat) : Fld := ⟨(R.ETH_PORT_IPV4 p), 0, 32⟩
def R.ETH_PORT_IPV6 (p i : Nat) : Nat := 0x08100110 + 0x80 * p + 0x4 * i
def F.ETH_PORT_IPV6_ADDR (p i : Nat) : Fld := ⟨(R.ETH_PORT_IPV6 p i), 0, 32⟩
def R.ETH_PORT_TSADJ (p : Nat) : Nat := 0x08100120 + 0x80 * p
def F.ETH_PORT_TSADJ_NS (p : Nat) : Fld := ⟨(R.ETH_PORT_TSADJ p), 0, 32⟩
def R.ETH_PORT_TXBASELO (p : Nat) : Nat := 0x08100124 + 0x80 * p
def F.ETH_PORT_TXBASELO_ADDR (p : Nat) : Fld := ⟨(R.ETH_PORT_TXBASELO p), 0, 32⟩
def R.ETH_PORT_TXBASEHI (p : Nat) : Nat := 0x08100128 + 0x80 * p
def F.ETH_PORT_TXBASEHI_ADDR (p : Nat) : Fld := ⟨(R.ETH_PORT_TXBASEHI p), 0, 32⟩
def R.ETH_PORT_TXSIZE (p : Nat) : Nat := 0x0810012C + 0x80 * p
def F.ETH_PORT_TXSIZE_ENTRIES (p : Nat) : Fld := ⟨(R.ETH_PORT_TXSIZE p), 0, 13⟩
def R.ETH_PORT_TXKICK (p : Nat) : Nat := 0x08100130 + 0x80 * p
def F.ETH_PORT_TXKICK_KICK (p : Nat) : Fld := ⟨(R.ETH_PORT_TXKICK p), 0, 1⟩
def R.ETH_PORT_RXBASELO (p : Nat) : Nat := 0x08100134 + 0x80 * p
def F.ETH_PORT_RXBASELO_ADDR (p : Nat) : Fld := ⟨(R.ETH_PORT_RXBASELO p), 0, 32⟩
def R.ETH_PORT_RXBASEHI (p : Nat) : Nat := 0x08100138 + 0x80 * p
def F.ETH_PORT_RXBASEHI_ADDR (p : Nat) : Fld := ⟨(R.ETH_PORT_RXBASEHI p), 0, 32⟩
def R.ETH_PORT_RXSIZE (p : Nat) : Nat := 0x0810013C + 0x80 * p
def F.ETH_PORT_RXSIZE_ENTRIES (p : Nat) : Fld := ⟨(R.ETH_PORT_RXSIZE p), 0, 13⟩
def R.ETH_PORT_NEXT (p : Nat) : Nat := 0x08100140 + 0x80 * p
def F.ETH_PORT_NEXT_RXNEXT (p : Nat) : Fld := ⟨(R.ETH_PORT_NEXT p), 16, 16⟩
def F.ETH_PORT_NEXT_TXNEXT (p : Nat) : Fld := ⟨(R.ETH_PORT_NEXT p), 0, 16⟩
def R.ETH_PORT_STAT (p : Nat) : Nat := 0x08100144 + 0x80 * p
def F.ETH_PORT_STAT_STATE (p : Nat) : Fld := ⟨(R.ETH_PORT_STAT p), 30, 2⟩
def R.ETH_PORT_RXERR (p : Nat) : Nat := 0x08100148 + 0x80 * p
def F.ETH_PORT_RXERR_COUNT (p : Nat) : Fld := ⟨(R.ETH_PORT_RXERR p), 0, 32⟩
def R.ETH_PORT_RXFILT (p : Nat) : Nat := 0x0810014C + 0x80 * p
def F.ETH_PORT_RXFILT_COUNT (p : Nat) : Fld := ⟨(R.ETH_PORT_RXFILT p), 0, 32⟩
def R.ETH_PORT_RXNOBUF (p : Nat) : Nat := 0x08100150 + 0x80 * p
def F.ETH_PORT_RXNOBUF_COUNT (p : Nat) : Fld := ⟨(R.ETH_PORT_RXNOBUF p), 0, 32⟩
def R.ETH_PORT_RXFRAMES (p : Nat) : Nat := 0x08100154 + 0x80 * p
def F.ETH_PORT_RXFRAMES_COUNT (p : Nat) : Fld := ⟨(R.ETH_PORT_RXFRAMES p), 0, 32⟩
def R.ETH_PORT_TXFRAMES (p : Nat) : Nat := 0x08100158 + 0x80 * p
def F.ETH_PORT_TXFRAMES_COUNT (p : Nat) : Fld := ⟨(R.ETH_PORT_TXFRAMES p), 0, 32⟩
def R.ETH_PORT_CLR (p : Nat) : Nat := 0x0810015C + 0x80 * p
def F.ETH_PORT_CLR_CLR (p : Nat) : Fld := ⟨(R.ETH_PORT_CLR p), 0, 1⟩
def R.PTP_CFG : Nat := 0x08110010
def F.PTP_CFG_PROFILE : Fld := ⟨R.PTP_CFG, 29, 3⟩
def F.PTP_CFG_SRC : Fld := ⟨R.PTP_CFG, 27, 2⟩
def F.PTP_CFG_SERVO : Fld := ⟨R.PTP_CFG, 26, 1⟩
def F.PTP_CFG_ONESTEP : Fld := ⟨R.PTP_CFG, 25, 1⟩
def F.PTP_CFG_TRANSPORT : Fld := ⟨R.PTP_CFG, 23, 2⟩
def F.PTP_CFG_PORTS : Fld := ⟨R.PTP_CFG, 16, 4⟩
def F.PTP_CFG_DOMAIN : Fld := ⟨R.PTP_CFG, 8, 8⟩
def R.PTP_PRIO : Nat := 0x08110014
def F.PTP_PRIO_PRIORITY1 : Fld := ⟨R.PTP_PRIO, 24, 8⟩
def F.PTP_PRIO_PRIORITY2 : Fld := ⟨R.PTP_PRIO, 16, 8⟩
def F.PTP_PRIO_CLASS : Fld := ⟨R.PTP_PRIO, 8, 8⟩
def F.PTP_PRIO_ACCURACY : Fld := ⟨R.PTP_PRIO, 0, 8⟩
def R.PTP_INTV : Nat := 0x08110018
def F.PTP_INTV_LOGSYNC : Fld := ⟨R.PTP_INTV, 24, 8⟩
def F.PTP_INTV_LOGANN : Fld := ⟨R.PTP_INTV, 16, 8⟩
def F.PTP_INTV_LOGDELAY : Fld := ⟨R.PTP_INTV, 8, 8⟩
def F.PTP_INTV_ANNTO : Fld := ⟨R.PTP_INTV, 4, 4⟩
def F.PTP_INTV_SYNCTO : Fld := ⟨R.PTP_INTV, 0, 4⟩
def R.PTP_SERVO : Nat := 0x0811001C
def F.PTP_SERVO_KP : Fld := ⟨R.PTP_SERVO, 24, 8⟩
def F.PTP_SERVO_KI : Fld := ⟨R.PTP_SERVO, 16, 8⟩
def F.PTP_SERVO_MAXRATE : Fld := ⟨R.PTP_SERVO, 0, 16⟩
def R.PTP_THR : Nat := 0x08110020
def F.PTP_THR_LOCKTHR : Fld := ⟨R.PTP_THR, 16, 16⟩
def F.PTP_THR_STEPTHR : Fld := ⟨R.PTP_THR, 0, 16⟩
def R.PTP_HOLD : Nat := 0x08110024
def F.PTP_HOLD_HOLDMAX : Fld := ⟨R.PTP_HOLD, 16, 16⟩
def F.PTP_HOLD_UTCOFS : Fld := ⟨R.PTP_HOLD, 0, 16⟩
def R.PTP_SNAP : Nat := 0x08110028
def F.PTP_SNAP_SNAP : Fld := ⟨R.PTP_SNAP, 0, 1⟩
def R.PTP_SNAPCLO : Nat := 0x0811002C
def F.PTP_SNAPCLO_C : Fld := ⟨R.PTP_SNAPCLO, 0, 32⟩
def R.PTP_SNAPCHI : Nat := 0x08110030
def F.PTP_SNAPCHI_C : Fld := ⟨R.PTP_SNAPCHI, 0, 32⟩
def R.PTP_TIMENS : Nat := 0x08110034
def F.PTP_TIMENS_NS : Fld := ⟨R.PTP_TIMENS, 0, 32⟩
def R.PTP_TIMESLO : Nat := 0x08110038
def F.PTP_TIMESLO_SEC : Fld := ⟨R.PTP_TIMESLO, 0, 32⟩
def R.PTP_TIMESHI : Nat := 0x0811003C
def F.PTP_TIMESHI_SEC : Fld := ⟨R.PTP_TIMESHI, 0, 32⟩
def R.PTP_STATE : Nat := 0x08110040
def F.PTP_STATE_STATE : Fld := ⟨R.PTP_STATE, 29, 3⟩
def F.PTP_STATE_SRC : Fld := ⟨R.PTP_STATE, 27, 2⟩
def F.PTP_STATE_PORT : Fld := ⟨R.PTP_STATE, 25, 2⟩
def F.PTP_STATE_STEPS : Fld := ⟨R.PTP_STATE, 0, 16⟩
def R.PTP_OFFSET : Nat := 0x08110044
def F.PTP_OFFSET_NS : Fld := ⟨R.PTP_OFFSET, 0, 32⟩
def R.PTP_RATE : Nat := 0x08110048
def F.PTP_RATE_RATE : Fld := ⟨R.PTP_RATE, 0, 32⟩
def R.PTP_STEP : Nat := 0x0811004C
def F.PTP_STEP_NS : Fld := ⟨R.PTP_STEP, 0, 32⟩
def R.PTP_UTC : Nat := 0x08110050
def F.PTP_UTC_FROMGM : Fld := ⟨R.PTP_UTC, 31, 1⟩
def F.PTP_UTC_OFS : Fld := ⟨R.PTP_UTC, 0, 16⟩
def R.PTP_GMIDLO : Nat := 0x08110054
def F.PTP_GMIDLO_ID : Fld := ⟨R.PTP_GMIDLO, 0, 32⟩
def R.PTP_GMIDHI : Nat := 0x08110058
def F.PTP_GMIDHI_ID : Fld := ⟨R.PTP_GMIDHI, 0, 32⟩
def R.PTP_IRQ_STAT : Nat := 0x08110060
def F.PTP_IRQ_STAT_OFFSET : Fld := ⟨R.PTP_IRQ_STAT, 4, 1⟩
def F.PTP_IRQ_STAT_RATESAT : Fld := ⟨R.PTP_IRQ_STAT, 3, 1⟩
def F.PTP_IRQ_STAT_PARENT : Fld := ⟨R.PTP_IRQ_STAT, 2, 1⟩
def F.PTP_IRQ_STAT_STEP : Fld := ⟨R.PTP_IRQ_STAT, 1, 1⟩
def F.PTP_IRQ_STAT_STATE : Fld := ⟨R.PTP_IRQ_STAT, 0, 1⟩
def R.PTP_IRQ_EN : Nat := 0x08110064
def F.PTP_IRQ_EN_OFFSET : Fld := ⟨R.PTP_IRQ_EN, 4, 1⟩
def F.PTP_IRQ_EN_RATESAT : Fld := ⟨R.PTP_IRQ_EN, 3, 1⟩
def F.PTP_IRQ_EN_PARENT : Fld := ⟨R.PTP_IRQ_EN, 2, 1⟩
def F.PTP_IRQ_EN_STEP : Fld := ⟨R.PTP_IRQ_EN, 1, 1⟩
def F.PTP_IRQ_EN_STATE : Fld := ⟨R.PTP_IRQ_EN, 0, 1⟩
def R.PTP_PORT_STAT (p : Nat) : Nat := 0x08110100 + 0x10 * p
def F.PTP_PORT_STAT_PSTATE (p : Nat) : Fld := ⟨(R.PTP_PORT_STAT p), 28, 4⟩
def F.PTP_PORT_STAT_SYNCS (p : Nat) : Fld := ⟨(R.PTP_PORT_STAT p), 0, 16⟩
def R.PTP_PORT_DELAY (p : Nat) : Nat := 0x08110104 + 0x10 * p
def F.PTP_PORT_DELAY_NS (p : Nat) : Fld := ⟨(R.PTP_PORT_DELAY p), 0, 32⟩
def R.DMC_CFG : Nat := 0x08120010
def F.DMC_CFG_FSPEN : Fld := ⟨R.DMC_CFG, 16, 4⟩
def F.DMC_CFG_ECC : Fld := ⟨R.DMC_CFG, 8, 1⟩
def F.DMC_CFG_X : Fld := ⟨R.DMC_CFG, 7, 1⟩
def F.DMC_CFG_RANKS2 : Fld := ⟨R.DMC_CFG, 6, 1⟩
def F.DMC_CFG_DENS : Fld := ⟨R.DMC_CFG, 4, 2⟩
def F.DMC_CFG_INTF : Fld := ⟨R.DMC_CFG, 0, 4⟩
def R.DMC_FSP : Nat := 0x08120014
def F.DMC_FSP_RATE : Fld := ⟨R.DMC_FSP, 0, 16⟩
def R.DMC_CHMASK (i : Nat) : Nat := 0x08120018 + 0x4 * i
def F.DMC_CHMASK_MASK (i : Nat) : Fld := ⟨(R.DMC_CHMASK i), 0, 23⟩
def R.DMC_BKMASK (i : Nat) : Nat := 0x08120024 + 0x4 * i
def F.DMC_BKMASK_MASK (i : Nat) : Fld := ⟨(R.DMC_BKMASK i), 0, 16⟩
def R.DMC_AGE : Nat := 0x08120034
def F.DMC_AGE_AGECPU : Fld := ⟨R.DMC_AGE, 8, 8⟩
def F.DMC_AGE_AGEBULK : Fld := ⟨R.DMC_AGE, 0, 8⟩
def R.DMC_PWR : Nat := 0x08120038
def F.DMC_PWR_SRIDLE : Fld := ⟨R.DMC_PWR, 16, 16⟩
def F.DMC_PWR_RETRAIN : Fld := ⟨R.DMC_PWR, 0, 16⟩
def R.DMC_FREQ : Nat := 0x0812003C
def F.DMC_FREQ_SP : Fld := ⟨R.DMC_FREQ, 0, 2⟩
def R.DMC_FREQSTAT : Nat := 0x08120040
def F.DMC_FREQSTAT_STATE : Fld := ⟨R.DMC_FREQSTAT, 30, 2⟩
def F.DMC_FREQSTAT_CUR : Fld := ⟨R.DMC_FREQSTAT, 16, 2⟩
def F.DMC_FREQSTAT_CODE : Fld := ⟨R.DMC_FREQSTAT, 8, 8⟩
def R.DMC_TRAINSTAT : Nat := 0x08120044
def F.DMC_TRAINSTAT_RUN : Fld := ⟨R.DMC_TRAINSTAT, 16, 8⟩
def F.DMC_TRAINSTAT_FAIL : Fld := ⟨R.DMC_TRAINSTAT, 8, 8⟩
def F.DMC_TRAINSTAT_DONE : Fld := ⟨R.DMC_TRAINSTAT, 0, 8⟩
def R.DMC_CECNT : Nat := 0x08120048
def F.DMC_CECNT_COUNT : Fld := ⟨R.DMC_CECNT, 0, 32⟩
def R.DMC_UECNT : Nat := 0x0812004C
def F.DMC_UECNT_COUNT : Fld := ⟨R.DMC_UECNT, 0, 32⟩
def R.DMC_UEADDRLO : Nat := 0x08120050
def F.DMC_UEADDRLO_ADDR : Fld := ⟨R.DMC_UEADDRLO, 0, 32⟩
def R.DMC_UEADDRHI : Nat := 0x08120054
def F.DMC_UEADDRHI_VALID : Fld := ⟨R.DMC_UEADDRHI, 31, 1⟩
def F.DMC_UEADDRHI_ADDR : Fld := ⟨R.DMC_UEADDRHI, 0, 8⟩
def R.DMC_CETHR : Nat := 0x08120058
def F.DMC_CETHR_PERSEC : Fld := ⟨R.DMC_CETHR, 0, 32⟩
def R.DMC_RTLAT : Nat := 0x0812005C
def F.DMC_RTLAT_OVER : Fld := ⟨R.DMC_RTLAT, 16, 16⟩
def F.DMC_RTLAT_MAX : Fld := ⟨R.DMC_RTLAT, 0, 16⟩
def R.DMC_SCRUB : Nat := 0x08120060
def F.DMC_SCRUB_HOURS : Fld := ⟨R.DMC_SCRUB, 0, 16⟩
def R.DMC_STATCLR : Nat := 0x08120064
def F.DMC_STATCLR_CLR : Fld := ⟨R.DMC_STATCLR, 0, 3⟩
def R.DMC_IRQ_STAT : Nat := 0x08120068
def F.DMC_IRQ_STAT_RETRAIN : Fld := ⟨R.DMC_IRQ_STAT, 5, 1⟩
def F.DMC_IRQ_STAT_TEMP : Fld := ⟨R.DMC_IRQ_STAT, 4, 1⟩
def F.DMC_IRQ_STAT_FREQ : Fld := ⟨R.DMC_IRQ_STAT, 3, 1⟩
def F.DMC_IRQ_STAT_RTLATE : Fld := ⟨R.DMC_IRQ_STAT, 2, 1⟩
def F.DMC_IRQ_STAT_CE : Fld := ⟨R.DMC_IRQ_STAT, 1, 1⟩
def F.DMC_IRQ_STAT_UE : Fld := ⟨R.DMC_IRQ_STAT, 0, 1⟩
def R.DMC_IRQ_EN : Nat := 0x0812006C
def F.DMC_IRQ_EN_RETRAIN : Fld := ⟨R.DMC_IRQ_EN, 5, 1⟩
def F.DMC_IRQ_EN_TEMP : Fld := ⟨R.DMC_IRQ_EN, 4, 1⟩
def F.DMC_IRQ_EN_FREQ : Fld := ⟨R.DMC_IRQ_EN, 3, 1⟩
def F.DMC_IRQ_EN_RTLATE : Fld := ⟨R.DMC_IRQ_EN, 2, 1⟩
def F.DMC_IRQ_EN_CE : Fld := ⟨R.DMC_IRQ_EN, 1, 1⟩
def F.DMC_IRQ_EN_UE : Fld := ⟨R.DMC_IRQ_EN, 0, 1⟩
def R.DMC_TEMP : Nat := 0x08120070
def F.DMC_TEMP_MR4 : Fld := ⟨R.DMC_TEMP, 0, 8⟩
def R.DMA_CTL : Nat := 0x08130010
def F.DMA_CTL_RESET : Fld := ⟨R.DMA_CTL, 0, 1⟩
def R.DMA_STAT : Nat := 0x08130014
def F.DMA_STAT_STOPPED : Fld := ⟨R.DMA_STAT, 31, 1⟩
def F.DMA_STAT_ERRCH : Fld := ⟨R.DMA_STAT, 16, 4⟩
def F.DMA_STAT_CODE : Fld := ⟨R.DMA_STAT, 8, 8⟩
def F.DMA_STAT_BUSY : Fld := ⟨R.DMA_STAT, 4, 1⟩
def F.DMA_STAT_CUR : Fld := ⟨R.DMA_STAT, 0, 4⟩
def R.DMA_IRQ_STAT : Nat := 0x08130018
def F.DMA_IRQ_STAT_ECC : Fld := ⟨R.DMA_IRQ_STAT, 3, 1⟩
def F.DMA_IRQ_STAT_STOPPED : Fld := ⟨R.DMA_IRQ_STAT, 2, 1⟩
def F.DMA_IRQ_STAT_CHSTOP : Fld := ⟨R.DMA_IRQ_STAT, 1, 1⟩
def F.DMA_IRQ_STAT_DONE : Fld := ⟨R.DMA_IRQ_STAT, 0, 1⟩
def R.DMA_IRQ_EN : Nat := 0x0813001C
def F.DMA_IRQ_EN_ECC : Fld := ⟨R.DMA_IRQ_EN, 3, 1⟩
def F.DMA_IRQ_EN_STOPPED : Fld := ⟨R.DMA_IRQ_EN, 2, 1⟩
def F.DMA_IRQ_EN_CHSTOP : Fld := ⟨R.DMA_IRQ_EN, 1, 1⟩
def F.DMA_IRQ_EN_DONE : Fld := ⟨R.DMA_IRQ_EN, 0, 1⟩
def R.DMA_DONE : Nat := 0x08130020
def F.DMA_DONE_CH : Fld := ⟨R.DMA_DONE, 0, 16⟩
def R.DMA_CH_CFG (c : Nat) : Nat := 0x08130100 + 0x20 * c
def F.DMA_CH_CFG_ENABLE (c : Nat) : Fld := ⟨(R.DMA_CH_CFG c), 31, 1⟩
def F.DMA_CH_CFG_FEATURE (c : Nat) : Fld := ⟨(R.DMA_CH_CFG c), 0, 16⟩
def R.DMA_CH_BASELO (c : Nat) : Nat := 0x08130104 + 0x20 * c
def F.DMA_CH_BASELO_ADDR (c : Nat) : Fld := ⟨(R.DMA_CH_BASELO c), 0, 32⟩
def R.DMA_CH_BASEHI (c : Nat) : Nat := 0x08130108 + 0x20 * c
def F.DMA_CH_BASEHI_ADDR (c : Nat) : Fld := ⟨(R.DMA_CH_BASEHI c), 0, 32⟩
def R.DMA_CH_SIZE (c : Nat) : Nat := 0x0813010C + 0x20 * c
def F.DMA_CH_SIZE_ENTRIES (c : Nat) : Fld := ⟨(R.DMA_CH_SIZE c), 0, 13⟩
def R.DMA_CH_KICK (c : Nat) : Nat := 0x08130110 + 0x20 * c
def F.DMA_CH_KICK_KICK (c : Nat) : Fld := ⟨(R.DMA_CH_KICK c), 0, 1⟩
def R.DMA_CH_STAT (c : Nat) : Nat := 0x08130114 + 0x20 * c
def F.DMA_CH_STAT_STATE (c : Nat) : Fld := ⟨(R.DMA_CH_STAT c), 30, 2⟩
def F.DMA_CH_STAT_NEXT (c : Nat) : Fld := ⟨(R.DMA_CH_STAT c), 0, 12⟩
def R.SRD_IRQ_STAT : Nat := 0x08140010
def F.SRD_IRQ_STAT_PRBS : Fld := ⟨R.SRD_IRQ_STAT, 3, 1⟩
def F.SRD_IRQ_STAT_ADAPT : Fld := ⟨R.SRD_IRQ_STAT, 2, 1⟩
def F.SRD_IRQ_STAT_LOS : Fld := ⟨R.SRD_IRQ_STAT, 1, 1⟩
def F.SRD_IRQ_STAT_PLL : Fld := ⟨R.SRD_IRQ_STAT, 0, 1⟩
def R.SRD_IRQ_EN : Nat := 0x08140014
def F.SRD_IRQ_EN_PRBS : Fld := ⟨R.SRD_IRQ_EN, 3, 1⟩
def F.SRD_IRQ_EN_ADAPT : Fld := ⟨R.SRD_IRQ_EN, 2, 1⟩
def F.SRD_IRQ_EN_LOS : Fld := ⟨R.SRD_IRQ_EN, 1, 1⟩
def F.SRD_IRQ_EN_PLL : Fld := ⟨R.SRD_IRQ_EN, 0, 1⟩
def R.SRD_LANE_CFG (l : Nat) : Nat := 0x08140100 + 0x10 * l
def F.SRD_LANE_CFG_RATE (l : Nat) : Fld := ⟨(R.SRD_LANE_CFG l), 24, 4⟩
def F.SRD_LANE_CFG_TXINV (l : Nat) : Fld := ⟨(R.SRD_LANE_CFG l), 23, 1⟩
def F.SRD_LANE_CFG_RXINV (l : Nat) : Fld := ⟨(R.SRD_LANE_CFG l), 22, 1⟩
def F.SRD_LANE_CFG_SWING (l : Nat) : Fld := ⟨(R.SRD_LANE_CFG l), 19, 3⟩
def F.SRD_LANE_CFG_PRE (l : Nat) : Fld := ⟨(R.SRD_LANE_CFG l), 16, 3⟩
def F.SRD_LANE_CFG_POST (l : Nat) : Fld := ⟨(R.SRD_LANE_CFG l), 12, 4⟩
def R.SRD_LANE_CTL (l : Nat) : Nat := 0x08140104 + 0x10 * l
def F.SRD_LANE_CTL_LOOP (l : Nat) : Fld := ⟨(R.SRD_LANE_CTL l), 8, 2⟩
def F.SRD_LANE_CTL_PRBS (l : Nat) : Fld := ⟨(R.SRD_LANE_CTL l), 4, 2⟩
def F.SRD_LANE_CTL_PD (l : Nat) : Fld := ⟨(R.SRD_LANE_CTL l), 0, 1⟩
def R.SRD_LANE_STAT (l : Nat) : Nat := 0x08140108 + 0x10 * l
def F.SRD_LANE_STAT_EYEH (l : Nat) : Fld := ⟨(R.SRD_LANE_STAT l), 24, 8⟩
def F.SRD_LANE_STAT_EYEV (l : Nat) : Fld := ⟨(R.SRD_LANE_STAT l), 16, 8⟩
def F.SRD_LANE_STAT_ADAPTED (l : Nat) : Fld := ⟨(R.SRD_LANE_STAT l), 4, 1⟩
def F.SRD_LANE_STAT_LOWPWR (l : Nat) : Fld := ⟨(R.SRD_LANE_STAT l), 3, 1⟩
def F.SRD_LANE_STAT_PLLLOCK (l : Nat) : Fld := ⟨(R.SRD_LANE_STAT l), 2, 1⟩
def F.SRD_LANE_STAT_CDRLOCK (l : Nat) : Fld := ⟨(R.SRD_LANE_STAT l), 1, 1⟩
def F.SRD_LANE_STAT_LOS (l : Nat) : Fld := ⟨(R.SRD_LANE_STAT l), 0, 1⟩
def R.SRD_LANE_PRBSERR (l : Nat) : Nat := 0x0814010C + 0x10 * l
def F.SRD_LANE_PRBSERR_COUNT (l : Nat) : Fld := ⟨(R.SRD_LANE_PRBSERR l), 0, 32⟩
def R.PIN_GPIO_OUT : Nat := 0x08150010
def F.PIN_GPIO_OUT_PAD : Fld := ⟨R.PIN_GPIO_OUT, 0, 32⟩
def R.PIN_GPIO_OE : Nat := 0x08150014
def F.PIN_GPIO_OE_PAD : Fld := ⟨R.PIN_GPIO_OE, 0, 32⟩
def R.PIN_GPIO_IN : Nat := 0x08150018
def F.PIN_GPIO_IN_PAD : Fld := ⟨R.PIN_GPIO_IN, 0, 32⟩
def R.PIN_GPIO_RISE : Nat := 0x0815001C
def F.PIN_GPIO_RISE_PAD : Fld := ⟨R.PIN_GPIO_RISE, 0, 32⟩
def R.PIN_GPIO_FALL : Nat := 0x08150020
def F.PIN_GPIO_FALL_PAD : Fld := ⟨R.PIN_GPIO_FALL, 0, 32⟩
def R.PIN_GPIO_EDGE : Nat := 0x08150024
def F.PIN_GPIO_EDGE_PAD : Fld := ⟨R.PIN_GPIO_EDGE, 0, 32⟩
def R.PIN_GPIO_SAFEVAL : Nat := 0x08150028
def F.PIN_GPIO_SAFEVAL_PAD : Fld := ⟨R.PIN_GPIO_SAFEVAL, 0, 32⟩
def R.PIN_GPIO_SAFEEN : Nat := 0x0815002C
def F.PIN_GPIO_SAFEEN_PAD : Fld := ⟨R.PIN_GPIO_SAFEEN, 0, 32⟩
def R.PIN_IRQ_STAT : Nat := 0x08150030
def F.PIN_IRQ_STAT_PWR : Fld := ⟨R.PIN_IRQ_STAT, 2, 1⟩
def F.PIN_IRQ_STAT_SAFEN : Fld := ⟨R.PIN_IRQ_STAT, 1, 1⟩
def F.PIN_IRQ_STAT_GPIO : Fld := ⟨R.PIN_IRQ_STAT, 0, 1⟩
def R.PIN_IRQ_EN : Nat := 0x08150034
def F.PIN_IRQ_EN_PWR : Fld := ⟨R.PIN_IRQ_EN, 2, 1⟩
def F.PIN_IRQ_EN_SAFEN : Fld := ⟨R.PIN_IRQ_EN, 1, 1⟩
def F.PIN_IRQ_EN_GPIO : Fld := ⟨R.PIN_IRQ_EN, 0, 1⟩
def R.PIN_PWRSTAT : Nat := 0x08150038
def F.PIN_PWRSTAT_RAILS : Fld := ⟨R.PIN_PWRSTAT, 5, 1⟩
def F.PIN_PWRSTAT_VIOM33 : Fld := ⟨R.PIN_PWRSTAT, 4, 1⟩
def F.PIN_PWRSTAT_CARRY_B : Fld := ⟨R.PIN_PWRSTAT, 3, 1⟩
def F.PIN_PWRSTAT_CARRY_A : Fld := ⟨R.PIN_PWRSTAT, 2, 1⟩
def F.PIN_PWRSTAT_VINB_OK : Fld := ⟨R.PIN_PWRSTAT, 1, 1⟩
def F.PIN_PWRSTAT_VINA_OK : Fld := ⟨R.PIN_PWRSTAT, 0, 1⟩
def R.PIN_VINMON : Nat := 0x0815003C
def F.PIN_VINMON_VINB : Fld := ⟨R.PIN_VINMON, 16, 16⟩
def F.PIN_VINMON_VINA : Fld := ⟨R.PIN_VINMON, 0, 16⟩
def R.PIN_FIXIN : Nat := 0x08150040
def F.PIN_FIXIN_PAD : Fld := ⟨R.PIN_FIXIN, 0, 32⟩
def R.PIN_PAD_CFG (n : Nat) : Nat := 0x08150100 + 0x4 * n
def F.PIN_PAD_CFG_PULL (n : Nat) : Fld := ⟨(R.PIN_PAD_CFG n), 12, 2⟩
def F.PIN_PAD_CFG_DRIVE (n : Nat) : Fld := ⟨(R.PIN_PAD_CFG n), 10, 2⟩
def F.PIN_PAD_CFG_SLOW (n : Nat) : Fld := ⟨(R.PIN_PAD_CFG n), 9, 1⟩
def F.PIN_PAD_CFG_FUNC (n : Nat) : Fld := ⟨(R.PIN_PAD_CFG n), 0, 8⟩

end Sys2Proof.Machine
end

