-- ==== Sys2Proof/Machine/RegReset.lean ====
section
/-! DEFINITION. What every register reads after reset: the block headers (R37), the fault source
table (R467), the alarm defaults (R89) and, for every other register, the reset value of its row in
the register map. -/

namespace Sys2Proof.Machine

/-- The fault source table of R467: sources, default severity, minimum severity. -/
def srcRows : List (List Nat × Nat × Nat) := [
  ([0], 4, 3),
  ([1], 4, 4),
  ([2], 5, 5),
  ([3, 11], 1, 0),
  ([4, 8, 9, 10], 0, 0),
  ([12], 3, 1),
  ([16, 17, 18], 3, 0),
  ([19, 20], 4, 3),
  ([21], 4, 1),
  ([22, 27], 1, 0),
  ([23, 26], 0, 0),
  ([24], 4, 3),
  ([25], 3, 1),
  ([32], 3, 3),
  ([33], 1, 0),
  ([34, 35], 0, 0),
  ([36, 37, 39, 41, 42], 1, 0),
  ([38, 40], 0, 0),
  ([43], 3, 3),
  ([44, 45, 47], 0, 0),
  ([46], 1, 0),
  ([48, 66, 74, 80, 126], 3, 2),
  ([52, 53, 64, 65, 78, 96], 2, 2),
  ([54, 55, 62, 67, 68], 0, 0),
  ([60, 61, 75, 76], 1, 0),
  ([72, 73, 77], 0, 0),
  ([81, 83, 85], 0, 0),
  ([82, 84, 86, 87], 1, 0),
  ([88, 93, 97], 0, 0),
  ([89, 91, 92, 99], 1, 0),
  ([90, 98], 3, 2),
  ([94], 4, 3),
  ([104, 106, 108, 110, 112, 114, 116, 118], 1, 0),
  ([105, 107, 109, 111, 113, 115, 117, 119], 2, 2),
  ([120, 121, 123, 125], 0, 0),
  ([122], 2, 2),
  ([124, 127], 1, 0),
  ([128, 132, 135, 136, 139, 143], 1, 0),
  ([129, 130, 131, 133, 134, 137, 138, 140, 141, 142], 0, 0),
  ([144, 146, 151], 1, 0),
  ([145, 147, 150], 0, 0),
  ([148, 149, 172], 3, 1),
  ([152, 155, 156, 158, 159], 1, 0),
  ([153, 154, 157], 0, 0),
  ([160, 164, 166], 1, 0),
  ([161, 162, 163, 165, 167], 0, 0),
  ([168], 4, 4),
  ([169, 171, 173, 174, 176, 178, 180], 1, 0),
  ([170, 177, 181], 0, 0),
  ([188, 189, 191], 1, 0),
  ([190, 193], 3, 1),
  ([192, 197], 0, 0),
  ([194, 195], 1, 0),
  ([196], 4, 4),
  ([200, 201, 202, 203, 204, 205, 206, 207, 208, 209, 210, 211, 212, 213, 214, 215, 216, 217, 218, 219, 220, 221, 222, 223, 224, 225, 226, 227, 228, 229, 230, 231], 0, 0)]

/-- Default and minimum severity of a used source, `none` for an unused one (R467). -/
def srcInfo (n : Nat) : Option (Nat × Nat) :=
  (srcRows.find? (fun r => r.1.contains n)).map (fun r => r.2)

/-- FLT_SRCn_CFG at reset: MIN, DEF, ISEV = DEF, USED, SEV = DEF (R467). -/
def srcCfgReset (n : Nat) : Nat :=
  match srcInfo n with
  | some (d, m) => m * 0x1000000 + d * 0x10000 + d * 0x100 + 0x8 + d
  | none => 0

/-- SEC_ALARM_CFGn at reset: FILTER 10, erase level and enable of R89's table. -/
def alarmCfgReset (n : Nat) : Nat :=
  0xA0000 + (if n < 6 then 0x20 else 0) + (if n < 3 then 0 else 1)

/-- Block number and block base of a register-space address of R34, `none` outside. -/
def blockOf (a : Nat) : Option Nat :=
  if 0x02000000 ≤ a ∧ a < 0x02070000 then some ((a - 0x02000000) / 0x10000)
  else if 0x08000000 ≤ a ∧ a < 0x08160000 then some (7 + (a - 0x08000000) / 0x10000)
  else none

/-- Base address of block `b` (R34). -/
def blockBase (b : Nat) : Nat :=
  if b < 7 then 0x02000000 + 0x10000 * b else 0x08000000 + 0x10000 * (b - 7)

/-- Island code of block `b` (R14): SAF 0, NET 2, RAS 3, FIR 4, VIS 5, MEM 6. -/
def islandOf (b : Nat) : Nat :=
  if b < 7 ∨ b = 28 then 0
  else if b = 7 ∨ (22 ≤ b ∧ b ≤ 24) ∨ b = 27 then 2
  else if b ≤ 13 then 3
  else if b ≤ 17 then 4
  else if b ≤ 21 then 5
  else 6

/-- Whether offset `o` from a row's base is an element of the array with these dimensions. -/
def dimsHit : List (Nat × Nat) → Nat → Bool
  | [], o => o == 0
  | (s, c) :: r, o => o / s < c && dimsHit r (o % s)

/-- The register row at an address of register space, `none` where no register is defined (R35). -/
def rowAt (a : Nat) : Option RegRow :=
  match blockOf a with
  | none => none
  | some b => (regMapOf b).find? (fun r => r.base ≤ a && dimsHit r.dims (a - r.base))

/-- What the register at address `a` reads after reset; 0 where no register is defined (R35). -/
def regReset (a : Nat) : Word :=
  match blockOf a with
  | none => 0
  | some b =>
    if a = blockBase b then BitVec.ofNat 32 (0xB80B0000 + 0x100 * islandOf b + b)
    else if b = 4 ∧ 0x02040400 ≤ a ∧ a < 0x02040800 then
      BitVec.ofNat 32 (srcCfgReset ((a - 0x02040400) / 4))
    else if 0x02020020 ≤ a ∧ a < 0x02020040 then
      BitVec.ofNat 32 (alarmCfgReset ((a - 0x02020020) / 4))
    else if R.DMC_BKMASK 0 ≤ a ∧ a ≤ R.DMC_BKMASK 3 then
      BitVec.ofNat 32 (1 <<< ((a - R.DMC_BKMASK 0) / 4))
    else if a = R.PIN_PWRSTAT then 0x2F#32
    else if R.PIN_PAD_CFG 32 ≤ a ∧ a ≤ R.PIN_PAD_CFG 63 then 0x4FF#32
    else match rowAt a with
      | some r => BitVec.ofNat 32 r.reset
      | none => 0

end Sys2Proof.Machine
end

