-- ==== Sys2Proof/Machine/State.lean ====
section
/-! DEFINITION. The state of the PB8, as plain data: the registers of every block under their own
addresses, the active sets of the shadowed groups, the memories, and what each block holds beside
its registers; the queue of the commands that wait; the reset state. -/

namespace Sys2Proof.Machine

/-- The registers, as a list of (address, value) in one canonical form: addresses strictly rising,
no entry equal to what the register reads after reset. -/
abbrev Regs := List (Nat × Word)

/-- Bytes by address in one canonical form: addresses strictly rising, no entry equal to what an
unlisted address reads as. -/
abbrev Mem := List Host.Cell

/-- What leaves the part: answers to requesters and messages on its links, newest first. -/
inductive Out where
  /-- answer to a register access: requester code, address, status, value read -/
  | reg (req addr status value : Nat)
  /-- a claim's answer to a context of the interrupt controller -/
  | claim (ctx id : Nat)
  /-- a mailbox answer of a channel: status and the answer's words after word 0 -/
  | mbx (chan status : Nat) (words : List Nat)
  /-- a VJP message on a session slot: type, sequence number and body bytes -/
  | vjp (sess type seq : Nat) (body : List Byte)
  /-- a head-link block or command on a lane: code and body -/
  | hlk (lane code : Nat) (body : List Nat)
  /-- a tile-lane block: code and body -/
  | tile (lane code : Nat) (body : List Nat)
  /-- a twin-link message: type and body -/
  | twn (type : Nat) (body : List Nat)
  /-- a fabric packet on a port: type and body -/
  | pgf (port type : Nat) (body : List Nat)
  /-- an Ethernet or PTP frame on a port: kind and body -/
  | eth (port kind : Nat) (body : List Nat)
  /-- a lamp-chain word: chain and body -/
  | lamp (chain : Nat) (body : List Nat)
  /-- an edge or pulse on a pin: pin number and level -/
  | pin (pin level : Nat)
  /-- bits shifted out of JTAG -/
  | jtag (instr : Nat) (body : List Nat)
  /-- a tag or status from the MAC unit to a requester: status and tag bytes -/
  | mac (req status : Nat) (tag : List Byte)
  deriving DecidableEq, Repr

/-- A fault report on its way to the collector (R460): source, DETAIL, injected or not. -/
structure Rep where
  src : Nat
  detail : Nat := 0
  inj : Bool := false
  deriving DecidableEq, Repr

/-! ### ITK and JNL: sessions, items, the page store -/

/-- A VJP message the part sends that uses up a sequence number (R104). -/
structure TxMsg where
  seq : Nat
  type : Nat
  body : List Byte
  deriving DecidableEq, Repr

/-- One session slot beside its registers (R99 to R104): the session key, the next SEQ expected and
the messages held out of order, the next SEQ to send, the messages unacknowledged and those that
wait, the peer's SACK, the present retransmission interval and the expiries in a row. -/
structure Sess where
  key : List Byte := []
  ack : Nat := 1
  held : List (Nat × VjpMsg) := []
  txNext : Nat := 1
  unacked : List TxMsg := []
  waiting : List TxMsg := []
  peerSack : Nat := 0
  interval : Nat := 0
  expiries : Nat := 0
  ackDue : Bool := false
  /-- the peer's ACK; when its latest valid message came; when the retransmission timer was last started -/
  peerAck : Nat := 1
  lastC : Nat := 0
  timerC : Nat := 0
  /-- the fabric address that the latest valid host message came from (R412); 0xFFFF for Ethernet -/
  via : Nat := 0xFFFF
  deriving DecidableEq, Repr

/-- A field raster in the field store (R206, R207): template, first byte, first page column, first
item line, columns, lines, bytes a line. -/
structure Raster where
  tpl : Nat
  addr : Nat
  x : Nat
  y : Nat
  w : Nat
  h : Nat
  stride : Nat
  /-- for a code, its elements in the unrotated unit grid: column, row, width, height, dark, and the
  number from 1 of its codeword, or 0 -/
  elems : List (Nat × Nat × Nat × Nat × Bool × Nat) := []
  /-- unit columns and rows; the error-correction block of each codeword; check words a block -/
  units : Nat × Nat := (0, 0)
  blk : List Nat := []
  ecc : Nat := 0
  deriving DecidableEq, Repr

/-- An item the part holds: the fields of its SUBMIT (R107), its record slot, its state (R115), its
binding (R113), and what assembly, firing and inspection have found of it. -/
structure Item where
  id : Nat
  zseq : Nat
  zone : Nat
  trig : Nat
  trigArg : Nat
  lines : Nat
  lateOk : Bool
  link : Nat
  offset : Nat
  page : Nat
  blocks : Nat
  fields : List Byte
  sess : Nat
  slot : Nat
  state : Nat
  reason : Nat := 0
  firstPos : Nat := 0
  defects : Nat := 0
  /-- its field rasters are written -/
  rendered : Bool := false
  rasters : List Raster := []
  degraded : Bool := false
  /-- inspection has completed, or does not apply -/
  inspected : Bool := false
  /-- inspection counts as disabled for it; a graded field fell below MINGRADE (R352, R353) -/
  insVoid : Bool := false
  gradeBad : Bool := false
  /-- the FINAL word could not be written (R124): no FINAL is sent and the item is not fired -/
  stuck : Bool := false
  /-- the session slot a FINAL was last sent on -/
  finalOn : Option Nat := none
  /-- the partner holds the FINAL word too (R384) -/
  finalJacked : Bool := false
  /-- bound since the last device reset; a reject request has been made (R248) -/
  bound : Bool := false
  rejected : Bool := false
  /-- lines assembled on each row, counting every pass: row, count -/
  asm : List (Nat × Nat) := []
  /-- a line has entered a pan; abandoned under R188 or R160: later lines carry 0 -/
  entered : Bool := false
  abandoned : Bool := false
  /-- head groups that treat the item's nozzles as out (R291), and head groups with an event of it, as
  bit masks -/
  deg : Nat := 0
  hgIn : Nat := 0
  /-- heads that have fired the item's last line -/
  lastFired : List Nat := []
  /-- faults raised once per item: bit 0 clip, 1 thinned, 2 slip, 3 lost tone, 4 low lead, 5 roll -/
  once : Nat := 0
  deriving DecidableEq, Repr

/-- The SUBMIT that is RECEIVED while its record is written (R111, R112), with its SUBMIT as (session slot, SID,
SEQ), and whether the partner's JACK is there or not needed. -/
structure Receiving where
  item : Item
  who : Nat × Nat × Nat
  jacked : Bool
  deriving DecidableEq, Repr

/-- A brine block of a page (R108): its total length, the byte ranges that have arrived, its DRAM
address, whether it is complete, and its latest DATA as (session slot, SID, SEQ). -/
structure Blk where
  idx : Nat
  total : Nat
  got : List (Nat × Nat)
  base : Nat
  complete : Bool
  who : Nat × Nat × Nat
  deriving DecidableEq, Repr

/-- The fields of a brine stream header (R131). -/
structure StreamHdr where
  planes : Nat
  depth : Nat
  lines : Nat
  bw : Nat
  bh : Nat
  blocks : Nat
  widths : List Nat
  deriving DecidableEq, Repr

/-- A page of the page store (R108): its blocks, the stream header once it has passed, and the time
since which its HOLD runs (the later of its last DATA and its last item's final state). -/
structure Page where
  page : Nat
  blks : List Blk := []
  hdr : Option StreamHdr := none
  since : Nat := 0
  deriving DecidableEq, Repr

/-- ITK and JNL beside their registers. -/
structure ItkSt where
  sess : List Sess := List.replicate 8 {}
  items : List Item := []
  receiving : Option Receiving := none
  /-- SUBMITs that wait for the one before them (R111): session slot and message -/
  submitQ : List (Nat × VjpMsg) := []
  pages : List Page := []
  /-- refusals kept for a SUBMIT to come (R119): LINK, ITEM_ID, when they came -/
  refusals : List (Nat × Nat × Nat) := []
  /-- per zone, the bound items that count as predecessors, newest first: item ID, last line -/
  bound : List (List (Nat × Nat)) := List.replicate 16 []
  /-- per zone, the PRINT_GO input of the latest item bound by PRINT_GO -/
  lastPg : List (Option Nat) := List.replicate 16 none
  quar : List Nat := []
  lastSlot : Nat := 0
  /-- when the latest messages were dropped under R99, oldest first (source 45) -/
  authC : List Nat := []
  /-- EVENTs of recovery that wait for a session (R126): code, zone, ARG0, ARG1 -/
  events : List (Nat × Nat × Nat × Nat) := []
  deriving DecidableEq, Repr

/-! ### SAF: system control, loader, trust -/

/-- System control beside its registers (R18, R44 to R50). -/
structure SysSt where
  mtimecmp : List Nat := List.replicate 4 (2 ^ 64 - 1)
  mtip : List Bool := List.replicate 4 false
  /-- interrupt IDs claimed and not yet completed -/
  claimed : List Nat := []
  /-- level of RST_N and of SAFE_N -/
  rstN : Bool := true
  safeN : Bool := true
  off : Bool := false
  hartsRun : Bool := false
  ctlEntry : Nat := 0
  /-- the boot ROM has found a ROM or fuse error (R48) -/
  romBad : Bool := false
  /-- the hart watchdog has expired once without a kick since (R44) -/
  hwdFirst : Bool := false
  /-- when the hart watchdog and the trusted watchdog were last kicked or started -/
  hwdC : Nat := 0
  twdC : Nat := 0
  /-- the mailbox channel that the round robin of R85 looks at first -/
  mbxNext : Nat := 0
  /-- a CTL reset has stopped the harts, and the reload of their firmware is still to come (R45) -/
  ctlDue : Bool := false
  refclk : Bool := true
  /-- µs and start of the running start, for SYS_STARTUS -/
  startC : Nat := 0
  /-- SAFE was entered by a JTAG instruction (R94), or by a FATAL fault -/
  safeJtag : Bool := false
  safeFatal : Bool := false
  /-- a FATAL report that waits for the journal before its harvest (R472) -/
  harvestDue : Option Nat := none
  harvestTwd : Bool := false
  /-- C and device time at that fault -/
  harvestC : Nat := 0
  harvestT : Int := 0
  harvestPhase : Nat := 0
  /-- C when the harvest that runs began, and its status so far (R474) -/
  harvestFrom : Nat := 0
  harvestCode : Nat := 0
  /-- the boundary instruction that waits for SAFE (R94), as its code -/
  jtagInstr : Nat := 0xFF
  /-- detail capture open, and the records still to take before the ring freezes (R462) -/
  capOpen : Bool := true
  capLeft : Option Nat := none
  histSeq : Nat := 0
  lostBefore : Bool := false
  /-- both feeds have fallen below 2.9 V (R480) -/
  powerFail : Bool := false
  /-- die sensor sources raised and not yet back (R468): bit 0 WARN, 1 HOT, 2 COLD -/
  dieOver : Nat := 0
  deriving DecidableEq, Repr

/-- A granted claim (R65): class, feature, first index, count, made by the image or at run time. -/
structure Claim where
  cls : Nat
  feature : Nat
  first : Nat
  num : Nat
  image : Bool
  deriving DecidableEq, Repr

/-- The configuration loader (R59 to R69): candidates in order, the slot being loaded, the record
index and the entries left of a register list that waits at a POLL with the values saved for its
undo, the claims, the disabled features, and the image's header facts. -/
structure CfgSt where
  cands : List Nat := []
  slot : Nat := 0
  onDieDone : Bool := false
  polls : Option (Nat × Nat × List (Nat × Word)) := none
  claims : List Claim := []
  disabled : List Nat := []
  seq : Nat := 0
  floor : Nat := 0
  keySlot : Nat := 0
  zkey : Nat := 0
  fwVersion : Nat := 0
  lenient : Bool := false
  fwRanges : List (Nat × Nat) := []
  /-- the update (R72): slot, length, SEQ, FLOOR; erase ended; channel whose UPD_DATA is running -/
  upd : Option (Nat × Nat × Nat × Nat) := none
  updErased : Bool := false
  updData : Option Nat := none
  updClosed : Bool := false
  /-- image bytes taken from UPD_DATA and not yet written to flash, by offset -/
  updHeld : Mem := []
  /-- nozzle ranges of 0x2000 records (R220); transfer tables loaded (R219) -/
  named : List (Nat × Nat) := []
  tts : List Nat := []
  /-- a record event has been logged in this start (R68) -/
  logged : Bool := false
  deriving DecidableEq, Repr

/-- A key-store slot (R82): KIND, USE, key bytes. -/
structure Key where
  slot : Nat
  kind : Nat
  use : Nat
  key : List Byte
  deriving DecidableEq, Repr

/-- The fuse array (R78), by field. -/
structure Fuses where
  uid : Nat := 0
  rootKey : Nat := 0
  keyHash : List Nat := [0, 0, 0, 0]
  slotRevoke : List Bool := [false, false, false, false]
  zkeyRevoke : List Bool := [false, false]
  debugKill : List Bool := [false, false, false]
  rootKill : List Bool := [false, false, false]
  trims : Nat := 0
  deriving DecidableEq, Repr

/-- SEC beside its registers: fuses, key store, alarm inputs active now, MESH mismatch, JTAG. -/
structure SecSt where
  fuses : Fuses := {}
  keys : List Key := []
  active : List Nat := []
  meshBad : Bool := false
  nonce : Nat := 0
  unlockFails : Nat := 0
  rights : Nat := 0
  boundary : List Nat := []
  deriving DecidableEq, Repr

/-! ### POS -/

/-- An encoder beside its registers (R232 to R242): the levels of A and B last taken, RAW, the
high-water mark H with 32 fractional bits, the counts since the last reversal as (RAW, time in ps),
newest first, the direction of the last count, whether the second count after standstill is still to
come, the extreme RAW that DIR is judged against, the time of the last count, the period before it,
and the speed as a change of P (32 fractional bits) over a time in ps. -/
structure Enc where
  a : Bool := false
  b : Bool := false
  raw : Int := 0
  h : Nat := 0
  hist : List (Int × Nat) := []
  lastUp : Option Bool := none
  lowNext : Bool := false
  extreme : Int := 0
  lastT : Option Nat := none
  period : Nat := 0
  dp : Int := 0
  dt : Nat := 1
  deriving DecidableEq, Repr

/-- A REJECT output (R248 to R250): its queue in position order as (zone, position), the pulses
that run as (zone, end position, end time in ps), and whether SAFE or start-up holds it. -/
structure RejOut where
  queue : List (Nat × Nat) := []
  pulses : List (Nat × Nat × Nat) := []
  asserted : Bool := true
  deriving DecidableEq, Repr

/-- An emulated encoder output (R251, R252): the target count last followed, the counts owed, and the
time of the last output edge in ps. -/
structure Emu where
  target : Int := 0
  owed : Int := 0
  lastT : Option Nat := none
  deriving DecidableEq, Repr

/-- POS beside its registers. -/
structure PosSt where
  encs : List Enc := List.replicate 4 {}
  rejs : List RejOut := List.replicate 2 {}
  emus : List Emu := List.replicate 2 {}
  /-- position an armed compare unit matches at -/
  cmpAt : List Nat := List.replicate 16 0
  cmpPad : List Bool := List.replicate 16 false
  /-- position of the last taken edge of each PRINT_GO input, on its LENC encoder -/
  pgLast : List (Option Nat) := List.replicate 4 none
  deriving DecidableEq, Repr

/-! ### BRD, BRC, IMP, NZM, CAL: the RAS island -/

/-- An open block of a decompressor (R154, R157, R158): the item, row and zone it serves, its page and index,
its width and depth, payload bytes fetched and used, and whether the decoder waits for input. -/
structure OpenBlk where
  item : Nat
  row : Nat
  zone : Nat
  page : Nat
  idx : Nat
  hist : Nat
  total : Nat
  fetched : Nat := 0
  used : Nat := 0
  waiting : Bool := false
  deriving DecidableEq, Repr

/-- A compressor job (R163): the job registers as copied at GO, the next block, the bytes written. -/
structure BrcJob where
  src : Nat
  stride : Nat
  width : Nat
  lines : Nat
  bw : Nat
  bh : Nat
  depth : Nat
  effort : Nat
  planes : Nat
  next : Nat := 0
  bytes : Nat := 0
  deriving DecidableEq, Repr

/-- BRD, BRC and IMP beside their registers. -/
structure RasSt where
  /-- open blocks of each decompressor; whether it is stopped for lack of room (R159) -/
  opened : List (List OpenBlk) := List.replicate 8 []
  stopped : List Bool := List.replicate 8 false
  jobs : List BrcJob := []
  /-- items that IMP has still to render, in the order of acceptance (R209) -/
  impQ : List Nat := []
  /-- the item in work: its ID, the instant T of its dates (PTP seconds), waiting for a tag, waiting
  for field-store room -/
  impWork : Option (Nat × Nat) := none
  impTag : Bool := false
  /-- tags that the MAC unit has given for the item in work: template, tag bytes -/
  impTags : List (Nat × List Byte) := []
  impRoom : Bool := false
  /-- fonts loaded (R199): font number and its entry's address in DRAM, with the body's address -/
  fonts : List (Nat × Nat × Nat) := []
  /-- bytes of the font store handed out -/
  fontTop : Nat := 0
  deriving DecidableEq, Repr

/-- A calibration pattern bound in a zone (R229): its heads, position of line 0, temperatures at
binding, and the lines assembled on each row. -/
structure Pattern where
  zone : Nat
  heads : List Nat
  firstPos : Nat
  temps : List (Nat × Nat)
  asm : List (Nat × Nat) := []
  deriving DecidableEq, Repr

/-- NZM and CAL beside their registers: nozzle states (R215), the trim banks (R214), the state changes
taken and not yet applied (R221), the rake's corrections, settling marks and probes (R223, R226, R228),
patterns bound (R229). Sparse maps list no entry equal to the default 0. -/
structure NzmSt where
  states : List (Nat × Nat) := []
  active : List (Nat × Int) := []
  next : List (Nat × Int) := []
  /-- changes: nozzle, and 0 declared out, 1 firmware OK, 2 firmware OUT, 3 probe, 4 probe pass, 5 probe fail -/
  changes : List (Nat × Nat) := []
  corr : List (Nat × Int) := []
  settle : List (Nat × Nat) := []
  /-- nozzles that inspection made OUT: nozzle, time, delay in s -/
  outs : List (Nat × Nat × Nat) := []
  delays : List (Nat × Nat) := []
  heldHeads : List Nat := []
  /-- temperature last used for each head, 1/16 °C -/
  temps : List (Nat × Int) := []
  satAt : List (Nat × Nat) := []
  maxout : List Nat := []
  patterns : List Pattern := []
  /-- temperature-set arrays loaded (R224): head, DRAM address of its entry -/
  sets : List (Nat × Nat) := []
  setsBase : Nat := 0
  deriving DecidableEq, Repr

/-! ### FIR, HLK and LMP -/

/-- A mapped line of one head (R256): item (0 for a calibration pattern), zone, line, pass, its fire
position in 1/16 sub-line modulo 2^52, and its nozzles with a select: head nozzle, select, rank;
whether it is the item's last line on its row, and the STEPSEQ it was mapped under. -/
structure MLine where
  item : Nat
  zone : Nat
  row : Nat
  y : Nat
  pass : Nat
  f : Nat
  sels : List (Nat × Nat × Nat)
  last : Bool
  step : Nat := 0
  deriving DecidableEq, Repr

/-- An event in a head's pan (R257, R263): its fire position, the lines it carries, its selects by
head nozzle, its count, its set, throw, whether it fires no drop, whether its command is not sent
(R270), the frames sent on each lane (lane, next nozzle), the frames to send again, and the instant
its command left, in ps. -/
structure PanEv where
  f : Nat
  zone : Nat
  lines : List MLine
  sel : List (Nat × Nat)
  seq : Nat
  act : Nat
  throw : Nat
  noDrop : Bool := false
  silent : Bool := false
  /-- order in which events entered the pans -/
  ent : Nat := 0
  sent : List (Nat × Nat) := []
  again : List (Nat × Nat) := []
  left : Option Nat := none
  deriving DecidableEq, Repr

/-- A fired-line record on its way to VIS (R269), with the selects it was fired with. -/
structure FiredRec where
  head : Nat
  seq : Nat
  time : Nat
  f : Nat
  act : Nat
  lines : List MLine
  sel : List (Nat × Nat)
  deriving DecidableEq, Repr

/-- A head beside its registers: events formed and events whose FIRE has been sent since CONFIG_DONE
(R278, R376), its lines waiting for the sluice, its pan, its last command's instant, the energy
accumulators and window ring of the sluice (R303, R304), whether a TEMP_UP has come
since the link was last UP and since CONFIG_DONE, and the FIREs
that wait for their FIRED_UP (R284). -/
structure Head where
  formed : Nat := 0
  sent : Nat := 0
  queue : List MLine := []
  pan : List PanEv := []
  lastCmd : Option Nat := none
  /-- items with a line in the event that left last (R390) -/
  lastItems : List Nat := []
  acc : List (Nat × Nat) := []
  ring : List (Nat × Nat) := []
  tempSeen : Bool := false
  tempEver : Bool := false
  tempT : Nat := 0
  vsup : Nat := 0
  awaiting : List (Nat × Nat × List MLine) := []
  deriving DecidableEq, Repr

/-- A head lane beside its registers (R289, R290): the step of the attempt, its start, echoes sent
(tag, time in ps) and the least round trip in ps, FSEQ, errors of the present second. -/
structure Lane where
  step : Nat := 0
  startC : Nat := 0
  echoes : List (Nat × Nat) := []
  echoUps : Nat := 0
  trip : Option Nat := none
  fseq : Nat := 0
  errs : Nat := 0
  errC : Nat := 0
  upC : Nat := 0
  blocks : Nat := 0
  deriving DecidableEq, Repr

/-- FIR, SLU and HLK beside their registers. -/
structure FirSt where
  heads : List Head := List.replicate 64 {}
  recs : List FiredRec := []
  /-- records dropped (R269) whose lines INS has not yet made VOID -/
  lostRecs : List FiredRec := []
  lanes : List Lane := List.replicate 24 {}
  /-- the command that is pending: its CTAG, the heads still to answer, when it was sent -/
  cmdTag : Nat := 0
  cmdWait : List Nat := []
  cmdT : Nat := 0
  /-- zones whose margin lies below THRESH (R309) -/
  lowMargin : List Nat := []
  floorSince : Option Nat := none
  slewT : Nat := 0
  ents : Nat := 0
  deriving DecidableEq, Repr

/-- A lamp string (R361 to R369), by chain × 128 + board × 4 + string: its map entry, its level and
fade in the shadow, active and staging sets, its permanent mask and LEDs bypassed, its findings, the
words its board holds staged, what is in force and the fade toward it, its dose in IDAC × ns / 4096,
and the candidates of a search with the LEDs that its pulse shunts. -/
structure LmpStr where
  ix : Nat
  mapped : Bool := false
  cls : Nat := 0
  mode : Nat := 0
  standby : Nat := 0
  mapL : Nat := 0
  mapF : Nat := 0
  shL : Nat := 0
  shF : Nat := 0
  acL : Nat := 0
  acF : Nat := 0
  stL : Nat := 0
  stF : Nat := 0
  perm : Nat := 0
  byp : Nat := 0
  openS : Bool := false
  shortS : Bool := false
  undiag : Bool := false
  undiagEver : Bool := false
  meas : Bool := false
  /-- the last LEVEL word sent and the one in force, and the last SHUNT mask sent -/
  word : Option Nat := none
  forced : Option Nat := none
  mask : Nat := 0
  /-- in force: MODE, IDAC and DUTY, from IDAC and DUTY, over so many ns, since a time -/
  modeOn : Nat := 0
  idac : Nat := 0
  duty : Nat := 0
  idac0 : Nat := 0
  duty0 : Nat := 0
  fadeNs : Nat := 0
  since : Nat := 0
  dose : Nat := 0
  search : Option (List Nat × List Nat) := none
  deriving DecidableEq, Repr

/-- A lamp board (R358, R363, R368): F, F as last staged, TEMP, F held at 0, status words bad in a
row, and its identity. -/
structure LmpBoard where
  f : Nat := 256
  fSt : Nat := 256
  temp : Int := 0
  hot : Bool := false
  ovt : Bool := false
  bad : Nat := 0
  kind : Nat := 0
  strings : Nat := 0
  leds : Nat := 0
  deriving DecidableEq, Repr

/-- A lamp chain: the frame in progress and the one latched before it (a word for each board), the
step of its bring-up, whether the lamp-map levels have been staged since, the words still to stage,
whether an APPLY ends the set, whether the set came from an armed shadow, words to send again, DIAG
words to send, whether the latch is held, strobes that wait as (start, stop) in ps, and those of the
strobe that is on. -/
structure LmpChain where
  up : Bool := false
  cur : List Nat := []
  prev : List Nat := []
  ident : Nat := 0
  begun : Bool := false
  staging : Bool := false
  armedSet : Bool := false
  restage : Bool := false
  pend : List (Nat × Nat) := []
  urgent : List (Nat × Nat) := []
  resend : List (Nat × Nat) := []
  diag : List (Nat × Nat) := []
  held : Bool := false
  strobes : List (Nat × Nat) := []
  lat : Option (Nat × Nat) := none
  deriving DecidableEq, Repr

/-- LMP beside its registers. -/
structure LmpSt where
  strs : List LmpStr := []
  boards : List (List LmpBoard) := List.replicate 4 (List.replicate 32 {})
  chains : List LmpChain := List.replicate 4 {}
  /-- the safe sequence held in PIN for each chain, word by word (R370) -/
  safeSeq : List (List Nat) := List.replicate 4 []
  deriving DecidableEq, Repr

/-! ### CAM, VIS and INS -/

/-- An issued trigger (R324): its number, the m of its T_m, its time in ns, its position with 16
fractional bits, LATE. -/
structure TrigRec where
  num : Nat
  m : Nat
  time : Nat
  pos : Nat
  late : Bool
  deriving DecidableEq, Repr

/-- A trigger generator (R324 to R327): T_0, the next T_m and its m, triggers issued, those in the
present frame, the time of the last in ps, whether it stops at the frame's end, whether the first
trigger carries LATE, and how often T_0 or PERIOD has changed. -/
structure Gen where
  t0 : Nat := 0
  next : Nat := 0
  m : Nat := 0
  count : Nat := 0
  inFrame : Nat := 0
  last : Option Nat := none
  stopping : Bool := false
  late : Bool := false
  /-- a trigger was skipped before the first one of the next frame -/
  skip : Bool := false
  epoch : Nat := 0
  deriving DecidableEq, Repr

/-- An open frame of a source (R330): its number, its FLAGS, lines received, filled and with CRC_ERR,
headers corrected, lines placed so far, TIME and POS of line 0, its triggers, whether the generator's
frame goes on, and when it opened. -/
structure CamFrame where
  num : Nat
  flags : Nat := 0
  recv : Nat := 0
  filled : Nat := 0
  crc : Nat := 0
  hdr : Nat := 0
  placed : Nat := 0
  time : Nat := 0
  pos : Nat := 0
  trigs : List TrigRec := []
  live : Bool := false
  since : Nat := 0
  deriving DecidableEq, Repr

/-- A whole line in an input buffer: FLAGS, LINE, FRAME, TIME, POS, and its components. -/
structure CamLine where
  flags : Nat
  line : Nat
  frame : Nat
  time : Nat
  pos : Nat
  px : List Nat
  deriving DecidableEq, Repr

/-- A line of a tile source that its tiles still deliver: trigger, frame, line, and the parts that
have come as (tile, 0 good, 1 CRC error, 2 other error; components). -/
structure TileOpen where
  trig : TrigRec
  frame : Nat
  line : Nat
  parts : List (Nat × Nat × List Nat) := []
  deriving DecidableEq, Repr

/-- A source: the next frame number, its open frames, its buffer, the generator's frame that waits for
an FS with its TRGSKIP, and its open tile lines. -/
structure CamSrc where
  nextFrame : Nat := 0
  frames : List CamFrame := []
  buf : List CamLine := []
  gnew : Option (List TrigRec × Bool) := none
  tiles : List TileOpen := []
  deriving DecidableEq, Repr

/-- CAM beside its registers: generators, sources, tiles whose TACK_UP is awaited on each tile lane,
and the round robin's pointer with the grants left at it. -/
structure CamSt where
  gens : List Gen := List.replicate 4 {}
  srcs : List CamSrc := List.replicate 16 {}
  acks : List (List Nat) := List.replicate 4 []
  ptr : Nat := 15
  left : Nat := 0
  deriving DecidableEq, Repr

/-- A line in the pipeline: FLAGS, LINE, FRAME, TIME, POS, and its channels. -/
structure VisLine where
  flags : Nat
  line : Nat
  frame : Nat
  time : Nat
  pos : Nat
  ch : List (List Nat)
  deriving DecidableEq, Repr

/-- A source in the pipeline: the long exposure that waits for its short one, and the lines of the
frame that the demosaic window still needs, with the index of the next one to come out. -/
structure VisSrc where
  long : Option VisLine := none
  win : List VisLine := []
  outLine : Nat := 0
  deriving DecidableEq, Repr

/-- An output: the block in progress (its first line, the column sums, its lines), and the archive
lines since the last band, with the bands complete and not yet queued as (first ring line). -/
structure VisOut where
  blk : Option (VisLine × List (List Nat) × Nat) := none
  arc : Nat := 0
  bands : List Nat := []
  deriving DecidableEq, Repr

/-- VIS beside its registers. -/
structure VisSt where
  tbl : List (Nat × Nat) := []
  srcs : List VisSrc := List.replicate 16 {}
  outs : List VisOut := List.replicate 4 {}
  eccBad : Bool := false
  deriving DecidableEq, Repr

/-- A closed frame of the comparator's source: its number, FLAGS, and the m of line 0, if it has one. -/
structure FrameDesc where
  frame : Nat
  flags : Nat
  m0 : Option Nat
  deriving DecidableEq, Repr

/-- A camera line that the comparator holds: frame, FLAGS, line, and its densities by channel. -/
structure InsLine where
  frame : Nat
  flags : Nat
  line : Nat
  ch : List (List Nat)
  deriving DecidableEq, Repr

/-- INS beside its registers: lines of frames not yet compared; closed frames; lines kept for grading
as (m, densities); the fold sums by ((m × 4 + group) × 16384 + pixel); the next line each group
completes; the generator's epoch at the first drop of (m × 4 + group); VOID lines as m × 4 + group;
STEPSEQ extremes as (m, head group, lowest, highest); the line up to which the comparator has read;
the registration offsets in 1/16. -/
structure InsSt where
  lines : List InsLine := []
  descs : List FrameDesc := []
  kept : List (Nat × List (List Nat)) := []
  acc : List (Nat × Nat) := []
  front : List Nat := [0, 0, 0, 0]
  born : List (Nat × Nat) := []
  voids : List Nat := []
  steps : List (Nat × Nat × Nat × Nat) := []
  readTo : Nat := 0
  dx : Int := 0
  dy : Int := 0
  deriving DecidableEq, Repr

/-! ### ETH and PTP -/

/-- An Ethernet port beside its registers (R418 to R429): the transmit ring is being looked at, a frame
of it is on its way, a LAUNCH frame waits for its TIME, the frame leaves LATE, a received PAUSE holds
the port until this counter value, and the RXERR drops of the present second. -/
structure EthPort where
  run : Bool := false
  sending : Bool := false
  waiting : Bool := false
  late : Bool := false
  pause : Nat := 0
  errs : Nat := 0
  errC : Nat := 0
  deriving DecidableEq, Repr

/-- ETH beside its registers: the ports, and the queue of transmit timestamps, oldest first, as (TSID,
port, device time in ns). -/
structure EthSt where
  ports : List EthPort := List.replicate 4 {}
  txts : List (Nat × Nat × Nat) := []
  deriving DecidableEq, Repr

/-- A foreign master heard on a PTP port (R430): the port, the sender's identity with its port number,
its latest Announce, and the times of its latest Announces, newest first. -/
structure Foreign where
  port : Nat
  sender : Nat
  ann : PtpAnn
  times : List Nat
  deriving DecidableEq, Repr

/-- A PTP port beside its registers (R431): sequence numbers sent, a two-step Sync that waits for its
Follow_Up as (sender, sequence number, t2, correction), t1 and t2 of the last Sync, when the last Sync
came, the last delay request as (sequence number, t1 or t3), a two-step Pdelay_Resp that waits as
(sequence number, T2, t4, correction), and the end of PRE_MASTER. -/
structure PtpPort where
  seqSync : Nat := 0
  seqAnn : Nat := 0
  seqDelay : Nat := 0
  pend : Option (Nat × Nat × Int × Int) := none
  last : Option (Int × Int) := none
  syncC : Nat := 0
  req : Option (Nat × Int) := none
  resp : Option (Nat × Int × Int × Int) := none
  pre : Nat := 0
  deriving DecidableEq, Repr

/-- PTP beside its registers: the time unit (R425) with device time T0 in ns at counter value C0; the
servo's integral term (R432); offsets in a row within LOCKTHR and samples in a row at MAXRATE; the time
of the last offset of the source; the source selected as (1 PTP or 2 fabric, port, grandmaster);
whether the fabric gives time; when HOLDOVER began; the ports and the foreign masters. -/
structure PtpSt where
  t0 : Int := 0
  c0 : Int := 0
  integ : Int := 0
  inRow : Nat := 0
  satRow : Nat := 0
  lastOff : Option Nat := none
  source : Option (Nat × Nat × Nat) := none
  fabric : Bool := false
  holdC : Nat := 0
  ports : List PtpPort := List.replicate 4 {}
  foreign : List Foreign := []
  /-- what each requester captured last (R426): requester, C, device time in ns -/
  snaps : List (Nat × Nat × Nat) := []
  deriving DecidableEq, Repr

/-! ### TWN -/

/-- A diagnosis (R387): the head and COUNT that diverged, this chip's result and its partner's, true
for pass. -/
structure TwDiag where
  head : Nat
  count : Nat
  own : Option Bool := none
  peer : Option Bool := none
  deriving DecidableEq, Repr

/-- A HELLO of the partner (R376): ROLE, SIDE, LASTROLE, EPOCH, SEQ, PAIRTAG, GEN. -/
structure TwHello where
  role : Nat
  side : Nat
  last : Nat
  epoch : Nat
  seq : Nat
  tag : Nat
  gen : Nat
  deriving DecidableEq, Repr

/-- TWN beside its registers: the next MSEQ to send and the messages sent and not yet acknowledged as
(MSEQ, MTYPE, payload); the next MSEQ expected; the partner's last HELLO; whether the link is silent,
and since when; the time of the partner's last ALIVE edge; whether this chip is starting (R379); SIGs
of this chip and of its partner not yet compared, as (head, COUNT, SIG); the diagnosis that runs; the
inputs that wait for their event; the latest report of each source (source, time) and the latest
matching SIG of each head (head, time); records and FINALs whose JACK is still to come, as slots; items
live when COPY began; the head groups that have cut over in FOLLOW; when the partner last reported its
health. -/
structure TwnSt where
  mseq : Nat := 0
  unacked : List (Nat × Nat × List Nat) := []
  rxSeq : Nat := 0
  hello : Option TwHello := none
  silent : Bool := true
  silentC : Nat := 0
  aliveC : Nat := 0
  starting : Bool := true
  own : List (Nat × Nat × Nat) := []
  peer : List (Nat × Nat × Nat) := []
  diag : Option TwDiag := none
  inputs : List TwInput := []
  raised : List (Nat × Nat) := []
  matched : List (Nat × Nat) := []
  jackWait : List Nat := []
  copyLive : List Nat := []
  cut : List Nat := []
  phC : Nat := 0
  /-- the diverged events of the diagnosis that runs: head, COUNT, the items with a line in it -/
  divs : List (Nat × Nat × List Nat) := []
  /-- the takeover points of the last resignation, one for each head (R391) -/
  tko : List Nat := []
  deriving DecidableEq, Repr

/-! ### PGF -/

/-- A packet in a replay buffer (R403): its LSEQ, the packet, how often it has been resent. -/
structure Replay where
  lseq : Nat
  pkt : FabPkt
  again : Nat := 0
  deriving DecidableEq, Repr

/-- A root advert heard on a port (R407): rank as PRIO and UID, DIST, PARENT, the sender, when. -/
structure RootAdv where
  prio : Nat
  uid : Nat
  dist : Nat
  parent : Bool
  sender : Nat
  at' : Nat
  deriving DecidableEq, Repr

/-- A fabric port beside its registers (R397 to R407): the step of the attempt (0 none), its lanes,
the NONCE it has drawn and the HELLO received as (UID, KIND, AUTH, NONCE), the credits of classes 1 to
3, the next LSEQ to send, the packets queued, the replay buffer, LSEQs to send again, the next LSEQ
expected, the last FNAK as (LSEQ, time), the class of the round robin with the packets left of its
turn, credits to return for each class, whether packets have arrived since the last FCRED, the
neighbour's advert, the mean delay in ns, and t1 of a PDREQ. -/
structure PgfPort where
  step : Nat := 0
  lanes : List Bool := [false, false]
  nonce : Nat := 0
  hello : Option (Nat × Nat × Bool × Nat) := none
  cred : List Nat := [0, 0, 0]
  lseq : Nat := 0
  queue : List FabPkt := []
  replay : List Replay := []
  resend : List Nat := []
  expect : Nat := 0
  nak : Option (Nat × Nat) := none
  turn : Nat := 2
  left : Nat := 0
  back : List Nat := [0, 0, 0]
  got : Bool := false
  adv : Option RootAdv := none
  delay : Nat := 0
  t1 : Option Nat := none
  deriving DecidableEq, Repr

/-- A device in the root's picture of the fabric (R409): UID, address, KIND, and for each port whether
it is UP, the neighbour's address and its UID. -/
structure Topo where
  uid : Nat
  addr : Nat
  kind : Nat
  ports : List (Bool × Nat × Nat)
  deriving DecidableEq, Repr

/-- An address that the root has granted (R408): address, UID, KIND, when it was last heard. -/
structure Grant where
  addr : Nat
  uid : Nat
  kind : Nat
  heard : Nat
  deriving DecidableEq, Repr

/-- PGF beside its registers: the next REFID; refusals to send again as (LINK, ITEM_ID, reason, REFID,
repeats left) (R413); the ports; the root held, as (PRIO, UID), and the parent port; the route table in
force as (destination, entry) with no entry for "no route", and the parts of a GEN to come as (GEN,
PART, entries, since); the root's grants, its picture, its GEN and whether routes are due; the latest
epochs as (PAIRTAG, epoch), least recently heard first (R414); the refusals taken as (SRC, REFID),
oldest first; fabric time less C; drops of the present second. -/
structure PgfSt where
  refId : Nat := 0
  refRepeat : List (Nat × Nat × Nat × Nat × Nat) := []
  ports : List PgfPort := List.replicate 4 {}
  root : Option (Nat × Nat) := none
  parent : Option Nat := none
  table : List (Nat × Nat) := []
  parts : List (Nat × Nat × List Nat × Nat) := []
  grants : List Grant := []
  topo : List Topo := []
  gen : Nat := 0
  dirty : Bool := false
  epochs : List (Nat × Nat) := []
  taken : List (Nat × Nat) := []
  offset : Option Int := none
  /-- the present root has granted this device's address -/
  granted : Bool := false
  drops : Nat := 0
  dropC : Nat := 0
  deriving DecidableEq, Repr

/-! ### DMC and DMA -/

/-- DMC beside its registers (R445 to R450): the requested set point and its requester, corrected
errors in the present second, channels in self-refresh, the MR4 code of each channel, refreshes
postponed as (channel × 64 + rank × 16 + bank, count), the next byte offset to scrub. -/
structure DmcSt where
  freq : Option (Nat × Nat) := none
  ce : Nat := 0
  selfRef : List Bool := List.replicate 8 false
  mr4 : List Nat := List.replicate 8 0
  late : List (Nat × Nat) := []
  scrubAt : Nat := 0
  deriving DecidableEq, Repr

/-- A descriptor that the DMA engine has fetched (R453): channel, the address of its ring entry, SRC,
DST, LEN, FLAGS; and, for one that was prefetched, the bytes that the descriptor before it wrote while
its reads were out, as address and length (R454). -/
structure DmaDesc where
  ch : Nat
  at' : Nat
  src : Nat
  dst : Nat
  len : Nat
  flags : Nat
  race : Nat × Nat := (0, 0)
  deriving DecidableEq, Repr

/-- DMA beside its registers (R454): the descriptor that runs and the one prefetched behind it. -/
structure DmaSt where
  run : Option DmaDesc := none
  pre : Option DmaDesc := none
  deriving DecidableEq, Repr

/-- The device: everything but the queue of commands. -/
structure Dev where
  /-- the local free-running counter, ns, 64 bits (R3) -/
  c : Nat := 0
  regs : Regs := []
  /-- active sets of the shadowed groups, under the shadow registers' addresses (R25) -/
  act : Regs := []
  mem : Mem := []
  /-- flash by chip select × 2^32 + address; an unlisted byte reads 0xFF -/
  flash : Mem := []
  flashCs1 : Bool := true
  /-- values held for the HI half by a LO read: requester, HI register, value (R255) -/
  hiCap : List (Nat × Nat × Nat) := []
  /-- reports not yet taken by the collector -/
  reps : List Rep := []
  out : List Out := []
  /-- the model's own counter of free values drawn -/
  freeCtr : Nat := 0
  sys : SysSt := {}
  cfg : CfgSt := {}
  sec : SecSt := {}
  itk : ItkSt := {}
  pos : PosSt := {}
  ras : RasSt := {}
  nzm : NzmSt := {}
  fir : FirSt := {}
  lmp : LmpSt := {}
  cam : CamSt := {}
  vis : VisSt := {}
  ins : InsSt := {}
  eth : EthSt := {}
  ptp : PtpSt := {}
  twn : TwnSt := {}
  pgf : PgfSt := {}
  dmc : DmcSt := {}
  dma : DmaSt := {}
  /-- MRAM words whose next read-back fails -/
  mramBad : List Nat := []
  deriving DecidableEq, Repr

/-- The state: the device and the commands that wait, first in, first out. -/
structure State where
  dev : Dev := {}
  pending : List Instr := []
  deriving DecidableEq, Repr

/-- The machine stops with a fault. No meaning of this model raises one. -/
inductive Fault where
  /-- an access to memory that does not exist made outside every requester's own error answer;
  raised by no command, kept for a step that would need it; safe -/
  | noSuchAddress (addr : Nat)
  deriving DecidableEq, Repr

/-- The machine refuses a command. -/
inductive Refusal where
  /-- raised by the dispatcher for a command that has no meaning yet; safe -/
  | notModelled (mnemonic : String)
  deriving DecidableEq, Repr

/-- The device right after a power-on reset. -/
def Dev.reset : Dev := {}

/-- The machine right after reset: every field at the value the spec gives for reset, or at the
value the assumption log names; no command waits. -/
def State.reset : State := {}

end Sys2Proof.Machine
end

