-- ==== Sys2Proof/Machine/Ops.lean ====
section
/-! DEFINITION. The named operations over registers, fields, memory and what leaves the part, and the
bit-field, sign and byte-order helpers they use. -/

namespace Sys2Proof.Machine

/-! ### Bits and bytes -/

/-- Bits `[lo + n - 1 : lo]` of `x`. -/
def bits (x lo n : Nat) : Nat := (x >>> lo) % 2 ^ n

/-- `x` with bits `[lo + n - 1 : lo]` replaced by `v`. -/
def setBits (x lo n v : Nat) : Nat :=
  x % 2 ^ lo + (v % 2 ^ n) * 2 ^ lo + (x >>> (lo + n)) * 2 ^ (lo + n)

/-- Bit `i` of `x`. -/
def bitB (x i : Nat) : Bool := x.testBit i

/-- The `n`-bit pattern `x` read as a two's complement number. -/
def sx (n x : Nat) : Int :=
  if x % 2 ^ n < 2 ^ (n - 1) then (x % 2 ^ n : Nat) else ((x % 2 ^ n : Nat) : Int) - 2 ^ n

/-- The `n`-bit two's complement pattern of `i`. -/
def ux (n : Nat) (i : Int) : Nat := (i % (2 ^ n : Nat)).toNat

/-- `i` held between `lo` and `hi`. -/
def clampI (lo hi i : Int) : Int := max lo (min hi i)

/-- Number of one bits among the low `n` bits of `x`. -/
def popCount : Nat → Nat → Nat
  | 0, _ => 0
  | n + 1, x => x % 2 + popCount n (x / 2)

/-- Parity of the low `n` bits of `x`. -/
def parity (n x : Nat) : Nat := popCount n x % 2

/-- The number whose bytes, least significant first, are `bs` (R2). -/
def leNat : List Byte → Nat
  | [] => 0
  | b :: r => b.toNat + 256 * leNat r

/-- The number whose bytes, most significant first, are `bs`. -/
def beNat (bs : List Byte) : Nat := leNat bs.reverse

/-- The `n` bytes of `x`, least significant first. -/
def leBytes : Nat → Nat → List Byte
  | 0, _ => []
  | n + 1, x => BitVec.ofNat 8 x :: leBytes n (x / 256)

/-- The `n` bytes of `x`, most significant first. -/
def beBytes (n x : Nat) : List Byte := (leBytes n x).reverse

/-- `n` bytes of `bs` from offset `o` as a little-endian number; bytes past the end count as 0. -/
def fieldLE (bs : List Byte) (o n : Nat) : Nat := leNat ((bs.drop o).take n)

/-- List element `i`, or `dv` past the end. -/
def nth {α : Type} (l : List α) (i : Nat) (dv : α) : α := l.getD i dv

/-- `l` with element `i` changed by `f`; unchanged past the end. -/
def upd {α : Type} (l : List α) (i : Nat) (f : α → α) : List α := l.modify i f

/-! ### Sparse maps in canonical form -/

/-- The value at `a`: that of its entry, else the default. Keys rise, so the search ends past `a`. -/
def spGet {α : Type} (dv : α) : List (Nat × α) → Nat → α
  | [], _ => dv
  | (b, w) :: r, a => if a = b then w else if a < b then dv else spGet dv r a

/-- The map with `v` at `a`, kept in canonical form for the default value `dv` of `a`. -/
def spPut {α : Type} [DecidableEq α] (dv : α) : List (Nat × α) → Nat → α → List (Nat × α)
  | [], a, v => if v = dv then [] else [(a, v)]
  | (b, w) :: r, a, v =>
    if a < b then (if v = dv then (b, w) :: r else (a, v) :: (b, w) :: r)
    else if a = b then (if v = dv then r.dropWhile (fun x => decide (x.1 ≤ a)) else (a, v) :: r)
    else (b, w) :: spPut dv r a v

/-- Canonical form: keys strictly rising, all from `lo` up, no entry equal to its default. -/
def spWf {α : Type} [DecidableEq α] (dflt : Nat → α) : Nat → List (Nat × α) → Bool
  | _, [] => true
  | lo, (a, v) :: r => decide (lo ≤ a) && decide (v ≠ dflt a) && spWf dflt (a + 1) r

/-- What an unlisted memory byte reads as (DESIGN CHOICE, entry 3). -/
def memDefault : Byte := 0

/-- What an erased flash byte reads as (PRESUMED, entry 4). -/
def flashDefault : Byte := 0xFF

/-- The memory is in canonical form. -/
def Mem.wf (m : Mem) : Bool := spWf (fun _ => memDefault) 0 m

/-- The flash is in canonical form. -/
def Mem.flashWf (m : Mem) : Bool := spWf (fun _ => flashDefault) 0 m

/-- The registers are in canonical form. -/
def Regs.wf (m : Regs) : Bool := spWf regReset 0 m

/-! ### Registers and fields -/

/-- The register at address `a`. -/
def Dev.rd (d : Dev) (a : Nat) : Word := spGet (regReset a) d.regs a

/-- The device with `v` in the register at address `a`. -/
def Dev.wr (d : Dev) (a : Nat) (v : Word) : Dev := { d with regs := spPut (regReset a) d.regs a v }

/-- The value of a field. -/
def Dev.get (d : Dev) (f : Fld) : Nat := bits (d.rd f.addr).toNat f.lo f.width

/-- The device with `v` in a field; higher bits of `v` are dropped. -/
def Dev.put (d : Dev) (f : Fld) (v : Nat) : Dev :=
  d.wr f.addr (BitVec.ofNat 32 (setBits (d.rd f.addr).toNat f.lo f.width v))

/-- The device with the whole register at `a` set to `v`. -/
def Dev.wrN (d : Dev) (a v : Nat) : Dev := d.wr a (BitVec.ofNat 32 v)

/-- A field of the active set of a shadowed group (R25). -/
def Dev.getAct (d : Dev) (f : Fld) : Nat :=
  bits (spGet (regReset f.addr) d.act f.addr).toNat f.lo f.width

/-- The hand-over copy of one register from the shadow to the active set (R25). -/
def Dev.copyAct (d : Dev) (a : Nat) : Dev :=
  { d with act := spPut (regReset a) d.act a (d.rd a) }

/-- Whether bit `i` of the register at `a` is set. -/
def Dev.bit (d : Dev) (f : Fld) (i : Nat) : Bool := bitB (d.get f) i

/-- Sets bit `i` of a field. -/
def Dev.setBit (d : Dev) (f : Fld) (i : Nat) : Dev := d.put f (d.get f ||| 2 ^ i)

/-- Clears bit `i` of a field. -/
def Dev.clrBit (d : Dev) (f : Fld) (i : Nat) : Dev :=
  if d.bit f i then d.put f (d.get f - 2 ^ i) else d

/-- Adds `n` to a counter field that stops at its largest value. -/
def Dev.addSat (d : Dev) (f : Fld) (n : Nat) : Dev := d.put f (min (2 ^ f.width - 1) (d.get f + n))

/-- Adds 1 to a counter field that stops at its largest value. -/
def Dev.incSat (d : Dev) (f : Fld) : Dev := d.addSat f 1

/-- Adds 1 to a counter field that wraps. -/
def Dev.incWrap (d : Dev) (f : Fld) : Dev := d.put f (d.get f + 1)

/-- A 64-bit value held in a LO and a HI register. -/
def Dev.get64 (d : Dev) (lo hi : Nat) : Nat := (d.rd lo).toNat + 2 ^ 32 * (d.rd hi).toNat

/-- Writes a 64-bit value to a LO and a HI register. -/
def Dev.put64 (d : Dev) (lo hi v : Nat) : Dev := (d.wrN lo v).wrN hi (v / 2 ^ 32)

/-- Runs `f` when `b` holds. -/
def Dev.when (d : Dev) (b : Bool) (f : Dev → Dev) : Dev := if b then f d else d

/-- Runs `f` over each element in order. -/
def Dev.each {α : Type} (d : Dev) (l : List α) (f : Dev → α → Dev) : Dev := l.foldl f d

/-! ### Parts of the device -/

/-- Changes the `sys` part. -/
def Dev.onSys (d : Dev) (f : SysSt → SysSt) : Dev := { d with sys := f d.sys }

/-- Changes the `cfg` part. -/
def Dev.onCfg (d : Dev) (f : CfgSt → CfgSt) : Dev := { d with cfg := f d.cfg }

/-- Changes the `sec` part. -/
def Dev.onSec (d : Dev) (f : SecSt → SecSt) : Dev := { d with sec := f d.sec }

/-- Changes the `itk` part. -/
def Dev.onItk (d : Dev) (f : ItkSt → ItkSt) : Dev := { d with itk := f d.itk }

/-- Changes the `pos` part. -/
def Dev.onPos (d : Dev) (f : PosSt → PosSt) : Dev := { d with pos := f d.pos }

/-- Changes the `twn` part. -/
def Dev.onTwn (d : Dev) (f : TwnSt → TwnSt) : Dev := { d with twn := f d.twn }

/-- Changes the `pgf` part. -/
def Dev.onPgf (d : Dev) (f : PgfSt → PgfSt) : Dev := { d with pgf := f d.pgf }

/-- Changes the `ras` part. -/
def Dev.onRas (d : Dev) (f : RasSt → RasSt) : Dev := { d with ras := f d.ras }

/-- Changes the `nzm` part. -/
def Dev.onNzm (d : Dev) (f : NzmSt → NzmSt) : Dev := { d with nzm := f d.nzm }

/-- Changes the `fir` part. -/
def Dev.onFir (d : Dev) (f : FirSt → FirSt) : Dev := { d with fir := f d.fir }

/-- Changes the `lmp` part. -/
def Dev.onLmp (d : Dev) (f : LmpSt → LmpSt) : Dev := { d with lmp := f d.lmp }

/-- Changes the `cam` part. -/
def Dev.onCam (d : Dev) (f : CamSt → CamSt) : Dev := { d with cam := f d.cam }

/-- Changes the `vis` part. -/
def Dev.onVis (d : Dev) (f : VisSt → VisSt) : Dev := { d with vis := f d.vis }

/-- Changes the `ins` part. -/
def Dev.onIns (d : Dev) (f : InsSt → InsSt) : Dev := { d with ins := f d.ins }

/-- Changes the `ptp` part. -/
def Dev.onPtp (d : Dev) (f : PtpSt → PtpSt) : Dev := { d with ptp := f d.ptp }

/-- Changes the `eth` part. -/
def Dev.onEth (d : Dev) (f : EthSt → EthSt) : Dev := { d with eth := f d.eth }

/-- Changes the `dmc` part. -/
def Dev.onDmc (d : Dev) (f : DmcSt → DmcSt) : Dev := { d with dmc := f d.dmc }

/-- Changes the `dma` part. -/
def Dev.onDma (d : Dev) (f : DmaSt → DmaSt) : Dev := { d with dma := f d.dma }

/-! ### Memory -/

/-- One byte of memory. -/
def Dev.ldB (d : Dev) (a : Nat) : Byte := spGet memDefault d.mem a

/-- Stores one byte of memory. -/
def Dev.stB (d : Dev) (a : Nat) (v : Byte) : Dev := { d with mem := spPut memDefault d.mem a v }

/-- `n` bytes of memory from `a`. -/
def Dev.ldBs (d : Dev) (a n : Nat) : List Byte := (List.range n).map (fun i => d.ldB (a + i))

/-- Stores bytes from `a` up. -/
def Dev.stBs : Dev → Nat → List Byte → Dev
  | d, _, [] => d
  | d, a, b :: r => (d.stB a b).stBs (a + 1) r

/-- A little-endian number of `n` bytes. -/
def Dev.ld (d : Dev) (a n : Nat) : Nat := leNat (d.ldBs a n)

/-- Stores the `n` little-endian bytes of `v`. -/
def Dev.st (d : Dev) (a n v : Nat) : Dev := d.stBs a (leBytes n v)

/-- One byte of flash. -/
def Dev.flB (d : Dev) (a : Nat) : Byte := spGet flashDefault d.flash a

/-- `n` bytes of flash. -/
def Dev.flBs (d : Dev) (a n : Nat) : List Byte := (List.range n).map (fun i => d.flB (a + i))

/-- Writes bytes to flash. -/
def Dev.flWr : Dev → Nat → List Byte → Dev
  | d, _, [] => d
  | d, a, b :: r => ({ d with flash := spPut flashDefault d.flash a b } : Dev).flWr (a + 1) r

/-! ### Regions of the control address space (R33) -/

/-- Base of DRAM. -/
def dramBase : Nat := 0x1000000000

/-- Base of MRAM. -/
def mramBase : Nat := 0x03000000

/-- Base of the shared SRAM. -/
def sramBase : Nat := 0x04000000

/-- Base of the trusted SRAM. -/
def tsramBase : Nat := 0x01000000

/-- Fitted DRAM in bytes (R439): N channels, two per interface of INTF, of RANKS × density bytes
each; the density is 4, 8, 16 or 32 Gb per rank. -/
def Dev.dramFitted (d : Dev) : Nat :=
  2 * popCount 4 (d.get F.DMC_CFG_INTF) * (d.get F.DMC_CFG_RANKS2 + 1) *
    (2 ^ 29 * 2 ^ d.get F.DMC_CFG_DENS)

/-- Addressable DRAM (R36, R440): 448 of every 512 fitted bytes with inline ECC. -/
def Dev.dramSize (d : Dev) : Nat :=
  if d.get F.DMC_CFG_ECC = 1 then d.dramFitted / 512 * 448 else d.dramFitted

/-- Whether `[a, a + n)` lies within DRAM. -/
def Dev.inDram (d : Dev) (a n : Nat) : Bool :=
  decide (dramBase ≤ a ∧ a + n ≤ dramBase + d.dramSize)

/-- Whether `[a, a + n)` lies within the shared SRAM. -/
def inSram (a n : Nat) : Bool := decide (sramBase ≤ a ∧ a + n ≤ sramBase + 0x400000)

/-! ### Reports, messages, free values -/

/-- Something leaves the part. -/
def Dev.emit (d : Dev) (o : Out) : Dev := { d with out := o :: d.out }

/-- A value that the spec leaves open: nothing constrains it, and every draw may differ. -/
def Dev.fresh (d : Dev) (w : Nat) : Nat × Dev :=
  (Config.freeValue d.freeCtr % 2 ^ w, { d with freeCtr := d.freeCtr + 1 })

/-- Sends a fault report to the collector (R460), with its DETAIL; where the spec does not say what a
source's DETAIL is, it is open. -/
def Dev.report (d : Dev) (src : Nat) (detail : Option Nat := none) : Dev :=
  let r := match detail with
    | some x => (x % 2 ^ 32, d)
    | none => d.fresh 32
  { r.2 with reps := d.reps ++ [{ src := src, detail := r.1 }] }

/-- Moves the free-running counter to `t` when `t` is later: the time an event comes at (entry 1). -/
def Dev.atTime (d : Dev) (t : Nat) : Dev := { d with c := max d.c t % 2 ^ 64 }

/-! ### Device state (R9, SYS_STATE codes) -/

def stBoot : Nat := 1
def stImage : Nat := 2
def stLoading : Nat := 3
def stTraining : Nat := 4
def stSelftest : Nat := 5
def stReady : Nat := 6
def stPrinting : Nat := 7
def stConfigFail : Nat := 8
def stSafe : Nat := 9

/-- The present device state. -/
def Dev.st? (d : Dev) : Nat := d.get F.SYS_STATE_STATE

/-- Enters a device state: PREV keeps the one before, and SYS line 1 rises. -/
def Dev.enter (d : Dev) (s : Nat) : Dev :=
  if d.st? = s then d
  else (((d.put F.SYS_STATE_PREV d.st?).put F.SYS_STATE_STATE s).put F.SYS_IRQ_STAT_STATE 1)

/-- READY or PRINTING. -/
def Dev.running (d : Dev) : Bool := d.st? = stReady || d.st? = stPrinting

/-- Whether CONFIG_DONE has passed. -/
def Dev.configDone (d : Dev) : Bool := d.get F.CFG_STATUS_DONE = 1

/-- Severity in force of a source (R8). -/
def Dev.sev (d : Dev) (src : Nat) : Nat := d.get (F.FLT_SRC_CFG_SEV src)

/-- Whether a source's pending bit is set (R460). -/
def Dev.pendBit (d : Dev) (src : Nat) : Bool := d.bit (F.FLT_PEND_PEND (src / 32)) (src % 32)

/-- Whether some pending source has a severity that meets `p`. -/
def Dev.pendAny (d : Dev) (p : Nat → Bool) : Bool :=
  (List.range 256).any (fun i => d.pendBit i && p (d.sev i))

/-- STOP is in force (R465): worked out from the pending bits and the severities in force. -/
def Dev.stop (d : Dev) : Bool := d.pendAny (fun s => s == 3)

/-- The READY pin (R50). -/
def Dev.readyPin (d : Dev) : Bool := d.running

/-- The FAULT_N pin, true for high (R466). -/
def Dev.faultN (d : Dev) : Bool :=
  d.running && !(d.pendAny (fun s => d.get F.FLT_CFG_FNSEV ≤ s))

/-! ### Status codes (R7) -/

def sOk : Nat := 0
def sBadValue : Nat := 1
def sBadState : Nat := 2
def sLate : Nat := 3
def sConflict : Nat := 4
def sNoRoom : Nat := 5
def sLocked : Nat := 6
def sDenied : Nat := 7
def sBusy : Nat := 8
def sUnsupported : Nat := 9
def sAuthFail : Nat := 0x0A
def sIntegrity : Nat := 0x0B
def sTimeout : Nat := 0x0C
def sOverflow : Nat := 0x0D
def sAbsent : Nat := 0x0E
def sStaleEpoch : Nat := 0x0F
def sDuplicate : Nat := 0x10
def sSequence : Nat := 0x11

/-- The first failing check of a list, in order: the first status whose condition holds, else OK. -/
def firstFail : List (Bool × Nat) → Nat
  | [] => sOk
  | (b, s) :: r => if b then s else firstFail r

/-- Requester codes of R21. -/
def reqTrusted : Nat := 4
def reqVjp : Nat := 6
def reqJtag : Nat := 7
def reqLoader : Nat := 8

/-- Records a rejection in the block's REJ and REJCNT (R38, R39): requester, offset in the block
rounded down to a multiple of 4, status. -/
def Dev.reject (d : Dev) (req a status : Nat) : Dev :=
  match blockOf a with
  | none => d
  | some b =>
    let rej := blockBase b + 4
    let cnt := blockBase b + 8
    let d1 := if bitB (d.rd rej).toNat 31 then d
      else d.wrN rej (2 ^ 31 + (req % 16) * 2 ^ 24 + (a % 0x10000 / 4 * 4) * 2 ^ 8 + status % 256)
    d1.wrN cnt (min (2 ^ 32 - 1) ((d1.rd cnt).toNat + 1))

/-- A register access is answered: status and value leave to the requester. -/
def Dev.answer (d : Dev) (req a status value : Nat) : Dev := d.emit (.reg req a status value)

/-- A register write with a row of its own ends: rejected and recorded, or carried out by `f`. -/
def Dev.ownWrite (d : Dev) (req a status : Nat) (f : Dev → Dev) : Dev :=
  if status = sOk then (f d).answer req a sOk 0
  else (d.reject req a status).answer req a status 0

end Sys2Proof.Machine
end

