-- ==== Sys2Proof/Machine/BrineFmt.lean ====
section
/-! DEFINITION. The brine format: the stream header (R131, R132), block headers and checks (R134 to
R136), and the decoder (R137 to R151), bit for bit. -/

namespace Sys2Proof.Machine

/-- Adler-32 (R136). -/
def adler32 (bs : List Byte) : Nat :=
  let r := bs.foldl (fun (p : Nat × Nat) v =>
    let a := (p.1 + v.toNat) % 65521
    (a, (p.2 + a) % 65521)) (1, 0)
  r.2 * 65536 + r.1

/-- Rounds a quotient up. -/
def ceilDiv (a b : Nat) : Nat := (a + b - 1) / b

/-- The strips of a plane (R132). -/
def StreamHdr.strips (h : StreamHdr) (p : Nat) : Nat := ceilDiv (nth h.widths p 0) h.bw

/-- The bands of a page. -/
def StreamHdr.bands (h : StreamHdr) : Nat := ceilDiv h.lines h.bh

/-- base(p): the index of a plane's first block. -/
def StreamHdr.base (h : StreamHdr) (p : Nat) : Nat :=
  (List.range p).foldl (fun n q => n + h.strips q * h.bands) 0

/-- The index of a block. -/
def StreamHdr.index (h : StreamHdr) (p band strip : Nat) : Nat := h.base p + band * h.strips p + strip

/-- The width of a strip and the height of a band. -/
def StreamHdr.stripW (h : StreamHdr) (p strip : Nat) : Nat := min h.bw (nth h.widths p 0 - strip * h.bw)

def StreamHdr.bandH (h : StreamHdr) (band : Nat) : Nat := min h.bh (h.lines - band * h.bh)

/-- All bytes of a range are 0. -/
def zeroBytes (bs : List Byte) (o n : Nat) : Bool := ((bs.drop o).take n).all (· == 0)

/-- A stream header from its 128 bytes, `none` when it breaks a rule of R131. -/
def parseStream (bs : List Byte) : Option StreamHdr :=
  let f (o n : Nat) := fieldLE bs o n
  let h : StreamHdr :=
    { planes := f 5 1, depth := f 6 1, lines := f 8 4, bw := f 0x0C 2, bh := f 0x0E 2, blocks := f 0x10 4,
      widths := (List.range 16).map fun p => f (0x20 + 4 * p) 4 }
  let ok := bs.length ≥ 128 && f 0 4 == 0x534E5242 && f 4 1 == 1 && 1 ≤ h.planes && h.planes ≤ 16 &&
    (h.depth == 1 || h.depth == 2 || h.depth == 4) && f 7 1 == 0 && 1 ≤ h.lines && h.lines ≤ 4194304 &&
    64 ≤ h.bw && h.bw ≤ 32768 && h.bw % 64 == 0 && 1 ≤ h.bh && h.bh ≤ 256 && zeroBytes bs 0x14 12 &&
    zeroBytes bs 0x60 28 && f 0x7C 4 == adler32 (bs.take 0x7C)
  let wOk := (List.range 16).all fun p =>
    let w := nth h.widths p 0
    if p < h.planes then 1 ≤ w && w ≤ 262144 else w == 0
  if ok && wOk && h.blocks == h.base h.planes && 1 ≤ h.blocks && h.blocks ≤ 65536 then some h else none

/-- The fields of a block header (R134). -/
structure BlkHdr where
  stored : Bool
  plane : Nat
  depth : Nat
  strip : Nat
  band : Nat
  w : Nat
  h : Nat
  plen : Nat
  deriving DecidableEq, Repr

/-- bound(w, h, depth) of R148. -/
def brineBound (w h depth : Nat) : Nat := ceilDiv (h * (2 + w * depth)) 8

/-- The size of a raw payload (R134). -/
def rawLen (w h depth : Nat) : Nat := ceilDiv (w * h * depth) 8

/-- A block header from the block's first 20 bytes, `none` when it breaks what it decides by itself
(R134, R135). -/
def parseBlk (bs : List Byte) : Option BlkHdr :=
  let f (o n : Nat) := fieldLE bs o n
  let b : BlkHdr :=
    { stored := f 3 1 == 1, plane := f 4 1, depth := f 5 1, strip := f 6 2, band := f 8 2, w := f 0x0A 2,
      h := f 0x0C 2, plen := f 0x10 4 }
  let ok := bs.length ≥ 20 && f 0 2 == 0x5242 && f 2 1 == 1 && f 3 1 ≤ 1 && b.plane < 16 &&
    (b.depth == 1 || b.depth == 2 || b.depth == 4) && f 0x0E 2 == 0
  let len := if b.stored then b.plen == rawLen b.w b.h b.depth
    else 1 ≤ b.plen && b.plen ≤ brineBound b.w b.h b.depth
  if ok && len then some b else none

/-- Rules 1, 3 (by itself) and 5 of R135 on a whole block. -/
def blkSelfOk (bs : List Byte) : Option BlkHdr :=
  match parseBlk bs with
  | none => none
  | some b =>
    if bs.length == 24 + b.plen && fieldLE bs (20 + b.plen) 4 == adler32 (bs.take (20 + b.plen)) then some b
    else none

/-- The equalities with the stream header and rule 4 of R135. -/
def blkMatches (h : StreamHdr) (idx : Nat) (b : BlkHdr) : Bool :=
  b.plane < h.planes && b.depth == h.depth && b.strip < h.strips b.plane && b.band < h.bands &&
  b.w == h.stripW b.plane b.strip && b.h == h.bandH b.band && h.index b.plane b.band b.strip == idx

/-! ### The decoder (R149). An error is the KIND of BRD_HGn_ERR. -/

/-- A decoder between two symbols (R150): the bits left, the lines decoded (newest first), A and N of
the five contexts, and RI. -/
structure Dec where
  bits : List Bool
  lines : List (List Nat)
  n : List Nat
  acc : List Nat
  ri : Nat
  deriving DecidableEq, Repr

/-- The bits of a payload, bit 7 of each byte first (R138). -/
def bitsOf (bs : List Byte) : List Bool :=
  (bs.map fun b => [7, 6, 5, 4, 3, 2, 1, 0].map fun i => b.toNat.testBit i).flatten

/-- The number that bits spell, most significant first. -/
def bitsNat (l : List Bool) : Nat := l.foldl (fun x b => 2 * x + (if b then 1 else 0)) 0

/-- read(n): running out of payload is an end-of-payload breach (R147). -/
def Dec.read (d : Dec) (n : Nat) : Except Nat (Nat × Dec) :=
  if d.bits.length < n then .error 6
  else .ok (bitsNat (d.bits.take n), { d with bits := d.bits.drop n })

/-- J of R144. -/
def runJ (ri : Nat) : Nat :=
  nth [0, 0, 0, 0, 1, 1, 1, 1, 2, 2, 2, 2, 3, 3, 3, 3, 4, 4, 5, 5, 6, 6, 7, 7, 8, 9, 10, 11, 12, 13, 14, 15] ri 15

/-- The unary part of a Rice code: one-bits before a zero-bit, up to LIMIT. -/
def Dec.unary : Nat → Nat → Dec → Except Nat (Nat × Dec)
  | 0, q, d => .ok (q, d)
  | f + 1, q, d =>
    match d.read 1 with
    | .error e => .error e
    | .ok (b, d1) => if b = 1 then Dec.unary f (q + 1) d1 else .ok (q, d1)

/-- The Rice parameter of a context (R143). -/
def riceK (n a : Nat) : Nat → Nat → Nat
  | 0, k => k
  | f + 1, k => if n <<< k < a then riceK n a f (k + 1) else k

/-- symbol(c) of R149. -/
def Dec.symbol (dep c : Nat) (d : Dec) : Except Nat (Nat × Dec) :=
  let n := nth d.n c 1
  let a := nth d.acc c 1
  let k := riceK n a dep 0
  match d.unary (dep + 4) 0 with
  | .error e => .error e
  | .ok (q, d1) =>
    match (if q = dep + 4 then d1.read (dep + 1) else d1.read k) with
    | .error e => .error e
    | .ok (v, d2) =>
      let m := if q = dep + 4 then v else q <<< k ||| v
      if 2 ^ dep < m then .error 3
      else
        let a1 := a + m
        let wrap := n + 1 = 32
        .ok (m, { d2 with acc := upd d2.acc c fun _ => if wrap then a1 / 2 else a1,
                          n := upd d2.n c fun _ => if wrap then 16 else n + 1 })

/-- unfold(m) of R142. -/
def brineUnfold (s m : Nat) : Nat := if m % 2 = 0 then m / 2 else s - (m + 1) / 2

/-- The neighbours a, b, c, dr at the column after the samples of `cur` (newest first). -/
def brineNb (d : Dec) (cur : List Nat) : Nat × Nat × Nat × Nat :=
  let x := cur.length
  let up := d.lines.headD []
  (cur.headD 0, nth up x 0, (if x = 0 then 0 else nth up (x - 1) 0), nth up (x + 1) 0)

/-- predict of R140. -/
def brinePredict (pred a b c : Nat) : Nat :=
  if pred = 0 then a else if pred = 1 then b
  else if pred = 2 then (if max a b ≤ c then min a b else if c ≤ min a b then max a b else a + b - c)
  else (a + b + 1) / 2

/-- The absolute difference. -/
def absDiff (a b : Nat) : Nat := (a - b) + (b - a)

/-- The context of R141. -/
def brineCtx (a b c dr : Nat) : Nat :=
  let g := absDiff dr b + absDiff b c + absDiff c a
  if g ≤ 2 then 0 else if g ≤ 6 then 1 else if g ≤ 14 then 2 else 3

/-- run(y, x, v) of R149: `cur` grows; the flag says that an interruption sample follows. -/
def Dec.run (w v : Nat) : Nat → Dec → List Nat → Except Nat (Dec × List Nat × Bool)
  | 0, _, _ => .error 4
  | f + 1, d, cur =>
    let cn := 2 ^ runJ d.ri
    let rem := w - cur.length
    match d.read 1 with
    | .error e => .error e
    | .ok (b, d1) =>
      if b = 1 then
        let t := min cn rem
        let cur' := List.replicate t v ++ cur
        let d2 := { d1 with ri := if t = cn ∧ d1.ri < 31 then d1.ri + 1 else d1.ri }
        if cur'.length = w then .ok (d2, cur', false) else Dec.run w v f d2 cur'
      else
        match d1.read (runJ d.ri) with
        | .error e => .error e
        | .ok (r, d2) =>
          if rem ≤ r then .error 4
          else .ok ({ d2 with ri := d2.ri - 1 }, List.replicate r v ++ cur, true)

/-- The zero-bits of a length code, at most 13, and the one-bit after them. -/
def Dec.zeros : Nat → Nat → Dec → Except Nat (Nat × Dec)
  | 0, _, _ => .error 5
  | f + 1, z, d =>
    match d.read 1 with
    | .error e => .error e
    | .ok (b, d1) => if b = 1 then .ok (z, d1) else Dec.zeros f (z + 1) d1

/-- Copies the samples of a match; `src` is the source line, or the line itself when D is 0. -/
def matchFill (src : Option (List Nat)) (dx : Int) : Nat → List Nat → List Nat
  | 0, cur => cur
  | n + 1, cur =>
    let p := ((cur.length : Int) + dx).toNat
    let v := match src with
      | some l => nth l p 0
      | none => nth cur (cur.length - 1 - p) 0
    matchFill src dx n (v :: cur)

/-- match(y, x) of R149 (R146). -/
def Dec.matchSym (w : Nat) (d : Dec) (cur : List Nat) : Except Nat (Dec × List Nat) :=
  match d.read 3 with
  | .error e => .error e
  | .ok (dd, d1) =>
    match d1.read 7 with
    | .error e => .error e
    | .ok (dxw, d2) =>
      match d2.zeros 14 0 with
      | .error e => .error e
      | .ok (z, d3) =>
        match d3.read (z + 2) with
        | .error e => .error e
        | .ok (v, d4) =>
          let len := 2 ^ (z + 2) + v
          let dx := sx 7 dxw
          let x := cur.length
          if w - x < len ∨ d.lines.length < dd ∨ (dd = 0 ∧ 0 ≤ dx) ∨ (x : Int) + dx < 0 ∨ (w : Int) ≤ x + dx + len - 1 then
            .error 5
          else .ok (d4, matchFill (if dd = 0 then none else d.lines[dd - 1]?) dx len cur)

/-- The symbols of a CODED line (R139, R144, R145). -/
def Dec.coded (dep w pred : Nat) : Nat → Dec → List Nat → Except Nat (Dec × List Nat)
  | 0, d, cur => .ok (d, cur)
  | f + 1, d, cur =>
    if cur.length = w then .ok (d, cur)
    else
      let s := 2 ^ dep
      let (a, b, c, dr) := brineNb d cur
      let flat := a = b ∧ b = c ∧ c = dr
      match (if flat then d.run w a (w + 1) cur else .ok (d, cur, true)) with
      | .error e => .error e
      | .ok (d1, cur1, more) =>
        if !more then .ok (d1, cur1)
        else
          let (a1, b1, c1, dr1) := brineNb d1 cur1
          let ctx := if flat then 4 else brineCtx a1 b1 c1 dr1
          let p := if flat then b1 else brinePredict pred a1 b1 c1
          match d1.symbol dep ctx with
          | .error e => .error e
          | .ok (m, d2) =>
            if m = s then
              match d2.matchSym w cur1 with
              | .error e => .error e
              | .ok (d3, cur2) => Dec.coded dep w pred f d3 cur2
            else Dec.coded dep w pred f d2 ((p + brineUnfold s m) % s :: cur1)

/-- `w` samples of `dep` bits, newest first. -/
def Dec.rawLine (dep : Nat) : Nat → Dec → List Nat → Except Nat (Dec × List Nat)
  | 0, d, cur => .ok (d, cur)
  | n + 1, d, cur =>
    match d.read dep with
    | .error e => .error e
    | .ok (v, d1) => Dec.rawLine dep n d1 (v :: cur)

/-- One line of a block that is not STORED (R139). -/
def Dec.line (dep w : Nat) (d : Dec) : Except Nat (Dec × List Nat) :=
  match d.read 2 with
  | .error e => .error e
  | .ok (mode, d1) =>
    if mode = 1 then d1.rawLine dep w []
    else if mode = 3 then .ok (d1, List.replicate w 0)
    else if mode = 2 then
      match d1.read 3 with
      | .error e => .error e
      | .ok (dd, d2) =>
        match d2.read 7 with
        | .error e => .error e
        | .ok (dxw, d3) =>
          if dd = 0 ∨ d.lines.length < dd then .error 2
          else
            let src := nth d.lines (dd - 1) []
            let row := (List.range w).map fun x =>
              let p := (x : Int) + sx 7 dxw
              if 0 ≤ p ∧ p < w then nth src p.toNat 0 else 0
            .ok (d3, row.reverse)
    else
      match d1.read 2 with
      | .error e => .error e
      | .ok (pred, d2) => d2.coded dep w pred w []

/-- The lines of a block in order: those decoded whole, with the payload bits used after each, and
the breach that ended them. -/
def Dec.all (stored : Bool) (dep w : Nat) : Nat → Dec → List (List Nat × Nat) → List (List Nat × Nat) × Option Nat
  | 0, d, out =>
    (out.reverse, if d.bits.length < 8 && d.bits.all (· == false) then none else some 6)
  | h + 1, d, out =>
    match (if stored then d.rawLine dep w [] else d.line dep w) with
    | .error e => (out.reverse, some e)
    | .ok (d1, cur) =>
      let row := cur.reverse
      Dec.all stored dep w h { d1 with lines := row :: d1.lines } ((row, d1.bits.length) :: out)

/-- decode_block of R149: the lines decoded whole, each with the payload bits left after it, and the
KIND of the breach if there is one (R151). -/
def decodeBlock (b : BlkHdr) (payload : List Byte) : List (List Nat × Nat) × Option Nat :=
  let s := 2 ^ b.depth
  Dec.all b.stored b.depth b.w b.h
    { bits := bitsOf payload, lines := [], n := List.replicate 5 1, acc := List.replicate 5 (max 1 (s / 4)), ri := 0 } []

/-- The payload of a whole block. -/
def blkPayload (b : BlkHdr) (bs : List Byte) : List Byte := (bs.drop 20).take b.plen

/-- Packs bits into bytes, most significant first, the last byte filled with 0. -/
def packBits : Nat → List Bool → List Byte
  | 0, _ => []
  | f + 1, l =>
    if l = [] then []
    else BitVec.ofNat 8 (bitsNat ((l ++ List.replicate 7 false).take 8)) :: packBits f (l.drop 8)

/-- The `n` bits of `v`, most significant first. -/
def natBits (n v : Nat) : List Bool := ((List.range n).map fun i => v.testBit i).reverse

/-- A whole STORED block of samples, line by line (R134, R165). -/
def storedBlock (plane strip band w h depth : Nat) (rows : List (List Nat)) : List Byte :=
  let bits := ((rows.map fun r => (r.map (natBits depth)).flatten)).flatten
  let pl := packBits (w * h * depth + 1) bits
  let hd : List Byte := [0x42, 0x52, 1, 1] ++ leBytes 1 plane ++ leBytes 1 depth ++ leBytes 2 strip ++ leBytes 2 band ++
    leBytes 2 w ++ leBytes 2 h ++ [0, 0] ++ leBytes 4 pl.length
  hd ++ pl ++ leBytes 4 (adler32 (hd ++ pl))

/-- The stream header of a page, with its CHECK (R131). -/
def streamBytes (h : StreamHdr) : List Byte :=
  let b : List Byte := [0x42, 0x52, 0x4E, 0x53, 1] ++ leBytes 1 h.planes ++ leBytes 1 h.depth ++ [0] ++ leBytes 4 h.lines ++
    leBytes 2 h.bw ++ leBytes 2 h.bh ++ leBytes 4 h.blocks ++ List.replicate 12 0 ++
    ((List.range 16).map fun p => leBytes 4 (nth h.widths p 0)).flatten ++ List.replicate 28 0
  b ++ leBytes 4 (adler32 b)

end Sys2Proof.Machine
end

