-- ==== Sys2Proof/Machine/Crypto.lean ====
section
/-! DEFINITION. The cryptographic functions the spec names by their standards: SHA-256 and SHA-384,
HMAC-SHA-256, the counter-mode KDF of R81, AES with CMAC and the KW unwrap of R83, ECDSA on P-384
(R57, R81); and the check codes CRC-32 and CRC-16. The standards' own constants are PRESUMED
(entry 5). -/

namespace Sys2Proof.Machine

/-! ### SHA-2 (FIPS 180-4) -/

/-- Rotation right of a `w`-bit word. -/
def rotr (w n x : Nat) : Nat := (x >>> n ||| x <<< (w - n)) % 2 ^ w

/-- The round constants of SHA-256. -/
def sha256K : List Nat :=
  [0x428A2F98, 0x71374491, 0xB5C0FBCF, 0xE9B5DBA5, 0x3956C25B, 0x59F111F1, 0x923F82A4, 0xAB1C5ED5,
   0xD807AA98, 0x12835B01, 0x243185BE, 0x550C7DC3, 0x72BE5D74, 0x80DEB1FE, 0x9BDC06A7, 0xC19BF174] ++
  [0xE49B69C1, 0xEFBE4786, 0x0FC19DC6, 0x240CA1CC, 0x2DE92C6F, 0x4A7484AA, 0x5CB0A9DC, 0x76F988DA,
   0x983E5152, 0xA831C66D, 0xB00327C8, 0xBF597FC7, 0xC6E00BF3, 0xD5A79147, 0x06CA6351, 0x14292967] ++
  [0x27B70A85, 0x2E1B2138, 0x4D2C6DFC, 0x53380D13, 0x650A7354, 0x766A0ABB, 0x81C2C92E, 0x92722C85,
   0xA2BFE8A1, 0xA81A664B, 0xC24B8B70, 0xC76C51A3, 0xD192E819, 0xD6990624, 0xF40E3585, 0x106AA070] ++
  [0x19A4C116, 0x1E376C08, 0x2748774C, 0x34B0BCB5, 0x391C0CB3, 0x4ED8AA4A, 0x5B9CCA4F, 0x682E6FF3,
   0x748F82EE, 0x78A5636F, 0x84C87814, 0x8CC70208, 0x90BEFFFA, 0xA4506CEB, 0xBEF9A3F7, 0xC67178F2]

/-- The round constants of SHA-384 and SHA-512. -/
def sha512K : List Nat :=
  [0x428A2F98D728AE22, 0x7137449123EF65CD, 0xB5C0FBCFEC4D3B2F, 0xE9B5DBA58189DBBC,
   0x3956C25BF348B538, 0x59F111F1B605D019, 0x923F82A4AF194F9B, 0xAB1C5ED5DA6D8118,
   0xD807AA98A3030242, 0x12835B0145706FBE, 0x243185BE4EE4B28C, 0x550C7DC3D5FFB4E2,
   0x72BE5D74F27B896F, 0x80DEB1FE3B1696B1, 0x9BDC06A725C71235, 0xC19BF174CF692694] ++
  [0xE49B69C19EF14AD2, 0xEFBE4786384F25E3, 0x0FC19DC68B8CD5B5, 0x240CA1CC77AC9C65,
   0x2DE92C6F592B0275, 0x4A7484AA6EA6E483, 0x5CB0A9DCBD41FBD4, 0x76F988DA831153B5,
   0x983E5152EE66DFAB, 0xA831C66D2DB43210, 0xB00327C898FB213F, 0xBF597FC7BEEF0EE4,
   0xC6E00BF33DA88FC2, 0xD5A79147930AA725, 0x06CA6351E003826F, 0x142929670A0E6E70] ++
  [0x27B70A8546D22FFC, 0x2E1B21385C26C926, 0x4D2C6DFC5AC42AED, 0x53380D139D95B3DF,
   0x650A73548BAF63DE, 0x766A0ABB3C77B2A8, 0x81C2C92E47EDAEE6, 0x92722C851482353B,
   0xA2BFE8A14CF10364, 0xA81A664BBC423001, 0xC24B8B70D0F89791, 0xC76C51A30654BE30,
   0xD192E819D6EF5218, 0xD69906245565A910, 0xF40E35855771202A, 0x106AA07032BBD1B8] ++
  [0x19A4C116B8D2D0C8, 0x1E376C085141AB53, 0x2748774CDF8EEB99, 0x34B0BCB5E19B48A8,
   0x391C0CB3C5C95A63, 0x4ED8AA4AE3418ACB, 0x5B9CCA4F7763E373, 0x682E6FF3D6B2B8A3,
   0x748F82EE5DEFB2FC, 0x78A5636F43172F60, 0x84C87814A1F0AB72, 0x8CC702081A6439EC,
   0x90BEFFFA23631E28, 0xA4506CEBDE82BDE9, 0xBEF9A3F7B2C67915, 0xC67178F2E372532B] ++
  [0xCA273ECEEA26619C, 0xD186B8C721C0C207, 0xEADA7DD6CDE0EB1E, 0xF57D4F7FEE6ED178,
   0x06F067AA72176FBA, 0x0A637DC5A2C898A6, 0x113F9804BEF90DAE, 0x1B710B35131C471B,
   0x28DB77F523047D84, 0x32CAAB7B40C72493, 0x3C9EBE0A15C9BEBC, 0x431D67C49C100D4C,
   0x4CC5D4BECB3E42B6, 0x597F299CFC657E2A, 0x5FCB6FAB3AD6FAEC, 0x6C44198C4A475817]

/-- The eight working words of a SHA-2 round. -/
structure ShaW where
  a : Nat
  b : Nat
  c : Nat
  d : Nat
  e : Nat
  f : Nat
  g : Nat
  h : Nat
  deriving DecidableEq, Repr

/-- What distinguishes SHA-256 from SHA-384: word width, the rotations of the four sigma
functions (the last of a small sigma is a shift), constants and first hash value. -/
structure ShaP where
  w : Nat
  s0 : Nat × Nat × Nat
  s1 : Nat × Nat × Nat
  e0 : Nat × Nat × Nat
  e1 : Nat × Nat × Nat
  k : List Nat
  iv : ShaW
  deriving DecidableEq, Repr

/-- Parameters of SHA-256. -/
def sha256P : ShaP :=
  { w := 32, s0 := (7, 18, 3), s1 := (17, 19, 10), e0 := (2, 13, 22), e1 := (6, 11, 25), k := sha256K,
    iv := ⟨0x6A09E667, 0xBB67AE85, 0x3C6EF372, 0xA54FF53A, 0x510E527F, 0x9B05688C, 0x1F83D9AB, 0x5BE0CD19⟩ }

/-- Parameters of SHA-384. -/
def sha384P : ShaP :=
  { w := 64, s0 := (1, 8, 7), s1 := (19, 61, 6), e0 := (28, 34, 39), e1 := (14, 18, 41), k := sha512K,
    iv := ⟨0xCBBB9D5DC1059ED8, 0x629A292A367CD507, 0x9159015A3070DD17, 0x152FECD8F70E5939,
      0x67332667FFC00B31, 0x8EB44A8768581511, 0xDB0C2E0D64F98FA7, 0x47B5481DBEFA4FA4⟩ }

/-- Big sigma. -/
def bigSigma (w : Nat) (r : Nat × Nat × Nat) (x : Nat) : Nat :=
  rotr w r.1 x ^^^ rotr w r.2.1 x ^^^ rotr w r.2.2 x

/-- Small sigma: the last term is a shift. -/
def smallSigma (w : Nat) (r : Nat × Nat × Nat) (x : Nat) : Nat :=
  rotr w r.1 x ^^^ rotr w r.2.1 x ^^^ x >>> r.2.2

/-- The message schedule, newest word first, extended by `n` words. -/
def shaSched (p : ShaP) : Nat → List Nat → List Nat
  | 0, l => l
  | n + 1, l =>
    shaSched p n ((smallSigma p.w p.s1 (nth l 1 0) + nth l 6 0 + smallSigma p.w p.s0 (nth l 14 0)
      + nth l 15 0) % 2 ^ p.w :: l)

/-- One round with schedule word plus constant `kw`. -/
def shaRound (p : ShaP) (s : ShaW) (kw : Nat) : ShaW :=
  let m := 2 ^ p.w
  let ch := (s.e &&& s.f) ^^^ ((m - 1 - s.e) &&& s.g)
  let t1 := s.h + bigSigma p.w p.e1 s.e + ch + kw
  let maj := (s.a &&& s.b) ^^^ (s.a &&& s.c) ^^^ (s.b &&& s.c)
  let t2 := bigSigma p.w p.e0 s.a + maj
  ⟨(t1 + t2) % m, s.a, s.b, s.c, (s.d + t1) % m, s.e, s.f, s.g⟩

/-- The big-endian words of `n` bytes each. -/
def beWords (n : Nat) : Nat → List Byte → List Nat
  | 0, _ => []
  | k + 1, bs => beNat (bs.take n) :: beWords n k (bs.drop n)

/-- One block of the compression function. -/
def shaBlock (p : ShaP) (s : ShaW) (blk : List Byte) : ShaW :=
  let w := (shaSched p (p.k.length - 16) (beWords (p.w / 8) 16 blk).reverse).reverse
  let r := (List.zipWith (· + ·) w p.k).foldl (shaRound p) s
  let m := 2 ^ p.w
  ⟨(s.a + r.a) % m, (s.b + r.b) % m, (s.c + r.c) % m, (s.d + r.d) % m,
   (s.e + r.e) % m, (s.f + r.f) % m, (s.g + r.g) % m, (s.h + r.h) % m⟩

/-- The blocks of a padded message. -/
def shaBlocks (p : ShaP) : Nat → ShaW → List Byte → ShaW
  | 0, s, _ => s
  | n + 1, s, bs =>
    shaBlocks p n (shaBlock p s (bs.take (2 * p.w))) (bs.drop (2 * p.w))

/-- The hash words of a message. -/
def shaHash (p : ShaP) (msg : List Byte) : ShaW :=
  let blk := 2 * p.w
  let zeros := (2 * blk - 1 - p.w / 4 - msg.length % blk) % blk
  let pad := msg ++ [0x80] ++ List.replicate zeros 0 ++ beBytes (p.w / 4) (8 * msg.length)
  shaBlocks p (pad.length / blk) p.iv pad

/-- SHA-256. -/
def sha256 (msg : List Byte) : List Byte :=
  let s := shaHash sha256P msg
  beBytes 4 s.a ++ beBytes 4 s.b ++ beBytes 4 s.c ++ beBytes 4 s.d ++ beBytes 4 s.e ++ beBytes 4 s.f
    ++ beBytes 4 s.g ++ beBytes 4 s.h

/-- SHA-384: the first six words. -/
def sha384 (msg : List Byte) : List Byte :=
  let s := shaHash sha384P msg
  beBytes 8 s.a ++ beBytes 8 s.b ++ beBytes 8 s.c ++ beBytes 8 s.d ++ beBytes 8 s.e ++ beBytes 8 s.f

/-- HMAC-SHA-256 (FIPS 198-1). -/
def hmacSha256 (key msg : List Byte) : List Byte :=
  let k0 := if key.length > 64 then sha256 key else key
  let k := k0 ++ List.replicate (64 - k0.length) 0
  sha256 (k.map (· ^^^ 0x5C) ++ sha256 (k.map (· ^^^ 0x36) ++ msg))

/-- ASCII bytes of a label. -/
def ascii (s : String) : List Byte := s.toList.map (fun c => BitVec.ofNat 8 c.toNat)

/-- Blocks 1 to `n` of the KDF of R81 for an output of `l` bits. -/
def kdfBlocks (k lbl ctx : List Byte) (l : Nat) : Nat → List Byte
  | 0 => []
  | n + 1 =>
    kdfBlocks k lbl ctx l n ++ hmacSha256 k (beBytes 4 (n + 1) ++ lbl ++ [0] ++ ctx ++ beBytes 4 l)

/-- kdf(k, label, context, L) of R81. -/
def kdf (k lbl ctx : List Byte) (l : Nat) : List Byte :=
  (kdfBlocks k lbl ctx l ((l + 255) / 256)).take (l / 8)

/-! ### AES (FIPS 197), CMAC (SP 800-38B), KW unwrap (SP 800-38F) -/

/-- Doubling in GF(2^8). -/
def gfDbl (x : Nat) : Nat := if x < 128 then 2 * x else (2 * x - 256) ^^^ 0x1B

/-- Product in GF(2^8), over the low `n` bits of `y`. -/
def gfMulN : Nat → Nat → Nat → Nat
  | 0, _, _ => 0
  | n + 1, x, y => (if y % 2 = 1 then x else 0) ^^^ gfMulN n (gfDbl x) (y / 2)

/-- Product in GF(2^8) modulo the AES polynomial. -/
def gfMul (x y : Nat) : Nat := gfMulN 8 x y

/-- Power in GF(2^8). -/
def gfPow (x : Nat) : Nat → Nat
  | 0 => 1
  | n + 1 => gfMul x (gfPow x n)

/-- The S-box: inverse in GF(2^8), then the affine map. -/
def aesSbox (x : Nat) : Nat :=
  let i := gfPow x 254
  let r (k : Nat) := (i <<< k ||| i >>> (8 - k)) % 256
  i ^^^ r 1 ^^^ r 2 ^^^ r 3 ^^^ r 4 ^^^ 0x63

/-- The inverse S-box, by search. -/
def aesInvSbox (y : Nat) : Nat := ((List.range 256).find? (fun x => aesSbox x == y)).getD 0

/-- Expansion of the key words, newest first, by `n` more words; `nk` words of key. -/
def aesExpand (nk : Nat) : Nat → Nat → List (List Nat) → List (List Nat)
  | 0, _, ws => ws
  | n + 1, i, ws =>
    let prev := nth ws 0 []
    let t :=
      if i % nk = 0 then
        let s := (prev.drop 1 ++ prev.take 1).map aesSbox
        List.zipWith (· ^^^ ·) s [gfPow 2 (i / nk - 1), 0, 0, 0]
      else if nk > 6 ∧ i % nk = 4 then prev.map aesSbox
      else prev
    aesExpand nk n (i + 1) (List.zipWith (· ^^^ ·) (nth ws (nk - 1) []) t :: ws)

/-- Splits a list into chunks of four. -/
def chunk4 : Nat → List Nat → List (List Nat)
  | 0, _ => []
  | n + 1, l => l.take 4 :: chunk4 n (l.drop 4)

/-- The round keys, 16 numbers each, in order of use for encryption. -/
def aesKeys (key : List Nat) : List (List Nat) :=
  let nk := key.length / 4
  let ws := (aesExpand nk (4 * (nk + 7) - nk) nk (chunk4 nk key).reverse).reverse
  (List.range (nk + 7)).map (fun r => ((ws.drop (4 * r)).take 4).flatten)

/-- One column of the column mix with the four coefficients of its first row. -/
def mixCol (m : List Nat) (c : List Nat) : List Nat :=
  (List.range 4).map (fun r =>
    (List.range 4).foldl (fun s k => s ^^^ gfMul (nth c k 0) (nth m ((k + 4 - r) % 4) 0)) 0)

/-- The column mix of a state of 16 numbers, column by column. -/
def mixCols (m s : List Nat) : List Nat := ((chunk4 4 s).map (mixCol m)).flatten

/-- The row shift: row r moves by `k` × r columns. -/
def shiftRows (k : Nat) (s : List Nat) : List Nat :=
  (List.range 16).map (fun i => nth s (((i / 4 + k * (i % 4)) % 4) * 4 + i % 4) 0)

/-- XOR of two lists of numbers. -/
def xorL (a b : List Nat) : List Nat := List.zipWith (· ^^^ ·) a b

/-- AES encryption rounds with the round keys left. -/
def aesEncRounds : List (List Nat) → List Nat → List Nat
  | [], s => s
  | [k], s => xorL (shiftRows 1 (s.map aesSbox)) k
  | k :: ks, s => aesEncRounds ks (xorL (mixCols [2, 3, 1, 1] (shiftRows 1 (s.map aesSbox))) k)

/-- AES encryption of one block. -/
def aesEnc (key : List Nat) (blk : List Nat) : List Nat :=
  match aesKeys key with
  | [] => blk
  | k :: ks => aesEncRounds ks (xorL blk k)

/-- AES decryption rounds, the round keys in reverse order. -/
def aesDecRounds : List (List Nat) → List Nat → List Nat
  | [], s => s
  | [k], s => xorL ((shiftRows 3 s).map aesInvSbox) k
  | k :: ks, s => aesDecRounds ks (mixCols [14, 11, 13, 9] (xorL ((shiftRows 3 s).map aesInvSbox) k))

/-- AES decryption of one block. -/
def aesDec (key : List Nat) (blk : List Nat) : List Nat :=
  match (aesKeys key).reverse with
  | [] => blk
  | k :: ks => aesDecRounds ks (xorL blk k)

/-- Numbers of bytes. -/
def toNats (bs : List Byte) : List Nat := bs.map (·.toNat)

/-- Bytes of numbers. -/
def ofNats (ns : List Nat) : List Byte := ns.map (BitVec.ofNat 8)

/-- Doubling of a 128-bit block for the CMAC subkeys. -/
def cmacDbl (x : Nat) : Nat := if x < 2 ^ 127 then 2 * x else (2 * x - 2 ^ 128) ^^^ 0x87

/-- CMAC chaining over `n` whole blocks. -/
def cmacChain (key : List Nat) : Nat → List Nat → List Nat → List Nat
  | 0, st, _ => st
  | n + 1, st, m => cmacChain key n (aesEnc key (xorL st (m.take 16))) (m.drop 16)

/-- AES-CMAC of a message. -/
def aesCmac (key msg : List Byte) : List Byte :=
  let k := toNats key
  let k1 := cmacDbl (beNat (ofNats (aesEnc k (List.replicate 16 0))))
  let k2 := cmacDbl k1
  let m := toNats msg
  let n := (m.length + 15) / 16 - 1
  let last := m.drop (16 * n)
  let fin := if last.length = 16 then xorL last (toNats (beBytes 16 k1))
    else xorL (last ++ [0x80] ++ List.replicate (15 - last.length) 0) (toNats (beBytes 16 k2))
  ofNats (aesEnc k (xorL (cmacChain k n (List.replicate 16 0) m) fin))

/-- The unwrapping steps of AES KW, from step `t` down: A and the n registers. -/
def kwSteps (kek : List Nat) (n : Nat) : Nat → List Nat → List (List Nat) → List Nat × List (List Nat)
  | 0, a, r => (a, r)
  | t + 1, a, r =>
    let i := t % n
    let b := aesDec kek (xorL a (toNats (beBytes 8 (t + 1))) ++ nth r i [])
    kwSteps kek n t (b.take 8) (upd r i (fun _ => b.drop 8))

/-- Splits a list into `n` chunks of eight. -/
def chunk8 : Nat → List Nat → List (List Nat)
  | 0, _ => []
  | n + 1, l => l.take 8 :: chunk8 n (l.drop 8)

/-- AES KW unwrap: the key, or none when the integrity check fails. -/
def kwUnwrap (kek wrapped : List Byte) : Option (List Byte) :=
  let w := toNats wrapped
  let n := w.length / 8 - 1
  let r := kwSteps (toNats kek) n (6 * n) (w.take 8) (chunk8 n (w.drop 8))
  if r.1 = List.replicate 8 0xA6 then some (ofNats r.2.flatten) else none

/-! ### P-384 (FIPS 186-5) -/

/-- The field prime. -/
def p384p : Nat := 2 ^ 384 - 2 ^ 128 - 2 ^ 96 + 2 ^ 32 - 1

/-- The group order. -/
def p384n : Nat :=
  0xFFFFFFFFFFFFFFFFFFFFFFFFFFFFFFFFFFFFFFFFFFFFFFFFC7634D81F4372DDF581A0DB248B0A77AECEC196ACCC52973

/-- The curve coefficient b. -/
def p384b : Nat :=
  0xB3312FA7E23EE7E4988E056BE3F82D19181D9C6EFE8141120314088F5013875AC656398D8A2ED19D2A85C8EDD3EC2AEF

/-- The base point. -/
def p384G : Nat × Nat :=
  (0xAA87CA22BE8B05378EB1C71EF320AD746E1D3B628BA79B9859F741E082542A385502F25DBF55296C3A545E3872760AB7,
   0x3617DE4A96262C6F5D9E98BF9292DC29F8F41DBD289A147CE9DA3113B5F0B8C00A60B1CE1D7E819D7A431D7C90EA0E5F)

/-- Power modulo `m` by squaring, over `n` bits of the exponent. -/
def powMod (m : Nat) : Nat → Nat → Nat → Nat
  | 0, _, _ => 1
  | n + 1, b, e =>
    let h := powMod m n (b * b % m) (e / 2)
    if e % 2 = 1 then b * h % m else h

/-- Inverse modulo a prime. -/
def invMod (m x : Nat) : Nat := powMod m 384 (x % m) (m - 2)

/-- Whether a pair is a point of the curve. -/
def p384On (q : Nat × Nat) : Bool :=
  q.1 < p384p && q.2 < p384p &&
  q.2 * q.2 % p384p == (q.1 * q.1 * q.1 + (p384p - 3) * q.1 + p384b) % p384p

/-- Point addition; `none` is the point at infinity. -/
def p384Add (a b : Option (Nat × Nat)) : Option (Nat × Nat) :=
  match a, b with
  | none, q => q
  | q, none => q
  | some (x1, y1), some (x2, y2) =>
    if x1 = x2 ∧ (y1 + y2) % p384p = 0 then none
    else
      let l := if x1 = x2 then (3 * x1 * x1 + (p384p - 3)) * invMod p384p (2 * y1) % p384p
        else (y2 + p384p - y1) * invMod p384p (x2 + p384p - x1) % p384p
      let x3 := (l * l + 2 * p384p - x1 - x2) % p384p
      some (x3, (l * (x1 + p384p - x3) + p384p - y1) % p384p)

/-- Scalar multiple over `n` bits of the scalar. -/
def p384MulN : Nat → Nat → Option (Nat × Nat) → Option (Nat × Nat)
  | 0, _, _ => none
  | n + 1, k, q =>
    let h := p384MulN n (k / 2) (p384Add q q)
    if k % 2 = 1 then p384Add q h else h

/-- Scalar multiple of a point. -/
def p384Mul (k : Nat) (q : Nat × Nat) : Option (Nat × Nat) := p384MulN 384 k (some q)

/-- ECDSA verification of a SHA-384 digest: public key X then Y, signature r then s, big-endian. -/
def ecdsaVerify (pub digest sig : List Byte) : Bool :=
  let q := (beNat (pub.take 48), beNat (pub.drop 48))
  let r := beNat (sig.take 48)
  let s := beNat (sig.drop 48)
  if !(p384On q) || r == 0 || s == 0 || p384n ≤ r || p384n ≤ s then false
  else
    let w := invMod p384n s
    let u1 := beNat digest * w % p384n
    let u2 := r * w % p384n
    match p384Add (p384Mul u1 p384G) (p384Mul u2 q) with
    | none => false
    | some (x, _) => x % p384n == r

/-- The device's private scalar d of R81. -/
def devScalar (rootKey uid : Nat) : Nat :=
  beNat (kdf (beBytes 32 rootKey) (ascii "VLNDEV") (beBytes 16 uid) 384) % (p384n - 1) + 1

/-- The device's public key Q, X then Y, big-endian (R81). -/
def devPub (rootKey uid : Nat) : List Byte :=
  match p384Mul (devScalar rootKey uid) p384G with
  | some (x, y) => beBytes 48 x ++ beBytes 48 y
  | none => List.replicate 96 0

/-! ### Check codes -/

/-- `n` bit steps of a reflected CRC. -/
def crcRefl (poly : Nat) : Nat → Nat → Nat
  | 0, c => c
  | n + 1, c => crcRefl poly n (if c % 2 = 1 then c / 2 ^^^ poly else c / 2)

/-- CRC-32, IEEE 802.3 polynomial. -/
def crc32 (bs : List Byte) : Nat :=
  bs.foldl (fun c b => crcRefl 0xEDB88320 8 (c ^^^ b.toNat)) 0xFFFFFFFF ^^^ 0xFFFFFFFF

/-- `n` bit steps of an MSB-first CRC of width `w`. -/
def crcMsb (w poly : Nat) : Nat → Nat → Nat
  | 0, c => c
  | n + 1, c =>
    crcMsb w poly n (if c < 2 ^ (w - 1) then 2 * c else (2 * c - 2 ^ w) ^^^ poly)

/-- An MSB-first CRC of width `w` over bytes. -/
def crcBytes (w poly init : Nat) (bs : List Byte) : Nat :=
  bs.foldl (fun c b => crcMsb w poly 8 (c ^^^ b.toNat <<< (w - 8))) init

end Sys2Proof.Machine
end

