-- ==== Sys2Proof/Machine/Fabric.lean ====
section
/-! DEFINITION. The fabric's packets and the sending of them (R399, R400, R410, R411), for PGF and for
the blocks that send over the fabric: refusals (R413), pair epochs (R414) and VJP messages (R412). -/

namespace Sys2Proof.Machine

/-! ### Device time (R425) -/

/-- Device time at a counter value, in ns. -/
def Dev.timeAt (d : Dev) (c : Nat) : Int :=
  d.ptp.t0 + ((c : Int) - d.ptp.c0) + ((c : Int) - d.ptp.c0) * sx 32 (d.rd R.PTP_RATE).toNat / 2 ^ 40

/-- A time in the PTP format: 48-bit seconds, then 32-bit nanoseconds. -/
def ptpBytes (t : Int) : List Byte :=
  let n := t.toNat
  leBytes 6 (n / 1000000000) ++ leBytes 4 (n % 1000000000)

/-! ### Ports and packets -/

/-- A fabric port beside its registers. -/
def Dev.fport (d : Dev) (p : Nat) : PgfPort := nth d.pgf.ports p {}

/-- Changes a fabric port. -/
def Dev.onFport (d : Dev) (p : Nat) (f : PgfPort → PgfPort) : Dev :=
  d.onPgf fun t => { t with ports := upd t.ports p f }

/-- A port is UP, on both lanes or on one. -/
def Dev.fportUp (d : Dev) (p : Nat) : Bool :=
  d.get (F.PGF_PORT_STAT_STATE p) == 3 || d.get (F.PGF_PORT_STAT_STATE p) == 4

/-- A port is a tree port (R407). -/
def Dev.treePort (d : Dev) (p : Nat) : Bool := d.fportUp p && d.get (F.PGF_PORT_STAT_TREE p) != 0

/-- Data blocks of a packet (R399). -/
def fabNblk (k : FabPkt) : Nat := 1 + (k.len + 7) / 8

/-- Credits that a packet takes of its class (R401). -/
def fabCredits (k : FabPkt) : Nat := (fabNblk k + 7) / 8

/-- The header word of a packet (R399). -/
def fabHeader (k : FabPkt) : Nat :=
  k.dst % 2 ^ 11 + k.src % 2 ^ 11 * 2 ^ 11 + (if k.bcast then 2 ^ 22 else 0) + k.hops % 32 * 2 ^ 23 +
  k.cls % 8 * 2 ^ 28 + k.ptype % 256 * 2 ^ 32 + k.len % 2 ^ 16 * 2 ^ 40

/-- A packet joins a port's output queue; a port that is not UP sends nothing. -/
def Dev.fabQueue (d : Dev) (p : Nat) (k : FabPkt) : Dev :=
  d.when (d.fportUp p) fun d => d.onFport p fun x => { x with queue := x.queue ++ [k] }

/-- The packet's next link. -/
def fabHop (k : FabPkt) : FabPkt := { k with hops := k.hops + 1 }

/-- This device's address, 0 before one is granted. -/
def Dev.fabAddr (d : Dev) : Nat := if d.get F.PGF_STAT_ADDRVALID = 1 then d.get F.PGF_STAT_ADDR else 0

/-- A packet of this device. -/
def Dev.fabPkt (d : Dev) (cls ptype dst : Nat) (bcast : Bool) (payload : List Byte) : FabPkt :=
  { dst := dst, src := d.fabAddr, bcast := bcast, hops := 0, cls := cls, ptype := ptype,
    len := payload.length, payload := payload }

/-- A packet is dropped under R410 and counted; more than 1,000 in 1 s raise source 157. -/
def Dev.fabDrop (d : Dev) (f : Fld) : Dev :=
  let c := d.c
  let same := decide (c < d.pgf.dropC + 1000000000)
  let n := if same then d.pgf.drops + 1 else 1
  let c0 := if same then d.pgf.dropC else c
  let d1 := (d.incSat f).onPgf fun t => { t with drops := n, dropC := c0 }
  d1.when (n == 1001) fun d => (d.put F.PGF_IRQ_STAT_DROP 1).report 157

/-- Forwards a packet on a port, under the hop limit of R410. -/
def Dev.fabForward (d : Dev) (p : Nat) (k : FabPkt) : Dev :=
  if 31 ≤ k.hops then d.fabDrop F.PGF_DROP_HOPS else d.fabQueue p (fabHop k)

/-- The entry of the table in force for a destination: 0 to 3 a port, 4 local, 7 no route. -/
def Dev.fabRoute (d : Dev) (dst : Nat) : Nat := spGet 7 d.pgf.table dst

/-- Sends a broadcast of this device on every tree port (R411). -/
def Dev.fabBroadcast (d : Dev) (ptype : Nat) (payload : List Byte) : Dev :=
  let k := d.fabPkt 1 ptype 0 true payload
  d.each ((List.range 4).filter d.treePort) fun d p => d.fabQueue p k

/-- Sends a packet of this device up (R400). -/
def Dev.fabSendUp (d : Dev) (ptype : Nat) (payload : List Byte) : Dev :=
  match d.pgf.parent with
  | none => d
  | some p => d.fabQueue p (d.fabPkt 1 ptype 0 false payload)

/-- Sends a packet of this device to an address. -/
def Dev.fabUnicast (d : Dev) (cls ptype dst : Nat) (payload : List Byte) : Dev :=
  let e := d.fabRoute dst
  if e < 4 then d.fabQueue e (d.fabPkt cls ptype dst false payload) else d.fabDrop F.PGF_DROP_NOROUTE

/-- Sends a packet of class 0 to the neighbour on a port; it may leave while the port comes up. -/
def Dev.fabLink (d : Dev) (p ptype : Nat) (payload : List Byte) : Dev :=
  let k := d.fabPkt 0 ptype 0 false payload
  d.onFport p fun x => { x with queue := x.queue ++ [k] }

/-! ### What other blocks send -/

/-- PAIRTAG of this device, 0 in SOLO (R413). -/
def Dev.pairTag (d : Dev) : Nat := if d.get F.TWN_STAT_ROLE = 0 then 0 else (d.rd R.TWN_PAIRTAG).toNat

/-- Broadcasts a REFUSE (R413). -/
def Dev.fabRefuse (d : Dev) (link id reason refId : Nat) : Dev :=
  d.fabBroadcast 0x20 (leBytes 2 link ++ leBytes 1 reason ++ leBytes 1 0 ++ leBytes 4 refId ++
    leBytes 8 id ++ leBytes 4 d.pairTag ++ leBytes 4 (d.rd R.TWN_EPOCH).toNat ++ leBytes 8 0)

/-- Broadcasts EPOCH, from a chip of a pair that is ACTIVE or STANDBY (R414). -/
def Dev.fabEpoch (d : Dev) : Dev :=
  let r := d.get F.TWN_STAT_ROLE
  d.when (d.get F.PGF_CFG_ENABLE == 1 && (r == 1 || r == 2)) fun d =>
    d.fabBroadcast 0x21 (leBytes 4 d.pairTag ++ leBytes 4 (d.rd R.TWN_EPOCH).toNat ++ leBytes 1 r ++ leBytes 7 0)

end Sys2Proof.Machine
end

