-- ==== Sys2Proof/Machine/Journal.lean ====
section
/-! DEFINITION. The journal in MRAM (R121 to R126), the items and their final states (R115 to R117),
the sending of VJP messages (R103, R104, R109, R110, R120), and reject requests (R248 to R250). -/

namespace Sys2Proof.Machine

/-! ### MRAM words -/

/-- The 64-bit MRAM word at an address. -/
def Dev.mrd (d : Dev) (a : Nat) : Nat := d.ld a 8

/-- Writes a 64-bit MRAM word and reads it back (R121, R124): the device after it, and whether the
read-back held. A word whose read-back fails is left with a value the spec does not give. After a
power-fail warning no write starts (R480). -/
def Dev.mwr (d : Dev) (a v : Nat) : Dev × Bool :=
  if d.sys.powerFail then (d, false)
  else if d.mramBad.contains a then
    let (x, d1) := d.fresh 64
    ((d1.st a 8 x).put F.JNL_IRQ_STAT_MRAMERR 1, false)
  else (d.st a 8 v, true)

/-- A word that JNL writes: source 24 when its read-back fails (R129). -/
def Dev.jwr (d : Dev) (a v : Nat) : Dev × Bool :=
  let r := d.mwr a v
  (r.1.when (!r.2 && !d.sys.powerFail) fun d => d.report 24, r.2)

/-- Writes JNL's words in order; false when one read-back failed. -/
def Dev.mwrs (d : Dev) (l : List (Nat × Nat)) : Dev × Bool :=
  l.foldl (fun (p : Dev × Bool) (w : Nat × Nat) =>
    let q := p.1.jwr w.1 w.2
    (q.1, p.2 && q.2)) (d, true)

/-- A device word (entry 8 gives the places): 32-bit value and its complement. -/
def dwFloor : Nat := 0x033A1800
def dwImage : Nat := 0x033A1808
def dwEraseSeq : Nat := 0x033A1810
def dwEraseLevel : Nat := 0x033A1818
def dwEpoch : Nat := 0x033A1820
def dwRole : Nat := 0x033A1828
def dwGen : Nat := 0x033A1830
def dwHarvest : Nat := 0x033A1840
def dwHvLast : Nat := 0x033A1848

/-- A 32-bit value with its bitwise complement in the upper half. -/
def withComp (v : Nat) : Nat := v % 2 ^ 32 + (2 ^ 32 - 1 - v % 2 ^ 32) * 2 ^ 32

/-- The value of a word of two halves, `none` when they disagree. -/
def compVal (w : Nat) : Option Nat :=
  if w / 2 ^ 32 = 2 ^ 32 - 1 - w % 2 ^ 32 then some (w % 2 ^ 32) else none

/-! ### Zone marks (R122) -/

def markAcc : Nat := 0
def markStg : Nat := 1
def markSch : Nat := 2
def markFrd : Nat := 3

/-- Address of the mark word of a zone and a ZSEQ. -/
def markAddr (z m zseq : Nat) : Nat := 0x03380000 + 2048 * (4 * z + m) + 8 * (zseq % 256)

/-- The mark word of a ZSEQ. -/
def markWord (zseq : Nat) : Nat := zseq % 2 ^ 48 + (2 ^ 16 - 1 - zseq % 2 ^ 16) * 2 ^ 48

/-- The ZSEQ of a mark word: `none` for a word that is 0 or fails its check. -/
def markVal (w : Nat) : Option Nat :=
  if w = 0 then none else if w = markWord (w % 2 ^ 48) then some (w % 2 ^ 48) else none

/-- The value of a mark: the largest ZSEQ among its 256 words whose check holds, else 0. -/
def Dev.mark (d : Dev) (z m : Nat) : Nat :=
  (List.range 256).foldl (fun x i => max x ((markVal (d.mrd (markAddr z m i))).getD 0)) 0

/-- Whether some non-zero word of a mark fails its check (source 27). -/
def Dev.markBad (d : Dev) (z m : Nat) : Bool :=
  (List.range 256).any (fun i =>
    let w := d.mrd (markAddr z m i)
    w != 0 && (markVal w).isNone)

/-- Writes a zone mark. -/
def Dev.putMark (d : Dev) (z m zseq : Nat) : Dev := (d.jwr (markAddr z m zseq) (markWord zseq)).1

/-- A zone's last used ZSEQ, in ITK_ZONEn_LASTLO and LASTHI. -/
def Dev.lastZseq (d : Dev) (z : Nat) : Nat := d.get64 (R.ITK_ZONE_LASTLO z) (R.ITK_ZONE_LASTHI z)

/-- Sets a zone's last used ZSEQ. -/
def Dev.setLastZseq (d : Dev) (z v : Nat) : Dev :=
  d.put64 (R.ITK_ZONE_LASTLO z) (R.ITK_ZONE_LASTHI z) (v % 2 ^ 48)

/-! ### Record slots (R123, R124) -/

def nSlots : Nat := 49152

/-- Address of a record slot. -/
def slotAddr (s : Nat) : Nat := mramBase + 64 * s

/-- Address of the in-use word of a slot. -/
def useAddr (s : Nat) : Nat := 0x033A0000 + 8 * (s / 64)

/-- The in-use bit of a slot. -/
def Dev.inUse (d : Dev) (s : Nat) : Bool := bitB (d.mrd (useAddr s)) (s % 64)

/-- A slot is free when its in-use bit is 0 and it is not quarantined. -/
def Dev.slotFree (d : Dev) (s : Nat) : Bool := !(d.inUse s) && !(d.itk.quar.contains s)

/-- First free slot at or after `s`, wrapping, within `n` tries. -/
def Dev.findSlot (d : Dev) : Nat → Nat → Option Nat
  | 0, _ => none
  | n + 1, s => if d.slotFree (s % nSlots) then some (s % nSlots) else d.findSlot n (s + 1)

/-- The slot the next record takes: the first free one at or after the one allocated last. -/
def Dev.nextSlot (d : Dev) : Option Nat := d.findSlot nSlots d.itk.lastSlot

/-- Sets or clears the in-use bit of a slot, and keeps JNL_STATUS.INUSE. -/
def Dev.setUse (d : Dev) (s : Nat) (b : Bool) : Dev × Bool :=
  if d.inUse s = b then (d, true)
  else
    let w := d.mrd (useAddr s)
    let r := d.jwr (useAddr s) (if b then w + 2 ^ (s % 64) else w - 2 ^ (s % 64))
    let n := d.get F.JNL_STATUS_INUSE
    (r.1.put F.JNL_STATUS_INUSE (if b then n + 1 else n - 1), r.2)

/-- Journal generation in force. -/
def Dev.gen (d : Dev) : Nat := d.get64 R.JNL_GENLO R.JNL_GENHI

/-- Bytes 0x00 to 0x2B of an item's record (R123). -/
def recBytes (i : Item) (pair : Bool) (gen : Nat) : List Byte :=
  leBytes 8 i.id ++ leBytes 6 i.zseq ++ leBytes 1 (i.zone % 16 + 16 * (i.sess % 8)) ++
  leBytes 1 ((if i.lateOk then 1 else 0) + (if pair then 2 else 0)) ++
  leBytes 4 i.lines ++ leBytes 4 i.page ++ leBytes 1 i.trig ++ leBytes 1 i.trigArg ++
  leBytes 6 i.offset ++ leBytes 8 gen ++ leBytes 4 (i.link % 2 ^ 16)

/-- Raises line 1 when the free slots fall below JNL_LOWMARK. -/
def Dev.lowCheck (d : Dev) : Dev :=
  d.when (nSlots - d.get F.JNL_STATUS_INUSE - d.itk.quar.length < d.get F.JNL_LOWMARK_FREE)
    (fun d => d.put F.JNL_IRQ_STAT_LOW 1)

/-- Quarantines a slot. -/
def Dev.quarantine (d : Dev) (s : Nat) : Dev :=
  if d.itk.quar.contains s then d
  else
    let d1 := d.onItk fun t => { t with quar := s :: t.quar }
    (d1.put F.JNL_STATUS_QUAR 1).put F.JNL_QUAR_COUNT (d.itk.quar.length + 1)

/-- The record write of R124 into slot `s`, steps 1 to 7: the device after it, and whether every
read-back held. -/
def Dev.writeRecord (d : Dev) (s : Nat) (i : Item) (pair : Bool) : Dev × Bool :=
  let g := d.gen + 1
  let b := recBytes i pair g
  let a := slotAddr s
  let w (o : Nat) : Nat × Nat := (a + o, fieldLE b o 8)
  let crc := crc32 b
  let r1 := d.mwrs [(a + 0x28, 0), (a + 0x30, 0), (a + 0x38, 0), w 0x00, w 0x08, w 0x10, w 0x18, w 0x20,
    (a + 0x28, i.link % 2 ^ 16 + crc * 2 ^ 32)]
  let r2 := r1.1.setUse s r1.2
  let r3 := if r1.2 then r2.1.jwr (markAddr i.zone markAcc i.zseq) (markWord i.zseq) else (r2.1, false)
  let r4 := r3.1.mwrs [(dwGen, g), (dwGen + 8, 2 ^ 64 - 1 - g)]
  (((r4.1.put64 R.JNL_GENLO R.JNL_GENHI g).lowCheck), r1.2 && r2.2 && r3.2)

/-- Whether a slot's record passes its CRC. -/
def Dev.recOk (d : Dev) (s : Nat) : Bool :=
  crc32 (d.ldBs (slotAddr s) 0x2C) == d.ld (slotAddr s + 0x2C) 4

/-- The item that the bytes of a record describe, in state ACCEPTED; its page data are not known. -/
def itemOfRec (b : List Byte) (s : Nat) : Item :=
  let ld (o n : Nat) : Nat := fieldLE b o n
  { id := ld 0 8, zseq := ld 8 6, zone := ld 0x0E 1 % 16, trig := ld 0x18 1, trigArg := ld 0x19 1, lines := ld 0x10 4,
    lateOk := ld 0x0F 1 % 2 = 1, link := ld 0x28 2, offset := ld 0x1A 6, page := ld 0x14 4, blocks := 0,
    fields := [], sess := ld 0x0E 1 / 16 % 8, slot := s, state := 1 }

/-- The item a slot's record describes. -/
def Dev.recItem (d : Dev) (s : Nat) : Item := itemOfRec (d.ldBs (slotAddr s) 0x2C) s

/-- The FIRE word of a slot. -/
def Dev.fireWord (d : Dev) (s : Nat) : Nat := d.mrd (slotAddr s + 0x30)

/-- The FINAL word of a slot. -/
def Dev.finalWord (d : Dev) (s : Nat) : Nat := d.mrd (slotAddr s + 0x38)

/-- A FINAL word: state, reason, defects and the check of R123. -/
def mkFinal (state reason defects : Nat) : Nat :=
  let lo := state % 256 + reason % 256 * 256
  lo + min defects 65535 * 2 ^ 16 + (2 ^ 16 - 1 - lo) * 2 ^ 48

/-- Whether a FINAL word's check holds. -/
def finalOk (w : Nat) : Bool := w / 2 ^ 48 == 2 ^ 16 - 1 - w % 2 ^ 16 && w / 2 ^ 32 % 2 ^ 16 == 0

/-! ### Item states (R115) -/

def isAccepted : Nat := 1
def isStaged : Nat := 2
def isScheduled : Nat := 3
def isFiring : Nat := 4
def isFired : Nat := 5
def isPrinted : Nat := 8
def isDefect : Nat := 9
def isDegraded : Nat := 10
def isNotPrinted : Nat := 11
def isInterrupted : Nat := 12
def isCancelled : Nat := 13

/-- An item that is live (R12). -/
def Item.live (i : Item) : Bool := i.state < 8

/-- The items held in unretired records. -/
def Dev.findItem (d : Dev) (id : Nat) : Option Item := d.itk.items.find? (fun i => i.id == id)

/-- Changes the item with an ID. -/
def Dev.updItem (d : Dev) (id : Nat) (f : Item → Item) : Dev :=
  d.onItk fun t => { t with items := t.items.map fun i => if i.id = id then f i else i }

/-- The live items of a zone, counted in ITK_ZONEn_STAT.LIVE. -/
def Dev.liveCount (d : Dev) (z : Nat) : Nat :=
  (d.itk.items.filter (fun i => i.live && i.zone == z)).length

/-- Brings ITK_ZONEn_STAT.LIVE up to date. -/
def Dev.syncLive (d : Dev) (z : Nat) : Dev := d.put (F.ITK_ZONE_STAT_LIVE z) (d.liveCount z)

/-- READY or PRINTING, as some item is FIRING or none is (R9); on entry to PRINTING every DRAM channel
leaves self-refresh (R446). -/
def Dev.syncPrinting (d : Dev) : Dev :=
  let firing := d.itk.items.any (fun i => i.state == isFiring)
  if d.st? = stReady ∧ firing then
    (d.enter stPrinting).onDmc fun t => { t with selfRef := List.replicate 8 false }
  else if d.st? = stPrinting ∧ !firing then d.enter stReady
  else d

/-! ### Positions (R236, R237) -/

/-- `a` is later than `b`, modulo 2^48. -/
def later48 (a b : Nat) : Bool :=
  let x := (a + 2 ^ 48 - b % 2 ^ 48) % 2 ^ 48
  1 ≤ x && x < 2 ^ 47

/-- The zone position `z` has passed the position named. -/
def passed (z p : Nat) : Bool := z % 2 ^ 48 == p % 2 ^ 48 || later48 z p

/-- H of an encoder plus OFS_e, which is 0 but on a chip that has joined a pair (R383), modulo 2^80. -/
def Dev.pairH (d : Dev) (e : Nat) : Nat :=
  ((nth d.pos.encs e {}).h + 2 ^ 16 * d.get64 (R.TWN_ENC_OFSLO e) (R.TWN_ENC_OFSHI e)) % 2 ^ 80

/-- The position of a zone: H of its encoder in whole sub-lines, modulo 2^48. -/
def Dev.zonePos (d : Dev) (z : Nat) : Nat :=
  d.pairH (d.get (F.POS_ZONE_CFG_ENC z)) / 2 ^ 32 % 2 ^ 48

/-! ### Rows of a zone (R177) -/

/-- The rows of the geometry that a zone's ROWMASK names. -/
def Dev.zoneRows (d : Dev) (z : Nat) : List Nat :=
  (List.range 16).filter (fun r => d.bit (F.RAS_ZONE_CFG_ROWMASK z) r)

/-- DELAY of a row. -/
def Dev.rowDelay (d : Dev) (r : Nat) : Nat := d.get (F.RAS_ROW_DELAY_DELAY r)

/-- The least DELAY over a zone's rows. -/
def Dev.minDelay (d : Dev) (z : Nat) : Nat :=
  match d.zoneRows z with
  | [] => 0
  | r :: rs => rs.foldl (fun m x => min m (d.rowDelay x)) (d.rowDelay r)

/-- The greatest DELAY over a zone's rows. -/
def Dev.maxDelay (d : Dev) (z : Nat) : Nat :=
  (d.zoneRows z).foldl (fun m x => max m (d.rowDelay x)) 0

/-- A pass of a feed set (R186), from its four table words: OFFSET, XSHIFT, PLSTEP, PLPHASE, PLO, PHI. -/
structure Pass where
  offset : Nat := 0
  xshift : Int := 0
  plstep : Nat := 1
  plphase : Nat := 0
  plo : Nat := 0
  phi : Nat := 255
  deriving DecidableEq, Repr

/-- Pass `p` of feed set `s`; a pass that the set does not have reads PLSTEP 0. -/
def Dev.feedPass (d : Dev) (s p : Nat) : Pass :=
  let w (j : Nat) : Nat := (d.rd (R.RAS_FEED_PASSW s p j)).toNat
  { offset := w 0, xshift := sx 16 (w 1), plstep := bits (w 1) 16 8, plphase := bits (w 1) 24 8,
    plo := bits (w 2) 0 8, phi := bits (w 2) 8 8 }

/-- The passes of a zone in order: one whole pass in a single-pass zone (R176, R185, R187). -/
def Dev.passes (d : Dev) (z : Nat) : List Pass :=
  let f := d.get (F.RAS_ZONE_CFG_FEED z)
  if f = 0 then [{}]
  else ((List.range 16).map fun p => d.feedPass (f - 1) p).takeWhile fun p => p.plstep != 0

/-- OFFSET of a zone's last pass. -/
def Dev.lastOffset (d : Dev) (z : Nat) : Nat := (((d.passes z).getLast?).getD {}).offset

/-- Position of an item's first line (R113). -/
def Dev.firstLine (d : Dev) (i : Item) : Nat := (i.firstPos + d.minDelay i.zone) % 2 ^ 48

/-- Position of an item's last line: its last line on the row of greatest DELAY, in the last pass
(R177). -/
def Dev.lastLine (d : Dev) (i : Item) : Nat :=
  (i.firstPos + d.lastOffset i.zone + 64 * (i.lines - 1) + d.maxDelay i.zone) % 2 ^ 48

/-! ### The twin link (R375, R381 to R384) -/

/-- Sends a message of the twin link: it takes the next MSEQ and waits for its MACK (R375). -/
def Dev.twSend (d : Dev) (type : Nat) (body : List Nat) : Dev :=
  let un := d.twn.unacked ++ [(d.twn.mseq, type, body)]
  let d1 := d.onTwn fun t => { t with mseq := (t.mseq + 1) % 2 ^ 16, unacked := un }
  d1.emit (.twn type (d.twn.mseq :: body))

/-- The chip decides its inputs and finalises its items: SOLO or ACTIVE (R372, R381). -/
def Dev.decides (d : Dev) : Bool := d.get F.TWN_STAT_ROLE = 0 || d.get F.TWN_STAT_ROLE = 1

/-- An ACTIVE that replicates to its partner (R384, R385). -/
def Dev.replicates (d : Dev) : Bool := d.get F.TWN_STAT_ROLE = 1 && d.get F.TWN_STAT_ALONE = 0

/-- An ACTIVE sends an input that it has decided (R381, R382); `unit` and `count` name the event that it
precedes, with COUNT 0 for one that applies as it comes. -/
def Dev.twInput (d : Dev) (kind unit count : Nat) (args : List Nat) : Dev :=
  d.when d.replicates fun d => d.twSend 0x20 ([kind, unit, count] ++ args)

/-! ### Reject requests (R248 to R250) -/

/-- Inserts a request in position order of its zone's own positions. -/
def rejInsert (q : List (Nat × Nat)) (z p : Nat) : List (Nat × Nat) :=
  match q with
  | [] => [(z, p)]
  | (z1, p1) :: r => if later48 p1 p then (z, p) :: (z1, p1) :: r else (z1, p1) :: rejInsert r z p

/-- Starts a pulse on an output: it ends after WIDTH sub-lines and at least MINTIME. -/
def Dev.rejPulse (d : Dev) (o z : Nat) : Dev :=
  let pe := (d.zonePos z + d.get (F.POS_REJ_CFG_WIDTH o)) % 2 ^ 48
  let te := d.c * 1000 + d.get (F.POS_REJ_CFG_MINTIME o) * 1000000
  d.onPos fun p => { p with rejs := upd p.rejs o fun r =>
    { r with pulses := r.pulses ++ [(z, pe, te)], asserted := true } }

/-- One reject request of a zone on one output at a position. -/
def Dev.rejRequest1 (d : Dev) (o z p : Nat) : Dev :=
  let d1 := d.incWrap (F.POS_REJ_COUNT_COUNT o)
  if d.st? = stSafe then d1
  else if passed (d1.zonePos z) p then
    (((d1.rejPulse o z).incSat (F.POS_REJ_STAT_LATECNT o)).put F.POS_IRQ_STAT_REJ 1).report 91
  else if (nth d1.pos.rejs o {}).queue.length < 256 then
    let q := rejInsert (nth d1.pos.rejs o {}).queue z p
    let d2 := d1.onPos fun p => { p with rejs := upd p.rejs o fun r => { r with queue := q } }
    d2.put (F.POS_REJ_STAT_PENDING o) q.length
  else
    let d2 := d1.onPos fun p => { p with rejs := upd p.rejs o fun r => { r with asserted := true } }
    ((d2.put (F.POS_REJ_STAT_HELD o) 1).put F.POS_IRQ_STAT_REJ 1).report 92

/-- A reject request of a zone at a position, on the outputs of POS_ZONEz_CFG.REJOUT. -/
def Dev.rejAt (d : Dev) (z p : Nat) : Dev :=
  let o := d.get (F.POS_ZONE_CFG_REJOUT z)
  (d.when (o % 2 = 1) (fun d => d.rejRequest1 0 z p)).when (o / 2 = 1) (fun d => d.rejRequest1 1 z p)

/-- A reject request of the chip that decides; its partner's queue mirrors it (R374). -/
def Dev.rejRequest (d : Dev) (z p : Nat) : Dev :=
  if d.decides then (d.twInput 13 z 0 [p]).rejAt z p else d

/-- The reject request of an item that was bound: at its first-line position plus REJDIST. -/
def Dev.rejItem (d : Dev) (i : Item) : Dev :=
  d.rejRequest i.zone ((d.firstLine i + d.get (F.POS_ZONE_REJDIST_DIST i.zone)) % 2 ^ 48)

/-- Whether REJMASK selects a final state (R248). -/
def Dev.rejMask (d : Dev) (z state : Nat) : Bool :=
  let m := d.get (F.POS_ZONE_CFG_REJMASK z)
  (state == isDefect && bitB m 0) || (state == isDegraded && bitB m 1) ||
  (state == isInterrupted && bitB m 2) || (state == isNotPrinted && bitB m 3)

/-! ### Final states (R115 to R117, R124) -/

/-- Tells the fabric that an item with a LINK was refused (R119, R413): the refusal leaves through
PGF when the device holds an address and ENABLE is set. -/
def Dev.sendRefusal (d : Dev) (link id reason : Nat) : Dev :=
  if link = 0 then d
  else
    let d1 := (d.put F.ITK_IRQ_STAT_LINKREF 1).report 47
    if d1.get F.PGF_STAT_ADDRVALID = 1 ∧ d1.get F.PGF_CFG_ENABLE = 1 then
      let d2 := d1.incWrap F.PGF_REFCNT_SENT
      let rep := d2.pgf.refRepeat ++ [(link, id, reason, d2.pgf.refId, 2)]
      let d3 := d2.onPgf fun p => { p with refId := (p.refId + 1) % 2 ^ 32, refRepeat := rep }
      d3.fabRefuse link id reason d2.pgf.refId
    else d1

/-- Writes an item's FINAL word with up to three tries (R124); false when the last read-back fails. -/
def Dev.writeFinal (d : Dev) (slot w : Nat) : Dev × Bool :=
  let a := slotAddr slot + 0x38
  if d.mramBad.contains a then (((d.mwr a w).1.mwr a w).1.mwr a w) else d.mwr a w

/-- Gives an item its final state and reason: the FINAL word is written, the item's record keeps
it, a NOT_PRINTED item with a LINK is refused to its group unless a refusal caused it (R119), REJMASK may
ask for a reject pulse of an item that was bound (`bound`), and the page may begin its HOLD (R108). The
partner gets the word (R384); a chip that only follows refuses nothing. -/
def Dev.finaliseHere (d : Dev) (id state reason : Nat) (bound : Bool) (rejected : Bool := false) : Dev :=
  match d.findItem id with
  | none => d
  | some i =>
    if !i.live || i.stuck then d
    else
      let r := d.writeFinal i.slot (mkFinal state reason i.defects)
      if !r.2 then (r.1.updItem id (fun j => { j with stuck := true })).report 24
      else
        let d1 := r.1.updItem id (fun j => { j with state := state, reason := reason })
        let d2 := d1.syncLive i.zone
        let d3 := d2.when (state == isNotPrinted && reason != 0x08 && d2.decides) (fun d => d.sendRefusal i.link i.id reason)
        let d4 := d3.when (bound && !rejected && !i.rejected && d3.rejMask i.zone state) (fun d => d.rejItem i)
        let d5 := d4.when d4.replicates fun d =>
          (d.twSend 0x11 [i.slot, mkFinal state reason i.defects]).onTwn fun t => { t with jackWait := t.jackWait ++ [i.slot] }
        let now := d5.c
        let d6 := d5.onItk fun t =>
          { t with pages := t.pages.map fun p => if p.page = i.page then { p with since := max p.since now } else p }
        d6.syncPrinting

/-- The chip that decides finalises an item; on any other, its final state comes from the ACTIVE (R381,
R392). -/
def Dev.finalise (d : Dev) (id state reason : Nat) (bound : Bool) (rejected : Bool := false) : Dev :=
  if d.decides then d.finaliseHere id state reason bound rejected else d

/-! ### VJP messages to the host -/

/-- The session state of a slot: 0 closed, 1 open, 2 lost. -/
def Dev.sessState (d : Dev) (n : Nat) : Nat := d.get (F.ITK_SESS_STAT_STATE n)

/-- A session slot's zone mask includes a zone (R100). -/
def Dev.sessZone (d : Dev) (n z : Nat) : Bool := z < 16 && d.bit (F.ITK_SESS_CFG_ZONES n) z

/-- SACK of a session: bit i for message ACK + 1 + i held (R98). -/
def Sess.sack (s : Sess) : Nat :=
  (List.range 32).foldl (fun x i =>
    if s.held.any (fun h => h.1 == (s.ack + 1 + i) % 2 ^ 32) then x + 2 ^ i else x) 0

/-- The bytes of a VJP message from its header fields and body, without its tag (R98). -/
def vjpBytes (flags slot sid seq ack sack type : Nat) (body : List Byte) : List Byte :=
  [0x56, 0x4A, 1] ++ leBytes 1 type ++ leBytes 2 (48 + body.length) ++ leBytes 1 flags ++
  leBytes 1 slot ++ leBytes 4 sid ++ leBytes 4 seq ++ leBytes 4 ack ++ leBytes 4 sack ++
  leBytes 8 0 ++ body

/-- A whole message with its tag under a key (R98, R99). -/
def vjpTagged (key : List Byte) (m : List Byte) : List Byte := m ++ (hmacSha256 key m).take 16

/-- Puts one message of a session on the wire, with the session's present ACK and SACK (R104), over the
transport of its latest valid host message (R412). -/
def Dev.wire (d : Dev) (n : Nat) (type seq flags : Nat) (body : List Byte) : Dev :=
  let s := nth d.itk.sess n {}
  let m := vjpTagged s.key (vjpBytes flags n (d.get (F.ITK_SESS_SID_SID n)) seq s.ack s.sack type body)
  if s.via = 0xFFFF then d.emit (.vjp n type seq m) else d.fabUnicast 2 0x30 s.via m

/-- Changes a session slot. -/
def Dev.updSess (d : Dev) (n : Nat) (f : Sess → Sess) : Dev :=
  d.onItk fun t => { t with sess := upd t.sess n f }

/-- Sends a message that uses up a sequence number: at once with room among the 256, else it waits
in SEQ order (R104). -/
def Dev.sendSeq (d : Dev) (n type : Nat) (body : List Byte) : Dev :=
  if d.sessState n ≠ 1 then d
  else
    let s := nth d.itk.sess n {}
    let m : TxMsg := { seq := s.txNext % 2 ^ 32, type := type, body := body }
    if s.unacked.length < 256 ∧ s.waiting = [] then
      let iv := if s.unacked = [] ∧ s.interval = 0 then d.get (F.ITK_SESS_CFG2_RTO n) else s.interval
      let nx := (s.txNext + 1) % 2 ^ 32
      let un := s.unacked ++ [m]
      let tc := if s.unacked = [] then d.c else s.timerC
      let d1 := d.updSess n fun s =>
        { s with txNext := nx, unacked := un, ackDue := false, interval := iv, timerC := tc }
      (d1.put (F.ITK_SESS_STAT_UNACKED n) (s.unacked.length + 1)).wire n type m.seq 0 body
    else d.updSess n fun s => { s with txNext := (s.txNext + 1) % 2 ^ 32, waiting := s.waiting ++ [m] }

/-- A RESULT (R109). -/
def Dev.result (d : Dev) (n reqSeq reqType status state reason item x : Nat) : Dev :=
  d.sendSeq n 0x20 (leBytes 4 reqSeq ++ leBytes 1 reqType ++ leBytes 1 status ++ leBytes 1 state ++
    leBytes 1 reason ++ leBytes 8 item ++ leBytes 8 x ++ leBytes 8 0)

/-- The body of an EVENT (R120). -/
def eventBody (code zone a0 a1 : Nat) : List Byte :=
  leBytes 2 code ++ leBytes 1 zone ++ leBytes 5 0 ++ leBytes 8 a0 ++ leBytes 8 a1

/-- Sends an EVENT to every open session whose zone mask includes the zone, or to every open
session for zone 0xFF (R120); a chip that does not decide sends none (R390, R392). -/
def Dev.event (d : Dev) (code zone a0 a1 : Nat) : Dev :=
  d.each (List.range 8) (fun d n =>
    d.when (d.decides && d.sessState n = 1 && (zone == 0xFF || d.sessZone n zone))
      (fun d => d.sendSeq n 0x22 (eventBody code zone a0 a1)))

/-- The lowest-numbered open session whose zone mask includes the zone (R116). -/
def Dev.finalSess (d : Dev) (z : Nat) : Option Nat :=
  (List.range 8).find? (fun n => d.sessState n = 1 && d.sessZone n z)

/-- The body of a FINAL (R110). -/
def finalBody (i : Item) : List Byte :=
  leBytes 8 i.id ++ leBytes 6 i.zseq ++ leBytes 1 i.zone ++ leBytes 1 i.state ++ leBytes 1 i.reason ++
  leBytes 1 0 ++ leBytes 2 (min i.defects 65535) ++ leBytes 6 (if i.entered then i.firstPos else 0) ++ leBytes 6 0

/-- Sends an item's FINAL on the lowest qualifying session, once per session. -/
def Dev.sendFinal (d : Dev) (i : Item) : Dev :=
  match d.finalSess i.zone with
  | none => d
  | some n =>
    if i.finalOn = some n then d
    else (d.updItem i.id (fun j => { j with finalOn := some n })).sendSeq n 0x21 (finalBody i)

/-- Whether a final item's FINAL may leave: both chips hold the word (R116, R384). -/
def Dev.finalDue (d : Dev) (i : Item) : Bool :=
  !i.live && !i.stuck && i.finalOn.isNone && d.get F.TWN_STAT_ACCHOLD = 0 &&
  (d.get F.TWN_STAT_ROLE = 0 || (d.get F.TWN_STAT_ROLE = 1 &&
    (d.get F.TWN_STAT_ALONE = 1 || i.finalJacked)))

/-- Retires an item: the in-use bit is cleared and the item is forgotten (R116, R124). -/
def Dev.retire (d : Dev) (id : Nat) : Dev :=
  match d.findItem id with
  | none => d
  | some i =>
    let d1 := (d.setUse i.slot false).1
    d1.onItk fun t => { t with items := t.items.filter fun j => j.id != id }

end Sys2Proof.Machine
end

