-- ==== Sys2Proof/Machine/Fault.lean ====
section
/-! DEFINITION. The pair role's own operations (R374, R378, R391, R392), the fault collector (R460 to
R466, R471), the safe state (R472, R473), the harvest (R474 to R476) and the device resets (R44). -/

namespace Sys2Proof.Machine

/-! ### Pair role -/

def roleSolo : Nat := 0
def roleActive : Nat := 1
def roleStandby : Nat := 2
def roleSyncing : Nat := 3
def roleFenced : Nat := 4

/-- The pair role (R13, R372). -/
def Dev.role (d : Dev) : Nat := d.get F.TWN_STAT_ROLE

/-- Takes a pair role; line 0 rises on a change, and a role of ACTIVE or FENCED is stored in MRAM
as the last role (R378, R390, R392). ACT on the head links follows R372. -/
def Dev.setRole (d : Dev) (r : Nat) : Dev :=
  if d.role = r then d
  else
    let d1 := (d.put F.TWN_STAT_ROLE r).put F.TWN_IRQ_STAT_ROLE 1
    let d2 := d1.when (r == roleActive || r == roleFenced) fun d => (d.mwr dwRole (withComp r)).1
    (d2.put F.HLK_EPOCH_ACT (if r = roleSolo ∨ r = roleActive then 1 else 0)).fabEpoch

/-- Takes an epoch: written to MRAM and read back before anything carries it (R378). -/
def Dev.setEpoch (d : Dev) (e : Nat) : Dev :=
  (((d.mwr dwEpoch (withComp e)).1.wrN R.TWN_EPOCH e).put F.HLK_EPOCH_EPOCH e).fabEpoch

/-- Fencing: the chip enters FENCED and raises source 40 (R392). -/
def Dev.fence (d : Dev) : Dev :=
  if d.role = roleFenced then d else (d.setRole roleFenced).report 40

/-- `a` is later than `b` as epochs, under serial arithmetic modulo 2^32 (R392). -/
def later32 (a b : Nat) : Bool :=
  let x := (a + 2 ^ 32 - b % 2 ^ 32) % 2 ^ 32
  0 < x && x < 2 ^ 31

/-- A later epoch than the chip's own is learned: a chip of a pair that is not FENCED is fenced, and
TWN line 7 rises (R288, R392). `w` is 16 on head lanes and 32 elsewhere. -/
def Dev.learnEpoch (d : Dev) (w e : Nat) : Dev :=
  let x := (e + 2 ^ w - (d.rd R.TWN_EPOCH).toNat % 2 ^ w) % 2 ^ w
  d.when (d.get F.TWN_CFG_PAIR == 1 && x != 0 && decide (x < 2 ^ (w - 1))) fun d =>
    (d.put F.TWN_IRQ_STAT_EPOCH 1).fence

/-- ALIVE toggles (R377, R480): ACTIVE or STANDBY, with no fault of severity SAFE or FATAL in force,
outside the safe state and without a power-fail warning. -/
def Dev.aliveOut (d : Dev) : Bool :=
  (d.role = roleActive || d.role = roleStandby) && d.st? ≠ stSafe &&
  !(d.pendAny (fun s => 4 ≤ s)) && !d.sys.off && !d.sys.powerFail

/-- The shared outputs are driven (R372, R374). -/
def Dev.drivesShared (d : Dev) : Bool := d.decides

/-- The first event of each head whose FIRE has not been sent (R388). -/
def Dev.takeoverCounts (d : Dev) : List Nat := d.fir.heads.map (fun h => h.sent + 1)

/-- Resignation of an ACTIVE (R389, R391): RESIGN with the cause and the takeover counts, ACT 0,
shared outputs released, source 38. `counts` are the takeover points. -/
def Dev.resign (d : Dev) (cause : Nat) (counts : List Nat) : Dev :=
  let d1 := (d.twSend 0x40 (cause :: counts)).onTwn fun t => { t with tko := counts }
  let d2 := (d1.setRole roleFenced).put F.TWN_LASTTKO_CAUSE cause
  d2.report 38

/-- An ACTIVE whose partner is STANDBY and can take over (R389). -/
def Dev.canResign (d : Dev) : Bool :=
  d.role = roleActive && d.get F.TWN_STAT_PROLE = roleStandby && d.get F.TWN_STAT_LINKUP = 1

/-! ### Records of the collector -/

/-- The block that owns a source, by the name prefix of R467. -/
def srcBlock (s : Nat) : Option Nat :=
  if s < 8 then some 0 else if s < 16 then some 1 else if s < 24 then some 2
  else if s < 32 then some 3 else if s < 36 then some 4 else if s < 44 then some 5
  else if s < 52 then some 7 else if s < 60 then some 8 else if s < 64 then some 9
  else if s < 72 then some 10 else if s < 80 then some 11 else if s < 84 then some 12
  else if s < 88 then some 13 else if s < 96 then some 14 else if s < 104 then some 15
  else if s < 120 then some 16 else if s < 128 then some 17 else if s < 136 then some 18
  else if s < 138 ∨ s = 142 then some 19 else if s < 144 then some 20
  else if s < 152 then some 21 else if s < 160 then some 22 else if s < 164 then some 23
  else if s < 168 then some 24 else if s < 176 then some 25 else if s < 179 then some 26
  else if s < 184 then some 27 else none

/-- Device time in PTP form at a counter value, as 10 bytes. -/
def Dev.timeBytes (d : Dev) (c : Nat) : List Byte := ptpBytes (d.timeAt c)

/-- A record to be written: source, severity, flags, DETAIL. -/
structure HistRec where
  src : Nat
  sev : Nat
  flags : Nat
  detail : Nat
  deriving DecidableEq, Repr

/-- The 32 bytes of a history record (R462). -/
def Dev.histBytes (d : Dev) (r : HistRec) : List Byte :=
  leBytes 1 r.src ++ leBytes 1 r.sev ++ leBytes 1 r.flags ++ leBytes 1 d.st? ++
  leBytes 4 d.sys.histSeq ++ leBytes 8 d.c ++ d.timeBytes d.c ++ leBytes 2 0 ++ leBytes 4 r.detail

/-- Counts a lost record (R463): LOSTCNT, line 3, LOSTBEFORE on the next record kept, and source 34
pending without a record when LOSTCNT leaves 0. -/
def Dev.loseRecord (d : Dev) : Dev :=
  let first := d.get F.FLT_LOSTCNT_COUNT = 0
  let d1 := (d.incSat F.FLT_LOSTCNT_COUNT).put F.FLT_IRQ_STAT_LOST 1
  let d2 := d1.onSys fun s => { s with lostBefore := true }
  d2.when first fun d => d.setBit (F.FLT_PEND_PEND 1) 2

/-- Copies the owning block's first sixteen registers into FLT_DETAIL0 to FLT_DETAIL15 (R462). -/
def Dev.captureDetail (d : Dev) (src : Nat) : Dev :=
  d.each (List.range 16) fun d w =>
    d.wr (R.FLT_DETAIL w) (match srcBlock src with
      | some b => d.rd (blockBase b + 4 * w)
      | none => 0)

/-- Puts a record into the ring (R462), in the mode of FLT_CFG.MODE. -/
def Dev.writeRec (d : Dev) (r0 : HistRec) : Dev :=
  if d.get F.FLT_STAT_FROZEN = 1 then d.loseRecord
  else
    let r := if d.sys.lostBefore then { r0 with flags := r0.flags + 8 } else r0
    let detail := d.get F.FLT_CFG_MODE = 1
    let opens := detail && d.sys.capOpen && d.get F.FLT_CFG_DETSEV ≤ r.sev
    let d0 := d.when opens fun d => d.captureDetail r.src
    let n := d0.get F.FLT_STAT_NEXT
    let b := d0.histBytes r
    let d1 := d0.each (List.range 8) fun d w => d.wrN (R.FLT_HIST_W n w) (fieldLE b (4 * w) 4)
    let d2 := (d1.put F.FLT_STAT_NEXT ((n + 1) % 64)).put F.FLT_STAT_LAST r.src
    let d3 := d2.put F.FLT_STAT_COUNT (min 64 (d2.get F.FLT_STAT_COUNT + 1))
    let d4 := d3.when (d3.get F.FLT_FIRST_VALID = 0) fun d =>
      d.wrN R.FLT_FIRST (2 ^ 31 + r.flags * 2 ^ 16 + r.sev * 2 ^ 8 + r.src)
    let left := if opens then some 63 else d.sys.capLeft.map (· - 1)
    let op := d.sys.capOpen && !opens
    let d5 := d4.onSys fun s =>
      { s with histSeq := (s.histSeq + 1) % 2 ^ 32, lostBefore := false, capOpen := op, capLeft := left }
    let d6 := d5.put F.FLT_IRQ_STAT_RECORD 1
    d6.when (left == some 0) fun d =>
      ((d.put F.FLT_STAT_FROZEN 1).put F.FLT_IRQ_STAT_LOST 1).onSys fun s => { s with capLeft := none }

/-! ### STOP and SAFE -/

/-- Refuses to the group every live item with a LINK that is not yet FIRING (R119). -/
def Dev.refuseLinked (d : Dev) : Dev :=
  d.each (d.itk.items.filter fun i => i.live && i.link != 0 && i.state < isFiring)
    fun d i => d.sendRefusal i.link i.id 0x07

/-- Keeps FLT_STAT.STOP; line 1 rises and linked items are refused when STOP comes into force. -/
def Dev.syncStop (d : Dev) : Dev :=
  let now := d.stop
  if now && d.get F.FLT_STAT_STOP = 0 then
    ((d.put F.FLT_STAT_STOP 1).put F.FLT_IRQ_STAT_STOP 1).refuseLinked
  else d.put F.FLT_STAT_STOP (if now then 1 else 0)

/-- SPEED_REQ takes a duty with its cause (R310). -/
def Dev.speed (d : Dev) (duty src cause : Nat) : Dev :=
  ((d.put F.SLU_SPD_STAT_DUTY duty).put F.SLU_SPD_STAT_SRC src).put F.SLU_SPD_STAT_CAUSE cause

/-- The safe duty: SAFE from CONFIG_DONE on, 0 before (R310). -/
def Dev.speedSafe (d : Dev) : Dev :=
  d.speed (if d.configDone then d.get F.SLU_SPD_DUTY_SAFE else 0) 0 3

/-- PIN takes the lamp chains' pins and shifts the safe sequence of each enabled chain (R370), on a
chip that drives the shared outputs (R11). What LMP was sending is abandoned; strobes stop. -/
def Dev.lampSafe (d : Dev) : Dev :=
  d.each (List.range 4) fun d c =>
    d.when (d.get (F.LMP_CH_CFG_ENABLE c) = 1) fun d =>
      let d1 := (d.put (F.LMP_CH_STAT_STATE c) 3).put (F.LMP_CH_STAT_STAGING c) 0
      let d2 := d1.onLmp fun x => { x with chains := upd x.chains c fun y =>
        { up := y.up, begun := y.begun, restage := y.begun, armedSet := y.armedSet && y.staging } }
      d2.when d2.drivesShared fun d => d.emit (.lamp c (nth d.lmp.safeSeq c []))

/-- Steps 1 to 5 of R472 on a chip that does not resign instead: state SAFE, reject outputs
asserted with their queues discarded (R250), safe speed, idle-safe head links, lamps off, FIRING and
FIRED items INTERRUPTED, SCHEDULED items unbound. `cause` and `src` go to FLT_SAFESTAT. -/
def Dev.safeSteps (d : Dev) (cause src : Nat) (finals : Bool) : Dev :=
  let from' := d.st?
  let d0 := d.enter stSafe
  let d1 := d0.wrN R.FLT_SAFESTAT (cause * 2 ^ 28 + src * 2 ^ 20 + from' * 2 ^ 16 + 1)
  let d2 := (d1.put F.FLT_STAT_SAFE 1).put F.FLT_IRQ_STAT_SAFE 1
  let d3 := d2.each [0, 1] fun d o =>
    (d.onPos fun p => { p with rejs := upd p.rejs o fun _ => { asserted := true } }).put (F.POS_REJ_STAT_PENDING o) 0
  let d4 := d3.speedSafe
  let d5 := d4.each (List.range 8) fun d n => d.put (F.FIR_HG_STAT_IDLESAFE n) 1
  let d6 := d5.lampSafe
  let d7 := d6.refuseLinked
  d7.when finals fun d =>
    let fin := d.itk.items.filter fun i => i.state == isFiring || i.state == isFired
    let d8 := d.each fin fun d i => d.finalise i.id isInterrupted 0x0E true
    d8.onItk fun t => { t with items := t.items.map fun i =>
      if i.state = isScheduled then { i with state := isStaged } else i }

/-- Entry to SAFE by a fault, SAFE_ENTER, SAFE_N or JTAG (R472). A chip in CONFIG_FAIL stays there
(R70); a chip in SAFE stays in it; an ACTIVE with a STANDBY resigns first when the cause is a fault
other than SAFEN (R389, R391), and then finalises no item; a chip that is not SOLO or ACTIVE
finalises none either. -/
def Dev.enterSafe (d : Dev) (cause src : Nat) : Dev :=
  if d.st? = stSafe ∨ d.st? = stConfigFail then d
  else if d.canResign ∧ (cause = 1 ∨ cause = 5) ∧ src ≠ 196 then
    ((d.resign 4 d.takeoverCounts).safeSteps cause src false)
  else
    let d1 := d.twInput 16 0xFF 0 [cause, src]
    d1.safeSteps cause src d.drivesShared

/-- The journal is consistent (R472 step 5, R51): nothing FIRING or FIRED is left that this chip
finalises, and recovery has completed. -/
def Dev.journalSafe (d : Dev) : Bool :=
  d.get F.JNL_STATUS_RECOVERED = 1 &&
  !(d.drivesShared && d.itk.items.any (fun i => (i.state == isFiring || i.state == isFired) && !i.stuck))

/-- Checks 3 and 4 of R473: SAFE was entered from READY or PRINTING, not by JTAG and not by a FATAL
fault; no SAFE or FATAL source pending, SAFE_N high, no alarm active, JOURNAL set. -/
def Dev.exitOk (d : Dev) : Bool :=
  let f := d.get F.FLT_SAFESTAT_FROM
  (f == stReady || f == stPrinting) && !d.sys.safeJtag && !d.sys.safeFatal &&
  !(d.pendAny (fun s => 4 ≤ s)) && d.sys.safeN && d.get F.SEC_STATUS_ALARM = 0 &&
  d.get F.FLT_SAFESTAT_JOURNAL = 1

/-! ### Taking reports (R460, R461, R469, R470) -/

/-- The reports of one cycle, one entry for each source: the first real report of a source stands,
with INJ_COLLIDE when an injected one came with it; else the injected one with INJ. -/
def mergeReps (l : List Rep) : List Rep → List HistRec
  | [] => []
  | r :: rest =>
    if l.any (fun x => x.src == r.src) then mergeReps l rest
    else
      let same := (r :: rest).filter fun x => x.src == r.src
      let real := same.find? fun x => !x.inj
      let flags := match real with
        | some _ => if same.any (fun x => x.inj) then 2 else 0
        | none => 1
      { src := r.src, sev := 0, flags := flags, detail := (real.getD r).detail } ::
        mergeReps (r :: l) rest

/-- Inserts by severity, highest first, then source, lowest first (R461). -/
def recInsert (r : HistRec) : List HistRec → List HistRec
  | [] => [r]
  | x :: xs =>
    if r.sev > x.sev ∨ (r.sev = x.sev ∧ r.src < x.src) then r :: x :: xs else x :: recInsert r xs

/-- Whether a record stands for a report that acts: a real one, or any with INJACT (R469). -/
def Dev.acts (d : Dev) (r : HistRec) : Bool := r.flags % 2 = 0 || d.get F.FLT_CFG_INJACT = 1

/-- The reaction of one report (R464), with the EVENT of R120. -/
def Dev.react (d : Dev) (r : HistRec) : Dev :=
  let d0 := d.when (2 ≤ r.sev) fun d => d.event 3 0xFF r.src r.sev
  if r.sev < 4 ∨ d0.st? = stConfigFail then d0
  else
    let fatal := r.sev = 5
    let hold := fatal && d.get F.FLT_CFG_FATALPOL = 1
    let d1 := d0.enterSafe (if hold then 5 else if r.src = 196 then 2 else 1) r.src
    let twd := d.sys.harvestTwd || r.src = 2
    let c := d0.c
    let t := d0.timeAt c
    d1.when (fatal && d0.sys.harvestPhase == 0) fun d => d.onSys fun s =>
      { s with safeFatal := true, harvestDue := some (s.harvestDue.getD r.src), harvestTwd := twd,
               harvestC := if s.harvestDue.isNone then c else s.harvestC,
               harvestT := if s.harvestDue.isNone then t else s.harvestT }

/-- One cycle of the collector over the reports that have arrived. -/
def Dev.collect (d : Dev) : Dev :=
  let ms := (mergeReps [] d.reps).filter fun r => (srcInfo r.src).isSome
  let recs := (ms.map fun r => { r with sev := d.sev r.src }).foldl (fun l r => recInsert r l) []
  let d0 : Dev := { d with reps := [] }
  let d1 := d0.each recs fun d r =>
    d.when (d.acts r) fun d => d.setBit (F.FLT_PEND_PEND (r.src / 32)) (r.src % 32)
  let d2 := d1.each (recs.take 16) Dev.writeRec
  let d3 := d2.each (recs.drop 16) fun d _ => d.loseRecord
  let c := d.c
  let d3b := d3.each recs fun d r => d.when (d.acts r && decide (2 ≤ r.sev)) fun d =>
    d.onTwn fun t => { t with raised := (t.raised.filter fun x => x.1 != r.src) ++ [(r.src, c)] }
  let d4 := d3b.each recs fun d r => d.when (d.acts r && r.src == 32) fun d => d.put F.FLT_IRQ_STAT_REGERR 1
  (d4.each (recs.filter d.acts) Dev.react).syncStop

/-- Runs the collector until no report is left, at most `n` cycles. -/
def Dev.settleN : Nat → Dev → Dev
  | 0, d => d
  | n + 1, d => if d.reps = [] then d else Dev.settleN n d.collect

/-- What the collector does after a command: every report the command has sent is taken. -/
def Dev.settle (d : Dev) : Dev := d.settleN 4

/-! ### Device reset (R44) -/

/-- What a device reset leaves: registers at their reset values with the cause in SYS_RSTCAUSE,
fuses, MRAM and flash as they were, the pins' levels, everything else at reset. DRAM and the other
memories keep their bytes, which nothing relies on; after a loss of supply they are lost. -/
def Dev.deviceReset (d : Dev) (causeBit : Nat) (memLost : Bool) : Dev :=
  let mem := if memLost then d.mem.filter fun c => mramBase ≤ c.1 && c.1 < sramBase else d.mem
  let f := d.sec.fuses
  let d0 : Dev := { mem := mem, flash := d.flash, flashCs1 := d.flashCs1, mramBad := d.mramBad }
  let d1 : Dev := { d0 with out := d.out, freeCtr := d.freeCtr }
  let d2 := d1.onSec fun s => { s with fuses := f, active := d.sec.active }
  let d3 := d2.onSys fun s => { s with rstN := d.sys.rstN, safeN := d.sys.safeN, refclk := d.sys.refclk }
  let d4 := d3.wrN R.SYS_RSTCAUSE (2 ^ causeBit)
  let d5 := d4.each (List.range 4) fun d n => d.wrN (R.SYS_UID n) (f.uid / 2 ^ (32 * n))
  let d6 := d5.wrN R.PIN_PWRSTAT (d.rd R.PIN_PWRSTAT).toNat
  let d7 := (d6.wrN R.PIN_GPIO_IN (d.rd R.PIN_GPIO_IN).toNat).wrN R.PIN_FIXIN (d.rd R.PIN_FIXIN).toNat
  let d8 := d7.put F.SEC_STATUS_DEBUG_KILL (if f.debugKill.any id then 1 else 0)
  let d9 := d8.put F.SEC_STATUS_ROOT_KILL (if f.rootKill.any id then 1 else 0)
  let lvl := d.mrd dwEraseLevel
  let erased := match compVal lvl with | some v => decide (v % 256 ≠ 0) | none => decide (lvl ≠ 0)
  let d10 := d9.put F.SEC_STATUS_ERASED (if erased then 1 else 0)
  let d11 := d10.put64 R.JNL_GENLO R.JNL_GENHI (d.mrd dwGen)
  let hv := d.mrd dwHvLast
  d11.wrN R.FLT_HVSTAT hv

/-! ### Staged-ahead margin (R309) -/

/-- The row of least DELAY of a zone. -/
def Dev.minRow (d : Dev) (z : Nat) : Nat :=
  ((d.zoneRows z).find? fun r => d.rowDelay r == d.minDelay z).getD 0

/-- The lines that an item has still to form into events on the row of least DELAY. -/
def Dev.linesLeft (d : Dev) (i : Item) : Nat :=
  let r := d.minRow i.zone
  let done := ((i.asm.find? fun x => x.1 == r).map (·.2)).getD 0
  let queued := d.fir.heads.foldl (fun m h => max m (h.queue.filter fun l => l.item == i.id && l.row == r).length) 0
  i.lines * (d.passes i.zone).length + queued - done

/-- The items up to the first ACCEPTED one. -/
def untilAccepted : List Item → List Item
  | [] => []
  | i :: r => if i.state = isAccepted then [] else i :: untilAccepted r

/-- Inserts an item by its ZSEQ. -/
def insZseq (i : Item) : List Item → List Item
  | [] => [i]
  | x :: xs => if i.zseq < x.zseq then i :: x :: xs else x :: insZseq i xs

/-- The live items of a zone in ZSEQ order. -/
def Dev.zoneLive (d : Dev) (z : Nat) : List Item :=
  (d.itk.items.filter fun i => i.live && i.zone == z).foldl (fun l i => insZseq i l) []

/-- The margin of a zone is recomputed and checked against THRESH (R309). -/
def Dev.syncMargin (d : Dev) (z : Nat) : Dev :=
  let l := d.zoneLive z
  if !(l.any fun i => i.state == isAccepted) then d.wrN (R.SLU_ZONE_MARGIN z) (2 ^ 31)
  else
    let m := min 16777215 ((untilAccepted l).foldl (fun x i => x + d.linesLeft i) 0)
    let th := d.get (F.SLU_ZONE_CFG_THRESH z)
    let d1 := d.wrN (R.SLU_ZONE_MARGIN z) m
    if th = 0 then d1
    else if m < th then
      if d1.fir.lowMargin.contains z then d1
      else
        let d2 := (d1.onFir fun t => { t with lowMargin := z :: t.lowMargin }).event 2 z m th
        ((d2.put F.SLU_IRQ_STAT_MARGIN 1).incSat (F.SLU_ZONE_LATECNT_LOW z)).report 123
    else d1.onFir fun t => { t with lowMargin := t.lowMargin.filter (· != z) }

/-- The margins follow every change of an item's state (R309): they are recomputed when a command has
changed the items. -/
def Dev.margins (d old : Dev) : Dev :=
  if d.itk.items = old.itk.items then d
  else d.each ((List.range 16).filter fun z => (d.itk.items ++ old.itk.items).any fun i => i.zone == z) Dev.syncMargin

/-- A command's meaning from its effect on the device: the collector then takes what the command
reported, and the queue is untouched. -/
def State.upd (s : State) (f : Dev → Dev) : Host.Outcome State Fault Refusal :=
  .next { s with dev := ((f s.dev).margins s.dev).settle }

end Sys2Proof.Machine
end

