-- ==== Sys2Proof/Machine/Legal.lean ====
section
/-! DEFINITION. What a register write carries into the checks of R501: the register's row, its
indices, the open bits, and the tables of legal field ranges that the blocks give. -/

namespace Sys2Proof.Machine

/-- The indices of an array element at offset `o` from its row's base. -/
def dimsIx : List (Nat × Nat) → Nat → List Nat
  | [], _ => []
  | (st, _) :: r, o => (o / st) :: dimsIx r (o % st)

/-- A register write under R501: requester, address, address of the row's first element, indices,
the value before, the value written (bits of closed fields as they were) and the open bits. -/
structure Wr where
  req : Nat
  addr : Nat
  base : Nat
  ix : List Nat
  old : Nat
  new : Nat
  mask : Nat
  deriving DecidableEq, Repr

/-- Index `k` of the register written. -/
def Wr.i (w : Wr) (k : Nat := 0) : Nat := w.ix.getD k 0

/-- Whether the write is to an element of the row whose first element lies at `b`. -/
def Wr.at (w : Wr) (b : Nat) : Bool := w.base == b

/-- The value the write gives to a field. -/
def Wr.val (w : Wr) (f : Fld) : Nat := bits w.new f.lo f.width

/-- Whether the write carries a bit of a field that is open. -/
def Wr.opens (w : Wr) (f : Fld) : Bool := bits w.mask f.lo f.width != 0

/-- A legal range of a field of the row whose first element the field names. -/
structure Rng where
  f : Fld
  min : Nat
  max : Nat
  deriving DecidableEq, Repr

/-- Some open field of the register written lies outside its legal range. -/
def rngBad (l : List Rng) (w : Wr) : Bool :=
  l.any fun r => r.f.addr == w.base && w.opens r.f && !(r.min ≤ w.val r.f && w.val r.f ≤ r.max)

/-- Whether a write before CONFIG_DONE leaves the checks against the addressable DRAM and the other
stores to CONFIG_DONE (R503). -/
def Dev.full (d : Dev) : Bool := d.configDone

/-- A DRAM range given as an offset into the DRAM region lies within the addressable DRAM. -/
def Dev.dramFits (d : Dev) (off n : Nat) : Bool := decide (off + n ≤ d.dramSize)

/-- Two ranges overlap. -/
def rangesMeet (a n b m : Nat) : Bool := decide (0 < n ∧ 0 < m ∧ a < b + m ∧ b < a + n)

/-- The legal ranges of SYS, CFG, SEC, JNL, ITK. -/
def safRngs : List Rng :=
  [⟨F.SYS_RSTCTL_KEY, 0x5EB0, 0x5EB0⟩, ⟨F.SYS_RSTCTL_KIND, 1, 2⟩, ⟨F.SYS_HWD_KICK_CODE, 0xA5C3, 0xA5C3⟩,
   ⟨F.SYS_TWD_KICK_CODE, 0x3CA5, 0x3CA5⟩, ⟨F.SEC_ALARM_CFG_ERASE 0, 0, 2⟩, ⟨F.SEC_ERASE_KEY, 0x3E5A, 0x3E5A⟩,
   ⟨F.SEC_ERASE_LEVEL, 1, 2⟩, ⟨F.JNL_LOWMARK_FREE, 0, 49152⟩, ⟨F.ITK_NETCFG_PORT, 1, 65535⟩,
   ⟨F.ITK_SESS_CFG2_IDLE 0, 1, 65535⟩, ⟨F.ITK_SESS_CFG2_RTO 0, 1, 64⟩, ⟨F.ITK_ZONE_CFG_MAXLIVE 0, 1, 49152⟩]

end Sys2Proof.Machine
end

