-- ==== Sys2Proof/Machine/Geom.lean ====
section
/-! DEFINITION. The bar geometry (R169 to R179), the shares of the decoders (R153, R178), the fit
(R155) and clip (R176) of an item, the selection and stitching of samples (R182 to R187). -/

namespace Sys2Proof.Machine

/-! ### Heads, rows and zones -/

/-- Head `h` is in the geometry. -/
def Dev.headOk (d : Dev) (h : Nat) : Bool := d.get (F.RAS_HEAD_CFG_VALID h) = 1

def Dev.headRow (d : Dev) (h : Nat) : Nat := d.get (F.RAS_HEAD_COL_ROW h)
def Dev.headN (d : Dev) (h : Nat) : Nat := d.get (F.RAS_HEAD_CFG_NOZCOUNTM1 h) + 1
def Dev.headCol (d : Dev) (h : Nat) : Nat := d.get (F.RAS_HEAD_COL_COLFIRST h)
def Dev.headNoz (d : Dev) (h : Nat) : Nat := d.get (F.RAS_HEAD_NOZ_NOZFIRST h)

/-- The bar column of nozzle `i` of head `h` (R170). -/
def Dev.nozCol (d : Dev) (h i : Nat) : Nat :=
  if d.get (F.RAS_HEAD_CFG_DIR h) = 0 then d.headCol h + i else d.headCol h + d.headN h - 1 - i

/-- The nozzle of head `h` at bar column `c`, which the head covers. -/
def Dev.colNoz (d : Dev) (h c : Nat) : Nat :=
  if d.get (F.RAS_HEAD_CFG_DIR h) = 0 then c - d.headCol h else d.headCol h + d.headN h - 1 - c

/-- Head `h` covers bar column `c` of its row. -/
def Dev.covers (d : Dev) (h c : Nat) : Bool := decide (d.headCol h ≤ c ∧ c < d.headCol h + d.headN h)

/-- The head of the geometry that holds a device nozzle, with its head nozzle. -/
def Dev.nozHead (d : Dev) (n : Nat) : Option (Nat × Nat) :=
  ((List.range 64).find? fun h => d.headOk h && decide (d.headNoz h ≤ n ∧ n < d.headNoz h + d.headN h)).map
    fun h => (h, n - d.headNoz h)

/-- Inserts a head by its COLFIRST. -/
def Dev.insHead (d : Dev) (h : Nat) : List Nat → List Nat
  | [] => [h]
  | x :: xs => if d.headCol h < d.headCol x then h :: x :: xs else x :: d.insHead h xs

/-- The heads of a row, in order of COLFIRST. -/
def Dev.rowHeads (d : Dev) (r : Nat) : List Nat :=
  ((List.range 64).filter fun h => d.headOk h && d.headRow h == r).foldl (fun l h => d.insHead h l) []

/-- The heads of a head group in the geometry. -/
def Dev.hgHeads (d : Dev) (n : Nat) : List Nat := ((List.range 8).map (8 * n + ·)).filter d.headOk

/-- A zone is in the geometry; its window. -/
def Dev.zoneOk (d : Dev) (z : Nat) : Bool := d.get (F.RAS_ZONE_CFG_VALID z) = 1
def Dev.zoneX0 (d : Dev) (z : Nat) : Nat := d.get (F.RAS_ZONE_X0_COL z)
def Dev.zoneXW (d : Dev) (z : Nat) : Nat := d.get (F.RAS_ZONE_XW_COL z)

/-- Bar column `c` lies in the window of zone `z`. -/
def Dev.inZone (d : Dev) (z c : Nat) : Bool := decide (d.zoneX0 z ≤ c ∧ c < d.zoneX0 z + d.zoneXW z)

/-- The columns of head `h` in the window of zone `z`: how many. -/
def Dev.zoneCols (d : Dev) (h z : Nat) : Nat :=
  min (d.headCol h + d.headN h) (d.zoneX0 z + d.zoneXW z) - max (d.headCol h) (d.zoneX0 z)

/-- The heads of zone `z` on row `r`. -/
def Dev.zoneRowHeads (d : Dev) (z r : Nat) : List Nat := (d.rowHeads r).filter fun h => 0 < d.zoneCols h z

/-- The heads of a zone over all its rows. -/
def Dev.zoneHeads (d : Dev) (z : Nat) : List Nat := ((d.zoneRows z).map (d.zoneRowHeads z)).flatten

/-- The head groups that a zone's items need. -/
def Dev.zoneHgs (d : Dev) (z : Nat) : List Nat :=
  (List.range 8).filter fun n => (d.zoneHeads z).any fun h => h / 8 == n

/-- The zones that print on row `r`. -/
def Dev.rowZones (d : Dev) (r : Nat) : List Nat :=
  (List.range 16).filter fun z => d.zoneOk z && d.bit (F.RAS_ZONE_CFG_ROWMASK z) r

/-! ### Shares of the decoders -/

/-- Nozzles of row `r` in head group `n`. -/
def Dev.rowNozzles (d : Dev) (n r : Nat) : Nat :=
  ((d.hgHeads n).filter fun h => d.headRow h == r).foldl (fun x h => x + d.headN h) 0

/-- Those of them in the window of zone `z`. -/
def Dev.rowZoneNozzles (d : Dev) (n r z : Nat) : Nat :=
  ((d.hgHeads n).filter fun h => d.headRow h == r).foldl (fun x h => x + d.zoneCols h z) 0

/-- A party of a share: its number, its nozzles, its decoders. -/
structure Share where
  id : Nat
  noz : Nat
  dec : Nat
  deriving DecidableEq, Repr

/-- The party to take one decoder back from: the largest share, then fewer nozzles, then the higher
number. -/
def takeFrom (l : List Share) : Option Share :=
  l.foldl (fun b x => match b with
    | none => some x
    | some y => if y.dec < x.dec ∨ (x.dec = y.dec ∧ (x.noz < y.noz ∨ (x.noz = y.noz ∧ y.id < x.id))) then some x else b) none

/-- Takes decoders back until the shares add to `total`. -/
def takeBack (total : Nat) : Nat → List Share → List Share
  | 0, l => l
  | f + 1, l =>
    if l.foldl (fun s x => s + x.dec) 0 ≤ total then l
    else match takeFrom l with
      | none => l
      | some y => takeBack total f (l.map fun x => if x.id = y.id then { x with dec := x.dec - 1 } else x)

/-- The party with the most nozzles, the lower number first, among those not yet served. -/
def giveTo (served : List Nat) (l : List Share) : Option Share :=
  (l.filter fun x => !(served.contains x.id)).foldl (fun b x => match b with
    | none => some x
    | some y => if y.noz < x.noz ∨ (x.noz = y.noz ∧ x.id < y.id) then some x else b) none

/-- Hands out the decoders left over, one to each party in order of nozzles (DEDUCED, entry 20). -/
def giveOut : Nat → Nat → List Nat → List Share → List Share
  | 0, _, _, l => l
  | _, 0, _, l => l
  | f + 1, left + 1, served, l =>
    match giveTo served l with
    | none => if served = [] then l else giveOut f (left + 1) [] l
    | some y =>
      giveOut f left (y.id :: served) (l.map fun x => if x.id = y.id then { x with dec := x.dec + 1 } else x)

/-- The shares of `total` decoders among parties with nozzles (R153, R178). -/
def shareOut (total : Nat) (l : List (Nat × Nat)) : List Share :=
  let sum := l.foldl (fun s x => s + x.2) 0
  let s0 := l.map fun x => { id := x.1, noz := x.2, dec := max 1 (total * x.2 / sum) : Share }
  let s1 := takeBack total 64 s0
  giveOut 64 (total - s1.foldl (fun s x => s + x.dec) 0) [] s1

/-- The rows with nozzles in a head group. -/
def Dev.hgRows (d : Dev) (n : Nat) : List Nat := (List.range 16).filter fun r => 0 < d.rowNozzles n r

/-- The decoders of row `r` in head group `n` (R153). -/
def Dev.rowShare (d : Dev) (n r : Nat) : Nat :=
  (((shareOut 8 ((d.hgRows n).map fun x => (x, d.rowNozzles n x))).find? fun s => s.id == r).map (·.dec)).getD 0

/-- The decoders of zone `z` on row `r` in head group `n` (R178). -/
def Dev.zoneShare (d : Dev) (n r z : Nat) : Nat :=
  let zs := (d.rowZones r).filter fun x => 0 < d.rowZoneNozzles n r x
  (((shareOut (d.rowShare n r) (zs.map fun x => (x, d.rowZoneNozzles n r x))).find? fun s => s.id == z).map (·.dec)).getD 0

/-! ### What page column a bar column carries -/

/-- The page column of bar column `c` in zone `z` on row `r` with a pass's XSHIFT (R176). -/
def Dev.pageX (d : Dev) (r z c : Nat) (xshift : Int) : Int :=
  ((c : Int) - d.zoneX0 z + xshift) * d.get (F.RAS_ROW_CFG_XSTEP r) + d.get (F.RAS_ROW_CFG_XPHASE r)

def Dev.rowPlane (d : Dev) (r : Nat) : Nat := d.get (F.RAS_ROW_CFG_PLANE r)

/-- The strips of a page that row `r` opens in head group `n` for zone `z`: those with at least one
sample on a nozzle of the head group, in any pass (R154). -/
def Dev.stripsOf (d : Dev) (h : StreamHdr) (n r z : Nat) : List Nat :=
  let p := d.rowPlane r
  let w := nth h.widths p 0
  let hs := (d.hgHeads n).filter fun x => d.headRow x == r && 0 < d.zoneCols x z
  (List.range (h.strips p)).filter fun s =>
    (d.passes z).any fun ps => hs.any fun x =>
      (List.range (d.headN x)).any fun i =>
        let c := d.headCol x + i
        let px := d.pageX r z c ps.xshift
        d.inZone z c && 0 ≤ px && px < w && px.toNat / h.bw == s

/-- A page fits a row's share in head group `n` (R154, R155). -/
def Dev.fits (d : Dev) (h : StreamHdr) (n r z : Nat) : Bool :=
  let p := d.rowPlane r
  let ss := if p < h.planes then d.stripsOf h n r z else []
  let hist := ss.foldl (fun x s => x + h.stripW p s * h.depth) 0
  decide (ss.length ≤ d.zoneShare n r z ∧ hist ≤ d.zoneShare n r z * 49152)

/-- The head groups in which a page does not fit the share of some row of the zone. -/
def Dev.noFit (d : Dev) (h : StreamHdr) (z : Nat) : List Nat :=
  (List.range 8).filter fun n =>
    (d.zoneRows z).any fun r => 0 < d.rowZoneNozzles n r z && !(d.fits h n r z)

/-- An item is printed clipped (R176). -/
def Dev.clipped (d : Dev) (h : StreamHdr) (z lines : Nat) : Bool :=
  decide (lines < h.lines) ||
  (List.range h.planes).any fun p =>
    let rs := (d.zoneRows z).filter fun r => d.rowPlane r == p
    rs != [] && (List.range (nth h.widths p 0)).any fun x =>
      !(rs.any fun r => (d.passes z).any fun ps =>
        let st := max 1 (d.get (F.RAS_ROW_CFG_XSTEP r))
        let ph := d.get (F.RAS_ROW_CFG_XPHASE r)
        ph ≤ x && (x - ph) % st == 0 &&
          (let k := (((x - ph) / st : Nat) : Int) - ps.xshift
           0 ≤ k && k < d.zoneXW z))

/-! ### Dither, selection and stitching -/

/-- bayer of R183. -/
def bayer (rw cl : Nat) : Nat :=
  (List.range 4).foldl (fun v k =>
    v ||| ((bits (rw ^^^ cl) k 1) <<< (7 - 2 * k)) ||| ((bits rw k 1) <<< (6 - 2 * k))) 0

/-- Byte `i` of a table held as words from address `a`. -/
def Dev.tblByte (d : Dev) (a i : Nat) : Nat := bits (d.rd (a + 4 * (i / 4))).toNat (8 * (i % 4)) 8

/-- The sample at (x, y) on row `r` is selected in a pass (R185). -/
def Dev.selected (d : Dev) (r z x y : Nat) (ps : Pass) : Bool :=
  let fd := d.get (F.RAS_ZONE_CFG_FEED z)
  y % max 1 (d.get (F.RAS_ROW_CFG_LSTEP r)) == d.get (F.RAS_ROW_CFG_LPHASE r) &&
  (fd == 0 || (y % ps.plstep == ps.plphase &&
    (let m := d.tblByte (R.RAS_FEED_MATRIX (fd - 1) 0) (16 * (y % 16) + x % 16)
     ps.plo ≤ m && m ≤ ps.phi)))

/-- The sample of a shared column goes to the high head's nozzle (R182). -/
def Dev.toHigh (d : Dev) (lo hi c y : Nat) : Bool :=
  let v := d.headCol lo + d.headN lo - d.headCol hi
  let o := c - d.headCol hi
  let i := 256 * (2 * o + 1) / (2 * v)
  let m := d.get (F.RAS_HEAD_CFG_BLEND hi)
  let w := if m = 0xFF then i else d.tblByte (R.RAS_BLEND_CURVE m 0) i
  let t := if m = 0xFF then bayer (y % 16) (c % 16) else d.tblByte (R.RAS_BLEND_MATRIX m 0) (16 * (y % 16) + c % 16)
  decide (t < w)

/-- The zone position of line `y` on row `r` in a pass (R177). -/
def Dev.linePos (d : Dev) (firstPos r y : Nat) (ps : Pass) : Nat :=
  (firstPos + ps.offset + 64 * y + d.rowDelay r) % 2 ^ 48

/-- `a` is later than `b`, for fire positions in 1/16 sub-line modulo 2^52. -/
def later52 (a b : Nat) : Bool :=
  let x := (a + 2 ^ 52 - b % 2 ^ 52) % 2 ^ 52
  1 ≤ x && x < 2 ^ 51

/-! ### The geometry record (R171 to R175) -/

/-- A geometry record's header counts: heads, rows, zones. -/
def geoCounts (b : List Byte) : Nat × Nat × Nat := (fieldLE b 2 1, fieldLE b 3 1, fieldLE b 4 1)

/-- Entry `k` of the record, counting rows, heads and zones through. -/
def geoEntry (b : List Byte) (k : Nat) : List Byte := (b.drop (64 + 32 * k)).take 32

/-- Check 1 of R175. -/
def geoFields (b : List Byte) : Bool :=
  let (nh, nr, nz) := geoCounts b
  let head (k : Nat) : List Byte := geoEntry b (nr + k)
  let zone (k : Nat) : List Byte := geoEntry b (nr + nh + k)
  let rowOk (k : Nat) : Bool :=
    let e := geoEntry b k
    fieldLE e 0 1 ≤ 15 && 1 ≤ fieldLE e 1 1 && fieldLE e 1 1 ≤ 4 && fieldLE e 2 1 < fieldLE e 1 1 &&
    1 ≤ fieldLE e 3 1 && fieldLE e 3 1 ≤ 4 && fieldLE e 4 1 < fieldLE e 3 1 && zeroBytes e 5 3 &&
    fieldLE e 8 4 < 2 ^ 31 && 1 ≤ fieldLE e 0xC 4 && fieldLE e 0xC 4 ≤ 262144 && zeroBytes e 0x10 16
  let headOk (k : Nat) : Bool :=
    let e := head k
    let nums := (List.range k).map fun j => fieldLE (head j) 0 1
    fieldLE e 0 1 ≤ 63 && !(nums.contains (fieldLE e 0 1)) && fieldLE e 1 1 < nr && fieldLE e 2 1 ≤ 1 &&
    (fieldLE e 3 1 ≤ 15 || fieldLE e 3 1 == 0xFF) && 1 ≤ fieldLE e 8 2 && fieldLE e 8 2 ≤ 32768 && zeroBytes e 0xA 2 &&
    fieldLE e 0xC 4 + fieldLE e 8 2 ≤ fieldLE (geoEntry b (fieldLE e 1 1)) 0xC 4 && zeroBytes e 0x10 16
  let zoneOk (k : Nat) : Bool :=
    let e := zone k
    let nums := (List.range k).map fun j => fieldLE (zone j) 0 1
    fieldLE e 0 1 ≤ 15 && !(nums.contains (fieldLE e 0 1)) && fieldLE e 1 1 ≤ 8 && fieldLE e 2 2 != 0 &&
    fieldLE e 2 2 < 2 ^ nr && 1 ≤ fieldLE e 8 4 && zeroBytes e 0xC 20
  fieldLE b 0 2 == 1 && 1 ≤ nh && nh ≤ 64 && 1 ≤ nr && nr ≤ 16 && 1 ≤ nz && nz ≤ 16 && zeroBytes b 5 59 &&
  b.length == 64 + 32 * (nr + nh + nz) && (List.range nr).all rowOk && (List.range nh).all headOk &&
  (List.range nz).all zoneOk

/-- Check 2 of R175, on the record's own entries: (NOZFIRST, NOZCOUNT, HEAD). -/
def geoNozzles (b : List Byte) : Bool :=
  let (nh, nr, _) := geoCounts b
  let hs := (List.range nh).map fun k =>
    let e := geoEntry b (nr + k)
    (fieldLE e 4 4, fieldLE e 8 2, fieldLE e 0 1)
  (hs.all fun h => h.2.2 / 8 * 32768 ≤ h.1 && h.1 + h.2.1 ≤ (h.2.2 / 8 + 1) * 32768) &&
  hs.all fun h => hs.all fun g => h.2.2 == g.2.2 || !(rangesMeet h.1 h.2.1 g.1 g.2.1)

/-- Loads a geometry record into the RAS registers. -/
def Dev.loadGeo (d : Dev) (b : List Byte) : Dev :=
  let (nh, nr, nz) := geoCounts b
  let d0 := ((d.put F.RAS_GEOM_NHEAD nh).put F.RAS_GEOM_NROW nr).put F.RAS_GEOM_NZONE nz
  let d1 := d0.each (List.range nr) fun d k =>
    let e := geoEntry b k
    let f (o n : Nat) := fieldLE e o n
    ((d.wrN (R.RAS_ROW_CFG k) (f 0 1 + 16 + f 1 1 * 2 ^ 8 + f 2 1 * 2 ^ 12 + f 3 1 * 2 ^ 16 + f 4 1 * 2 ^ 20)).wrN
      (R.RAS_ROW_DELAY k) (f 8 4)).wrN (R.RAS_ROW_COLS k) (f 0xC 4)
  let d2 := d1.each (List.range nh) fun d k =>
    let e := geoEntry b (nr + k)
    let f (o n : Nat) := fieldLE e o n
    let h := f 0 1
    let d1 := d.wrN (R.RAS_HEAD_CFG h) ((f 8 2 - 1) + 2 ^ 16 + f 2 1 * 2 ^ 17 + f 3 1 * 2 ^ 24)
    let d2 := (d1.wrN (R.RAS_HEAD_COL h) (f 0xC 4 + f 1 1 * 2 ^ 28)).wrN (R.RAS_HEAD_NOZ h) (f 4 4)
    d2.setBit (F.RAS_ROW_HGMASK_HG (f 1 1)) (h / 8)
  d2.each (List.range nz) fun d k =>
    let e := geoEntry b (nr + nh + k)
    let f (o n : Nat) := fieldLE e o n
    let z := f 0 1
    ((d.wrN (R.RAS_ZONE_CFG z) (f 1 1 + 16 + f 2 2 * 2 ^ 16)).wrN (R.RAS_ZONE_X0 z) (f 4 4)).wrN (R.RAS_ZONE_XW z) (f 8 4)

/-- Check 3 of R175 on one row's heads in order of COLFIRST. -/
def Dev.neighboursOk (d : Dev) : List Nat → Bool
  | [] => true
  | [_] => true
  | a :: b :: r =>
    let ea := d.headCol a + d.headN a
    let v := ea - d.headCol b
    (v == 0 || (v ≤ 1024 && ea < d.headCol b + d.headN b)) &&
    (match r with | c :: _ => decide (ea ≤ d.headCol c) | [] => true) && d.neighboursOk (b :: r)

/-- Check 4 of R175 on a row. -/
def Dev.windowsOk (d : Dev) (r : Nat) : Bool :=
  let zs := d.rowZones r
  (zs.all fun z => (List.range (d.zoneXW z)).all fun i => (d.rowHeads r).any fun h => d.covers h (d.zoneX0 z + i)) &&
  zs.all fun z => zs.all fun y => z == y || !(rangesMeet (d.zoneX0 z) (d.zoneXW z) (d.zoneX0 y) (d.zoneXW y))

/-- Check 5 of R175 on a head group. -/
def Dev.decodersOk (d : Dev) (n : Nat) : Bool :=
  decide ((d.hgRows n).length ≤ 8) &&
  (d.hgRows n).all fun r => ((d.rowZones r).filter fun z => 0 < d.rowZoneNozzles n r z).length ≤ d.rowShare n r

/-- A geometry record is checked and, when it passes, loaded (R175): the status and the device. -/
def Dev.geoRecord (d : Dev) (b : List Byte) : Nat × Dev :=
  if !(geoFields b) || !(geoNozzles b) then (sBadValue, d)
  else
    let d1 := d.loadGeo b
    let st := firstFail [
      (!((List.range 16).all fun r => d1.neighboursOk (d1.rowHeads r)), sBadValue),
      (!((List.range 16).all d1.windowsOk), sBadValue),
      (!((List.range 8).all d1.decodersOk), sNoRoom)]
    if st = sOk then (sOk, d1) else (st, d)

end Sys2Proof.Machine
end

