-- ==== Sys2Proof/Machine/Late.lean ====
section
/-! DEFINITION. Late lines and abandoned items (R188 to R190), and the errors that are handled as late
lines. -/

namespace Sys2Proof.Machine

/-- Changes a head. -/
def Dev.onHead (d : Dev) (h : Nat) (f : Head → Head) : Dev :=
  d.onFir fun t => { t with heads := upd t.heads h f }

/-- A head beside its registers. -/
def Dev.head (d : Dev) (h : Nat) : Head := nth d.fir.heads h {}

/-- AGE of a head's temperature as it reads: ms since the last TEMP_UP (R287). -/
def Dev.tempAge (d : Dev) (h : Nat) : Nat := min 65535 ((d.c - (d.head h).tempT) / 1000000)

/-- A head has reported a temperature since CONFIG_DONE. -/
def Dev.hasTemp (d : Dev) (h : Nat) : Bool := (d.head h).tempEver

/-- LEVEL of a head group: the fewest events that any of its heads holds. -/
def Dev.syncLevel (d : Dev) (n : Nat) : Dev :=
  match d.hgHeads n with
  | [] => d
  | h :: hs => d.put (F.FIR_HG_STAT_LEVEL n) (hs.foldl (fun m x => min m (d.head x).pan.length) (d.head h).pan.length)

/-- Takes an item's selects out of an event of a pan. -/
def panDrop (id : Nat) (e : PanEv) : PanEv :=
  let mine := (e.lines.filter fun l => l.item == id).map fun l => l.sels.map (·.1)
  let ns := mine.flatten
  if mine = [] then e
  else { e with sel := e.sel.filter fun s => !(ns.contains s.1), noDrop := e.noDrop || e.sel.all fun s => ns.contains s.1 }

/-- OPEN and HISTKIB of a head group follow its open blocks (R154). -/
def Dev.syncOpen (d : Dev) (n : Nat) : Dev :=
  let l := nth d.ras.opened n []
  (d.put (F.BRD_HG_STAT_OPEN n) l.length).put (F.BRD_HG_STAT_HISTKIB n)
    (ceilDiv (l.foldl (fun x b => x + b.hist) 0) 1024)

/-- The open blocks of an item close. -/
def Dev.closeBlocks (d : Dev) (id : Nat) : Dev :=
  let d1 := d.onRas fun t => { t with opened := t.opened.map fun l => l.filter fun b => b.item != id }
  d1.each (List.range 8) Dev.syncOpen

/-- Every line of an item that has not entered a pan carries 0 (R160), and with `pan` also its lines
in the pans (R188 step 3). -/
def Dev.zeroLines (d : Dev) (id : Nat) (pan : Bool) : Dev :=
  (d.onFir fun t => { t with heads := t.heads.map fun h =>
    { h with queue := h.queue.map fun l => if l.item = id then { l with sels := [] } else l,
             pan := if pan then h.pan.map (panDrop id) else h.pan } }).closeBlocks id

/-- The end of an item that REJECT pulses: its final state, and one reject request (R248). -/
def Dev.endItem (d : Dev) (id state reason : Nat) : Dev :=
  match d.findItem id with
  | none => d
  | some i =>
    if !i.live || i.stuck then d
    else
      let d1 := d.finalise id state reason true true
      if i.rejected then d1 else (d1.updItem id fun j => { j with rejected := true }).rejItem i

/-- An item is abandoned (R188): INTERRUPTED when a line of it has entered a pan, else NOT_PRINTED, and
its later lines carry 0. -/
def Dev.abandon (d : Dev) (id reason : Nat) (pan : Bool) : Dev :=
  match d.findItem id with
  | none => d
  | some i =>
    let d1 := (d.updItem id fun j => { j with abandoned := true }).zeroLines id pan
    d1.endItem id (if i.entered then isInterrupted else isNotPrinted) reason

/-- Items of events, each once, in order. -/
def itemsOf (ls : List MLine) : List Nat := (ls.map (·.item)).eraseDups.filter (· != 0)

/-- RAS_ERR keeps the first such event. -/
def Dev.rasErr (d : Dev) (n kind : Nat) (ids : List Nat) : Dev :=
  if d.get F.RAS_ERR_VALID = 1 then d
  else
    let id := ids.headD 0
    let z := ((d.findItem id).map (·.zone)).getD 0
    (d.wrN R.RAS_ERR (2 ^ 31 + kind * 2 ^ 16 + z * 2 ^ 8 + n)).put64 R.RAS_ERRITEMLO R.RAS_ERRITEMHI id

/-- A late line of head group `n`, or what is handled as one, with its lines, its fault source and
its KIND (R188). -/
def Dev.lateLine (d : Dev) (n : Nat) (ls : List MLine) (src kind : Nat) : Dev :=
  let ids := itemsOf ls
  let d1 := d.rasErr n kind ids
  let d2 := d1.each ids fun d id => d.abandon id 0x09 true
  ((d2.incSat (F.RAS_HG_STAT_LATE n)).put F.RAS_IRQ_STAT_LATE 1).report src

/-- The lines of an item on a row over every pass. -/
def Dev.lineCount (d : Dev) (i : Item) : Nat := i.lines * (d.passes i.zone).length

/-- Lines of an item assembled so far on a row. -/
def asmDone (l : List (Nat × Nat)) (r : Nat) : Nat := ((l.find? fun x => x.1 == r).map (·.2)).getD 0

/-- Counts one more line assembled on a row. -/
def asmInc (l : List (Nat × Nat)) (r : Nat) : List (Nat × Nat) :=
  if l.any fun x => x.1 == r then l.map fun x => if x.1 = r then (r, x.2 + 1) else x else l ++ [(r, 1)]

/-- An item whose lines are still laid: SCHEDULED or FIRING, or abandoned with lines that carry 0. -/
def Item.laid (i : Item) : Bool := i.bound && (i.state == isScheduled || i.state == isFiring || i.abandoned)

/-- An item still has lines to assemble on row `r`. -/
def Dev.moreLines (d : Dev) (i : Item) (r : Nat) : Bool :=
  i.laid && (d.zoneRows i.zone).contains r && asmDone i.asm r < d.lineCount i

/-- Line `k` of an item on a row: its pass and its item line. -/
def Dev.lineAt (d : Dev) (i : Item) (k : Nat) : Nat × Pass × Nat :=
  let p := k / max 1 i.lines
  (p, nth (d.passes i.zone) p {}, k % max 1 i.lines)

/-- The lead of a head group (R190): 64 unless a line of a bound item is still to enter its pan. -/
def Dev.lead (d : Dev) (n : Nat) : Nat :=
  let hs := d.hgHeads n
  let waits := hs.any fun h =>
    (d.head h).queue.any (fun l => l.item != 0) ||
    d.itk.items.any fun i => !i.abandoned && d.moreLines i (d.headRow h) && 0 < d.zoneCols h i.zone
  if !waits then 64 else min 64 (hs.foldl (fun m x => min m (d.head x).pan.length) 64)

/-- MINLEAD follows the lead; a fall below WARN raises line 4, and source 68 for items not yet its
subject (R190). `old` is the lead before. -/
def Dev.leadCheck (d : Dev) (n old : Nat) : Dev :=
  let l := d.lead n
  let warn := d.get F.RAS_RTCFG_WARN
  let d1 := d.put (F.RAS_HG_STAT_MINLEAD n) (min l (d.get (F.RAS_HG_STAT_MINLEAD n)))
  d1.when (l < warn && warn ≤ old) fun d =>
    let ids := itemsOf (((d.hgHeads n).map fun h => (d.head h).queue ++ ((d.head h).pan.map (·.lines)).flatten).flatten)
    let new := ids.filter fun id => (d.findItem id).any fun i => !(bitB i.once 4)
    let d2 := d.put F.RAS_IRQ_STAT_LOWLEAD 1
    d2.when (new != []) fun d =>
      (d.each new fun d id => d.updItem id fun i => { i with once := i.once ||| 16 }).report 68

/-- RAS_STATCLR (R190): clears RAS_CLIPCNT, and LATE and MINLEAD of the selected head groups. -/
def Dev.rasStatClr (d : Dev) (v : Nat) : Dev :=
  let d1 := d.when (bitB v 8) fun d => d.wrN R.RAS_CLIPCNT 0
  d1.each (List.range 8) fun d n =>
    d.when (bitB v n) fun d => (d.put (F.RAS_HG_STAT_LATE n) 0).put (F.RAS_HG_STAT_MINLEAD n) 64

end Sys2Proof.Machine
end

