-- ==== Sys2Proof/Machine/Pos.lean ====
section
/-! DEFINITION. POS: encoder counts, positions and speed (R232 to R242), compare units (R243 to
R245), reject pulses (R249, R250), encoder emulation (R251, R252), and the POS registers. -/

namespace Sys2Proof.Machine

/-! ### Encoders -/

/-- An encoder, by number. -/
def Dev.enc (d : Dev) (e : Nat) : Enc := nth d.pos.encs e {}

/-- Changes an encoder. -/
def Dev.onEnc (d : Dev) (e : Nat) (f : Enc → Enc) : Dev :=
  d.onPos fun p => { p with encs := upd p.encs e f }

/-- SCALE of an encoder, 32.32 (R235). -/
def Dev.encScale (d : Dev) (e : Nat) : Nat := d.get64 (R.POS_ENC_SCALELO e) (R.POS_ENC_SCALEHI e)

/-- P of an encoder, with 32 fractional bits. -/
def Dev.encP (d : Dev) (e : Nat) : Int := (d.enc e).raw * d.encScale e

/-- The encoder counts: enabled, and CONFIG_DONE has passed (R253). -/
def Dev.encOn (d : Dev) (e : Nat) : Bool := d.configDone && d.get (F.POS_ENC_CFG_ENABLE e) = 1

/-- The interpolated position of R238 at time `t` in ps, with 32 fractional bits. -/
def Dev.interp (d : Dev) (e t : Nat) : Int :=
  let x := d.enc e
  let p := d.encP e
  match x.lastT with
  | none => p
  | some tl =>
    if x.dp ≤ 0 ∨ d.get (F.POS_ENC_STAT_LOW_CONF e) = 1 ∨ d.get (F.POS_ENC_STAT_STILL e) = 1 then p
    else min (p + x.dp * ((t : Int) - tl) / (max x.dt 1 : Nat)) (p + d.encScale e - 2 ^ 16)

/-- H of an encoder moves up to a position with 32 fractional bits (R236). -/
def Dev.raiseH (d : Dev) (e : Nat) (p : Int) : Dev :=
  d.onEnc e fun x => { x with h := max x.h p.toNat }

/-- The signed source position of an emulated output, 32 fractional bits (R251). -/
def Dev.emuSrc (d : Dev) (k : Nat) : Int :=
  let e := d.get (F.POS_EMU_CFG_SRC k)
  if d.get (F.POS_EMU_CFG_FOLLOW k) = 1 then d.encP e else (d.enc e).h

/-- An emulated output follows its source: the counts owed grow by the target's advance, and counts
beyond a backlog of 65,535 are dropped (R252). -/
def Dev.emuFollow (d : Dev) (k : Nat) : Dev :=
  if d.get (F.POS_EMU_CFG_ENABLE k) = 0 ∨ !d.configDone then d
  else
    let m := nth d.pos.emus k {}
    let tgt := d.emuSrc k * (d.get64 (R.POS_EMU_RATIOLO k) (R.POS_EMU_RATIOHI k) : Int) / 2 ^ 64
    let owed := m.owed + (tgt - m.target)
    let kept := clampI (-65535) 65535 owed
    let lost := (owed - kept).natAbs
    let d1 := d.onPos fun p => { p with emus := upd p.emus k fun m => { m with target := tgt, owed := kept } }
    let d2 := d1.put (F.POS_EMU_STAT_BACKLOG k) kept.natAbs
    d2.when (lost != 0) fun d =>
      ((d.addSat (F.POS_EMU_STAT_LOST k) lost).put F.POS_IRQ_STAT_EMULOST 1).report 93

/-- POS stands at time `t` in ps: every counting encoder's H is brought up to its interpolated
position, and the emulated outputs follow. -/
def Dev.posAt (d : Dev) (t : Nat) : Dev :=
  let d1 := (d.atTime (t / 1000)).each (List.range 4) fun d e =>
    d.when (d.encOn e) fun d => d.raiseH e (d.interp e t)
  d1.each [0, 1] Dev.emuFollow

/-- The speed of an encoder in 1/16 sub-line per second, toward zero, saturating (R239). -/
def spdReg (dp : Int) (dt : Nat) : Int :=
  clampI (-(2 ^ 31 - 1)) (2 ^ 31 - 1) (Int.tdiv (dp * 16 * 1000000000000) ((max dt 1 : Nat) * 2 ^ 32))

/-- POS_ENCe_SPEED as it reads at a time: between counts, once the time since the last count exceeds
the period before it, at most SCALE over that time (R239). -/
def Dev.speedAt (d : Dev) (e t : Nat) : Int :=
  let x := d.enc e
  let v := spdReg x.dp x.dt
  match x.lastT with
  | none => 0
  | some tl =>
    if d.get (F.POS_ENC_STAT_STILL e) = 1 then 0
    else if x.period < t - tl then
      let m := spdReg (d.encScale e) (t - tl)
      clampI (-m) m v
    else v

/-- What the pins of an encoder decode to (R232, R234). -/
inductive Decoded where
  | nothing | count (up : Bool) | error
  deriving DecidableEq, Repr

/-- Decodes a change of A and B from the levels before, in a mode, before INV. -/
def decodePins (mode : Nat) (a b a' b' : Bool) : Decoded :=
  let ra := !a && a'
  let rb := !b && b'
  if mode = 0 then
    if a ≠ a' ∧ b ≠ b' then .error
    else if a ≠ a' then .count (a' != b)
    else if b ≠ b' then .count (b' == a)
    else .nothing
  else if mode = 3 then
    if ra && rb then .nothing else if ra then .count true else if rb then .count false else .nothing
  else if ra then .count (!b') else .nothing

/-- Direction and hysteresis (R242). -/
def Dev.encDir (d : Dev) (e : Nat) : Dev :=
  let x := d.enc e
  let hy := d.get (F.POS_ENC_CFG_HYST e)
  if d.get (F.POS_ENC_STAT_DIR e) = 0 then
    if x.raw < x.extreme - hy then
      ((d.put (F.POS_ENC_STAT_DIR e) 1).put F.POS_IRQ_STAT_DIR 1).onEnc e fun x => { x with extreme := x.raw }
    else d.onEnc e fun x => { x with extreme := max x.extreme x.raw }
  else if x.extreme + hy < x.raw then
    ((d.put (F.POS_ENC_STAT_DIR e) 0).put F.POS_IRQ_STAT_DIR 1).onEnc e fun x => { x with extreme := x.raw }
  else d.onEnc e fun x => { x with extreme := min x.extreme x.raw }

/-- Zones that take items and whose position an encoder gives. -/
def Dev.encZones (d : Dev) (e : Nat) : List Nat :=
  (List.range 16).filter fun z => d.get (F.ITK_ZONE_CFG_ENABLE z) = 1 && d.get (F.POS_ZONE_CFG_ENC z) == e

/-- More than 12,800,000 sub-lines per second (R253). -/
def overspeed (dp : Int) (dt : Nat) : Bool := (12800000 : Int) * 2 ^ 32 * dt < dp * 1000000000000

/-- One decoded count of an encoder, forward or backward, at a time in ps (R235 to R242). -/
def Dev.encCount (d : Dev) (e : Nat) (up : Bool) (t : Nat) : Dev :=
  let x := d.enc e
  let sc : Int := d.encScale e
  let raw' := if up then x.raw + 1 else x.raw - 1
  let still := d.get (F.POS_ENC_STAT_STILL e) = 1
  let low := d.get (F.POS_ENC_STAT_LOW_CONF e) = 1
  let reversal := x.lastUp.any (· != up)
  let win := d.get (F.POS_ENC_SPD_WIN e) * 1000000
  let inWin := x.hist.filter fun h => t - h.2 ≤ win
  let j := (inWin.getLast?).orElse fun _ => x.hist.head?
  let since := match x.lastT with | some tl => t - tl | none => 0
  let sp : Int × Nat :=
    if reversal then (0, 1)
    else if still then (match x.lastT with | some _ => (if up then sc else -sc, since) | none => (0, 1))
    else match j with
      | some h => ((raw' - h.1) * sc, t - h.2)
      | none => (0, 1)
  let hist' := (raw', t) :: (if reversal then [] else if inWin = [] then x.hist.take 1 else inWin)
  let d1 := d.onEnc e fun x =>
    { x with raw := raw', hist := hist', lastUp := some up, lowNext := still, lastT := some t,
             period := since, dp := sp.1, dt := sp.2 }
  let d2 := d1.put (F.POS_ENC_STAT_STILL e) 0
  let d3 := d2.put (F.POS_ENC_STAT_LOW_CONF e) (if still ∨ (low ∧ x.lowNext) then 1 else 0)
  let d4 := d3.encDir e
  let d5 := d4.raiseH e (d4.interp e t)
  let fast := overspeed sp.1 sp.2 && !(overspeed x.dp x.dt) && d5.encZones e != []
  (d5.when fast fun d => d.report 89).each [0, 1] Dev.emuFollow

/-- The pins A and B of an encoder take new levels at a time in ps, after their filter: a count, a
quadrature error (R234) or nothing is decoded. -/
def execEncoderCount (enc : Fin 4) (a b : Bool) (t : Nat) (s : State) : Host.Outcome State Fault Refusal :=
  s.upd fun d =>
    let x := d.enc enc
    let d1 := (d.posAt t).onEnc enc fun x => { x with a := a, b := b }
    if !d.encOn enc then d1
    else
      let inv := d.get (F.POS_ENC_CFG_INV enc) = 1
      match decodePins (d.get (F.POS_ENC_CFG_MODE enc)) x.a x.b a b with
      | .nothing => d1
      | .count up => d1.encCount enc (up != inv) t
      | .error => ((d1.incSat (F.POS_ENC_STAT_QERR enc)).put F.POS_IRQ_STAT_QERR 1).report 88

/-- A rising edge of Z copies RAW when ZEN is set (R234). -/
def execZEdge (enc : Fin 4) (t : Nat) (s : State) : Host.Outcome State Fault Refusal :=
  s.upd fun d =>
    let d1 := d.posAt t
    d1.when (d1.encOn enc && d1.get (F.POS_ENC_CFG_ZEN enc) == 1) fun d =>
      (d.put64 (R.POS_ENC_ZLATLO enc) (R.POS_ENC_ZLATHI enc) (ux 64 (d.enc enc).raw)).put F.POS_IRQ_STAT_ZIDX 1

/-- No count within STILL ms of the last one (R240): the speed reads 0 and STILL is set. -/
def execEncoderStill (enc : Fin 4) (t : Nat) (s : State) : Host.Outcome State Fault Refusal :=
  s.upd fun d =>
    let d1 := d.posAt t
    match (d1.enc enc).lastT with
    | none => d1
    | some tl =>
      d1.when (d1.encOn enc && d1.get (F.POS_ENC_STAT_STILL enc) == 0 &&
          decide (tl + d1.get (F.POS_ENC_SPD_STILL enc) * 1000000000 ≤ t)) fun d =>
        ((d.put (F.POS_ENC_STAT_STILL enc) 1).put F.POS_IRQ_STAT_STILL 1).onEnc enc fun x =>
          { x with dp := 0, dt := 1 }

/-! ### Compare units -/

/-- A feature holds a claim on a resource (R65, R74). -/
def Dev.holds (d : Dev) (cls feature ix : Nat) : Bool :=
  d.cfg.claims.any fun c => c.cls == cls && c.feature == feature && c.first ≤ ix && ix < c.first + c.num

/-- Some feature holds a claim on a resource. -/
def Dev.claimed (d : Dev) (cls ix : Nat) : Bool :=
  d.cfg.claims.any fun c => c.cls == cls && c.first ≤ ix && ix < c.first + c.num

/-- The pad that the pin mux gives to a function (R499). -/
def Dev.padOf (d : Dev) (fn : Nat) : Option Nat :=
  (List.range 32).find? fun n => d.get (F.PIN_PAD_CFG_FUNC n) == fn

/-- Drives the pad of compare unit `c`. -/
def Dev.driveCmp (d : Dev) (c : Nat) (l : Bool) : Dev :=
  let d1 := d.onPos fun p => { p with cmpPad := upd p.cmpPad c fun _ => l }
  match d1.padOf (0x10 + c) with
  | some n => d1.emit (.pin n (if l then 1 else 0))
  | none => d1

/-- Changes a trigger generator. -/
def Dev.onGen (d : Dev) (k : Nat) (f : Gen → Gen) : Dev :=
  d.onCam fun t => { t with gens := upd t.gens k f }

/-- The generator of the comparator's source is `k` (R342). -/
def Dev.insGenIs (d : Dev) (k : Nat) : Bool :=
  d.get (F.CAM_SRC_CFG_TRG (d.get (F.VIS_OUT_CFG_SRC (d.get F.INS_CFG_OUT)))) == k + 1

/-- Generator `k` starts from T_0, with 16 fractional bits (R324, R325); inspection lines count from it. -/
def Dev.startGen (d0 : Dev) (k t0 : Nat) (late : Bool) : Dev :=
  let d := d0.when (d0.insGenIs k) fun d => d.onIns fun t => { t with front := [0, 0, 0, 0], readTo := 0 }
  let d1 := d.onGen k fun g => { t0 := t0, next := t0, late := late, epoch := g.epoch + 1 }
  ((((d1.put (F.CAM_TRG_STAT_WAITING k) 0).put (F.CAM_TRG_STAT_RUNNING k) 1).put (F.CAM_TRG_STAT_LATE k)
    (if late then 1 else 0)).put (F.CAM_TRG_COUNT_COUNT k) 0).when late fun d => d.put F.CAM_IRQ_STAT_LATE 1

/-- A match of compare unit `c` (R244), with or without the LATE flag. -/
def Dev.cmpMatch (d : Dev) (c : Nat) (late : Bool) : Dev :=
  let at' := nth d.pos.cmpAt c 0
  let per := d.get (F.POS_CMP_PERIOD_VALUE c)
  let z := d.zonePos (d.get (F.POS_CMP_CFG_ZONE c))
  let act := d.get (F.POS_CMP_CFG_ACTION c)
  let d1 := ((d.put (F.POS_CMP_STAT_MATCHED c) 1).put (F.POS_CMP_STAT_LATE c) (if late then 1 else 0)).put F.POS_IRQ_STAT_CMP 1
  let d2 := if act = 1 then d1.driveCmp c true
    else if act = 2 then d1.driveCmp c (!(nth d1.pos.cmpPad c false))
    else if act = 3 then
      let ks := (List.range 4).filter fun k => d1.get (F.CAM_TRG_STAT_WAITING k) == 1 && d1.get (F.CAM_TRG_CFG_CMP k) == c
      d1.each ks fun d k => d.startGen k (at' * 2 ^ 16) false
    else d1
  if per = 0 then d2.put (F.POS_CMP_STAT_ARMED c) 0
  else
    let skip := (z + 2 ^ 48 - at' % 2 ^ 48) % 2 ^ 48 / per
    let d3 := d2.onPos fun p => { p with cmpAt := upd p.cmpAt c fun _ => (at' + (skip + 1) * per) % 2 ^ 48 }
    d3.addSat (F.POS_CMP_STAT_MISSCNT c) skip

/-- The position an armed unit is armed at comes from POSHI and POSLO. -/
def Dev.cmpPos (d : Dev) (c : Nat) : Nat := d.get64 (R.POS_CMP_POSLO c) (R.POS_CMP_POSHI c)

/-- The checks of an ARM (R243), in order. -/
def Dev.armCheck (d : Dev) (c : Nat) (lateOk : Bool) : Nat :=
  let z := d.get (F.POS_CMP_CFG_ZONE c)
  let wd := d.get (F.POS_CMP_WIDTH_VALUE c)
  firstFail [
    (d.get (F.ITK_ZONE_CFG_ENABLE z) = 0 || decide (0xFFFF < d.get (F.POS_CMP_POSHI_POS c)), sBadValue),
    (d.get (F.POS_CMP_CFG_ACTION c) == 1 && (wd == 0 || decide (65535 < wd)), sBadValue),
    (!(d.running || d.st? = stSafe), sBadState),
    (d.get (F.POS_CMP_STAT_ARMED c) = 1, sBusy),
    (!(d.holds 2 (d.get (F.POS_CMP_CFG_FEATURE c)) c), sConflict),
    (passed (d.zonePos z) (d.cmpPos c) && !lateOk, sLate)]

/-- Arms unit `c`; a passed position with LATE_OK matches at once (R243). -/
def Dev.armCmp (d : Dev) (c : Nat) : Dev :=
  let p := d.cmpPos c
  let d1 := (d.put (F.POS_CMP_STAT_ARMED c) 1).onPos fun q => { q with cmpAt := upd q.cmpAt c fun _ => p }
  d1.when (passed (d1.zonePos (d1.get (F.POS_CMP_CFG_ZONE c))) p) fun d => d.cmpMatch c true

/-- An armed unit's position has passed at a time in ps (R244). -/
def execCompareMatch (c : Fin 16) (t : Nat) (s : State) : Host.Outcome State Fault Refusal :=
  s.upd fun d =>
    let d1 := d.posAt t
    let z := d1.zonePos (d1.get (F.POS_CMP_CFG_ZONE c))
    d1.when (d1.get (F.POS_CMP_STAT_ARMED c) == 1 && passed z (nth d1.pos.cmpAt c 0)) fun d => d.cmpMatch c false

/-- The pulse of a unit with ACTION 1 ends after WIDTH × 10 ns (R244). -/
def execComparePulseEnd (c : Fin 16) (s : State) : Host.Outcome State Fault Refusal :=
  s.upd fun d => d.when (nth d.pos.cmpPad c false && d.get (F.POS_CMP_CFG_ACTION c) == 1) fun d => d.driveCmp c false

/-! ### REJECT outputs -/

/-- The level of a REJECT output: held in every state before READY and in SAFE (R250). -/
def Dev.rejLevel (d : Dev) (o : Nat) : Bool := !d.running || (nth d.pos.rejs o {}).asserted

/-- Changes a REJECT output. -/
def Dev.onRej (d : Dev) (o : Nat) (f : RejOut → RejOut) : Dev :=
  d.onPos fun p => { p with rejs := upd p.rejs o f }

/-- The output falls when no pulse runs and, when it was held by a full queue, the queue is empty. -/
def Dev.rejSettle (d : Dev) (o : Nat) : Dev :=
  let r := nth d.pos.rejs o {}
  let held := d.get (F.POS_REJ_STAT_HELD o) = 1
  if r.pulses = [] ∧ (!held ∨ r.queue = []) then
    let d1 := (d.put (F.POS_REJ_STAT_HELD o) 0).onRej o fun r => { r with asserted := false }
    d1.when (r.asserted && d.running) fun d => d.emit (.pin (54 + o) 0)
  else d

/-- A queued request's position has passed at a time in ps: its pulse begins (R249). -/
def execRejectPulseStart (o : Fin 2) (t : Nat) (s : State) : Host.Outcome State Fault Refusal :=
  s.upd fun d =>
    let d1 := d.posAt t
    match (nth d1.pos.rejs o {}).queue with
    | [] => d1
    | (z, p) :: r =>
      if !(passed (d1.zonePos z) p) then d1
      else
        let d2 := d1.onRej o fun x => { x with queue := r }
        let d3 := (d2.put (F.POS_REJ_STAT_PENDING o) r.length).rejPulse o z
        d3.emit (.pin (54 + o.val) 1)

/-- A pulse has run WIDTH sub-lines and MINTIME at a time in ps: it ends (R249). -/
def execRejectPulseEnd (o : Fin 2) (t : Nat) (s : State) : Host.Outcome State Fault Refusal :=
  s.upd fun d =>
    let d1 := d.posAt t
    let d2 := d1.onRej o fun r =>
      { r with pulses := r.pulses.filter fun q => !(passed (d1.zonePos q.1) q.2.1 && q.2.2 ≤ t) }
    if d2.pos = d1.pos then d1 else d2.rejSettle o

/-! ### Emulated encoder outputs -/

/-- The levels of A and B at an output count: quadrature, A leading B forward. -/
def quadLevels (n : Int) : Bool × Bool :=
  let q := n % 4
  (q = 1 || q = 2, q = 2 || q = 3)

/-- One output count toward the target, at least MINSEP FIR clocks after the last edge (R251). -/
def execEmuOutputStep (k : Fin 2) (t : Nat) (s : State) : Host.Outcome State Fault Refusal :=
  s.upd fun d =>
    let d1 := d.posAt t
    let m := nth d1.pos.emus k {}
    let sep := d1.get (F.POS_EMU_CFG_MINSEP k) * 1250
    let free := match m.lastT with | some tl => decide (tl + sep ≤ t) | none => true
    if m.owed = 0 ∨ !free ∨ d1.get (F.POS_EMU_CFG_ENABLE k) = 0 then d1
    else
      let st : Int := if 0 < m.owed then 1 else -1
      let n := sx 32 (d1.rd (R.POS_EMU_COUNT k)).toNat + st
      let d2 := d1.onPos fun p => { p with emus := upd p.emus k fun m => { m with owed := m.owed - st, lastT := some t } }
      let d3 := (d2.wrN (R.POS_EMU_COUNT k) (ux 32 n)).put (F.POS_EMU_STAT_BACKLOG k) (m.owed - st).natAbs
      let q := quadLevels n
      let zp := d3.get (F.POS_EMU_ZPER_COUNTS k)
      let z := zp != 0 && n % zp == 0
      let b (x : Bool) : Nat := if x then 1 else 0
      let p := 44 + 3 * k.val
      ((d3.emit (.pin p (b q.1))).emit (.pin (p + 1) (b q.2))).emit (.pin (p + 2) (b z))

/-! ### The POS registers -/

/-- Legal ranges of POS. -/
def posRngs : List Rng :=
  [⟨F.POS_ENC_SPD_WIN 0, 1, 65535⟩, ⟨F.POS_ENC_SPD_STILL 0, 1, 255⟩, ⟨F.POS_CMP_PERIOD_VALUE 0, 0, 2 ^ 31 - 1⟩,
   ⟨F.POS_EMU_CFG_MINSEP 0, 16, 255⟩]

/-- Checks 5 and 6 of a write to POS, with the statuses of R243 and R245. -/
def posCheck (d : Dev) (w : Wr) : Nat :=
  let armed := d.get (F.POS_CMP_STAT_ARMED w.i) = 1
  if w.at (R.POS_CMP_ARM 0) then
    let arm := bitB w.new 0
    firstFail [(arm && bitB w.new 2, sBadValue),
      (arm && d.armCheck w.i (bitB w.new 1) != sOk, d.armCheck w.i (bitB w.new 1))]
  else firstFail [
    (rngBad posRngs w, sBadValue),
    (w.at (R.POS_PG_CFG 0) && bitB w.new 31 && bits w.new 29 2 == 0, sBadValue),
    (w.at (R.POS_ENC_CFG 0) && bitB w.new 31 && !(d.claimed 7 w.i), sConflict),
    (armed && (w.at (R.POS_CMP_CFG 0) || w.at (R.POS_CMP_POSLO 0) || w.at (R.POS_CMP_POSHI 0) ||
      w.at (R.POS_CMP_PERIOD 0) || w.at (R.POS_CMP_WIDTH 0)), sBusy)]

/-- What a write to POS does beside storing its fields. -/
def posApply (d : Dev) (w : Wr) : Dev :=
  if w.at (R.POS_CMP_ARM 0) then
    if bitB w.new 0 then d.armCmp w.i
    else d.when (bitB w.new 2) fun d => d.put (F.POS_CMP_STAT_ARMED w.i) 0
  else d

/-- Low and high word of a 48-bit position. -/
def pos48 (p : Int) (hi : Bool) : Nat := if hi then ux 48 p / 2 ^ 32 else ux 48 p % 2 ^ 32

/-- The registers of POS that are worked out when they are read. -/
def posView (d : Dev) (base : Nat) (ix : List Nat) : Option Nat :=
  let i := ix.getD 0 0
  let raw := ux 64 (d.enc i).raw
  let p := d.encP i / 2 ^ 32
  let h : Int := (d.enc i).h / 2 ^ 32
  if base = R.POS_ENC_COUNTLO 0 then some (raw % 2 ^ 32)
  else if base = R.POS_ENC_COUNTHI 0 then some (raw / 2 ^ 32)
  else if base = R.POS_ENC_POSLO 0 then some (pos48 p false)
  else if base = R.POS_ENC_POSHI 0 then some (pos48 p true)
  else if base = R.POS_ENC_HWMLO 0 then some (pos48 h false)
  else if base = R.POS_ENC_HWMHI 0 then some (pos48 h true)
  else if base = R.POS_ENC_SPEED 0 then some (ux 32 (d.speedAt i (d.c * 1000)))
  else if base = R.POS_ZONE_POSLO 0 then some (d.zonePos i % 2 ^ 32)
  else if base = R.POS_ZONE_POSHI 0 then some (d.zonePos i / 2 ^ 32)
  else none

end Sys2Proof.Machine
end

