-- ==== Sys2Proof/Machine/Nzm.lean ====
section
/-! DEFINITION. Nozzle mapping (R214 to R218), nozzle states (R220 to R223), the rake (R224 to R228)
and the PB4-compatible calibration (R229), with the NZM and CAL registers. -/

namespace Sys2Proof.Machine

/-! ### Nozzle tables -/

/-- Stored state of a nozzle (R215): 0 OK, 1 OUT, 2 PROBE, 3 DISABLED. -/
def Dev.nozState (d : Dev) (n : Nat) : Nat := spGet 0 d.nzm.states n

/-- Trim of a nozzle in the active bank, and in the next bank. -/
def Dev.trimA (d : Dev) (n : Nat) : Int := spGet 0 d.nzm.active n
def Dev.trimN (d : Dev) (n : Nat) : Int := spGet 0 d.nzm.next n

/-- A nozzle is treated as out for a line whose item runs with the head groups of `deg` out (R215). -/
def Dev.nozOut (d : Dev) (deg n : Nat) : Bool :=
  d.nozState n == 1 || d.nozState n == 3 || bitB deg (n / 32768)

/-- Entry `i` of transfer table `t` (R219). -/
def Dev.ttEntry (d : Dev) (t i : Nat) : Nat :=
  if i % 2 = 0 then d.get (F.NZM_TT_W_EVEN t (i / 2)) else d.get (F.NZM_TT_W_ODD t (i / 2))

/-- The waveform select of a tone after trim, at line `y` and bar column `c` (R216 step 5). -/
def Dev.transfer (d : Dev) (h tone y c : Nat) : Nat :=
  let e := d.ttEntry (d.get (F.NZM_HEAD_CFG_TT h)) tone
  if bayer (y % 16) (c % 16) < bits e 8 8 then bits e 4 4 else bits e 0 4

/-- T′ of R216 step 4. -/
def trimTone (t : Nat) (k : Int) : Nat := min 255 (((t : Int) * (128 + k) + 64) / 128).toNat

/-! ### Mapping a line -/

/-- A column of a line after stitching: bar column, the head and head nozzle that carry it, its
stitching partner, its tone. -/
structure Cell where
  c : Nat
  head : Nat
  i : Nat
  partner : Option (Nat × Nat)
  tone : Nat
  deriving DecidableEq, Repr

/-- A contribution of R217: the nozzle that takes it, its bar column, the tone, whether it comes from
step 3. -/
structure Contrib where
  head : Nat
  i : Nat
  c : Nat
  tone : Nat
  comp : Bool
  deriving DecidableEq, Repr

/-- What redirection makes of one cell: its contributions, and whether its tone was lost. -/
structure Redir where
  out : List Contrib
  lost : Bool
  deriving DecidableEq, Repr

/-- The device nozzle index of a head nozzle. -/
def Dev.devNoz (d : Dev) (h i : Nat) : Nat := d.headNoz h + i

/-- Redirection of a cell treated as out (R217). -/
def Dev.redirect (d : Dev) (deg r : Nat) (cells : List Cell) (x : Cell) : Redir :=
  let out (h i : Nat) : Bool := d.nozOut deg (d.devNoz h i)
  match x.partner with
  | some (ph, pi) =>
    if !(out ph pi) then { out := [{ head := ph, i := pi, c := x.c, tone := x.tone, comp := false }], lost := false }
    else nbs out
  | none => nbs out
where
  nbs (out : Nat → Nat → Bool) : Redir :=
    let ns := cells.filter fun y => (y.c + 1 == x.c || y.c == x.c + 1) && !(out y.head y.i)
    if d.get (F.NZM_ROW_COMP_EN r) = 0 then { out := [], lost := true }
    else
      let g := if ns.length = 2 then d.get (F.NZM_ROW_COMP_CG2 r) else d.get (F.NZM_ROW_COMP_CG1 r)
      { out := ns.map fun y => { head := y.head, i := y.i, c := y.c, tone := x.tone * g / 256, comp := true },
        lost := ns.isEmpty }

/-- A line mapped: for each head its selects (nozzle, select, rank), the head groups with a tone moved
and those with tones lost (one entry for each tone), and whether it degrades its item (R218). -/
structure Mapped where
  sels : List (Nat × List (Nat × Nat × Nat))
  moved : List Nat
  lost : List Nat
  degrades : Bool
  deriving DecidableEq, Repr

/-- Maps the cells of a line of row `r` at item line `y` (R216 to R218); `redir` is false for a
calibration pattern. -/
def Dev.mapLine (d : Dev) (deg r y : Nat) (cells : List Cell) (heads : List Nat) (redir : Bool) : Mapped :=
  let out (h i : Nat) : Bool :=
    if redir then d.nozOut deg (d.devNoz h i)
    else d.nozState (d.devNoz h i) == 3 || bitB deg (d.devNoz h i / 32768)
  let dead := if redir then cells.filter fun x => x.tone != 0 && out x.head x.i else []
  let rs := dead.map fun x => (x, d.redirect deg r cells x)
  let cons := (rs.map fun x => x.2.out).flatten
  let own := (cells.filter fun x => x.tone != 0 && !(out x.head x.i)).map fun x =>
    { head := x.head, i := x.i, c := x.c, tone := x.tone, comp := false : Contrib }
  let all := own ++ cons
  let keys := (all.map fun x => (x.head, x.i, x.c)).eraseDups
  let sel (k : Nat × Nat × Nat) : Nat × Nat × Nat :=
    let mine := all.filter fun x => x.head == k.1 && x.i == k.2.1
    let t := min 255 (mine.foldl (fun s x => s + x.tone) 0)
    let t' := trimTone t (d.trimA (d.devNoz k.1 k.2.1))
    let rank := bayer (y % 16) (k.2.2 % 16) + if mine.any (·.comp) then 256 else 0
    (k.2.1, d.transfer k.1 t' y k.2.2, rank)
  let deadDeg (x : Cell) : Bool := d.nozState (d.devNoz x.head x.i) != 3 || d.get F.NZM_CFG_DISDEG == 1
  { sels := heads.map fun h => (h, (((keys.filter fun k => k.1 == h).map sel).filter fun s => s.2.1 != 0)),
    moved := ((rs.filter fun x => x.2.out != []).map fun x => x.1.head / 8).eraseDups,
    lost := (rs.filter fun x => x.2.lost).map fun x => x.1.head / 8,
    degrades := rs.any fun x => deadDeg x.1 && (x.2.lost || x.2.out.any (·.comp)) }

/-! ### Changing nozzle states -/

/-- OUTCNT and DISCNT of a head, counted over the nozzles that are not OK. -/
def Dev.countState (d : Dev) (h v : Nat) : Nat :=
  (d.nzm.states.filter fun x => x.2 == v && decide (d.headNoz h ≤ x.1 ∧ x.1 < d.headNoz h + d.headN h)).length

/-- The counts of a head follow its nozzles, and source 82 is raised once per head until the count
falls below MAXOUT (R222). -/
def Dev.syncCounts (d : Dev) (h : Nat) : Dev :=
  let o := d.countState h 1
  let mx := d.get F.NZM_CFG_MAXOUT
  let d1 := (d.put (F.NZM_HEAD_STAT_OUTCNT h) o).put (F.NZM_HEAD_STAT_DISCNT h) (d.countState h 3)
  let full := mx ≠ 0 ∧ mx ≤ o
  if full then
    if d1.nzm.maxout.contains h then d1
    else ((d1.onNzm fun t => { t with maxout := h :: t.maxout }).put F.NZM_IRQ_STAT_MAXOUT 1).report 82
  else d1.onNzm fun t => { t with maxout := t.maxout.filter (· != h) }

/-- Sets a nozzle's stored state. -/
def Dev.setNoz (d : Dev) (n v : Nat) : Dev :=
  let d1 := d.onNzm fun t => { t with states := spPut 0 t.states n v }
  match d1.nozHead n with
  | some (h, _) => d1.syncCounts h
  | none => d1

/-- Source 81 of a declaration. -/
def Dev.declared (d : Dev) (n : Nat) : Dev := (d.put F.NZM_IRQ_STAT_OUT 1).report 81

/-- The probe delay of a nozzle in s: CAL_RESTORE.DELAY until a probe fails. -/
def Dev.probeDelay (d : Dev) (n : Nat) : Nat :=
  ((d.nzm.delays.find? fun x => x.1 == n).map (·.2)).getD (d.get F.CAL_RESTORE_DELAY)

/-- Inspection has made a nozzle OUT: the rake's wait begins (R223). -/
def Dev.startWait (d : Dev) (n : Nat) : Dev :=
  let c := d.c
  let w := d.probeDelay n
  d.onNzm fun t => { t with outs := (t.outs.filter fun x => x.1 != n) ++ [(n, c, w)] }

/-- The rake forgets a nozzle: its wait ends and its delay returns to DELAY. -/
def Dev.endWait (d : Dev) (n : Nat) : Dev :=
  d.onNzm fun t => { t with outs := t.outs.filter (fun x => x.1 != n), delays := t.delays.filter fun x => x.1 != n }

/-- A failed probe doubles the nozzle's delay, up to MAXDELAY. -/
def Dev.probeFail (d : Dev) (n : Nat) : Dev :=
  let w := min (2 * d.probeDelay n) (d.get F.CAL_RESTORE_MAXDELAY)
  let d1 := d.onNzm fun t => { t with delays := (t.delays.filter fun x => x.1 != n) ++ [(n, w)] }
  (d1.setNoz n 1).startWait n

/-- A state change applied (R222): 0 inspection declares out, 1 firmware writes OK, 2 firmware writes
OUT, 3 the rake begins a probe, 4 the probe passes, 5 the probe fails. -/
def Dev.applyChange (d : Dev) (n k : Nat) : Dev :=
  let st := d.nozState n
  if k = 0 then
    if st = 0 then ((d.setNoz n 1).declared n).startWait n
    else if st = 2 then d.probeFail n
    else if st = 3 then d.incSat F.NZM_DECLIGN_COUNT
    else d
  else if k = 1 then (if st = 3 then d else (d.setNoz n 0).endWait n)
  else if k = 2 then (if st = 3 then d else (d.setNoz n 1).onNzm fun t => { t with outs := t.outs.filter fun x => x.1 != n })
  else if k = 3 then (if st = 1 then d.setNoz n 2 else d)
  else if k = 4 then (if st = 2 then ((d.setNoz n 0).endWait n).put F.NZM_IRQ_STAT_RESTORED 1 else d)
  else if st = 2 then d.probeFail n else d

/-- A change waits for the next line boundary of its head group (R221). -/
def Dev.addChange (d : Dev) (n k : Nat) : Dev :=
  d.onNzm fun t => { t with changes := t.changes ++ [(n, k)] }

/-- A change reaches NZM; in a pair, the ACTIVE's stand for both chips (R381). -/
def Dev.takeChange (d : Dev) (n k : Nat) : Dev :=
  if d.decides then (d.twInput 5 0xFF 0 [n, k]).addChange n k else d

/-- NZM_STATEWR (R222): the status of the write. -/
def Dev.stateWrCheck (d : Dev) (v : Nat) : Nat :=
  let n := bits v 0 18
  firstFail [(2 ≤ bits v 18 2, sBadValue), ((d.nozHead n).isNone, sBadValue), (!(d.running || d.st? = stSafe), sBadState),
    (d.nozState n == 3, sLocked)]

def Dev.stateWr (d : Dev) (v : Nat) : Dev := d.addChange (bits v 0 18) (if bits v 18 2 = 0 then 1 else 2)

/-- A line boundary of a head group (R221): the changes taken for its nozzles apply in order. -/
def Dev.lineBoundary (d : Dev) (n : Nat) : Dev :=
  let mine := d.nzm.changes.filter fun x => x.1 / 32768 == n
  let d1 := d.onNzm fun t => { t with changes := t.changes.filter fun x => x.1 / 32768 != n }
  d1.each mine fun d x => d.applyChange x.1 x.2

/-- NOZZLE_STATE_APPLY: the line boundary of head group `hg` has come. -/
def execNozzleStateApply (hg : Fin 8) (s : State) : Host.Outcome State Fault Refusal :=
  s.upd fun d => d.lineBoundary hg

/-- PROBE_DELAY_EXPIRY (R223): with RESTORE at 1, a nozzle that inspection made OUT and that has been
out for its delay is set to PROBE. -/
def execProbeDelayExpiry (nozzle : Fin 262144) (s : State) : Host.Outcome State Fault Refusal :=
  s.upd fun d =>
    match d.nzm.outs.find? fun x => x.1 == nozzle.val with
    | none => d
    | some (_, t0, w) =>
      let d1 := d.atTime (t0 + w * 1000000000)
      d1.when (d1.get F.CAL_CFG_RESTORE == 1) fun d =>
        (d.onNzm fun t => { t with outs := t.outs.filter fun x => x.1 != nozzle.val }).takeChange nozzle 3

/-! ### Temperature sets and targets -/

/-- Division of integers rounded to the nearest, half away from zero. -/
def roundDiv (a b : Int) : Int :=
  if 0 ≤ a then (2 * a + b) / (2 * b) else -((2 * (-a) + b) / (2 * b))

/-- Head entry of the temperature sets: its address in DRAM. -/
def Dev.setEntry (d : Dev) (h : Nat) : Option Nat := (d.nzm.sets.find? fun x => x.1 == h).map (·.2)

/-- TEMP_j of an entry, and k of set j for head nozzle i. -/
def Dev.setTemp (d : Dev) (a j : Nat) : Int := sx 16 (d.ld (a + 4 + 2 * j) 2)
def Dev.setTrim (d : Dev) (h a j i : Nat) : Int :=
  sx 8 (d.ld (d.nzm.setsBase + d.ld (a + 0x14) 4 + j * d.headN h + i) 1)

/-- ktemp of R225. -/
def Dev.ktemp (d : Dev) (h i : Nat) (t : Int) : Int :=
  match d.setEntry h with
  | none => 0
  | some a =>
    let n := d.ld (a + 1) 1
    if t ≤ d.setTemp a 0 then d.setTrim h a 0 i
    else if d.setTemp a (n - 1) ≤ t then d.setTrim h a (n - 1) i
    else
      let j := ((List.range (n - 1)).find? fun j => decide (d.setTemp a j ≤ t ∧ t < d.setTemp a (j + 1))).getD 0
      let k0 := d.setTrim h a j i
      k0 + roundDiv ((d.setTrim h a (j + 1) i - k0) * (t - d.setTemp a j)) (d.setTemp a (j + 1) - d.setTemp a j)

/-- corr(n) of R226. -/
def Dev.corr (d : Dev) (n : Nat) : Int := spGet 0 d.nzm.corr n

/-- The temperature the rake uses for a head: the last taken, 25 °C until a first report (R225). -/
def Dev.rakeTemp (d : Dev) (h : Nat) : Int := spGet 400 d.nzm.temps h

/-- target(n) before it is clamped (R226). -/
def Dev.rawTarget (d : Dev) (h i : Nat) : Int := d.ktemp h i (d.rakeTemp h) + d.corr (d.devNoz h i)

def Dev.target (d : Dev) (h i : Nat) : Int := clampI (-32) 31 (d.rawTarget h i)

/-- The head nozzles whose trim is not the default or may leave it: all of them. -/
def Dev.headNozzles (d : Dev) (h : Nat) : List Nat := List.range (d.headN h)

/-- SETTLING: nozzles whose active trim differs from their target, up to 65,535. -/
def Dev.syncSettling (d : Dev) : Dev :=
  let n := ((List.range 64).filter d.headOk).foldl (fun x h =>
    x + ((d.headNozzles h).filter fun i => d.trimA (d.devNoz h i) != d.target h i).length) 0
  d.put F.CAL_STAT_SETTLING (min 65535 n)

/-- Source 85 of a head: a target saturates, at most once per minute (R226). -/
def Dev.satCheck (d : Dev) (h : Nat) : Dev :=
  let sat := (d.headNozzles h).any fun i => d.rawTarget h i < -32 || 31 < d.rawTarget h i
  let recent := (d.nzm.satAt.find? fun x => x.1 == h).any fun x => d.c < x.2 + 60000000000
  d.when (sat && !recent) fun d =>
    let c := d.c
    ((d.onNzm fun t => { t with satAt := (t.satAt.filter fun x => x.1 != h) ++ [(h, c)] }).put F.CAL_IRQ_STAT_SAT 1).report 85

/-- RAKE_SWEEP (R225, R227): the next bank of head group `hg` takes, for every nozzle, the active trim
moved toward the target by at most STEP, and is marked ready. A head whose temperature is held, or
whose reads met an uncorrectable error (`eccHead`, source 87, R230), keeps its trims. -/
def execRakeSweep (hg : Fin 8) (eccHead : Option (Fin 8)) (s : State) : Host.Outcome State Fault Refusal :=
  s.upd fun d =>
    let step : Int := d.get F.CAL_CFG_STEP
    let d1 := d.put F.CAL_STAT_STATE 1
    let d2 := match eccHead with
      | some j =>
        ((d1.onNzm fun t => { t with heldHeads := (8 * hg.val + j.val) :: t.heldHeads }).put F.CAL_IRQ_STAT_ECC 1).report 87
          (8 * hg.val + j.val)
      | none => d1
    let d3 := d2.each (d2.hgHeads hg) fun d h =>
      if d.nzm.heldHeads.contains h then
        d.each (d.headNozzles h) fun d i =>
          let n := d.devNoz h i
          d.onNzm fun t => { t with next := spPut 0 t.next n (spGet 0 t.active n) }
      else
        let fresh' := d.hasTemp h && d.tempAge h < 100
        let tNow := sx 16 (d.get (F.HLK_HEAD_TEMP_TEMP h))
        let da := if fresh' then d.onNzm fun t => { t with temps := spPut 400 t.temps h tNow } else d
        let db := da.when (da.get F.CAL_CFG_MODE != 2) fun d => d.put (F.CAL_HEAD_TREF_TEMP h) (ux 16 (d.rakeTemp h))
        let dc := db.each (db.headNozzles h) fun d i =>
          let n := d.devNoz h i
          let a := d.trimA n
          let v := a + clampI (-step) step (d.target h i - a)
          d.onNzm fun t => { t with next := spPut 0 t.next n v }
        dc.satCheck h
    ((d3.put (F.NZM_HG_FLAGS_READY hg) 1).put F.CAL_STAT_STATE (if d3.nzm.heldHeads = [] then 0 else 4)).syncSettling

/-- The bank of a head group is swapped in (R227). -/
def Dev.swapBank (d : Dev) (n : Nat) : Dev :=
  let nozzles := ((d.hgHeads n).map fun h => (d.headNozzles h).map (d.devNoz h)).flatten
  let d1 := d.each nozzles fun d k =>
    let a := d.trimA k
    let b := d.trimN k
    d.onNzm fun t => { t with active := spPut 0 t.active k b, next := spPut 0 t.next k a }
  (d1.put (F.NZM_HG_FLAGS_READY n) 0).incWrap (F.NZM_HG_STEPSEQ_SEQ n)

/-- A step point of a head group (R227), named by an item and its lines assembled so far: a ready bank is
swapped in. A chip that follows its partner swaps at the points where the ACTIVE did (R381). -/
def Dev.stepPoint (d : Dev) (n id k : Nat) : Dev :=
  if d.decides then
    d.when (d.get (F.NZM_HG_FLAGS_READY n) == 1) fun d => (d.twInput 9 n 0 [id, k]).swapBank n
  else d.when (d.twn.inputs.any fun x => x.kind == 9 && x.unit == n && x.args == [id, k]) fun d =>
    (d.onTwn fun t => { t with inputs := t.inputs.filter fun x => !(x.kind == 9 && x.unit == n && x.args == [id, k]) }).swapBank n

/-- The steps that the active trim of a nozzle needs to reach its new target. -/
def Dev.stepsTo (d : Dev) (h i : Nat) : Nat :=
  ceilDiv (d.target h i - d.trimA (d.devNoz h i)).natAbs (max 1 (d.get F.CAL_CFG_STEP))

/-- corr(n) takes delta, and the settling mark follows (R228). -/
def Dev.correct (d : Dev) (h i : Nat) (delta : Int) : Dev :=
  let n := d.devNoz h i
  let c0 := d.corr n
  let c1 := clampI (-63) 63 (c0 + delta)
  if c1 = c0 then d
  else
    let d1 := d.onNzm fun t => { t with corr := spPut 0 t.corr n c1 }
    let mark := (d1.get (F.NZM_HG_STEPSEQ_SEQ (n / 32768)) + d1.stepsTo h i) % 2 ^ 32
    ((d1.onNzm fun t => { t with settle := (t.settle.filter fun x => x.1 != n) ++ [(n, mark)] }).incSat
      F.CAL_UPDCNT_COUNT).syncSettling

/-- delta of R228 for a ratio with a gain and a deadband. -/
def rakeDelta (gain deadband r : Nat) : Int :=
  let x := roundDiv ((gain : Int) * 128 * (16384 - (r : Int))) (256 * 16384)
  if x.natAbs ≤ deadband then 0 else x

/-- A density report of a nozzle (R228): taken or discarded. -/
def Dev.takeDensity (d : Dev) (n r lowSeq : Nat) : Dev :=
  match d.nozHead n with
  | none => d
  | some (h, i) =>
    let mark := (d.nzm.settle.find? fun x => x.1 == n).map (·.2)
    let early := mark.any fun m => (m + 2 ^ 32 - lowSeq % 2 ^ 32) % 2 ^ 32 ≠ 0 ∧ (m + 2 ^ 32 - lowSeq % 2 ^ 32) % 2 ^ 32 < 2 ^ 31
    let deg := d.get (F.NZM_HG_FLAGS_DEGRADE (n / 32768)) = 1
    if d.nozState n ≠ 0 ∨ deg ∨ early ∨ d.get F.CAL_HOLD_HOLD = 1 then d.incSat F.CAL_DISCCNT_COUNT
    else d.correct h i (rakeDelta (d.get F.CAL_CFG_GAIN) (d.get F.CAL_CFG_DEADBAND) r)

/-- A density report of this chip's INS: in a pair, the ACTIVE's stand for both chips (R381). -/
def Dev.densityReport (d : Dev) (n r lowSeq : Nat) : Dev :=
  if d.decides then (d.twInput 6 0xFF 0 [n, r, lowSeq]).takeDensity n r lowSeq else d

/-- DENSITY_REPORT: with MODE 1 the rake takes a nozzle's ratio with the lowest STEPSEQ it covers. -/
def execDensityReport (nozzle : Fin 262144) (r lowSeq : Nat) (s : State) : Host.Outcome State Fault Refusal :=
  s.upd fun d => d.when (d.get F.CAL_CFG_MODE == 1) fun d => d.densityReport nozzle r lowSeq

/-- TEMP_STALE_TIMEOUT (R225): no temperature of a head for 100 ms; its trims are held. -/
def execTempStaleTimeout (h : Fin 64) (s : State) : Host.Outcome State Fault Refusal :=
  s.upd fun d =>
    d.when (d.headOk h && 100 ≤ d.tempAge h) fun d => (d.put F.CAL_IRQ_STAT_TEMPSTALE 1).report 84

/-! ### PB4-compatible calibration (R229) -/

/-- A head is due for a run. -/
def Dev.pbDue (d : Dev) (h : Nat) : Bool :=
  let req := if h < 32 then bitB (d.rd R.CAL_PB4REQLO).toNat h else bitB (d.rd R.CAL_PB4REQHI).toNat (h - 32)
  let t := sx 16 (d.get (F.HLK_HEAD_TEMP_TEMP h))
  d.headOk h && (req || (d.hasTemp h && d.get F.CAL_PB4_DELTA < (t - sx 16 (d.get (F.CAL_HEAD_TREF_TEMP h))).natAbs))

/-- The distance the web of a zone travels in 20 ms at its present speed, in sub-lines. -/
def Dev.pbTravel (d : Dev) (z : Nat) : Nat :=
  let v := d.speedAt (d.get (F.POS_ZONE_CFG_ENC z)) (d.c * 1000)
  v.toNat * 20 / 16000

/-- The pattern's length in a zone under R177, in sub-lines. -/
def Dev.pbLength (d : Dev) (z : Nat) : Nat := 64 * 511 + (d.maxDelay z - d.minDelay z) + 64

/-- The end position of the last predecessor of a zone, if there is one. -/
def Dev.predEnd (d : Dev) (z : Nat) : Option Nat := ((nth d.itk.bound z []).head?).map (·.2)

/-- Binds a pattern in a zone for the due heads (R229). -/
def Dev.bindPattern (d : Dev) (z : Nat) (hs : List Nat) : Dev :=
  let now := d.zonePos z
  let base := match d.predEnd z with
    | some p => if later48 p now then p else now
    | none => now
  let line0 := (base + d.get F.CAL_PB4_GAP * 64) % 2 ^ 48
  let fp := (line0 + 2 ^ 48 - d.minDelay z % 2 ^ 48) % 2 ^ 48
  let endp := (line0 + d.pbLength z + d.pbTravel z) % 2 ^ 48
  let ts := hs.map fun h => (h, d.get (F.HLK_HEAD_TEMP_TEMP h))
  let p : Pattern := { zone := z, heads := hs, firstPos := fp, temps := ts }
  let v := d.speedAt (d.get (F.POS_ZONE_CFG_ENC z)) (d.c * 1000)
  let us := if 0 < v then d.pbLength z * 16 * 1000000 / v.toNat + 20000 else 20000
  let d1 := (d.twInput 8 z 0 ([fp, endp] ++ hs)).onNzm fun t => { t with patterns := t.patterns ++ [p] }
  (d1.onItk fun t => { t with bound := upd t.bound z fun l => (0, endp) :: l }).put F.CAL_PB4LAST_TIME us

/-- PB4_RUN: the heads that are due take part; a pattern is bound in every zone with columns of one. -/
def execPb4Run (s : State) : Host.Outcome State Fault Refusal :=
  s.upd fun d =>
    let due := (List.range 64).filter d.pbDue
    if d.get F.CAL_CFG_MODE ≠ 2 ∨ due = [] ∨ !d.running ∨ d.nzm.patterns ≠ [] ∨ !d.decides then d
    else
      let zs := (List.range 16).filter fun z => d.zoneOk z && (d.zoneHeads z).any fun h => due.contains h
      (d.each zs fun d z => d.bindPattern z due).put F.CAL_STAT_STATE 2

/-- The tone of the pattern at line `y` and bar column `c`. -/
def pbTone (y c : Nat) : Nat :=
  if y < 256 then (if c % 16 = y / 16 then 255 else 0)
  else min 255 (64 * ((y - 256) / 64 + 1))

/-- A verdict of INS on a nozzle's column (R349) for the rake: it matters in PROBE (R222, R223). -/
def Dev.verdict (d : Dev) (n : Nat) (pass : Bool) : Dev :=
  d.when (d.nozState n == 2 && d.get (F.NZM_HG_FLAGS_DEGRADE (n / 32768)) == 0) fun d => d.takeChange n (if pass then 4 else 5)

/-- PB4_ANALYSIS: the staircase gives each nozzle of the due heads a verdict (a failed nozzle is
declared out), the patches a ratio used with GAIN 256/256; TREF takes the temperature at binding. -/
def execPb4Analysis (failed : List Nat) (ratios : List (Nat × Nat)) (s : State) : Host.Outcome State Fault Refusal :=
  s.upd fun d =>
    if d.nzm.patterns = [] ∨ !d.decides then d
    else
      let hs := ((d.nzm.patterns.map (·.heads)).flatten).eraseDups
      let ts := (d.nzm.patterns.map (·.temps)).flatten
      let mine (n : Nat) : Bool := (d.nozHead n).any fun x => hs.contains x.1
      let d1 := d.each (failed.filter mine) fun d n => d.takeChange n 0
      let pass := (d1.nzm.states.filter fun x => x.2 == 2 && mine x.1 && !(failed.contains x.1)).map (·.1)
      let d2 := d1.each pass fun d n => d.takeChange n 4
      let d3 := d2.each (ratios.filter fun x => mine x.1) fun d x =>
        match d.nozHead x.1 with
        | some (h, i) => d.correct h i (rakeDelta 256 (d.get F.CAL_CFG_DEADBAND) x.2)
        | none => d
      let d4 := d3.each ts fun d x => d.put (F.CAL_HEAD_TREF_TEMP x.1) x.2
      let d5 := d4.each hs fun d h =>
        if h < 32 then d.clrBit F.CAL_PB4REQLO_HEADS h else d.clrBit F.CAL_PB4REQHI_HEADS (h - 32)
      ((d5.onNzm fun t => { t with patterns := [] }).put F.CAL_STAT_STATE 0).put F.CAL_IRQ_STAT_PB4DONE 1

/-- PB4_ANALYSIS_TIMEOUT: the pattern was not seen or not analysed; the heads stay due. -/
def execPb4AnalysisTimeout (s : State) : Host.Outcome State Fault Refusal :=
  s.upd fun d =>
    if d.nzm.patterns = [] then d
    else (((d.onNzm fun t => { t with patterns := [] }).put F.CAL_STAT_STATE 0).put F.CAL_IRQ_STAT_PB4FAIL 1).report 86

/-! ### Initial states and trims -/

/-- A 0x2000 record (R220): FIRST, NUM and the states; `named` holds the ranges of earlier records. -/
def Dev.stateRecord (d : Dev) (named : List (Nat × Nat)) (b : List Byte) : Nat × Dev :=
  let first := fieldLE b 0 4
  let num := fieldLE b 4 4
  let body := b.drop 16
  if b.length ≠ 16 + num ∨ num = 0 ∨ 262144 < first + num ∨ !(zeroBytes b 8 8) ∨
      body.any (fun x => x.toNat == 2 || 3 < x.toNat) ∨ named.any (fun r => rangesMeet r.1 r.2 first num) then (sBadValue, d)
  else (sOk, d.each (body.zipIdx) fun d x => d.onNzm fun t => { t with states := spPut 0 t.states (first + x.2) x.1.toNat })

/-- At SELFTEST both banks hold the targets at 25 °C (R227). -/
def Dev.fillBanks (d : Dev) : Dev :=
  d.each ((List.range 64).filter d.headOk) fun d h =>
    d.each (d.headNozzles h) fun d i =>
      let v := clampI (-32) 31 (d.ktemp h i 400)
      let n := d.devNoz h i
      d.onNzm fun t => { t with active := spPut 0 t.active n v, next := spPut 0 t.next n v }

/-! ### The NZM and CAL registers -/

def nzmRngs : List Rng :=
  [⟨F.CAL_CFG_RESTORE, 0, 1⟩, ⟨F.CAL_CFG_GAIN, 1, 128⟩, ⟨F.CAL_CFG_STEP, 1, 8⟩, ⟨F.CAL_CFG_MODE, 0, 2⟩,
   ⟨F.CAL_RESTORE_DELAY, 1, 65535⟩, ⟨F.CAL_PB4_DELTA, 1, 65535⟩]

/-- Checks 5 and 6 of a write to NZM or CAL. -/
def nzmCheck (d : Dev) (w : Wr) : Nat :=
  firstFail [
    (rngBad nzmRngs w, sBadValue),
    (w.at R.CAL_RESTORE && w.val F.CAL_RESTORE_MAXDELAY < w.val F.CAL_RESTORE_DELAY, sBadValue),
    (w.at (R.NZM_TT_W 0 0) && w.i 1 == 0 && bits w.new 0 16 != 0, sBadValue),
    (w.at R.NZM_STATEWR && d.stateWrCheck w.new != sOk, d.stateWrCheck w.new),
    ((w.at R.CAL_PB4REQLO || w.at R.CAL_PB4REQHI) && d.get F.CAL_CFG_MODE != 2, sBadState)]

/-- What a write to NZM or CAL does beside storing its fields. -/
def nzmApply (d : Dev) (w : Wr) : Dev := if w.at R.NZM_STATEWR then d.stateWr w.new else d

/-- NZM_NOZINFO shows the nozzle that NZM_NOZSEL names. -/
def nzmView (d : Dev) (base : Nat) (_ : List Nat) : Option Nat :=
  if base = R.NZM_NOZINFO then
    let n := d.get F.NZM_NOZSEL_NOZZLE
    some (ux 6 (d.trimN n) + ux 6 (d.trimA n) * 2 ^ 8 + d.nozState n * 2 ^ 16)
  else none

end Sys2Proof.Machine
end

