-- ==== Sys2Proof/Machine/Brd.lean ====
section
/-! DEFINITION. The decompressors (R152 to R162), raster assembly (R176 to R187) with the field
overlay (R208), and the compressor (R163 to R167), with the BRD, BRC and RAS registers. -/

namespace Sys2Proof.Machine

/-! ### Pages and blocks -/

/-- The page of the page store with an index. -/
def Dev.page? (d : Dev) (p : Nat) : Option Page := d.itk.pages.find? fun x => x.page == p

/-- A page's stream header, once it has passed. -/
def Dev.pageHdr (d : Dev) (p : Nat) : Option StreamHdr := (d.page? p).bind (·.hdr)

/-- The complete brine block `idx` of a page: its bytes, without the stream header that precedes block
0 (R133). -/
def Dev.blkBytes (d : Dev) (p idx : Nat) : Option (List Byte) :=
  match (d.page? p).bind (fun x => x.blks.find? fun b => b.idx == idx && b.complete) with
  | none => none
  | some b => some (if idx = 0 then d.ldBs (b.base + 128) (b.total - 128) else d.ldBs b.base b.total)

/-- Changes an open block of a decompressor. -/
def Dev.onOpen (d : Dev) (n k : Nat) (f : OpenBlk → OpenBlk) : Dev :=
  d.onRas fun t => { t with opened := upd t.opened n fun l => upd l k f }

/-- A block that breaks the format (R160), or an ECC error: the item ends, every line of it not yet in
a pan carries 0, and BRD_HGn_ERR keeps the first. -/
def Dev.brdBreach (d : Dev) (n kind blk : Nat) (id : Nat) : Dev :=
  let pg := ((d.findItem id).map (·.page)).getD 0
  let d1 := d.when (d.get (F.BRD_HG_ERR_VALID n) == 0) fun d =>
    (d.wrN (R.BRD_HG_ERR n) (2 ^ 31 + kind * 2 ^ 16 + blk)).wrN (R.BRD_HG_ERRPAGE n) pg
  ((d1.abandon id 0x0B false).put F.BRD_IRQ_STAT_ERR 1).report (if kind = 7 then 53 else 52)

/-- INPUT_RING_FETCH (R157): 256 more bytes of open block `k` of decompressor `hg` are in the ring, of
which every open block has an equal part; `ecc` marks an uncorrectable error. -/
def execInputRingFetch (hg : Fin 8) (k : Fin 8) (ecc : Bool) (s : State) : Host.Outcome State Fault Refusal :=
  s.upd fun d =>
    let l := nth d.ras.opened hg []
    match l[k.val]? with
    | none => d
    | some b =>
      if ecc then d.brdBreach hg 7 b.idx b.item
      else if b.fetched < b.total ∧ b.fetched + 256 - b.used ≤ 65536 / l.length then
        d.onOpen hg k fun b => { b with fetched := min b.total (b.fetched + 256) }
      else d

/-- The bytes that a decoder must hold to go past byte `need` of its block: 64 bits more, or all the
rest (R158). -/
def ringNeed (total need : Nat) : Nat := min total (need + 8)

/-- DECODER_INPUT_READY (R158): a waiting decoder resumes when the bits are present. -/
def execDecoderInputReady (hg : Fin 8) (k : Fin 8) (s : State) : Host.Outcome State Fault Refusal :=
  s.upd fun d =>
    match (nth d.ras.opened hg [])[k.val]? with
    | none => d
    | some b => d.when (b.waiting && ringNeed b.total b.used ≤ b.fetched) fun d => d.onOpen hg k fun b => { b with waiting := false }

/-- The path of a head group toward its pan has room: every head that zone `z` needs on row `r`
holds fewer than HIWM events (R264). -/
def Dev.panRoom (d : Dev) (h : Nat) : Bool :=
  decide ((d.head h).pan.length + (d.head h).queue.length < d.getAct (F.FIR_HG_CFG_HIWM (h / 8)))

/-- DECODER_STALL_END (R159): room returns after a stop of so many RAS clocks. -/
def execDecoderStallEnd (hg : Fin 8) (clocks : Nat) (s : State) : Host.Outcome State Fault Refusal :=
  s.upd fun d =>
    d.when (nth d.ras.stopped hg false && (d.hgHeads hg).all d.panRoom) fun d =>
      (d.onRas fun t => { t with stopped := upd t.stopped hg fun _ => false }).addSat (F.BRD_HG_STALL_COUNT hg) clocks

/-! ### Samples of a line -/

/-- What the decoders of a head group make of one line: samples by strip, a wait, or a breach. -/
inductive StripLine where
  | samples (l : List (Nat × List Nat))
  | wait
  | breach (kind blk : Nat)
  deriving DecidableEq, Repr

/-- The header that block (plane, band, strip) of a page must show, and its lines (R160). -/
def Dev.stripBlock (d : Dev) (pg : Nat) (h : StreamHdr) (p band strip : Nat) : Except Nat (BlkHdr × List Byte) :=
  let idx := h.index p band strip
  match d.blkBytes pg idx with
  | none => .error 1
  | some bs =>
    match parseBlk bs with
    | none => .error 1
    | some b => if blkMatches h idx b then .ok (b, bs) else .error 1

/-- Opens the blocks of a band that a row needs in head group `n` (R154); the index of a block whose
header differs, if there is one. -/
def Dev.openBand (d : Dev) (n r z id pg : Nat) (h : StreamHdr) (band : Nat) : Dev × Option Nat :=
  let p := d.rowPlane r
  let l := (nth d.ras.opened n []).filter fun b => !(b.row == r && b.zone == z)
  let ss := d.stripsOf h n r z
  let bad := (ss.find? fun s => match d.stripBlock pg h p band s with
    | .ok _ => false
    | .error _ => true).map fun s => h.index p band s
  let new := ss.map fun s =>
    let idx := h.index p band s
    { item := id, row := r, zone := z, page := pg, idx := idx, hist := h.stripW p s * h.depth,
      total := ((d.blkBytes pg idx).getD []).length : OpenBlk }
  ((d.onRas fun t => { t with opened := upd t.opened n fun _ => l ++ new }).syncOpen n, bad)

/-- Line `y` of the strips of a row in head group `n`, and the bytes used of each open block. -/
def Dev.stripLines (d : Dev) (n r z pg : Nat) (h : StreamHdr) (y : Nat) : StripLine × List (Nat × Nat) :=
  let p := d.rowPlane r
  let k := y % h.bh
  let step (acc : StripLine × List (Nat × Nat)) (s : Nat) : StripLine × List (Nat × Nat) :=
    match acc.1 with
    | .samples l =>
      let idx := h.index p (y / h.bh) s
      match d.stripBlock pg h p (y / h.bh) s with
      | .error e => (.breach e idx, acc.2)
      | .ok (b, bs) =>
        let dl := decodeBlock b (blkPayload b bs)
        match dl.1[k]? with
        | none => (.breach (dl.2.getD 6) idx, acc.2)
        | some (row, left) =>
          let used := 20 + ceilDiv (8 * b.plen - left) 8
          let ob := (nth d.ras.opened n []).find? fun o => o.row == r && o.zone == z && o.idx == idx
          if (ob.map (·.fetched)).getD 0 < ringNeed (24 + b.plen) used then (.wait, (idx, used) :: acc.2)
          else if k + 1 = b.h ∧ dl.2.isSome then (.breach (dl.2.getD 6) idx, acc.2)
          else (.samples (l ++ [(s, row)]), (idx, used) :: acc.2)
    | x => (x, acc.2)
  (d.stripsOf h n r z).foldl step (.samples [], [])

/-- The decoders of a head group wait: each wait is counted, with source 54 (R158). -/
def Dev.starve (d : Dev) (n r z : Nat) : Dev :=
  let l := nth d.ras.opened n []
  let first := l.any fun b => b.row == r && b.zone == z && !b.waiting
  let d1 := d.onRas fun t => { t with opened := upd t.opened n fun l => l.map fun b =>
    if b.row = r ∧ b.zone = z then { b with waiting := true } else b }
  d1.when first fun d => (d.incSat (F.BRD_HG_STARVE_COUNT n)).report 54

/-- Bytes used of the open blocks move on. -/
def Dev.useBytes (d : Dev) (n : Nat) (us : List (Nat × Nat)) (r z : Nat) : Dev :=
  let f (b : OpenBlk) : OpenBlk := match us.find? fun u => u.1 == b.idx with
    | some u => if b.row = r ∧ b.zone = z then { b with used := u.2, waiting := false } else b
    | none => b
  d.onRas fun t => { t with opened := upd t.opened n fun l => l.map f }

/-- The sample of a page line at column `x`, from the samples of its strips. -/
def lineSample (h : StreamHdr) (ls : List (Nat × List Nat)) (x : Nat) : Nat :=
  match ls.find? (fun s => s.1 == x / h.bw) with
  | some s => nth s.2 (x % h.bw) 0
  | none => 0

/-! ### Field overlay (R208) -/

/-- blend(a, b, k). -/
def blend (a b k : Nat) : Nat := (a * (15 - k) + b * k + 7) / 15

/-- The coverage of a field raster at a unit of its box. -/
def Dev.coverage (d : Dev) (f : Raster) (u v : Nat) : Nat :=
  bits (d.ldB (f.addr + v * f.stride + u / 2)).toNat (if u % 2 = 0 then 4 else 0) 4

/-- One field on one sample of a row that lays plane `p`. -/
def Dev.overlay1 (d : Dev) (p x y s : Nat) (f : Raster) : Nat :=
  if f.x ≤ x ∧ x < f.x + f.w ∧ f.y ≤ y ∧ y < f.y + f.h then
    let t := f.tpl
    let s1 := if bitB (d.get (F.IMP_TPL_KODEF_KOMASK t)) p then 0 else s
    if d.get (F.IMP_TPL_CFG_PLANE t) = p then
      let k := d.coverage f (x - f.x) (y - f.y)
      let lv := d.get (F.IMP_TPL_CFG_LEVEL t)
      let m := d.get (F.IMP_TPL_CFG_MODE t)
      if m = 0 then blend (d.get (F.IMP_TPL_CFG_BG t)) lv k
      else if m = 1 then blend s1 lv k
      else if m = 2 then max s1 (blend 0 lv k)
      else blend s1 0 k
    else s1
  else s

/-- The fields of an item on one sample, in rising template number. -/
def Dev.overlay (d : Dev) (fs : List Raster) (p x y s : Nat) : Nat :=
  fs.foldl (fun v f => d.overlay1 p x y v f) s

/-! ### Assembling a line (R181) -/

/-- K of R216. -/
def toneK (depth : Nat) : Nat := if depth = 1 then 255 else if depth = 2 then 85 else 17

/-- The columns of a zone on a row, each with the heads that cover it. -/
def Dev.zoneColumns (d : Dev) (z r : Nat) : List (Nat × List Nat) :=
  let hs := d.zoneRowHeads z r
  (List.range (d.zoneXW z)).map fun i =>
    let c := d.zoneX0 z + i
    (c, hs.filter fun h => d.covers h c)

/-- The cell of a column, stitched (R182). -/
def Dev.cell (d : Dev) (c y tone : Nat) (hs : List Nat) : Option Cell :=
  match hs with
  | [] => none
  | [h] => some { c := c, head := h, i := d.colNoz h c, partner := none, tone := tone }
  | l :: h :: _ =>
    if d.toHigh l h c y then some { c := c, head := h, i := d.colNoz h c, partner := some (l, d.colNoz l c), tone := tone }
    else some { c := c, head := l, i := d.colNoz l c, partner := some (h, d.colNoz h c), tone := tone }

/-- A line reaches a head's queue, in order of fire position (R257). -/
def insLine (l : MLine) : List MLine → List MLine
  | [] => [l]
  | x :: xs => if later52 x.f l.f then l :: x :: xs else x :: insLine l xs

/-- An item's rows are ended: this is the last line of its last pass on a row of greatest DELAY. -/
def Dev.isLastLine (d : Dev) (i : Item) (r k : Nat) : Bool :=
  k + 1 == d.lineCount i && d.rowDelay r == d.maxDelay i.zone

/-- Faults that are raised once for an item: bit `b` of its `once`. -/
def Dev.onceFault (d : Dev) (id b : Nat) (f : Dev → Dev) : Dev :=
  match d.findItem id with
  | none => d
  | some i => if bitB i.once b then d else f (d.updItem id fun i => { i with once := i.once ||| 2 ^ b })

/-- The head groups of a list of heads. -/
def headHgs (hs : List Nat) : List Nat := (hs.map (· / 8)).eraseDups

/-- The mapped line of an item goes to its heads' queues, with what R217 and R218 count. -/
def Dev.pushLine (d : Dev) (id z r y p pos : Nat) (last : Bool) (m : Mapped) : Dev :=
  let d1 := d.each m.sels fun d hs =>
    let st := d.get (F.NZM_HG_STEPSEQ_SEQ (hs.1 / 8))
    let f0 := 16 * pos % 2 ^ 52
    let l : MLine := { item := id, zone := z, row := r, y := y, pass := p, f := f0, sels := hs.2, last := last, step := st }
    d.onHead hs.1 fun h => { h with queue := insLine l h.queue }
  let d2 := d1.each m.moved fun d n => d.incWrap (F.NZM_HG_COMPCNT_COUNT n)
  let d3 := d2.each m.lost fun d n => d.incSat (F.NZM_HG_LOST_COUNT n)
  let d4 := d3.when (m.lost != []) fun d => d.onceFault id 3 fun d => (d.put F.NZM_IRQ_STAT_LOST 1).report 83
  d4.when m.degrades fun d => d.updItem id fun i => { i with degraded := true }

/-- Before a line of an item enters mapping in the head groups of a row: state changes apply (R221),
a step point swaps the banks (R227), and the item takes the treatment of R291 in each head group. -/
def Dev.beforeLine (d : Dev) (i : Item) (hgs : List Nat) : Dev :=
  d.each hgs fun d n =>
    let d1 := d.lineBoundary n
    let firstHere := (d1.hgRows n).all fun r => asmDone i.asm r == 0
    let step := if d1.get F.CAL_CFG_STEPPT = 0 then firstHere else d1.get (F.RAS_HG_LINES_COUNT n) % 1024 == 0
    let d2 := d1.when step fun d => d.stepPoint n i.id (i.asm.foldl (fun x r => x + r.2) 0)
    d2.when (firstHere && d2.get (F.NZM_HG_FLAGS_DEGRADE n) == 1) fun d =>
      d.updItem i.id fun i => { i with deg := i.deg ||| 2 ^ n }

/-- The cells of an item's line on a row from the samples of its page line. -/
def Dev.itemCells (d : Dev) (i : Item) (r y : Nat) (ps : Pass) (h : StreamHdr) (ls : List (Nat × List Nat)) : List Cell :=
  let p := d.rowPlane r
  let w := if y < h.lines ∧ p < h.planes then nth h.widths p 0 else 0
  (d.zoneColumns i.zone r).filterMap fun ch =>
    let x := d.pageX r i.zone ch.1 ps.xshift
    let on := decide (0 ≤ x ∧ x < w) && d.selected r i.zone x.toNat y ps
    let s := if on then d.overlay i.rasters p x.toNat y (lineSample h ls x.toNat) else 0
    d.cell ch.1 y (s * toneK h.depth) ch.2

/-- One line of an item on a row, its data at hand or all 0. -/
def Dev.layLine (d : Dev) (i : Item) (r k : Nat) (h : StreamHdr) (ls : Option (List (Nat × List Nat))) : Dev :=
  let (p, ps, y) := d.lineAt i k
  let hs := d.zoneRowHeads i.zone r
  let d1 := d.when (i.asm == [] && ls.isSome) fun d =>
    d.when (d.clipped h i.zone i.lines) fun d => d.onceFault i.id 0 fun d =>
      ((d.incSat F.RAS_CLIPCNT_COUNT).put F.RAS_IRQ_STAT_CLIP 1).report 67
  let d2 := d1.beforeLine i (headHgs hs)
  let deg := ((d2.findItem i.id).map (·.deg)).getD 0
  let m := match ls with
    | some l => d2.mapLine deg r y (d2.itemCells i r y ps h l) hs true
    | none => { sels := hs.map fun x => (x, []), moved := [], lost := [], degrades := false }
  let d3 := d2.pushLine i.id i.zone r y p (d2.linePos i.firstPos r y ps) (d2.isLastLine i r k) m
  d3.updItem i.id fun i => { i with asm := asmInc i.asm r }

/-- The line needs page samples: the row's plane and the line lie in the page (R176). -/
def needsData (h : StreamHdr) (p y : Nat) : Bool := p < h.planes && y < h.lines

/-- Gathers the samples of a line over the head groups of a row: samples, or the first wait or breach
with its head group. -/
def Dev.gather (d : Dev) (r z pg : Nat) (h : StreamHdr) (y : Nat) : List Nat → List (Nat × List Nat) →
    Except (Nat × StripLine) (List (Nat × List Nat))
  | [], acc => .ok acc
  | n :: ns, acc =>
    match (d.stripLines n r z pg h y).1 with
    | .samples l => d.gather r z pg h y ns (acc ++ l)
    | x => .error (n, x)

/-- Assembles the next line of an item on a row (R181). -/
def Dev.assembleItem (d : Dev) (i : Item) (r : Nat) : Dev :=
  let k := asmDone i.asm r
  let (_, _, y) := d.lineAt i k
  let hgs := headHgs (d.zoneRowHeads i.zone r)
  match d.pageHdr i.page with
  | none => d.layLine i r k { planes := 0, depth := 4, lines := 0, bw := 64, bh := 1, blocks := 0, widths := [] } none
  | some h =>
    if i.abandoned then d.layLine i r k h none
    else if !(needsData h (d.rowPlane r) y) then d.layLine i r k h (some [])
    else
      let opened := d.each hgs fun d n =>
        let have' := (nth d.ras.opened n []).any fun b => b.row == r && b.zone == i.zone && b.item == i.id &&
          (d.stripsOf h n r i.zone).any fun s => h.index (d.rowPlane r) (y / h.bh) s == b.idx
        if have' ∨ d.stripsOf h n r i.zone = [] then d else
          match d.openBand n r i.zone i.id i.page h (y / h.bh) with
          | (d1, some blk) => d1.brdBreach n 1 blk i.id
          | (d1, none) => d1
      match opened.findItem i.id with
      | none => opened
      | some i' =>
        if i'.abandoned then opened.layLine i' r k h none
        else match opened.gather r i.zone i.page h y hgs [] with
          | .error (n, .breach kind blk) =>
            let d1 := opened.brdBreach n kind blk i.id
            d1.layLine ((d1.findItem i.id).getD i') r k h none
          | .error (n, _) => opened.starve n r i.zone
          | .ok ls =>
            let used := opened.each hgs fun d n => d.useBytes n (d.stripLines n r i.zone i.page h y).2 r i.zone
            let closed := used.when (y + 1 == h.lines || (y + 1) % h.bh == 0) fun d => d.each hgs fun d n =>
              (d.onRas fun t => { t with opened := upd t.opened n fun l => l.filter fun b =>
                !(b.row == r && b.zone == i.zone) }).syncOpen n
            closed.layLine i' r k h (some ls)

/-- Assembles the next line of a calibration pattern on a row (R229): tones on the columns of the due
heads, through steps 4 and 5 of R216. -/
def Dev.assemblePattern (d : Dev) (p : Pattern) (r : Nat) : Dev :=
  let y := asmDone p.asm r
  let hs := (d.zoneRowHeads p.zone r).filter p.heads.contains
  let cells := (hs.map fun h => ((List.range (d.headN h)).filter fun i => d.inZone p.zone (d.nozCol h i)).map fun i =>
    let c := d.nozCol h i
    { c := c, head := h, i := i, partner := none, tone := pbTone y c : Cell }).flatten
  let deg := (List.range 8).foldl (fun m n => if d.get (F.NZM_HG_FLAGS_DEGRADE n) = 1 then m + 2 ^ n else m) 0
  let m := d.mapLine deg r y cells hs false
  let d1 := d.pushLine 0 p.zone r y 0 (d.linePos p.firstPos r y {}) false m
  d1.onNzm fun t => { t with patterns := t.patterns.map fun q => if q.zone = p.zone then { q with asm := asmInc q.asm r } else q }

/-- The bound item of a zone whose line is next on a row: the earliest FIRSTPOS. -/
def Dev.nextOnRow (d : Dev) (r z : Nat) : Option Item :=
  (d.itk.items.filter fun i => i.zone == z && d.moreLines i r).foldl (fun b i => match b with
    | none => some i
    | some j => if later48 j.firstPos i.firstPos then some i else b) none

/-- The pattern of a zone with lines left on a row. -/
def Dev.nextPattern (d : Dev) (r z : Nat) : Option Pattern :=
  d.nzm.patterns.find? fun p => p.zone == z && asmDone p.asm r < 512 &&
    (d.zoneRowHeads z r).any fun h => p.heads.contains h

/-- Marks the head groups of heads without room as stopped (R159). -/
def Dev.stopFull (d : Dev) (hs : List Nat) : Dev :=
  d.each (headHgs (hs.filter fun h => !(d.panRoom h))) fun d n =>
    d.onRas fun t => { t with stopped := upd t.stopped n fun _ => true }

/-- An error that assembly or mapping meets in the line that is due, handled as a late line (R189,
R230): 1 field raster, 2 blend or feed tables, 3 nozzle tables. -/
def Dev.lineError (d : Dev) (r z err : Nat) (i : Item) : Dev :=
  let k := asmDone i.asm r
  let (p, _, y) := d.lineAt i k
  let l : MLine := { item := i.id, zone := z, row := r, y := y, pass := p, f := 0, sels := [], last := false }
  let n := (headHgs (d.zoneRowHeads z r)).headD 0
  if err = 1 then (d.put F.RAS_IRQ_STAT_FIELDERR 1).lateLine n [l] 65 2
  else if err = 2 then (d.put F.RAS_IRQ_STAT_TBLECC 1).lateLine n [l] 66 3
  else (d.put F.NZM_IRQ_STAT_ECC 1).lateLine n [l] 80 6

/-- ASSEMBLE_LINE: the next line of row `row` in zone `zone` is assembled when its data and the room
are there; `err` names an uncorrectable error met in it. -/
def execAssembleLine (row : Fin 16) (zone : Fin 16) (err : Fin 4) (s : State) : Host.Outcome State Fault Refusal :=
  s.upd fun d =>
    let r := row.val
    let z := zone.val
    let hs := d.zoneRowHeads z r
    let it := d.nextOnRow r z
    let pt := d.nextPattern r z
    let usePat := match it, pt with
      | none, some _ => true
      | some i, some p => later48 i.firstPos p.firstPos
      | _, none => false
    if !d.running ∨ hs = [] ∨ !(d.zoneOk z) then d
    else if (it.isSome || pt.isSome) && !(hs.all d.panRoom) then d.stopFull hs
    else match usePat, pt, it with
      | true, some p, _ => d.assemblePattern p r
      | _, _, some i =>
        if err.val ≠ 0 ∧ !i.abandoned then
          let d1 := d.lineError r z err i
          d1.assembleItem ((d1.findItem i.id).getD i) r
        else d.assembleItem i r
      | _, _, none => d

/-! ### Decode to DRAM (R161, R162) -/

/-- A 40-bit control address from its LO and HI registers. -/
def Dev.addr40 (d : Dev) (lo hi : Nat) : Nat := (d.rd lo).toNat + 2 ^ 32 * ((d.rd hi).toNat % 256)

/-- The page, header, plane, first band and last band of the job registers. -/
def Dev.djobRange (d : Dev) : Nat × Nat × Nat × Nat :=
  (d.get F.BRD_DJOB_PAGE_PAGE, d.get F.BRD_DJOB_PAGE_PLANE, d.get F.BRD_DJOB_BANDS_FIRST,
   d.get F.BRD_DJOB_BANDS_FIRST + d.get F.BRD_DJOB_BANDS_COUNTM1)

/-- A head group has an item SCHEDULED or FIRING. -/
def Dev.hgBusy (d : Dev) (n : Nat) : Bool :=
  d.itk.items.any fun i => (i.state == isScheduled || i.state == isFiring) && (d.zoneHgs i.zone).contains n

/-- The checks of a BRD_DJOB_GO (R162). -/
def Dev.djobCheck (d : Dev) : Nat :=
  let (pg, p, b0, b1) := d.djobRange
  let st := d.get F.BRD_DJOB_STRIDE_STRIDE
  let dst := d.addr40 R.BRD_DJOB_DSTLO R.BRD_DJOB_DSTHI
  let hdr := d.pageHdr pg
  let badField := match hdr with
    | none => false
    | some h => decide (h.planes ≤ p ∨ h.bands ≤ b1 ∨ st % 64 ≠ 0 ∨ st < ceilDiv (nth h.widths p 0 * h.depth) 8) ||
        !(d.inDram dst ((p + 1) * h.lines * st))
  let missing := match hdr with
    | none => true
    | some h => (List.range (b1 + 1 - b0)).any fun k => (List.range (h.strips p)).any fun s =>
        (d.blkBytes pg (h.index p (b0 + k) s)).isNone
  firstFail [(dst % 64 != 0 || badField, sBadValue),
    (d.get F.BRD_DJOB_STAT_STATE == 1 || d.hgBusy (d.get F.BRD_DJOB_PAGE_HG), sBusy), (missing, sBadState)]

/-- Ends the job with a status (R162): line 1 rises, and source 55 on an error. -/
def Dev.djobEnd (d : Dev) (code : Nat) : Dev :=
  let d1 := ((d.put F.BRD_DJOB_STAT_CODE code).put F.BRD_DJOB_STAT_STATE (if code = sOk then 2 else 3)).put F.BRD_IRQ_STAT_DJOB 1
  d1.when (code != sOk) fun d => d.report 55

/-- Writes `v` of `depth` bits as sample `x` of a raw line at `a`, most significant bit first. -/
def Dev.stSample (d : Dev) (a x depth v : Nat) : Dev :=
  let b := a + x * depth / 8
  let sh := 8 - depth - x * depth % 8
  d.stB b (BitVec.ofNat 8 (setBits (d.ldB b).toNat sh depth v))

/-- Sample `x` of a raw line at `a`. -/
def Dev.ldSample (d : Dev) (a x depth : Nat) : Nat :=
  bits (d.ldB (a + x * depth / 8)).toNat (8 - depth - x * depth % 8) depth

/-- Writes the lines of one band into the raw plane; false on a block that breaks the format, with the
lines before the breach written. -/
def Dev.djobBand (d : Dev) (pg p : Nat) (h : StreamHdr) (dst st band : Nat) : Dev × Bool :=
  let strips := (List.range (h.strips p)).map fun s => (s, match d.stripBlock pg h p band s with
    | .ok (b, bs) => decodeBlock b (blkPayload b bs)
    | .error e => ([], some e))
  let bad := strips.any fun s => s.2.2.isSome
  let n := strips.foldl (fun m s => min m s.2.1.length) (h.bandH band)
  let d1 := d.each (List.range n) fun d k =>
    let a := dst + (p * h.lines + band * h.bh + k) * st
    let d0 := d.stBs a (List.replicate (ceilDiv (nth h.widths p 0 * h.depth) 8) 0)
    d0.each strips fun d s =>
      d.each ((nth s.2.1 k ([], 0)).1.zipIdx) fun d v => d.stSample a (s.1 * h.bw + v.2) h.depth v.1
  (d1, !bad)

/-- Bands in order, until one breaks the format. -/
def Dev.djobBands (d : Dev) (pg p : Nat) (h : StreamHdr) (dst st : Nat) : List Nat → Dev × Bool
  | [] => (d, true)
  | b :: bs =>
    match d.djobBand pg p h dst st b with
    | (d1, true) => d1.djobBands pg p h dst st bs
    | (d1, false) => (d1, false)

/-- DJOB_COMPLETE (R162): the running job has decoded its bands, or met a non-conforming block. -/
def execDjobComplete (s : State) : Host.Outcome State Fault Refusal :=
  s.upd fun d =>
    if d.get F.BRD_DJOB_STAT_STATE ≠ 1 then d
    else
      let (pg, p, b0, b1) := d.djobRange
      match d.pageHdr pg with
      | none => d.djobEnd sIntegrity
      | some h =>
        let r := d.djobBands pg p h (d.addr40 R.BRD_DJOB_DSTLO R.BRD_DJOB_DSTHI) (d.get F.BRD_DJOB_STRIDE_STRIDE)
          ((List.range (b1 + 1 - b0)).map (b0 + ·))
        r.1.djobEnd (if r.2 then sOk else sIntegrity)

/-- An item bound to head group `n` stops a job that runs on it (R162). -/
def Dev.djobStop (d : Dev) (hgs : List Nat) : Dev :=
  d.when (d.get F.BRD_DJOB_STAT_STATE == 1 && hgs.contains (d.get F.BRD_DJOB_PAGE_HG)) fun d => d.djobEnd sBusy

/-! ### The compressor (R163 to R167) -/

/-- The job of the job registers. -/
def Dev.brcJob (d : Dev) : BrcJob :=
  { src := d.addr40 R.BRC_SRCLO R.BRC_SRCHI, stride := d.get F.BRC_STRIDE_STRIDE, width := d.get F.BRC_WIDTH_VALUE,
    lines := d.get F.BRC_LINES_VALUE, bw := d.get F.BRC_BLK_BW, bh := d.get F.BRC_BLK_BHM1 + 1,
    depth := d.get F.BRC_BLK_DEPTH, effort := d.get F.BRC_BLK_EFFORT, planes := d.get F.BRC_PLANES_PLANESM1 + 1 }

/-- The stream header that a job writes. -/
def BrcJob.hdr (j : BrcJob) : StreamHdr :=
  let st := ceilDiv j.width j.bw
  let n := j.planes * st * ceilDiv j.lines j.bh
  { planes := j.planes, depth := j.depth, lines := j.lines, bw := j.bw, bh := j.bh, blocks := n,
    widths := (List.range 16).map fun p => if p < j.planes then j.width else 0 }

/-- The values of a job are legal (R163). -/
def Dev.jobOk (d : Dev) (j : BrcJob) : Bool :=
  (j.depth == 1 || j.depth == 2 || j.depth == 4) && 1 ≤ j.width && j.width ≤ 262144 && 1 ≤ j.lines &&
  j.lines ≤ 4194304 && 64 ≤ j.bw && j.bw ≤ 32768 && j.bw % 64 == 0 && j.src % 64 == 0 && j.stride % 64 == 0 &&
  ceilDiv (j.width * j.depth) 8 ≤ j.stride && min j.bw j.width * j.bh * j.depth / 8 ≤ 262144 &&
  j.hdr.blocks ≤ 65536 && d.inDram j.src (j.planes * j.lines * j.stride) &&
  128 + 24 + brineBound (min j.bw j.width) j.bh j.depth ≤ d.get F.BRC_OUTSIZE_BYTES

/-- The checks of a BRC_GO: a job with OUTSIZE 0 gets BAD_STATE. -/
def Dev.brcCheck (d : Dev) : Nat :=
  let none' := d.get F.BRC_OUTSIZE_BYTES = 0
  firstFail [(!none' && !(d.jobOk d.brcJob), sBadValue), (4 ≤ d.ras.jobs.length, sNoRoom),
    (none' || !(d.running || d.st? = stSafe), sBadState)]

/-- Free bytes of the output ring (R166). -/
def Dev.ringFree (d : Dev) : Nat :=
  d.get F.BRC_OUTSIZE_BYTES - (d.get F.BRC_OUTWR_COUNT + 2 ^ 32 - d.get F.BRC_OUTRD_COUNT) % 2 ^ 32

/-- Plane, band and strip of a job's next block. -/
def BrcJob.place (j : BrcJob) : Nat × Nat × Nat :=
  let h := j.hdr
  let per := h.strips 0 * h.bands
  (j.next / max 1 per, j.next % max 1 per / max 1 (h.strips 0), j.next % max 1 (h.strips 0))

/-- The bytes the ring must hold free before the next block. -/
def BrcJob.need (j : BrcJob) : Nat :=
  let h := j.hdr
  let (p, band, strip) := j.place
  24 + brineBound (h.stripW p strip) (h.bandH band) j.depth + if j.next = 0 then 128 else 0

/-- STATE and QUEUED follow the queue: coding when the ring has room for the next block, else waiting
with line 1 (R166). -/
def Dev.brcSync (d : Dev) : Dev :=
  let d1 := d.put F.BRC_STAT_QUEUED d.ras.jobs.length
  match d.ras.jobs with
  | [] => d1.put F.BRC_STAT_STATE 0
  | j :: _ =>
    if j.need ≤ d.ringFree then d1.put F.BRC_STAT_STATE 1
    else (d1.put F.BRC_STAT_STATE 2).put F.BRC_IRQ_STAT_WAIT 1

/-- A job is copied into the queue; the compressor begins it when it is the first. -/
def Dev.brcPush (d : Dev) (j : BrcJob) : Dev :=
  let first := d.ras.jobs = []
  let d1 := d.onRas fun t => { t with jobs := t.jobs ++ [j] }
  if first then d1.brcSync else d1.put F.BRC_STAT_QUEUED d1.ras.jobs.length

/-- BRC_RING_ROOM (R166): a waiting block begins when the ring has room. -/
def execBrcRingRoom (s : State) : Host.Outcome State Fault Refusal :=
  s.upd fun d =>
    match d.ras.jobs with
    | [] => d
    | j :: _ => d.when (d.get F.BRC_STAT_STATE == 2 && j.need ≤ d.ringFree) fun d => d.put F.BRC_STAT_STATE 1

/-- Writes bytes to the output ring, wrapping byte by byte. -/
def Dev.ringWrite (d : Dev) : List Byte → Dev
  | [] => d
  | b :: r =>
    let w := d.get F.BRC_OUTWR_COUNT
    let a := d.addr40 R.BRC_OUTBASELO R.BRC_OUTBASEHI + w % max 1 (d.get F.BRC_OUTSIZE_BYTES)
    ((d.stB a b).put F.BRC_OUTWR_COUNT (w + 1)).ringWrite r

/-- The rows of a job's block, from the raw source (R161). -/
def Dev.jobRows (d : Dev) (j : BrcJob) : List (List Nat) :=
  let h := j.hdr
  let (p, band, strip) := j.place
  (List.range (h.bandH band)).map fun k =>
    let a := j.src + (p * j.lines + band * j.bh + k) * j.stride
    (List.range (h.stripW p strip)).map fun x => d.ldSample a (strip * j.bw + x) j.depth

/-- Ends the first job with a status; the next one starts. -/
def Dev.brcEnd (d : Dev) (code : Nat) : Dev :=
  let n := ((d.ras.jobs.head?).map (·.bytes)).getD 0
  let d1 := d.onRas fun t => { t with jobs := t.jobs.drop 1 }
  (((d1.put F.BRC_STAT_CODE code).wrN R.BRC_JOBBYTES n).put F.BRC_IRQ_STAT_DONE 1).brcSync

/-- A whole block decodes to the given rows under its place's header (R149). -/
def decodesTo (h : StreamHdr) (idx : Nat) (bs : List Byte) (rows : List (List Nat)) : Bool :=
  match blkSelfOk bs with
  | none => false
  | some b => blkMatches h idx b && (let r := decodeBlock b (blkPayload b bs); r.2.isNone && r.1.map (·.1) == rows)

/-- BRC_BLOCK_VERIFY (R167): the block that the compressor has coded, `coded`, is verified against its
source and written, or rewritten STORED; `fail` 1: the STORED block fails too; 2: a DRAM error. -/
def execBrcBlockVerify (coded : List Byte) (fail : Fin 3) (s : State) : Host.Outcome State Fault Refusal :=
  s.upd fun d =>
    match d.ras.jobs with
    | [] => d
    | j :: _ =>
      if d.get F.BRC_STAT_STATE ≠ 1 then d
      else if fail.val = 2 then (d.brcEnd sIntegrity).report 62
      else
        let h := j.hdr
        let (p, band, strip) := j.place
        let rows := d.jobRows j
        let stored := storedBlock p strip band (h.stripW p strip) (h.bandH band) j.depth rows
        let ok := decodesTo h (h.index p band strip) coded rows
        let d1 := d.when (!ok) fun d => ((d.incSat F.BRC_VFYCNT_COUNT).put F.BRC_IRQ_STAT_VERIFY 1).report 60
        if fail.val = 1 ∧ !ok then (d1.brcEnd sIntegrity).report 61
        else
          let blk := if ok ∧ coded.length < stored.length then coded else stored
          let out := (if j.next = 0 then streamBytes h else []) ++ blk
          let d2 := d1.ringWrite out
          let d3 := d2.onRas fun t => { t with jobs := upd t.jobs 0 fun j =>
            { j with next := j.next + 1, bytes := j.bytes + out.length } }
          if j.next + 1 = h.blocks then d3.brcEnd sOk else d3.brcSync

/-! ### The BRD, BRC and RAS registers -/

def brdRngs : List Rng := [⟨F.BRC_OUTSIZE_BYTES, 0, 2 ^ 31⟩]

/-- A table word of RAS keeps R184 or R186 by itself: curve bytes do not decrease within the word, and
a pass entry's fields lie in their ranges. -/
def rasTblOk (w : Wr) : Bool :=
  let b (k : Nat) : Nat := bits w.new (8 * k) 8
  if w.at (R.RAS_BLEND_CURVE 0 0) then b 0 ≤ b 1 && b 1 ≤ b 2 && b 2 ≤ b 3
  else if w.at (R.RAS_FEED_PASSW 0 0 0) then
    let j := w.i 2
    if j = 0 then decide (w.new < 2 ^ 31) && (w.i 1 != 0 || w.new == 0)
    else if j = 1 then
      decide (-1024 ≤ sx 16 w.new ∧ sx 16 w.new ≤ 1023) && b 2 ≤ 4 && (b 3 < b 2 || (b 2 == 0 && b 3 == 0))
    else if j = 2 then b 0 ≤ b 1 && b 2 == 0 && b 3 == 0
    else w.new == 0
  else true

/-- Checks 5 and 6 of a write to BRD, BRC or RAS. -/
def brdCheck (d : Dev) (w : Wr) : Nat :=
  let jobs := d.ras.jobs != []
  let ahead := (w.new + 2 ^ 32 - d.get F.BRC_OUTWR_COUNT) % 2 ^ 32
  let outKeep := d.get F.BRC_OUTWR_COUNT != d.get F.BRC_OUTRD_COUNT
  firstFail [
    (rngBad brdRngs w || !(rasTblOk w), sBadValue),
    (w.at R.BRC_OUTSIZE && w.new % 64 != 0, sBadValue),
    ((w.at R.BRD_DJOB_DSTLO || w.at R.BRC_SRCLO || w.at R.BRC_OUTBASELO) && w.new % 64 != 0, sBadValue),
    (w.at R.BRC_OUTRD && ahead != 0 && ahead < 2 ^ 31, sBadValue),
    (w.at R.BRD_DJOB_GO && bitB w.new 0 && d.djobCheck != sOk, d.djobCheck),
    (w.at R.BRC_GO && bitB w.new 0 && d.brcCheck != sOk, d.brcCheck),
    ((w.at R.BRC_OUTBASELO || w.at R.BRC_OUTBASEHI) && jobs, sBadState),
    (w.at R.BRC_OUTSIZE && (jobs || outKeep), sBadState)]

/-- What a write to BRD, BRC or RAS does beside storing its fields. -/
def brdApply (d : Dev) (w : Wr) : Dev :=
  if w.at R.BRD_DJOB_GO then
    d.when (bitB w.new 0) fun d => (d.put F.BRD_DJOB_STAT_STATE 1).put F.BRD_DJOB_STAT_CODE 0
  else if w.at R.BRC_GO then d.when (bitB w.new 0) fun d => d.brcPush d.brcJob
  else if w.at R.BRC_OUTSIZE then (d.wrN R.BRC_OUTWR 0).wrN R.BRC_OUTRD 0
  else if w.at R.RAS_STATCLR then d.rasStatClr w.new
  else if w.at R.RAS_ERR then
    d.when (bitB w.new 31) fun d => ((d.wrN R.RAS_ERR 0).wrN R.RAS_ERRITEMLO 0).wrN R.RAS_ERRITEMHI 0
  else if w.at (R.BRD_HG_ERR 0) then
    d.when (bitB w.new 31) fun d => (d.wrN (R.BRD_HG_ERR w.i) 0).wrN (R.BRD_HG_ERRPAGE w.i) 0
  else d

end Sys2Proof.Machine
end

