-- ==== Sys2Proof/Machine/Pair.lean ====
section
/-! DEFINITION. What firing takes of the pair: signatures and divergences (R386, R387), and the cut-over
of a head group (R380, R382, R383). -/

namespace Sys2Proof.Machine

/-- The signature of an event (R386): COUNT, F_E in whole sub-lines, and the selects in head nozzle
order, two to a byte. -/
def Dev.sigOf (d : Dev) (h : Nat) (e : PanEv) : Nat :=
  let at1 (i : Nat) : Nat := ((e.sel.find? fun s => s.1 == i).map (·.2)).getD 0
  let sels := (List.range (ceilDiv (d.headN h) 2)).map fun k => (BitVec.ofNat 8 (at1 (2 * k) + 16 * at1 (2 * k + 1)) : Byte)
  crc32 (leBytes 4 e.seq ++ leBytes 6 (e.f / 16) ++ sels)

/-- A divergence (R386, R387): counted with line 1; the first one raises source 39 and starts a diagnosis of
the head's head group; one during a diagnosis is only counted. -/
def Dev.diverge (d : Dev) (h count : Nat) (items : List Nat) : Dev :=
  let d1 := ((d.incSat F.TWN_DIVCNT_COUNT).put F.TWN_IRQ_STAT_DIVERGE 1).onTwn fun t => { t with divs := t.divs ++ [(h, count, items)] }
  if d.twn.diag.isSome then d1
  else ((d1.onTwn fun t => { t with diag := some { head := h, count := count } }).put F.TWN_STAT_DIAG 1).report 39

/-- The items with a line in an event of a head that is still in its pan. -/
def Dev.panItems (d : Dev) (h count : Nat) : List Nat :=
  (((d.head h).pan.filter fun e => e.seq % 2 ^ 32 == count % 2 ^ 32).map fun e => itemsOf e.lines).flatten

/-- Compares this chip's signature of an event with its partner's once both are held (R386). -/
def Dev.sigCompare (d : Dev) (h count : Nat) : Dev :=
  let mine (x : Nat × Nat × Nat) : Bool := x.1 == h && x.2.1 == count
  match d.twn.own.find? mine, d.twn.peer.find? mine with
  | some a, some b =>
    let now := d.c
    let d1 := (d.incWrap F.TWN_SIGCNT_COUNT).onTwn fun t =>
      { t with own := t.own.filter fun x => !(mine x), peer := t.peer.filter fun x => !(mine x) }
    if a.2.2 = b.2.2 then
      d1.onTwn fun t => { t with matched := (t.matched.filter fun x => x.1 != h) ++ [(h, now)] }
    else d1.diverge h count (d1.panItems h count)
  | _, _ => d

/-- The partner is in lockstep: STANDBY, or SYNCING in FOLLOW. -/
def Dev.signs (d : Dev) : Bool :=
  d.replicates || d.role = roleStandby || (d.role = roleSyncing && d.get F.TWN_STAT_SYNCSTEP = 2)

/-- A chip of a pair signs an event that it has formed: SIG goes to the partner and is compared with the
partner's (R386); none is sent for an event with a line of an item live when COPY began (R380). -/
def Dev.signEvent (d : Dev) (h : Nat) (e : PanEv) : Dev :=
  if !d.signs ∨ (itemsOf e.lines).any d.twn.copyLive.contains then d
  else
    let sig := d.sigOf h e
    let c := e.seq % 2 ^ 32
    let d1 := (d.twSend 0x21 [h, c, sig]).onTwn fun t => { t with own := t.own ++ [(h, c, sig)] }
    d1.sigCompare h c

/-- A hand-over point of a head group on an ACTIVE (R266, R380): its partner is told, with the events
formed of each head and H of each encoder in 1/65536 sub-line, so that it can cut over. -/
def Dev.cutInput (d : Dev) (n : Nat) : Dev :=
  d.twInput 12 n ((d.head (8 * n)).formed + 1)
    (((List.range 8).map fun j => (d.head (8 * n + j)).formed) ++ (List.range 4).map fun e => d.pairH e / 2 ^ 16)

end Sys2Proof.Machine
end

