-- ==== Sys2Proof/Machine/Fir.lean ====
section
/-! DEFINITION. The sluice (R301 to R312) and FIR (R256 to R270): events, thinning, the pans, the fire
instants, the hand-over of the shadow sets, SPEED_REQ, with the SLU and FIR registers. -/

namespace Sys2Proof.Machine

/-! ### Head groups and their links -/

/-- The lanes of a head group that carry a head of it (R272). -/
def Dev.hgLanes (d : Dev) (n : Nat) : List Nat :=
  ((List.range 3).filter fun l => (d.hgHeads n).any fun h => d.bit (F.HLK_HEAD_MAP_LANES h) l).map (3 * n + ·)

def lnUp : Nat := 3

/-- A lane is UP. -/
def Dev.laneUp (d : Dev) (l : Nat) : Bool := d.get (F.HLK_LANE_STAT_STATE l) == lnUp

/-- A head group is ready: every lane that carries a head of it is UP (R291). -/
def Dev.hgReady (d : Dev) (n : Nat) : Bool := (d.hgLanes n).all d.laneUp

/-- The lanes of a head, in rising order; the first is its command lane (R272). -/
def Dev.headLanes (d : Dev) (h : Nat) : List Nat :=
  ((List.range 3).filter fun l => d.bit (F.HLK_HEAD_MAP_LANES h) l).map (3 * (h / 8) + ·)

/-- A head group is held by its policy: not ready, under HOLD. -/
def Dev.hgHeld (d : Dev) (n : Nat) : Bool := !(d.hgReady n) && d.get (F.HLK_HG_CFG_POLICY n) == 0

/-- A head group is held for heat (R308). -/
def Dev.hgHot (d : Dev) (n : Nat) : Bool := d.get (F.SLU_HG_STAT_HELD n) == 1

/-- Why an item that needs the head groups `hgs` is refused, in the order of R114: STOPPED, HEAD_LINK,
HEAD_TEMP. -/
def Dev.refuses (d : Dev) (hgs : List Nat) : Option Nat :=
  if d.stop then some 0x07 else if hgs.any d.hgHeld then some 0x02 else if hgs.any d.hgHot then some 0x03 else none

/-- UP, MODE and the flag of NZM follow the lanes of a head group; when it becomes not ready, the items
FIRING on it go on with its nozzles treated as out, and their events are not sent (R215, R270, R291). -/
def Dev.syncHg (d : Dev) (n : Nat) : Dev :=
  let up := (List.range 3).foldl (fun m l => if d.laneUp (3 * n + l) then m + 2 ^ l else m) 0
  let r := d.hgReady n
  let was := d.get (F.NZM_HG_FLAGS_DEGRADE n)
  let d1 := (d.put (F.HLK_HG_STAT_UP n) up).put (F.HLK_HG_STAT_MODE n)
    (if r then 0 else if d.get (F.HLK_HG_CFG_POLICY n) = 0 then 1 else 2)
  let d2 := d1.put (F.NZM_HG_FLAGS_DEGRADE n) (if r then 0 else 1)
  d2.when (!r && was == 0) fun d =>
    let f (i : Item) : Item :=
      if i.state = isFiring ∧ bitB i.hgIn n then { i with deg := i.deg ||| 2 ^ n, degraded := true } else i
    let d3 := d.onItk fun t => { t with items := t.items.map f }
    d3.each (d3.hgHeads n) fun d h => d.onHead h fun x => { x with pan := x.pan.map fun e => { e with silent := true } }

/-! ### Fire positions (R256) -/

/-- TRIM of a head in the active set, in 1/16 sub-line. -/
def Dev.trim (d : Dev) (h : Nat) : Int := sx 16 (d.getAct (F.FIR_HG_HEAD_TRIM_TRIM (h / 8) (h % 8)))

/-- The fire position of a mapped line on a head, in 1/16 sub-line modulo 2^52. -/
def Dev.firePos (d : Dev) (h : Nat) (l : MLine) : Nat := (((l.f : Int) + d.trim h) % 2 ^ 52).toNat

/-- `a` − `b` for fire positions when `a` is not earlier than `b`. -/
def ahead52 (a b : Nat) : Option Nat :=
  let x := (a + 2 ^ 52 - b % 2 ^ 52) % 2 ^ 52
  if x < 2 ^ 51 then some x else none

/-! ### The sluice: weights and thinning -/

/-- W[s] and STEPDN[s] of a head group (R301). -/
def Dev.weight (d : Dev) (n s : Nat) : Nat := bits (d.get (F.SLU_HG_W_BYTES n (s / 4))) (8 * (s % 4)) 8
def Dev.stepDn (d : Dev) (n s : Nat) : Nat :=
  if s < 8 then bits (d.get (F.SLU_HG_STEPDN0_SEL n)) (4 * s) 4 else bits (d.get (F.SLU_HG_STEPDN1_SEL n)) (4 * (s - 8)) 4

/-- D_n after an event with weight `w` (R303). -/
def decay (acc nshift w : Nat) : Nat := acc - acc >>> nshift + w

/-- Steps a select down until the nozzle's duty allows it: the select and the steps taken. -/
def Dev.nozStep (d : Dev) (n acc : Nat) : Nat → Nat → Nat → Nat × Nat
  | 0, s, k => (s, k)
  | f + 1, s, k =>
    let w := d.weight n s
    if 0 < w ∧ d.get (F.SLU_HG_NDUTY_NLIM n) < decay acc (d.get (F.SLU_HG_NDUTY_NSHIFT n)) w then
      d.nozStep n acc f (d.stepDn n s) (k + 1)
    else (s, k)

/-- A nozzle of an event in the sluice: head nozzle, select, rank. -/
abbrev Sel := Nat × Nat × Nat

/-- Energy of an event. -/
def Dev.energy (d : Dev) (n : Nat) (l : List Sel) : Nat := l.foldl (fun x s => x + d.weight n s.2.1) 0

/-- theta of R304: the least t with the reductions below t at least `excess`, else 512. -/
def Dev.theta (d : Dev) (n excess : Nat) (l : List Sel) : Nat :=
  let red (t : Nat) : Nat := (l.filter fun s => s.2.2 < t && 0 < d.weight n s.2.1).foldl
    (fun x s => x + (d.weight n s.2.1 - d.weight n (d.stepDn n s.2.1))) 0
  ((List.range 512).find? fun t => decide (excess ≤ red t)).getD 512

/-- The rounds of head-level thinning (R304): the selects, the rounds and the steps taken. -/
def Dev.thin (d : Dev) (n room : Nat) : Nat → List Sel → Nat → Nat → List Sel × Nat × Nat
  | 0, l, r, k => (l, r, k)
  | f + 1, l, r, k =>
    let e := d.energy n l
    if e ≤ room ∨ !(l.any fun s => 0 < d.weight n s.2.1) then (l, r, k)
    else
      let th := d.theta n (e - room) l
      let hit (s : Sel) : Bool := 0 < d.weight n s.2.1 && s.2.2 < th
      d.thin n room f (l.map fun s => if hit s then (s.1, d.stepDn n s.2.1, s.2.2) else s) (r + 1) (k + (l.filter hit).length)

/-- The limit of a head in force (R304, R306). -/
def Dev.headLimit (d : Dev) (h : Nat) : Nat :=
  let n := h / 8
  let l := d.get (F.SLU_HG_HLIM_LIMIT n)
  if 2 ≤ d.get (F.SLU_HEAD_STAT_LEVEL h) then l * d.get (F.SLU_HG_THERM_HOTSCALE n) / 256 else l

/-- The window sum of a head at fire position `f`. -/
def Dev.windowSum (d : Dev) (h f : Nat) : Nat :=
  let w := 16 * d.get (F.SLU_HG_HWIN_SUBLINES (h / 8))
  ((d.head h).ring.filter fun e => (ahead52 f e.1).any fun x => decide (x < w)).foldl (fun x e => x + e.2) 0

/-- Thins an event of head `h` at `f` (R303 to R305): its final selects; accumulators, ring, LOAD and
the counts follow. -/
def Dev.thinEvent (d : Dev) (h f : Nat) (ids : List Nat) (l : List Sel) : Dev × List Sel :=
  let n := h / 8
  let sh := d.get (F.SLU_HG_NDUTY_NSHIFT n)
  let acc (i : Nat) : Nat := spGet 0 (d.head h).acc i
  let st := l.map fun s => (s, d.nozStep n (acc s.1) 15 s.2.1 0)
  let l1 := st.map fun x => (x.1.1, x.2.1, x.1.2.2)
  let k1 := st.foldl (fun x s => x + s.2.2) 0
  let lim := d.headLimit h
  let win := d.windowSum h f
  let (l2, rounds, k2) := d.thin n (lim - win) (15 * l1.length + 1) l1 0 0
  let e := d.energy n l2
  let used := (l2.map (·.1)) ++ ((d.head h).acc.map (·.1))
  let wOf (i : Nat) : Nat := ((l2.find? fun s => s.1 == i).map fun s => d.weight n s.2.1).getD 0
  let acc' := used.foldl (fun m i => spPut 0 m i (min 65535 (decay (acc i) sh (wOf i)))) (d.head h).acc
  let ring' := ((f, e) :: (d.head h).ring).take 256
  let load := min 255 (256 * (win + e) / max 1 lim)
  let d1 := d.onHead h fun x => { x with acc := acc', ring := ring' }
  let d2 := (d1.put (F.SLU_HEAD_STAT_LOAD h) load).put (F.SLU_HEAD_STAT_MAXLOAD h) (max load (d1.get (F.SLU_HEAD_STAT_MAXLOAD h)))
  let d3 := d2.when (0 < k1 + k2) fun d =>
    let da := (d.incSat (F.SLU_HG_THINEV_COUNT n)).addSat (F.SLU_HG_STEPS_COUNT n) (k1 + k2)
    da.each ids fun d id => d.onceFault id 1 fun d => (d.put F.SLU_IRQ_STAT_THIN 1).report 120
  (d3.when (2 < rounds) fun d => ((d.incSat (F.SLU_HG_ROUNDS_COUNT n)).put F.SLU_IRQ_STAT_ROUNDS 1).report 125, l2)

/-! ### Forming events (R257) -/

/-- Lines join an event in order until one lies beyond MERGE or carries a nozzle that already has a
sample, which is a line of a zone in it: the lines of the event, and the rest of the queue. -/
def Dev.joinLines (d : Dev) (h merge f0 : Nat) : List MLine → List MLine → List MLine × List MLine
  | [], e => (e.reverse, [])
  | l :: r, e =>
    if (ahead52 (d.firePos h l) f0).any (fun x => decide (x ≤ 16 * merge)) && !(e.any fun x => x.zone == l.zone) then
      d.joinLines h merge f0 r (l :: e)
    else (e.reverse, l :: r)

/-- The fire position of the next line that an item still has to assemble on the row of head `h`. -/
def Dev.nextLineF (d : Dev) (h : Nat) (i : Item) : Nat :=
  let r := d.headRow h
  let (_, ps, y) := d.lineAt i (asmDone i.asm r)
  (((16 * d.linePos i.firstPos r y ps : Nat) + d.trim h) % 2 ^ 52).toNat

/-- A bound line of the head with f ≤ F_E + MERGE is still to come (R257). -/
def Dev.stillToCome (d : Dev) (h merge f0 : Nat) : Bool :=
  d.itk.items.any fun i => d.moreLines i (d.headRow h) && 0 < d.zoneCols h i.zone &&
    ((ahead52 (d.nextLineF h i) f0).all fun x => decide (x ≤ 16 * merge))

/-- The event that the front of a head's queue forms under the set in force, if it closes. -/
def Dev.formEvent (d : Dev) (h : Nat) : Option (Nat × List MLine × List MLine) :=
  match (d.head h).queue with
  | [] => none
  | l :: _ =>
    let m := d.getAct (F.FIR_HG_CFG_MERGE (h / 8))
    let f0 := d.firePos h l
    let (e, rest) := d.joinLines h m f0 (d.head h).queue []
    if rest = [] ∧ d.stillToCome h m f0 then none else some (f0, e, rest)

/-- The registers of a head group's shadow set (R266). -/
def firSet (n : Nat) : List Nat :=
  [R.FIR_HG_CFG n, R.FIR_HG_SLIP n] ++ ((List.range 8).map fun j => R.FIR_HG_HEAD_TRIM n j) ++
  ((List.range 8).map fun j => R.FIR_HG_HEAD_THROW n j)

/-- The hand-over of a head group's armed set (R25, R266, R267). -/
def Dev.handOver (d : Dev) (n : Nat) : Dev :=
  d.when (d.get (F.FIR_HG_STAT_ARMED n) == 1) fun d =>
    (((d.each (firSet n) Dev.copyAct).put (F.FIR_HG_STAT_ARMED n) 0).incWrap (F.FIR_HG_ACTIVE_SEQ_SEQ n)).put
      F.FIR_IRQ_STAT_HANDOVER 1

/-- An item of which no event of head group `n` has carried a line yet. -/
def Dev.newOn (d : Dev) (n id : Nat) : Bool := (d.findItem id).any fun i => !(bitB i.hgIn n)

/-- An item is refused when its first event would be formed (R270, R308): its lines are dropped. -/
def Dev.refuseItem (d : Dev) (n id reason : Nat) : Dev :=
  let d1 := d.when (reason == 0x03) fun d => (d.incSat (F.SLU_HG_HARDCNT_COUNT n)).put F.SLU_IRQ_STAT_HARD 1
  let d2 := d1.endItem id isNotPrinted reason
  (d2.onFir fun t => { t with heads := t.heads.map fun h => { h with queue := h.queue.filter fun l => l.item != id } }).closeBlocks id

/-- A line of an item enters a pan of head group `n`: the item becomes FIRING with its FIRE word written
before (R115, R123). -/
def Dev.enterItem (d : Dev) (n id : Nat) : Dev :=
  match d.findItem id with
  | none => d
  | some i =>
    let d1 := d.updItem id fun i => { i with hgIn := i.hgIn ||| 2 ^ n, entered := true }
    d1.when (i.state == isScheduled) fun d =>
      ((d.jwr (slotAddr i.slot + 0x30) (i.firstPos % 2 ^ 48 + 0xF1F1 * 2 ^ 48)).1.updItem id
        fun i => { i with state := isFiring }).syncPrinting

/-- RAS_HGn_LINES counts a line on the first head of the head group that carries it. -/
def Dev.countLine (d : Dev) (n h : Nat) (l : MLine) : Dev :=
  let first := ((d.hgHeads n).find? fun x => d.headRow x == l.row && 0 < d.zoneCols x l.zone).getD h
  d.when (first == h) fun d => d.incWrap (F.RAS_HG_LINES_COUNT n)

/-- A line after an uncorrectable SLU error (R312): the accumulator is rewritten as NLIM, or the latest
ring entry as 0, and the event is handled as a late line. -/
def Dev.sluError (d : Dev) (h : Nat) (ls : List MLine) (acc : Option Nat) : Dev :=
  let n := h / 8
  let lim := d.get (F.SLU_HG_NDUTY_NLIM n)
  let d1 := match acc with
    | some i => d.onHead h fun x => { x with acc := spPut 0 x.acc i lim }
    | none => d.onHead h fun x => { x with ring := upd x.ring 0 fun e => (e.1, 0) }
  (d1.put F.SLU_IRQ_STAT_ECC 1).lateLine n ls 126 7

/-- The event formed of head `h` is thinned and enters the pan. -/
def Dev.letIn (d : Dev) (h f : Nat) (ls rest : List MLine) (err : Option (Option Nat)) : Dev :=
  let n := h / 8
  let d0 := match err with
    | some a => d.sluError h ls a
    | none => d
  let ids := itemsOf ls
  let zero := ls.map fun l => if ((d0.findItem l.item).any (·.abandoned)) then { l with sels := [] } else l
  let (d1, sel) := d0.thinEvent h f ids ((zero.map (·.sels)).flatten)
  let silent := ids.any fun id => (d1.findItem id).any fun i => bitB i.deg n
  let thr := d1.getAct (F.FIR_HG_HEAD_THROW_THROW n (h % 8))
  let e : PanEv := { f := f, zone := (ls.head?.map (·.zone)).getD 0, lines := ls, sel := (sel.map fun s => (s.1, s.2.1)).filter fun s => s.2 != 0,
                     seq := (d1.head h).formed + 1, act := d1.get (F.FIR_HG_ACTIVE_SEQ_SEQ n), throw := thr,
                     noDrop := err.isSome, silent := silent, ent := d1.fir.ents }
  let d2 := d1.onHead h fun x => { x with queue := rest, pan := x.pan ++ [e], formed := x.formed + 1 }
  let d3 := (d2.onFir fun t => { t with ents := t.ents + 1 }).each ids fun d id => d.enterItem n id
  ((d3.each ls fun d l => d.countLine n h l).syncLevel n).signEvent h e

/-- The next event of head `h` is formed, thinned, and let into the pan when it has room; an item refused
at its first event is finalised in its place, by the chip that decides. `err`: an uncorrectable error in
the accumulator of a nozzle, or (`some none`) in a ring entry. -/
def Dev.sluice (d : Dev) (h : Nat) (err : Option (Option Nat)) : Dev :=
  let n := h / 8
  if !d.running ∨ d.getAct (F.FIR_HG_CFG_HIWM n) ≤ (d.head h).pan.length ∨ 64 ≤ (d.head h).pan.length then d
  else match d.formEvent h with
    | none => d
    | some (f0, e0, rest0) =>
      let new := (itemsOf e0).filter (d.newOn n)
      let unfired := new.filter fun id => (d.findItem id).any fun i => i.state == isScheduled
      match unfired, if d.decides then d.refuses [n] else none with
      | id :: _, some reason => d.refuseItem n id reason
      | _, _ =>
        let d1 := d.when (new != []) fun d => (d.cutInput n).handOver n
        match d1.formEvent h with
        | some (f, e, rest) => d1.letIn h f e rest err
        | none => d.letIn h f0 e0 rest0 err

/-! ### Fire instants (R258 to R262) -/

/-- The speed that the throw advance uses: 0 while LOW_CONF or STILL is set. -/
def Dev.fireSpeed (d : Dev) (e t : Nat) : Nat :=
  if d.get (F.POS_ENC_STAT_LOW_CONF e) = 1 ∨ d.get (F.POS_ENC_STAT_STILL e) = 1 then 0 else (d.speedAt e t).toNat

/-- adv of R258, in 1/16 sub-line. -/
def Dev.fireAdv (d : Dev) (h e throw t : Nat) : Nat :=
  min 65535 (d.fireSpeed e t * (throw + d.get (F.HLK_HEAD_DELAY_LINKDELAY h)) / 1000000000)

/-- H + adv has reached a fire position: H with its 16 fractional bits, modulo 2^64. -/
def Dev.reached (d : Dev) (e adv f : Nat) : Bool :=
  let x := (d.pairH e / 2 ^ 16 + adv * 2 ^ 12 + 2 ^ 64 - f * 2 ^ 12 % 2 ^ 64) % 2 ^ 64
  decide (x < 2 ^ 63)

/-- The encoder of a zone. -/
def Dev.zoneEnc (d : Dev) (z : Nat) : Nat := d.get (F.POS_ZONE_CFG_ENC z)

/-- The heads on which an item's last line under R177 falls. -/
def Dev.lastHeads (d : Dev) (z : Nat) : List Nat :=
  (((d.zoneRows z).filter fun r => d.rowDelay r == d.maxDelay z).map (d.zoneRowHeads z)).flatten

/-- The camera column of a bar column, in 1/65,536 pixel (R343). -/
def Dev.camX (d : Dev) (c : Nat) : Int := sx 32 (d.get F.INS_X0_X0) * 4096 + c * d.get F.INS_GEOM_XSCALE

/-- The first and last camera pixel of a zone's window (R351). -/
def Dev.zonePixels (d : Dev) (z : Nat) : Int × Int :=
  (d.camX (d.zoneX0 z) / 65536, d.camX (d.zoneX0 z + d.zoneXW z - 1) / 65536)

/-- The camera columns that the comparator sees: the first, and how many. -/
def Dev.camCols (d : Dev) : Nat × Nat :=
  (d.get (F.VIS_OUT_CROP_CX0 (d.get F.INS_CFG_OUT)), d.get (F.VIS_OUT_CROP_CW (d.get F.INS_CFG_OUT)))

/-- A zone's footprint lies within the camera columns. -/
def Dev.camFits (d : Dev) (z : Nat) : Bool :=
  let p := d.zonePixels z
  decide ((d.camCols.1 : Int) ≤ p.1 ∧ p.2 < ((d.camCols.1 + d.camCols.2 : Nat) : Int))

/-- Inspection does not count as disabled for the items of a zone when they are FIRED (R352): the zone is
inspected, its footprint lies in the camera columns, and the generator of the comparator's source is
RUNNING. -/
def Dev.inspects (d : Dev) (z : Nat) : Bool :=
  let g := d.get (F.CAM_SRC_CFG_TRG (d.get (F.VIS_OUT_CFG_SRC (d.get F.INS_CFG_OUT))))
  d.get F.INS_CFG_ENABLE == 1 && d.bit F.INS_CFG_ZONES z && d.camFits z && g != 0 && d.get (F.CAM_TRG_STAT_RUNNING (g - 1)) == 1

/-- An item has enough defect regions, or a graded field below MINGRADE (R352). -/
def Dev.itemBad (d : Dev) (i : Item) : Bool := decide (d.get F.INS_DEF_DEFMIN ≤ i.defects) || i.gradeBad

/-- The verdict on a FIRED item (R352): defects first, then a degraded print, then whether it was
inspected. -/
def Dev.verdictItem (d : Dev) (id : Nat) (inspected bad : Bool) : Dev :=
  match d.findItem id with
  | none => d
  | some i =>
    if i.state ≠ isFired then d
    else if bad then
      let d1 := (d.put F.INS_IRQ_STAT_DEFECT 1).incSat F.INS_DEFCNT_COUNT
      let d2 := d1.when (decide (d.get F.INS_DEF_DEFMIN ≤ i.defects)) fun d => d.report 140
      (d2.when i.gradeBad fun d => d.report 141).finalise id isDefect 0x10 true
    else if i.degraded then d.finalise id isDegraded 0x11 true
    else d.finalise id 8 (if inspected then 0x00 else 0x12) true

/-- An item's last line has fired: FIRED, with its FRD mark (R115, R269); an item that is not inspected
has its verdict at once. -/
def Dev.fireItem (d : Dev) (id : Nat) : Dev :=
  match d.findItem id with
  | none => d
  | some i =>
    if i.state ≠ isFiring then d
    else
      let d1 := ((d.putMark i.zone markFrd i.zseq).updItem id fun i => { i with state := isFired }).syncPrinting
      if !(d1.inspects i.zone) || i.insVoid then d1.verdictItem id false (d1.itemBad i) else if i.inspected then d1.verdictItem id true (d1.itemBad i) else d1

/-- The lines of an event that has fired: an item whose last line has fired on every head becomes
FIRED. -/
def Dev.lastFired (d : Dev) (h : Nat) (ls : List MLine) : Dev :=
  d.each (ls.filter fun l => l.last && l.item != 0) fun d l =>
    let d1 := d.updItem l.item fun i => { i with lastFired := (i.lastFired.filter (· != h)) ++ [h] }
    match d1.findItem l.item with
    | none => d1
    | some i => d1.when ((d1.lastHeads i.zone).all i.lastFired.contains) fun d => d.fireItem i.id

/-- The record of a fired event goes to VIS; one that finds the queue full is dropped (R269). -/
def Dev.passRecord (d : Dev) (h : Nat) (e : PanEv) (tc : Nat) : Dev :=
  if d.fir.recs.length < 4096 then
    d.onFir fun t => { t with recs := t.recs ++
      [{ head := h, seq := e.seq, time := tc / 1000, f := e.f, act := e.act, lines := e.lines, sel := if e.noDrop then [] else e.sel }] }
  else
    let r : FiredRec := { head := h, seq := e.seq, time := tc / 1000, f := e.f, act := e.act, lines := e.lines, sel := [] }
    let d1 := d.onFir fun t => { t with lostRecs := t.lostRecs ++ [r] }
    ((d1.incSat F.FIR_RECDROP_COUNT).put F.FIR_IRQ_STAT_RECDROP 1).report 99

/-- An event held back: SQUEEZE, source 97, and its lag in sub-lines against MAXLAG and MAXSLIP (R259,
R261). -/
def Dev.squeeze (d : Dev) (h : Nat) (e : PanEv) (lag : Nat) : Dev :=
  let n := h / 8
  let d1 := ((d.incSat (F.FIR_HG_SQUEEZE_VALUE n)).put F.FIR_IRQ_STAT_SQUEEZE 1).report 97
  let d2 := d1.put (F.FIR_HG_MAXLAG_VALUE n) (max lag (d1.get (F.FIR_HG_MAXLAG_VALUE n)))
  d2.when (d2.getAct (F.FIR_HG_SLIP_MAXSLIP n) < lag) fun d =>
    d.each (itemsOf e.lines) fun d id => d.onceFault id 2 fun d => (d.put F.FIR_IRQ_STAT_SLIP 1).report 98

/-- The command of the first event of a head that waits leaves: at `t`, or MINGAP after the head's
previous command (R259). -/
def Dev.fireEvent (d : Dev) (h t : Nat) (k : Nat) (e : PanEv) : Dev :=
  let n := h / 8
  let gap := d.getAct (F.FIR_HG_CFG_MINGAP n) * 10000
  let tc := match (d.head h).lastCmd with
    | some l => max t (l + gap)
    | none => t
  let old := d.lead n
  let lag := d.fireSpeed (d.zoneEnc e.zone) t * (tc - t) / 16000000000000
  let d1 := d.when (t < tc) fun d => d.squeeze h e lag
  let d2 := d1.onHead h fun x =>
    { x with lastCmd := some tc, lastItems := itemsOf e.lines,
             pan := if e.silent then x.pan.eraseIdx k else upd x.pan k fun e => { e with left := some tc } }
  let d3 := (d2.incWrap (F.FIR_HG_EVENTS_VALUE n)).put (F.FIR_HG_FIRESEQ_SEQ n) e.act
  ((((d3.passRecord h e tc).lastFired h e.lines).syncLevel n).leadCheck n old)

/-- The line of a head that is due next and has not entered the pan: the first of its queue, or the
first that a bound item has still to assemble; lines that carry 0 are never late (R188). -/
def Dev.dueLine (d : Dev) (h : Nat) : Option (Nat × MLine) :=
  match (d.head h).queue with
  | l :: _ => if (d.findItem l.item).any (fun i => !i.abandoned) then some (d.firePos h l, l) else none
  | [] =>
    let r := d.headRow h
    let is := d.itk.items.filter fun i => !i.abandoned && d.moreLines i r && 0 < d.zoneCols h i.zone
    match is with
    | [] => none
    | i :: rest =>
      let j := rest.foldl (fun b x => if later52 (d.nextLineF h b) (d.nextLineF h x) then x else b) i
      let (p, _, y) := d.lineAt j (asmDone j.asm r)
      some (d.nextLineF h j, { item := j.id, zone := j.zone, row := r, y := y, pass := p, f := 0, sels := [], last := false })

/-- The lines of every event of head group `n` that carries a part of a line, and that line itself. -/
def Dev.lateWith (d : Dev) (n : Nat) (l : MLine) : List MLine :=
  let same (x : MLine) : Bool := x.item == l.item && x.row == l.row && x.y == l.y && x.pass == l.pass
  l :: (((d.hgHeads n).map fun h => (((d.head h).pan.filter fun e => e.lines.any same).map (·.lines)).flatten).flatten)

/-- FIRE_INSTANT: at `t` ps the position of head `h`'s next event is reached: its command leaves; or the
line due is not in the pan whole, and is late (R188). -/
def execFireInstant (h : Fin 64) (t : Nat) (s : State) : Host.Outcome State Fault Refusal :=
  s.upd fun d0 =>
    let d := d0.posAt t
    let n := h.val / 8
    if !d.running then d
    else match (d.head h).pan.zipIdx.find? fun x => x.1.left.isNone with
      | some (e, k) =>
        let en := d.zoneEnc e.zone
        if d.reached en (d.fireAdv h en e.throw t) e.f then d.fireEvent h t k e else d
      | none =>
        match d.dueLine h with
        | none => d
        | some (f, l) =>
          let en := d.zoneEnc l.zone
          let thr := d.getAct (F.FIR_HG_HEAD_THROW_THROW n (h.val % 8))
          d.when (d.reached en (d.fireAdv h en thr t) f) fun d =>
            let ls := d.lateWith n l
            let f (e : PanEv) : PanEv := if e.lines.any (ls.contains ·) then { e with noDrop := true } else e
            let d1 := d.each (d.hgHeads n) fun d x => d.onHead x fun y => { y with pan := y.pan.map f }
            d1.lateLine n ls 64 1

/-! ### Head temperature (R306 to R308) -/

/-- The thresholds of a head group, TWARN, TTHIN, TSLOW, THARD. -/
def Dev.thresholds (d : Dev) (n : Nat) : List Int :=
  [sx 16 (d.get (F.SLU_HG_TEMPA_LO n)), sx 16 (d.get (F.SLU_HG_TEMPA_HI n)), sx 16 (d.get (F.SLU_HG_TEMPB_LO n)),
   sx 16 (d.get (F.SLU_HG_TEMPB_HI n))]

/-- The level of a temperature from the level before: up to the highest threshold reached, down below
one only under it by THYST. -/
def levelOf (ths : List Int) (hyst : Int) (old : Nat) (t : Int) : Nat :=
  (ths.zipIdx.foldl (fun m x => if x.1 ≤ t ∨ (x.2 < old ∧ x.1 - hyst ≤ t) then max m (x.2 + 1) else m) 0)

/-- LEVEL and HELD of a head group follow its heads. -/
def Dev.syncHeat (d : Dev) (n : Nat) : Dev :=
  let lv := (d.hgHeads n).map fun h => d.get (F.SLU_HEAD_STAT_LEVEL h)
  let stale := (d.hgHeads n).any fun h => d.get (F.SLU_HEAD_STAT_STALE h) == 1
  let d1 := d.put (F.SLU_HG_STAT_LEVEL n) (lv.foldl max 0)
  if lv.any (· == 4) then
    if d1.hgHot n then d1 else ((d1.put (F.SLU_HG_STAT_HELD n) 1).put F.SLU_IRQ_STAT_HARD 1).report 122
  else if stale then d1 else d1.put (F.SLU_HG_STAT_HELD n) 0

/-- A head takes a level: a rise raises line 1, and source 121 when it passes WARN. -/
def Dev.setLevel (d : Dev) (h lv : Nat) : Dev :=
  let old := d.get (F.SLU_HEAD_STAT_LEVEL h)
  let d1 := d.put (F.SLU_HEAD_STAT_LEVEL h) lv
  let d2 := d1.when (old < lv) fun d => d.put F.SLU_IRQ_STAT_LEVEL 1
  (d2.when (old == 0 && 0 < lv) fun d => d.report 121).syncHeat (h / 8)

/-- The level of a head follows its temperature and its STALE flag (R306, R307). -/
def Dev.updLevel (d : Dev) (h : Nat) : Dev :=
  let n := h / 8
  let l := levelOf (d.thresholds n) (d.get (F.SLU_HG_THERM_THYST n)) (d.get (F.SLU_HEAD_STAT_LEVEL h))
    (sx 16 (d.get (F.HLK_HEAD_TEMP_TEMP h)))
  d.setLevel h (if d.get (F.SLU_HEAD_STAT_STALE h) = 1 then max 2 l else l)

/-- A head is STALE without a report: its level is held at least at 2, with no source raised (R307). -/
def Dev.markStale (d : Dev) (h : Nat) : Dev :=
  let d1 := d.put (F.SLU_HEAD_STAT_STALE h) 1
  let l := max 2 (d1.get (F.SLU_HEAD_STAT_LEVEL h))
  (d1.put (F.SLU_HEAD_STAT_LEVEL h) l).syncHeat (h / 8)

/-- HEAD_TEMP_STALE (R307): the age has reached STALE, or the command lane has been UP so long without a
report. -/
def execHeadTempStale (h : Fin 64) (s : State) : Host.Outcome State Fault Refusal :=
  s.upd fun d =>
    let x := d.head h
    let ms := d.get (F.SLU_HG_THERM_STALE (h.val / 8)) * 1000000
    let lane := ((d.headLanes h).head?).getD 0
    if !(d.headOk h) ∨ !d.decides then d
    else
      let t0 := if x.tempSeen then some x.tempT else if d.laneUp lane then some (nth d.fir.lanes lane {}).upC else none
      match t0 with
      | none => d
      | some t0 =>
        let d1 := d.atTime (t0 + ms)
        ((d1.markStale h).put F.SLU_IRQ_STAT_STALE 1).report 124

/-! ### SPEED_REQ (R310) -/

/-- f_zone and f_head, each with its cause and source. -/
def Dev.speedFactors (d : Dev) : List (Nat × Nat × Nat) :=
  let zs := (List.range 16).filterMap fun z =>
    let th := d.get (F.SLU_ZONE_CFG_THRESH z)
    if d.get (F.SLU_ZONE_CFG_SPDEN z) = 1 ∧ d.get (F.SLU_ZONE_MARGIN_FULL z) = 0 ∧ 0 < th then
      some (min 4096 (4096 * d.get (F.SLU_ZONE_MARGIN_LINES z) / th), 1, z)
    else none
  let hs := (List.range 64).filterMap fun h =>
    if d.headOk h && 3 ≤ d.get (F.SLU_HEAD_STAT_LEVEL h) then
      let th := d.thresholds (h / 8)
      let hard := nth th 3 0
      let slow := nth th 2 0
      let t := sx 16 (d.get (F.HLK_HEAD_TEMP_TEMP h))
      some ((clampI 0 4096 (4096 * (hard - t) / (hard - slow))).toNat, 2, h)
    else none
  zs ++ hs

/-- SPEED_REQ_UPDATE: every 100 µs in READY and PRINTING; the duty falls at once and rises by at most
SLEW per ms. -/
def execSpeedReqUpdate (s : State) : Host.Outcome State Fault Refusal :=
  s.upd fun d =>
    if !d.running then d
    else if d.get F.SLU_SPD_CFG_ENABLE = 0 then d.speed (d.get F.SLU_SPD_DUTY_FULL) 0 0
    else
      let b := d.speedFactors.foldl (fun b x => if x.1 < b.1 then x else b) (4096, 0, 0)
      let fl := d.get F.SLU_SPD_FLOOR_FLOOR
      let target := fl + (d.get F.SLU_SPD_DUTY_FULL - fl) * b.1 / 4096
      let cur := d.get F.SLU_SPD_STAT_DUTY
      let now := d.c
      let rise := d.get F.SLU_SPD_CFG_SLEW * (now - d.fir.slewT) / 1000000
      let duty := if target ≤ cur then target else min target (cur + rise)
      let d1 := d.speed duty b.2.2 b.2.1
      let d2 := d1.when (duty == target || cur < duty) fun d => d.onFir fun t => { t with slewT := now }
      d2.onFir fun t => { t with floorSince := if duty = fl then some (t.floorSince.getD now) else none }

/-- SPEED_FLOOR_TIMEOUT: the duty has stayed at FLOOR for more than 1 s. -/
def execSpeedFloorTimeout (s : State) : Host.Outcome State Fault Refusal :=
  s.upd fun d =>
    match d.fir.floorSince with
    | none => d
    | some t0 => (d.atTime (t0 + 1000000001)).report 127

/-- MARGIN_RECOMPUTE (R309): the recomputation at every 1,024 lines. -/
def execMarginRecompute (zone : Fin 16) (s : State) : Host.Outcome State Fault Refusal :=
  s.upd fun d => d.syncMargin zone

/-! ### The SLU and FIR registers -/

def firRngs : List Rng :=
  [⟨F.SLU_SPD_CFG_FREQ, 1, 100⟩, ⟨F.SLU_SPD_CFG_SLEW, 1, 4095⟩, ⟨F.SLU_SPD_FLOOR_FLOOR, 1, 4095⟩,
   ⟨F.SLU_HG_NDUTY_NSHIFT 0, 0, 8⟩, ⟨F.SLU_HG_HWIN_SUBLINES 0, 64, 16384⟩, ⟨F.SLU_HG_THERM_HOTSCALE 0, 1, 255⟩,
   ⟨F.SLU_HG_THERM_STALE 0, 1, 65535⟩, ⟨F.FIR_HG_CFG_MINGAP 0, 100, 65535⟩, ⟨F.FIR_HG_CFG_HIWM 0, 8, 64⟩,
   ⟨F.FIR_HG_SLIP_MAXSLIP 0, 64, 65535⟩]

/-- Two heads of a head group share columns and their shadow trims differ by more than 64 sub-lines
(R268). -/
def Dev.trimsApart (d : Dev) (n : Nat) : Bool :=
  let t (h : Nat) : Int := sx 16 (d.get (F.FIR_HG_HEAD_TRIM_TRIM n (h % 8)))
  (d.hgHeads n).any fun a => (d.hgHeads n).any fun b =>
    d.headRow a == d.headRow b && a != b && rangesMeet (d.headCol a) (d.headN a) (d.headCol b) (d.headN b) &&
    1024 < (t a - t b).natAbs

/-- Checks 5 and 6 of a write to SLU or FIR. -/
def firCheck (d : Dev) (w : Wr) : Nat :=
  let offHead := (w.at (R.FIR_HG_HEAD_TRIM 0 0) || w.at (R.FIR_HG_HEAD_THROW 0 0)) &&
    bits w.new 0 16 != 0 && !(d.headOk (8 * w.i 0 + w.i 1))
  firstFail [
    (rngBad firRngs w || offHead, sBadValue),
    (w.at (R.SLU_HG_W 0 0) && w.i 1 == 0 && bits w.new 0 8 != 0, sBadValue),
    (w.at (R.SLU_HG_STEPDN0 0) && bits w.new 0 4 != 0, sBadValue),
    (w.at (R.FIR_HG_COMMIT 0) && bitB w.new 0 && d.trimsApart w.i, sBadValue),
    (w.at (R.FIR_HG_COMMIT 0) && bitB w.new 0 && !(d.running || d.st? = stSafe), sBadState)]

/-- What a write to SLU or FIR does beside storing its fields. -/
def firApply (d : Dev) (w : Wr) : Dev :=
  if w.at (R.FIR_HG_COMMIT 0) then d.when (bitB w.new 0) fun d => d.put (F.FIR_HG_STAT_ARMED w.i) 1
  else if w.at R.FIR_STATCLR then
    (d.when (bitB w.new 8) fun d => d.wrN R.FIR_RECDROP 0).each (List.range 8) fun d n =>
      d.when (bitB w.new n) fun d => (d.wrN (R.FIR_HG_SQUEEZE n) 0).wrN (R.FIR_HG_MAXLAG n) 0
  else if w.at R.SLU_STATCLR then
    let d1 := d.each (List.range 8) fun d n => d.when (bitB w.new n) fun d =>
      (((d.wrN (R.SLU_HG_THINEV n) 0).wrN (R.SLU_HG_STEPS n) 0).wrN (R.SLU_HG_ROUNDS n) 0).wrN (R.SLU_HG_HARDCNT n) 0
    let d2 := d1.when (bitB w.new 8) fun d => d.each (List.range 64) fun d h => d.put (F.SLU_HEAD_STAT_MAXLOAD h) 0
    d2.when (bitB w.new 9) fun d => d.each (List.range 16) fun d z => d.wrN (R.SLU_ZONE_LATECNT z) 0
  else d

end Sys2Proof.Machine
end

