-- ==== Sys2Proof/Machine/Bind.lean ====
section
/-! DEFINITION. Staging (R115, R155), binding to a position (R113, R114, R187), and the PRINT_GO
inputs (R246, R247). -/

namespace Sys2Proof.Machine

/-! ### Staging -/

/-- Every block of an item's page is complete. -/
def Dev.pageComplete (d : Dev) (i : Item) (h : StreamHdr) : Bool :=
  match d.page? i.page with
  | none => false
  | some p => decide ((p.blks.filter fun b => b.complete && b.idx < h.blocks).length = h.blocks)

/-- An item whose SUBMIT BLOCKS differs from its page's finalises NOT_PRINTED with reason BRINE as soon
as both are known (R135); an item that recovery returned has no BLOCKS until its SUBMIT comes again. -/
def Dev.blocksCheck (d : Dev) (id : Nat) : Dev :=
  match d.findItem id with
  | none => d
  | some i =>
    match d.pageHdr i.page with
    | none => d
    | some h => d.when (i.blocks != 0 && i.blocks != h.blocks && i.state == isAccepted) fun d =>
        d.finalise id isNotPrinted 0x0B false

/-- The STG mark: the latest ZSEQ such that it and every earlier live item of the zone are STAGED or
beyond. -/
def Dev.stgMark (d : Dev) (z : Nat) : Dev :=
  let l := d.zoneLive z
  let run := l.takeWhile fun i => i.state != isAccepted
  match run.getLast? with
  | none => d
  | some i => d.when (d.mark z markStg < i.zseq) fun d => d.putMark z markStg i.zseq

/-- ITEM_STAGED: an ACCEPTED item whose page is complete and whose fields are rendered has its fit
checked (R155), and becomes STAGED. -/
def execItemStaged (id : Nat) (s : State) : Host.Outcome State Fault Refusal :=
  s.upd fun d =>
    match d.findItem id with
    | none => d
    | some i =>
      match d.pageHdr i.page with
      | none => d
      | some h =>
        if i.state ≠ isAccepted ∨ !i.rendered ∨ i.blocks ≠ h.blocks ∨ !(d.pageComplete i h) then d
        else
          let bad := d.noFit h i.zone
          if bad = [] then (d.updItem id fun i => { i with state := isStaged }).stgMark i.zone
          else
            let d1 := d.each bad fun d n => d.incSat (F.BRD_HG_STAT_NOFIT n)
            (d1.put F.BRD_IRQ_STAT_NOFIT 1).finalise id isNotPrinted 0x0B false

/-! ### Binding -/

/-- Every earlier live item of the zone is SCHEDULED or beyond (R113). -/
def Dev.bindTurn (d : Dev) (i : Item) : Bool :=
  d.itk.items.all fun j => !(j.zone == i.zone && j.zseq < i.zseq && j.live && j.state < isScheduled)

/-- The passes of a multi-pass zone overlap for an item of so many lines (R187). -/
def Dev.passesOverlap (d : Dev) (i : Item) : Bool :=
  let ps := d.passes i.zone
  let span := 64 * (i.lines - 1) + d.maxDelay i.zone - d.minDelay i.zone + 64
  (ps.zip ps.tail).any fun x => decide (x.2.offset - x.1.offset ≤ span)

/-- The item is given a position: it counts as the zone's predecessor from now on (R113). -/
def Dev.givePos (d : Dev) (i : Item) (fp : Nat) : Dev :=
  let d1 := d.updItem i.id fun i => { i with firstPos := fp, bound := true }
  let lp := d1.lastLine { i with firstPos := fp }
  (d1.twInput 3 i.zone 0 [i.id, fp]).onItk fun t => { t with bound := upd t.bound i.zone fun l => (i.id, lp) :: l }

/-- The outcome of a binding of an item at FIRSTPOS `fp` (R114): `passed'` marks an AT position that
has passed without LATE_OK. -/
def Dev.bindAt (d : Dev) (i : Item) (fp : Nat) (passed' : Bool) : Dev :=
  let pred := d.predEnd i.zone
  let d1 := d.givePos i fp
  let first := d1.firstLine { i with firstPos := fp }
  let hgs := d1.zoneHgs i.zone
  if i.state ≠ isStaged then
    (d1.endItem i.id isNotPrinted 0x01).incSat (F.SLU_ZONE_LATECNT_LATEDATA i.zone)
  else if d1.st? = stSafe then d1.endItem i.id isNotPrinted 0x07
  else match d1.refuses hgs with
    | some 0x03 =>
      let hot := hgs.filter d1.hgHot
      let d2 := d1.each hot fun d n => d.incSat (F.SLU_HG_HARDCNT_COUNT n)
      (d2.put F.SLU_IRQ_STAT_HARD 1).endItem i.id isNotPrinted 0x03
    | some r => d1.finalise i.id isNotPrinted r true
    | none =>
      if passed' then d1.finalise i.id isNotPrinted 0x05 true
      else if (pred.any fun p => !(later48 first p)) ∨ d1.passesOverlap i then d1.endItem i.id isNotPrinted 0x06
      else
        let d2 := (d1.updItem i.id fun i => { i with state := isScheduled }).putMark i.zone markSch i.zseq
        d2.djobStop hgs

/-- Position `p` less the zone's least DELAY: the FIRSTPOS whose first line lies at `p`. -/
def Dev.firstPosFor (d : Dev) (z p : Nat) : Nat := (p + 2 ^ 48 - d.minDelay z % 2 ^ 48) % 2 ^ 48

/-- ITEM_BIND: a STAGED FOLLOW or AT item whose turn it is, is bound (R113). -/
def execItemBind (id : Nat) (s : State) : Host.Outcome State Fault Refusal :=
  s.upd fun d =>
    match d.findItem id with
    | none => d
    | some i =>
      let now := d.zonePos i.zone
      if i.state ≠ isStaged ∨ i.trig = 0 ∨ !(d.bindTurn i) ∨ !d.running ∨ !d.decides then d
      else if i.trig = 1 then
        let base := match d.predEnd i.zone with
          | some p => if later48 p now then p else now
          | none => now
        d.bindAt i (d.firstPosFor i.zone ((base + i.offset) % 2 ^ 48)) false
      else if passed now i.offset then
        if i.lateOk then d.bindAt i now false else d.bindAt i i.offset true
      else d.bindAt i i.offset false

/-! ### PRINT_GO (R246, R247) -/

/-- The oldest unbound live item of a zone. -/
def Dev.oldestUnbound (d : Dev) (z : Nat) : Option Item := (d.zoneLive z).find? fun i => i.state < isScheduled

/-- The position of an edge in a zone: interpolated at its timestamp, plus DIST. -/
def Dev.edgePos (d : Dev) (z input t : Nat) : Nat :=
  let e := d.zoneEnc z
  (((max (d.enc e).h (d.interp e t).toNat) + (d.pairH e + 2 ^ 80 - (d.enc e).h)) / 2 ^ 32 + d.get (F.POS_PG_DIST_SUBLINES input)) % 2 ^ 48

/-- An edge that binds no item: idle in each zone whose latest PRINT_GO item named the input (R114). -/
def Dev.idleEdge (d : Dev) (input t : Nat) : Dev :=
  d.each ((List.range 16).filter fun z => nth d.itk.lastPg z none == some input) fun d z =>
    let d1 := d.incSat (F.ITK_ZONE_STAT_IDLETRIG z)
    d1.when (d1.get (F.ITK_ZONE_CFG_REJIDLE z) == 1) fun d =>
      d.rejRequest z ((d.edgePos z input t + d.get (F.POS_ZONE_REJDIST_DIST z)) % 2 ^ 48)

/-- A taken edge binds the oldest unbound item of each zone whose item names the input; a chip that follows
its partner only counts its edges (R381). -/
def Dev.takeEdge (d : Dev) (input t : Nat) : Dev :=
  let zs := (List.range 16).filter fun z => (d.oldestUnbound z).any fun i => i.trig == 0 && i.trigArg == input
  if !d.decides then d else if zs = [] then d.idleEdge input t
  else d.each zs fun d z =>
    match d.oldestUnbound z with
    | none => d
    | some i =>
      let d1 := d.onItk fun q => { q with lastPg := upd q.lastPg z fun _ => some input }
      d1.bindAt i ((d1.edgePos z input t + i.offset) % 2 ^ 48) false

/-- PRINT_GO_EDGE: a filtered edge at `t` ps, rising or falling; `full` says that it finds the queue of
16 full, which is a matter of the binding's pace (entry 1). -/
def execPrintGoEdge (input : Fin 4) (rising full : Bool) (t : Nat) (s : State) : Host.Outcome State Fault Refusal :=
  s.upd fun d0 =>
    let d := d0.posAt t
    let kind := d.get (F.POS_PG_CFG_EDGE input)
    if d.get (F.POS_PG_CFG_ENABLE input) = 0 ∨ !(bitB kind (if rising then 0 else 1)) then d
    else
      let d1 := d.incWrap (F.POS_PG_STAT_EDGES input)
      if !(d1.running || d1.st? = stSafe) then d1
      else
        let w := (d1.enc (d1.get (F.POS_PG_CFG_LENC input))).h / 2 ^ 32
        let locked := (nth d1.pos.pgLast input none).any fun p => decide (w - p < d1.get (F.POS_PG_LOCKOUT_SUBLINES input))
        if locked then d1.incSat (F.POS_PG_STAT_LOCKED input)
        else
          let d2 := d1.onPos fun q => { q with pgLast := upd q.pgLast input fun _ => some w }
          if full then ((d2.incSat (F.POS_PG_STAT_OVF input)).put F.POS_IRQ_STAT_PGOVF 1).report 90
          else d2.takeEdge input t

end Sys2Proof.Machine
end

