-- ==== Sys2Proof/Machine/Dma.lean ====
section
/-! DEFINITION. The DMA engine (R452 to R459) and the DMA registers. -/

namespace Sys2Proof.Machine

/-- Address of entry `n` of a channel's ring. -/
def Dev.dmaEntry (d : Dev) (c n : Nat) : Nat :=
  let base := (d.rd (R.DMA_CH_BASELO c)).toNat + 2 ^ 32 * ((d.rd (R.DMA_CH_BASEHI c)).toNat % 256)
  base + 32 * (n % max 1 (d.get (F.DMA_CH_SIZE_ENTRIES c)))

/-- Memory that the engine reaches (R452). -/
def Dev.dmaMem (d : Dev) (a n : Nat) : Bool := inSram a n || d.inDram a n

/-- The entry that a channel's next fetch takes: after the one that runs, if that is its own. -/
def Dev.dmaNext (d : Dev) (c : Nat) : Nat :=
  d.get (F.DMA_CH_STAT_NEXT c) + (if d.dma.run.any fun r => r.ch == c then 1 else 0)

/-- A channel's next entry has OWN set. -/
def Dev.dmaOwns (d : Dev) (c : Nat) : Bool := bitB (d.ldB (d.dmaEntry c (d.dmaNext c) + 0x14)).toNat 0

/-- The eligible channels, in round-robin order after the one served last (R454). -/
def Dev.dmaOrder (d : Dev) : List Nat :=
  ((List.range 16).map fun k => (d.get F.DMA_STAT_CUR + 1 + k) % 16).filter fun c =>
    d.get (F.DMA_CH_STAT_STATE c) == 1 && d.get (F.DMA_CH_CFG_ENABLE c) == 1

/-- A descriptor is written back: COUNT, then FLAGS without OWN, RESULT and CODE in one write (R453); the
ring goes on. -/
def Dev.dmaBack (d : Dev) (x : DmaDesc) (result code count : Nat) : Dev :=
  let f := x.flags / 2 * 2
  let d1 := (d.st (x.at' + 0x18) 4 count).st (x.at' + 0x14) 4 (f + result * 2 ^ 8 + code * 2 ^ 16)
  let nx := (d.get (F.DMA_CH_STAT_NEXT x.ch) + 1) % max 1 (d.get (F.DMA_CH_SIZE_ENTRIES x.ch))
  let d2 := d1.put (F.DMA_CH_STAT_NEXT x.ch) nx
  let d3 := d2.when (bitB x.flags 2) fun d => (d.setBit F.DMA_DONE_CH x.ch).put F.DMA_IRQ_STAT_DONE 1
  d3.when (result == 2) fun d => (d.put F.DMA_STAT_ERRCH x.ch).put F.DMA_STAT_CODE code

/-- A channel stops on its own (R455, R456). -/
def Dev.dmaStop (d : Dev) (c : Nat) : Dev :=
  ((d.put (F.DMA_CH_STAT_STATE c) 2).put F.DMA_IRQ_STAT_CHSTOP 1).report 177

/-- BUSY follows the descriptor that runs. -/
def Dev.dmaBusy (d : Dev) : Dev := d.put F.DMA_STAT_BUSY (if d.dma.run.isSome then 1 else 0)

/-- A descriptor breaks the checks of R455. -/
def Dev.dmaBad (d : Dev) (x : DmaDesc) : Bool :=
  let fill := bitB x.flags 3
  x.len == 0 || decide (16777216 < x.len) || 16 ≤ x.flags || (d.ldB (x.at' + 0x17)) != 0 ||
  !(d.dmaMem x.dst x.len) || (!fill && (!(d.dmaMem x.src x.len) || rangesMeet x.src x.len x.dst x.len))

/-- DMA_DESCRIPTOR_FETCH: the engine fetches the next descriptor, behind one that runs as a prefetch;
`err` for a fetch that returns an error. Eligible channels whose next entry has OWN clear go idle. -/
def execDmaDescriptorFetch (err : Bool) (s : State) : Host.Outcome State Fault Refusal :=
  s.upd fun d =>
    if d.get F.DMA_STAT_STOPPED = 1 ∨ d.dma.pre.isSome then d
    else
      let idle := d.dmaOrder.takeWhile fun c => !(d.dmaOwns c)
      let d1 := d.each idle fun d c =>
        d.when (!(d.dma.run.any fun r => r.ch == c)) fun d => d.put (F.DMA_CH_STAT_STATE c) 0
      match d.dmaOrder.find? d.dmaOwns with
      | none => d1
      | some c =>
        let a := d.dmaEntry c (d.dmaNext c)
        let x : DmaDesc := { ch := c, at' := a, src := d.ld a 8, dst := d.ld (a + 8) 8, len := d.ld (a + 16) 4,
                             flags := (d.ldB (a + 0x14)).toNat }
        let runs := d.dma.run.isSome
        if err then d1.dmaStop c
        else if runs && bitB x.flags 1 then d1
        else if d.dmaBad x then (d1.dmaBack x 2 sBadValue 0).dmaStop c
        else if runs then d1.onDma fun t => { t with pre := some x }
        else ((d1.onDma fun t => { t with run := some x }).put F.DMA_STAT_CUR c).dmaBusy

/-- The descriptor that was prefetched runs; bytes that the one before it wrote while its reads were out
may have been read before or after. -/
def Dev.dmaGoOn (d : Dev) : Dev :=
  let race := (d.dma.run.map fun x => (x.dst, x.len)).getD (0, 0)
  let nx := d.dma.pre.map fun x => { x with race := race }
  let d1 := d.onDma fun _ => { run := nx, pre := none }
  (match nx with | some x => d1.put F.DMA_STAT_CUR x.ch | none => d1).dmaBusy

/-- `n` bytes that the spec does not give. -/
def Dev.freeBytes (d : Dev) (n : Nat) : List Byte × Dev :=
  ((List.range n).map fun i => BitVec.ofNat 8 (Config.freeValue (d.freeCtr + i)), { d with freeCtr := d.freeCtr + n })

/-- The first `n` bytes of a descriptor's data: the pattern from its first byte, or the source; a byte
that raced with the descriptor before it is open. -/
def Dev.dmaData (d : Dev) (x : DmaDesc) (n : Nat) : List Byte × Dev :=
  if bitB x.flags 3 then ((List.range n).map fun i => BitVec.ofNat 8 (x.src / 2 ^ (8 * (i % 8))), d)
  else
    let src := d.ldBs x.src n
    if !(rangesMeet x.src n x.race.1 x.race.2) then (src, d)
    else
      let r := d.freeBytes n
      let raced (i : Nat) : Bool := decide (x.race.1 ≤ x.src + i ∧ x.src + i < x.race.1 + x.race.2)
      (((src.zip r.1).zipIdx).map fun b => if raced b.2 then b.1.2 else b.1.1, r.2)

/-- DMA_WRITEBACK: every data write of the descriptor that runs has been acknowledged. -/
def execDmaWriteback (s : State) : Host.Outcome State Fault Refusal :=
  s.upd fun d => match d.dma.run with
    | none => d
    | some x =>
      let r := d.dmaData x x.len
      let d1 := r.2.stBs x.dst r.1
      if !(bitB (d1.ldB (x.at' + 0x14)).toNat 0) then ((d1.dmaBack x 2 sBadValue 0).dmaStop x.ch).dmaGoOn
      else (d1.dmaBack x 1 sOk x.len).dmaGoOn

/-- Every channel stops (R457). -/
def Dev.dmaStopAll (d : Dev) : Dev :=
  let d1 := d.each ((List.range 16).filter fun c => d.get (F.DMA_CH_CFG_ENABLE c) == 1) fun d c =>
    d.put (F.DMA_CH_STAT_STATE c) 2
  ((d1.put F.DMA_STAT_STOPPED 1).put F.DMA_IRQ_STAT_STOPPED 1).report 176

/-- DMA_BUS_ERROR: `kind` 0 while beats of the descriptor remain to be issued, `count` bytes of which
have been acknowledged (R456); 1 after its last beat (R457); 2 an uncorrectable error in an engine
buffer. Bytes written and not acknowledged are open. -/
def execDmaBusError (kind : Fin 3) (count : Nat) (s : State) : Host.Outcome State Fault Refusal :=
  s.upd fun d =>
    if kind = 0 ∧ d.dma.pre.isNone then
      match d.dma.run with
      | none => d
      | some x =>
        let n := min count x.len
        let r := d.dmaData x n
        let f := r.2.freeBytes (x.len - n)
        let d1 := f.2.stBs x.dst (r.1 ++ f.1)
        ((d1.dmaBack x 2 sIntegrity n).dmaStop x.ch).dmaGoOn
    else
      let d0 := d.when (kind == 2) fun d => (d.put F.DMA_IRQ_STAT_ECC 1).report 178
      match d0.dma.run with
      | none => d0.when (kind == 2) Dev.dmaStopAll
      | some x =>
        let f := d0.freeBytes x.len
        let d1 := (f.2.stBs x.dst f.1).dmaBack x 2 sIntegrity x.len
        ((d1.onDma fun _ => {}).dmaBusy).dmaStopAll

/-! ### The DMA registers -/

/-- A ring base or size that a write would give lies wholly in shared SRAM or DRAM. -/
def Dev.dmaRingOk (d : Dev) (w : Wr) (c : Nat) : Bool :=
  let v (r : Nat) : Nat := if w.addr = r then w.new else (d.rd r).toNat
  let a := v (R.DMA_CH_BASELO c) + 2 ^ 32 * (v (R.DMA_CH_BASEHI c) % 256)
  !d.full || d.dmaMem a (32 * max 1 (v (R.DMA_CH_SIZE c) % 2 ^ 13))

/-- Checks 5 and 6 of a write to DMA. -/
def dmaCheck (d : Dev) (w : Wr) : Nat :=
  let c := w.i
  let on := d.get (F.DMA_CH_CFG_ENABLE c) == 1
  let cfg := w.at (R.DMA_CH_CFG 0)
  let lo := w.at (R.DMA_CH_BASELO 0)
  let hi := w.at (R.DMA_CH_BASEHI 0)
  let sz := w.at (R.DMA_CH_SIZE 0)
  firstFail [
    ((lo && w.new % 32 != 0) || (sz && (w.new < 16 || 4096 < w.new)), sBadValue),
    ((lo || hi || sz) && !(d.dmaRingOk w c), sBadValue),
    (cfg && bitB w.new 31 && !(d.holds 6 (w.new % 2 ^ 16) c), sConflict),
    (cfg && on && w.new % 2 ^ 16 != w.old % 2 ^ 16, sBusy),
    ((lo || hi || sz) && on, sBusy),
    (w.at R.DMA_CTL && bitB w.new 0 && d.get F.DMA_STAT_STOPPED == 0 &&
      (List.range 16).any fun k => d.get (F.DMA_CH_CFG_ENABLE k) == 1, sBadState),
    (w.at (R.DMA_CH_KICK 0) && bitB w.new 0 && (d.get F.DMA_STAT_STOPPED == 1 || !on ||
      d.get (F.DMA_CH_SIZE_ENTRIES c) == 0), sBadState)]

/-- What a write to DMA does beside storing its fields. -/
def dmaApply (d : Dev) (w : Wr) : Dev :=
  let c := w.i
  if w.at R.DMA_CTL then
    d.when (bitB w.new 0) fun d =>
      (d.put F.DMA_STAT_STOPPED 0).each (List.range 16) fun d k =>
        d.when (d.get (F.DMA_CH_STAT_STATE k) == 2) fun d => d.put (F.DMA_CH_STAT_STATE k) 0
  else if w.at (R.DMA_CH_KICK 0) then d.when (bitB w.new 0) fun d => d.put (F.DMA_CH_STAT_STATE c) 1
  else if w.at (R.DMA_CH_SIZE 0) then d.put (F.DMA_CH_STAT_NEXT c) 0
  else if w.at R.DMA_DONE then d.put F.DMA_IRQ_STAT_DONE (if d.get F.DMA_DONE_CH = 0 then 0 else 1)
  else d

end Sys2Proof.Machine
end

