-- ==== Sys2Proof/Machine/Dmc.lean ====
section
/-! DEFINITION. DMC: the address map (R439 to R442), requests and refresh (R443 to R446), training and set
points (R447 to R449), errors and scrub (R450), and the DMC registers. -/

namespace Sys2Proof.Machine

/-! ### The address map -/

/-- log2 of the number of channels (R441). -/
def Dev.dmcLog (d : Dev) : Nat := Nat.log2 (2 * popCount 4 (d.get F.DMC_CFG_INTF))

/-- The channels that INTF enables. -/
def Dev.dmcChans (d : Dev) : List Nat := List.range (2 ^ d.dmcLog)

/-- The linear address of a system offset (R440). -/
def Dev.dmcLinear (d : Dev) (o : Nat) : Nat :=
  if d.get F.DMC_CFG_ECC = 0 then o
  else
    let b := o / 64
    512 * (b / 7) + 64 * (b % 7) + o % 64

/-- Where the check byte of the first word of a system offset's block lies, as a linear address (R440). -/
def dmcCheckAt (o : Nat) : Nat :=
  let b := o / 64
  512 * (b / 7) + 448 + 8 * (b % 7)

/-- The channel of a linear address (R441). -/
def Dev.dmcChannel (d : Dev) (l : Nat) : Nat :=
  (List.range d.dmcLog).foldl (fun x j =>
    let m := d.get (F.DMC_CHMASK_MASK j) * 2 ^ 12
    x + (bits l (9 + j) 1 + parity 36 (l &&& m)) % 2 * 2 ^ j) 0

/-- The address within its channel of a linear address (R441). -/
def Dev.dmcInner (d : Dev) (l : Nat) : Nat := l / 2 ^ (9 + d.dmcLog) * 512 + l % 512

/-- The bank of an address within a channel (R442). -/
def Dev.dmcBank (d : Dev) (a : Nat) : Nat :=
  (List.range 4).foldl (fun x i =>
    let m := d.get (F.DMC_BKMASK_MASK i) * 2 ^ 15
    x + (bits a (11 + i) 1 + parity 36 (a &&& m)) % 2 * 2 ^ i) 0

/-- The channel that serves a control address. -/
def Dev.dmcServes (d : Dev) (addr : Nat) : Nat := d.dmcChannel (d.dmcLinear (addr - dramBase))

/-! ### Requests and errors (R444, R450) -/

/-- Outcome of a read with ECC set: 1 corrected, 2 uncorrectable; with ECC clear neither is seen. -/
def Dev.dmcError (d : Dev) (addr : Nat) (err : Nat) : Dev :=
  if d.get F.DMC_CFG_ECC = 0 then d
  else if err = 1 then (d.incSat F.DMC_CECNT_COUNT).onDmc fun t => { t with ce := t.ce + 1 }
  else if err = 2 then
    let d1 := (d.incSat F.DMC_UECNT_COUNT).put F.DMC_IRQ_STAT_UE 1
    let d2 := d1.when (d1.get F.DMC_UEADDRHI_VALID == 0) fun d =>
      (d.wrN R.DMC_UEADDRLO addr).wrN R.DMC_UEADDRHI (2 ^ 31 + addr / 2 ^ 32 % 256)
    d2.report 169
  else d

/-- What the RT bound allows beyond 1 µs now, on a channel, in ns (R444). -/
def Dev.rtAllow (d : Dev) (ch : Nat) : Nat :=
  (if d.bit F.DMC_TRAINSTAT_RUN ch then 1500 else 0) + (if d.get F.DMC_FREQSTAT_STATE = 2 then 20000 else 0)

/-- DRAM_REQUEST: a request of a class to a control address, served in `lat` ns; `err` 1 corrected, 2
uncorrectable. A channel in self-refresh leaves it, and the bound does not apply to that wait. -/
def execDramRequest (cls : Fin 4) (addr lat : Nat) (err : Fin 3) (s : State) : Host.Outcome State Fault Refusal :=
  s.upd fun d =>
    if !(d.inDram addr 1) then d
    else
      let ch := d.dmcServes addr
      let slept := nth d.dmc.selfRef ch false
      let d1 := d.onDmc fun t => { t with selfRef := upd t.selfRef ch fun _ => false }
      let late := !slept && decide (1000 + d.rtAllow ch < lat)
      let d2 := d1.when (cls == 0) fun d =>
        let d3 := d.put F.DMC_RTLAT_MAX (min 65535 (max lat (d.get F.DMC_RTLAT_MAX)))
        d3.when late fun d => ((d.incSat F.DMC_RTLAT_OVER).put F.DMC_IRQ_STAT_RTLATE 1).report 171
      d2.dmcError addr err

/-- REFRESH: a refresh of a bank falls due; with RT requests waiting (`rt`) it falls back, up to 8
(R445). -/
def execRefresh (ch : Fin 8) (rank : Fin 2) (bank : Fin 16) (rt : Bool) (s : State) : Host.Outcome State Fault Refusal :=
  s.upd fun d => d.onDmc fun t =>
    let k := ch.val * 64 + rank.val * 16 + bank.val
    let n := spGet 0 t.late k
    { t with late := spPut 0 t.late k (if rt then min 8 (n + 1) else 0) }

/-- MR4_POLL: the code of each channel; the standard's code for a device above its range is 31. -/
def execMr4Poll (codes : List Nat) (s : State) : Host.Outcome State Fault Refusal :=
  s.upd fun d =>
    let cs := (List.range 8).map fun c => if d.dmcChans.contains c then nth codes c 0 % 256 else 0
    let d1 := d.onDmc fun t => { t with mr4 := cs }
    let d2 := d1.put F.DMC_TEMP_MR4 (cs.foldl max 0)
    d2.when (cs.any fun x => x % 32 == 31) fun d => (d.put F.DMC_IRQ_STAT_TEMP 1).report 172

/-- SELF_REFRESH_ENTRY: a channel has had no request for SRIDLE µs, outside PRINTING (R446). -/
def execSelfRefreshEntry (ch : Fin 8) (s : State) : Host.Outcome State Fault Refusal :=
  s.upd fun d => d.when (d.get F.DMC_PWR_SRIDLE != 0 && d.st? != stPrinting && d.dmcChans.contains ch.val) fun d =>
    d.onDmc fun t => { t with selfRef := upd t.selfRef ch fun _ => true }

/-! ### Training and set points (R447 to R449) -/

/-- Training at start: the channels of `fail` failed a step; set point 0 is in use. -/
def Dev.dmcTrain (d : Dev) (fail : Nat) : Dev :=
  let all := 2 ^ (2 ^ d.dmcLog) - 1
  let bad := fail &&& all
  let d1 := (d.put F.DMC_TRAINSTAT_DONE (all - bad)).put F.DMC_TRAINSTAT_FAIL bad
  d1.when (bad != 0) fun d => d.report 168

/-- From READY onward. -/
def Dev.fromReady (d : Dev) : Bool := d.running || (d.st? == stSafe && d.get F.FLT_SAFESTAT_FROM ≥ stReady)

/-- DRAM_RETRAIN_CHECK: a channel's drift is read; beyond 1/16 UI its DQ timing is retrained. -/
def execDramRetrainCheck (ch : Fin 8) (drift : Bool) (s : State) : Host.Outcome State Fault Refusal :=
  s.upd fun d => d.when (d.fromReady && drift && d.get F.DMC_TRAINSTAT_RUN == 0 && d.dmcChans.contains ch.val) fun d =>
    d.put F.DMC_TRAINSTAT_RUN (2 ^ ch.val)

/-- Code of a set point in DMC_FSP. -/
def Dev.fspCode (d : Dev) (sp : Nat) : Nat := bits (d.get F.DMC_FSP_RATE) (4 * sp) 4

/-- The checks of R449 that a request of set point `sp` fails, as a status. -/
def Dev.freqCheck (d : Dev) (sp : Nat) (pending : Bool) : Nat :=
  firstFail [
    (!(d.bit F.DMC_CFG_FSPEN sp) || d.fspCode sp == 0, sBadValue),
    (!pending && d.get F.DMC_FREQSTAT_STATE != 0, sBusy),
    ((d.itk.items.any fun i => i.state == isScheduled || i.state == isFiring) ||
      !(d.st? == stReady || d.st? == stSafe), sBadState)]

/-- A frequency request ends with an outcome. -/
def Dev.freqEnd (d : Dev) (code : Nat) : Dev :=
  (((d.put F.DMC_FREQSTAT_STATE 0).put F.DMC_FREQSTAT_CODE code).put F.DMC_IRQ_STAT_FREQ 1).onDmc fun t =>
    { t with freq := none }

/-- DRAM_RETRAIN_DONE: a periodic retrain ends; one that fails keeps the old settings. A request that
was held is checked again and carried out, or ends. -/
def execDramRetrainDone (fail : Bool) (s : State) : Host.Outcome State Fault Refusal :=
  s.upd fun d =>
    if d.get F.DMC_TRAINSTAT_RUN = 0 then d
    else
      let ch := d.get F.DMC_TRAINSTAT_RUN
      let d1 := d.put F.DMC_TRAINSTAT_RUN 0
      let d2 := d1.when fail fun d => (d.put F.DMC_IRQ_STAT_RETRAIN 1).report 173
      match d2.dmc.freq with
      | some (sp, _) =>
        if d2.get F.DMC_FREQSTAT_STATE ≠ 1 then d2
        else if fail || d2.freqCheck sp true != sOk then d2.freqEnd sBadState
        else d2.put F.DMC_FREQSTAT_STATE 2
      | none => d2

/-- FREQ_CHANGE_DONE: a change ends. When a channel does not relock it returns to the old set point; the
spec gives neither CUR nor CODE then. -/
def execFreqChangeDone (relock : Bool) (s : State) : Host.Outcome State Fault Refusal :=
  s.upd fun d => match d.dmc.freq with
    | none => d
    | some (sp, _) =>
      if d.get F.DMC_FREQSTAT_STATE ≠ 2 then d
      else if relock then (d.put F.DMC_FREQSTAT_CUR sp).freqEnd sOk
      else
        let a := d.fresh 2
        let b := a.2.fresh 8
        ((b.2.put F.DMC_FREQSTAT_CUR a.1).freqEnd b.1).report 174

/-! ### Scrub and windows (R450) -/

/-- DRAM_SCRUB: the scrub reads the next 64 bytes, with the outcome `err`. -/
def execDramScrub (err : Fin 3) (s : State) : Host.Outcome State Fault Refusal :=
  s.upd fun d => d.when (d.get F.DMC_SCRUB_HOURS != 0 && d.get F.DMC_CFG_ECC == 1) fun d =>
    let a := d.dmc.scrubAt
    let n := (a + 64) % max 64 d.dramSize
    (d.dmcError (dramBase + a) err).onDmc fun t => { t with scrubAt := n }

/-- CE_RATE_WINDOW: the corrected errors of each second are judged against CETHR. -/
def execCeRateWindow (s : State) : Host.Outcome State Fault Refusal :=
  s.upd fun d =>
    let th := d.get F.DMC_CETHR_PERSEC
    let d1 := d.when (th != 0 && th < d.dmc.ce) fun d => (d.put F.DMC_IRQ_STAT_CE 1).report 170
    d1.onDmc fun t => { t with ce := 0 }

/-! ### The DMC registers -/

/-- The memory settings are rejected at CONFIG_DONE (R439, R441, R442). -/
def Dev.dmcConfigBad (d : Dev) : Bool :=
  let i := d.get F.DMC_CFG_INTF
  let size := 29 + d.get F.DMC_CFG_DENS + d.get F.DMC_CFG_RANKS2
  !(i == 1 || i == 3 || i == 15) || decide (2 ^ 35 < d.dramFitted) ||
  ((List.range 3).any fun j => d.dmcLog ≤ j && d.get (F.DMC_CHMASK_MASK j) != 0) ||
  ((List.range 4).any fun j => 2 ^ (size - 15) ≤ d.get (F.DMC_BKMASK_MASK j))

/-- Checks 5 and 6 of a write to DMC. -/
def dmcCheck (d : Dev) (w : Wr) : Nat :=
  firstFail [
    (rngBad [⟨F.DMC_AGE_AGECPU, 1, 255⟩, ⟨F.DMC_AGE_AGEBULK, 1, 255⟩, ⟨F.DMC_PWR_RETRAIN, 10, 1000⟩] w, sBadValue),
    (w.at R.DMC_CFG && !(bitB w.new 16), sBadValue),
    (w.at R.DMC_FSP && (List.range 4).any fun n => 5 < bits w.new (4 * n) 4, sBadValue),
    (w.at R.DMC_SCRUB && w.new != 0 && d.get F.DMC_CFG_ECC == 0, sBadValue),
    (w.at R.DMC_FREQ && d.freqCheck (w.new % 4) false != sOk, d.freqCheck (w.new % 4) false)]

/-- What a write to DMC does beside storing its fields. -/
def dmcApply (d : Dev) (w : Wr) : Dev :=
  if w.at R.DMC_FREQ then
    let e := (w.new % 4, w.req)
    (d.onDmc fun t => { t with freq := some e }).put F.DMC_FREQSTAT_STATE (if d.get F.DMC_TRAINSTAT_RUN = 0 then 2 else 1)
  else if w.at R.DMC_STATCLR then
    let d1 := d.when (bitB w.new 0) fun d => d.wrN R.DMC_CECNT 0
    let d2 := d1.when (bitB w.new 1) fun d => d.wrN R.DMC_UECNT 0
    d2.when (bitB w.new 2) fun d => d.wrN R.DMC_RTLAT 0
  else if w.at R.DMC_UEADDRHI then
    d.when (bitB w.new 31) fun d => (d.wrN R.DMC_UEADDRLO 0).wrN R.DMC_UEADDRHI 0
  else d

end Sys2Proof.Machine
end

