-- ==== Sys2Proof/Machine/Cam.lean ====
section
/-! DEFINITION. CAM: sources and their lines (R314 to R318, R329 to R333), the tile link (R319 to
R323), the trigger generators (R324 to R328), and the CAM registers. -/

namespace Sys2Proof.Machine

/-! ### Sources -/

/-- A source beside its registers. -/
def Dev.src (d : Dev) (s : Nat) : CamSrc := nth d.cam.srcs s {}

/-- Changes a source. -/
def Dev.onSrc (d : Dev) (s : Nat) (f : CamSrc → CamSrc) : Dev :=
  d.onCam fun t => { t with srcs := upd t.srcs s f }

/-- A generator beside its registers. -/
def Dev.gen' (d : Dev) (k : Nat) : Gen := nth d.cam.gens k {}

/-- The enabled sources that some condition picks. -/
def Dev.srcsOf (d : Dev) (p : Nat → Bool) : List Nat :=
  (List.range 16).filter fun s => d.get (F.CAM_SRC_CFG_ENABLE s) == 1 && p s

def Dev.srcTile (d : Dev) (s : Nat) : Bool := d.get (F.CAM_SRC_CFG_KIND s) == 1
def Dev.srcDt (d : Dev) (s : Nat) : Nat := d.get (F.CAM_SRC_CFG_DT s)
def Dev.srcWidth (d : Dev) (s : Nat) : Nat := d.get (F.CAM_SRC_GEOM_WIDTHM1 s) + 1
def Dev.srcLines (d : Dev) (s : Nat) : Nat := d.get (F.CAM_SRC_GEOM_LINES s)

/-- The enabled tiles of a source. -/
def Dev.srcTiles (d : Dev) (s : Nat) : List Nat :=
  (List.range 32).filter fun t => d.get (F.CAM_TILE_CFG_ENABLE t) == 1 && d.get (F.CAM_TILE_CFG_SRC t) == s

/-- FMT of a tile source. -/
def Dev.srcFmt (d : Dev) (s : Nat) : Nat := ((d.srcTiles s).head?.map fun t => d.get (F.CAM_TILE_CFG_FMT t)).getD 0

/-- Components a pixel, as the buffer holds them (R315). -/
def Dev.srcComps (d : Dev) (s : Nat) : Nat :=
  if d.srcTile s then (if d.srcFmt s < 2 then 3 else 1)
  else if d.srcDt s = 0x24 then 3 else if d.srcDt s = 0x1E then 2 else 1

/-- Bits a component. -/
def Dev.srcBits (d : Dev) (s : Nat) : Nat :=
  if d.srcTile s then (if d.srcFmt s = 0 ∨ d.srcFmt s = 2 then 10 else 8)
  else nth [8, 10, 12, 14] (d.srcDt s - 0x2A) 8

/-- Bytes a pixel in the buffer (R315). -/
def Dev.srcBytes (d : Dev) (s : Nat) : Nat :=
  if d.srcTile s then nth [4, 4, 2, 1] (d.srcFmt s) 1
  else if d.srcDt s = 0x24 then 4 else if d.srcDt s = 0x2A then 1 else 2

/-- Lines that the input buffer holds (R315). -/
def Dev.srcCap (d : Dev) (s : Nat) : Nat :=
  d.get (F.CAM_SRC_BUF_NSEG s) * 65536 / max 1 ((d.srcWidth s * d.srcBytes s + 63) / 64 * 64)

/-- The fill value of a source's components. -/
def Dev.srcFill (d : Dev) (s : Nat) : Nat := d.get (F.CAM_SRC_FILL_FILL s) % 2 ^ d.srcBits s

/-- A filled line of a source. -/
def Dev.fillPx (d : Dev) (s : Nat) : List Nat := List.replicate (d.srcWidth s * d.srcComps s) (d.srcFill s)

/-- Capture runs from READY, in SAFE as well (R334). -/
def Dev.capturing (d : Dev) : Bool := d.running || d.st? = stSafe

/-- Bits of the frame FLAGS (R331). -/
def ffShort : Nat := 0x001
def ffLong : Nat := 0x002
def ffCrc : Nat := 0x004
def ffDropped : Nat := 0x008
def ffTimeout : Nat := 0x010
def ffNofe : Nat := 0x020
def ffLinelen : Nat := 0x040
def ffLate : Nat := 0x080
def ffTilemiss : Nat := 0x100
def ffEcc : Nat := 0x200
def ffTrgskip : Nat := 0x400

/-- Bits of the line FLAGS (R329). -/
def lfFilled : Nat := 0x01
def lfCrc : Nat := 0x02
def lfLenfix : Nat := 0x04
def lfNotrig : Nat := 0x08
def lfLast : Nat := 0x10
def lfLate : Nat := 0x20

/-- Some bit of `m` is set in `x`. -/
def anyBit (x m : Nat) : Bool := x &&& m != 0

/-- Changes an open frame of a source. -/
def Dev.onFrame (d : Dev) (s num : Nat) (f : CamFrame → CamFrame) : Dev :=
  d.onSrc s fun x => { x with frames := x.frames.map fun g => if g.num = num then f g else g }

/-- An open frame of a source. -/
def Dev.frame? (d : Dev) (s num : Nat) : Option CamFrame := (d.src s).frames.find? fun f => f.num == num

/-- LEVEL follows the buffer. -/
def Dev.syncBuf (d : Dev) (s : Nat) : Dev :=
  let n := (d.src s).buf.length
  let d1 := d.put (F.CAM_SRC_LEVEL_LINES s) n
  d1.put (F.CAM_SRC_LEVEL_MAXLINES s) (max n (d1.get (F.CAM_SRC_LEVEL_MAXLINES s)))

/-- A frame of a source is discarded: it takes the FLAGS `m`, and its lines in the buffer are freed. -/
def Dev.discardFrame (d : Dev) (s num m : Nat) : Dev :=
  let d1 := (d.onFrame s num fun f => { f with flags := f.flags ||| m }).onSrc s fun x =>
    { x with buf := x.buf.filter fun l => l.frame != num }
  let mark (x : FrameDesc) : FrameDesc := if x.frame = num then { x with flags := x.flags ||| m } else x
  let comp := d.get (F.VIS_OUT_CFG_SRC (d.get F.INS_CFG_OUT)) == s
  (d1.when comp fun d => d.onIns fun t => { t with descs := t.descs.map mark }).syncBuf s

/-- A frame is dropped (R333): its lines in the buffer are freed, its later lines are discarded. -/
def Dev.dropFrame (d : Dev) (s num : Nat) (ecc : Bool) : Dev :=
  let was := (d.frame? s num).any fun f => anyBit f.flags ffDropped
  let d2 := d.discardFrame s num (if ecc then ffDropped ||| ffEcc else ffDropped)
  let d3 := d2.when (!was) fun d => ((d.incSat (F.CAM_SRC_DROPCNT_COUNT s)).put F.CAM_IRQ_STAT_DROP 1).report 128
  d3.when ecc fun d => d.report 135

/-- A whole line reaches its source's buffer (R333). -/
def Dev.pushCamLine (d : Dev) (s : Nat) (l : CamLine) : Dev :=
  if (d.frame? s l.frame).any fun f => anyBit f.flags ffDropped then d
  else if d.srcCap s ≤ (d.src s).buf.length then d.dropFrame s l.frame false
  else (d.onSrc s fun x => { x with buf := x.buf ++ [l] }).syncBuf s

/-! ### Descriptors (R331) -/

/-- The ring has room for a descriptor. -/
def Dev.fdFull (d : Dev) : Bool :=
  decide (d.get F.CAM_FDSIZE_ENTRIES ≤ (d.get F.CAM_FDWR_COUNT + 2 ^ 32 - d.get F.CAM_FDRD_COUNT) % 2 ^ 32)

/-- The zone of a source's generator, or 0xFF. -/
def Dev.srcZone (d : Dev) (s : Nat) : Nat :=
  let g := d.get (F.CAM_SRC_CFG_TRG s)
  if g = 0 then 0xFF else d.get (F.CAM_TRG_CFG_ZONE (g - 1))

/-- The 32 bytes of a frame descriptor. -/
def Dev.fdBytes (d : Dev) (s : Nat) (f : CamFrame) : List Byte :=
  let c (n : Nat) : List Byte := leBytes 2 (min n 65535)
  leBytes 4 f.num ++ leBytes 1 s ++ leBytes 1 (d.srcZone s) ++ leBytes 2 f.flags ++ c f.recv ++ c f.filled ++
  c f.crc ++ c f.hdr ++ leBytes 8 f.time ++ leBytes 8 f.pos

/-- The source of the output that the comparator takes, when the comparator runs. -/
def Dev.insSrc (d : Dev) : Option Nat :=
  let o := d.get F.INS_CFG_OUT
  if d.get F.INS_CFG_ENABLE = 1 ∧ d.get (F.VIS_OUT_CFG_ENABLE o) = 1 ∧ d.get (F.VIS_OUT_CFG_DEST o) % 2 = 1 then
    some (d.get (F.VIS_OUT_CFG_SRC o)) else none

/-- A frame closes: its descriptor goes to the ring and to the pipeline, with its counts and faults. -/
def Dev.closeFrame (d : Dev) (s num : Nat) : Dev :=
  match d.frame? s num with
  | none => d
  | some f =>
    let d1 := (d.onSrc s fun x => { x with frames := x.frames.filter fun g => g.num != num }).put (F.CAM_SRC_FRAME_FRAME s) num
    let d2 := if d1.get F.CAM_FDSIZE_ENTRIES = 0 then d1
      else if d1.fdFull then (((d1.incSat F.CAM_FDLOST_COUNT).put F.CAM_IRQ_STAT_FDFULL 1).report 134)
      else
        let w := d1.get F.CAM_FDWR_COUNT
        let a := (d1.rd R.CAM_FDBASELO).toNat + 2 ^ 32 * ((d1.rd R.CAM_FDBASEHI).toNat % 256)
        (d1.stBs (a + 32 * (w % d1.get F.CAM_FDSIZE_ENTRIES)) (d1.fdBytes s f)).put F.CAM_FDWR_COUNT (w + 1)
    let d3 := d2.put F.CAM_IRQ_STAT_FRAME 1
    let shape := anyBit f.flags (ffShort ||| ffLong ||| ffLinelen ||| ffTimeout)
    let crc := anyBit f.flags (ffCrc ||| ffTilemiss)
    let d4 := d3.when shape fun d => (d.put F.CAM_IRQ_STAT_SHAPE 1).report 129
    let d5 := d4.when crc fun d => ((d.put F.CAM_IRQ_STAT_CRC 1).incSat (F.CAM_SRC_BADCNT_CRC s)).report 130
    let d6 := d5.when (anyBit f.flags ffShort) fun d => d.incSat (F.CAM_SRC_BADCNT_SHORT s)
    let d7 := d6.when (anyBit f.flags ffLong) fun d => d.incSat (F.CAM_SRC_BADCNT_LONG s)
    d7.when (d7.insSrc == some s) fun d => d.onIns fun t =>
      { t with descs := t.descs ++ [{ frame := num, flags := f.flags, m0 := f.trigs.head?.map (·.m) }] }

/-! ### CSI-2 (R316 to R318, R330) -/

/-- NTRIG in force of the generator of a source. -/
def Dev.ntrig (d : Dev) (k : Nat) : Nat := d.getAct (F.CAM_TRG_FRAME_NTRIG k)

/-- The trigger that line `k` of a frame takes (R327). -/
def Dev.lineTrig (d : Dev) (s : Nat) (f : CamFrame) (k : Nat) : Option TrigRec :=
  let g := d.get (F.CAM_SRC_CFG_TRG s)
  if g = 0 then none else if d.ntrig (g - 1) = 1 then f.trigs.head? else f.trigs[k]?

/-- The next line of a CSI frame is placed with the given FLAGS and components. -/
def Dev.placeLine (d : Dev) (s num flags : Nat) (px : List Nat) : Dev :=
  match d.frame? s num with
  | none => d
  | some f =>
    let k := f.placed
    let tr := d.lineTrig s f k
    let time := (tr.map (·.time)).getD d.c
    let pos := (tr.map (·.pos)).getD 0
    let late := tr.any (·.late)
    let fl := flags ||| (if tr.isNone then lfNotrig else 0) ||| (if k + 1 = d.srcLines s then lfLast else 0) |||
      (if late then lfLate else 0)
    let filled := if anyBit flags lfFilled then 1 else 0
    let crc := if anyBit flags lfCrc then 1 else 0
    let ff := f.flags ||| (if late then ffLate else 0) ||| (if anyBit flags lfCrc then ffCrc else 0) |||
      (if anyBit flags lfLenfix then ffLinelen else 0)
    let d1 := d.onFrame s num fun g =>
      { g with placed := k + 1, filled := g.filled + filled, crc := g.crc + crc, flags := ff,
               time := if k = 0 then time else g.time, pos := if k = 0 then pos else g.pos }
    d1.pushCamLine s { flags := fl, line := k, frame := num, time := time, pos := pos, px := px }

/-- The missing lines of a frame are filled, at most `n`. -/
def Dev.fillRest : Nat → Dev → Nat → Nat → Dev
  | 0, d, _, _ => d
  | n + 1, d, s, num =>
    if (d.frame? s num).any fun f => f.placed < d.srcLines s then
      fillRest n (d.placeLine s num lfFilled (d.fillPx s)) s num
    else d

/-- A CSI frame closes as at an FE, with more FLAGS. -/
def Dev.endFrame (d : Dev) (s num flags : Nat) : Dev :=
  match d.frame? s num with
  | none => d
  | some f =>
    let n := d.srcLines s - f.placed
    let fl := flags ||| (if 0 < n then ffShort else 0)
    ((fillRest n d s num).onFrame s num fun g => { g with flags := g.flags ||| fl }).closeFrame s num

/-- The enabled CSI sources on a port and a virtual channel, of a port that receives. -/
def Dev.csiSrcs (d : Dev) (port vc : Nat) : List Nat :=
  if d.get (F.CAM_PORT_CFG_ENABLE port) = 0 ∨ !d.capturing then []
  else d.srcsOf fun s => !(d.srcTile s) && d.get (F.CAM_SRC_CFG_PORT s) == port && d.get (F.CAM_SRC_CFG_VC s) == vc

/-- The open frame of a CSI source. -/
def Dev.openFrame (d : Dev) (s : Nat) : Option Nat := (d.src s).frames.head?.map (·.num)

/-- A frame opens at an FS: it takes the generator's frame that waits (R327). -/
def Dev.beginFrame (d : Dev) (s : Nat) : Dev :=
  let x := d.src s
  let skip := x.gnew.any (·.2)
  let f : CamFrame := { num := x.nextFrame, trigs := (x.gnew.map (·.1)).getD [], live := x.gnew.isSome, since := d.c,
                        flags := if skip then ffTrgskip else 0 }
  d.onSrc s fun x => { x with nextFrame := (x.nextFrame + 1) % 2 ^ 32, frames := x.frames ++ [f], gnew := none }

/-- CSI_FRAME_START (R330): an FS opens a frame of each source on the virtual channel, and closes one
that is open with NOFE. -/
def execCsiFrameStart (port : Fin 4) (vc : Fin 16) (s : State) : Host.Outcome State Fault Refusal :=
  s.upd fun d => d.each (d.csiSrcs port vc) fun d x =>
    (match d.openFrame x with
      | some n => d.endFrame x n ffNofe
      | none => d).beginFrame x

/-- CSI_FRAME_END (R330). -/
def execCsiFrameEnd (port : Fin 4) (vc : Fin 16) (s : State) : Host.Outcome State Fault Refusal :=
  s.upd fun d => d.each (d.csiSrcs port vc) fun d x =>
    match d.openFrame x with
    | some n => d.endFrame x n 0
    | none => d

/-- CSI_FRAME_TIMEOUT (R330): no FE within TOUT ms of the FS. -/
def execCsiFrameTimeout (src : Fin 16) (s : State) : Host.Outcome State Fault Refusal :=
  s.upd fun d =>
    match (d.src src).frames with
    | f :: _ =>
      let tout := d.get (F.CAM_SRC_FILL_TOUT src)
      if d.srcTile src ∨ tout = 0 then d
      else (d.atTime (f.since + tout * 1000000)).endFrame src f.num ffTimeout
    | [] => d

/-- The pixels that a payload carries (MIPI CSI-2 packing, PRESUMED, entry 5). -/
def unpackCsi (dt : Nat) : Nat → List Nat → List Nat
  | 0, _ => []
  | n + 1, l =>
    if dt = 0x2B then
      match l with
      | a :: b :: c :: e :: x :: r =>
        [4 * a + x % 4, 4 * b + x / 4 % 4, 4 * c + x / 16 % 4, 4 * e + x / 64] ++ unpackCsi dt n r
      | _ => []
    else if dt = 0x2C then
      match l with
      | a :: b :: x :: r => [16 * a + x % 16, 16 * b + x / 16] ++ unpackCsi dt n r
      | _ => []
    else if dt = 0x2D then
      match l with
      | a :: b :: c :: e :: x :: y :: z :: r =>
        [64 * a + x % 64, 64 * b + x / 64 + y % 16 * 4, 64 * c + y / 16 + z % 4 * 16, 64 * e + z / 4] ++ unpackCsi dt n r
      | _ => []
    else if dt = 0x24 then
      match l with
      | b :: g :: r :: t => [r, g, b] ++ unpackCsi dt n t
      | _ => []
    else match l with
      | a :: r => a :: unpackCsi dt n r
      | [] => []

/-- The word count of a line (R317). -/
def Dev.csiWords (d : Dev) (s : Nat) : Nat :=
  let bpp := nth [8, 10, 12, 14] (d.srcDt s - 0x2A) 8
  d.srcWidth s * (if d.srcDt s = 0x24 then 24 else if d.srcDt s = 0x1E then 16 else bpp) / 8

/-- CSI_LINE (R317, R318, R330): a long packet is routed to its source. `crcOk` is the payload check's
result; `cor` marks a header that was corrected. -/
def execCsiLine (port : Fin 4) (vc : Fin 16) (dt : Fin 64) (payload : List Byte) (crcOk cor : Bool) (s : State) :
    Host.Outcome State Fault Refusal :=
  s.upd fun d =>
    if d.get (F.CAM_PORT_CFG_ENABLE port) = 0 ∨ !d.capturing then d
    else
      let d1 := d.when cor fun d => d.incSat (F.CAM_PORT_STAT_HDRCOR port)
      match (d1.csiSrcs port vc).find? fun x => d1.srcDt x == dt.val with
      | none => d1.when (dt.val != 0x12) fun d => d.incSat (F.CAM_PORT_ERR_UNKNOWN port)
      | some x =>
        match d1.openFrame x with
        | none => d1
        | some num =>
          let d2 := d1.onFrame x num fun f => { f with recv := f.recv + 1, hdr := f.hdr + if cor then 1 else 0 }
          if (d2.frame? x num).any fun f => d2.srcLines x ≤ f.placed then
            d2.onFrame x num fun f => { f with flags := f.flags ||| ffLong }
          else
            let len := payload.length == d2.csiWords x
            let fill := d2.fillPx x
            let got := unpackCsi dt (payload.length + 1) (payload.map (·.toNat))
            let px := if crcOk then (got ++ fill.drop got.length).take fill.length else fill
            d2.placeLine x num ((if crcOk then 0 else lfFilled ||| lfCrc) ||| (if len then 0 else lfLenfix)) px

/-- CSI_GENERIC_SHORT (R317): line start and line end are ignored; generic short packets are counted. -/
def execCsiGenericShort (port : Fin 4) (dt : Fin 64) (s : State) : Host.Outcome State Fault Refusal :=
  s.upd fun d =>
    d.when (d.get (F.CAM_PORT_CFG_ENABLE port) == 1 && d.capturing && 8 ≤ dt.val && dt.val ≤ 15) fun d =>
      d.incSat (F.CAM_PORT_ERR_UNKNOWN port)

/-- CSI_HEADER_ERROR (R318): a header that cannot be corrected, or a start-of-transmission error. -/
def execCsiHeaderError (port : Fin 4) (s : State) : Host.Outcome State Fault Refusal :=
  s.upd fun d =>
    d.when (d.get (F.CAM_PORT_CFG_ENABLE port) == 1 && d.capturing) fun d =>
      ((d.incSat (F.CAM_PORT_ERR_HDRERR port)).put F.CAM_IRQ_STAT_LINK 1).report 131

/-- DESKEW (R316): a deskew sequence is taken. -/
def execDeskew (port : Fin 4) (s : State) : Host.Outcome State Fault Refusal :=
  s.upd fun d => d.when (d.get (F.CAM_PORT_CFG_ENABLE port) == 1 && d.configDone) fun d => d.put (F.CAM_PORT_STAT_DESKEWED port) 1

/-! ### Tiles (R319 to R323) -/

/-- The tiles configured on a tile lane. -/
def Dev.laneTiles (d : Dev) (l : Nat) : List Nat :=
  (List.range 32).filter fun t => d.get (F.CAM_TILE_CFG_ENABLE t) == 1 && d.get (F.CAM_TILE_CFG_LANE t) == l &&
    d.get (F.CAM_SRC_CFG_ENABLE (d.get (F.CAM_TILE_CFG_SRC t))) == 1

/-- A tile's first pixel kept, how many, and their first source column. -/
def Dev.tileSpan (d : Dev) (t : Nat) : Nat × Nat × Nat :=
  let sk := d.get (F.CAM_TILE_GEOM_SKIP t)
  (sk, d.get (F.CAM_TILE_GEOM_NPIXM1 t) + 1 - sk, d.get (F.CAM_TILE_GEOM_X0 t))

/-- The components of a tile line, from its parts; a part that is missing or bad is filled. -/
def Dev.tilePx (d : Dev) (s : Nat) (o : TileOpen) : List Nat :=
  let c := d.srcComps s
  ((List.range (d.srcWidth s)).map fun x =>
    let t := (d.srcTiles s).find? fun t =>
      let (_, n, x0) := d.tileSpan t
      x0 ≤ x && x < x0 + n
    match t with
    | none => List.replicate c (d.srcFill s)
    | some t =>
      let (sk, _, x0) := d.tileSpan t
      match o.parts.find? fun p => p.1 == t && p.2.1 == 0 with
      | some p => (List.range c).map fun j => nth p.2.2 ((sk + x - x0) * c + j) (d.srcFill s)
      | none => List.replicate c (d.srcFill s)).flatten

/-- A tile line closes (R322); with the frame's last line the frame closes. -/
def Dev.closeTile (d : Dev) (s : Nat) (o : TileOpen) : Dev :=
  let st (t : Nat) : Nat := ((o.parts.find? fun p => p.1 == t).map (·.2.1)).getD 2
  let crc := (d.srcTiles s).any fun t => st t == 1
  let miss := (d.srcTiles s).any fun t => st t == 2
  let filled := crc || miss
  let n := d.srcLines s
  let fl := (if filled then lfFilled else 0) ||| (if crc then lfCrc else 0) ||| (if o.line + 1 = n then lfLast else 0) |||
    (if o.trig.late then lfLate else 0)
  let d1 := d.onSrc s fun x => { x with tiles := x.tiles.filter fun y => y.trig.num != o.trig.num }
  let d2 := d1.onFrame s o.frame fun f =>
    { f with recv := f.recv + 1, placed := f.placed + 1, filled := f.filled + (if filled then 1 else 0),
             crc := f.crc + (if crc then 1 else 0),
             flags := f.flags ||| (if crc then ffCrc else 0) ||| (if miss then ffTilemiss else 0) }
  let d3 := d2.pushCamLine s { flags := fl, line := o.line, frame := o.frame, time := o.trig.time, pos := o.trig.pos, px := d2.tilePx s o }
  d3.when ((d3.frame? s o.frame).any fun f => n ≤ f.placed) fun d => d.closeFrame s o.frame

/-- TILE_LINE (R321, R322): a tile's TLS, data blocks and TLE. `line` is LINE of the TLS; `shape` says
that the count of data blocks and LINE[7:0] of the TLE agree; `lcrcOk` is the LCRC's result. -/
def execTileLine (tile : Fin 32) (line : Fin 16777216) (shape lcrcOk : Bool) (px : List Nat) (s : State) :
    Host.Outcome State Fault Refusal :=
  s.upd fun d =>
    let l := d.get (F.CAM_TILE_CFG_LANE tile)
    let x := d.get (F.CAM_TILE_CFG_SRC tile)
    if d.get (F.CAM_TILE_CFG_ENABLE tile) = 0 ∨ d.get (F.CAM_TLANE_STAT_STATE l) ≠ 3 then d
    else match (d.src x).tiles.find? fun o => o.trig.num % 2 ^ 24 == line.val with
      | none => d.incSat (F.CAM_TLANE_ERR_CTLERR l)
      | some o =>
        let st := if !lcrcOk then 1 else if !shape then 2 else 0
        let d1 := d.when (!lcrcOk) fun d => d.incSat (F.CAM_TLANE_ERR_LCRC l)
        let o1 := { o with parts := o.parts.filter (fun p => p.1 != tile.val) ++ [(tile.val, st, px)] }
        let d2 := d1.onSrc x fun y => { y with tiles := y.tiles.map fun z => if z.trig.num = o.trig.num then o1 else z }
        if (d2.srcTiles x).all fun t => o1.parts.any fun p => p.1 == t && p.2.1 == 0 then d2.closeTile x o1 else d2

/-- TILE_LINE_TIMEOUT (R322): TOUT µs after its trigger the oldest open line of a source closes. -/
def execTileLineTimeout (src : Fin 16) (s : State) : Host.Outcome State Fault Refusal :=
  s.upd fun d =>
    match (d.src src).tiles with
    | [] => d
    | o :: _ => (d.atTime (o.trig.time + d.get (F.CAM_SRC_FILL_TOUT src) * 1000)).closeTile src o

/-- A block from the PB8 on a tile lane. -/
def Dev.tlSend (d : Dev) (l type : Nat) (body : List Nat) : Dev := d.emit (.tile l type body)

/-- A tile lane's state changes. -/
def Dev.tlState (d : Dev) (l st : Nat) : Dev :=
  (d.put (F.CAM_TLANE_STAT_STATE l) st).put F.CAM_IRQ_STAT_LINK 1

/-- Training begins: TIDLE and THELLO leave (R323 step 1). -/
def Dev.tlTrain (d : Dev) (l : Nat) : Dev :=
  let d1 := (d.tlState l 1).onCam fun t => { t with acks := upd t.acks l fun _ => [] }
  (d1.tlSend l 0x1E []).tlSend l 0x33 [1, l]

/-- An attempt is aborted with a reason. -/
def Dev.tlAbort (d : Dev) (l why : Nat) : Dev :=
  ((d.tlState l 2).put (F.CAM_TLANE_STAT_LASTFAIL l) why).onCam fun t => { t with acks := upd t.acks l fun _ => [] }

/-- A control block of a lane: one with a bad CRC is discarded and counted (R275). -/
def Dev.tlBlock (d : Dev) (l : Nat) (good : Bool) (f : Dev → Dev) : Dev :=
  if good then f d else d.incSat (F.CAM_TLANE_ERR_CTLERR l)

/-- TLANE_ATTEMPT_START (R323): an attempt starts; `fail` says how it ends before THELLO_UP: 1 loss of
signal, 2 no lock, 3 no THELLO_UP, 0 not so. -/
def execTlaneAttemptStart (lane : Fin 4) (fail : Fin 4) (s : State) : Host.Outcome State Fault Refusal :=
  s.upd fun d =>
    let st := d.get (F.CAM_TLANE_STAT_STATE lane)
    if !d.configDone ∨ d.laneTiles lane = [] ∨ d.get (F.SRD_LANE_CFG_RATE (36 + lane.val)) = 0 ∨ (st ≠ 0 ∧ st ≠ 2) then d
    else
      let d1 := d.tlTrain lane
      if fail.val = 0 then d1 else d1.tlAbort lane fail

/-- THELLO_UP (R323): the tiles served are checked, and a TCFG leaves for each tile configured. -/
def execThelloUp (lane : Fin 4) (good : Bool) (ver : Fin 16) (tiles : Nat) (s : State) : Host.Outcome State Fault Refusal :=
  s.upd fun d => d.tlBlock lane good fun d =>
    if d.get (F.CAM_TLANE_STAT_STATE lane) ≠ 1 ∨ nth d.cam.acks lane [] ≠ [] then d
    else if ver.val ≠ 1 then d.tlAbort lane 4
    else if !((d.laneTiles lane).all fun t => bitB tiles t) then d.tlAbort lane 5
    else
      let ts := d.laneTiles lane
      let d1 := d.onCam fun t => { t with acks := upd t.acks lane fun _ => ts }
      d1.each ts fun d t =>
        let g := d.get (F.CAM_SRC_CFG_TRG (d.get (F.CAM_TILE_CFG_SRC t))) - 1
        d.tlSend lane 0x5A [t, g, d.get (F.CAM_TILE_CFG_FMT t), d.get (F.CAM_TILE_GEOM_NPIXM1 t)]

/-- TACK_UP (R323): a TCFG is acknowledged; after the last one TRUN leaves and the lane is UP. -/
def execTackUp (lane : Fin 4) (good : Bool) (tile : Fin 32) (status : Nat) (s : State) : Host.Outcome State Fault Refusal :=
  s.upd fun d => d.tlBlock lane good fun d =>
    let a := nth d.cam.acks lane []
    if d.get (F.CAM_TLANE_STAT_STATE lane) ≠ 1 ∨ !(a.contains tile.val) then d
    else if status ≠ 0 then d.tlAbort lane 6
    else
      let d1 := d.onCam fun t => { t with acks := upd t.acks lane fun l => l.filter (· != tile.val) }
      if (a.filter (· != tile.val)) = [] then (d1.tlSend lane 0x55 []).tlState lane 3 else d1

/-- TACK_TIMEOUT (R323): a TACK_UP is missing after 1 ms. -/
def execTackTimeout (lane : Fin 4) (s : State) : Host.Outcome State Fault Refusal :=
  s.upd fun d => d.when (d.get (F.CAM_TLANE_STAT_STATE lane) == 1 && nth d.cam.acks lane [] != []) fun d => d.tlAbort lane 6

/-- TLANE_DOWN (R323): an UP lane goes DOWN, source 132 is raised, and a new series starts at once. -/
def execTlaneDown (lane : Fin 4) (s : State) : Host.Outcome State Fault Refusal :=
  s.upd fun d => d.when (d.get (F.CAM_TLANE_STAT_STATE lane) == 3) fun d => (d.tlTrain lane).report 132

/-- TIDLE_UP (R323): FIXNS of the bridge. -/
def execTidleUp (lane : Fin 4) (good : Bool) (state : Fin 16) (fixns : Nat) (s : State) : Host.Outcome State Fault Refusal :=
  s.upd fun d => d.tlBlock lane good fun d =>
    d.when (d.get (F.CAM_TLANE_STAT_STATE lane) != 0 && state.val ≤ 15) fun d => d.put (F.CAM_TLANE_STAT_FIXNS lane) fixns

/-- TFAULT_UP (R320): a bridge's fault report is taken; the spec gives the PB8 no further action on it. -/
def execTfaultUp (lane : Fin 4) (good : Bool) (tile : Fin 32) (code arg : Nat) (s : State) : Host.Outcome State Fault Refusal :=
  s.upd fun d => d.tlBlock lane (good && tile.val < 32 && code < 256 && arg < 65536) fun d => d

/-! ### Trigger generators (R324 to R328) -/

/-- The position of a zone with 16 fractional bits, modulo 2^64. -/
def Dev.zonePos16 (d : Dev) (z : Nat) : Nat :=
  d.pairH (d.get (F.POS_ZONE_CFG_ENC z)) / 2 ^ 16 % 2 ^ 64

/-- A position with 16 fractional bits has been reached. -/
def reached64 (h t : Nat) : Bool := decide ((h + 2 ^ 64 - t % 2 ^ 64) % 2 ^ 64 < 2 ^ 63)

/-- The registers of a generator's shadow group (R326). -/
def trgSet (k : Nat) : List Nat := [R.CAM_TRG_TIMING k, R.CAM_TRG_PERIOD k, R.CAM_TRG_STROBE k, R.CAM_TRG_FRAME k]

/-- The hand-over of an armed set. -/
def Dev.trgHandOver (d : Dev) (k : Nat) : Dev :=
  d.when (d.get (F.CAM_TRG_STAT_SHADOW k) == 1) fun d =>
    let p := d.getAct (F.CAM_TRG_PERIOD_PERIOD k)
    let d1 := ((d.each (trgSet k) Dev.copyAct).put (F.CAM_TRG_STAT_SHADOW k) 0).incWrap (F.CAM_TRG_ACTIVE_SEQ_SEQ k)
    d1.when (d1.getAct (F.CAM_TRG_PERIOD_PERIOD k) != p) fun d => d.onGen k fun g => { g with epoch := g.epoch + 1 }

/-- A strobe event of a generator to a lamp chain (R328), in ps. -/
def Dev.strobeEvent (d : Dev) (c start stop : Nat) : Dev :=
  d.onLmp fun t => { t with chains := upd t.chains c fun x => { x with strobes := x.strobes ++ [(start, stop)] } }

/-- The sources on generator `k` take an issued trigger. -/
def Dev.trigSource (d : Dev) (k s : Nat) (r : TrigRec) (first : Bool) (skip : Bool) : Dev :=
  let ff := (if skip then ffTrgskip else 0) ||| (if r.late then ffLate else 0)
  if d.srcTile s then
    let n := (d.src s).nextFrame
    let f : CamFrame := { num := n, flags := ff, time := r.time, pos := r.pos, trigs := [r], live := true, since := d.c }
    let d1 := d.when first fun d => d.onSrc s fun x => { x with nextFrame := (n + 1) % 2 ^ 32, frames := x.frames ++ [f] }
    let num := ((d1.src s).frames.getLast?.map (·.num)).getD n
    let d2 := d1.when (!first) fun d => d.onFrame s num fun f => { f with trigs := f.trigs ++ [r], flags := f.flags ||| ff }
    let ln := (d2.gen' k).inFrame
    d2.onSrc s fun x => { x with tiles := x.tiles ++ [{ trig := r, frame := num, line := ln }] }
  else if first then
    d.onSrc s fun x => { x with gnew := some ([r], skip), frames := x.frames.map fun f => { f with live := false } }
  else match (d.src s).gnew with
    | some g => d.onSrc s fun x => { x with gnew := some (g.1 ++ [r], g.2 || skip) }
    | none => d.onSrc s fun x => { x with frames := x.frames.map fun f =>
        if f.live then { f with trigs := f.trigs ++ [r], flags := f.flags ||| ff } else f }

/-- A skipped trigger marks the frame in progress of each source (R324). -/
def Dev.skipSource (d : Dev) (s : Nat) : Dev :=
  if d.srcTile s then
    match (d.src s).frames.getLast? with
    | some f => d.onFrame s f.num fun f => { f with flags := f.flags ||| ffTrgskip }
    | none => d
  else match (d.src s).gnew with
    | some g => d.onSrc s fun x => { x with gnew := some (g.1, true) }
    | none => d.onSrc s fun x => { x with frames := x.frames.map fun f =>
        if f.live then { f with flags := f.flags ||| ffTrgskip } else f }

/-- The sources of generator `k`. -/
def Dev.genSrcs (d : Dev) (k : Nat) : List Nat := d.srcsOf fun s => d.get (F.CAM_SRC_CFG_TRG s) == k + 1

/-- Trigger T_m is issued at `t` ps: pulse, TTRIG, strobes and records. -/
def Dev.issueTrig (d0 : Dev) (k t : Nat) : Dev :=
  let g := d0.gen' k
  let d := d0.when (g.count % max 1 (d0.ntrig k) == 0) fun d => d.trgHandOver k
  let r : TrigRec := { num := g.count, m := g.m, time := t / 1000, pos := g.next, late := g.late }
  let expo := d.getAct (F.CAM_TRG_TIMING_EXP k)
  let d1 := d.when (d.get (F.CAM_TRG_CFG_PADEN k) == 1) fun d =>
    match d.padOf (0x20 + k) with
    | some n => (d.emit (.pin n 1)).emit (.pin n 0)
    | none => d
  let lanes := (List.range 4).filter fun l => d1.get (F.CAM_TLANE_STAT_STATE l) == 3 &&
    (d1.laneTiles l).any fun x => (d1.genSrcs k).contains (d1.get (F.CAM_TILE_CFG_SRC x))
  let d2 := d1.each lanes fun d l => d.tlSend l 0x69 [k, g.count % 2 ^ 24, expo]
  let w := d2.getAct (F.CAM_TRG_STROBE_SWIDTH k)
  let dl := d2.getAct (F.CAM_TRG_STROBE_SDLY k)
  let chains := (List.range 4).filter fun c => d2.bit (F.CAM_TRG_CFG_LMPMASK k) c
  let d3 := d2.when (w != 0 && d2.running) fun d => d.each chains fun d c => d.strobeEvent c (t + dl * 1000) (t + (dl + w) * 1000)
  let first := g.inFrame = 0
  let d4 := d3.each (d3.genSrcs k) fun d s => d.trigSource k s r first (first && g.skip)
  let last := decide (d4.ntrig k ≤ g.inFrame + 1)
  let per := d4.getAct (F.CAM_TRG_PERIOD_PERIOD k)
  let d5 := d4.onGen k fun g =>
    { g with next := (g.next + per) % 2 ^ 64, m := g.m + 1, count := g.count + 1, late := false, skip := false,
             inFrame := if last then 0 else g.inFrame + 1, last := some t, stopping := g.stopping && !last }
  let d6 := d5.incWrap (F.CAM_TRG_COUNT_COUNT k)
  d6.when (last && g.stopping) fun d => d.put (F.CAM_TRG_STAT_RUNNING k) 0

/-- TRIGGER_DUE (R324): at `t` ps the position has reached T_m of generator `k`: the trigger is issued,
or skipped when it comes too soon after the one before. -/
def execTriggerDue (k : Fin 4) (t : Nat) (s : State) : Host.Outcome State Fault Refusal :=
  s.upd fun d0 =>
    let d := d0.posAt t
    let g := d.gen' k
    if d.get (F.CAM_TRG_STAT_RUNNING k) = 0 ∨ !d.capturing ∨
        !(reached64 (d.zonePos16 (d.get (F.CAM_TRG_CFG_ZONE k))) g.next) then d
    else if g.last.any fun l => decide (t - l < d.getAct (F.CAM_TRG_TIMING_MINPER k) * 10000) then
      let per := d.getAct (F.CAM_TRG_PERIOD_PERIOD k)
      let d1 := d.onGen k fun g => { g with next := (g.next + per) % 2 ^ 64, m := g.m + 1, skip := g.skip || g.inFrame == 0 }
      let d2 := d1.when (g.inFrame != 0) fun d => d.each (d.genSrcs k) Dev.skipSource
      ((d2.incSat (F.CAM_TRG_STAT_SKIPCNT k)).put F.CAM_IRQ_STAT_TRGSKIP 1).report 133
    else d.issueTrig k t

/-- The start position of a generator. -/
def Dev.trgPos (d : Dev) (k : Nat) : Nat := d.get64 (R.CAM_TRG_POSLO k) (R.CAM_TRG_POSHI k)

/-- The checks of a start (R325), in order. -/
def Dev.trgArmCheck (d : Dev) (k : Nat) (lateOk : Bool) : Nat :=
  let z := d.get (F.CAM_TRG_CFG_ZONE k)
  firstFail [
    (d.get (F.CAM_TRG_CFG_ENABLE k) == 0 || decide (2 ^ 48 ≤ d.trgPos k), sBadValue),
    (!d.capturing, sBadState),
    (d.get (F.CAM_TRG_STAT_WAITING k) == 1 || d.get (F.CAM_TRG_STAT_RUNNING k) == 1, sBusy),
    (d.get (F.CAM_TRG_CFG_START k) == 0 && passed (d.zonePos z) (d.trgPos k) && !lateOk, sLate)]

/-- Starts a generator: an armed shadow is copied before the first trigger. -/
def Dev.trgArm (d0 : Dev) (k : Nat) : Dev :=
  let d := d0.trgHandOver k
  let z := d.get (F.CAM_TRG_CFG_ZONE k)
  if d.get (F.CAM_TRG_CFG_START k) = 1 then
    (d.put (F.CAM_TRG_STAT_WAITING k) 1).put (F.CAM_TRG_STAT_LATE k) 0
  else if passed (d.zonePos z) (d.trgPos k) then d.startGen k (d.zonePos16 z) true
  else d.startGen k (d.trgPos k * 2 ^ 16) false

/-- Stops a generator: at once while it waits, else after the last trigger of the frame in progress. -/
def Dev.trgStop (d : Dev) (k : Nat) : Dev :=
  if d.get (F.CAM_TRG_STAT_WAITING k) = 1 then d.put (F.CAM_TRG_STAT_WAITING k) 0
  else if d.get (F.CAM_TRG_STAT_RUNNING k) = 1 then
    if (d.gen' k).inFrame = 0 then d.put (F.CAM_TRG_STAT_RUNNING k) 0
    else d.onGen k fun g => { g with stopping := true }
  else d

/-! ### Sharing the pipeline (R332) -/

/-- The next source that holds a whole line, from `s` on, within `n` tries. -/
def Dev.nextSrc (d : Dev) : Nat → Nat → Option Nat
  | 0, _ => none
  | n + 1, s => if (d.src (s % 16)).buf != [] then some (s % 16) else d.nextSrc n (s + 1)

/-- The round robin's grant: the source and the pointer state after it. -/
def Dev.grantSrc (d : Dev) : Option (Nat × Nat) :=
  if 0 < d.cam.left ∧ (d.src d.cam.ptr).buf ≠ [] then some (d.cam.ptr, d.cam.left - 1)
  else (d.nextSrc 16 (d.cam.ptr + 1)).map fun s => (s, d.get (F.CAM_SRC_CFG_WEIGHT s) - 1)

/-! ### Checks at CONFIG_DONE (R314) -/

/-- The tiles of a source fill every column exactly once, in one format (R319). -/
def Dev.tilesFill (d : Dev) (s : Nat) : Bool :=
  let ts := d.srcTiles s
  let w := d.srcWidth s
  (ts.all fun t => d.get (F.CAM_TILE_CFG_FMT t) == d.srcFmt s) &&
  (ts.all fun t => let (_, n, x0) := d.tileSpan t; decide (x0 + n ≤ w)) &&
  (List.range w).all fun x => (ts.filter fun t => let (_, n, x0) := d.tileSpan t; decide (x0 ≤ x ∧ x < x0 + n)).length == 1

/-- An output's settings keep R340. -/
def Dev.outOk (d : Dev) (o : Nat) : Bool :=
  let dest := d.get (F.VIS_OUT_CFG_DEST o)
  let fmt := d.get (F.VIS_OUT_CFG_FMT o)
  (dest % 2 == 0 || (fmt == 1 && d.get (F.VIS_OUT_SCALE_XDIVM1 o) == 0 && d.get (F.VIS_OUT_SCALE_YDIVM1 o) == 0 &&
    ((List.range 4).filter fun p => d.get (F.VIS_OUT_CFG_ENABLE p) == 1 && d.get (F.VIS_OUT_CFG_DEST p) % 2 == 1).length ≤ 1)) &&
  (dest / 4 == 0 || fmt == 3)

/-- A source breaks R314, R315, R317, R318, R319, R327, R337, R338, R340 or R345. -/
def Dev.srcBreach (d : Dev) (s : Nat) : Bool :=
  let w := d.srcWidth s
  let n := d.srcLines s
  let dt := d.srcDt s
  let g := d.get (F.CAM_SRC_CFG_TRG s)
  let tile := d.srcTile s
  let ntr := d.get (F.CAM_TRG_FRAME_NTRIG (g - 1))
  let twin := !tile && (d.srcsOf fun x => x != s && !(d.srcTile x) && d.get (F.CAM_SRC_CFG_PORT x) == d.get (F.CAM_SRC_CFG_PORT s) &&
    d.get (F.CAM_SRC_CFG_VC x) == d.get (F.CAM_SRC_CFG_VC s) && d.srcDt x == dt) != []
  let outs := (List.range 4).filter fun o => d.get (F.VIS_OUT_CFG_ENABLE o) == 1 && d.get (F.VIS_OUT_CFG_SRC o) == s
  n == 0 || 16384 < w || d.srcCap s < 2 ||
  (!tile && (((dt == 0x2B || dt == 0x2D) && w % 4 != 0) || ((dt == 0x2C || dt == 0x1E) && w % 2 != 0))) ||
  (tile && (g == 0 || ntr != n || !(d.tilesFill s))) || twin ||
  (d.get (F.VIS_SRC_CFG_MERGE s) == 1 && (n % 2 == 1 || d.get (F.VIS_SRC_MERGE_RATIO s) < 256)) ||
  (d.get (F.VIS_SRC_CFG_DEMOSAIC s) == 1 && (tile || dt < 0x2A)) ||
  (outs.any fun o => !(d.outOk o)) ||
  (d.insSrc == some s && (!([16, 32, 48, 64].contains n) || (!tile && (g == 0 || ntr != n))))

/-- What R327, R339 and the generators' ZONE ask of the whole configuration. -/
def Dev.camConfigBad (d : Dev) : Bool :=
  ((List.range 4).any fun k => d.get (F.CAM_TRG_CFG_ENABLE k) == 1 && d.get (F.RAS_ZONE_CFG_VALID (d.get (F.CAM_TRG_CFG_ZONE k))) == 0) ||
  ((List.range 4).any fun o => d.get (F.VIS_OUT_CFG_ENABLE o) == 1 &&
    d.srcWidth (d.get (F.VIS_OUT_CFG_SRC o)) < d.get (F.VIS_OUT_CROP_CX0 o) + d.get (F.VIS_OUT_CROP_CW o))

/-! ### The CAM registers -/

def camRngs : List Rng :=
  [⟨F.CAM_PORT_CFG_LANES 0, 0, 2⟩, ⟨F.CAM_SRC_CFG_WEIGHT 0, 1, 15⟩, ⟨F.CAM_SRC_CFG_TRG 0, 0, 4⟩,
   ⟨F.CAM_SRC_GEOM_WIDTHM1 0, 0, 16383⟩, ⟨F.CAM_SRC_BUF_NSEG 0, 1, 96⟩, ⟨F.CAM_TRG_TIMING_MINPER 0, 50, 65535⟩,
   ⟨F.CAM_TRG_TIMING_EXP 0, 1, 16383⟩, ⟨F.CAM_TRG_PERIOD_PERIOD 0, 0x400000, 2 ^ 32 - 1⟩,
   ⟨F.CAM_TRG_FRAME_NTRIG 0, 1, 65535⟩, ⟨F.CAM_TILE_CFG_FMT 0, 0, 3⟩]

/-- A ring at an address, of so many bytes, lies in shared SRAM or DRAM. -/
def Dev.ringOk (d : Dev) (a n : Nat) : Bool := !d.full || n == 0 || inSram a n || d.inDram a n

/-- The descriptor ring that a write of one of its registers would give. -/
def Dev.fdRing (d : Dev) (w : Wr) : Nat × Nat :=
  let v (r : Nat) : Nat := if w.addr = r then w.new else (d.rd r).toNat
  (v R.CAM_FDBASELO + 2 ^ 32 * (v R.CAM_FDBASEHI % 256), 32 * v R.CAM_FDSIZE)

/-- Legality that ranges alone do not say. -/
def Dev.camLegal (d : Dev) (w : Wr) : Bool :=
  if w.at R.CAM_FDSIZE then
    (w.new == 0 || (16 ≤ w.new && w.new ≤ 65536)) && d.ringOk (d.fdRing w).1 (d.fdRing w).2
  else if w.at R.CAM_FDBASELO then w.new % 32 == 0 && d.ringOk (d.fdRing w).1 (d.fdRing w).2
  else if w.at R.CAM_FDBASEHI then d.ringOk (d.fdRing w).1 (d.fdRing w).2
  else if w.at R.CAM_FDRD then
    let ahead := (w.new + 2 ^ 32 - d.get F.CAM_FDWR_COUNT) % 2 ^ 32
    ahead == 0 || 2 ^ 31 ≤ ahead
  else if w.at (R.CAM_PORT_CFG 0) then
    let m := (List.range 4).map fun i => bits w.new (8 + 2 * i) 2
    m.eraseDups.length == 4
  else if w.at (R.CAM_SRC_CFG 0) then
    bitB w.new 30 || !(bitB w.new 31) || [0x1E, 0x24, 0x2A, 0x2B, 0x2C, 0x2D].contains (bits w.new 18 6)
  else if w.at (R.CAM_SRC_BUF 0) then decide (bits w.new 0 7 + bits w.new 8 7 ≤ 96)
  else if w.at (R.CAM_SRC_FILL 0) then !(d.srcTile w.i && bits w.new 16 16 == 0)
  else if w.at (R.CAM_TILE_GEOM 0) then decide (bits w.new 0 7 ≤ bits w.new 7 11)
  else true

/-- Checks 5 and 6 of a write to CAM. -/
def camCheck (d : Dev) (w : Wr) : Nat :=
  let k := w.i
  let held := d.get (F.CAM_TRG_STAT_WAITING k) == 1 || d.get (F.CAM_TRG_STAT_RUNNING k) == 1
  if w.at (R.CAM_TRG_ARM 0) then
    let arm := bitB w.new 0
    firstFail [(arm && bitB w.new 2, sBadValue),
      (arm && d.trgArmCheck k (bitB w.new 1) != sOk, d.trgArmCheck k (bitB w.new 1))]
  else firstFail [
    (rngBad camRngs w || !(d.camLegal w), sBadValue),
    (w.at (R.CAM_TRG_COMMIT 0) && bitB w.new 0 && decide (10 * d.get (F.CAM_TRG_TIMING_MINPER k) <
      d.get (F.CAM_TRG_STROBE_SDLY k) + d.get (F.CAM_TRG_STROBE_SWIDTH k)), sBadValue),
    (w.at (R.CAM_PORT_CFG 0) && bitB w.new 31 && !(d.claimed 8 k), sConflict),
    (w.at (R.CAM_SRC_BUF 0) && !((List.range (bits w.new 8 7)).all fun j => d.claimed 5 (bits w.new 0 7 + j)), sConflict),
    (w.at R.CAM_FDSIZE && d.get F.CAM_FDWR_COUNT != d.get F.CAM_FDRD_COUNT, sBadState),
    ((w.at (R.CAM_TRG_POSLO 0) || w.at (R.CAM_TRG_POSHI 0)) && held, sBusy)]

/-- CAM_STATCLR. -/
def Dev.camStatClr (d : Dev) (v : Nat) : Dev :=
  let d1 := d.each (List.range 16) fun d s => d.when (bitB v (16 + s)) fun d =>
    ((d.wrN (R.CAM_SRC_DROPCNT s) 0).wrN (R.CAM_SRC_BADCNT s) 0).put (F.CAM_SRC_LEVEL_MAXLINES s) 0
  let d2 := d1.when (bitB v 8) fun d => d.wrN R.CAM_FDLOST 0
  let d3 := d2.each (List.range 4) fun d l => d.when (bitB v (4 + l)) fun d => d.wrN (R.CAM_TLANE_ERR l) 0
  d3.each (List.range 4) fun d p => d.when (bitB v p) fun d =>
    (d.wrN (R.CAM_PORT_ERR p) 0).put (F.CAM_PORT_STAT_HDRCOR p) 0

/-- What a write to CAM does beside storing its fields. -/
def camApply (d : Dev) (w : Wr) : Dev :=
  let k := w.i
  if w.at (R.CAM_TRG_ARM 0) then
    if bitB w.new 0 then d.trgArm k else d.when (bitB w.new 2) fun d => d.trgStop k
  else if w.at (R.CAM_TRG_COMMIT 0) then d.when (bitB w.new 0) fun d => d.put (F.CAM_TRG_STAT_SHADOW k) 1
  else if w.at R.CAM_FDSIZE then (d.wrN R.CAM_FDWR 0).wrN R.CAM_FDRD 0
  else if w.at R.CAM_STATCLR then d.camStatClr w.new
  else d

end Sys2Proof.Machine
end

