-- ==== Sys2Proof/Machine/Vis.lean ====
section
/-! DEFINITION. VIS: the stages of the pipeline (R336 to R338), its outputs (R339, R340), and the VIS
registers. -/

namespace Sys2Proof.Machine

/-! ### Stages 1 to 5 -/

/-- A word of the table SRAM. -/
def Dev.visTbl (d : Dev) (i : Nat) : Nat := spGet 0 d.vis.tbl i

/-- A raw value of so many bits cut to 10 bits. -/
def cut10 (w v : Nat) : Nat := if w = 8 then 4 * v % 1024 else (v >>> (w - 10)) % 1024

/-- A channel of a YUV pixel in 10 bits: BT.601 over the full range (entry 5), in 1/587,000. -/
def yuvChannel (c y u v : Nat) : Nat :=
  let u' : Int := (u : Int) - 128
  let v' : Int := (v : Int) - 128
  let x : Int := 587000 * (y : Int) + (if c = 0 then 822974 * v' else if c = 1 then -(202008 * u' + 419198 * v') else 1040164 * u')
  let e : Int := 4 * x
  let up : Int := if e % 587000 ≠ 0 ∧ Config.yuvRoundsUp c y u v then 1 else 0
  (clampI 0 1023 (e / 587000 + up)).toNat

/-- The pixels of a line `U Y V Y …` as 10-bit RGB channels. -/
def yuvRgb : List Nat → List (Nat × Nat × Nat)
  | u :: y0 :: v :: y1 :: r =>
    let px (y : Nat) : Nat × Nat × Nat := (yuvChannel 0 y u v, yuvChannel 1 y u v, yuvChannel 2 y u v)
    px y0 :: px y1 :: yuvRgb r
  | _ => []

/-- Every third element from the first. -/
def thirds : List Nat → List Nat
  | a :: _ :: _ :: r => a :: thirds r
  | l => l.take 1

/-- The channels of a camera line as 10-bit values. -/
def Dev.rawChannels (d : Dev) (s : Nat) (px : List Nat) : List (List Nat) :=
  if !(d.srcTile s) && d.srcDt s == 0x1E then
    let l := yuvRgb px
    [l.map (·.1), l.map (·.2.1), l.map (·.2.2)]
  else
    let l := px.map (cut10 (d.srcBits s))
    if d.srcComps s = 3 then [thirds l, thirds (l.drop 1), thirds (l.drop 2)] else [l]

/-- Stages 1 and 2 on a pixel of channel `c` at column `col`. -/
def Dev.flatten (d : Dev) (s c col x : Nat) : Nat :=
  let v := d.visTbl (0x30000 + 3072 * s + 1024 * c + x) % 65536
  let b := d.get (F.VIS_SRC_CFG_FFBANK s)
  if b = 7 then v
  else
    let w := d.visTbl (0xC000 * b + 3 * col + c)
    min 65535 ((v - bits w 0 12) * bits w 16 16 / 4096)

/-- A line after stages 1 and 2. -/
def Dev.linearise (d : Dev) (s : Nat) (px : List Nat) : List (List Nat) :=
  (d.rawChannels s px).mapIdx fun c l => l.mapIdx fun col x => d.flatten s c col x

/-- The merged value of a long and a short exposure (R337). -/
def Dev.merge (d : Dev) (s l sh : Nat) : Nat :=
  if l < d.get (F.VIS_SRC_MERGE_KNEE s) then l else min 65535 (sh * d.get (F.VIS_SRC_MERGE_RATIO s) / 256)

/-- Stage 3 on a line: `none` while the short exposure is still to come. -/
def Dev.mergeStage (d : Dev) (s : Nat) (l : VisLine) : Option VisLine × Dev :=
  if d.get (F.VIS_SRC_CFG_MERGE s) = 0 then (some l, d)
  else if l.line % 2 = 0 then (none, d.onVis fun t => { t with srcs := upd t.srcs s fun x => { x with long := some l } })
  else
    match (nth d.vis.srcs s {}).long with
    | none => (none, d)
    | some a =>
      let d1 := d.onVis fun t => { t with srcs := upd t.srcs s fun x => { x with long := none } }
      let ch := List.zipWith (List.zipWith (d.merge s)) a.ch l.ch
      (if a.frame = l.frame then some { a with line := l.line / 2, flags := a.flags ||| l.flags, ch := ch } else none, d1)

/-- An index mirrored about the edges of `n` places. -/
def mirror (n : Nat) (i : Int) : Nat :=
  let j : Int := if i < 0 then -i else if (n : Int) ≤ i then 2 * ((n : Int) - 1) - i else i
  (clampI 0 ((n : Int) - 1) j).toNat

/-- A mosaic: columns, lines of the frame, and the lines at hand. -/
structure Mosaic where
  w : Nat
  h : Nat
  lines : List VisLine
  bayer : Nat
  deriving DecidableEq, Repr

/-- The raw value of a site. -/
def Mosaic.at' (m : Mosaic) (x y : Int) : Int :=
  let l := m.lines.find? fun l => l.line == mirror m.h y
  ((l.map fun l => nth (nth l.ch 0 []) (mirror m.w x) 0).getD 0 : Nat)

/-- The colour of a site under R338. -/
def Mosaic.colour (m : Mosaic) (x y : Int) : Nat :=
  let k := 2 * (mirror m.h y % 2) + mirror m.w x % 2
  nth (nth [[0, 1, 1, 2], [1, 0, 2, 1], [1, 2, 0, 1], [2, 1, 1, 0]] m.bayer []) k 0

def clamp16 (i : Int) : Int := clampI 0 65535 i

/-- Green at a site. -/
def Mosaic.green (m : Mosaic) (x y : Int) : Int :=
  let v := m.at' x y
  if m.colour x y = 1 then v
  else
    let gl := m.at' (x - 1) y
    let gr := m.at' (x + 1) y
    let gu := m.at' x (y - 1)
    let gd := m.at' x (y + 1)
    let lh := 2 * v - m.at' (x - 2) y - m.at' (x + 2) y
    let lv := 2 * v - m.at' x (y - 2) - m.at' x (y + 2)
    let dh := (gl - gr).natAbs + lh.natAbs
    let dv := (gu - gd).natAbs + lv.natAbs
    let gh := (gl + gr).tdiv 2 + lh.tdiv 4
    let gv := (gu + gd).tdiv 2 + lv.tdiv 4
    clamp16 (if dh < dv then gh else if dv < dh then gv else (gh + gv).tdiv 2)

/-- Red (0) or blue (2) at a site. -/
def Mosaic.redBlue (m : Mosaic) (c : Nat) (x y : Int) : Int :=
  if m.colour x y = c then m.at' x y
  else
    let near : List (Int × Int) :=
      if m.colour x y = 1 then (if m.colour (x + 1) y = c then [(x - 1, y), (x + 1, y)] else [(x, y - 1), (x, y + 1)])
      else [(x - 1, y - 1), (x + 1, y - 1), (x - 1, y + 1), (x + 1, y + 1)]
    let sum : Int := near.foldl (fun a p => a + m.at' p.1 p.2 - m.green p.1 p.2) 0
    clamp16 (m.green x y + sum.tdiv near.length)

/-- A line of a mosaic as RGB. -/
def Mosaic.rgb (m : Mosaic) (y : Nat) : List (List Nat) :=
  let cols := List.range m.w
  [cols.map fun x => (m.redBlue 0 x y).toNat, cols.map fun x => (m.green x y).toNat, cols.map fun x => (m.redBlue 2 x y).toNat]

/-- Lines of a frame after the merge. -/
def Dev.visLines (d : Dev) (s : Nat) : Nat :=
  if d.get (F.VIS_SRC_CFG_MERGE s) = 1 then d.srcLines s / 2 else d.srcLines s

/-- Stage 4: the lines that come out when a line enters; each needs the three lines after it. -/
def Dev.demosaic (d : Dev) (s : Nat) (l : VisLine) : List VisLine × Dev :=
  if d.get (F.VIS_SRC_CFG_DEMOSAIC s) = 0 then ([l], d)
  else
    let x := nth d.vis.srcs s {}
    let h := d.visLines s
    let keep := x.win.filter fun a => a.frame == l.frame
    let first := if keep = [] then 0 else x.outLine
    let win := keep ++ [l]
    let m : Mosaic := { w := d.srcWidth s, h := h, lines := win, bayer := d.get (F.VIS_SRC_CFG_BAYER s) }
    let stop := if l.line + 1 = h then h else l.line - 2
    let out := ((List.range (stop - first)).map (first + ·)).filterMap fun y =>
      (win.find? fun a => a.line == y).map fun a => { a with ch := m.rgb y }
    let rest := if l.line + 1 = h then [] else win.filter fun a => stop ≤ a.line + 3
    (out, d.onVis fun t => { t with srcs := upd t.srcs s fun x => { x with win := rest, outLine := max first stop } })

/-- An entry of the colour matrix. -/
def Dev.ccm (d : Dev) (s i j : Nat) : Int :=
  let k := 3 * i + j
  sx 16 (bits (d.get (F.VIS_SRC_CCM_COEF s (k / 2))) (16 * (k % 2)) 16)

/-- Stage 5: the colour matrix of a source with three channels. -/
def Dev.colour (d : Dev) (s : Nat) (l : VisLine) : VisLine :=
  match l.ch with
  | [r, g, b] =>
    let row (i : Nat) : List Nat := (r.zip (g.zip b)).map fun p =>
      (clamp16 ((d.ccm s i 0 * p.1 + d.ccm s i 1 * p.2.1 + d.ccm s i 2 * p.2.2) / 4096)).toNat
    { l with ch := [row 0, row 1, row 2] }
  | _ => l

/-! ### Outputs (R339, R340) -/

/-- D is at least k: -256 × log10(v / 32768) is at least k - 1/2. -/
def densGe (v k : Nat) : Bool := decide (10 ^ (2 * k - 1) * v ^ 512 ≤ 32768 ^ 512)

/-- The greatest k below 2^n × 2 from `k` on with D at least k, bit by bit. -/
def densSearch (v : Nat) : Nat → Nat → Nat
  | 0, k => k
  | n + 1, k => densSearch v n (if densGe v (k + 2 ^ n) then k + 2 ^ n else k)

/-- The density of a linear value (R339). -/
def density (v : Nat) : Nat :=
  if v = 0 then 1023
  else if 32915 < v then Config.brightDensity v % 1024
  else densSearch v 10 0

/-- The three channels of a line; the absent ones of a mono source are open. -/
def threeChannels (ch : List (List Nat)) : List (List Nat) :=
  match ch with
  | [v] => [v, v.map fun x => Config.absentChannel 1 x % 65536, v.map fun x => Config.absentChannel 2 x % 65536]
  | _ => ch

/-- Sums of `l` over groups of `n`, whole groups only. -/
def groupSums (n : Nat) : Nat → List Nat → List Nat
  | 0, _ => []
  | k + 1, l => if l.length < n ∨ n = 0 then [] else (l.take n).sum :: groupSums n k (l.drop n)

/-- The bytes of a line in a format. -/
def Dev.fmtBytes (d : Dev) (o : Nat) (ch : List (List Nat)) : List Byte :=
  let r := nth ch 0 []
  let px := r.zip ((nth ch 1 []).zip (nth ch 2 []))
  match d.get (F.VIS_OUT_CFG_FMT o) with
  | 0 => (px.map fun p => leBytes 2 p.1 ++ leBytes 2 p.2.1 ++ leBytes 2 p.2.2 ++ leBytes 2 0).flatten
  | 1 => (px.map fun p => leBytes 4 (density p.1 + 1024 * density p.2.1 + 1048576 * density p.2.2)).flatten
  | 2 => px.map fun p => BitVec.ofNat 8 (min 255 ((77 * p.1 + 150 * p.2.1 + 29 * p.2.2) / 256 / 128))
  | _ =>
    let s := (nth ch (d.get (F.VIS_OUT_CFG_ARCCH o)) []).map fun v => min 15 (density v / 64)
    (List.range ((s.length + 1) / 2)).map fun i => BitVec.ofNat 8 (16 * nth s (2 * i) 0 + nth s (2 * i + 1) 0)

/-- `n` rounded up to a multiple of 64. -/
def up64 (n : Nat) : Nat := (n + 63) / 64 * 64

def Dev.outWidth (d : Dev) (o : Nat) : Nat := d.get (F.VIS_OUT_CROP_CW o) / (d.get (F.VIS_OUT_SCALE_XDIVM1 o) + 1)

/-- Whether an output goes to the archive. -/
def Dev.outArchive (d : Dev) (o : Nat) : Bool := bitB (d.get (F.VIS_OUT_CFG_DEST o)) 2

/-- Bytes of a ring entry. -/
def Dev.entryBytes (d : Dev) (o : Nat) : Nat :=
  let w := d.outWidth o
  if d.outArchive o then up64 ((w + 1) / 2)
  else
    let px := nth [8 * w, 4 * w, w, (w + 1) / 2] (d.get (F.VIS_OUT_CFG_FMT o)) w
    up64 (64 + px)

/-- The line descriptor (R329). -/
def lineDesc (s flags line frame time pos : Nat) : List Byte :=
  leBytes 1 s ++ leBytes 1 flags ++ leBytes 2 line ++ leBytes 4 frame ++ leBytes 8 time ++ leBytes 8 pos

/-- A line or a band of an output is lost. -/
def Dev.outLost (d : Dev) (o : Nat) : Dev :=
  ((d.incSat (F.VIS_OUT_LOST_COUNT o)).put F.VIS_IRQ_STAT_OUTLOST 1).report 137

/-- An entry goes to the ring of an output; its place, unless the ring is full. -/
def Dev.ringPut (d : Dev) (o : Nat) (bs : List Byte) : Dev × Bool :=
  let w := d.get (F.VIS_OUT_WR_COUNT o)
  let n := d.get (F.VIS_OUT_SIZE_LINES o)
  if n ≤ (w + 2 ^ 32 - d.get (F.VIS_OUT_RD_COUNT o)) % 2 ^ 32 then (d.outLost o, false)
  else
    let e := d.entryBytes o
    let a := d.addr40 (R.VIS_OUT_DSTLO o) (R.VIS_OUT_DSTHI o) + w % n * e
    ((d.stBs a (bs ++ List.replicate (e - bs.length) 0)).put (F.VIS_OUT_WR_COUNT o) (w + 1), true)

/-- An archive line is written; each time ARCBH of them are, a band is complete. -/
def Dev.arcPut (d : Dev) (o : Nat) (bs : List Byte) : Dev :=
  let w := d.get (F.VIS_OUT_WR_COUNT o)
  let bh := d.get (F.VIS_OUT_CFG_ARCBHM1 o) + 1
  let (d1, ok) := d.ringPut o bs
  if !ok then d1
  else d1.onVis fun t => { t with outs := upd t.outs o fun x =>
    if bh ≤ x.arc + 1 then { x with arc := 0, bands := x.bands ++ [(w + 1 + 2 ^ 32 - bh) % 2 ^ 32] } else { x with arc := x.arc + 1 } }

/-- A finished block of an output goes to its destinations. -/
def Dev.outLine (d : Dev) (o s : Nat) (l : VisLine) (sums : List (List Nat)) (n : Nat) : Dev :=
  let xd := d.get (F.VIS_OUT_SCALE_XDIVM1 o) + 1
  let ch := sums.map fun c => c.map fun v => v / (xd * n)
  let line := l.line / (d.get (F.VIS_OUT_SCALE_YDIVM1 o) + 1)
  let dest := d.get (F.VIS_OUT_CFG_DEST o)
  let d1 := d.when (bitB dest 0 && d.insSrc == some s) fun d => d.onIns fun t => { t with lines := t.lines ++
    [{ frame := l.frame, flags := l.flags, line := l.line, ch := ch.map fun c => c.map density }] }
  let bs := d1.fmtBytes o ch
  if bitB dest 2 then d1.arcPut o bs
  else d1.when (bitB dest 1) fun d =>
    (d.ringPut o (lineDesc s l.flags line l.frame l.time l.pos ++ List.replicate 40 0 ++ bs)).1

/-- A line enters an output: it is cropped and joins the block in progress; the last line of a block or
of the frame ends the block. -/
def Dev.outTake (d : Dev) (o s : Nat) (l : VisLine) : Dev :=
  let cx := d.get (F.VIS_OUT_CROP_CX0 o)
  let xd := d.get (F.VIS_OUT_SCALE_XDIVM1 o) + 1
  let yd := d.get (F.VIS_OUT_SCALE_YDIVM1 o) + 1
  let cols := (threeChannels l.ch).map fun c => groupSums xd (c.length + 1) ((c.drop cx).take (d.get (F.VIS_OUT_CROP_CW o)))
  let b := match (nth d.vis.outs o {}).blk with
    | some (f, sums, n) => if f.frame = l.frame then
        ({ f with flags := f.flags ||| l.flags }, List.zipWith (List.zipWith (· + ·)) sums cols, n + 1) else (l, cols, 1)
    | none => (l, cols, 1)
  let (f, sums, n) := b
  if n = yd ∨ l.line + 1 = d.visLines s then
    (d.onVis fun t => { t with outs := upd t.outs o fun x => { x with blk := none } }).outLine o s f sums n
  else d.onVis fun t => { t with outs := upd t.outs o fun x => { x with blk := some (f, sums, n) } }

/-- Stages 3 to 6 on a line that has passed the first two. -/
def Dev.visLine (d : Dev) (s : Nat) (l : VisLine) : Dev :=
  match d.mergeStage s l with
  | (none, d1) => d1
  | (some m, d1) =>
    let (out, d2) := d1.demosaic s m
    let outs := (List.range 4).filter fun o => d.get (F.VIS_OUT_CFG_ENABLE o) == 1 && d.get (F.VIS_OUT_CFG_SRC o) == s
    d2.each out fun d l => d.each outs fun d o => d.outTake o s (d.colour s l)

/-- LINE_GRANT (R332, R336): the pipeline takes a whole line by weighted round robin. `err` 1 is an
uncorrectable error of the line's buffer (R333), 2 one of the table SRAM (R341). -/
def execLineGrant (err : Fin 3) (s : State) : Host.Outcome State Fault Refusal :=
  s.upd fun d =>
    match d.grantSrc with
    | none => d
    | some (x, left) =>
      let d0 := d.onCam fun t => { t with ptr := x, left := left }
      match (d0.src x).buf with
      | [] => d0
      | l :: rest =>
        let d1 := (d0.onSrc x fun y => { y with buf := rest }).syncBuf x
        if err = 1 then d1.dropFrame x l.frame true
        else if err = 2 then
          let d2 := (d1.discardFrame x l.frame (ffDropped ||| ffEcc)).onVis fun t => { t with eccBad := true }
          (d2.put F.VIS_IRQ_STAT_ECC 1).report 136
        else d1.visLine x { flags := l.flags, line := l.line, frame := l.frame, time := l.time, pos := l.pos, ch := d1.linearise x l.px }

/-- The compressor job of an archive band that begins at ring entry `w` (R340). -/
def Dev.bandJob (d : Dev) (o w : Nat) : BrcJob :=
  let wd := d.outWidth o
  let st := d.entryBytes o
  let bh := d.get (F.VIS_OUT_CFG_ARCBHM1 o) + 1
  { src := d.addr40 (R.VIS_OUT_DSTLO o) (R.VIS_OUT_DSTHI o) + w % max 1 (d.get (F.VIS_OUT_SIZE_LINES o)) * st, stride := st,
    width := wd, lines := bh, bw := up64 (min wd 4096), bh := bh, depth := 4, effort := d.get (F.VIS_OUT_CFG_ARCEFF o), planes := 1 }

/-- The status that BRC gives a job of VIS (R163). -/
def Dev.jobStatus (d : Dev) (j : BrcJob) : Nat :=
  let none' := d.get F.BRC_OUTSIZE_BYTES = 0
  firstFail [(!none' && !(d.jobOk j), sBadValue), (4 ≤ d.ras.jobs.length, sNoRoom),
    (none' || !(d.running || d.st? = stSafe), sBadState)]

/-- ARCHIVE_BAND (R340): the oldest complete band of an output is queued for the compressor, or dropped
when BRC rejects its job. -/
def execArchiveBand (o : Fin 4) (s : State) : Host.Outcome State Fault Refusal :=
  s.upd fun d =>
    match (nth d.vis.outs o {}).bands with
    | [] => d
    | w :: rest =>
      let d1 := d.onVis fun t => { t with outs := upd t.outs o fun x => { x with bands := rest } }
      let j := d1.bandJob o w
      if d1.jobStatus j = sOk then d1.brcPush j
      else
        let d2 := ((d1.incSat (F.VIS_OUT_LOST_COUNT o)).put F.VIS_IRQ_STAT_ARCSKIP 1).report 142
        d2.put (F.VIS_OUT_RD_COUNT o) (d2.get (F.VIS_OUT_RD_COUNT o) + d2.get (F.VIS_OUT_CFG_ARCBHM1 o) + 1)

/-! ### The VIS registers -/

def visRngs : List Rng :=
  [⟨F.VIS_TBLADDR_VALUE, 0, 0x3BFFF⟩, ⟨F.VIS_OUT_CFG_ARCCH 0, 0, 2⟩, ⟨F.VIS_OUT_CFG_ARCBHM1 0, 0, 255⟩,
   ⟨F.VIS_OUT_CROP_CW 0, 1, 16384⟩, ⟨F.VIS_OUT_SIZE_LINES 0, 2, 2 ^ 20⟩]

/-- Legality that ranges alone do not say. -/
def Dev.visLegal (d : Dev) (w : Wr) : Bool :=
  let o := w.i
  if w.at (R.VIS_SRC_CFG 0) then !(4 ≤ w.val (F.VIS_SRC_CFG_FFBANK 0) && w.val (F.VIS_SRC_CFG_FFBANK 0) ≤ 6)
  else if w.at R.VIS_TBLDATA then decide (d.get F.VIS_TBLADDR_VALUE < 0x3C000)
  else if w.at (R.VIS_OUT_RD 0) then
    let ahead := (w.new + 2 ^ 32 - d.get (F.VIS_OUT_WR_COUNT o)) % 2 ^ 32
    ahead == 0 || 2 ^ 31 ≤ ahead
  else if w.at (R.VIS_OUT_DSTLO 0) then w.new % 64 == 0
  else true

/-- The ring of an output that writes one: its address and bytes (R503). -/
def Dev.outRing (d : Dev) (o : Nat) : Nat × Nat :=
  (d.addr40 (R.VIS_OUT_DSTLO o) (R.VIS_OUT_DSTHI o), d.get (F.VIS_OUT_SIZE_LINES o) * d.entryBytes o)

/-- The ring of some output leaves the addressable DRAM (R503). -/
def Dev.visRingBad (d : Dev) : Bool :=
  (List.range 4).any fun o => d.get (F.VIS_OUT_CFG_ENABLE o) == 1 && d.get (F.VIS_OUT_CFG_DEST o) / 2 != 0 &&
    !(d.inDram (d.outRing o).1 (d.outRing o).2)

/-- Checks 5 and 6 of a write to VIS. -/
def visCheck (d : Dev) (w : Wr) : Nat :=
  firstFail [(rngBad visRngs w || !(d.visLegal w), sBadValue)]

/-- What a write to VIS does beside storing its fields. -/
def visApply (d : Dev) (w : Wr) : Dev :=
  d.when (w.at R.VIS_TBLDATA) fun d =>
    let a := d.get F.VIS_TBLADDR_VALUE
    let v := w.new
    (d.onVis fun t => { t with tbl := spPut 0 t.tbl a v }).put F.VIS_TBLADDR_VALUE (a + 1)

end Sys2Proof.Machine
end

