-- ==== Sys2Proof/Machine/Ins.lean ====
section
/-! DEFINITION. INS: the expected image (R342 to R344), windows and registration (R345, R346), nozzle
evidence and density reports (R347 to R350), item verdicts and code grading (R351 to R353), and the INS
registers. -/

namespace Sys2Proof.Machine

/-! ### Inspection lines and camera columns -/

/-- The generator of the comparator's source. -/
def Dev.insGen (d : Dev) : Option Nat :=
  d.insSrc.bind fun s => let g := d.get (F.CAM_SRC_CFG_TRG s); if g = 0 then none else some (g - 1)

/-- PERIOD of a generator, in 1/65,536 sub-line. -/
def Dev.insPeriod (d : Dev) (k : Nat) : Nat := max 1 (d.getAct (F.CAM_TRG_PERIOD_PERIOD k))

/-- The inspection line of web point `q` under generator `k` (R343). -/
def Dev.insM (d : Dev) (k q : Nat) : Int :=
  let x := sx 64 (ux 64 (((q + d.get F.INS_CAMDIST_DIST) * 65536 : Nat) - ((d.gen' k).t0 : Int)))
  let p : Int := d.insPeriod k
  (2 * x + p) / (2 * p)

/-- The web point of a mapped line: its fire position less the row's DELAY. -/
def Dev.webPoint (d : Dev) (l : MLine) : Nat := (l.f / 16 + 2 ^ 48 - d.rowDelay l.row % 2 ^ 48) % 2 ^ 48

/-- The rows folded into group `g`. -/
def Dev.grpRows (d : Dev) (g : Nat) : List Nat :=
  (List.range 16).filter fun r => d.get (F.INS_ROW_GRP_EN r) == 1 && d.get (F.INS_ROW_GRP_GRP r) == g

/-- The groups with a row. -/
def Dev.usedGrps (d : Dev) : List Nat := (List.range 4).filter fun g => d.grpRows g != []

/-- VOL of a head group for a select. -/
def Dev.vol (d : Dev) (n s : Nat) : Nat := bits (d.get (F.INS_HG_VOL_BYTES n (s / 4))) (8 * (s % 4)) 8

/-- First and last inspection line of an item's footprint (R351). -/
def Dev.itemM (d : Dev) (k : Nat) (i : Item) : Int × Int :=
  (d.insM k i.firstPos, d.insM k ((i.firstPos + 64 * (i.lines - 1)) % 2 ^ 48))

/-- The items whose footprints INS keeps: of inspected zones, from FIRING on. -/
def Dev.insItems (d : Dev) : List Item :=
  d.itk.items.filter fun i => d.bit F.INS_CFG_ZONES i.zone && (i.state == isFiring || i.state == isFired)

/-! ### VOID lines (R344) -/

/-- An item counts as not inspected from now on; one that is FIRED has its verdict at once. -/
def Dev.voidItem (d : Dev) (i : Item) : Dev :=
  if i.insVoid then d
  else
    let d1 := d.updItem i.id fun i => { i with insVoid := true }
    d1.when (i.state == isFired) fun d => d.verdictItem i.id false (d.itemBad i)

/-- The items whose footprints hold a line, which has become VOID: source 138 once for each. -/
def Dev.voidItems (d : Dev) (k : Nat) (m : Int) : Dev :=
  let hit := d.insItems.filter fun i => let s := d.itemM k i; decide (s.1 ≤ m ∧ m ≤ s.2)
  d.each hit fun d i => (d.onceFault i.id 6 fun d => d.report 138).voidItem i

/-- A group's line is VOID. -/
def Dev.voidLine (d : Dev) (k g : Nat) (m : Int) : Dev :=
  let d1 := d.put F.INS_IRQ_STAT_VOID 1
  let key := 4 * m.toNat + g
  let d2 := d1.when (decide (0 ≤ m) && !(d1.ins.voids.contains key)) fun d => d.onIns fun t => { t with voids := key :: t.voids }
  d2.voidItems k m

/-! ### Complete lines (R343, R344) -/

/-- Base of the expected ring. -/
def Dev.expBase (d : Dev) : Nat := dramBase + 2 ^ 20 * d.get F.INS_EXPBASE_MIB

def Dev.expLines (d : Dev) : Nat := max 1 (d.get F.INS_EXPLINES_LINES)

/-- The plane of group `g` of line `m`, and the line's descriptor. -/
def Dev.planeAt (d : Dev) (g m : Nat) : Nat := d.expBase + 32768 * (m % d.expLines) + 8192 * g
def Dev.descAt (d : Dev) (m : Nat) : Nat := d.expBase + 32768 * d.expLines + 128 * (m % d.expLines)

/-- The amount of a pixel (R343). -/
def amount (gshift acc : Nat) : Nat := if gshift = 0 then min 15 acc else min 15 ((acc + 2 ^ (gshift - 1)) / 2 ^ gshift)

/-- Key of a fold sum. -/
def accKey (g m p : Nat) : Nat := (4 * m + g) * 16384 + p

/-- The descriptor of line `m` with more FLAGS; a new one when the slot still holds another line's. -/
def Dev.putDesc (d : Dev) (m flags : Nat) : Dev :=
  let a := d.descAt m
  let old := if d.ld (a + 4) 4 = m ∧ m < d.ins.front.foldl max 0 then d.ld a 4 else 0
  let hg (n : Nat) : List Byte := match d.ins.steps.find? fun x => x.1 == m && x.2.1 == n with
    | some x => leBytes 4 x.2.2.1 ++ leBytes 4 x.2.2.2
    | none => leBytes 8 0
  d.stBs a (leBytes 4 (old ||| flags) ++ leBytes 4 m ++ ((List.range 8).map hg).flatten ++ List.replicate 56 0)

/-- Line `m` of group `g` is complete: its plane and its descriptor are written, or it is VOID. -/
def Dev.completeLine (d : Dev) (k g m : Nat) : Dev :=
  let key := 4 * m + g
  let born := spGet 0 d.ins.born key
  let unread := decide (d.expLines ≤ m ∧ d.ins.readTo + d.expLines ≤ m)
  let isVoid := d.ins.voids.contains key || (born != 0 && born != (d.gen' k).epoch + 1) || unread
  let d1 := d.when isVoid fun d => d.voidLine k g m
  let gs := d1.get (F.INS_GRP_CFG_GSHIFT g)
  let px (p : Nat) : Nat := amount gs (spGet 0 d1.ins.acc (accKey g m p))
  let d2 := d1.when (!unread) fun d =>
    let dp := d.stBs (d.planeAt g m) ((List.range 8192).map fun b => BitVec.ofNat 8 (px (2 * b) + 16 * px (2 * b + 1)))
    let done := dp.usedGrps.all fun x => x == g || m < nth dp.ins.front x 0
    dp.putDesc m ((if isVoid then 2 ^ g else 0) + if done then 16 else 0)
  let last := d2.usedGrps.all fun x => x == g || m < nth d2.ins.front x 0
  d2.onIns fun t =>
    { t with acc := t.acc.filter (fun x => x.1 / 16384 != key), born := spPut 0 t.born key 0,
             voids := t.voids.filter (· != key), front := upd t.front g fun _ => m + 1,
             steps := if last then t.steps.filter (fun x => x.1 != m) else t.steps }

/-- The mapped lines that may still fire or be folded. -/
def Dev.openLines (d : Dev) : List MLine :=
  (d.fir.heads.map fun h => h.queue ++ (h.pan.map (·.lines)).flatten).flatten ++ (d.fir.recs.map (·.lines)).flatten

/-- The first line of group `g` that some row can still add to. -/
def Dev.stopLine (d : Dev) (k g : Nat) : Int :=
  let rows := d.grpRows g
  let far := (rows.map d.rowDelay).foldl max 0
  let z := d.get (F.CAM_TRG_CFG_ZONE k)
  let q := (d.zonePos z + 2 ^ 48 + 1 - far % 2 ^ 48) % 2 ^ 48
  ((d.openLines.filter fun l => rows.contains l.row).map fun l => d.insM k (d.webPoint l)).foldl min (d.insM k q)

/-- Every complete line is written. -/
def Dev.completeAll (d : Dev) : Dev :=
  match d.insGen with
  | none => d
  | some k =>
    if (d.gen' k).epoch = 0 then d
    else d.each d.usedGrps fun d g =>
      let m0 := nth d.ins.front g 0
      d.each (List.range ((d.stopLine k g).toNat - m0)) fun d j => d.completeLine k g (m0 + j)

/-! ### The fold (R342, R343) -/

/-- The rows of a group have DELAYs within 8 × PERIOD of one another. -/
def Dev.delaysOk (d : Dev) (k g : Nat) : Bool :=
  let l := (d.grpRows g).map d.rowDelay
  decide ((l.foldl max 0 - l.foldl min (l.headD 0)) * 65536 ≤ 8 * d.insPeriod k)

/-- A STEPSEQ joins the extremes of line `m` for head group `n`. -/
def stepJoin (m n st : Nat) (l : List (Nat × Nat × Nat × Nat)) : List (Nat × Nat × Nat × Nat) :=
  if l.any fun x => x.1 == m && x.2.1 == n then
    l.map fun x => if x.1 = m ∧ x.2.1 = n then (m, n, min x.2.2.1 st, max x.2.2.2 st) else x
  else l ++ [(m, n, st, st)]

/-- Adds to a fold sum; pixels outside the planes are discarded. -/
def addAcc (g m : Nat) (p : Int) (v : Nat) (l : List (Nat × Nat)) : List (Nat × Nat) :=
  if p < 0 ∨ 16384 ≤ p then l else spPut 0 l (accKey g m p.toNat) (spGet 0 l (accKey g m p.toNat) + v)

/-- The drops of one line of an event. -/
def Dev.foldLine (d : Dev) (k h : Nat) (sel : List (Nat × Nat)) (ecc : Bool) (l : MLine) : Dev :=
  let g := d.get (F.INS_ROW_GRP_GRP l.row)
  let m := d.insM k (d.webPoint l)
  let running := d.get (F.CAM_TRG_STAT_RUNNING k) = 1
  let ep := (d.gen' k).epoch + 1
  let key := 4 * m.toNat + g
  let born := spGet 0 d.ins.born key
  let bad := ecc || !running || !(d.delaysOk k g) || (born != 0 && born != ep)
  let d1 := d.when bad fun d => d.voidLine k g m
  if m < 0 ∨ m < nth d1.ins.front g 0 then d1
  else
    let n := h / 8
    let mm := m.toNat
    let drop (acc : List (Nat × Nat)) (s : Nat × Nat × Nat) : List (Nat × Nat) :=
      let v := d1.vol n ((((sel.find? fun x => x.1 == s.1).map (·.2))).getD 0)
      let x := d1.camX (d1.nozCol h s.1)
      let u := (x % 65536).toNat / 4096
      addAcc g mm (x / 65536 + 1) (v * u) (addAcc g mm (x / 65536) (v * (16 - u)) acc)
    d1.onIns fun t => { t with acc := l.sels.foldl drop t.acc, born := if born = 0 then spPut 0 t.born key ep else t.born,
                               steps := stepJoin mm n l.step t.steps }

/-- The lines of an event in enabled rows; a nozzle of two lines counts once. -/
def foldPlan (rows : List Nat) : List MLine → List Nat → List MLine
  | [], _ => []
  | l :: r, used =>
    let mine := l.sels.filter fun s => !(used.contains s.1)
    let rest := foldPlan rows r (used ++ mine.map (·.1))
    if rows.contains l.row then { l with sels := mine } :: rest else rest

/-- EXPECTED_FOLD (R342): the oldest record that waits is folded; the lines of records that were
dropped are VOID. `ecc` is an uncorrectable error of the fold SRAM. -/
def execExpectedFold (ecc : Bool) (s : State) : Host.Outcome State Fault Refusal :=
  s.upd fun d =>
    let rows := (d.usedGrps.map d.grpRows).flatten
    let lost := d.fir.lostRecs
    let rest := d.onFir fun t => { t with lostRecs := [], recs := t.recs.drop 1 }
    match d.insGen with
    | none => rest
    | some k =>
      let d1 := rest.each lost fun d r => d.each (r.lines.filter fun l => rows.contains l.row) fun d l =>
        d.voidLine k (d.get (F.INS_ROW_GRP_GRP l.row)) (d.insM k (d.webPoint l))
      let d2 := match d.fir.recs.head? with
        | none => d1
        | some r =>
          let de := d1.when ecc fun d => (d.put F.INS_IRQ_STAT_ECC 1).report 143
          de.each (foldPlan rows r.lines []) fun d l => d.foldLine k r.head r.sel ecc l
      d2.completeAll

/-! ### Reading the expected image (R345) -/

/-- Line `m` of group `g` is there and not VOID; a group without rows is always 0. -/
def Dev.expOk (d : Dev) (g : Nat) (m : Int) : Bool :=
  d.grpRows g == [] ||
  (decide (0 ≤ m ∧ m < (nth d.ins.front g 0 : Int)) && d.ld (d.descAt m.toNat + 4) 4 == m.toNat &&
    !(bitB (d.ld (d.descAt m.toNat) 4) g))

/-- a_g of a pixel of the expected image. -/
def Dev.expPix (d : Dev) (g : Nat) (m p : Int) : Nat :=
  if p < 0 ∨ 16384 ≤ p ∨ !(d.expOk g m) ∨ d.grpRows g = [] then 0
  else bits (d.ldB (d.planeAt g m.toNat + p.toNat / 2)).toNat (4 * (p.toNat % 2)) 4

/-- a_g at pixel `p` of line `m`, shifted by (dx, dy) in 1/16, in 1/256. -/
def Dev.ampl (d : Dev) (dx dy : Int) (g : Nat) (m p : Nat) : Nat :=
  let x := 16 * (p : Int) - dx
  let y := 16 * (m : Int) - dy
  let fx := (x % 16).toNat
  let fy := (y % 16).toNat
  let at' (j i : Int) : Nat := d.expPix g (y / 16 + j) (x / 16 + i)
  at' 0 0 * (16 - fx) * (16 - fy) + at' 0 1 * fx * (16 - fy) + at' 1 0 * (16 - fx) * fy + at' 1 1 * fx * fy

/-- The lines that the shifted line `m` reads are there for group `g`. -/
def Dev.ampOk (d : Dev) (dy : Int) (g m : Nat) : Bool :=
  let y := 16 * (m : Int) - dy
  d.expOk g (y / 16) && (y % 16 == 0 || d.expOk g (y / 16 + 1))

/-- K[g][c]. -/
def Dev.insK (d : Dev) (g c : Nat) : Nat := bits (d.rd (R.INS_GRP_K g)).toNat (10 * c) 10

/-- E_c of a pixel (R345). -/
def Dev.expE (d : Dev) (dx dy : Int) (c m p : Nat) : Nat :=
  (d.usedGrps.map fun g => d.insK g c * d.ampl dx dy g m p).sum / 3840

/-- A window: the inspection line of its first line, its lines, its number of lines. -/
structure Win where
  m0 : Nat
  n : Nat
  lines : List InsLine
  deriving DecidableEq, Repr

/-- The measured density of a pixel of a line, by camera column. -/
def Dev.meas (d : Dev) (l : InsLine) (c p : Nat) : Nat := nth (nth l.ch c []) (p - d.camCols.1) 0

/-- The camera columns. -/
def Dev.camRange (d : Dev) : List Nat := (List.range d.camCols.2).map (d.camCols.1 + ·)

/-- The lines of a window whose data and whose group's expected line are there. -/
def Dev.sumLines (d : Dev) (w : Win) (g : Nat) : List InsLine :=
  w.lines.filter fun l => !(anyBit l.flags (lfFilled ||| lfNotrig)) && d.ampOk d.ins.dy g (w.m0 + l.line)

/-- se and sm of a pixel of a group, in 1/16,384 (R345). -/
def Dev.evidence (d : Dev) (w : Win) (g p : Nat) : Nat × Nat :=
  let ch := d.get (F.INS_GRP_CFG_CH g)
  let dx := d.ins.dx
  let dy := d.ins.dy
  (d.sumLines w g).foldl (fun x l =>
    let a := d.ampl dx dy g (w.m0 + l.line) p
    let e := d.expE dx dy ch (w.m0 + l.line) p
    let v := d.meas l ch p
    let t := if e < d.get F.INS_EVID_EPIX ∨ e = 0 then 0 else min (128 * a) (64 * a * v / e)
    (x.1 + 64 * a, x.2 + t)) (0, 0)

/-! ### Registration (R346) -/

/-- The sum of |D - E| over the pixels whose E is at least EPIX, with the expected image shifted by so
many quarters more. -/
def Dev.regSum (d : Dev) (w : Win) (ls : List InsLine) (qx qy : Int) : Nat :=
  let dx := d.ins.dx
  let dy := d.ins.dy
  ls.foldl (fun s l =>
    d.camRange.foldl (fun s p =>
      (List.range 3).foldl (fun s c =>
        let m := w.m0 + l.line
        if d.expE dx dy c m p < max 1 (d.get F.INS_EVID_EPIX) then s
        else s + ((d.meas l c p : Int) - d.expE (dx + 4 * qx) (dy + 4 * qy) c m p).natAbs) s) s) 0

/-- The shift of least sum among -8 to 8, the nearest to 0 on a tie; between two equally near ones the
choice is open. -/
def Dev.leastShift (d : Dev) (f : Int → Nat) : Int × Dev :=
  let best := (List.range 17).foldl (fun b i => min b (f ((i : Int) - 8))) (f 0)
  let k := ((List.range 9).find? fun (i : Nat) => f i == best || f (-(i : Int)) == best).getD 0
  let up := f k == best
  let dn := f (-(k : Int)) == best
  if up && dn && k != 0 then
    let (x, d1) := d.fresh 1
    (if x = 0 then (k : Int) else -(k : Int), d1)
  else (if up then (k : Int) else -(k : Int), d)

/-- Registration of a window: whether it failed. -/
def Dev.register (d : Dev) (w : Win) : Dev × Bool :=
  let ls := w.lines.filter fun l => !(anyBit l.flags (lfFilled ||| lfNotrig)) && d.usedGrps.all fun g => d.ampOk d.ins.dy g (w.m0 + l.line)
  let (ex, d1) := d.leastShift fun k => d.regSum w ls k 0
  let (ey, d2) := d1.leastShift fun k => d.regSum w ls 0 k
  let lim := d.get F.INS_REG_REGLIM
  let bad := decide (lim < ex.natAbs ∨ lim < ey.natAbs)
  let d3 := (d2.put F.INS_REGSTAT_EX (ux 8 ex)).put F.INS_REGSTAT_EY (ux 8 ey)
  if bad then ((d3.put F.INS_IRQ_STAT_REG 1).report 139, true)
  else
    let nx := d.ins.dx + 4 * ex.tdiv 2
    let ny := d.ins.dy + 4 * ey.tdiv 2
    (((d3.onIns fun t => { t with dx := nx, dy := ny }).put F.INS_REGSTAT_DX (ux 8 nx)).put F.INS_REGSTAT_DY (ux 8 ny), false)

/-! ### Declarations and reports (R347, R349, R350) -/

/-- The nozzles of a group's rows: device nozzle, bar column. -/
def Dev.grpNozzles (d : Dev) (g : Nat) : List (Nat × Nat) :=
  ((d.grpRows g).map fun r => ((d.rowHeads r).map fun h =>
    (List.range (d.headN h)).map fun i => (d.devNoz h i, d.nozCol h i)).flatten).flatten

/-- The sums of a pixel meet EMIN. -/
def Dev.meetsEmin (d : Dev) (se : Nat) : Bool := decide (0 < se ∧ d.get F.INS_EVID_EMIN * 16384 ≤ se)

/-- The failed pair at pixel `p`: X* and the nozzle-equivalents missing. -/
def Dev.pairTest (d : Dev) (p : Nat) (a b : Nat × Nat) : Option (ℚ × ℚ) :=
  if !(d.meetsEmin a.1 && d.meetsEmin b.1) then none
  else
    let dp : ℚ := max 0 (1 - (a.2 : ℚ) / a.1)
    let dq : ℚ := max 0 (1 - (b.2 : ℚ) / b.1)
    let q := (dp + dq) * 65536 / d.get F.INS_GEOM_XSCALE
    if (d.get F.INS_EVID_OUTQ : ℚ) / 64 ≤ q ∧ 0 < dp + dq then some (p + dq / (dp + dq), q) else none

/-- Failures within 2 pixels of one another join. -/
def clusters : List (ℚ × ℚ) → List (List (ℚ × ℚ)) → List (List (ℚ × ℚ))
  | [], l => l
  | x :: r, l => match l.getLast? with
    | some c => if (c.getLast?.map fun y => decide (x.1 - y.1 ≤ 2)).getD false then clusters r (l.dropLast ++ [c ++ [x]])
        else clusters r (l ++ [[x]])
    | none => clusters r [[x]]

/-- The weighted clusterCentre of failures. -/
def clusterCentre (l : List (ℚ × ℚ)) : ℚ := (l.map fun x => x.1 * x.2).sum / (l.map (·.2)).sum

/-- The nozzle nearest to a camera column, the lower bar column on a tie; among several nozzles of that
column the choice is open. -/
def Dev.nearest (d : Dev) (noz : List (Nat × Nat)) (x : ℚ) : Option Nat × Dev :=
  let dist (c : Nat) : ℚ := |(d.camX c : ℚ) / 65536 - x|
  let best := noz.foldl (fun (b : Option Nat) n => match b with
    | none => some n.2
    | some c => if dist n.2 < dist c ∨ (dist n.2 = dist c ∧ n.2 < c) then some n.2 else some c) none
  match best with
  | none => (none, d)
  | some c =>
    let l := (noz.filter fun n => n.2 == c).map (·.1)
    if l.length ≤ 1 then (l.head?, d)
    else
      let (k, d1) := d.fresh 16
      (l[k % l.length]?, d1)

/-- A group's evidence over a window: se and sm at the pixels from `lo`. -/
structure GrpEv where
  g : Nat
  noz : List (Nat × Nat)
  lo : Nat
  ev : List (Nat × Nat)
  deriving DecidableEq, Repr

/-- The sums at a pixel; 0 outside the camera columns. -/
def GrpEv.at' (e : GrpEv) (p : Int) : Nat × Nat := if p < e.lo then (0, 0) else nth e.ev (p - e.lo).toNat (0, 0)

def Dev.grpEv (d : Dev) (w : Win) (g : Nat) : GrpEv :=
  { g := g, noz := d.grpNozzles g, lo := d.camCols.1, ev := d.camRange.map (d.evidence w g) }

/-- The clusters of failures of a group. -/
def Dev.failures (d : Dev) (e : GrpEv) : List ℚ :=
  let ps := d.camRange.filter fun (p : Nat) => e.noz.any fun n => decide (d.camX n.2 / 65536 = (p : Int))
  let fs := ps.filterMap fun p => d.pairTest p (e.at' p) (e.at' (p + 1))
  (clusters fs []).map clusterCentre

/-- Declarations of a group; the device, the nozzles declared and the columns X*. -/
def Dev.declare (d : Dev) (e : GrpEv) : Dev × List Nat × List ℚ :=
  (d.failures e).foldl (fun x c =>
    let (n, d1) := x.1.nearest e.noz c
    match n with
    | none => (d1, x.2.1, x.2.2 ++ [c])
    | some n =>
      if x.2.1.contains n then (d1, x.2.1, x.2.2 ++ [c])
      else (((d1.takeChange n 0).incSat F.INS_DECLCNT_COUNT).put F.INS_IRQ_STAT_DECL 1, x.2.1 ++ [n], x.2.2 ++ [c])) (d, [], [])

/-- Nozzles in PROBE that the window passes. -/
def Dev.passProbes (d : Dev) (e : GrpEv) (out : List Nat) : Dev :=
  let ok (n : Nat × Nat) : Bool :=
    let p := d.camX n.2 / 65536
    d.nozState n.1 == 2 && d.meetsEmin (e.at' p).1 && d.meetsEmin (e.at' (p + 1)).1 && !(out.contains n.1)
  d.each (e.noz.filter ok) fun d n => d.takeChange n.1 4

/-- The report of a nozzle: its ratio and the lowest STEPSEQ of the window (R350). -/
def Dev.reportOf (d : Dev) (w : Win) (e : GrpEv) (xs : List ℚ) (n : Nat × Nat) : Option (Nat × Nat) :=
  let x := d.camX n.2
  let u := (x % 65536).toNat
  let a := e.at' (x / 65536)
  let b := e.at' (x / 65536 + 1)
  let den := (65536 - u) * a.1 + u * b.1
  let num := (65536 - u) * a.2 + u * b.2
  if den = 0 ∨ den < d.get F.INS_EVID_EMIN * 16384 * 65536 ∨ xs.any fun c => decide (|(x : ℚ) / 65536 - c| ≤ 1) then none
  else
    let r := min 32767 ((2 * 16384 * num + den) / (2 * den))
    let low := ((List.range w.n).filterMap fun j =>
      let a := d.descAt (w.m0 + j)
      if d.ld (a + 4) 4 = w.m0 + j ∧ d.ld (a + 12 + 8 * (n.1 / 32768)) 4 ≠ 0 then some (d.ld (a + 8 + 8 * (n.1 / 32768)) 4) else none)
    some (r, (low.foldl (fun (b : Option Nat) x => some (min x (b.getD x))) none).getD 0)

/-- The reports of a window to the rake: the first `room` are taken, the others are dropped. -/
def Dev.sendReports (d : Dev) (room : Nat) (l : List (Nat × Nat × Nat)) : Dev :=
  let d1 := d.when (d.get F.CAL_CFG_MODE == 1) fun d => d.each (l.take room) fun d x => d.densityReport x.1 x.2.1 x.2.2
  let lost := l.length - room
  d1.when (lost != 0) fun d => (d.addSat F.INS_RPTDROP_COUNT lost).put F.INS_IRQ_STAT_RPTDROP 1

/-! ### Defect regions (R351) -/

/-- The value of a cell exceeds DEFTHR. -/
def Dev.cellBad (d : Dev) (w : Win) (px ln : Nat) : Bool :=
  let ps := ((List.range 16).map (16 * px + ·)).filter fun p => d.camCols.1 ≤ p && p < d.camCols.1 + d.camCols.2
  let ls := w.lines.filter fun l => l.line / 16 == ln
  let diff (l : InsLine) (p c : Nat) : Nat :=
    ((d.meas l c p : Int) - d.expE d.ins.dx d.ins.dy c (w.m0 + l.line) p).natAbs
  let sum := (ls.map fun l => (ps.map fun p => max (diff l p 0) (max (diff l p 1) (diff l p 2))).sum).sum
  decide (d.get F.INS_DEF_DEFTHR * (ps.length * ls.length) < sum)

/-- Defect regions, judged in `old` with the offsets before the window's registration, count for the
items whose footprints they overlap. -/
def Dev.countDefects (d old : Dev) (k : Nat) (w : Win) : Dev :=
  let cols := (List.range (d.camCols.1 + d.camCols.2)).filter fun (p : Nat) => p % 16 == 0 && d.camCols.1 < p + 16
  let cells : List (Nat × Nat) := (cols.map fun p => (List.range (w.n / 16)).map fun l => (p / 16, l)).flatten
  d.each (cells.filter fun c => old.cellBad w c.1 c.2) fun d' c =>
    let hit (i : Item) : Bool :=
      let x := d.zonePixels i.zone
      let m := d.itemM k i
      decide (x.1 ≤ 16 * (c.1 : Int) + 15 ∧ 16 * (c.1 : Int) ≤ x.2 ∧
        m.1 ≤ (w.m0 : Int) + 16 * c.2 + 15 ∧ (w.m0 : Int) + 16 * c.2 ≤ m.2)
    d'.each (d'.insItems.filter hit) fun d i => d.updItem i.id fun i => { i with defects := i.defects + 1 }

/-! ### Code grading (R353) -/

/-- 10^(-2^-n) in 1/2^128, by square roots. -/
def rootTen : Nat → Nat
  | 0 => 2 ^ 128 / 10
  | n + 1 => Nat.sqrt (rootTen n * 2 ^ 128)

/-- 10^(-x / 2^24) in 1/2^128, for x below 2^26 (entry 38). -/
def powTen (x : Nat) : Nat :=
  (List.range 24).foldl (fun v j => if x.testBit j then v * rootTen (24 - j) / 2 ^ 128 else v)
    (2 ^ 128 / 10 ^ (x / 2 ^ 24))

/-- The reflectance of a mean density S / n in 1/256, as a fraction. -/
def reflectance (s n : Nat) : ℚ := (powTen (s * 65536 / n) : ℚ) / 2 ^ 128

/-- An element's rectangle on the page, turned and scaled: first column, columns, first line, lines. -/
def Dev.elemRect (d : Dev) (f : Raster) (e : Nat × Nat × Nat × Nat × Bool × Nat) : Nat × Nat × Nat × Nat :=
  let (w, h) := f.units
  let (cx, cy, ew, eh, _) := e
  let rot := d.get (F.IMP_TPL_CFG_ROT f.tpl)
  let sx' := d.get (F.IMP_TPL_SCALE_SX f.tpl)
  let sy := d.get (F.IMP_TPL_SCALE_SY f.tpl)
  let (x, uw, y, uh) := if rot = 0 then (cx, ew, cy, eh) else if rot = 1 then (h - cy - eh, eh, cx, ew)
    else if rot = 2 then (w - cx - ew, ew, h - cy - eh, eh) else (cy, eh, w - cx - ew, ew)
  (f.x + x * sx', uw * sx', f.y + y * sy, uh * sy)

/-- Whether pixel `p` has its clusterCentre in the middle half of page columns `x` to `x + w - 1` (R176, R343). -/
def Dev.midX (d : Dev) (r z x w p : Nat) : Bool :=
  let xs : Int := d.get F.INS_GEOM_XSCALE
  let c : Int := 65536 * (p : Int) - sx 32 (d.get F.INS_X0_X0) * 4096
  let v := 4 * ((c - d.zoneX0 z * xs) * d.get (F.RAS_ROW_CFG_XSTEP r) + d.get (F.RAS_ROW_CFG_XPHASE r) * xs)
  decide ((4 * (x : Int) - 2 + w) * xs ≤ v ∧ v ≤ (4 * (x : Int) - 2 + 3 * w) * xs)

/-- Whether inspection line `m` has its clusterCentre in the middle half of item lines `y` to `y + h - 1`. -/
def Dev.midY (d : Dev) (k : Nat) (i : Item) (y h m : Nat) : Bool :=
  let t := sx 64 (ux 64 (((d.gen' k).t0 : Int) - ((i.firstPos + d.get F.INS_CAMDIST_DIST) * 65536 : Nat)))
  let v := 4 * ((m : Int) * d.insPeriod k + t)
  decide ((4 * (y : Int) - 2 + h) * 4194304 ≤ v ∧ v ≤ (4 * (y : Int) - 2 + 3 * h) * 4194304)

/-- The reflectance of an element, if it has a pixel. -/
def Dev.elemRf (d : Dev) (k : Nat) (i : Item) (r ch : Nat) (f : Raster) (e : Nat × Nat × Nat × Nat × Bool × Nat) : Option ℚ :=
  let (x, w, y, h) := d.elemRect f e
  let ls := d.ins.kept.filter fun l => d.midY k i y h l.1
  let ps := d.camRange.filter fun p => d.midX r i.zone x w p
  let n := ls.length * ps.length
  if n = 0 then none
  else some (reflectance ((ls.map fun l => (ps.map fun p => nth (nth l.2 ch []) (p - d.camCols.1) 0).sum).sum) n)

/-- A grade by four limits, in 1/100. -/
def gradeBy (v : ℚ) (a b c e : Nat) : Nat :=
  if (a : ℚ) ≤ 100 * v then 4 else if (b : ℚ) ≤ 100 * v then 3 else if (c : ℚ) ≤ 100 * v then 2 else if (e : ℚ) ≤ 100 * v then 1 else 0

/-- Mean of a list. -/
def meanQ (l : List ℚ) : ℚ := l.sum / l.length

/-- The grades of a symbol: SC in %, and the grades of SC, MOD and UEC; none when it is ungraded. -/
def Dev.gradeField (d : Dev) (k : Nat) (i : Item) (f : Raster) : Option (Nat × Nat × Nat × Nat) :=
  match (d.zoneRows i.zone).find? fun r => d.rowPlane r == d.get (F.IMP_TPL_CFG_PLANE f.tpl) with
  | none => none
  | some r =>
    let ch := d.get (F.INS_GRP_CFG_CH (d.get (F.INS_ROW_GRP_GRP r)))
    let rf := f.elems.map fun e => (e, d.elemRf k i r ch f e)
    if rf = [] ∨ rf.any fun x => x.2.isNone then none
    else
      let l := rf.map fun x => (x.1.2.2.2.2.1, x.1.2.2.2.2.2, x.2.getD 0)
      let dark := (l.filter fun x => x.1).map (·.2.2)
      let light := (l.filter fun x => !x.1).map (·.2.2)
      let sc := meanQ light - meanQ dark
      let gt := (meanQ light + meanQ dark) / 2
      let err (x : Bool × Nat × ℚ) : Bool := if x.1 then decide (gt < x.2.2) else decide (x.2.2 < gt)
      let least (v : List ℚ) : ℚ := v.foldl min (v.headD 0)
      let mod' := if sc ≤ 0 then 0 else least (l.map fun x => 2 * |x.2.2 - gt| / sc)
      let cws := ((l.filter err).map (·.2.1)).eraseDups.filter (· != 0)
      let blks := (f.blk.eraseDups).map fun b => (cws.filter fun c => nth f.blk (c - 1) 0 == b).length
      let uec : ℚ := if f.ecc = 0 then (if l.any err then -1 else 1) else least (blks.map fun e => 1 - 2 * (e : ℚ) / f.ecc)
      some ((100 * sc).floor.toNat, gradeBy sc 70 55 40 20, gradeBy mod' 70 60 50 40, gradeBy uec 62 50 37 25)

/-- A template is graded. -/
def Dev.graded (d : Dev) (t : Nat) : Bool :=
  if t < 32 then d.bit F.INS_GRADELO_MASK t else d.bit F.INS_GRADEHI_MASK (t - 32)

/-- The fields of an item are graded; LASTGRADE keeps the last. -/
def Dev.gradeItem (d : Dev) (k : Nat) (i : Item) : Dev :=
  d.each (i.rasters.filter fun f => d.graded f.tpl && f.elems != []) fun d f =>
    match d.gradeField k i f with
    | none => ((d.wrN R.INS_LASTGRADE 0).put F.INS_LASTGRADE_TPL f.tpl).put F.INS_LASTGRADE_GRADE 7
    | some (sc, a, b, c) =>
      let g := min a (min b c)
      let d1 := (((((d.wrN R.INS_LASTGRADE 0).put F.INS_LASTGRADE_SC sc).put F.INS_LASTGRADE_TPL f.tpl).put F.INS_LASTGRADE_GSC a).put
        F.INS_LASTGRADE_GMOD b).put F.INS_LASTGRADE_GUEC c
      let d2 := d1.put F.INS_LASTGRADE_GRADE g
      d2.when (g < d.get F.INS_REG_MINGRADE) fun d =>
        (d.put F.INS_IRQ_STAT_GRADE 1).updItem i.id fun i => { i with gradeBad := true }

/-! ### The window (R345, R352) -/

/-- Items whose last line the window holds, or that lie before it: their inspection is complete. -/
def Dev.completeItems (d : Dev) (k : Nat) (w : Win) : Dev :=
  let done := d.insItems.filter fun i => !i.inspected && decide ((d.itemM k i).2 < (w.m0 + w.n : Nat))
  d.each done fun d i =>
    let d1 := d.when (decide ((d.itemM k i).1 < 0)) fun d => d.voidItem i
    let d2 := match d1.findItem i.id with
      | some j => d1.when (!j.insVoid) fun d => d.gradeItem k j
      | none => d1
    let d3 := d2.updItem i.id fun i => { i with inspected := true }
    match d3.findItem i.id with
    | some j => d3.when (j.state == isFired) fun d => d.verdictItem j.id (!j.insVoid) (d.itemBad j)
    | none => d3

/-- A void window: its items count as not inspected. -/
def Dev.voidWindow (d : Dev) (k : Option Nat) (m0 n : Nat) : Dev :=
  let d1 := (d.incSat F.INS_VOIDCNT_COUNT).put F.INS_IRQ_STAT_VOID 1
  match k with
  | none => d1
  | some k =>
    let hit (i : Item) : Bool := let s := d1.itemM k i; decide (s.1 < (m0 + n : Nat) ∧ (m0 : Int) ≤ s.2)
    d1.each (d1.insItems.filter hit) Dev.voidItem

/-- What a window that is not void gives: declarations, verdicts of probes, reports, defects. -/
def Dev.goodWindow (d : Dev) (k : Nat) (w : Win) (old : Dev) (room : Nat) : Dev :=
  let evs := d.usedGrps.map (old.grpEv w)
  let acc := evs.foldl (fun (x : Dev × List ℚ) e =>
    let (d1, ns, cs) := x.1.declare e
    (d1.passProbes e ns, x.2 ++ cs)) (d, [])
  let rpts := (evs.map fun e => e.noz.filterMap fun n => (old.reportOf w e acc.2 n).map fun r => (n.1, r)).flatten
  (acc.1.sendReports room rpts).countDefects old k w

/-- Fewer than half of a window's lines entered the sums. -/
def Dev.fewLines (d : Dev) (w : Win) : Bool :=
  let ok (l : InsLine) : Bool := d.usedGrps.any fun g => (d.sumLines w g).contains l
  decide (2 * (w.lines.filter ok).length < w.n)

/-- INSPECTION_WINDOW (R345): the oldest closed frame of the comparator's source, whose lines have all
been taken, ends its window. The rake's input has room for `room` reports. -/
def execInspectionWindow (room : Nat) (s : State) : Host.Outcome State Fault Refusal :=
  s.upd fun d0 =>
    match d0.insSrc, d0.ins.descs with
    | some src, f :: rest =>
      if (d0.src src).buf.any fun l => l.frame == f.frame then d0
      else
        let n := d0.srcLines src
        let mine := d0.ins.lines.filter fun l => l.frame == f.frame
        let d1 := (d0.onIns fun t => { t with descs := rest, lines := t.lines.filter fun l => l.frame != f.frame }).completeAll
        let m0 := f.m0.getD 0
        let w : Win := { m0 := m0, n := n, lines := mine }
        let bad := anyBit f.flags (ffDropped ||| ffEcc ||| ffTrgskip) || d1.vis.eccBad || f.m0.isNone || d1.fewLines w
        let seen (d : Dev) : Dev := d.onIns fun t => { t with readTo := m0 + n }
        match d1.insGen with
        | none => d1.voidWindow none m0 n
        | some k =>
          let (d2, off) := if bad then (d1, false) else d1.register w
          if bad || off then
            let dv := d2.voidWindow (f.m0.map fun _ => k) m0 n
            if f.m0.isNone then dv else (seen dv).completeItems k w
          else
            let live := d2.insItems.filter fun i => !i.insVoid
            let low := (live.map fun i => (d2.itemM k i).1).foldl min (m0 : Int)
            let dk := d2.onIns fun t => { t with kept := (t.kept.filter fun l => decide (low ≤ (l.1 : Int))) ++ mine.map fun l => (m0 + l.line, l.ch) }
            (seen (dk.goodWindow k w d1 room)).completeItems k w
    | _, _ => d0

/-! ### The INS registers -/

def insRngs : List Rng :=
  [⟨F.INS_EXPLINES_LINES, 256, 65536⟩, ⟨F.INS_GEOM_XSCALE, 1, 2 ^ 32 - 1⟩, ⟨F.INS_EVID_OUTQ, 1, 255⟩,
   ⟨F.INS_DEF_DEFMIN, 1, 65535⟩, ⟨F.INS_REG_MINGRADE, 0, 4⟩, ⟨F.INS_REG_REGLIM, 1, 8⟩, ⟨F.INS_GRP_CFG_CH 0, 0, 2⟩]

/-- Checks 5 and 6 of a write to INS. -/
def insCheck (_ : Dev) (w : Wr) : Nat :=
  firstFail [(rngBad insRngs w, sBadValue), (w.at (R.INS_HG_VOL 0 0) && w.i 1 == 0 && w.new % 256 != 0, sBadValue)]

/-- What a write to INS does beside storing its fields. -/
def insApply (d : Dev) (w : Wr) : Dev :=
  d.when (w.at R.INS_STATCLR) fun d => d.each (List.range 4) fun d k =>
    d.when (bitB w.new k) fun d => d.wrN (R.INS_DECLCNT + 4 * k) 0

/-- The expected ring, as an offset into DRAM and bytes (R344, R503); none while INS is off. -/
def Dev.insStore (d : Dev) : Nat × Nat :=
  (2 ^ 20 * d.get F.INS_EXPBASE_MIB, if d.get F.INS_CFG_ENABLE = 1 then d.expLines * 32896 else 0)

/-- The zones of INS_CFG break R342: each must be single-pass and use the encoder of the generator's
zone. -/
def Dev.insConfigBad (d : Dev) : Bool :=
  d.get F.INS_CFG_ENABLE == 1 &&
  (List.range 16).any fun z => d.bit F.INS_CFG_ZONES z &&
    (decide (1 < (d.passes z).length) ||
     d.insGen.any fun k => d.get (F.POS_ZONE_CFG_ENC z) != d.get (F.POS_ZONE_CFG_ENC (d.get (F.CAM_TRG_CFG_ZONE k))))

end Sys2Proof.Machine
end

