-- ==== Sys2Proof/Machine/Hlk.lean ====
section
/-! DEFINITION. The head link (R272 to R294) and the serial lane macro (R295 to R299), with the HLK
and SRD registers. -/

namespace Sys2Proof.Machine

/-! ### Frames and fire commands -/

/-- Changes a head lane. -/
def Dev.onLane (d : Dev) (l : Nat) (f : Lane → Lane) : Dev :=
  d.onFir fun t => { t with lanes := upd t.lanes l f }

def Dev.lane (d : Dev) (l : Nat) : Lane := nth d.fir.lanes l {}

/-- A block of HLK type `ty` leaves on a lane. -/
def Dev.hlkSend (d : Dev) (l ty : Nat) (body : List Nat) : Dev := d.emit (.hlk l ty body)

/-- The head nozzles that lane `l` carries of head `h`: first and end (R272). -/
def Dev.laneSpan (d : Dev) (h l : Nat) : Nat × Nat :=
  let ls := d.headLanes h
  let k := (ls.takeWhile (· != l)).length
  let n := d.headN h
  (k * n / max 1 ls.length, (k + 1) * n / max 1 ls.length)

/-- The next nozzle to send of an event on a lane. -/
def PanEv.sentTo (e : PanEv) (l : Nat) : Option Nat := (e.sent.find? fun x => x.1 == l).map (·.2)

/-- The rate code of a lane. -/
def Dev.laneRate (d : Dev) (l : Nat) : Nat := d.get (F.SRD_LANE_CFG_RATE l)

/-- LAT by the lane rate, in ns (R282). -/
def latNs (rate : Nat) : Nat := nth [0, 104, 83, 66, 56, 46, 0] rate 0

/-- The predicted instant of an event, in ps from `t`, `none` for a zone whose speed reads 0 (R279). -/
def Dev.predict (d : Dev) (h t : Nat) (e : PanEv) : Option Nat :=
  let en := d.zoneEnc e.zone
  let s := d.fireSpeed en t
  if s = 0 then none
  else
    let p := (d.pairH en / 2 ^ 28 + d.fireAdv h en e.throw t) % 2 ^ 52
    some (((ahead52 e.f p).getD 0) * 1000000000000 / s)

/-- A frame that may start on a lane: head, place of the event in its pan, first nozzle, sent again. -/
structure Cand where
  h : Nat
  k : Nat
  off : Nat
  again : Bool
  when' : Option Nat
  ent : Nat
  deriving DecidableEq, Repr

/-- `a` goes before `b` (R281, R279): resends first, then the earlier predicted instant, then the order
of entry, then the lower head. -/
def Cand.before (a b : Cand) : Bool :=
  if a.again ≠ b.again then a.again
  else match a.when', b.when' with
    | some x, some y => x < y || (x == y && a.h < b.h)
    | some _, none => true
    | none, some _ => false
    | none, none => a.ent < b.ent || (a.ent == b.ent && a.h < b.h)

/-- The frames that could start on a lane now: of each head on it the first event with nozzles unsent,
within BUFEV (R280), and every frame named by a NAK. -/
def Dev.cands (d : Dev) (l t : Nat) : List Cand :=
  let hs := (d.hgHeads (l / 3)).filter fun h => (d.headLanes h).contains l
  (hs.map fun h =>
    let pan := (d.head h).pan.zipIdx.filter fun x => !x.1.silent
    let started := (pan.filter fun x => (x.1.sentTo l).isSome).length
    let (a, b) := d.laneSpan h l
    let mk (e : PanEv) (k off : Nat) (again : Bool) : Cand :=
      { h := h, k := k, off := off, again := again, when' := d.predict h t e, ent := e.ent }
    let redo := (pan.map fun x => (x.1.again.filter fun y => y.1 == l).map fun y => mk x.1 x.2 y.2 true).flatten
    let fresh' := (pan.find? fun x => ((x.1.sentTo l).getD a) < b).filter fun x =>
      (x.1.sentTo l).isSome || started < d.get (F.HLK_LANE_STAT_BUFEV l)
    redo ++ match fresh' with
      | some x => [mk x.1 x.2 ((x.1.sentTo l).getD a) false]
      | none => []).flatten

/-- The body bits of an FSTART block (R277). -/
def fstartBody (j seq off nblk : Nat) (last : Bool) : Nat :=
  j + seq % 256 * 2 ^ 3 + off * 2 ^ 11 + nblk * 2 ^ 26 + if last then 2 ^ 32 else 0

/-- The 16 samples of a data block as 64 bits (R276). -/
def dataBlock (e : PanEv) (first stop : Nat) : Nat :=
  (List.range 16).foldl (fun x i =>
    let n := first + i
    let s := if n < stop ∧ !e.noDrop then ((e.sel.find? fun q => q.1 == n).map (·.2)).getD 0 else 0
    x + s * 2 ^ (4 * i)) 0

/-- Sends one frame of an event on a lane (R278). -/
def Dev.sendFrame (d : Dev) (l : Nat) (c : Cand) (e : PanEv) : Dev :=
  let (_, stop) := d.laneSpan c.h l
  let nblk := min 42 (ceilDiv (stop - c.off) 16)
  let next := min stop (c.off + 16 * nblk)
  let body := fstartBody (c.h % 8) e.seq c.off nblk (next == stop)
  let blocks := (List.range nblk).map fun b => dataBlock e (c.off + 16 * b) stop
  let fcrc := crc32 (leBytes 5 body ++ (blocks.map (leBytes 8)).flatten)
  let fs := (d.lane l).fseq
  let d1 := d.hlkSend l 0x78 (body :: blocks ++ [fcrc + fs * 2 ^ 32])
  let d2 := d1.onLane l fun x => { x with fseq := (x.fseq + 1) % 256 }
  let f (q : PanEv) : PanEv :=
    if c.again then { q with again := q.again.erase (l, c.off) }
    else { q with sent := (q.sent.filter fun x => x.1 != l) ++ [(l, next)] }
  d2.onHead c.h fun x => { x with pan := upd x.pan c.k f }

/-- FRAME_START: the framer of a lane starts its next frame at `t` ps; `ecc` marks an uncorrectable pan
error found in it (R265). -/
def execFrameStart (lane : Fin 24) (t : Nat) (ecc : Bool) (s : State) : Host.Outcome State Fault Refusal :=
  s.upd fun d0 =>
    let d := d0.posAt t
    if !(d.laneUp lane) ∨ !d.running then d
    else match (d.cands lane t).foldl (fun b c => match b with
        | none => some c
        | some x => if c.before x then some c else b) none with
      | none => d
      | some c =>
        match (d.head c.h).pan[c.k]? with
        | none => d
        | some e =>
          let d1 := if ecc then
              ((d.onHead c.h fun x => { x with pan := upd x.pan c.k fun q => { q with noDrop := true } }).put
                F.FIR_IRQ_STAT_PANECC 1).lateLine (c.h / 8) e.lines 96 4
            else d
          match (d1.head c.h).pan[c.k]? with
          | none => d1
          | some e1 => d1.sendFrame lane c e1

/-- The body bits of a FIRE block. -/
def fireBody (j seq dly : Nat) (empty : Bool) : Nat :=
  j + (if empty then 8 else 0) + dly * 2 ^ 4 + seq % 256 * 2 ^ 17

/-- A FENCED or SYNCING chip sends no FIRE; one that has resigned sends those before its takeover points
(R391, R392). -/
def Dev.mayFire (d : Dev) (h seq : Nat) : Bool :=
  d.role ≤ roleStandby || decide (seq < nth d.twn.tko h 0)

/-- FIRE_BLOCK_SEND: the FIRE of head `h`'s first commanded event goes out in the slot that starts at
`slot` ps (R282); its pan slot is freed (R263). EMPTY is set when its data have not all been sent
(R284) or no drop is to be fired. -/
def execFireBlockSend (h : Fin 64) (slot : Nat) (s : State) : Host.Outcome State Fault Refusal :=
  s.upd fun d0 =>
    let d := d0.atTime (slot / 1000)
    match (d.head h).pan with
    | [] => d
    | e :: rest =>
      match e.left, (d.headLanes h).head? with
      | some tc, some l =>
        let n := h.val / 8
        let lat := latNs (d.laneRate l) * 1000
        let late := tc + lat < slot
        let dly := if late then 0 else ((tc + lat - slot) * 64 + 500) / 1000
        let whole := (d.headLanes h).all fun x => (e.sentTo x).any fun q => q == (d.laneSpan h x).2
        let d1 := d.when (d.mayFire h e.seq) fun d => d.hlkSend l 0x66 [fireBody (h.val % 8) e.seq dly (!whole || e.noDrop)]
        let d2 := d1.onHead h fun x =>
          { x with pan := rest, sent := x.sent + 1, awaiting := x.awaiting ++ [(e.seq, tc, e.lines)] }
        let d3 := d2.when late fun d => ((d.incSat (F.FIR_HG_SQUEEZE_VALUE n)).put F.FIR_IRQ_STAT_SQUEEZE 1).report 97
        d3.syncLevel n
      | _, _ => d

/-- The body bits of an IDLE block (R277, R285): SAFE until SELFTEST ends, in SAFE, in CONFIG_FAIL and
in FENCED (R392). -/
def Dev.idleBody (d : Dev) (l : Nat) : Nat :=
  let safe := !d.running || d.role == roleFenced
  (if safe then 1 else 0) + 2 * d.get F.HLK_EPOCH_ACT + 4 * d.get F.HLK_EPOCH_EPOCH + l / 3 * 2 ^ 18 + l % 3 * 2 ^ 21

/-- IDLE_BLOCK: an IDLE goes out on a lane that is not OFF. -/
def execIdleBlock (lane : Fin 24) (s : State) : Host.Outcome State Fault Refusal :=
  s.upd fun d => d.when (d.get (F.HLK_LANE_STAT_STATE lane) != 0) fun d => d.hlkSend lane 0x1E [d.idleBody lane]

/-! ### Upstream blocks -/

/-- A control-block error or a NAK of a lane counts toward HLK_ERRTHR (line 3). -/
def Dev.laneErr (d : Dev) (l : Nat) : Dev :=
  let c := d.c
  let fresh' := (d.lane l).errC + 1000000000 ≤ c
  let d1 := d.onLane l fun x => if fresh' then { x with errs := 1, errC := c } else { x with errs := x.errs + 1 }
  let th := d1.get F.HLK_ERRTHR_PERSEC
  d1.when (th != 0 && (d1.lane l).errs == th + 1) fun d => d.put F.HLK_IRQ_STAT_ERRRATE 1

/-- An upstream control block: one whose CRC fails, or that comes on a lane without its head board's
link, is discarded (R275). -/
def Dev.upstream (d : Dev) (l : Nat) (good : Bool) (f : Dev → Dev) : Dev :=
  if !good then (d.incSat (F.HLK_LANE_ERR_CTLERR l)).laneErr l else f d

/-- IDLE_UP: the board's state, SEL, STALE and EPOCHSEEN; a later epoch goes to TWN with line 5. -/
def execIdleUp (lane : Fin 24) (good : Bool) (state : Fin 16) (sel stale : Bool) (epoch : Fin 65536) (s : State) :
    Host.Outcome State Fault Refusal :=
  s.upd fun d => d.upstream lane good fun d =>
    let d1 := d.wrN (R.HLK_LANE_PEER lane) (state + (if sel then 16 else 0) + (if stale then 32 else 0) + epoch * 2 ^ 16)
    let x := (epoch.val + 65536 - d1.get F.HLK_EPOCH_EPOCH) % 65536
    d1.when (x != 0 && decide (x < 32768)) fun d => (d.put F.HLK_IRQ_STAT_EPOCH 1).learnEpoch 16 epoch

/-- MISS or EMPTY of an event (R284); in a head group that is not ready the items go on degraded
(R291). -/
def Dev.missEvent (d : Dev) (h : Nat) (ls : List MLine) : Dev :=
  let n := h / 8
  if !(d.hgReady n) then d
  else (((d.incSat (F.HLK_HEAD_FIRED_MISS h)).put F.HLK_IRQ_STAT_DATA 1).lateLine n ls (105 + 2 * n) 5)

/-- FIRED_UP: an event is reported 0 fired, 1 MISS, 2 EMPTY or 3 IGNORED. -/
def execFiredUp (lane : Fin 24) (good : Bool) (head : Fin 8) (evseq : Fin 256) (status : Fin 4) (s : State) :
    Host.Outcome State Fault Refusal :=
  s.upd fun d => d.upstream lane good fun d =>
    let h := 8 * (lane.val / 3) + head.val
    match (d.head h).awaiting.find? fun a => a.1 % 256 == evseq.val with
    | none => d
    | some a =>
      let d1 := d.onHead h fun x => { x with awaiting := x.awaiting.filter fun b => b.1 != a.1 }
      if status.val = 0 then d1.put (F.HLK_HEAD_FIRED_EVSEQ h) evseq
      else if status.val = 3 then d1
      else d1.missEvent h a.2.2

/-- FIRED_UP_TIMEOUT: the oldest FIRE of a head has no FIRED_UP within 2 µs, which counts as MISS. -/
def execFiredUpTimeout (h : Fin 64) (s : State) : Host.Outcome State Fault Refusal :=
  s.upd fun d =>
    match (d.head h).awaiting with
    | [] => d
    | a :: r => (((d.atTime (a.2.1 / 1000 + 2000)).onHead h fun x => { x with awaiting := r })).missEvent h a.2.2

/-- TEMP_UP: a head's temperature and supply; its level follows (R306), and STALE ends (R307). In a pair, the
ACTIVE's stand for both chips (R381). -/
def execTempUp (lane : Fin 24) (good : Bool) (head : Fin 8) (temp : Int) (vsup flags : Nat) (s : State) :
    Host.Outcome State Fault Refusal :=
  s.upd fun d => d.upstream lane good fun d =>
    let h := 8 * (lane.val / 3) + head.val
    let c := d.c
    let d1 := d.onHead h fun x => { x with tempSeen := true, tempEver := true, tempT := c, vsup := vsup % 65536 + flags % 32 * 65536 }
    if !d1.decides then d1
    else
      let d2 := ((d1.put (F.HLK_HEAD_TEMP_TEMP h) (ux 16 temp)).put (F.SLU_HEAD_STAT_STALE h) 0).updLevel h
      d2.twInput 4 h ((d2.head h).formed + 1) [ux 16 temp, d2.get (F.SLU_HEAD_STAT_LEVEL h)]

/-- NAK_UP: the frame it names is sent again when the event's FIRE has not been sent (R281). -/
def execNakUp (lane : Fin 24) (good : Bool) (head : Fin 8) (evseq : Fin 256) (offset : Nat) (s : State) :
    Host.Outcome State Fault Refusal :=
  s.upd fun d => d.upstream lane good fun d =>
    let h := 8 * (lane.val / 3) + head.val
    let l := lane.val
    let d1 := (d.incSat (F.HLK_LANE_ERR_NAK l)).laneErr l
    let f (e : PanEv) : PanEv := if e.seq % 256 = evseq.val then { e with again := e.again ++ [(l, offset)] } else e
    d1.onHead h fun x => { x with pan := x.pan.map f }

/-- FAULT_UP: line 6. -/
def execFaultUp (lane : Fin 24) (good : Bool) (head : Fin 8) (code arg : Nat) (s : State) :
    Host.Outcome State Fault Refusal :=
  s.upd fun d => d.upstream lane good fun d =>
    if head.val < 8 ∧ code < 256 ∧ arg < 65536 then d.put F.HLK_IRQ_STAT_BOARDFLT 1 else d

/-! ### Commands to head boards (R286) -/

/-- The heads that HLK_CMD names. -/
def Dev.cmdHeads (d : Dev) : List Nat :=
  let n := d.get F.HLK_CMD_HG
  if d.get F.HLK_CMD_ALL = 1 then d.hgHeads n else [8 * n + d.get F.HLK_CMD_HEAD]

/-- The checks of HLK_CMDGO. -/
def Dev.cmdCheck (d : Dev) : Nat :=
  let o := d.get F.HLK_CMD_OPC
  let lanes := d.cmdHeads.map fun h => (d.headLanes h).head?
  firstFail [
    (5 ≤ o && o ≤ 7, sBadValue),
    (d.get F.HLK_CMDSTAT_STATE == 1 || ((o == 1 || o == 2 || o == 4) && d.hgBusy (d.get F.HLK_CMD_HG)), sBusy),
    (lanes == [] || lanes.any (fun l => !(l.any d.laneUp)), sBadState)]

/-- A CMD goes to every head that HLK_CMD names, on its command lane. -/
def Dev.cmdGo (d : Dev) : Dev :=
  let hs := d.cmdHeads
  let o := d.get F.HLK_CMD_OPC
  let tag := (d.fir.cmdTag + 1) % 256
  let c := d.c
  let all := d.get F.HLK_CMD_ALL
  let d1 := d.each ((hs.map fun h => ((d.headLanes h).headD 0, h % 8)).eraseDups) fun d x =>
    d.hlkSend x.1 0x99 [x.2 + all * 8 + o * 2 ^ 4 + d.get F.HLK_CMD_ARG * 2 ^ 8 + tag * 2 ^ 24]
  (d1.onFir fun t => { t with cmdTag := tag, cmdWait := hs, cmdT := c }).wrN R.HLK_CMDSTAT 1

/-- CMDACK_UP: the first answer that is not 0 is kept, or 0 when every answer is 0. -/
def execCmdackUp (lane : Fin 24) (good : Bool) (head : Fin 8) (opc status ctag arg : Nat) (s : State) :
    Host.Outcome State Fault Refusal :=
  s.upd fun d => d.upstream lane good fun d =>
    let h := 8 * (lane.val / 3) + head.val
    if d.get F.HLK_CMDSTAT_STATE ≠ 1 ∨ ctag ≠ d.fir.cmdTag ∨ opc ≠ d.get F.HLK_CMD_OPC ∨ !(d.fir.cmdWait.contains h) then d
    else
      let left := d.fir.cmdWait.filter (· != h)
      let d1 := d.onFir fun t => { t with cmdWait := left }
      let keep := d1.get F.HLK_CMDSTAT_STATUS = 0
      let d2 := d1.when keep fun d => (d.put F.HLK_CMDSTAT_STATUS status).put F.HLK_CMDSTAT_ARG arg
      d2.when (left == []) fun d => (d.put F.HLK_CMDSTAT_STATE 2).put F.HLK_IRQ_STAT_CMD 1

/-- HLK_CMD_TIMEOUT: an answer is missing after 1 ms. -/
def execHlkCmdTimeout (s : State) : Host.Outcome State Fault Refusal :=
  s.upd fun d =>
    d.when (d.get F.HLK_CMDSTAT_STATE == 1) fun d =>
      let d1 := (d.atTime (d.fir.cmdT + 1000000)).onFir fun t => { t with cmdWait := [] }
      ((d1.put F.HLK_CMDSTAT_STATUS sTimeout).put F.HLK_CMDSTAT_STATE 2).put F.HLK_IRQ_STAT_CMD 1

/-! ### Bring-up (R289, R290) -/

/-- A lane changes state: line 0, and its head group follows. -/
def Dev.laneState (d : Dev) (l st : Nat) : Dev :=
  ((d.put (F.HLK_LANE_STAT_STATE l) st).put F.HLK_IRQ_STAT_LINK 1).syncHg (l / 3)

/-- A lane carries a head of the geometry. -/
def Dev.laneUsed (d : Dev) (l : Nat) : Bool := (d.hgLanes (l / 3)).contains l

/-- An attempt begins at step 1. -/
def Dev.laneAttempt (d : Dev) (l k : Nat) : Dev :=
  let c := d.c
  ((d.put (F.HLK_LANE_STAT_ATTEMPT l) k).onLane l fun x =>
    { x with step := 1, startC := c, echoes := [], echoUps := 0, trip := none }).laneState l 1

/-- A series of attempts begins. -/
def Dev.laneSeries (d : Dev) (l : Nat) : Dev := d.when (d.configDone && d.laneUsed l) fun d => d.laneAttempt l 1

/-- LANE_SERIES_START: at CONFIG_DONE (a lane that is OFF), or on signal at an ABSENT lane. -/
def execLaneSeriesStart (lane : Fin 24) (s : State) : Host.Outcome State Fault Refusal :=
  s.upd fun d =>
    let st := d.get (F.HLK_LANE_STAT_STATE lane)
    d.when (st == 0 || st == 4) fun d => d.laneSeries lane

/-- LANE_LOCK: signal, CDR lock, adapted equalisation and block lock end step 1. -/
def execLaneLock (lane : Fin 24) (s : State) : Host.Outcome State Fault Refusal :=
  s.upd fun d =>
    d.when (d.get (F.HLK_LANE_STAT_STATE lane) == 1 && (d.lane lane).step == 1) fun d =>
      let d1 := d.onLane lane fun x => { x with step := 2 }
      ((d1.put (F.SRD_LANE_STAT_LOS lane) 0).put (F.SRD_LANE_STAT_CDRLOCK lane) 1).put (F.SRD_LANE_STAT_ADAPTED lane) 1

/-- The heads that the configuration places on a lane, by local index. -/
def Dev.laneHeads (d : Dev) (l : Nat) : Nat :=
  (d.hgHeads (l / 3)).foldl (fun m h => if (d.headLanes h).contains l then m ||| 2 ^ (h % 8) else m) 0

/-- HELLO_TIMER: every 10 µs of step 2 a HELLO goes out. -/
def execHelloTimer (lane : Fin 24) (s : State) : Host.Outcome State Fault Refusal :=
  s.upd fun d =>
    d.when (d.get (F.HLK_LANE_STAT_STATE lane) == 1 && (d.lane lane).step == 2) fun d =>
      d.hlkSend lane 0x33 [1 + lane.val / 3 * 2 ^ 4 + lane.val % 3 * 2 ^ 7 + d.laneRate lane * 2 ^ 9 + d.laneHeads lane * 2 ^ 12]

/-- Sources of a head group's links: 104 + 2n. -/
def Dev.linkFault (d : Dev) (l : Nat) : Dev := d.report (104 + 2 * (l / 3))

/-- An attempt is aborted with a reason: back-off, or ABSENT after ATTEMPTS (R289). -/
def Dev.laneAbort (d : Dev) (l why : Nat) : Dev :=
  let d1 := (d.put (F.HLK_LANE_STAT_LASTFAIL l) why).onLane l fun x => { x with step := 0 }
  if d1.get (F.HLK_HG_CFG_ATTEMPTS (l / 3)) ≤ d1.get (F.HLK_LANE_STAT_ATTEMPT l) then
    (((d1.laneState l 4).put F.HLK_IRQ_STAT_ABSENT 1).linkFault l)
  else
    let c := d1.c
    (d1.onLane l fun x => { x with startC := c }).laneState l 2

/-- HELLO_UP: ends step 2, aborts on a wrong VER, or ends the series as MISMATCH. -/
def execHelloUp (lane : Fin 24) (good : Bool) (ver : Fin 16) (heads bufev fixns turnns : Nat) (s : State) :
    Host.Outcome State Fault Refusal :=
  s.upd fun d => d.upstream lane good fun d =>
    let l := lane.val
    if d.get (F.HLK_LANE_STAT_STATE l) ≠ 1 ∨ (d.lane l).step ≠ 2 then d
    else if ver.val ≠ 1 then d.laneAbort l 4
    else
      let d1 := (d.put (F.HLK_LANE_STAT_BUFEV l) bufev).put (F.HLK_LANE_STAT_HEADS l) heads
      let d2 := (d1.put (F.HLK_LANE_DELAY_FIXNS l) fixns).put (F.HLK_LANE_DELAY_TURNNS l) turnns
      if d2.laneHeads l &&& heads = d2.laneHeads l then d2.onLane l fun x => { x with step := 3 }
      else
        let d3 := (d2.put (F.HLK_LANE_STAT_LASTFAIL l) 5).onLane l fun x => { x with step := 0 }
        ((d3.laneState l 5).put F.HLK_IRQ_STAT_MISMATCH 1).linkFault l

/-- ECHO_TIMER: one of the 16 ECHO blocks of step 3 goes out at `t` ps. -/
def execEchoTimer (lane : Fin 24) (t : Nat) (s : State) : Host.Outcome State Fault Refusal :=
  s.upd fun d =>
    let x := d.lane lane
    d.when (d.get (F.HLK_LANE_STAT_STATE lane) == 1 && x.step == 3 && x.echoes.length < 16) fun d =>
      let tag := x.echoes.length
      ((d.atTime (t / 1000)).onLane lane fun x => { x with echoes := x.echoes ++ [(tag, t)] }).hlkSend lane 0x4B [tag]

/-- ECHO_UP: one round trip, from the start of sending the ECHO to the start of receiving its answer. -/
def execEchoUp (lane : Fin 24) (good : Bool) (tag : Nat) (t : Nat) (s : State) : Host.Outcome State Fault Refusal :=
  s.upd fun d => d.upstream lane good fun d =>
    match (d.lane lane).echoes.find? fun e => e.1 == tag with
    | none => d
    | some e =>
      d.when ((d.lane lane).step == 3) fun d =>
        (d.atTime (t / 1000)).onLane lane fun x =>
          { x with echoUps := x.echoUps + 1, trip := some (match x.trip with | some m => min m (t - e.2) | none => t - e.2) }

/-- ECHO_WINDOW_END: step 3 ends; FLIGHT and LINKDELAY are set, RUN goes out, the lane is UP. With no
round trip taken, FLIGHT is a value that the spec does not give. -/
def execEchoWindowEnd (lane : Fin 24) (s : State) : Host.Outcome State Fault Refusal :=
  s.upd fun d =>
    let l := lane.val
    let x := d.lane l
    if d.get (F.HLK_LANE_STAT_STATE l) ≠ 1 ∨ x.step ≠ 3 ∨ x.echoes.length < 16 then d
    else
      let turn := d.get (F.HLK_LANE_DELAY_TURNNS l) * 1000
      let (flight, d1) := match x.trip with
        | some m => (ceilDiv (m - turn) 2000, d)
        | none => d.fresh 11
      let d2 := d1.put (F.HLK_LANE_DELAY_FLIGHT l) flight
      let delay := latNs (d2.laneRate l) + flight + d2.get (F.HLK_LANE_DELAY_FIXNS l)
      let c := d2.c
      let d3 := (d2.hlkSend l 0x55 []).onLane l fun x => { x with step := 4, upC := c }
      let mine := (d3.hgHeads (l / 3)).filter fun h => (d3.headLanes h).head? == some l
      let d4 := d3.each mine fun d h =>
        ((d.put (F.HLK_HEAD_DELAY_LINKDELAY h) delay).onHead h fun x => { x with tempSeen := false }).markStale h
      d4.laneState l 3

/-- LANE_ABORT: 1 ms loss of signal (1), no lock (2) or no HELLO_UP (3) by the end of the window. -/
def execLaneAbort (lane : Fin 24) (why : Fin 3) (s : State) : Host.Outcome State Fault Refusal :=
  s.upd fun d => d.when (d.get (F.HLK_LANE_STAT_STATE lane) == 1) fun d => d.laneAbort lane (why + 1)

/-- LANE_BACKOFF_END: 10 ms after an abort the lane tries again. -/
def execLaneBackoffEnd (lane : Fin 24) (s : State) : Host.Outcome State Fault Refusal :=
  s.upd fun d =>
    d.when (d.get (F.HLK_LANE_STAT_STATE lane) == 2) fun d =>
      (d.atTime ((d.lane lane).startC + 10000000)).laneAttempt lane (d.get (F.HLK_LANE_STAT_ATTEMPT lane) + 1)

/-- An UP lane goes DOWN (R290): a new series starts at once, and FIREs on it await no answer. -/
def Dev.laneDown (d : Dev) (l : Nat) : Dev :=
  d.when (d.laneUp l) fun d =>
    let d1 := d.laneAttempt l 1
    d1.each ((d1.hgHeads (l / 3)).filter fun h => (d1.headLanes h).contains l) fun d h =>
      d.onHead h fun x => { x with awaiting := [] }

/-- LANE_DOWN. -/
def execLaneDown (lane : Fin 24) (s : State) : Host.Outcome State Fault Refusal :=
  s.upd fun d => d.laneDown lane

/-! ### The serial lane macro -/

/-- The lane's user holds it in service (R298, R299): a head lane in any state but ABSENT, MISMATCH or
OFF; a fabric, Ethernet or tile lane whose port or lane is not down; a twin lane with the link up. -/
def Dev.inService (d : Dev) (l : Nat) : Bool :=
  if l < 24 then
    let st := d.get (F.HLK_LANE_STAT_STATE l)
    st != 0 && st != 4 && st != 5
  else if l < 32 then d.get (F.PGF_PORT_STAT_STATE ((l - 24) / 2)) != 0
  else if l < 36 then d.get (F.ETH_PORT_STAT_STATE (l - 32)) != 0
  else if l < 40 then d.get (F.CAM_TLANE_STAT_STATE (l - 36)) != 0
  else d.get F.TWN_STAT_LINKUP == 1

/-- LANE_PLL_LOSS: source 180; the user sees a loss of signal, and an UP head lane goes DOWN. -/
def execLanePllLoss (lane : Fin 42) (s : State) : Host.Outcome State Fault Refusal :=
  s.upd fun d =>
    let l := lane.val
    let d1 := (d.put (F.SRD_LANE_STAT_PLLLOCK l) 0).put (F.SRD_LANE_STAT_LOS l) 1
    let d2 := (d1.put F.SRD_IRQ_STAT_PLL 1).report 180
    d2.when (l < 24) fun d => d.laneDown l

/-- DFE_TAP_LIMIT: source 181. -/
def execDfeTapLimit (lane : Fin 42) (s : State) : Host.Outcome State Fault Refusal :=
  s.upd fun d => (d.put F.SRD_IRQ_STAT_ADAPT 1).report 181

/-- PRBS_ERROR: the running checker counts bit errors. -/
def execPrbsError (lane : Fin 42) (errs : Nat) (s : State) : Host.Outcome State Fault Refusal :=
  s.upd fun d =>
    d.when (d.get (F.SRD_LANE_CTL_PRBS lane) != 0 && errs != 0) fun d =>
      (d.addSat (F.SRD_LANE_PRBSERR_COUNT lane) errs).put F.SRD_IRQ_STAT_PRBS 1

/-- LOS_CHANGE: a loss-of-signal detector asserts or deasserts. -/
def execLosChange (lane : Fin 42) (los : Bool) (s : State) : Host.Outcome State Fault Refusal :=
  s.upd fun d =>
    let v := if los then 1 else 0
    if d.get (F.SRD_LANE_STAT_LOS lane) = v then d
    else (d.put (F.SRD_LANE_STAT_LOS lane) v).put F.SRD_IRQ_STAT_LOS 1

/-- EYE_MONITOR_REFRESH: new openings. -/
def execEyeMonitorRefresh (lane : Fin 42) (eyeh eyev : Nat) (s : State) : Host.Outcome State Fault Refusal :=
  s.upd fun d => (d.put (F.SRD_LANE_STAT_EYEH lane) (min 255 eyeh)).put (F.SRD_LANE_STAT_EYEV lane) (min 255 eyev)

/-- A lane has a rate and is not powered down. -/
def Dev.lanePowered (d : Dev) (l : Nat) : Bool := d.laneRate l != 0 && d.get (F.SRD_LANE_CTL_PD l) == 0

/-- LOWPWR follows RATE and PD (R298); a lane in the deep low-power state holds no lock. -/
def Dev.syncPower (d : Dev) (l : Nat) : Dev :=
  if d.lanePowered l then d
  else
    let d1 := (d.put (F.SRD_LANE_STAT_LOWPWR l) 1).put (F.SRD_LANE_STAT_PLLLOCK l) 0
    (d1.put (F.SRD_LANE_STAT_CDRLOCK l) 0).put (F.SRD_LANE_STAT_ADAPTED l) 0

/-- LANE_POWER_UP_COMPLETE: the transmitter is valid and, with signal, the receiver locked and adapted. -/
def execLanePowerUpComplete (lane : Fin 42) (s : State) : Host.Outcome State Fault Refusal :=
  s.upd fun d =>
    d.when (d.lanePowered lane) fun d =>
      let sig := if d.get (F.SRD_LANE_STAT_LOS lane) = 0 then 1 else 0
      let d1 := (d.put (F.SRD_LANE_STAT_LOWPWR lane) 0).put (F.SRD_LANE_STAT_PLLLOCK lane) 1
      (d1.put (F.SRD_LANE_STAT_CDRLOCK lane) sig).put (F.SRD_LANE_STAT_ADAPTED lane) sig

/-! ### The HLK and SRD registers -/

/-- RATE is allowed for the lane (R295). -/
def rateOk (l rate : Nat) : Bool :=
  rate == 0 ||
  (if l < 24 ∨ (36 ≤ l ∧ l < 40) then 1 ≤ rate && rate ≤ 5
   else if 32 ≤ l ∧ l < 36 then rate == 3 || rate == 6
   else rate == 6)

def hlkRngs : List Rng :=
  [⟨F.HLK_HG_CFG_ATTEMPTS 0, 1, 255⟩, ⟨F.HLK_HG_CFG_TRAINWIN 0, 5, 255⟩, ⟨F.SRD_LANE_CTL_LOOP 0, 0, 2⟩]

/-- Checks 5 and 6 of a write to HLK or SRD. -/
def hlkCheck (d : Dev) (w : Wr) : Nat :=
  let l := w.i
  let changes (f : Fld) : Bool := w.val f != bits w.old f.lo f.width
  firstFail [
    (rngBad hlkRngs w, sBadValue),
    (w.at (R.SRD_LANE_CFG 0) && !(rateOk l (w.val (F.SRD_LANE_CFG_RATE 0))), sBadValue),
    (w.at R.HLK_CMDGO && bitB w.new 0 && d.cmdCheck != sOk, d.cmdCheck),
    (w.at (R.SRD_LANE_CFG 0) && w.val (F.SRD_LANE_CFG_RATE 0) != 0 && !(d.claimed 3 l), sConflict),
    (w.at (R.HLK_LANE_CTL 0) && bitB w.new 0 && (!d.configDone || !(d.laneUsed l)), sBadState),
    (w.at (R.SRD_LANE_CTL 0) && bitB w.new 0 && changes (F.SRD_LANE_CTL_PD 0) && d.inService l, sBadState),
    (w.at (R.SRD_LANE_CTL 0) && (w.val (F.SRD_LANE_CTL_LOOP 0) != 0 || w.val (F.SRD_LANE_CTL_PRBS 0) != 0) &&
      (changes (F.SRD_LANE_CTL_LOOP 0) || changes (F.SRD_LANE_CTL_PRBS 0)) && d.inService l, sBadState)]

/-- What a write to HLK or SRD does beside storing its fields. -/
def hlkApply (d : Dev) (w : Wr) : Dev :=
  if w.at R.HLK_CMDGO then d.when (bitB w.new 0) Dev.cmdGo
  else if w.at (R.HLK_LANE_CTL 0) then
    (d.when (bitB w.new 1) fun d => d.wrN (R.HLK_LANE_ERR w.i) 0).when (bitB w.new 0) fun d => d.laneSeries w.i
  else if w.at (R.SRD_LANE_CTL 0) then (d.wrN (R.SRD_LANE_PRBSERR w.i) 0).syncPower w.i
  else if w.at (R.SRD_LANE_CFG 0) then d.syncPower w.i
  else d

/-- HLK_HEADh_TEMP shows the age of its temperature when it is read. -/
def hlkView (d : Dev) (base : Nat) (ix : List Nat) : Option Nat :=
  let h := ix.getD 0 0
  if base = R.HLK_HEAD_TEMP 0 then some (d.get (F.HLK_HEAD_TEMP_TEMP h) + d.tempAge h * 2 ^ 16) else none

end Sys2Proof.Machine
end

