-- ==== Sys2Proof/Machine/Lmp.lean ====
section
/-! DEFINITION. LMP: words and frames of the lamp chains (R355 to R358), levels and derating (R361 to
R363), diagnosis (R364, R365), dose (R366, R367), bring-up (R368), lamp maps (R369), the safe sequence
(R370), and the LMP registers. -/

namespace Sys2Proof.Machine

/-! ### Words (R357, R358) -/

/-- One byte into CRC-8 with polynomial 0x07. -/
def crc8Bits : Nat → Nat → Nat
  | 0, r => r
  | n + 1, r => crc8Bits n (if 128 ≤ r then (2 * r) % 256 ^^^ 0x07 else 2 * r)

/-- CRC-8 of the upper seven bytes of a word. -/
def wordCrc (w : Nat) : Nat := (List.range 7).foldl (fun r i => crc8Bits 8 (r ^^^ bits w (56 - 8 * i) 8)) 0

/-- A word with its CRC: OP, STR and the fields of [57:8]. -/
def lampWord (op str fields : Nat) : Nat :=
  let w := op * 2 ^ 60 + str * 2 ^ 58 + fields
  w + wordCrc w

def opIdent : Nat := 1
def opLevel : Nat := 3
def opShunt : Nat := 4
def opApply : Nat := 5
def opDiag : Nat := 6

def nopWord : Nat := lampWord 0 0 0
def identWord : Nat := lampWord opIdent 0 0
def applyWord : Nat := lampWord opApply 0 0

def levelWord (str idac duty fade mode : Nat) : Nat :=
  lampWord opLevel str (idac * 2 ^ 50 + duty * 2 ^ 38 + fade * 2 ^ 22 + mode * 2 ^ 20)

def shuntWord (str mask : Nat) : Nat := lampWord opShunt str (mask * 2 ^ 42)

/-- A DIAG of 4 µs. -/
def diagWord (str mask : Nat) : Nat := lampWord opDiag str (4 * 2 ^ 50 + mask * 2 ^ 34)

def wordOp (w : Nat) : Nat := bits w 60 4
def wordStr (w : Nat) : Nat := bits w 58 2

/-- A status word is good: its marker and its CRC. -/
def statusGood (w : Nat) : Bool := bits w 60 4 == 0xA && bits w 0 8 == wordCrc w

/-! ### Chains, boards and strings -/

/-- A chain beside its registers. -/
def Dev.lch (d : Dev) (c : Nat) : LmpChain := nth d.lmp.chains c {}

def Dev.onLch (d : Dev) (c : Nat) (f : LmpChain → LmpChain) : Dev :=
  d.onLmp fun t => { t with chains := upd t.chains c f }

def Dev.board (d : Dev) (c b : Nat) : LmpBoard := nth (nth d.lmp.boards c []) b {}

def Dev.onBoard (d : Dev) (c b : Nat) (f : LmpBoard → LmpBoard) : Dev :=
  d.onLmp fun t => { t with boards := upd t.boards c fun l => upd l b f }

/-- A string's index over all chains. -/
def strIx (c b s : Nat) : Nat := c * 128 + b * 4 + s

/-- A string; one that no map entry names is off and counts as UV (R369). -/
def Dev.str (d : Dev) (ix : Nat) : LmpStr := (d.lmp.strs.find? fun x => x.ix == ix).getD { ix := ix }

/-- Changes a string. -/
def Dev.onStr (d : Dev) (ix : Nat) (f : LmpStr → LmpStr) : Dev :=
  d.onLmp fun t => { t with strs := t.strs.map fun x => if x.ix = ix then f x else x }

/-- The mapped strings of a chain. -/
def Dev.chStrs (d : Dev) (c : Nat) : List LmpStr := d.lmp.strs.filter fun x => x.mapped && x.ix / 128 == c

def Dev.chNb (d : Dev) (c : Nat) : Nat := d.get (F.LMP_CH_CFG_NBM1 c) + 1

/-- A chain of matrix boards (R360). -/
def Dev.chMatrix (d : Dev) (c : Nat) : Bool := d.get (F.LMP_CH_BOARD_SLOT c) != 0

/-- A frame with one word for every board. -/
def Dev.frameOf (d : Dev) (c w : Nat) : List Nat := List.replicate (d.chNb c) w

/-! ### Levels (R362) -/

def roundUp255 (l : Nat) : Nat := (510 * l + 65535) / 131070

/-- MODE, IDAC and DUTY of a level L' in a mode. -/
def Dev.dim (d : Dev) (c mode l : Nat) : Nat × Nat × Nat :=
  let knee := d.get (F.LMP_CH_DIM_KNEE c)
  if l = 0 then (0, 0, 0)
  else
    let (i, t) := if knee ≤ l then (roundUp255 l, 4095) else (roundUp255 knee, (8192 * l + knee) / (2 * max 1 knee) - 1)
    (mode, i, if mode = 2 then 4095 else t)

/-- The LEVEL word of a string's staged level under its board's F. -/
def Dev.strWord (d : Dev) (x : LmpStr) : Nat :=
  let c := x.ix / 128
  let (m, i, t) := d.dim c x.mode (x.stL * (d.board c (x.ix / 4 % 32)).fSt / 256)
  levelWord (x.ix % 4) i t x.stF m

/-! ### Dose (R367) -/

/-- IDAC and DUTY in force after `t` ns of a ramp. -/
def LmpStr.now (x : LmpStr) (t : Nat) : Nat × Nat :=
  if x.fadeNs ≤ t then (x.idac, x.duty)
  else
    let f (a b : Nat) : Nat := ((a : Int) + ((b : Int) - a) * t / x.fadeNs).toNat
    (f x.idac0 x.idac, f x.duty0 x.duty)

/-- The light of `t` ns of continuous mode, in IDAC × ns / 4096. -/
def LmpStr.light (x : LmpStr) (t : Nat) : Nat :=
  if x.modeOn ≠ 1 then 0
  else
    let u : Int := min t x.fadeNs
    let f : Int := x.fadeNs
    let i0 : Int := x.idac0
    let e0 : Int := x.duty0 + 1
    let di : Int := x.idac - i0
    let de : Int := x.duty + 1 - e0
    let ramp := if f = 0 then 0 else (6 * f ^ 2 * i0 * e0 * u + 3 * f * (i0 * de + e0 * di) * u ^ 2 + 2 * di * de * u ^ 3) / (6 * f ^ 2)
    ramp.toNat + x.idac * (x.duty + 1) * (t - x.fadeNs)

/-- A row's share of time (R360). -/
def Dev.share (d : Dev) (c v : Nat) : Nat :=
  if d.chMatrix c then
    let slot := d.get (F.LMP_CH_BOARD_SLOT c)
    v * (100 * slot) / ((d.get (F.LMP_CH_THERM_ROWSM1 c) + 1) * (100 * slot + d.get (F.LMP_CH_BOARD_PRECHG c)))
  else v

/-- A string's dose up to now, in IDAC × ns / 4096. -/
def Dev.doseNow (d : Dev) (x : LmpStr) : Nat := x.dose + d.share (x.ix / 128) (x.light (d.c - x.since))

/-- A string's dose is brought up to now; its ramp goes on from the value reached. -/
def Dev.accrue (d : Dev) (ix : Nat) : Dev :=
  let c := d.c
  d.onStr ix fun x =>
    let t := c - x.since
    { x with dose := d.doseNow x, idac0 := (x.now t).1, duty0 := (x.now t).2, fadeNs := x.fadeNs - t, since := c }

/-- A pulse of so many ns at a string's IDAC. -/
def Dev.pulse (d : Dev) (ix ns : Nat) : Dev := d.onStr ix fun x => { x with dose := x.dose + 4096 * x.idac * ns }

/-- A string takes MODE, IDAC and DUTY over FADE × 100 µs (R359). -/
def Dev.setString (d : Dev) (ix mode idac duty fade : Nat) (w : Option Nat) : Dev :=
  (d.accrue ix).onStr ix fun x =>
    { x with idac0 := if x.modeOn = 0 then 0 else x.idac0, duty0 := if x.modeOn = 0 then 0 else x.duty0,
             modeOn := mode, idac := idac, duty := duty, fadeNs := if mode = 1 then fade * 100000 else 0, forced := w }

/-- An APPLY latch of a board: every staged LEVEL takes effect. -/
def Dev.applyBoard (d : Dev) (c b : Nat) : Dev :=
  d.each ((d.chStrs c).filter fun x => x.ix / 4 % 32 == b) fun d x =>
    match x.word with
    | none => d
    | some w => d.when (x.forced != some w) fun d =>
        d.setString x.ix (bits w 20 2) (bits w 50 8) (bits w 38 12) (bits w 22 16) (some w)

/-! ### Bring-up and loss (R368) -/

/-- A chain goes DOWN; an armed set that it was staging is armed again. -/
def Dev.chainDown (d : Dev) (c : Nat) : Dev :=
  let x := d.lch c
  let d1 := (((d.put (F.LMP_CH_STAT_STATE c) 1).put (F.LMP_CH_STAT_STAGING c) 0).put F.LMP_IRQ_STAT_CHAIN 1).report 149
  let d2 := d1.when (x.staging && x.armedSet) fun d => d.put (F.LMP_CH_STAT_ARMED c) 1
  (d2.onLch c fun x => { begun := x.begun, strobes := x.strobes, lat := x.lat, cur := d2.frameOf c nopWord }).onLmp fun t =>
    { t with strs := t.strs.map fun y => if y.ix / 128 = c then { y with search := none } else y }

/-- The identities of the boards hold every map entry of the chain. -/
def Dev.identOk (d : Dev) (c : Nat) (sts : List Nat) : Bool :=
  let ids := sts.map fun w => (bits w 28 4, bits w 24 4, bits w 16 8)
  (ids.all fun x => (x.1 == 1 || x.1 == 2) && 1 ≤ x.2.1 && x.2.1 ≤ 4 && 1 ≤ x.2.2 && x.2.2 ≤ 16) &&
  (d.chStrs c).all fun x =>
    let k := nth ids (x.ix / 4 % 32) (0, 0, 0)
    decide (x.ix % 4 < k.2.1 ∧ x.perm < 2 ^ k.2.2) && !(x.mode == 2 && k.1 == 2)

/-- The second frame of a bring-up has ended: the chain is UP when every status word is good, carries
LASTOP IDENT and an identity that fits. -/
def Dev.bringUp (d : Dev) (c : Nat) (sts : List Nat) : Dev :=
  let nb := d.chNb c
  let ok := sts.length == nb && sts.all (fun w => statusGood w && bits w 32 4 == opIdent) && d.identOk c sts
  if !ok then d
  else
    let ids := sts.map fun w => (bits w 28 4, bits w 24 4, bits w 16 8)
    let d1 := d.each (List.range nb) fun d b =>
      let k := nth ids b (0, 0, 0)
      d.onBoard c b fun x => { x with bad := 0, kind := k.1, strings := k.2.1, leds := k.2.2 }
    let bcfg := lampWord 2 0 (d.get (F.LMP_CH_BOARD_PWMDIV c) * 2 ^ 50 + d.get (F.LMP_CH_BOARD_SLOT c) * 2 ^ 42 +
      d.get (F.LMP_CH_BOARD_PRECHG c) * 2 ^ 34 + d.get (F.LMP_CH_THERM_ROWSM1 c) * 2 ^ 32)
    let d2 := ((d1.put (F.LMP_CH_STAT_STATE c) 2).put F.LMP_IRQ_STAT_CHAIN 1).onLmp fun t =>
      { t with strs := t.strs.map fun y => if y.ix / 128 = c then { y with word := none, mask := 0 } else y }
    d2.onLch c fun x => { x with up := true, ident := 0, restage := x.begun, urgent := (List.range nb).map fun b => (b, bcfg) }

/-! ### Status words (R358, R361, R363 to R365) -/

/-- F of a temperature (R363); `hot` while F is held at 0. -/
def Dev.derate (d : Dev) (c : Nat) (hot : Bool) (t : Int) : Nat × Bool :=
  let td := sx 8 (d.get (F.LMP_CH_DIM_TDERATE c))
  let tm := sx 8 (d.get (F.LMP_CH_DIM_TMAX c))
  if tm ≤ t ∨ (hot ∧ tm - 5 ≤ t) then (0, true)
  else if t < td then (256, false)
  else ((256 - (256 - (d.get (F.LMP_CH_THERM_DERMIN c) : Int)) * (t - td) / (tm - td)).toNat, false)

/-- TEMP of a board: F follows, with sources 147 and 148; a change that counts stages the strings again. -/
def Dev.boardTemp (d : Dev) (c b : Nat) (t : Int) : Dev :=
  let x := d.board c b
  let (f, hot) := d.derate c x.hot t
  let again := decide (4 ≤ ((f : Int) - x.fSt).natAbs) || (f == 0) != (x.fSt == 0)
  let d1 := (d.onBoard c b fun y => { y with temp := t, f := f, hot := hot }).when again fun d => d.onLch c fun y => { y with restage := true }
  let d2 := d1.when (f < 256 && x.f == 256) fun d => (d.put F.LMP_IRQ_STAT_TEMP 1).report 147
  d2.when (f == 0 && x.f != 0) fun d => (d.put F.LMP_IRQ_STAT_TEMP 1).report 148

/-- A DIAG pulse of a search that shunts `half` beside the permanent mask. -/
def Dev.searchPulse (d : Dev) (ix : Nat) (cands half : List Nat) : Dev :=
  let mask := half.foldl (fun m l => m ||| 2 ^ l) 0
  (d.onStr ix fun x => { x with search := some (cands, half) }).onLch (ix / 128) fun x =>
    { x with diag := x.diag ++ [(ix / 4 % 32, diagWord (ix % 4) mask)] }

/-- An LED is found open: it joins the permanent mask, sent ahead of any waiting set (R365). -/
def Dev.shuntLed (d : Dev) (ix led : Nat) : Dev :=
  let d1 := d.onStr ix fun x => { x with search := none, perm := x.perm ||| 2 ^ led, mask := x.perm ||| 2 ^ led, byp := x.byp + 1 }
  let b := ix / 4 % 32
  let d2 := d1.onLch (ix / 128) fun x => { x with urgent := x.urgent ++ [(b, shuntWord (ix % 4) (d1.str ix).perm), (b, applyWord)] }
  (d2.put F.LMP_IRQ_STAT_BYPASS 1).report 146

/-- The next step of a search: the candidates left are halved, or the LED is found. -/
def Dev.searchNext (d : Dev) (ix : Nat) : List Nat → Dev
  | [] => d.onStr ix fun x => { x with search := none }
  | [l] => d.shuntLed ix l
  | l => d.searchPulse ix l (l.take (l.length / 2))

/-- The status that follows a pulse of a search: whether the string conducted in it. -/
def Dev.searchStep (d : Dev) (ix : Nat) (conducts : Bool) : Dev :=
  match (d.str ix).search with
  | none => d
  | some (cands, []) =>
    if conducts then d.onStr ix fun x => { x with search := none, openS := false } else d.searchNext ix cands
  | some (cands, half) => d.searchNext ix (if conducts then half else cands.filter fun l => !(half.contains l))

/-- A valid OPEN: source 144, and a search when AUTOBYP allows one. -/
def Dev.strOpen (d : Dev) (ix : Nat) : Dev :=
  let c := ix / 128
  let x := d.str ix
  let d1 := if x.openS then d else ((d.onStr ix fun x => { x with openS := true }).put F.LMP_IRQ_STAT_OPEN 1).report 144
  let leds := (List.range (d.board c (ix / 4 % 32)).leds).filter fun l => !(bitB x.perm l)
  d1.when (x.mapped && x.search.isNone && d.get (F.LMP_CH_CFG_AUTOBYP c) == 1 && x.byp < d.get (F.LMP_CH_CFG_BYPMAX c)) fun d =>
    d.searchPulse ix leds []

/-- What a good status word says of one string; `probe` when the word before was its DIAG. -/
def Dev.strStatus (d : Dev) (ix : Nat) (opn shrt probe : Bool) : Dev :=
  let x := d.str ix
  let d1 := d.onStr ix fun x => { x with meas := true, undiag := false }
  let d2 := if x.search.isSome then (if probe then d1.searchStep ix (!opn) else d1)
    else if opn then d1.strOpen ix else d1.onStr ix fun x => { x with openS := false }
  let d3 := d2.when (shrt && !x.shortS) fun d => (d.put F.LMP_IRQ_STAT_SHORT 1).report 145
  d3.onStr ix fun x => { x with shortS := shrt }

/-- One board's status word, with the word it answers. -/
def Dev.boardStatus (d : Dev) (c b st sent : Nat) : Dev :=
  if !(statusGood st) then
    let d1 := (d.incSat (F.LMP_CH_STAT_CRCERR c)).onBoard c b fun x => { x with bad := x.bad + 1 }
    d1.when (3 ≤ (d1.board c b).bad && (d1.lch c).up) fun d => d.chainDown c
  else
    let d1 := d.onBoard c b fun x => { x with bad := 0 }
    let d2 := d1.when (bitB st 36) fun d => d.incSat (F.LMP_CH_STAT_CRCERR c)
    if bitB st 38 then d2.chainDown c
    else
      let again := wordOp sent != 0 && (bitB st 36 || bits st 32 4 != wordOp sent)
      let tail := if (d2.lch c).staging ∨ wordOp sent = opApply ∨ wordOp sent = opDiag then [] else [(b, applyWord)]
      let d3 := d2.when again fun d => d.onLch c fun x => { x with resend := x.resend ++ [(b, sent)], urgent := x.urgent ++ tail }
      let ovt := bitB st 39
      let d4 := d3.when (ovt && !(d3.board c b).ovt) fun d => (d.put F.LMP_IRQ_STAT_TEMP 1).report 148
      let d5 := (d4.onBoard c b fun x => { x with ovt := ovt }).boardTemp c b (sx 8 (bits st 52 8))
      d5.each ((List.range 4).filter fun s => bitB st (40 + s)) fun d s =>
        d.strStatus (strIx c b s) (bitB st (48 + s)) (bitB st (44 + s)) (wordOp sent == opDiag && wordStr sent == s && !again)

/-! ### Sets and frames (R361) -/

/-- A set begins to be staged: each string whose LEVEL word or mask changed has a word to send. -/
def Dev.beginSet (d : Dev) (c : Nat) (armed : Bool) : Dev :=
  let d1 := d.onLmp fun t => { t with boards := upd t.boards c fun l => l.map fun b => { b with fSt := b.f } }
  let strs := d1.chStrs c
  let words := (strs.map fun x =>
    let b := x.ix / 4 % 32
    (if x.word = some (d1.strWord x) then [] else [(b, d1.strWord x)]) ++
    (if x.mask = x.perm then [] else [(b, shuntWord (x.ix % 4) x.perm)])).flatten
  let d2 := d1.onLmp fun t => { t with strs := t.strs.map fun x =>
    if x.mapped ∧ x.ix / 128 = c then { x with word := some (d1.strWord x), mask := x.perm } else x }
  (d2.onLch c fun x => { x with staging := true, armedSet := armed, restage := false, begun := true, pend := words }).put (F.LMP_CH_STAT_STAGING c) 1

/-- Copies levels of a chain's strings to the staging set. -/
def Dev.stageFrom (d : Dev) (c : Nat) (f : LmpStr → Nat × Nat) : Dev :=
  d.onLmp fun t => { t with strs := t.strs.map fun x =>
    if x.ix / 128 = c then { x with stL := (f x).1, stF := (f x).2 } else x }

/-- At a frame start with no set being staged: the lamp-map levels at the first hand-over after READY,
an armed shadow, or the active set again. -/
def Dev.nextSet (d : Dev) (c : Nat) : Dev :=
  let x := d.lch c
  if x.staging ∨ !d.running then d
  else if !x.begun then (d.stageFrom c fun y => (y.mapL, y.mapF)).beginSet c false
  else if d.get (F.LMP_CH_STAT_ARMED c) = 1 then
    ((d.stageFrom c fun y => (y.shL, y.shF)).put (F.LMP_CH_STAT_ARMED c) 0).beginSet c true
  else if x.restage then (d.stageFrom c fun y => (y.acL, y.acF)).beginSet c false
  else d

/-- The first word for board `b` of the lists in order. -/
def pickWord (b : Nat) : List (List (Nat × Nat)) → Nat
  | [] => nopWord
  | l :: r => match l.find? fun x => x.1 == b with
    | some x => x.2
    | none => pickWord b r

/-- Takes the first entry of each board of `bs` from a list. -/
def takeFirst : List Nat → List (Nat × Nat) → List (Nat × Nat)
  | _, [] => []
  | bs, x :: r => if bs.contains x.1 then takeFirst (bs.filter (· != x.1)) r else x :: takeFirst bs r

/-- The next frame of an UP chain is composed: words sent again first, then those ahead of the set, the
set's, DIAG; when nothing of the set is left to send, APPLY to every board. -/
def Dev.compose (d0 : Dev) (c : Nat) : Dev :=
  let d := d0.nextSet c
  let x := d.lch c
  let nb := d.chNb c
  let bs := List.range nb
  if x.staging ∧ x.pend = [] ∧ x.resend = [] ∧ x.urgent = [] then d.onLch c fun x => { x with cur := d.frameOf c applyWord }
  else
    let b1 := bs.filter fun b => !(x.resend.any fun w => w.1 == b)
    let b2 := b1.filter fun b => !(x.urgent.any fun w => w.1 == b)
    let b3 := b2.filter fun b => !(x.pend.any fun w => w.1 == b)
    let cur := bs.map fun b => pickWord b [x.resend, x.urgent, x.pend, x.diag]
    let hold := cur.zipIdx.any fun w => wordOp w.1 == opDiag && (d.str (strIx c w.2 (wordStr w.1))).mode == 2
    d.onLch c fun x => { x with cur := cur, resend := takeFirst bs x.resend, urgent := takeFirst b1 x.urgent,
                                pend := takeFirst b2 x.pend, diag := takeFirst b3 x.diag, held := hold }

/-- The latch of a frame: APPLY words take effect, DIAG words light their strings; a set whose APPLY this
was is handed over. -/
def Dev.latch (d : Dev) (c : Nat) : Dev :=
  let x := d.lch c
  let d1 := d.each x.cur.zipIdx fun d w =>
    if wordOp w.1 = opApply then d.applyBoard c w.2
    else if wordOp w.1 = opDiag then d.pulse (strIx c w.2 (wordStr w.1)) 4000
    else d
  d1.when (x.staging && x.pend == [] && x.cur.all fun w => wordOp w == opApply) fun d =>
    let d2 := d.onLmp fun t => { t with strs := t.strs.map fun y =>
      if y.ix / 128 = c then { y with acL := y.stL, acF := y.stF } else y }
    let d3 := ((d2.onLch c fun y => { y with staging := false, armedSet := false }).put (F.LMP_CH_STAT_STAGING c) 0).put F.LMP_IRQ_STAT_APPLY 1
    d3.when x.armedSet fun d => d.incWrap (F.LMP_CH_ACTIVE_SEQ_SEQ c)

/-- A frame of the safe sequence is latched (R370): the fifth, APPLY, sets the standby levels. -/
def Dev.safeFrame (d : Dev) (c : Nat) : Dev :=
  let k := (d.lch c).ident
  let d1 := d.onLch c fun x => { x with ident := min 5 (k + 1) }
  d1.when (k == 4) fun d => d.each (d.lmp.strs.filter fun x => x.ix / 128 == c) fun d x =>
    let (m, i, t) := if x.cls = 1 then d.dim c 1 x.standby else (0, 0, 0)
    d.setString x.ix m i t 0 none

/-- LAMP_FRAME (R355): a frame of chain `c` ends. `sts` are the status words of boards 0 up, `ecc` a
string whose entry met an uncorrectable error (R366). -/
def execLampFrame (c : Fin 4) (sts : List Nat) (ecc : Option (Fin 128)) (s : State) : Host.Outcome State Fault Refusal :=
  s.upd fun d0 =>
    let d := match ecc with
      | none => d0
      | some e => ((d0.onStr (c * 128 + e) fun x => { x with dose := 0, since := d0.c }).put F.LMP_IRQ_STAT_ECC 1).report 151
    let st := d.get (F.LMP_CH_STAT_STATE c)
    if st = 0 ∨ (d.lch c).held then d
    else if st = 3 then d.safeFrame c
    else
      let x := d.lch c
      let d1 : Dev := if st = 2 then
          (List.range (d.chNb c)).foldl (fun d b =>
            if (d.lch c).up then d.boardStatus c b (nth sts b 0) (nth x.prev b nopWord) else d) d
        else if x.ident = 3 then (d.onLch c fun x => { x with ident := 0 }).bringUp c sts
        else d
      let d2 := if st = 2 ∧ (d1.lch c).up then d1.latch c else d1
      let d3 := d2.onLch c fun y => { y with prev := x.cur }
      let d4 := if (d3.lch c).up then d3.compose c
        else if (d3.lch c).ident = 1 then d3.onLch c fun y => { y with cur := d3.frameOf c identWord, ident := 2 }
        else if (d3.lch c).ident = 2 then d3.onLch c fun y => { y with cur := d3.frameOf c nopWord, ident := 3 }
        else d3.onLch c fun y => { y with cur := d3.frameOf c nopWord }
      d4.when d4.drivesShared fun d => d.emit (.lamp c (d.lch c).cur.reverse)

/-- CHAIN_IDENT (R368): the next frames of a DOWN chain are IDENT and NOP. -/
def execChainIdent (c : Fin 4) (s : State) : Host.Outcome State Fault Refusal :=
  s.upd fun d => d.when (d.get (F.LMP_CH_STAT_STATE c) == 1 && (d.lch c).ident == 0) fun d =>
    d.onLch c fun x => { x with ident := 1 }

/-! ### Strobes (R356) -/

/-- LAMP_STROBE (R356): at `t` ps the first strobe event that waits on chain `c` raises LAT, or extends
the strobe that is on; `late` when a latch was in progress at its start. -/
def execLampStrobe (c : Fin 4) (t : Nat) (late : Bool) (s : State) : Host.Outcome State Fault Refusal :=
  s.upd fun d =>
    match (d.lch c).strobes with
    | [] => d
    | (a, e) :: rest =>
      if t < a then d
      else
        let d1 := d.onLch c fun x => { x with strobes := rest }
        if !d1.running ∨ d1.get (F.LMP_CH_STAT_STATE c) = 0 ∨ d1.get (F.LMP_CH_STAT_STATE c) = 3 then d1
        else
          let d2 := d1.when late fun d => d.incSat (F.LMP_CH_STAT_STRBLATE c)
          match (d2.lch c).lat with
          | some (b, f) => d2.onLch c fun x => { x with lat := some (b, max f e) }
          | none => (d2.onLch c fun x => { x with lat := some (a, e) }).when d2.drivesShared fun d => d.emit (.lamp c [1])

/-- LAMP_STROBE_END (R356, R367): at `t` ps the strobe that is on ends; its window enters the dose of the
strings in strobe mode. -/
def execLampStrobeEnd (c : Fin 4) (t : Nat) (s : State) : Host.Outcome State Fault Refusal :=
  s.upd fun d =>
    match (d.lch c).lat with
    | none => d
    | some (a, e) =>
      if t < e then d
      else
        let d1 := (d.onLch c fun x => { x with lat := none }).each ((d.chStrs c).filter fun x => x.modeOn == 2) fun d x =>
          d.pulse x.ix ((e - a) / 1000)
        d1.when d1.drivesShared fun d => d.emit (.lamp c [0])

/-! ### Diagnosis (R364) -/

/-- DIAG_PERIOD_END (R364): a diagnostic period of a string ends. -/
def execDiagPeriodEnd (c : Fin 4) (b : Fin 32) (k : Fin 4) (s : State) : Host.Outcome State Fault Refusal :=
  s.upd fun d =>
    let ix := strIx c b k
    let x := d.str ix
    if d.get (F.LMP_CH_STAT_STATE c) ≠ 2 then d
    else
      let d1 := d.onStr ix fun x => { x with meas := false }
      if x.meas ∨ !x.mapped ∨ x.modeOn = 0 ∨ x.idac = 0 then d1
      else if d.get (F.LMP_CH_CFG_DIAGEN c) = 1 then
        d1.when x.search.isNone fun d => d.onLch c fun y => { y with diag := y.diag ++ [(b.val, diagWord k 0)] }
      else
        let d2 := (d1.onStr ix fun x => { x with undiag := true, undiagEver := true }).put F.LMP_IRQ_STAT_UNDIAG 1
        d2.when (!x.undiagEver) fun d => d.report 150

/-- DIAG_LATCH_HOLD_END (R364): a latch held for a strobe-mode string's DIAG is released. -/
def execDiagLatchHoldEnd (c : Fin 4) (s : State) : Host.Outcome State Fault Refusal :=
  s.upd fun d => d.onLch c fun x => { x with held := false }

/-! ### Lamp maps (R369) -/

/-- An entry of a lamp map is legal. -/
def Dev.lampEntryOk (d : Dev) (e : List Byte) : Bool :=
  let f (o n : Nat) : Nat := fieldLE e o n
  let c := f 0 1
  decide (c ≤ 3 ∧ f 1 1 < d.chNb c ∧ f 2 1 ≤ 3 ∧ f 3 1 ≤ 1 ∧ f 5 1 = 0 ∧ f 0xE 2 = 0) &&
  d.get (F.LMP_CH_CFG_ENABLE c) == 1 &&
  (f 4 1 == 1 || (f 4 1 == 2 && f 3 1 == 1 && !(d.chMatrix c))) && (f 3 1 == 1 || f 0xA 2 == 0)

/-- The string of an entry. -/
def lampEntry (e : List Byte) : LmpStr :=
  let f (o n : Nat) : Nat := fieldLE e o n
  { ix := strIx (f 0 1) (f 1 1) (f 2 1), mapped := true, cls := f 3 1, mode := f 4 1, perm := f 6 2, mapL := f 8 2,
    standby := f 0xA 2, mapF := f 0xC 2, shL := f 8 2, shF := f 0xC 2 }

/-- A 0x2006 record (R369): its status, and the strings it maps. -/
def Dev.lampRecord (d : Dev) (b : List Byte) : Nat × Dev :=
  let n := fieldLE b 0 4
  let es := (List.range (min n 512)).map fun i => (b.drop (4 + 16 * i)).take 16
  let strs := es.map lampEntry
  let ixs := (d.lmp.strs ++ strs).map (·.ix)
  if n = 0 ∨ 512 < n ∨ b.length ≠ 4 + 16 * n ∨ !(es.all d.lampEntryOk) ∨ ixs.eraseDups.length ≠ ixs.length then (sBadValue, d)
  else (sOk, d.onLmp fun t => { t with strs := t.strs ++ strs })

/-- TMAX of an enabled chain is not above its TDERATE. -/
def Dev.lampConfigBad (d : Dev) : Bool :=
  (List.range 4).any fun c => d.get (F.LMP_CH_CFG_ENABLE c) == 1 &&
    decide (sx 8 (d.get (F.LMP_CH_DIM_TMAX c)) ≤ sx 8 (d.get (F.LMP_CH_DIM_TDERATE c)))

/-- The safe sequence of a chain (R370), as its words leave. -/
def Dev.safeSeqOf (d : Dev) (c : Nat) : List Nat :=
  let nb := d.chNb c
  let word (b k : Nat) : Nat :=
    let x := d.str (strIx c b k)
    let (m, i, t) := if x.mapped ∧ x.cls = 1 then d.dim c 1 x.standby else (0, 0, 0)
    levelWord k i t 0 m
  ((List.range 4).map fun k => ((List.range nb).map fun b => word b k).reverse).flatten ++ d.frameOf c applyWord

/-- At CONFIG_DONE: the safe sequences are written, and the enabled chains begin their bring-up. -/
def Dev.lampStart (d : Dev) : Dev :=
  d.each ((List.range 4).filter fun c => d.get (F.LMP_CH_CFG_ENABLE c) == 1) fun d c =>
    let q := d.safeSeqOf c
    let t := d.c
    let d1 := d.onLmp fun x => { x with safeSeq := upd x.safeSeq c fun _ => q, strs := x.strs.map fun y => { y with since := t } }
    (d1.onLch c fun _ => { cur := d1.frameOf c identWord, ident := 2 }).put (F.LMP_CH_STAT_STATE c) 1

/-- On leaving SAFE, LMP takes the pins back and stages the active set at once (R370). -/
def Dev.lampBack (d : Dev) : Dev :=
  let d0 := d.onLmp fun t => { t with strs := t.strs.map fun y => { y with word := none, mask := 0 } }
  d0.each ((List.range 4).filter fun c => d.get (F.LMP_CH_CFG_ENABLE c) == 1) fun d c =>
    let x := d.lch c
    let d1 := d.when x.armedSet fun d => d.put (F.LMP_CH_STAT_ARMED c) 1
    (d1.onLch c fun x => { x with cur := d1.frameOf c nopWord, ident := 0, armedSet := false }).put (F.LMP_CH_STAT_STATE c) (if x.up then 2 else 1)

/-- SAFE_NOP_TIMER (R370): in SAFE a frame of NOP on each chain, after the safe sequence. -/
def execSafeNopTimer (s : State) : Host.Outcome State Fault Refusal :=
  s.upd fun d => d.when d.drivesShared fun d =>
    d.each ((List.range 4).filter fun c => d.get (F.LMP_CH_STAT_STATE c) == 3) fun d c => d.emit (.lamp c (d.frameOf c nopWord))

/-! ### The LMP registers -/

def lmpRngs : List Rng :=
  [⟨F.LMP_CH_CFG_DIV 0, 7, 255⟩, ⟨F.LMP_CH_BOARD_DIAGPER 0, 1, 255⟩, ⟨F.LMP_CH_DIM_KNEE 0, 1, 65535⟩]

/-- The string that LVLSEL selects. -/
def Dev.lvlStr (d : Dev) (c : Nat) : Nat := strIx c (d.get (F.LMP_CH_LVLSEL_BOARD c)) (d.get (F.LMP_CH_LVLSEL_STRING c))

/-- Checks 5 and 6 of a write to LMP. -/
def lmpCheck (d : Dev) (w : Wr) : Nat :=
  firstFail [
    (rngBad lmpRngs w, sBadValue),
    (w.at (R.LMP_CH_LVLSEL 0) && d.chNb w.i ≤ w.val (F.LMP_CH_LVLSEL_BOARD 0), sBadValue),
    (w.at (R.LMP_CH_LVL 0) && w.val (F.LMP_CH_LVL_LEVEL 0) != 0 && !(d.str (d.lvlStr w.i)).mapped, sBadValue),
    (w.at (R.LMP_CH_COMMIT 0) && bitB w.new 0 && d.get (F.LMP_CH_STAT_STATE w.i) == 1, sBadState)]

/-- What a write to LMP does beside storing its fields. -/
def lmpApply (d : Dev) (w : Wr) : Dev :=
  if w.at (R.LMP_CH_LVL 0) then
    d.onStr (d.lvlStr w.i) fun x => { x with shL := bits w.new 0 16, shF := bits w.new 16 16 }
  else d.when (w.at (R.LMP_CH_COMMIT 0) && bitB w.new 0) fun d => d.put (F.LMP_CH_STAT_ARMED w.i) 1

/-- The registers that show the selected string. -/
def lmpView (d : Dev) (base : Nat) (ix : List Nat) : Option Nat :=
  let sel := d.get F.LMP_SSEL_CHAIN * 128 + d.get F.LMP_SSEL_BOARD * 4 + d.get F.LMP_SSEL_STRING
  let x := d.str sel
  let b := d.board (sel / 128) (sel / 4 % 32)
  let bit (v : Bool) (n : Nat) : Nat := if v then 2 ^ n else 0
  if base = R.LMP_SSTAT then
    some (ux 8 b.temp * 2 ^ 24 + b.f * 2 ^ 15 + x.byp % 16 * 2 ^ 11 + bit x.undiag 10 + bit x.shortS 9 + bit x.openS 8 +
      x.modeOn * 64 + x.cls * 32)
  else if base = R.LMP_SDOSELO then some (d.doseNow x / 4096000 % 2 ^ 32)
  else if base = R.LMP_SDOSEHI then some (d.doseNow x / 4096000 / 2 ^ 32 % 2 ^ 32)
  else if base = R.LMP_CH_LVL 0 then
    let y := d.str (d.lvlStr (ix.headD 0))
    some (y.shF * 65536 + y.shL)
  else none

end Sys2Proof.Machine
end

