-- ==== Sys2Proof/Machine/Twn.lean ====
section
/-! DEFINITION. The twin pair (R372 to R394): forming, health, divergence, takeover, fencing, the
side-band, the timers of the twin link, and the messages that carry no item or register of another block. -/

namespace Sys2Proof.Machine

/-- A pair installation (R372). -/
def Dev.paired (d : Dev) : Bool := d.get F.TWN_CFG_PAIR == 1

/-- The last stored role; a word whose halves disagree reads FENCED (R378). -/
def Dev.lastRole (d : Dev) : Nat := ((compVal (d.mrd dwRole)).map (· % 8)).getD roleFenced

/-- The epoch. -/
def Dev.epoch (d : Dev) : Nat := (d.rd R.TWN_EPOCH).toNat

/-- TWN_EPOCH is read from MRAM at reset (R378); a word, of the epoch or the role, whose halves disagree
raises source 43 in a pair installation. -/
def Dev.twnStart (d : Dev) : Dev :=
  let d1 := d.when ((compVal (d.mrd dwEpoch)).isNone || (compVal (d.mrd dwRole)).isNone) fun d => d.report 43
  d1.put F.TWN_STAT_ROLE roleFenced |>.put F.TWN_IRQ_STAT_ROLE 1 |>.put F.HLK_EPOCH_ACT 0

/-! ### Health (R393) -/

/-- A lane in service is below margin. -/
def Dev.marginLow (d : Dev) : Bool :=
  (List.range 24 ++ [40, 41]).any fun l =>
    d.lanePowered l && (decide (d.get (F.SRD_LANE_STAT_EYEH l) < 64) || decide (d.get (F.SRD_LANE_STAT_EYEV l) < 25))

/-- TWN_HEALTH: the results kept of the self-tests, and the states of feeds, lanes and faults. -/
def Dev.health (d : Dev) : Nat :=
  let b (x : Bool) (i : Nat) : Nat := if x then 2 ^ i else 0
  let head := (List.range 64).any fun h => d.headOk h && (d.headLanes h).any fun l => !(d.laneUp l)
  let cam := (List.range 4).any (fun k => d.get (F.CAM_PORT_CFG_ENABLE k) == 1 && d.get (F.CAM_PORT_STAT_STATE k) == 0) ||
    (List.range 4).any fun k => d.lanePowered (36 + k) && d.get (F.CAM_TLANE_STAT_STATE k) != 3
  let feed := d.get F.PIN_PWRSTAT_VINA_OK == 0 || d.get F.PIN_PWRSTAT_VINB_OK == 0
  (d.rd R.TWN_HEALTH).toNat % 8 + b d.marginLow 3 + b feed 4 + b head 5 + b cam 6 + b (d.pendAny fun s => 3 ≤ s) 7

/-- A STANDBY with bits 0 to 2 or 7 of TWN_HEALTH resigns to FENCED (R393). -/
def Dev.healthCheck (d : Dev) : Dev :=
  d.when (d.role == roleStandby && (bits d.health 0 3 != 0 || bitB d.health 7)) Dev.fence

/-- Bits [7:0] of TWN_PHEALTH. -/
def healthBits : Fld := ⟨R.TWN_PHEALTH, 0, 8⟩

/-- The partner's report (R393): line 5 rises on a change, and its age starts again. -/
def Dev.peerHealth (d : Dev) (v : Nat) : Dev :=
  let c := d.c
  let d1 := d.when (d.get healthBits != v % 256) fun d => d.put F.TWN_IRQ_STAT_PHEALTH 1
  (d1.put healthBits v).onTwn fun t => { t with phC := c }

/-! ### Roles (R379, R385, R390) -/

/-- An ACTIVE goes on without replication: nothing waits for the partner any more (R385). -/
def Dev.goAlone (d : Dev) : Dev :=
  ((d.put F.TWN_STAT_ALONE 1).put F.TWN_STAT_ACCHOLD 0).onTwn fun t => { t with jackWait := [], own := [], peer := [] }

/-- ACTIVE with a new epoch, written before anything carries it (R378, R379). -/
def Dev.becomeActive (d : Dev) (e : Nat) : Dev :=
  (((d.setEpoch (e % 2 ^ 32)).setRole roleActive).goAlone).onTwn fun t => { t with starting := false, tko := [], diag := none, divs := [], copyLive := [], cut := [] }

/-- A failure of a step of SYNCING (R380): FENCED with source 36. -/
def Dev.syncFail (d : Dev) : Dev := d.when (d.role == roleSyncing) fun d => (d.report 36).fence

/-- Enters SYNCING, at step LINK (R380). -/
def Dev.startSync (d : Dev) : Dev :=
  ((d.setRole roleSyncing).put F.TWN_STAT_SYNCSTEP 0).onTwn fun t =>
    { t with starting := false, own := [], peer := [], inputs := [], copyLive := [], cut := [], tko := [], diag := none, divs := [] }

/-- The epochs that UP head lanes have seen (R288). -/
def Dev.epochsSeen (d : Dev) : List Nat := ((List.range 24).filter d.laneUp).map fun l => (d.rd (R.HLK_LANE_PEER l)).toNat / 2 ^ 16

/-- Uncertain items after a partner loss, or items of diverged events that have fired: INTERRUPTED with
reason RESET_FIRING, and REJECT pulses (R388, R390). -/
def Dev.resetFiring (d : Dev) (ids : List Nat) : Dev :=
  d.each ids fun d id => d.endItem id isInterrupted 0x0C

/-- The verdicts that the former ACTIVE has not given: items FIRED whose inspection has ended or does not
apply. -/
def Dev.pendingVerdicts (d : Dev) : Dev :=
  d.each (d.itk.items.filter fun i => i.state == isFired) fun d i =>
    if !(d.inspects i.zone) || i.insVoid then d.verdictItem i.id false (d.itemBad i)
    else if i.inspected then d.verdictItem i.id true (d.itemBad i) else d

/-- The takeover of R390. After a partner loss, the events with a fire instant from 100 ns before the last
ALIVE edge are uncertain; after a divergence, `ids` are the items of diverged events that have fired. -/
def Dev.takeover (d : Dev) (cause : Nat) (ids : List Nat) : Dev :=
  let t0 := (d.twn.aliveC - 100) * 1000
  let unc := if cause = 1 then d.fir.heads.filter fun h => h.lastCmd.any fun t => decide (t0 ≤ t) else []
  let d1 := d.becomeActive (d.epoch + 1)
  let d2 := d1.wrN R.TWN_LASTTKO (cause * 2 ^ 28 + unc.length)
  let d3 := (d2.incSat F.TWN_TKOCNT_COUNT).put64 R.TWN_TKOTIMELO R.TWN_TKOTIMEHI d2.c
  let d4 := ((d3.put F.TWN_IRQ_STAT_TAKEOVER 1).report 38).resetFiring (ids ++ (unc.map (·.lastItems)).flatten).eraseDups
  d4.pendingVerdicts

/-- The partner is lost (R389): its ALIVE is lost and the link silent. A STANDBY takes over; an ACTIVE goes
on alone. -/
def Dev.partnerLost (d : Dev) : Dev :=
  if d.get F.TWN_STAT_PALIVE = 1 ∨ !d.twn.silent then d
  else if d.role = roleStandby then d.takeover 1 []
  else d.when (d.role == roleActive && d.get F.TWN_STAT_ALONE == 0) Dev.goAlone

/-- The journal in MRAM (R121, R380): records, zone marks, in-use bitmap and generation. -/
def inJournal (a : Nat) : Bool :=
  (mramBase ≤ a && a < 0x03300000) || (0x03380000 ≤ a && a < 0x033A1800) || (dwGen ≤ a && a < dwGen + 16)

/-- Sends COPY of this chip's state (R380), under the model's REGION codes: 0 MRAM, 1 nozzle states, 2 and 3
the trim banks, 4 STEPSEQ, 5 corrections, 6 accumulators and 7 ring of a head, 8 shadow and 9 active
registers, 10 events formed, 11 reject queue, 12 and 13 lamp levels in shadow and in force, 14 settling marks, 15 temperatures used, 255 the end with the
epoch. -/
def Dev.sendCopy (d : Dev) : Dev :=
  let pairs (l : List (Nat × Nat)) : List Nat := (l.map fun x => [x.1, x.2]).flatten
  let ints (l : List (Nat × Int)) : List Nat := pairs (l.map fun x => (x.1, ux 32 x.2))
  let one (d : Dev) (r o : Nat) (l : List Nat) : Dev := d.twSend 0x30 ([r, o, l.length / 2] ++ l)
  let mram := d.mem.filter fun x => inJournal x.1
  let shared := ((List.range 8).map firSet).flatten ++ ((List.range 4).map trgSet).flatten
  let d1 := one d 0 0 (pairs (mram.map fun x => (x.1, x.2.toNat)))
  let d2 := one (one (one d1 1 0 (pairs d.nzm.states)) 2 0 (ints d.nzm.active)) 3 0 (ints d.nzm.next)
  let d3 := one (one d2 4 0 (pairs ((List.range 8).map fun n => (n, d.get (F.NZM_HG_STEPSEQ_SEQ n))))) 5 0 (ints d.nzm.corr)
  let d4 := d3.each (List.range 64) fun d h => one (one d 6 h (pairs (d.head h).acc)) 7 h (pairs (d.head h).ring)
  let d5 := one d4 8 0 (pairs (shared.map fun a => (a, (d.rd a).toNat)))
  let d6 := one d5 9 0 (pairs (d.act.map fun x => (x.1, x.2.toNat)))
  let d7 := one d6 10 0 (pairs ((List.range 64).map fun h => (h, (d.head h).formed)))
  let d8 := d7.each [0, 1] fun d o => one d 11 o (pairs (nth d.pos.rejs o {}).queue)
  let d9 := one d8 12 0 (pairs (d.lmp.strs.map fun x => (x.ix, x.shL + 2 ^ 16 * x.shF)))
  let d10 := one d9 13 0 (pairs (d.lmp.strs.map fun x => (x.ix, x.acL + 2 ^ 16 * x.acF)))
  let d11 := one (one d10 14 0 (pairs d.nzm.settle)) 15 0 (ints d.nzm.temps)
  d11.twSend 0x30 [255, d.epoch, 0]

/-- The partner's role and epoch are reported: a later epoch fences this chip (R392); an ACTIVE whose partner
joins begins COPY and replicates (R380, R384), and one whose partner leaves goes on alone. -/
def Dev.peerRole (d : Dev) (r e : Nat) : Dev :=
  let old := d.get F.TWN_STAT_PROLE
  let d1 := ((d.put F.TWN_STAT_PROLE r).wrN R.TWN_PEPOCH e).learnEpoch 32 e
  if d1.role ≠ roleActive then d1
  else if r = roleSyncing ∧ old ≠ roleSyncing then (d1.put F.TWN_STAT_ALONE 0).sendCopy
  else if r ≠ roleSyncing ∧ r ≠ roleStandby ∧ d1.get F.TWN_STAT_ALONE = 0 then d1.goAlone
  else d1

/-- With AUTOREJOIN, a FENCED chip joins again when its link is UP, its partner ACTIVE and its health 0
(R392); the checks of R379 hold for it too. -/
def Dev.autoRejoin (d : Dev) : Dev :=
  let ok := d.twn.hello.any fun h => h.tag == (d.rd R.TWN_PAIRTAG).toNat && h.seq == d.cfg.seq
  d.when (d.role == roleFenced && !d.twn.starting && d.get F.TWN_CFG_AUTOREJOIN == 1 && d.get F.TWN_STAT_LINKUP == 1 &&
    d.get F.TWN_STAT_PROLE == roleActive && d.health == 0 && ok) Dev.startSync

/-- A valid block has come on the twin link: it is not silent, and a hold of acceptance ends (R375, R385). -/
def Dev.twHeard (d : Dev) : Dev :=
  if d.twn.silent then (d.onTwn fun t => { t with silent := false }).put F.TWN_STAT_ACCHOLD 0 else d

/-- A message of the twin link, delivered in MSEQ order and answered with MACK (R375). A chip without a pair
installation has no twin link. -/
def Dev.twRecv (d : Dev) (f : Dev → Dev) : Dev :=
  if !d.paired then d
  else
    let d1 := d.twHeard.emit (.twn 0x5A [d.twn.rxSeq])
    f (d1.onTwn fun t => { t with rxSeq := (t.rxSeq + 1) % 2 ^ 16 })

/-- TWIDLE: the partner's epoch and role (R375, R392). -/
def execTwidle (epoch role : Nat) (s : State) : Host.Outcome State Fault Refusal :=
  s.upd fun d => d.when d.paired fun d => ((d.twHeard).peerRole (role % 8) (epoch % 2 ^ 32)).autoRejoin

/-- This chip ranks before its partner (R379): a last role of ACTIVE, the greater epoch, the greater
journal generation, SIDE 0. -/
def Dev.ranksFirst (d : Dev) (h : TwHello) : Bool :=
  let mine := d.lastRole == roleActive
  let his := h.last == roleActive
  if mine ≠ his then mine
  else if d.epoch ≠ h.epoch then h.epoch < d.epoch
  else if d.gen ≠ h.gen then h.gen < d.gen
  else d.get F.TWN_CFG_SIDE == 0

/-- The table of R379 for a HELLO, on a chip that has entered READY as FENCED and is still starting. -/
def Dev.formPair (d : Dev) (h : TwHello) (first : Bool) : Dev :=
  if h.tag ≠ (d.rd R.TWN_PAIRTAG).toNat ∨ h.seq ≠ d.cfg.seq then d.when first fun d => d.report 41
  else if h.role = roleActive then d.startSync
  else if h.role = roleFenced then
    if d.ranksFirst h then d.becomeActive (1 + (h.epoch :: d.epochsSeen).foldl max d.epoch) else d.startSync
  else d

/-- HELLO (R376, R379): the link is UP, and a chip that is forming decides its role. -/
def execTwnHello (role side last epoch seq tag gen : Nat) (s : State) : Host.Outcome State Fault Refusal :=
  s.upd fun d => d.twRecv fun d =>
    let h : TwHello := { role := role, side := side, last := last, epoch := epoch, seq := seq, tag := tag, gen := gen }
    let first := d.twn.hello != some h
    let d1 := d.onTwn fun t => { t with hello := some h }
    let d2 := if d1.get F.TWN_STAT_LINKUP = 1 then d1 else (d1.put F.TWN_STAT_LINKUP 1).put F.TWN_IRQ_STAT_LINK 1
    let d3 := d2.peerRole (role % 8) (epoch % 2 ^ 32)
    if d3.running ∧ d3.role = roleFenced ∧ d3.twn.starting then d3.formPair h first else d3.autoRejoin

/-- The head that a divergence of positions is diagnosed on: the first head of a zone on the encoder. -/
def Dev.encHead (d : Dev) (e : Nat) : Nat :=
  ((((List.range 16).filter fun z => d.zoneOk z && d.zoneEnc z == e).map d.zoneHeads).flatten.head?).getD 0

/-- HEALTH (R383, R393): the partner's health, and RAW and H of its encoders (H in 1/65536 sub-line). On a
chip in lockstep that is not ACTIVE, positions more than one count apart at the same RAW are a divergence. -/
def execTwnHealth (health : Nat) (encs : List (Int × Int)) (s : State) : Host.Outcome State Fault Refusal :=
  s.upd fun d => d.twRecv fun d =>
    let d1 := (d.peerHealth health).autoRejoin
    let bad (x : (Int × Int) × Nat) : Bool :=
      let e := x.2
      let diff := (x.1.2 - (d1.pairH e / 2 ^ 16 : Nat)).natAbs
      d1.encOn e && (d1.enc e).raw == x.1.1 && decide (d1.encScale e < diff * 2 ^ 16)
    d1.when (d1.role == roleStandby) fun d =>
      d.each ((encs.take 4).zipIdx.filter bad) fun d x =>
        let h := d.encHead x.2
        d.diverge h (d.head h).formed []

/-! ### Messages of roles, signatures and diagnosis -/

/-- SIG: the partner's signature of an event (R386). A SYNCING chip in FOLLOW that has no line for the head
counts the event. -/
def execTwnSig (head : Fin 64) (count sig : Nat) (s : State) : Host.Outcome State Fault Refusal :=
  s.upd fun d => d.twRecv fun d =>
    let h := head.val
    let c := count % 2 ^ 32
    if d.role = roleSyncing ∧ ((d.head h).queue = [] ∨ !(d.twn.cut.contains (h / 8))) then
      d.onHead h fun x => { x with formed := max x.formed c }
    else d.when d.signs fun d => (d.onTwn fun t => { t with peer := t.peer ++ [(h, c, sig % 2 ^ 32)] }).sigCompare h c

/-- SIG_TIMEOUT: the partner's SIG of an event has not come within SIGWIN of this chip's own. -/
def execSigTimeout (head : Fin 64) (count : Nat) (s : State) : Host.Outcome State Fault Refusal :=
  s.upd fun d =>
    let mine (x : Nat × Nat × Nat) : Bool := x.1 == head.val && x.2.1 == count % 2 ^ 32
    if !(d.twn.own.any mine) ∨ !(d.signs && d.role ≠ roleSyncing) ∨ (d.role = roleActive ∧ d.get F.TWN_STAT_PROLE ≠ roleStandby) then d
    else (d.onTwn fun t => { t with own := t.own.filter fun x => !(mine x) }).diverge head (count % 2 ^ 32)
      (d.panItems head count)

/-- Sources of condition 3 of R387 for a head group. -/
def diagSource (n src : Nat) : Bool :=
  (52 ≤ src && src ≤ 55) || (64 ≤ src && src ≤ 68) || (80 ≤ src && src ≤ 83) || (96 ≤ src && src ≤ 99) ||
  src == 104 + 2 * n || src == 105 + 2 * n || (120 ≤ src && src ≤ 127)

/-- The outcome of a diagnosis once both results are known (R387, R388). -/
def Dev.diagOutcome (d : Dev) : Dev :=
  match d.twn.diag with
  | none => d
  | some g =>
    match g.own, g.peer with
    | some mine, some his =>
      let d1 := (d.onTwn fun t => { t with diag := none }).put F.TWN_STAT_DIAG 0
      if d.role = roleActive then
        if !mine ∧ his then d1.resign 2 d1.takeoverCounts
        else
          let d2 := d1.onTwn fun t => { t with divs := [] }
          d2.when (!mine && !his) fun d => d.report 43
      else if d.role = roleStandby then
        if mine ∧ !his then d1
        else ((d1.onTwn fun t => { t with divs := [] }).when (!mine && !his) fun d => d.report 43).fence
      else d1
    | _, _ => d

/-- DIAGNOSIS_COMPLETE: this chip's diagnosis ends (R387). `scrub` and `slot` say what the hardware found of
conditions 1 and 2; condition 3 follows from the faults raised since the head's last matching SIG. -/
def execDiagnosisComplete (scrub slot : Bool) (s : State) : Host.Outcome State Fault Refusal :=
  s.upd fun d =>
    match d.twn.diag with
    | none => d
    | some g =>
      if g.own.isSome then d
      else
        let since := ((d.twn.matched.find? fun x => x.1 == g.head).map (·.2)).getD 0
        let fault := d.twn.raised.any fun x => diagSource (g.head / 8) x.1 && decide (since ≤ x.2)
        let pass := !(scrub || slot || fault)
        let d1 := d.onTwn fun t => { t with diag := some { g with own := some pass } }
        (d1.twSend 0x31 [g.head, g.count, if pass then 0 else 1]).diagOutcome

/-- DIAG: the partner's result (R387); a chip that has not seen the divergence itself diagnoses too. -/
def execTwnDiag (head : Fin 64) (count : Nat) (failed : Bool) (s : State) : Host.Outcome State Fault Refusal :=
  s.upd fun d => d.twRecv fun d =>
    let d1 := d.when (d.twn.diag.isNone && (d.role == roleActive || d.role == roleStandby)) fun d =>
      d.diverge head (count % 2 ^ 32) (d.panItems head (count % 2 ^ 32))
    (d1.onTwn fun t => { t with diag := t.diag.map fun g => { g with peer := some (!failed) } }).diagOutcome

/-- RESIGN: a STANDBY takes over at the named events (R389, R390); the items of diverged events that the
former ACTIVE has fired finalise INTERRUPTED (R388). A SYNCING chip has lost its ACTIVE. -/
def execResign (cause : Fin 8) (counts : List Nat) (s : State) : Host.Outcome State Fault Refusal :=
  s.upd fun d => d.twRecv fun d =>
    if d.role = roleSyncing then d.syncFail
    else d.when (d.role == roleStandby) fun d =>
      let ids := ((d.twn.divs.filter fun x => x.2.1 < nth counts x.1 0).map fun x => x.2.2).flatten
      (d.put F.TWN_STAT_PROLE roleFenced).takeover cause (if cause.val = 2 then ids else [])

/-- FENCE: the partner of the ACTIVE enters FENCED (R385). -/
def execFence (epoch : Nat) (s : State) : Host.Outcome State Fault Refusal :=
  s.upd fun d => d.twRecv fun d =>
    (d.learnEpoch 32 (epoch % 2 ^ 32)).when (d.role == roleStandby || d.role == roleSyncing) Dev.fence

/-! ### The link's own blocks and timers -/

/-- MACK: a message is acknowledged (R375). -/
def execMack (mseq : Fin 65536) (s : State) : Host.Outcome State Fault Refusal :=
  s.upd fun d => d.when d.paired fun d =>
    d.twHeard.onTwn fun t => { t with unacked := t.unacked.filter fun x => x.1 != mseq.val }

/-- Sends a message again that has no MACK yet. -/
def Dev.twResend (d : Dev) (mseq : Nat) : Dev :=
  match d.twn.unacked.find? fun x => x.1 == mseq with
  | some (q, ty, body) => d.emit (.twn ty (q :: body))
  | none => d

/-- MNAK: the CRC of a message failed, and it goes out again. -/
def execMnak (mseq : Fin 65536) (s : State) : Host.Outcome State Fault Refusal :=
  s.upd fun d => d.when d.paired fun d => d.twHeard.twResend mseq

/-- MESSAGE_RESEND_TIMER: no MACK of a message within 5 µs. -/
def execMessageResendTimer (mseq : Fin 65536) (s : State) : Host.Outcome State Fault Refusal :=
  s.upd fun d => d.twResend mseq

/-- The word of a side-band frame (R377). -/
def sbWord (role epoch health : Nat) : Nat :=
  let w := 0x5A * 2 ^ 56 + role % 8 * 2 ^ 53 + epoch % 2 ^ 32 * 2 ^ 21 + health % 256 * 2 ^ 13
  w + wordCrc w

/-- SIDEBAND_FRAME: a frame from the partner; one with a wrong marker or CRC is ignored (R377). -/
def execSidebandFrame (frame : Nat) (s : State) : Host.Outcome State Fault Refusal :=
  s.upd fun d =>
    if !d.paired ∨ bits frame 56 8 ≠ 0x5A ∨ bits frame 0 8 ≠ wordCrc (frame % 2 ^ 64) then d
    else ((d.peerRole (bits frame 53 3) (bits frame 21 32)).peerHealth (bits frame 13 8)).autoRejoin

/-- SIDEBAND_SEND: every 10 µs a frame goes out (type 0x100 stands for the side-band). -/
def execSidebandSend (s : State) : Host.Outcome State Fault Refusal :=
  s.upd fun d => d.when d.paired fun d => d.healthCheck.emit (.twn 0x100 [sbWord d.healthCheck.role d.epoch d.health])

/-- ALIVE_LOST: no edge on TWIN_ALVI for 80 ns (R377). With the link UP it raises source 37 only; with the
link silent the partner is lost (R389). -/
def execAliveLost (s : State) : Host.Outcome State Fault Refusal :=
  s.upd fun d =>
    if !d.paired ∨ d.get F.TWN_STAT_PALIVE = 0 then d
    else
      let t0 := d.c - 80
      let d1 := ((d.put F.TWN_STAT_PALIVE 0).put F.TWN_IRQ_STAT_PALIVE 1).onTwn fun t => { t with aliveC := t0 }
      (d1.when (!d1.twn.silent && d1.get F.TWN_STAT_LINKUP == 1) fun d => d.report 37).partnerLost

/-- ALIVE_REGAINED: 16 edges in a row (R377). -/
def execAliveRegained (s : State) : Host.Outcome State Fault Refusal :=
  s.upd fun d =>
    if !d.paired ∨ d.get F.TWN_STAT_PALIVE = 1 then d
    else (d.put F.TWN_STAT_PALIVE 1).put F.TWN_IRQ_STAT_PALIVE 1

/-- TWIN_LINK_SILENT: no valid block on either lane for 100 ns (R375): source 36. A SYNCING chip is FENCED
(R380), an ACTIVE whose partner's ALIVE toggles holds acceptance (R385), and without ALIVE the partner is
lost (R389). -/
def execTwinLinkSilent (s : State) : Host.Outcome State Fault Refusal :=
  s.upd fun d =>
    if !d.paired ∨ d.twn.silent then d
    else
      let now := d.c
      let d1 := d.onTwn fun t => { t with silent := true, silentC := now }
      let d2 := ((d1.put F.TWN_STAT_LINKUP 0).put F.TWN_IRQ_STAT_LINK 1).report 36
      if d2.role = roleSyncing then d2.fence
      else if d2.get F.TWN_STAT_PALIVE = 0 then d2.partnerLost
      else d2.when d2.replicates fun d => d.put F.TWN_STAT_ACCHOLD 1

/-- STANDBY_LINK_TIMEOUT: a STANDBY's link has been silent for LINKTO (R385): it resigns to FENCED. -/
def execStandbyLinkTimeout (s : State) : Host.Outcome State Fault Refusal :=
  s.upd fun d => d.when (d.role == roleStandby && d.twn.silent) fun d =>
    (d.atTime (d.twn.silentC + 100000 * d.get F.TWN_CFG_LINKTO)).fence

/-- REPLICATION_TIMEOUT: no JACK within REPLTO while the link is UP (R385): the partner is fenced, and the
ACTIVE goes on alone with source 42. -/
def execReplicationTimeout (s : State) : Host.Outcome State Fault Refusal :=
  s.upd fun d =>
    if !d.replicates ∨ d.twn.silent ∨ d.twn.jackWait = [] then d
    else ((d.twSend 0x41 [d.epoch]).goAlone).report 42

/-- FORMWAIT_EXPIRY: a chip that is forming has had no twin link and no ALIVE for FORMWAIT (R379). -/
def execFormwaitExpiry (s : State) : Host.Outcome State Fault Refusal :=
  s.upd fun d =>
    if !d.paired ∨ !d.running ∨ d.role ≠ roleFenced ∨ !d.twn.starting ∨ d.get F.TWN_STAT_LINKUP = 1 ∨ d.get F.TWN_STAT_PALIVE = 1 then d
    else
      let older := d.epochsSeen.any fun e =>
        let x := (e + 65536 - d.epoch % 65536) % 65536
        x != 0 && decide (x < 32768)
      if d.lastRole = roleActive ∧ !older then d.becomeActive (1 + (d.get F.TWN_PEPOCH_EPOCH :: d.epochsSeen).foldl max d.epoch)
      else d.onTwn fun t => { t with starting := false }

/-- TWN_HELLO_SEND: HELLO goes out every 100 ms (R376). -/
def execTwnHelloSend (s : State) : Host.Outcome State Fault Refusal :=
  s.upd fun d => d.when d.paired fun d =>
    d.twSend 0x01 [d.sec.fuses.uid, d.role, d.get F.TWN_CFG_SIDE, d.lastRole, 0, d.epoch, d.cfg.seq, (d.rd R.TWN_PAIRTAG).toNat, d.gen]

/-- TWN_HEALTH_SEND: HEALTH goes out every 10 ms, with RAW and H of each encoder (R376, R393). -/
def execTwnHealthSend (s : State) : Host.Outcome State Fault Refusal :=
  s.upd fun d => d.when d.paired fun d0 =>
    let d := d0.healthCheck
    d.twSend 0x02 (d.health :: ((List.range 4).map fun e => [ux 64 (d.enc e).raw, d.pairH e / 2 ^ 16 % 2 ^ 64]).flatten)

/-! ### Self-test (R393) -/

/-- The MRAM test word of R393 (entry 8). -/
def dwTest : Nat := 0x033A1850

/-- A result of a self-test: its bit of TWN_HEALTH, true for failed. -/
def Dev.testResult (d : Dev) (f : Fld) (failed : Bool) : Dev := (d.put f (if failed then 1 else 0)).healthCheck

/-- MEMORY_SCRUB: every SEC-DED memory has been scrubbed; `bad`: an uncorrectable error was found. -/
def execMemoryScrub (bad : Bool) (s : State) : Host.Outcome State Fault Refusal :=
  s.upd fun d => d.testResult F.TWN_HEALTH_SCRUB bad

/-- MRAM_TEST: a test word is written and read back. -/
def execMramTest (pattern : Nat) (s : State) : Host.Outcome State Fault Refusal :=
  s.upd fun d =>
    let r := d.mwr dwTest (pattern % 2 ^ 64)
    r.1.testResult F.TWN_HEALTH_MRAM (!r.2)

/-- MAC_SELF_TEST: the known-answer test of the MAC unit; `failed` says what it found. -/
def execMacSelfTest (failed : Bool) (s : State) : Host.Outcome State Fault Refusal :=
  s.upd fun d => d.testResult F.TWN_HEALTH_MAC failed

/-! ### Requests (R394) -/

/-- The takeover points of a swap: 2 µs ahead of the pans. -/
def Dev.swapCounts (d : Dev) : List Nat :=
  (List.range 64).map fun h =>
    let soon := (d.head h).pan.filter fun e => e.left.isSome || (d.predict h (d.c * 1000) e).any fun t => decide (t ≤ 2000000)
    (d.head h).sent + 1 + soon.length

/-- A request of R394: 1 swap, 2 rejoin, 3 resign, 4 force. -/
def Dev.twnRequest (d : Dev) (cmd : Nat) : Nat × Dev :=
  let swap (cause : Nat) : Nat × Dev :=
    if d.role = roleActive ∧ d.get F.TWN_STAT_PROLE = roleStandby ∧ d.get healthBits = 0 then
      (sOk, d.resign cause d.swapCounts)
    else (sBadState, d)
  if !d.paired then (sBadState, d)
  else if cmd = 1 then swap 3
  else if cmd = 2 then
    if d.role ≠ roleFenced then (sBadState, d)
    else if d.get F.TWN_STAT_LINKUP = 0 then (sAbsent, d)
    else (sOk, d.startSync)
  else if cmd = 3 then
    if d.role = roleStandby ∨ d.role = roleSyncing then (sOk, d.fence) else swap 4
  else if d.role = roleFenced ∧ d.twn.silent ∧ d.get F.TWN_STAT_PALIVE = 0 then
    let d1 := d.becomeActive (1 + (d.get F.TWN_PEPOCH_EPOCH :: d.epochsSeen).foldl max d.epoch)
    let d2 := d1.wrN R.TWN_LASTTKO (1 * 2 ^ 28)
    let d3 := (d2.incSat F.TWN_TKOCNT_COUNT).put64 R.TWN_TKOTIMELO R.TWN_TKOTIMEHI d2.c
    (sOk, (d3.put F.TWN_IRQ_STAT_TAKEOVER 1).report 38)
  else (sBadState, d)

/-! ### Registers -/

def twnRngs : List Rng :=
  [⟨F.TWN_CFG_LINKTO, 1, 255⟩, ⟨F.TWN_CFG_SIGWIN, 10, 255⟩, ⟨F.TWN_CFG_FORMWAIT, 1, 255⟩, ⟨F.TWN_CTL_KEY, 0x7E1D, 0x7E1D⟩,
   ⟨F.TWN_CTL_CMD, 1, 4⟩]

/-- What a write to TWN must meet beside R501. -/
def twnCheck (d : Dev) (w : Wr) : Nat :=
  firstFail [
    (rngBad twnRngs w, sBadValue),
    (w.at R.TWN_CFG && w.val F.TWN_CFG_PAIR == 1 && !(d.claimed 3 40 && d.claimed 3 41), sConflict),
    (w.at R.TWN_CTL && !d.running && d.st? ≠ stSafe, sBadState),
    (w.at R.TWN_CTL && (d.st? == stSafe) && w.val F.TWN_CTL_CMD == 1, sBadState),
    (w.at R.TWN_CTL && (d.twnRequest (w.val F.TWN_CTL_CMD)).1 != sOk, (d.twnRequest (w.val F.TWN_CTL_CMD)).1)]

/-- What a write to TWN does beside storing its fields. -/
def twnApply (d : Dev) (w : Wr) : Dev := if w.at R.TWN_CTL then (d.twnRequest (w.val F.TWN_CTL_CMD)).2 else d

/-- TWN_HEALTH, and the age of the partner's report in ms (R393). -/
def twnView (d : Dev) (base : Nat) : Option Nat :=
  if base = R.TWN_HEALTH then some d.health
  else if base = R.TWN_PHEALTH then
    some (d.get healthBits + 2 ^ 16 * (if d.twn.phC = 0 then 0 else min 65535 ((d.c - d.twn.phC) / 1000000)))
  else none

end Sys2Proof.Machine
end

