-- ==== Sys2Proof/Machine/Flt.lean ====
section
/-! DEFINITION. The fault collector's own commands (R460, R468 to R473): reports, its checks of itself,
the journal's end of a SAFE entry, and the FLT registers. -/

namespace Sys2Proof.Machine

/-- FAULT_REPORT: reports arrive in one cycle of the collector, as (source, DETAIL) (R460, R461).
`damaged` is an entry of the history in which an uncorrectable error was found: it keeps FLAGS.ECC with its
other fields 0, and source 33 is raised (R468). -/
def execFaultReport (reports : List (Nat × Nat)) (damaged : Option (Fin 64)) (s : State) : Host.Outcome State Fault Refusal :=
  s.upd fun d =>
    let d1 := d.each reports fun d r => d.report r.1 (some r.2)
    match damaged with
    | none => d1
    | some e => ((d1.each (List.range 8) fun d w => d.wrN (R.FLT_HIST_W e w) (if w = 0 then 4 * 2 ^ 16 else 0))).report 33

/-- SAFE_JOURNAL_COMPLETE: the journal is consistent after an entry to SAFE (R472 step 5). -/
def execSafeJournalComplete (s : State) : Host.Outcome State Fault Refusal :=
  s.upd fun d => d.when (d.st? = stSafe && d.journalSafe) fun d => d.put F.FLT_SAFESTAT_JOURNAL 1

/-- SEVERITY_CHECK (R471): `copies` are the sources whose second copy differs, with its value: both take the
higher one. `words` are the words of the pending vector with a parity error: every used source in them
is taken as pending. Source 32 is raised once for any of these. -/
def execSeverityCheck (copies : List (Fin 256 × Fin 6)) (words : List (Fin 8)) (s : State) : Host.Outcome State Fault Refusal :=
  s.upd fun d =>
    let bad := copies.filter fun x => (srcInfo x.1).isSome && d.sev x.1 != x.2.val
    let d1 := d.each bad fun d x => d.put (F.FLT_SRC_CFG_SEV x.1) (max (d.sev x.1) x.2.val)
    let hit := (words.map fun k => (List.range 32).map fun b => 32 * k.val + b).flatten.filter fun n => (srcInfo n).isSome
    let d2 := d1.each hit fun d n => d.setBit (F.FLT_PEND_PEND (n / 32)) (n % 32)
    let d3 := d2.each hit fun d n => d.react { src := n, sev := d.sev n, flags := 0, detail := 0 }
    (d3.when (bad != [] || words != []) fun d => d.report 32).syncStop

/-! ### Leaving SAFE (R473) -/

/-- The checks of a write to FLT_SAFECTL, in order. -/
def Dev.exitCheck (d : Dev) (v : Nat) : Nat :=
  firstFail [(bits v 16 16 != 0x5AFE, sBadValue), (bitB v 0 && d.st? ≠ stSafe, sBadState), (bitB v 0 && !d.exitOk, sBadState)]

/-- An accepted EXIT: READY, the safe flags drop, LMP takes its pins back, the reject queues start empty. -/
def Dev.safeExit (d : Dev) : Dev :=
  let d1 := ((d.enter stReady).put F.FLT_STAT_SAFE 0).put F.FLT_SAFESTAT_ACTIVE 0
  let d2 := d1.each (List.range 8) fun d n => d.put (F.FIR_HG_STAT_IDLESAFE n) 0
  let d3 := d2.onPos fun p => { p with rejs := p.rejs.map fun _ => { asserted := false } }
  (d3.onSys fun t => { t with safeJtag := false, safeFatal := false }).lampBack.syncPrinting

/-! ### Registers -/

/-- What a write to FLT must meet beside R501. -/
def fltCheck (d : Dev) (w : Wr) : Nat :=
  let low (sev : Nat) : Bool := match srcInfo w.i with
    | some (_, m) => sev < m || 5 < sev
    | none => sev != 0
  let src := w.val F.FLT_INJ_SOURCE
  let temp (f : Fld) : Int := sx 8 (w.val f)
  firstFail [
    (rngBad [⟨F.FLT_CFG_FNSEV, 1, 4⟩, ⟨F.FLT_CFG_DETSEV, 0, 5⟩, ⟨F.FLT_TEMP_HYST, 1, 255⟩, ⟨F.FLT_SAFEN_FILTER, 1, 1000⟩] w, sBadValue),
    (w.at R.FLT_TEMP && w.opens F.FLT_TEMP_HOT && decide (temp F.FLT_TEMP_HOT ≤ temp F.FLT_TEMP_WARN), sBadValue),
    (w.at (R.FLT_SRC_CFG 0) && w.opens (F.FLT_SRC_CFG_ISEV 0) && low (w.val (F.FLT_SRC_CFG_ISEV 0)), sBadValue),
    (w.at (R.FLT_SRC_CFG 0) && w.opens (F.FLT_SRC_CFG_SEV 0) && ((srcInfo w.i).isNone || low (w.val (F.FLT_SRC_CFG_SEV 0))), sBadValue),
    (w.at R.FLT_INJ && (srcInfo src).isNone, sBadValue),
    (w.at R.FLT_INJ && !(d.running || d.st? = stSafe), sBadState),
    (w.at R.FLT_SAFECTL && d.exitCheck w.new != sOk, d.exitCheck w.new)]

/-- What a write to FLT does beside storing its fields: the pending bit of source 196 stays while SAFE_N
is low (R468), and STOP follows the pending bits (R465). -/
def fltApply (d : Dev) (w : Wr) : Dev :=
  if w.at (R.FLT_PEND 0) then
    let k := w.i
    let d1 := d.when (k == 6 && !d.sys.safeN && bitB w.old 4) fun d => d.setBit (F.FLT_PEND_PEND 6) 4
    d1.syncStop
  else if w.at (R.FLT_SRC_CFG 0) then d.syncStop
  else if w.at R.FLT_INJ then
    let r : Rep := { src := w.val F.FLT_INJ_SOURCE, detail := w.val F.FLT_INJ_DETAIL, inj := true }
    { d with reps := d.reps ++ [r] }
  else if w.at R.FLT_FWRAISE then d.report (200 + w.val F.FLT_FWRAISE_N) (some (w.new / 2 ^ 8 % 2 ^ 24))
  else if w.at R.FLT_SAFECTL then d.when (bitB w.new 0) Dev.safeExit
  else if w.at R.FLT_HISTCLR then
    let d1 := d.when (bitB w.new 2) fun d => d.wrN R.FLT_LOSTCNT 0
    let d2 := d1.when (bitB w.new 1) fun d => (d.wrN R.FLT_FIRST 0).each (List.range 16) fun d k => d.wrN (R.FLT_DETAIL k) 0
    let d3 := d2.when (bitB w.new 0) fun d => ((d.put F.FLT_STAT_COUNT 0).put F.FLT_STAT_NEXT 0).put F.FLT_STAT_FROZEN 0
    d3.when (bitB w.new 0 || bitB w.new 1) fun d => d.onSys fun t => { t with capOpen := true, capLeft := none }
  else d

/-- FLT_SAFESTAT shows EXITOK as the checks stand. -/
def fltView (d : Dev) (base : Nat) : Option Nat :=
  if base = R.FLT_SAFESTAT then
    some ((d.rd R.FLT_SAFESTAT).toNat % 4 + (if d.exitOk then 4 else 0) + (d.rd R.FLT_SAFESTAT).toNat / 16 * 16)
  else none

end Sys2Proof.Machine
end

