-- ==== Sys2Proof/Machine/Symbols.lean ====
section
/-! DEFINITION. The symbologies of R201 to R205: the code-set choice of Code 128, EAN and UPC, Data
Matrix ECC 200, QR, and the GS1 element strings. The module patterns, check characters, error
correction and placement come from the standards that the spec names (PRESUMED, entry 5); what the
spec fixes of an encoder's choices is as the rules say. -/

namespace Sys2Proof.Machine

/-- Kinds of field failure (IMP_ERR). -/
def fkLength : Nat := 1
def fkCounter : Nat := 2
def fkTime : Nat := 3
def fkGlyph : Nat := 4
def fkCharset : Nat := 5
def fkCapacity : Nat := 6
def fkGs1 : Nat := 7
def fkBox : Nat := 8
def fkLevel : Nat := 9
def fkKeys : Nat := 10
def fkEcc : Nat := 11

/-- A byte that is an ASCII digit. -/
def isDig (b : Nat) : Bool := 48 ≤ b && b ≤ 57

/-- The byte that stands for FNC1 (R195). -/
def fnc1 : Nat := 0x1D

/-- Digits at the head of a list. -/
def digRun (l : List Nat) : Nat := (l.takeWhile isDig).length

/-- GS1 mod-10 check digit of digits (0 to 9): weights 3 and 1 alternating from the rightmost. -/
def checkDigit (ds : List Nat) : Nat :=
  let s := (ds.reverse.zipIdx).foldl (fun x d => x + d.1 * (if d.2 % 2 = 0 then 3 else 1)) 0
  (10 - s % 10) % 10

/-- The values of digit characters. -/
def digVals (l : List Nat) : List Nat := l.map (· - 48)

/-- A 2D symbol: its modules, the number from 1 of the codeword that each module carries (0 for
none), the error-correction block of each codeword, and check words a block. -/
structure Sym where
  mods : List (List Bool)
  cw : List (List Nat)
  blk : List Nat
  ecc : Nat
  deriving DecidableEq, Repr

/-! ### Code 128 (R201) -/

/-- Element widths of the Code 128 symbol characters 0 to 105. -/
def c128W : List Nat :=
  [212222, 222122, 222221, 121223, 121322, 131222, 122213, 122312, 132212, 221213, 221312, 231212,
   112232, 122132, 122231, 113222, 123122, 123221, 223211, 221132, 221231, 213212, 223112, 312131,
   311222, 321122, 321221, 312212, 322112, 322211, 212123, 212321, 232121, 111323, 131123, 131321] ++
  [112313, 132113, 132311, 211313, 231113, 231311, 112133, 112331, 132131, 113123, 113321, 133121,
   313121, 211331, 231131, 213113, 213311, 213131, 311123, 311321, 331121, 312113, 312311, 332111,
   314111, 221411, 431111, 111224, 111422, 121124, 121421, 141122, 141221, 112214, 112412, 122114] ++
  [122411, 142112, 142211, 241211, 221114, 413111, 241112, 134111, 111242, 121142, 121241, 114212,
   124112, 124211, 411212, 421112, 421211, 212141, 214121, 412121, 111143, 111341, 131141, 114113,
   114311, 411113, 411311, 113141, 114131, 311141, 411131, 211412, 211214, 211232]

/-- The decimal digits of a number, most significant first, at least `n` of them. -/
def decDigits : Nat → Nat → List Nat
  | 0, _ => []
  | n + 1, x => decDigits n (x / 10) ++ [x % 10]

/-- Alternating dark and light runs of the given widths, dark first. -/
def runsOf : Bool → List Nat → List Bool
  | _, [] => []
  | b, n :: r => List.replicate n b ++ runsOf (!b) r

/-- The modules of one symbol character. -/
def c128Mods (v : Nat) : List Bool := runsOf true (decDigits 6 (nth c128W v 0))

/-- The stop character. -/
def c128Stop : List Bool := runsOf true [2, 3, 3, 1, 1, 1, 2]

/-- A byte that forces set A: 0x00 to 0x1F, but not the FNC1 of a GS1 content. -/
def needsA (gs1 : Bool) (b : Nat) : Bool := b < 0x20 && !(gs1 && b == fnc1)

/-- The set A or B (0 or 1) for the rest of a content (R201 step 1). -/
def c128AB (gs1 : Bool) : List Nat → Nat
  | [] => 1
  | b :: r => if needsA gs1 b then 0 else if 0x60 ≤ b then 1 else c128AB gs1 r

/-- The value of a byte in set A or B. -/
def c128Val (gs1 : Bool) (set b : Nat) : Nat :=
  if gs1 && b == fnc1 then 102 else if set = 0 ∧ b < 0x20 then b + 64 else b - 32

/-- The symbol characters after the start character: set (0 A, 1 B, 2 C), the digits already judged
of the present run, and the content left. `lead` says that the leading digit of an odd run comes
next (R201 step 2). -/
def c128Run (gs1 : Bool) : Nat → Nat → Bool → List Nat → List Nat
  | 0, _, _, _ => []
  | _, _, _, [] => []
  | n + 1, 2, _, x :: y :: r =>
    if isDig x && isDig y then (10 * (x - 48) + (y - 48)) :: c128Run gs1 n 2 false r
    else
      let t := c128AB gs1 (x :: y :: r)
      (if t = 0 then 101 else 100) :: c128Run gs1 n t true (x :: y :: r)
  | n + 1, 2, _, l =>
    let t := c128AB gs1 l
    (if t = 0 then 101 else 100) :: c128Run gs1 n t true l
  | n + 1, set, inRun, x :: r =>
    let k := digRun (x :: r)
    let sw := !inRun && ((4 ≤ k && k == (x :: r).length) || 6 ≤ k)
    if sw && k % 2 = 0 then 99 :: c128Run gs1 n 2 false (x :: r)
    else if sw then c128Val gs1 set x :: 99 :: c128Run gs1 n 2 false r
    else
      let other := if set = 0 then 0x60 ≤ x else needsA gs1 x
      if other then (if set = 0 then 100 else 101) :: c128Run gs1 n (1 - set) inRun (x :: r)
      else c128Val gs1 set x :: c128Run gs1 n set (isDig x) r

/-- The start set of a content (R201 step 1). -/
def c128Start (gs1 : Bool) (l : List Nat) : Nat :=
  if 4 ≤ digRun l || (l.all isDig && l.length % 2 == 0 && l != []) then 2 else c128AB gs1 l

/-- Code 128: the modules of a content. -/
def code128 (gs1 : Bool) (l : List Nat) : Except Nat (List Bool) :=
  if l.any (128 ≤ ·) then .error fkCharset
  else
    let st := c128Start gs1 l
    let cs := (if gs1 then [102] else []) ++ c128Run gs1 (4 * l.length + 4) st false l
    if cs.length < 1 ∨ 80 < cs.length then .error fkLength
    else
      let chk := (cs.zipIdx.foldl (fun x c => x + c.1 * (c.2 + 1)) (103 + st)) % 103
      .ok ((((103 + st) :: cs ++ [chk]).map c128Mods).flatten ++ c128Stop)

/-! ### EAN and UPC (R202) -/

/-- Bits of a number, most significant first. -/
def msbBits (n v : Nat) : List Bool := (List.range n).reverse.map v.testBit

/-- The set A code of a digit. -/
def eanL (d : Nat) : List Bool :=
  msbBits 7 (nth [0x0D, 0x19, 0x13, 0x3D, 0x23, 0x31, 0x2F, 0x3B, 0x37, 0x0B] d 0)

/-- The set C code of a digit. -/
def eanR (d : Nat) : List Bool := (eanL d).map (!·)

/-- The set B code of a digit. -/
def eanG (d : Nat) : List Bool := (eanR d).reverse

/-- Sets of the left half of EAN-13 by its first digit: bit 5 is the first digit's, 1 for set B. -/
def eanParity (d : Nat) : Nat := nth [0x00, 0x0B, 0x0D, 0x0E, 0x13, 0x19, 0x1C, 0x15, 0x16, 0x1A] d 0

/-- Six digits in sets A and B as `p` says. -/
def eanHalf (p : Nat) (ds : List Nat) : List Bool :=
  ((ds.zip (msbBits 6 p)).map fun x => if x.2 then eanG x.1 else eanL x.1).flatten

/-- EAN-13 of 13 digits. -/
def ean13 (ds : List Nat) : List Bool :=
  [true, false, true] ++ eanHalf (eanParity (ds.headD 0)) ((ds.drop 1).take 6) ++
  [false, true, false, true, false] ++ ((ds.drop 7).map eanR).flatten ++ [true, false, true]

/-- EAN-8 of 8 digits. -/
def ean8 (ds : List Nat) : List Bool :=
  [true, false, true] ++ ((ds.take 4).map eanL).flatten ++ [false, true, false, true, false] ++
  ((ds.drop 4).map eanR).flatten ++ [true, false, true]

/-- The UPC-A digits, without check digit, that number system and six digits of UPC-E stand for. -/
def upcExpand (ds : List Nat) : List Nat :=
  let d (i : Nat) : Nat := nth ds i 0
  let e := d 6
  if e ≤ 2 then [d 0, d 1, d 2, e, 0, 0, 0, 0, d 3, d 4, d 5]
  else if e = 3 then [d 0, d 1, d 2, d 3, 0, 0, 0, 0, 0, d 4, d 5]
  else if e = 4 then [d 0, d 1, d 2, d 3, d 4, 0, 0, 0, 0, 0, d 5]
  else [d 0, d 1, d 2, d 3, d 4, d 5, 0, 0, 0, 0, e]

/-- UPC-E of number system, six digits and check digit: sets by the check digit, turned over for
number system 1. -/
def upcE (ds : List Nat) : List Bool :=
  let p0 := nth [0x38, 0x34, 0x32, 0x31, 0x2C, 0x26, 0x23, 0x2A, 0x29, 0x25] (nth ds 7 0) 0
  let p := if ds.headD 0 = 0 then p0 else 0x3F - p0
  [true, false, true] ++ eanHalf p ((ds.drop 1).take 6) ++ [false, true, false, true, false, true]

/-- The digits of an EAN or UPC content with the check digit added or verified; `n` digits without
it. The types are those of IMP_TPLt_CFG: 3 EAN13, 4 EAN8, 5 UPCA, 6 UPCE. -/
def eanDigits (type : Nat) (l : List Nat) : Except Nat (List Nat) :=
  let n := if type = 3 then 12 else if type = 5 then 11 else 7
  if !(l.all isDig) ∨ (l.length ≠ n ∧ l.length ≠ n + 1) then .error fkCharset
  else
    let ds := digVals l
    let body := ds.take n
    let full := if type = 6 then upcExpand body else body
    let c := checkDigit full
    if type = 6 ∧ 1 < ds.headD 0 then .error fkCharset
    else if l.length = n + 1 ∧ nth ds n 0 ≠ c then .error fkCharset
    else .ok (body ++ [c])

/-- The modules of an EAN or UPC symbol. -/
def eanMods (type : Nat) (ds : List Nat) : List Bool :=
  if type = 3 then ean13 ds else if type = 4 then ean8 ds
  else if type = 5 then ean13 (0 :: ds) else upcE ds

/-! ### Reed-Solomon codes -/

/-- Doubling in GF(2^8) modulo a polynomial. -/
def gfpDbl (poly x : Nat) : Nat := if x < 128 then 2 * x else (2 * x) ^^^ poly

/-- Product in GF(2^8) modulo a polynomial, over the low `n` bits of `y`. -/
def gfpMulN (poly : Nat) : Nat → Nat → Nat → Nat
  | 0, _, _ => 0
  | n + 1, x, y => (if y % 2 = 1 then x else 0) ^^^ gfpMulN poly n (gfpDbl poly x) (y / 2)

/-- Power of 2 in GF(2^8). -/
def gfpExp (poly : Nat) : Nat → Nat
  | 0 => 1
  | n + 1 => gfpDbl poly (gfpExp poly n)

/-- Multiplies a polynomial (highest coefficient first, leading 1 dropped) by (x - r). -/
def rsMulRoot (poly : Nat) (g : List Nat) (r : Nat) : List Nat :=
  let m (x : Nat) : Nat := gfpMulN poly 8 x r
  List.zipWith (· ^^^ ·) (g ++ [0]) (m 1 :: g.map m)

/-- Generator polynomial of `n` check words whose first root is 2 to the `first`. -/
def rsGen (poly first n : Nat) : List Nat :=
  (List.range n).foldl (fun g i => rsMulRoot poly g (gfpExp poly (first + i))) []

/-- The check words of a block of data words. -/
def rsCheck (poly first n : Nat) (data : List Nat) : List Nat :=
  let g := rsGen poly first n
  data.foldl (fun rem b =>
    let f := b ^^^ rem.headD 0
    List.zipWith (· ^^^ ·) (rem.drop 1 ++ [0]) (g.map fun c => gfpMulN poly 8 c f)) (List.replicate n 0)

/-! ### Data Matrix (R203) -/

/-- A Data Matrix size: rows, columns, data regions down and across, data words, check words, blocks. -/
structure DmSize where
  rows : Nat
  cols : Nat
  rv : Nat
  rh : Nat
  data : Nat
  ecc : Nat
  blks : Nat
  deriving DecidableEq, Repr

/-- The sizes, by SIZE index less 1. -/
def dmSizes : List DmSize :=
  [⟨10, 10, 1, 1, 3, 5, 1⟩, ⟨12, 12, 1, 1, 5, 7, 1⟩, ⟨14, 14, 1, 1, 8, 10, 1⟩, ⟨16, 16, 1, 1, 12, 12, 1⟩,
   ⟨18, 18, 1, 1, 18, 14, 1⟩, ⟨20, 20, 1, 1, 22, 18, 1⟩, ⟨22, 22, 1, 1, 30, 20, 1⟩, ⟨24, 24, 1, 1, 36, 24, 1⟩,
   ⟨26, 26, 1, 1, 44, 28, 1⟩, ⟨32, 32, 2, 2, 62, 36, 1⟩, ⟨36, 36, 2, 2, 86, 42, 1⟩, ⟨40, 40, 2, 2, 114, 48, 1⟩] ++
  [⟨44, 44, 2, 2, 144, 56, 1⟩, ⟨48, 48, 2, 2, 174, 68, 1⟩, ⟨52, 52, 2, 2, 204, 84, 2⟩, ⟨64, 64, 4, 4, 280, 112, 2⟩,
   ⟨72, 72, 4, 4, 368, 144, 4⟩, ⟨80, 80, 4, 4, 456, 192, 4⟩, ⟨88, 88, 4, 4, 576, 224, 4⟩, ⟨96, 96, 4, 4, 696, 272, 4⟩,
   ⟨104, 104, 4, 4, 816, 336, 6⟩, ⟨120, 120, 6, 6, 1050, 408, 6⟩, ⟨132, 132, 6, 6, 1304, 496, 8⟩,
   ⟨144, 144, 6, 6, 1558, 620, 10⟩] ++
  [⟨8, 18, 1, 1, 5, 7, 1⟩, ⟨8, 32, 1, 2, 10, 11, 1⟩, ⟨12, 26, 1, 1, 16, 14, 1⟩, ⟨12, 36, 1, 2, 22, 18, 1⟩,
   ⟨16, 36, 1, 2, 32, 24, 1⟩, ⟨16, 48, 1, 2, 49, 28, 1⟩]

/-- ASCII encodation: digit pairs from the left, Upper Shift above 0x7F, 232 for FNC1 under GS1. -/
def dmAscii (gs1 : Bool) : Nat → List Nat → List Nat
  | 0, _ => []
  | _, [] => []
  | n + 1, [x] =>
    if gs1 && x == fnc1 then [232] else if x < 128 then [x + 1] else 235 :: (x - 127) :: dmAscii gs1 n []
  | n + 1, x :: y :: r =>
    if isDig x && isDig y then (130 + 10 * (x - 48) + (y - 48)) :: dmAscii gs1 n r
    else if gs1 && x == fnc1 then 232 :: dmAscii gs1 n (y :: r)
    else if x < 128 then (x + 1) :: dmAscii gs1 n (y :: r)
    else 235 :: (x - 127) :: dmAscii gs1 n (y :: r)

/-- The 255-state randomising of a Base 256 codeword at a position from 1. -/
def dmRand255 (pos b : Nat) : Nat := (b + (149 * pos) % 255 + 1) % 256

/-- The 253-state randomising of a pad codeword. -/
def dmRand253 (pos : Nat) : Nat := let p := 129 + (149 * pos) % 253 + 1; if 254 < p then p - 254 else p

/-- The codewords of a content before padding. -/
def dmWords (gs1 b256 : Bool) (l : List Nat) : List Nat :=
  if b256 then
    let len := if l.length ≤ 249 then [l.length] else [l.length / 250 + 249, l.length % 250]
    231 :: ((len ++ l).zipIdx.map fun x => dmRand255 (x.2 + 2) x.1)
  else (if gs1 then [232] else []) ++ dmAscii gs1 (l.length + 1) l

/-- The size for so many codewords: SIZE when it is not 0, else the smallest that the shape allows
(0 square, 1 rectangle, 2 either), the square first on equal counts. -/
def dmPick (size shape n : Nat) : Option DmSize :=
  if size ≠ 0 then (dmSizes[size - 1]?).filter fun z => n ≤ z.data
  else
    let ok := dmSizes.filter fun z => n ≤ z.data && (shape == 2 || (shape == 0) == (z.rows == z.cols))
    ok.foldl (fun b z => match b with
      | none => some z
      | some y => if z.rows * z.cols < y.rows * y.cols then some z else some y) none

/-- Pads codewords to the capacity of a symbol. -/
def dmPad (n : Nat) (ws : List Nat) : List Nat :=
  if ws.length < n then ws ++ 129 :: ((List.range (n - ws.length - 1)).map fun i => dmRand253 (ws.length + 2 + i)) else ws

/-- Data words followed by the check words of their interleaved blocks. -/
def dmEcc (z : DmSize) (ws : List Nat) : List Nat :=
  let per := z.ecc / z.blks
  let chk := (List.range z.blks).map fun b =>
    rsCheck 0x12D 1 per ((ws.zipIdx.filter fun x => x.2 % z.blks == b).map (·.1))
  let sh := if z.blks = 10 then 8 else 0
  ws ++ (List.range z.ecc).map fun i => nth (nth chk ((i + sh) % z.blks) []) (i / z.blks) 0

/-- The mapping matrix while it is filled: cell (row, column) as 8 × codeword + bit, with codewords from
1 and bits 0 (highest) to 7; 0 for a free cell. -/
structure DmMap where
  nr : Int
  nc : Int
  cells : Array Nat

/-- The place of a cell with the wrap of the standard's placement. -/
def DmMap.idx (m : DmMap) (r c : Int) : Nat :=
  let p : Int × Int := if r < 0 then (r + m.nr, c + 4 - (m.nr + 4) % 8) else (r, c)
  let q : Int × Int := if p.2 < 0 then (p.1 + 4 - (m.nc + 4) % 8, p.2 + m.nc) else p
  (q.1 * m.nc + q.2).toNat

/-- Places the eight bits of a codeword. -/
def DmMap.place (m : DmMap) (w : Nat) (l : List (Int × Int)) : DmMap :=
  { m with cells := l.zipIdx.foldl (fun a p => a.set! (m.idx p.1.1 p.1.2) (8 * w + p.2)) m.cells }

/-- The standard shape of a codeword whose last bit lies at a cell. -/
def dmUtah (r c : Int) : List (Int × Int) :=
  [(r - 2, c - 2), (r - 2, c - 1), (r - 1, c - 2), (r - 1, c - 1), (r - 1, c), (r, c - 2), (r, c - 1), (r, c)]

/-- The four corner shapes. -/
def dmCorner (nr nc : Int) (k : Nat) : List (Int × Int) :=
  if k = 1 then [(nr - 1, 0), (nr - 1, 1), (nr - 1, 2), (0, nc - 2), (0, nc - 1), (1, nc - 1), (2, nc - 1), (3, nc - 1)]
  else if k = 2 then [(nr - 3, 0), (nr - 2, 0), (nr - 1, 0), (0, nc - 4), (0, nc - 3), (0, nc - 2), (0, nc - 1), (1, nc - 1)]
  else if k = 3 then [(nr - 3, 0), (nr - 2, 0), (nr - 1, 0), (0, nc - 2), (0, nc - 1), (1, nc - 1), (2, nc - 1), (3, nc - 1)]
  else [(nr - 1, 0), (nr - 1, nc - 1), (0, nc - 3), (0, nc - 2), (0, nc - 1), (1, nc - 3), (1, nc - 2), (1, nc - 1)]

/-- Whether a cell is free. -/
def DmMap.free (m : DmMap) (r c : Int) : Bool := m.cells.getD (m.idx r c) 1 == 0

/-- One diagonal sweep, up to the right (`up`) or down to the left, from a cell with the next codeword. -/
def dmSweep (up : Bool) : Nat → DmMap → Nat → Int → Int → DmMap × Nat × Int × Int
  | 0, m, w, r, c => (m, w, r, c)
  | n + 1, m, w, r, c =>
    let inside := if up then decide (r < m.nr ∧ 0 ≤ c) else decide (0 ≤ r ∧ c < m.nc)
    let put := inside && m.free r c
    let m1 := if put then m.place w (dmUtah r c) else m
    let w1 := if put then w + 1 else w
    let r1 := if up then r - 2 else r + 2
    let c1 := if up then c + 2 else c - 2
    let on := if up then decide (0 ≤ r1 ∧ c1 < m.nc) else decide (r1 < m.nr ∧ 0 ≤ c1)
    if on then dmSweep up n m1 w1 r1 c1 else (m1, w1, r1, c1)

/-- The placement of ECC 200. -/
def dmFill : Nat → DmMap → Nat → Int → Int → DmMap
  | 0, m, _, _, _ => m
  | n + 1, m, w, r, c =>
    let corner (k : Nat) (b : Bool) (x : DmMap × Nat) : DmMap × Nat :=
      if b then (x.1.place x.2 (dmCorner m.nr m.nc k), x.2 + 1) else x
    let x1 := corner 1 (r == m.nr && c == 0) (m, w)
    let x2 := corner 2 (r == m.nr - 2 && c == 0 && m.nc % 4 != 0) x1
    let x3 := corner 3 (r == m.nr - 2 && c == 0 && m.nc % 8 == 4) x2
    let x4 := corner 4 (r == m.nr + 4 && c == 2 && m.nc % 8 == 0) x3
    let (m5, w5, r5, c5) := dmSweep true 200 x4.1 x4.2 r c
    let (m6, w6, r6, c6) := dmSweep false 200 m5 w5 (r5 + 1) (c5 + 3)
    let r7 := r6 + 3
    let c7 := c6 + 1
    if r7 < m.nr ∨ c7 < m.nc then dmFill n m6 w6 r7 c7 else m6

/-- The mapping matrix of a size, filled. -/
def dmFilled (z : DmSize) : DmMap :=
  let nr := z.rows - 2 * z.rv
  let nc := z.cols - 2 * z.rh
  dmFill 400 { nr := nr, nc := nc, cells := Array.replicate (nr * nc) 0 } 1 4 0

/-- The cell of the mapping matrix under a module, or `none` for a finder module. -/
def dmCell (z : DmSize) (y x : Nat) : Option Nat :=
  let hh := z.rows / z.rv
  let ww := z.cols / z.rh
  let ry := y % hh
  let rx := x % ww
  if rx = 0 ∨ ry = hh - 1 ∨ ry = 0 ∨ rx = ww - 1 then none
  else some ((y / hh * (hh - 2) + ry - 1) * (z.cols - 2 * z.rh) + (x / ww * (ww - 2) + rx - 1))

/-- A finder module. -/
def dmFinder (z : DmSize) (y x : Nat) : Bool :=
  let hh := z.rows / z.rv
  let ww := z.cols / z.rh
  let ry := y % hh
  let rx := x % ww
  if rx = 0 ∨ ry = hh - 1 then true else if ry = 0 then rx % 2 == 0 else ry % 2 == 1

/-- A symbol from its codewords. -/
def dmSymbol (z : DmSize) (ws : List Nat) : Sym :=
  let nr := z.rows - 2 * z.rv
  let nc := z.cols - 2 * z.rh
  let m := dmFilled z
  let wa := ws.toArray
  let lastFree := m.cells.getD (nr * nc - 1) 1 == 0
  let bit (k : Nat) : Bool :=
    let v := m.cells.getD k 0
    if v = 0 then lastFree && (k + 1 == nr * nc || k + nc + 2 == nr * nc)
    else (wa.getD (v / 8 - 1) 0).testBit (7 - v % 8)
  let sh := if z.blks = 10 then 8 else 0
  { mods := (List.range z.rows).map fun y => (List.range z.cols).map fun x => match dmCell z y x with
      | none => dmFinder z y x
      | some k => bit k,
    cw := (List.range z.rows).map fun y => (List.range z.cols).map fun x => match dmCell z y x with
      | none => 0
      | some k => m.cells.getD k 0 / 8,
    blk := (List.range (z.data + z.ecc)).map fun k => if k < z.data then k % z.blks else (k - z.data + sh) % z.blks,
    ecc := z.ecc / z.blks }

/-- Data Matrix of a content. -/
def dataMatrix (gs1 b256 : Bool) (size shape : Nat) (l : List Nat) : Except Nat Sym :=
  let ws := dmWords gs1 b256 l
  match dmPick size shape ws.length with
  | none => .error fkCapacity
  | some z => .ok (dmSymbol z (dmEcc z (dmPad z.data ws)))

/-! ### QR (R204) -/

/-- Check words a block, by level (0 L, 1 M, 2 Q, 3 H) and version less 1. -/
def qrEccPer (ecl : Nat) : List Nat :=
  if ecl = 0 then [7, 10, 15, 20, 26, 18, 20, 24, 30, 18, 20, 24, 26, 30, 22, 24, 28, 30, 28, 28] ++
    [28, 28, 30, 30, 26, 28, 30, 30, 30, 30, 30, 30, 30, 30, 30, 30, 30, 30, 30, 30]
  else if ecl = 1 then [10, 16, 26, 18, 24, 16, 18, 22, 22, 26, 30, 22, 22, 24, 24, 28, 28, 26, 26, 26] ++
    [26, 28, 28, 28, 28, 28, 28, 28, 28, 28, 28, 28, 28, 28, 28, 28, 28, 28, 28, 28]
  else if ecl = 2 then [13, 22, 18, 26, 18, 24, 18, 22, 20, 24, 28, 26, 24, 20, 30, 24, 28, 28, 26, 30] ++
    [28, 30, 30, 30, 30, 28, 30, 30, 30, 30, 30, 30, 30, 30, 30, 30, 30, 30, 30, 30]
  else [17, 28, 22, 16, 22, 28, 26, 26, 24, 28, 24, 28, 22, 24, 24, 30, 28, 28, 26, 28] ++
    [30, 24, 30, 30, 30, 30, 30, 30, 30, 30, 30, 30, 30, 30, 30, 30, 30, 30, 30, 30]

/-- Blocks, by level and version less 1. -/
def qrBlocks (ecl : Nat) : List Nat :=
  if ecl = 0 then [1, 1, 1, 1, 1, 2, 2, 2, 2, 4, 4, 4, 4, 4, 6, 6, 6, 6, 7, 8] ++
    [8, 9, 9, 10, 12, 12, 12, 13, 14, 15, 16, 17, 18, 19, 19, 20, 21, 22, 24, 25]
  else if ecl = 1 then [1, 1, 1, 2, 2, 4, 4, 4, 5, 5, 5, 8, 9, 9, 10, 10, 11, 13, 14, 16] ++
    [17, 17, 18, 20, 21, 23, 25, 26, 28, 29, 31, 33, 35, 37, 38, 40, 43, 45, 47, 49]
  else if ecl = 2 then [1, 1, 2, 2, 4, 4, 6, 6, 8, 8, 8, 10, 12, 16, 12, 17, 16, 18, 21, 20] ++
    [23, 23, 25, 27, 29, 34, 34, 35, 38, 40, 43, 45, 48, 51, 53, 56, 59, 62, 65, 68]
  else [1, 1, 2, 4, 4, 4, 5, 6, 8, 8, 11, 11, 16, 16, 18, 16, 19, 21, 25, 25] ++
    [25, 34, 30, 32, 35, 37, 40, 42, 45, 48, 51, 54, 57, 60, 63, 66, 70, 74, 77, 81]

/-- Centres of the alignment patterns of a version. -/
def qrAlign (v : Nat) : List Nat :=
  if v < 2 then []
  else
    let n := v / 7 + 2
    let step := if v = 32 then 26 else (v * 4 + n * 2 + 1) / (n * 2 - 2) * 2
    6 :: ((List.range (n - 1)).map fun i => v * 4 + 10 - step * i).reverse

/-- Codewords of a version. -/
def qrRaw (v : Nat) : Nat :=
  let a := (16 * v + 128) * v + 64
  let n := v / 7 + 2
  (if v < 2 then a else a - ((25 * n - 10) * n - 55) - (if 7 ≤ v then 36 else 0)) / 8

/-- Data codewords of a version and level. -/
def qrData (v ecl : Nat) : Nat := qrRaw v - nth (qrEccPer ecl) (v - 1) 0 * nth (qrBlocks ecl) (v - 1) 0

/-- The 45 characters of alphanumeric mode. -/
def qrAlnum : List Nat :=
  (List.range 10).map (48 + ·) ++ (List.range 26).map (65 + ·) ++ [32, 36, 37, 42, 43, 45, 46, 47, 58]

/-- The mode of a content: 1 numeric, 2 alphanumeric, 4 byte. -/
def qrMode (gs1 : Bool) (l : List Nat) : Nat :=
  if l.all isDig then 1
  else if l.all fun b => qrAlnum.contains b || (gs1 && b == fnc1) then 2 else 4

/-- The characters of alphanumeric mode, with FNC1 and % as R204 says. -/
def qrAlnumChars (gs1 : Bool) (l : List Nat) : List Nat :=
  if gs1 then (l.map fun b => if b = fnc1 then [37] else if b = 37 then [37, 37] else [b]).flatten else l

/-- Bits of groups of three digits. -/
def qrNumBits : Nat → List Nat → List Bool
  | 0, _ => []
  | _, [] => []
  | n + 1, x :: y :: z :: r => msbBits 10 (100 * x + 10 * y + z) ++ qrNumBits n r
  | _, [x, y] => msbBits 7 (10 * x + y)
  | _, [x] => msbBits 4 x

/-- Bits of pairs of alphanumeric values. -/
def qrAlnumBits : Nat → List Nat → List Bool
  | 0, _ => []
  | _, [] => []
  | n + 1, x :: y :: r => msbBits 11 (45 * x + y) ++ qrAlnumBits n r
  | _, [x] => msbBits 6 x

/-- Width of the character count of a mode in a version. -/
def qrCountBits (mode v : Nat) : Nat :=
  let k := if v ≤ 9 then 0 else if v ≤ 26 then 1 else 2
  if mode = 1 then nth [10, 12, 14] k 0 else if mode = 2 then nth [9, 11, 13] k 0 else nth [8, 16, 16] k 0

/-- The segment's bits in a version, before the terminator. -/
def qrBits (gs1 : Bool) (l : List Nat) (v : Nat) : List Bool :=
  let mode := qrMode gs1 l
  let chars := if mode = 2 then qrAlnumChars gs1 l else l
  let body := if mode = 1 then qrNumBits (chars.length + 1) (digVals chars)
    else if mode = 2 then qrAlnumBits (chars.length + 1) (chars.map fun b => qrAlnum.findIdx (· == b))
    else (chars.map (msbBits 8)).flatten
  (if gs1 then msbBits 4 5 else []) ++ msbBits 4 mode ++ msbBits (qrCountBits mode v) chars.length ++ body

/-- Whether a segment fits a version and level. -/
def qrFits (gs1 : Bool) (l : List Nat) (ecl v : Nat) : Bool := (qrBits gs1 l v).length ≤ 8 * qrData v ecl

/-- Bytes of bits, most significant first. -/
def qrBytes : Nat → List Bool → List Nat
  | 0, _ => []
  | n + 1, l => if l = [] then [] else (l.take 8).foldl (fun x b => 2 * x + b.toNat) 0 :: qrBytes n (l.drop 8)

/-- The data codewords: segment, terminator, pad bits and pad bytes. -/
def qrDataWords (gs1 : Bool) (l : List Nat) (ecl v : Nat) : List Nat :=
  let cap := qrData v ecl
  let b0 := qrBits gs1 l v
  let b1 := b0 ++ List.replicate (min 4 (8 * cap - b0.length)) false
  let b2 := b1 ++ List.replicate ((8 - b1.length % 8) % 8) false
  let ws := qrBytes (cap + 1) b2
  ws ++ (List.range (cap - ws.length)).map fun i => if i % 2 = 0 then 0xEC else 0x11

/-- Cuts a list into blocks of the given lengths. -/
def cutBy : List Nat → List Nat → List (List Nat)
  | [], _ => []
  | n :: ns, l => l.take n :: cutBy ns (l.drop n)

/-- Takes the words of blocks in turn, `n` rounds. -/
def interleave (bs : List (List Nat)) (n : Nat) : List Nat :=
  ((List.range n).map fun i => bs.filterMap fun b => b[i]?).flatten

/-- Data words of each block of a version and level. -/
def qrCuts (ecl v : Nat) : List Nat :=
  let nb := nth (qrBlocks ecl) (v - 1) 1
  let short := qrRaw v / nb - nth (qrEccPer ecl) (v - 1) 0
  let nshort := nb - qrRaw v % nb
  List.replicate nshort short ++ List.replicate (nb - nshort) (short + 1)

/-- All codewords of a symbol. -/
def qrWords (ecl v : Nat) (ws : List Nat) : List Nat :=
  let ec := nth (qrEccPer ecl) (v - 1) 0
  let cuts := qrCuts ecl v
  let bs := cutBy cuts ws
  interleave bs (cuts.getLastD 0) ++ interleave (bs.map (rsCheck 0x11D 0 ec)) ec

/-- The block of each codeword, in the order of the symbol. -/
def qrBlkOf (ecl v : Nat) : List Nat :=
  let ec := nth (qrEccPer ecl) (v - 1) 0
  let cuts := qrCuts ecl v
  interleave (cuts.zipIdx.map fun x => List.replicate x.1 x.2) (cuts.getLastD 0) ++
    interleave (cuts.zipIdx.map fun x => List.replicate ec x.2) ec

/-- Distance of a cell from a centre, the larger of the two. -/
def qrDist (x y cx cy : Nat) : Nat := max (max x cx - min x cx) (max y cy - min y cy)

/-- Remainder bits of a BCH code: `n` check bits under polynomial `g`. -/
def bchRem (g n : Nat) (v : Nat) : Nat :=
  (List.range n).foldl (fun r _ => let s := 2 * r; if s.testBit n then s ^^^ g else s) v

/-- The 15 format bits of a level and a mask. -/
def qrFormat (ecl mask : Nat) : Nat :=
  let d := nth [1, 0, 3, 2] ecl 0 * 8 + mask
  (d * 1024 + bchRem 0x537 10 d) ^^^ 0x5412

/-- The 18 version bits. -/
def qrVersion (v : Nat) : Nat := v * 4096 + bchRem 0x1F25 12 v

/-- The function pattern at a cell (column, row) under a format word; `none` for a data cell. -/
def qrFunc (v fmt : Nat) (al : List Nat) (x y : Nat) : Option Bool :=
  let n := 17 + 4 * v
  let far := n - 4
  let d := min (qrDist x y 3 3) (min (qrDist x y far 3) (qrDist x y 3 far))
  let inAl := al.any fun cx => al.any fun cy =>
    qrDist x y cx cy ≤ 2 && !((cx == 6 && cy == 6) || (cx == 6 && cy == n - 7) || (cx == n - 7 && cy == 6))
  let ring := al.any fun cx => al.any fun cy =>
    qrDist x y cx cy == 1 && !((cx == 6 && cy == 6) || (cx == 6 && cy == n - 7) || (cx == n - 7 && cy == 6))
  if d ≤ 4 then some (d != 2 && d != 4)
  else if inAl then some (!ring)
  else if x = 6 then some (y % 2 == 0)
  else if y = 6 then some (x % 2 == 0)
  else if x = 8 ∧ y < 6 then some (fmt.testBit y)
  else if x = 8 ∧ y = 7 then some (fmt.testBit 6)
  else if x = 8 ∧ y = 8 then some (fmt.testBit 7)
  else if y = 8 ∧ x = 7 then some (fmt.testBit 8)
  else if y = 8 ∧ x < 6 then some (fmt.testBit (14 - x))
  else if y = 8 ∧ n - 8 ≤ x then some (fmt.testBit (n - 1 - x))
  else if x = 8 ∧ y = n - 8 then some true
  else if x = 8 ∧ n - 7 ≤ y then some (fmt.testBit (y + 15 - n))
  else if 7 ≤ v ∧ x < 6 ∧ n - 11 ≤ y ∧ y < n - 8 then some ((qrVersion v).testBit (3 * x + (y - (n - 11))))
  else if 7 ≤ v ∧ y < 6 ∧ n - 11 ≤ x ∧ x < n - 8 then some ((qrVersion v).testBit (3 * y + (x - (n - 11))))
  else none

/-- The data cells in the order of placement. -/
def qrOrder (v : Nat) (al : List Nat) : List (Nat × Nat) :=
  let n := 17 + 4 * v
  let rights := ((List.range (n / 2)).map fun i => let r := n - 1 - 2 * i; if r ≤ 6 then r - 1 else r)
  (rights.map fun r => ((List.range n).map fun k =>
    let y := if (r + 1) / 2 % 2 = 0 then n - 1 - k else k
    [(r, y), (r - 1, y)]).flatten).flatten.filter fun c => (qrFunc v 0 al c.1 c.2).isNone

/-- The condition of a mask. -/
def qrMask (m x y : Nat) : Bool :=
  if m = 0 then (x + y) % 2 == 0 else if m = 1 then y % 2 == 0 else if m = 2 then x % 3 == 0
  else if m = 3 then (x + y) % 3 == 0 else if m = 4 then (x / 3 + y / 2) % 2 == 0
  else if m = 5 then x * y % 2 + x * y % 3 == 0 else if m = 6 then (x * y % 2 + x * y % 3) % 2 == 0
  else ((x + y) % 2 + x * y % 3) % 2 == 0

/-- Penalty of runs in a line: 3 for 5, and 1 for each more. -/
def qrRuns : Nat → Bool → List Bool → Nat
  | k, _, [] => if 5 ≤ k then k - 2 else 0
  | k, b, x :: r => if x = b then qrRuns (k + 1) b r else (if 5 ≤ k then k - 2 else 0) + qrRuns 1 x r

/-- Patterns 1:1:3:1:1 in a line with four light modules before or after. -/
def qrFinders (l : List Bool) : Nat :=
  let pat := [true, false, true, true, true, false, true]
  let four := [false, false, false, false]
  ((List.range l.length).filter fun i =>
    (l.drop i).take 7 == pat && ((4 ≤ i && (l.drop (i - 4)).take 4 == four) || (l.drop (i + 7)).take 4 == four)).length

/-- Transpose of a square matrix of `n` columns. -/
def transpose (n : Nat) (m : List (List Bool)) : List (List Bool) :=
  (List.range n).map fun x => m.map fun r => nth r x false

/-- Penalty of two rows for their 2 × 2 blocks. -/
def qrSquares : List Bool → List Bool → Nat
  | a :: b :: r, c :: d :: s => (if a = b ∧ a = c ∧ a = d then 3 else 0) + qrSquares (b :: r) (d :: s)
  | _, _ => 0

/-- The penalty of a masked symbol. -/
def qrPenalty (n : Nat) (m : List (List Bool)) : Nat :=
  let t := transpose n m
  let lines := m ++ t
  let p1 := lines.foldl (fun x l => x + qrRuns 0 (l.headD false) l + 40 * qrFinders l) 0
  let p2 := (m.zip (m.drop 1)).foldl (fun x r => x + qrSquares r.1 r.2) 0
  let dark := m.foldl (fun x r => x + (r.filter id).length) 0
  let tot := n * n
  let dev := max (20 * dark) (10 * tot) - min (20 * dark) (10 * tot)
  p1 + p2 + 10 * ((dev + tot - 1) / tot - 1)

/-- The symbol under one mask. -/
def qrSymbol (v ecl mask : Nat) (al : List Nat) (data : Array (Option Bool)) : List (List Bool) :=
  let n := 17 + 4 * v
  let fmt := qrFormat ecl mask
  (List.range n).map fun y => (List.range n).map fun x =>
    match qrFunc v fmt al x y with
    | some b => b
    | none => ((data.getD (y * n + x) none).getD false) != qrMask mask x y

/-- QR of a content: the version is SIZE or the smallest that holds it; the mask has the lowest
penalty, the lower number on a tie. -/
def qrCode (gs1 : Bool) (ecl size : Nat) (l : List Nat) : Except Nat Sym :=
  let vs := if size = 0 then (List.range 40).map (· + 1) else [size]
  match vs.find? (qrFits gs1 l ecl) with
  | none => .error fkCapacity
  | some v =>
    let n := 17 + 4 * v
    let al := qrAlign v
    let bs := ((qrWords ecl v (qrDataWords gs1 l ecl v)).map (msbBits 8)).flatten
    let order := qrOrder v al
    let blk := qrBlkOf ecl v
    let cws := order.zipIdx.foldl (fun (a : Array Nat) c =>
      if c.2 / 8 < blk.length then a.set! (c.1.2 * n + c.1.1) (c.2 / 8 + 1) else a) (Array.replicate (n * n) 0)
    let data := (order.zip bs).foldl (fun (a : Array (Option Bool)) c => a.set! (c.1.2 * n + c.1.1) (some c.2))
      (Array.replicate (n * n) none)
    let cands := (List.range 8).map fun m => let s := qrSymbol v ecl m al data; (qrPenalty n s, s)
    let best := cands.foldl (fun (b : Option (Nat × List (List Bool))) c => match b with
      | none => some c
      | some y => if c.1 < y.1 then some c else some y) none
    .ok { mods := (best.map (·.2)).getD [],
          cw := (List.range n).map fun y => (List.range n).map fun x => cws.getD (y * n + x) 0,
          blk := blk, ecc := nth (qrEccPer ecl) (v - 1) 0 }

/-! ### GS1 element strings (R205) -/

/-- The characters of AI and data of an AI with a predefined length, by its first two digits (the
lengths of the GS1 General Specifications, PRESUMED; that of 23 is left open). -/
def gs1Fixed (p : Nat) : Option Nat :=
  if p = 0 then some 20 else if p ≤ 3 then some 16 else if p = 4 then some 18
  else if 11 ≤ p ∧ p ≤ 19 then some 8 else if p = 20 then some 4
  else if p = 23 then some Config.gs1Len23
  else if 31 ≤ p ∧ p ≤ 36 then some 10 else if p = 41 then some 16 else none

/-- Digits of an AI, by its first two (PRESUMED, for the human-readable text). -/
def gs1AiLen (p : Nat) : Nat :=
  if 23 ≤ p ∧ p ≤ 25 ∨ 40 ≤ p ∧ p ≤ 42 ∨ p = 71 then 3
  else if 31 ≤ p ∧ p ≤ 36 ∨ p = 39 ∨ p = 43 ∨ p = 70 ∨ p = 72 ∨ 80 ≤ p ∧ p ≤ 82 then 4 else 2

/-- The element strings of a content, or `none` for a breach. -/
def gs1Split : Nat → List Nat → Option (List (List Nat))
  | 0, _ => some []
  | _, [] => some []
  | n + 1, l =>
    if digRun (l.take 2) < 2 then none
    else
      let p := 10 * (nth l 0 48 - 48) + (nth l 1 48 - 48)
      match gs1Fixed p with
      | some k =>
        let e := l.take k
        let r := l.drop k
        if e.length < k ∨ !(e.all isDig) then none
        else (gs1Split n (if r.headD 0 = fnc1 then r.drop 1 else r)).map (e :: ·)
      | none =>
        let e := l.takeWhile (· != fnc1)
        (gs1Split n (l.drop (e.length + 1))).map (e :: ·)

/-- Days of a month. -/
def monthDays (y m : Nat) : Nat :=
  if m = 2 then (if y % 4 = 0 ∧ (y % 100 ≠ 0 ∨ y % 400 = 0) then 29 else 28)
  else if m = 4 ∨ m = 6 ∨ m = 9 ∨ m = 11 then 30 else 31

/-- Two digits as a number. -/
def dig2 (l : List Nat) (o : Nat) : Nat := 10 * (nth l o 48 - 48) + (nth l (o + 1) 48 - 48)

/-- One element string keeps R205: check digits of AIs 00, 01, 02 and 410 to 417, dates of AIs 11 to 17. -/
def gs1ElemOk (e : List Nat) : Bool :=
  let p := dig2 e 0
  let third := nth e 2 48 - 48
  let chk (o : Nat) : Bool :=
    let ds := digVals (e.drop o)
    checkDigit ds.dropLast == ds.getLastD 0
  if p ≤ 2 then chk 2
  else if p = 41 ∧ third ≤ 7 then chk 3
  else if 11 ≤ p ∧ p ≤ 17 then
    let m := dig2 e 4
    1 ≤ m && m ≤ 12 && dig2 e 6 ≤ monthDays (2000 + dig2 e 2) m
  else true

/-- The content keeps R205. -/
def gs1Ok (l : List Nat) : Bool :=
  match gs1Split (l.length + 1) l with
  | none => false
  | some es => es.all gs1ElemOk

/-- The human-readable text of a GS1 content: each AI in parentheses, FNC1s left out. -/
def gs1Text (l : List Nat) : List Nat :=
  (((gs1Split (l.length + 1) l).getD []).map fun e =>
    let n := gs1AiLen (dig2 e 0)
    40 :: e.take n ++ 41 :: e.drop n).flatten

end Sys2Proof.Machine
end

