-- ==== Sys2Proof/Machine/Imp.lean ====
section
/-! DEFINITION. The imprint engine: field entries and values (R193 to R195), counters (R196), dates
(R197), tags (R198), fonts and text (R199, R200), drawing and placement (R206, R207), the queue and
its failures (R209, R210), and the IMP registers. -/

namespace Sys2Proof.Machine

/-! ### The MAC unit (R84) -/

/-- The key in a key-store slot. -/
def Dev.keyAt (d : Dev) (slot : Nat) : Option Key := d.sec.keys.find? fun k => k.slot == slot

/-- The MAC unit's answer to a requester, given by its USE bit (0 IMP, 1 ITK, 2 PGF): status and tag. -/
def Dev.macAnswer (d : Dev) (use slot : Nat) (msg : List Byte) : Nat × List Byte :=
  match d.keyAt slot with
  | none => (sAbsent, [])
  | some k =>
    if !(bitB k.use use) then (sDenied, [])
    else if k.kind = 2 ∨ k.kind = 3 then (sOk, aesCmac k.key msg) else (sOk, hmacSha256 k.key msg)

/-! ### Values and their tokens (R195) -/

/-- A piece of a value: a byte, a counter, a date format or the tag. -/
inductive Piece where
  | byte (b : Nat)
  | cnt (c : Nat)
  | date (f : Nat)
  | tag
  deriving DecidableEq, Repr

/-- The pieces of a value, or `none` for a token that is incomplete or not in the table. -/
def pieces : List Nat → Option (List Piece)
  | [] => some []
  | 0x1B :: 0x43 :: c :: r => if c < 16 then (pieces r).map (.cnt c :: ·) else none
  | 0x1B :: 0x44 :: f :: r => if f < 8 then (pieces r).map (.date f :: ·) else none
  | 0x1B :: 0x4D :: r => (pieces r).map (.tag :: ·)
  | 0x1B :: 0x1B :: r => (pieces r).map (.byte 0x1B :: ·)
  | 0x1B :: _ => none
  | b :: r => (pieces r).map (.byte b :: ·)

/-- A value may be given to a template (R195). -/
def Dev.valueOk (d : Dev) (t : Nat) (v : List Nat) : Bool :=
  match pieces v with
  | none => false
  | some ps =>
    (ps.all fun p => match p with
      | .cnt c => d.get (F.IMP_CNT_CFG_ENABLE c) == 1
      | .date f => d.get (F.IMP_DATE_CFG_ENABLE f) == 1
      | _ => true) &&
    (ps.filter (· == .tag)).length ≤ (if d.get (F.IMP_TPL_MAC_TAGBITS t) = 0 then 0 else 1)

/-- A template is enabled and in a zone's mask. -/
def Dev.tplIn (d : Dev) (z t : Nat) : Bool :=
  d.get (F.IMP_TPL_CFG_ENABLE t) == 1 &&
  (if t < 32 then d.bit (F.IMP_ZONE_TPLLO_MASK z) t else d.bit (F.IMP_ZONE_TPLHI_MASK z) (t - 32))

/-- The default value of a template. -/
def Dev.tplDefault (d : Dev) (t : Nat) : List Nat :=
  let n := d.get (F.IMP_TPL_KODEF_DEFLEN t)
  (((List.range 16).map fun k => (leBytes 4 (d.rd (R.IMP_TPL_DEF t k)).toNat).map (·.toNat)).flatten).take n

/-- An entry of FIELDS (R193). -/
structure FieldEntry where
  tpl : Nat
  flags : Nat
  xoff : Int
  yoff : Int
  value : List Nat
  deriving DecidableEq, Repr

/-- The entries of FIELDS, at most `n`; `none` when they do not fill their length exactly. -/
def fieldEntries : Nat → List Byte → Option (List FieldEntry)
  | _, [] => some []
  | 0, _ => none
  | n + 1, bs =>
    let vlen := fieldLE bs 2 2
    if bs.length < 8 + vlen then none
    else
      let e : FieldEntry := { tpl := fieldLE bs 0 1, flags := fieldLE bs 1 1, xoff := sx 16 (fieldLE bs 4 2),
                              yoff := sx 16 (fieldLE bs 6 2), value := ((bs.drop 8).take vlen).map (·.toNat) }
      (fieldEntries n (bs.drop (8 + vlen))).map (e :: ·)

/-- Whether no template is named twice. -/
def distinctTpl : List FieldEntry → Bool
  | [] => true
  | e :: r => !(r.any fun x => x.tpl == e.tpl) && distinctTpl r

/-- FIELDS of a SUBMIT for zone `z` keep R193 to R195. -/
def Dev.fieldsOk (d : Dev) (z : Nat) (bs : List Byte) : Bool :=
  match fieldEntries 16 bs with
  | none => false
  | some es =>
    (es.all fun e => e.tpl < 64 && e.flags == 0 && e.value.length ≤ 8824 && d.tplIn z e.tpl &&
      (if e.value = [] then 0 < d.get (F.IMP_TPL_KODEF_DEFLEN e.tpl) else d.valueOk e.tpl e.value)) &&
    distinctTpl es &&
    (List.range 64).all fun t => !(d.tplIn z t) || (es.any fun e => e.tpl == t) ||
      0 < d.get (F.IMP_TPL_KODEF_DEFLEN t) || d.get (F.IMP_TPL_CFG_REQUIRED t) == 0

/-- The fields that an item prints, in rising template number (R194). -/
def Dev.fieldPlan (d : Dev) (i : Item) : List FieldEntry :=
  let es := (fieldEntries 16 i.fields).getD []
  (List.range 64).filterMap fun t =>
    if !(d.tplIn i.zone t) then none
    else
      let df := d.tplDefault t
      match es.find? fun e => e.tpl == t with
      | some e => some (if e.value = [] then { e with value := df } else e)
      | none => if df = [] then none else some { tpl := t, flags := 0, xoff := 0, yoff := 0, value := df }

/-! ### Counters (R196) -/

/-- The character of a digit value: 0 to 9, then A to Z. -/
def digitChar (v : Nat) : Nat := if v < 10 then 48 + v else 55 + v

/-- A number in a radix, most significant digit first, over at most `n` digits; 0 is one digit. -/
def radixDigits (r : Nat) : Nat → Nat → List Nat
  | 0, _ => []
  | n + 1, v => if v < r then [digitChar v] else radixDigits r n (v / r) ++ [digitChar (v % r)]

/-- The value of a counter for a ZSEQ, and whether it wrapped; `none` when the field fails. -/
def Dev.counterValue (d : Dev) (c z zseq : Nat) : Option (Nat × Bool) :=
  let origin : Nat := d.get64 (R.IMP_CNT_ORIGINLO c) (R.IMP_CNT_ORIGINHI c) % 2 ^ 48
  let start : Nat := d.get64 (R.IMP_CNT_STARTLO c) (R.IMP_CNT_STARTHI c)
  let mn : Int := d.get64 (R.IMP_CNT_MINLO c) (R.IMP_CNT_MINHI c)
  let mx : Int := d.get64 (R.IMP_CNT_MAXLO c) (R.IMP_CNT_MAXHI c)
  let v : Int := start + sx 32 (d.get (F.IMP_CNT_STEP_STEP c)) * ((zseq : Int) - origin)
  if d.get (F.IMP_CNT_CFG_ZONE c) ≠ z ∨ zseq < origin then none
  else if mn ≤ v ∧ v ≤ mx then some (v.toNat, false)
  else if d.get (F.IMP_CNT_CFG_ROLL c) = 0 then none
  else some ((mn + (v - mn) % (mx - mn + 1)).toNat, true)

/-- The text of a counter value; `none` when it needs more than DIGITS characters. -/
def Dev.counterText (d : Dev) (c v : Nat) : Option (List Nat) :=
  let n := d.get (F.IMP_CNT_CFG_DIGITS c)
  let ds := radixDigits (d.get (F.IMP_CNT_CFG_RADIX c)) 64 v
  if n < ds.length then none
  else
    let pad := d.get (F.IMP_CNT_CFG_PAD c)
    let fill := if pad = 2 then [] else List.replicate (n - ds.length) (if pad = 0 then 48 else 32)
    let chk := if d.get (F.IMP_CNT_CFG_CHK c) = 1 then [48 + checkDigit (digVals ds)] else []
    some (fill ++ ds ++ chk)

/-! ### Dates (R197) -/

/-- The proleptic Gregorian date (year, month, day) of a day number from 1 January 1970. -/
def civilOf (days : Int) : Int × Nat × Nat :=
  let z := days + 719468
  let era := z / 146097
  let doe := z % 146097
  let yoe := (doe - doe / 1460 + doe / 36524 - doe / 146096) / 365
  let doy := doe - (365 * yoe + yoe / 4 - yoe / 100)
  let mp := (5 * doy + 2) / 153
  let day := doy - (153 * mp + 2) / 5 + 1
  let mon := if mp < 10 then mp + 3 else mp - 9
  (yoe + era * 400 + (if mon ≤ 2 then 1 else 0), mon.toNat, day.toNat)

/-- The days of a month of any year of the proleptic Gregorian calendar. -/
def daysIn (y : Int) (m : Nat) : Nat := monthDays (y % 400).toNat m

/-- Day of the year. -/
def dayOfYear (y : Int) (m day : Nat) : Nat :=
  (List.range (m - 1)).foldl (fun x k => x + daysIn y (k + 1)) day

/-- A number as `n` decimal characters. -/
def decText (n x : Nat) : List Nat := (decDigits n x).map (48 + ·)

/-- Expands a date pattern from left to right up to the first 0x00. -/
def datePattern (year : Nat) (mon day doy hh mm ss : Nat) : Nat → List Nat → List Nat
  | 0, _ => []
  | _, [] => []
  | n + 1, b :: r =>
    let l := b :: r
    let go (k : Nat) (t : List Nat) : List Nat := t ++ datePattern year mon day doy hh mm ss n (l.drop k)
    if b = 0 then []
    else if l.take 4 = [89, 89, 89, 89] then go 4 (decText 4 year)
    else if l.take 2 = [89, 89] then go 2 (decText 2 (year % 100))
    else if l.take 2 = [77, 77] then go 2 (decText 2 mon)
    else if l.take 2 = [68, 68] then go 2 (decText 2 day)
    else if l.take 3 = [74, 74, 74] then go 3 (decText 3 doy)
    else if l.take 2 = [104, 104] then go 2 (decText 2 hh)
    else if l.take 2 = [109, 109] then go 2 (decText 2 mm)
    else if l.take 2 = [115, 115] then go 2 (decText 2 ss)
    else b :: datePattern year mon day doy hh mm ss n r

/-- The text of date format `f` for the instant T, in PTP seconds. -/
def Dev.dateText (d : Dev) (f T : Nat) : List Nat :=
  let t : Int := (T : Int) - sx 16 (d.get F.PTP_UTC_OFS) + 60 * sx 11 (d.get (F.IMP_DATE_CFG_LOCALMIN f))
  let (y, m, dd) := civilOf (t / 86400 + sx 16 (d.get (F.IMP_DATE_CFG_EXPDAYS f)))
  let r := d.get (F.IMP_DATE_CFG_ROUND f)
  let day := if r = 1 then 1 else if r = 2 then daysIn y m else dd
  let sod := (t % 86400).toNat
  let pat := ((List.range 4).map fun k => (leBytes 4 (d.rd (R.IMP_DATE_PAT f k)).toNat).map (·.toNat)).flatten
  datePattern y.toNat m (if r = 3 then 0 else day) (dayOfYear y m day) (sod / 3600) (sod / 60 % 60) (sod % 60) 17 pat

/-- Device time at a counter value, in ns (R425). -/
def Dev.timeNs (d : Dev) (c : Nat) : Nat := (d.timeAt c).toNat

/-- Date fields fail under TIMEPOL: the PTP unit is neither synchronised nor in holdover. -/
def Dev.timeRefused (d : Dev) : Bool :=
  d.get F.IMP_CFG_TIMEPOL == 1 && d.get F.PTP_STATE_STATE != 2 && d.get F.PTP_STATE_STATE != 3

/-! ### Tags (R198) and composition -/

/-- Upper-case hexadecimal characters of bytes. -/
def hexText (bs : List Byte) : List Nat :=
  (bs.map fun b => [digitChar (b.toNat / 16), digitChar (b.toNat % 16)]).flatten

/-- RFC 4648 base32 characters of bits, the last group filled with 0. -/
def base32 : Nat → List Bool → List Nat
  | 0, _ => []
  | n + 1, l =>
    if l = [] then []
    else
      let g := l.take 5
      let v := (g ++ List.replicate (5 - g.length) false).foldl (fun x b => 2 * x + b.toNat) 0
      (if v < 26 then 65 + v else 24 + v) :: base32 n (l.drop 5)

/-- A tag as template `t` renders it: its leftmost TAGBITS bits, in FORM. -/
def Dev.tagText (d : Dev) (t : Nat) (tag : List Byte) : List Nat :=
  let bs := tag.take (d.get (F.IMP_TPL_MAC_TAGBITS t) / 8)
  let f := d.get (F.IMP_TPL_MAC_FORM t)
  if f = 0 then hexText bs
  else if f = 1 then base32 27 ((bs.map fun b => msbBits 8 b.toNat).flatten)
  else bs.map (·.toNat)

/-- The content of a value for an item at instant T; the tag token gives what `tag` says. -/
def Dev.composeWith (d : Dev) (i : Item) (T : Nat) (tag : List Nat) : List Piece → Except Nat (List Nat)
  | [] => .ok []
  | p :: r =>
    let one : Except Nat (List Nat) := match p with
      | .byte b => .ok [b]
      | .tag => .ok tag
      | .date f => if d.timeRefused then .error fkTime else .ok (d.dateText f T)
      | .cnt c => match (d.counterValue c i.zone i.zseq).bind fun v => d.counterText c v.1 with
        | none => .error fkCounter
        | some l => .ok l
    match one with
    | .error e => .error e
    | .ok l => match d.composeWith i T tag r with
      | .error e => .error e
      | .ok m => .ok (l ++ m)

/-- The pieces of a field. -/
def FieldEntry.pieces' (e : FieldEntry) : List Piece := (pieces e.value).getD []

/-- The message that a field sends to the MAC unit: CTX and the content before the token; `none` when
it has no tag token, does not compose, or is too long. -/
def Dev.macMsg (d : Dev) (i : Item) (T : Nat) (e : FieldEntry) : Option (List Byte) :=
  if !(e.pieces'.contains .tag) then none
  else match d.composeWith i T [] (e.pieces'.takeWhile (· != .tag)) with
    | .error _ => none
    | .ok l =>
      if 256 < l.length + 4 then none else some (leBytes 4 (d.get (F.IMP_TPL_CTX_CTX e.tpl)) ++ l.map (BitVec.ofNat 8))

/-- The content of a field once the tags are known (R195, R198). -/
def Dev.fieldContent (d : Dev) (i : Item) (T : Nat) (tags : List (Nat × List Byte)) (e : FieldEntry) :
    Except Nat (List Nat) :=
  let tag := ((tags.find? fun x => x.1 == e.tpl).map (·.2)).getD []
  match d.composeWith i T (d.tagText e.tpl tag) e.pieces' with
  | .error k => .error k
  | .ok l =>
    if 3000 < l.length ∨ (e.pieces'.contains .tag ∧ (d.macMsg i T e).isNone) then .error fkLength else .ok l

/-! ### Fonts and text (R199, R200) -/

/-- The entry of a font record is legal within its body. -/
def fontEntryOk (body : List Byte) (k : Nat) : Bool :=
  let o := 4 + 16 * k
  let depth := fieldLE body (o + 1) 1
  let height := fieldLE body (o + 2) 1
  let nchar := fieldLE body (o + 4) 2
  let gl := fieldLE body (o + 8) 4
  let size := fieldLE body (o + 12) 4
  fieldLE body o 1 < 32 && (depth == 1 || depth == 4) && 4 ≤ height && 1 ≤ nchar && nchar ≤ 256 &&
  fieldLE body (o + 3) 1 + nchar ≤ 256 && fieldLE body (o + 6) 2 == 0 && gl + size ≤ body.length && 8 * nchar ≤ size &&
  (List.range nchar).all fun g =>
    let a := gl + 8 * g
    fieldLE body (a + 2) 2 == 0 && fieldLE body (a + 4) 4 + height * ((fieldLE body a 1 * depth + 7) / 8) ≤ size

/-- Loads a font record (R199): a status, and the device with the fonts in the store. -/
def Dev.fontRecord (d : Dev) (body : List Byte) : Nat × Dev :=
  let n := fieldLE body 0 4
  let ixs := (List.range n).map fun k => fieldLE body (4 + 16 * k) 1
  if 2 ^ 20 * d.get F.IMP_FONTSIZE_MIB < d.ras.fontTop + body.length then (sNoRoom, d)
  else if n < 1 ∨ 32 < n ∨ body.length < 4 + 16 * n ∨ !((List.range n).all (fontEntryOk body)) ∨
      ixs.eraseDups.length ≠ n ∨ (ixs.any fun x => d.ras.fonts.any fun f => f.1 == x) then (sBadValue, d)
  else
    let base := dramBase + 2 ^ 20 * d.get F.IMP_FONTBASE_MIB + d.ras.fontTop
    let top := d.ras.fontTop + (body.length + 63) / 64 * 64
    let new := ixs.zipIdx.map fun x => (x.1, base + 4 + 16 * x.2, base)
    (sOk, (d.stBs base body).onRas fun t => { t with fonts := t.fonts ++ new, fontTop := top })

/-- A glyph to draw: pen position, width, address of its bitmap, bits a sample. -/
structure Glyph where
  pen : Nat
  width : Nat
  addr : Nat
  depth : Nat
  deriving DecidableEq, Repr

/-- The glyphs of a line of text from a pen position, or `none` for a byte that fails (R200). -/
def Dev.glyphs (d : Dev) (entry body spacing : Nat) : Nat → List Nat → Option (List Glyph)
  | _, [] => some []
  | pen, b :: r =>
    let first := d.ld (entry + 3) 1
    let gl := body + d.ld (entry + 8) 4
    let a := gl + 8 * (b - first)
    let w := d.ld a 1
    let adv := d.ld (a + 1) 1
    if b < first ∨ first + d.ld (entry + 4) 2 ≤ b ∨ (w = 0 ∧ adv = 0) then none
    else (d.glyphs entry body spacing (pen + adv + spacing) r).map
      ({ pen := pen, width := w, addr := gl + d.ld (a + 4) 4, depth := d.ld (entry + 1) 1 } :: ·)

/-- The coverage of a glyph at a column and a row of its bitmap. -/
def Dev.glyphAt (d : Dev) (g : Glyph) (x y : Nat) : Nat :=
  let b := d.ldB (g.addr + y * ((g.width * g.depth + 7) / 8) + x * g.depth / 8)
  let v := bits b.toNat (8 - g.depth - x * g.depth % 8) g.depth
  if g.depth = 1 then 15 * v else v

/-- One line of text in a font, as rows of coverage. -/
def Dev.textGrid (d : Dev) (font spacing : Nat) (l : List Nat) : Except Nat (List (List Nat)) :=
  match d.ras.fonts.find? fun f => f.1 == font with
  | none => .error fkGlyph
  | some f =>
    match d.glyphs f.2.1 f.2.2 spacing 0 l with
    | none => .error fkGlyph
    | some gs =>
      let w := gs.foldl (fun m g => max m (g.pen + g.width)) 0
      .ok ((List.range (d.ld (f.2.1 + 2) 1)).map fun y => (List.range w).map fun x =>
        gs.foldl (fun m g => if g.pen ≤ x ∧ x < g.pen + g.width then max m (d.glyphAt g (x - g.pen) y) else m) 0)

/-! ### Drawing (R201 to R206) -/

/-- Coverage of modules. -/
def covOf (l : List Bool) : List Nat := l.map fun b => if b then 15 else 0

/-- Surrounds a grid by `q` units of quiet zone. -/
def quiet (q : Nat) (g : List (List Nat)) : List (List Nat) :=
  let w := (g.headD []).length
  let z := List.replicate q (List.replicate (w + 2 * q) 0)
  z ++ (g.map fun r => List.replicate q 0 ++ r ++ List.replicate q 0) ++ z

/-- Centres a row in a width. -/
def centre (w : Nat) (r : List Nat) : List Nat :=
  let a := (w - r.length) / 2
  List.replicate a 0 ++ r ++ List.replicate (w - r.length - a) 0

/-- A field's unit grid: rows of coverage, and what grading needs of a code (R353). -/
structure UnitGrid where
  rows : List (List Nat)
  elems : List (Nat × Nat × Nat × Nat × Bool × Nat) := []
  blk : List Nat := []
  ecc : Nat := 0
  deriving DecidableEq, Repr

/-- The bars and spaces of a linear code as elements from a column: the run in progress is `n` modules
of colour `b`. -/
def barElems (q h : Nat) : Nat → Nat → Bool → List Bool → List (Nat × Nat × Nat × Nat × Bool × Nat)
  | x, n, b, [] => if n = 0 then [] else [(x - n, q, n, h, b, 0)]
  | x, n, b, c :: r =>
    if n = 0 ∨ b = c then barElems q h (x + 1) (n + 1) c r else (x - n, q, n, h, b, 0) :: barElems q h (x + 1) 1 c r

/-- A linear code: bars HEIGHT units tall, with the human-readable text 2 units below them, and the
quiet zone around. -/
def Dev.linearGrid (d : Dev) (t : Nat) (mods : List Bool) (hri : List Nat) : Except Nat UnitGrid :=
  let h := d.get (F.IMP_TPL_SCALE_HEIGHT t)
  let q := d.get (F.IMP_TPL_SYM_QZ t)
  let bars := List.replicate h (covOf mods)
  let font := d.get (F.IMP_TPL_SYM_HRIFONT t)
  if font = 0xFF then .ok { rows := quiet q bars, elems := barElems q h q 0 true mods }
  else match d.textGrid font (d.get (F.IMP_TPL_TEXT_SPACING t)) hri with
    | .error e => .error e
    | .ok g =>
      let w := max mods.length (g.headD []).length
      .ok { rows := quiet q ((bars.map (centre w)) ++ List.replicate 2 (List.replicate w 0) ++ g.map (centre w)),
            elems := barElems q h (q + (w - mods.length) / 2) 0 true mods }

/-- A 2D code with its quiet zone. -/
def symGrid (q : Nat) (s : Sym) : UnitGrid :=
  { rows := quiet q (s.mods.map covOf), blk := s.blk, ecc := s.ecc,
    elems := ((s.mods.zip s.cw).zipIdx.map fun r => (r.1.1.zip r.1.2).zipIdx.map fun c =>
      (c.2 + q, r.2 + q, 1, 1, c.1.1, c.1.2)).flatten }

/-- The unit grid of a field's content, quiet zone included, before its turn. -/
def Dev.fieldGrid (d : Dev) (t : Nat) (l : List Nat) : Except Nat UnitGrid :=
  let type := d.get (F.IMP_TPL_CFG_TYPE t)
  let gs1 := d.get (F.IMP_TPL_CFG_GS1 t) == 1
  let q := d.get (F.IMP_TPL_SYM_QZ t)
  let size := d.get (F.IMP_TPL_SYM_SIZE t)
  if gs1 && !(gs1Ok l) then .error fkGs1
  else if type = 1 then
    (d.textGrid (d.get (F.IMP_TPL_TEXT_FONT t)) (d.get (F.IMP_TPL_TEXT_SPACING t)) l).map fun g => { rows := g }
  else if type = 2 then
    match code128 gs1 l with
    | .error e => .error e
    | .ok m => d.linearGrid t m (if gs1 then gs1Text l else l)
  else if type ≤ 6 then
    match eanDigits type l with
    | .error e => .error e
    | .ok ds => d.linearGrid t (eanMods type ds) (ds.map (48 + ·))
  else if type = 7 then
    (dataMatrix gs1 (d.get (F.IMP_TPL_SYM_B256 t) == 1) size (d.get (F.IMP_TPL_SYM_SHAPE t)) l).map (symGrid q)
  else (qrCode gs1 (d.get (F.IMP_TPL_SYM_ECL t)) size l).map (symGrid q)

/-- Unit (x, y) of a grid. -/
def gridAt (g : List (List Nat)) (x y : Nat) : Nat := nth (nth g y []) x 0

/-- A grid turned by ROT quarter turns clockwise (R206). -/
def turn (rot : Nat) (g : List (List Nat)) : List (List Nat) :=
  let h := g.length
  let w := (g.headD []).length
  if rot = 0 then g
  else if rot = 2 then (g.map List.reverse).reverse
  else (List.range w).map fun y => (List.range h).map fun x =>
    if rot = 1 then gridAt g y (h - 1 - x) else gridAt g (w - 1 - y) x

/-- Each dark run loses `n` samples at its high end, and keeps at least 1; `k` dark samples of the
present run wait. -/
def shrinkRuns (n : Nat) : Nat → List Nat → List Nat
  | k, [] => let m := if k = 0 then 0 else max 1 (k - n); List.replicate m 15 ++ List.replicate (k - m) 0
  | k, x :: r =>
    if x = 15 then shrinkRuns n (k + 1) r
    else
      let m := if k = 0 then 0 else max 1 (k - n)
      List.replicate m 15 ++ List.replicate (k - m) 0 ++ x :: shrinkRuns n 0 r

/-- Columns of a grid as rows. -/
def flipGrid (g : List (List Nat)) : List (List Nat) :=
  (List.range (g.headD []).length).map fun x => g.map fun r => nth r x 0

/-- A field ready to be written: template, place and samples. -/
structure Drawn where
  tpl : Nat
  x : Nat
  y : Nat
  rows : List (List Nat)
  grid : UnitGrid
  deriving DecidableEq, Repr

/-- Draws a field of an item on its page (R206), or says how it fails. -/
def Dev.drawField (d : Dev) (i : Item) (h : StreamHdr) (e : FieldEntry) (l : List Nat) : Except Nat Drawn :=
  let t := e.tpl
  match d.fieldGrid t l with
  | .error k => .error k
  | .ok g0 =>
    let g := turn (d.get (F.IMP_TPL_CFG_ROT t)) g0.rows
    let sx' := d.get (F.IMP_TPL_SCALE_SX t)
    let sy := d.get (F.IMP_TPL_SCALE_SY t)
    let w := (g.headD []).length * sx'
    let n := g.length * sy
    let x : Int := d.get (F.IMP_TPL_X_POS t) + e.xoff
    let y : Int := d.get (F.IMP_TPL_Y_POS t) + e.yoff
    let p := d.get (F.IMP_TPL_CFG_PLANE t)
    let pw := if p < h.planes then nth h.widths p 0 else 0
    if 2 ^ h.depth ≤ d.get (F.IMP_TPL_CFG_LEVEL t) ∨ 2 ^ h.depth ≤ d.get (F.IMP_TPL_CFG_BG t) then .error fkLevel
    else if x < 0 ∨ y < 0 ∨ (pw : Int) < x + w ∨ (i.lines : Int) < y + n ∨ 16384 < w ∨ 16384 < n then .error fkBox
    else
      let s := (List.range n).map fun v => (List.range w).map fun u => gridAt g (u / sx') (v / sy)
      let b := d.get (F.IMP_TPL_CFG_BWR t)
      let rows := if d.get (F.IMP_TPL_CFG_TYPE t) = 1 ∨ b = 0 then s
        else flipGrid ((flipGrid (s.map (shrinkRuns b 0))).map (shrinkRuns b 0))
      .ok { tpl := t, x := x.toNat, y := y.toNat, rows := rows, grid := g0 }

/-! ### The field store (R207) -/

/-- Bytes of a line of a raster. -/
def Drawn.stride (f : Drawn) : Nat := ((f.rows.headD []).length * 4 + 511) / 512 * 64

/-- Bytes of a raster. -/
def Drawn.size (f : Drawn) : Nat := f.stride * f.rows.length

/-- The areas of the store that items hold which are not final: offset and bytes. -/
def Dev.storeUsed (d : Dev) : List (Nat × Nat) :=
  let base := dramBase + 2 ^ 20 * d.get F.IMP_FRBASE_MIB
  ((d.itk.items.filter (·.live)).map fun i => i.rasters.map fun r => (r.addr - base, r.stride * r.h)).flatten

/-- First free place for `n` bytes (entry 9). -/
def Dev.storePlace (d : Dev) (n : Nat) : Option Nat :=
  let used := d.storeUsed
  let cands := 0 :: used.map fun u => u.1 + u.2
  (cands.filter fun o => o + n ≤ 2 ^ 20 * d.get F.IMP_FRSIZE_MIB && !(used.any fun u => rangesMeet o n u.1 u.2)).foldl
    (fun b o => match b with
      | none => some o
      | some x => some (min x o)) none

/-- Packs coverage values two to a byte, the first in the upper half, filled up to `n` bytes. -/
def packCov : Nat → List Nat → List Byte
  | 0, _ => []
  | n + 1, l => BitVec.ofNat 8 (16 * l.headD 0 + nth l 1 0) :: packCov n (l.drop 2)

/-- Writes rasters one after the other from `a`; the device and the rasters. -/
def Dev.putRasters : Dev → Nat → List Drawn → Dev × List Raster
  | d, _, [] => (d, [])
  | d, a, f :: r =>
    let d1 := f.rows.zipIdx.foldl (fun d x => d.stBs (a + x.2 * f.stride) (packCov f.stride x.1)) d
    let q := d1.putRasters (a + f.size) r
    let m : Raster := { tpl := f.tpl, addr := a, x := f.x, y := f.y, w := (f.rows.headD []).length, h := f.rows.length, stride := f.stride }
    let u := ((f.grid.rows.headD []).length, f.grid.rows.length)
    (q.1, { m with elems := f.grid.elems, units := u, blk := f.grid.blk, ecc := f.grid.ecc } :: q.2)

/-! ### The queue (R209) and failures (R210) -/

/-- Items whose rendering is over, or that are no longer ACCEPTED, leave the queue; the item in work
goes with its rasters. -/
def Dev.impPurge (d : Dev) : Dev :=
  let keep (id : Nat) : Bool := (d.findItem id).any fun i => i.state == isAccepted && !i.rendered
  let q := d.ras.impQ.filter keep
  if (d.ras.impWork.map (·.1)).all keep then d.onRas fun t => { t with impQ := q }
  else d.onRas fun t => { t with impQ := q, impWork := none, impTag := false, impTags := [], impRoom := false }

/-- The item in work is done with. -/
def Dev.impDone (d : Dev) (id : Nat) : Dev :=
  d.onRas fun t =>
    { t with impQ := t.impQ.filter (· != id), impWork := none, impTag := false, impTags := [], impRoom := false }

/-- A failure ends the item NOT_PRINTED with reason FIELD, or KEYS for that kind (R210). -/
def Dev.impFail (d : Dev) (i : Item) (t kind : Nat) : Dev :=
  let d1 := d.when (d.get F.IMP_ERR_VALID == 0) fun d =>
    (d.wrN R.IMP_ERR (2 ^ 31 + kind * 2 ^ 16 + t * 2 ^ 8 + i.zone)).put64 R.IMP_ERRITEMLO R.IMP_ERRITEMHI i.id
  let keys := kind = fkKeys
  let d2 := (d1.incSat F.IMP_FAILCNT_COUNT).put (if keys then F.IMP_IRQ_STAT_KEYS else F.IMP_IRQ_STAT_FIELD) 1
  ((d2.finalise i.id isNotPrinted (if keys then 0x04 else 0x0A) false).impDone i.id).report (if keys then 73 else 72)

/-- What composition leaves beside the content: the counters' last values, a wrap (source 77) and a
refused date (source 76), each reported once for the item. -/
def Dev.composeEffects (d : Dev) (i : Item) (plan : List FieldEntry) : Dev :=
  let ps := (plan.map (·.pieces')).flatten
  let d1 := d.each ps fun d p => match p with
    | .cnt c => match d.counterValue c i.zone i.zseq with
      | none => d
      | some (v, wrapped) =>
        let d0 := d.put64 (R.IMP_CNT_LASTLO c) (R.IMP_CNT_LASTHI c) v
        d0.when wrapped fun d => d.onceFault i.id 5 fun d => (d.put F.IMP_IRQ_STAT_ROLL 1).report 77
    | _ => d
  let dated := ps.any fun p => match p with
    | .date _ => true
    | _ => false
  d1.when (dated && d1.timeRefused) fun d => (d.put F.IMP_IRQ_STAT_TIME 1).report 76

/-- The fields of an item that ask for a tag, with their messages. -/
def Dev.tagFields (d : Dev) (i : Item) (T : Nat) : List (Nat × List Byte) :=
  (d.fieldPlan i).filterMap fun e => (d.macMsg i T e).map fun m => (e.tpl, m)

/-- All fields of an item drawn in rising template number, or the first failure. -/
def Dev.drawAll (d : Dev) (i : Item) (h : StreamHdr) (T : Nat) (tags : List (Nat × List Byte)) :
    List FieldEntry → Except (Nat × Nat) (List Drawn)
  | [] => .ok []
  | e :: r =>
    match d.fieldContent i T tags e with
    | .error k => .error (e.tpl, k)
    | .ok l => match d.drawField i h e l with
      | .error k => .error (e.tpl, k)
      | .ok f => match d.drawAll i h T tags r with
        | .error x => .error x
        | .ok fs => .ok (f :: fs)

/-- Encodes, draws and writes the fields of the item in work once its tags are there. `err` names an
error met: 1 in IMP's own buffers, 2 in DRAM while a raster is written. -/
def Dev.impFinish (d : Dev) (i : Item) (h : StreamHdr) (T err : Nat) : Dev :=
  let plan := d.fieldPlan i
  let t0 := (plan.head?.map (·.tpl)).getD 0
  match d.drawAll i h T d.ras.impTags plan with
  | .error (t, k) => d.impFail i t k
  | .ok fs =>
    let n := fs.foldl (fun x f => x + f.size) 0
    if err = 1 then (d.impFail i t0 fkEcc).report 74
    else if err = 2 then (d.impFail i t0 fkEcc).report 78
    else if 2 ^ 20 < n then d.impFail i t0 fkBox
    else match d.storePlace n with
      | none =>
        if d.ras.impRoom then d
        else ((d.onRas fun t => { t with impTag := false, impRoom := true }).put F.IMP_IRQ_STAT_FRFULL 1).report 75
      | some o =>
        let r := d.putRasters (dramBase + 2 ^ 20 * d.get F.IMP_FRBASE_MIB + o) fs
        let codes := (plan.filter fun e => d.get (F.IMP_TPL_CFG_TYPE e.tpl) != 1).length
        let ra := r.2
        ((r.1.updItem i.id fun i => { i with rendered := true, rasters := ra }).addSat F.IMP_CODECNT_COUNT codes).impDone i.id

/-- The item in work, its header and its instant. -/
def Dev.impItem (d : Dev) : Option (Item × StreamHdr × Nat) :=
  match d.ras.impWork with
  | none => none
  | some (id, T) => match d.findItem id with
    | none => none
    | some i => (d.pageHdr i.page).map fun h => (i, h, T)

/-- The instant of an item's dates (R197): read when its composition begins; on a chip that follows its
partner, the ACTIVE's, once it has come (R381). -/
def Dev.impT (d : Dev) (id : Nat) : Option Nat :=
  if d.decides then some (d.timeNs d.c / 1000000000)
  else (d.twn.inputs.find? fun x => x.kind == 2 && x.args.head? == some id).map fun x => nth x.args 1 0

/-- IMP begins the item at the front of its queue: the instant of its dates is read, its values are
composed, and it asks for its tags, or goes straight on when it needs none. -/
def Dev.impBegin (d : Dev) (i : Item) (h : StreamHdr) (T err : Nat) : Dev :=
  let d1 := d.twInput 2 i.zone 0 [i.id, T]
  let d2 := d1.onRas fun t => { t with impWork := some (i.id, T), impTags := [] }
  let d3 := d2.composeEffects i (d2.fieldPlan i)
  if d3.tagFields i T = [] then d3.impFinish i h T err
  else d3.onRas fun t => { t with impTag := true }

/-- The items of a page that print no field are rendered once its header has passed (R209). -/
def Dev.impNoFields (d : Dev) (page : Nat) : Dev :=
  if (d.pageHdr page).isNone then d
  else d.each (d.itk.items.filter fun i => i.page == page && i.state == isAccepted && !i.rendered && d.fieldPlan i == [])
    fun d i => d.updItem i.id fun i => { i with rendered := true }

/-- An accepted item enters IMP's queue (R209). -/
def Dev.impEnqueue (d : Dev) (id : Nat) : Dev := d.onRas fun t => { t with impQ := t.impQ ++ [id] }

/-- IMP_ITEM_RENDER (R209): the first item of the queue is begun when its header has passed. -/
def execImpItemRender (err : Fin 3) (s : State) : Host.Outcome State Fault Refusal :=
  s.upd fun d0 =>
    let d := d0.impPurge
    match d.ras.impWork, d.ras.impQ with
    | none, id :: _ =>
      match d.findItem id with
      | none => d
      | some i => match d.pageHdr i.page with
        | none => d
        | some h =>
          if d.fieldPlan i = [] then (d.impNoFields i.page).impPurge
          else match d.impT id with
            | none => d
            | some T => d.impBegin i h T err
    | _, _ => d

/-- MAC_RESULT (R198): the MAC unit answers the next field that waits for its tag; with the last tag
the item is rendered; ABSENT ends it with reason KEYS. -/
def execMacResult (err : Fin 3) (s : State) : Host.Outcome State Fault Refusal :=
  s.upd fun d0 =>
    let d := d0.impPurge
    match d.impItem with
    | none => d
    | some (i, h, T) =>
      if !d.ras.impTag then d
      else
        let left := (d.tagFields i T).filter fun x => !(d.ras.impTags.any fun y => y.1 == x.1)
        match left with
        | [] => d.impFinish i h T err
        | x :: r =>
          let ans := d.macAnswer 0 (d.get (F.IMP_TPL_MAC_KEYSLOT x.1)) x.2
          if ans.1 ≠ sOk then d.impFail i x.1 fkKeys
          else
            let tags := d.ras.impTags ++ [(x.1, ans.2)]
            let d1 := d.onRas fun t => { t with impTags := tags }
            if r = [] then d1.impFinish i h T err else d1

/-- FIELD_STORE_ROOM (R209): the item that waits for room goes on when there is room. -/
def execFieldStoreRoom (err : Fin 3) (s : State) : Host.Outcome State Fault Refusal :=
  s.upd fun d0 =>
    let d := d0.impPurge
    match d.impItem with
    | none => d
    | some (i, h, T) => if d.ras.impRoom then d.impFinish i h T err else d

/-! ### Checks at CONFIG_DONE (R212) -/

/-- Zones whose mask names a template. -/
def Dev.tplZones (d : Dev) (t : Nat) : List Nat := (List.range 16).filter fun z => d.tplIn z t

/-- A font is loaded. -/
def Dev.hasFont (d : Dev) (n : Nat) : Bool := d.ras.fonts.any fun f => f.1 == n

/-- The fonts that a template's TYPE uses. -/
def Dev.tplFonts (d : Dev) (t : Nat) : List Nat :=
  let type := d.get (F.IMP_TPL_CFG_TYPE t)
  let hri := d.get (F.IMP_TPL_SYM_HRIFONT t)
  if type = 1 then [d.get (F.IMP_TPL_TEXT_FONT t)] else if type ≤ 6 ∧ hri ≠ 0xFF then [hri] else []

/-- An enabled template keeps R212 (but for its fonts, which `fonts` judges), and its default R195. -/
def Dev.tplOk (d : Dev) (fonts : Nat → Bool) (t : Nat) : Bool :=
  let type := d.get (F.IMP_TPL_CFG_TYPE t)
  let gs1 := d.get (F.IMP_TPL_CFG_GS1 t) == 1
  let tag := d.get (F.IMP_TPL_MAC_TAGBITS t)
  let key := d.keyAt (d.get (F.IMP_TPL_MAC_KEYSLOT t))
  let df := d.tplDefault t
  (tag == 0 || key.any fun k => 1 ≤ k.kind && k.kind ≤ 3 && bitB k.use 0) &&
  (d.tplFonts t).all fonts &&
  (!gs1 || type == 2 || type == 7 || type == 8) &&
  (d.get (F.IMP_TPL_MAC_FORM t) != 2 || type == 7 || type == 8) &&
  !(gs1 && d.get (F.IMP_TPL_SYM_B256 t) == 1) &&
  d.valueOk t df &&
  ((pieces df).getD []).all fun p => match p with
    | .cnt c => (d.tplZones t).all fun z => d.get (F.IMP_CNT_CFG_ZONE c) == z
    | _ => true

/-- An enabled counter has MIN at most MAX. -/
def Dev.cntOk (d : Dev) (c : Nat) : Bool :=
  d.get64 (R.IMP_CNT_MINLO c) (R.IMP_CNT_MINHI c) ≤ d.get64 (R.IMP_CNT_MAXLO c) (R.IMP_CNT_MAXHI c)

/-- The enabled counters and templates that break R212: counters first. -/
def Dev.impBreaches (d : Dev) (fonts : Nat → Bool) : List Nat × List Nat :=
  ((List.range 16).filter fun c => d.get (F.IMP_CNT_CFG_ENABLE c) == 1 && !(d.cntOk c),
   (List.range 64).filter fun t => d.get (F.IMP_TPL_CFG_ENABLE t) == 1 && !(d.tplOk fonts t))

/-- A template is disabled and cleared from every zone mask (R212). -/
def Dev.tplDisable (d : Dev) (t : Nat) : Dev :=
  (d.put (F.IMP_TPL_CFG_ENABLE t) 0).each (List.range 16) fun d z =>
    if t < 32 then d.clrBit (F.IMP_ZONE_TPLLO_MASK z) t else d.clrBit (F.IMP_ZONE_TPLHI_MASK z) (t - 32)

/-! ### The IMP registers -/

def impRngs : List Rng :=
  [⟨F.IMP_CNT_CFG_PAD 0, 0, 2⟩, ⟨F.IMP_CNT_STEP_STEP 0, 1, 2 ^ 32 - 1⟩, ⟨F.IMP_TPL_X_POS 0, 0, 262143⟩,
   ⟨F.IMP_TPL_SCALE_SX 0, 1, 64⟩, ⟨F.IMP_TPL_SCALE_SY 0, 1, 64⟩, ⟨F.IMP_TPL_SCALE_HEIGHT 0, 1, 4096⟩,
   ⟨F.IMP_TPL_SYM_QZ 0, 0, 32⟩, ⟨F.IMP_TPL_SYM_SHAPE 0, 0, 2⟩, ⟨F.IMP_TPL_SYM_SIZE 0, 0, 40⟩,
   ⟨F.IMP_TPL_MAC_FORM 0, 0, 2⟩, ⟨F.IMP_TPL_KODEF_DEFLEN 0, 0, 64⟩, ⟨F.IMP_TPL_TEXT_FONT 0, 0, 31⟩]

/-- The legality of IMP's registers that ranges alone do not say. -/
def impLegal (w : Wr) : Bool :=
  if w.at (R.IMP_CNT_CFG 0) then
    let r := w.val (F.IMP_CNT_CFG_RADIX 0)
    let n := w.val (F.IMP_CNT_CFG_DIGITS 0)
    let en := w.val (F.IMP_CNT_CFG_ENABLE 0) == 1
    !(w.val (F.IMP_CNT_CFG_CHK 0) == 1 && r != 10) &&
    (!en || ((r == 10 || r == 16 || r == 36) && 1 ≤ n && n ≤ 20))
  else if w.at (R.IMP_DATE_CFG 0) then
    let m := sx 11 (w.val (F.IMP_DATE_CFG_LOCALMIN 0))
    decide (-840 ≤ m ∧ m ≤ 840)
  else if w.at (R.IMP_TPL_CFG 0) then
    let ty := w.val (F.IMP_TPL_CFG_TYPE 0)
    w.val (F.IMP_TPL_CFG_ENABLE 0) == 0 || (1 ≤ ty && ty ≤ 8)
  else if w.at (R.IMP_TPL_MAC 0) then
    let b := w.val (F.IMP_TPL_MAC_TAGBITS 0)
    b == 0 || (32 ≤ b && b ≤ 128 && b % 8 == 0)
  else if w.at (R.IMP_TPL_SYM 0) then
    let f := w.val (F.IMP_TPL_SYM_HRIFONT 0)
    f ≤ 31 || f == 0xFF
  else true

/-- A store of IMP leaves the addressable DRAM or meets the page store (checked at once only after
CONFIG_DONE, R503). -/
def Dev.impStoreBad (d : Dev) : Bool :=
  let m := 2 ^ 20
  let one (b n : Nat) : Bool :=
    n != 0 && (!(d.dramFits (m * b) (m * n)) ||
      rangesMeet (m * b) (m * n) (m * d.get F.ITK_PAGEBASE_MIB) (m * d.get F.ITK_PAGESIZE_MIB))
  one (d.get F.IMP_FRBASE_MIB) (d.get F.IMP_FRSIZE_MIB) || one (d.get F.IMP_FONTBASE_MIB) (d.get F.IMP_FONTSIZE_MIB)

/-- Checks 5 and 6 of a write to IMP. -/
def impCheck (_ : Dev) (w : Wr) : Nat :=
  firstFail [(rngBad impRngs w || !(impLegal w), sBadValue)]

/-- What a write to IMP does beside storing its fields. -/
def impApply (d : Dev) (w : Wr) : Dev :=
  if w.at R.IMP_ERR then
    d.when (bitB w.new 31) fun d => ((d.wrN R.IMP_ERR 0).wrN R.IMP_ERRITEMLO 0).wrN R.IMP_ERRITEMHI 0
  else d

/-- IMP_STAT: items waiting or in work, and the free field store in MiB. -/
def impView (d : Dev) (base : Nat) (_ : List Nat) : Option Nat :=
  if base = R.IMP_STAT then
    let q := d.impPurge.ras.impQ.length
    let used := d.storeUsed.foldl (fun x u => x + u.2) 0
    some (min q 8191 * 2 ^ 16 + min 65535 ((2 ^ 20 * d.get F.IMP_FRSIZE_MIB - used) / 2 ^ 20))
  else none

end Sys2Proof.Machine
end

