-- ==== Sys2Proof/Machine/Eth.lean ====
section
/-! DEFINITION. ETH: the ports and their frames (R418 to R422), firmware frames (R423, R424),
timestamps (R427, R428), timed launch (R429), and the ETH registers. -/

namespace Sys2Proof.Machine

/-! ### Ports -/

/-- An Ethernet port beside its registers. -/
def Dev.eport (d : Dev) (p : Nat) : EthPort := nth d.eth.ports p {}

/-- Changes an Ethernet port. -/
def Dev.onEport (d : Dev) (p : Nat) (f : EthPort → EthPort) : Dev :=
  d.onEth fun t => { t with ports := upd t.ports p f }

/-- A port is UP. -/
def Dev.ethUp (d : Dev) (p : Nat) : Bool := d.get (F.ETH_PORT_STAT_STATE p) == 2

/-- The MAC address as a number whose most significant octet is sent first (R419). -/
def Dev.ethMac (d : Dev) (p : Nat) : Nat :=
  (d.rd (R.ETH_PORT_MACLO p)).toNat + 2 ^ 32 * ((d.rd (R.ETH_PORT_MACHI p)).toNat % 2 ^ 16)

/-- The EUI-64 of a MAC address: FF-FE in the middle. -/
def eui64 (mac : Nat) : Nat := mac / 2 ^ 24 * 2 ^ 40 + 0xFFFE * 2 ^ 24 + mac % 2 ^ 24

/-- The IPv6 global address. -/
def Dev.ethIp6 (d : Dev) (p : Nat) : Nat :=
  (List.range 4).foldl (fun x i => x * 2 ^ 32 + (d.rd (R.ETH_PORT_IPV6 p i)).toNat) 0

/-- The IPv6 link-local address: fe80::/64 with the modified EUI-64. -/
def Dev.ethLocal (d : Dev) (p : Nat) : Nat := 0xFE80 * 2 ^ 112 + (eui64 (d.ethMac p) ^^^ 0x0200000000000000)

/-- A good frame is received. -/
def Dev.ethGood (d : Dev) (p : Nat) : Dev := d.incWrap (F.ETH_PORT_RXFRAMES_COUNT p)

/-- A frame leaves a port: kind and body. -/
def Dev.ethSend (d : Dev) (p kind : Nat) (body : List Nat) : Dev :=
  (d.emit (.eth p kind body)).incWrap (F.ETH_PORT_TXFRAMES_COUNT p)

/-- The built-in latency of a port's mode in ns (R427): transmit, receive. -/
def ethLatency (rate fec : Nat) : Nat × Nat :=
  if rate = 6 then (if fec = 0 then (19, 27) else if fec = 1 then (60, 85) else (73, 105))
  else if fec = 0 then (31, 43) else (72, 101)

/-- The timestamp of a frame that the PCS measures at counter value `pcs` (R427), in ns; the codeword
alignment of RS-FEC counts in `pcs`. -/
def Dev.ethStamp (d : Dev) (p pcs : Nat) (rx : Bool) : Int :=
  let l := ethLatency (d.get (F.SRD_LANE_CFG_RATE (32 + p))) (d.get (F.ETH_PORT_CFG_FEC p))
  let adj := (d.rd (R.ETH_PORT_TSADJ p)).toNat
  d.timeAt pcs + (if rx then (l.2 : Int) + sx 16 (adj / 2 ^ 16) else (l.1 : Int) + sx 16 adj)

/-! ### The rings (R423, R424) -/

/-- A ring base, as an address. -/
def Dev.ethBase (d : Dev) (lo hi : Nat) : Nat := (d.rd lo).toNat + 2 ^ 32 * ((d.rd hi).toNat % 256)

/-- The next transmit entry. -/
def Dev.txEntry (d : Dev) (p : Nat) : Nat :=
  d.ethBase (R.ETH_PORT_TXBASELO p) (R.ETH_PORT_TXBASEHI p) + 32 * d.get (F.ETH_PORT_NEXT_TXNEXT p)

/-- The next receive entry. -/
def Dev.rxEntry (d : Dev) (p : Nat) : Nat :=
  d.ethBase (R.ETH_PORT_RXBASELO p) (R.ETH_PORT_RXBASEHI p) + 32 * d.get (F.ETH_PORT_NEXT_RXNEXT p)

/-- Memory that a ring or a frame may lie in. -/
def Dev.ethMem (d : Dev) (a n : Nat) : Bool := inSram a n || d.inDram a n

/-- The timestamp queue's registers show its oldest entry (R428). -/
def Dev.syncTxts (d : Dev) : Dev :=
  let e := (d.eth.txts.head?).getD (0, 0, 0)
  let sec := e.2.2 / 1000000000
  let d1 := (d.put F.ETH_TXTS_STAT_COUNT d.eth.txts.length).put F.ETH_TXTS_STAT_PORT e.2.1
  let d2 := (d1.wrN R.ETH_TXTS_ID e.1).wrN R.ETH_TXTS_SECLO sec
  (d2.wrN R.ETH_TXTS_SECHI (sec / 2 ^ 32 % 2 ^ 16)).wrN R.ETH_TXTS_NS (e.2.2 % 1000000000)

/-- A firmware timestamp enters the queue; false when the queue is full and it is lost (R428). -/
def Dev.pushTxts (d : Dev) (id p ts : Nat) : Dev × Bool :=
  if d.eth.txts.length < 64 then
    let d1 := d.onEth fun t => { t with txts := t.txts ++ [(id, p, ts)] }
    ((d1.syncTxts).put F.ETH_IRQ_STAT_TSREADY 1, true)
  else (((d.incSat F.ETH_TXTS_STAT_OVF).put F.ETH_IRQ_STAT_TSOVF 1).report 162, false)

/-- A transmit descriptor is written back with a STATUS, and the ring goes on. -/
def Dev.txBack (d : Dev) (p status : Nat) (late : Bool) : Dev :=
  let a := d.txEntry p
  let f := (d.ldB (a + 0x0A)).toNat
  let f1 := f / 2 * 2
  let f2 := if late && !(bitB f1 4) then f1 + 16 else f1
  let d1 := (d.st (a + 0x0A) 1 f2).st (a + 0x0B) 1 status
  let nx := (d.get (F.ETH_PORT_NEXT_TXNEXT p) + 1) % max 1 (d.get (F.ETH_PORT_TXSIZE_ENTRIES p))
  let d2 := (d1.put (F.ETH_PORT_NEXT_TXNEXT p) nx).put F.ETH_IRQ_STAT_TXDONE 1
  d2.onEport p fun x => { x with sending := false, waiting := false, late := false }

/-- A launch was LATE and its frame is not sent (R429). -/
def Dev.txLate (d : Dev) (p : Nat) : Dev := ((d.txBack p sLate true).put F.ETH_IRQ_STAT_LATE 1).report 163

/-- LAUNCH time of the next transmit entry, in ns. -/
def Dev.txTime (d : Dev) (p : Nat) : Nat :=
  let a := d.txEntry p
  d.ld (a + 0x10) 6 * 1000000000 + d.ld (a + 0x16) 4

/-- The next transmit entry breaks R423 or R429. -/
def Dev.txBad (d : Dev) (p : Nat) : Bool :=
  let a := d.txEntry p
  let len := d.ld (a + 0x08) 2
  let launch := bitB (d.ldB (a + 0x0A)).toNat 2
  len < 14 || 9212 < len || d.ld (a + 0x1A) 6 != 0 ||
  (launch && (1000000000 ≤ d.ld (a + 0x16) 4 || decide (d.timeAt d.c + 10000000000 < (d.txTime p : Nat))))

/-- ETH looks at the next transmit entries, until a frame starts or waits or an entry has OWN clear. -/
def Dev.txLook : Nat → Dev → Nat → Dev
  | 0, d, _ => d
  | n + 1, d, p =>
    let x := d.eport p
    if x.sending || x.waiting || d.c < x.pause then d
    else if d.get (F.ETH_PORT_TXSIZE_ENTRIES p) = 0 then d.onEport p fun y => { y with run := false }
    else
      let f := (d.ldB (d.txEntry p + 0x0A)).toNat
      let passed := decide ((d.txTime p : Int) < d.timeAt d.c)
      if !(bitB f 0) then d.onEport p fun y => { y with run := false }
      else if d.txBad p then (d.txBack p sBadValue false).txLook n p
      else if bitB f 2 then
        if (passed && !(bitB f 3)) || !(d.ethUp p) then (d.txLate p).txLook n p
        else if passed then d.onEport p fun y => { y with sending := true, late := true }
        else d.onEport p fun y => { y with waiting := true }
      else d.onEport p fun y => { y with sending := true }

/-- ETH looks at a port's ring, as far as one turn round it. -/
def Dev.txGo (d : Dev) (p : Nat) : Dev :=
  d.when (d.eport p).run fun d => d.txLook (d.get (F.ETH_PORT_TXSIZE_ENTRIES p) + 1) p

/-- A TXKICK. -/
def Dev.txKick (d : Dev) (p : Nat) : Dev := (d.onEport p fun x => { x with run := true }).txGo p

/-- TX_FRAME_DONE: a transmit frame ends, measured at the PCS at `pcs`; `err` for a memory error. -/
def execTxFrameDone (p : Fin 4) (pcs : Nat) (err : Bool) (s : State) : Host.Outcome State Fault Refusal :=
  s.upd fun d0 =>
    let d := (d0.atTime pcs).txGo p
    let x := d.eport p
    if !x.sending || !(d.ethUp p) then d
    else
      let a := d.txEntry p
      let len := d.ld (a + 0x08) 2
      let buf := d.ld a 8
      if err || !(d.ethMem buf len) then (d.txBack p sIntegrity x.late).txGo p
      else
        let body := (d.ldBs buf len).map (·.toNat)
        let d1 := d.ethSend p 4 (body ++ List.replicate (60 - len) 0)
        let ts := (d.ethStamp p pcs false).toNat
        let want := bitB (d.ldB (a + 0x0A)).toNat 1
        let r := if want then d1.pushTxts (d.ld (a + 0x0C) 4) p ts else (d1, true)
        let d2 := r.1.when (!r.2) fun d => d.st (a + 0x0C) 4 0xFFFFFFFF
        (d2.txBack p sOk x.late).txGo p

/-- Device time has reached the TIME of the frame that waits (R429): it leaves. -/
def Dev.launch (d : Dev) (p : Nat) (late : Bool) : Dev :=
  d.onEport p fun x => { x with waiting := false, sending := true, late := late }

/-- TIMED_LAUNCH: counter value `t` comes, and a frame whose TIME it has reached leaves. -/
def execTimedLaunch (p : Fin 4) (t : Nat) (s : State) : Host.Outcome State Fault Refusal :=
  s.upd fun d0 =>
    let d := (d0.atTime t).txGo p
    d.when ((d.eport p).waiting && decide ((d.txTime p : Int) ≤ d.timeAt d.c)) fun d => d.launch p false

/-- A step has moved device time: frames whose TIME it has passed leave at once, LATE (R429). -/
def Dev.launchStepped (d : Dev) : Dev :=
  d.each (List.range 4) fun d p =>
    d.when ((d.eport p).waiting && decide ((d.txTime p : Int) < d.timeAt d.c)) fun d => d.launch p true

/-- The receive ring takes a frame (R423, R424). -/
def Dev.rxRing (d : Dev) (p : Nat) (frame : List Byte) (vlan : Bool) (pcs : Nat) (err : Bool) : Dev :=
  let a := d.rxEntry p
  let size := d.get (F.ETH_PORT_RXSIZE_ENTRIES p)
  if size = 0 ∨ !(bitB (d.ldB (a + 0x0A)).toNat 0) then d.incSat (F.ETH_PORT_RXNOBUF_COUNT p)
  else
    let buf := d.ld a 8
    let long := decide (d.ld (a + 0x08) 2 < frame.length)
    let bad := err || !(d.ethMem buf frame.length)
    let status := if long then sOverflow else if bad then sIntegrity else sOk
    let d1 := d.when (status == sOk) fun d => d.stBs buf frame
    let d2 := (d1.st (a + 0x08) 2 frame.length).st (a + 0x0A) 1 (if vlan then 16 else 0)
    let d3 := ((d2.st (a + 0x0B) 1 status).st (a + 0x0C) 4 0).stBs (a + 0x10) (ptpBytes (d.ethStamp p pcs true))
    (d3.put (F.ETH_PORT_NEXT_RXNEXT p) ((d.get (F.ETH_PORT_NEXT_RXNEXT p) + 1) % size)).put F.ETH_IRQ_STAT_RXDONE 1

/-- SWRX_FRAME: a frame that rows 1 to 6 of R420 do not take, without its FCS. -/
def execSwrxFrame (p : Fin 4) (frame : List Byte) (vlan : Bool) (pcs : Nat) (err : Bool) (s : State) :
    Host.Outcome State Fault Refusal :=
  s.upd fun d0 =>
    let d := d0.atTime pcs
    if !(d.ethUp p) then d
    else if d.get (F.ETH_PORT_CFG_SWRX p) = 0 then d.incSat (F.ETH_PORT_RXFILT_COUNT p)
    else (d.ethGood p).rxRing p frame vlan pcs err

/-- ETH_RX_DROP: a received frame is dropped: `why` 0 by row 1 of R420, 1 by rows 2, 3 or 8, 2 by an
uncorrectable error in a buffer (R436). -/
def execEthRxDrop (p : Fin 4) (why : Fin 3) (s : State) : Host.Outcome State Fault Refusal :=
  s.upd fun d =>
    if !(d.ethUp p) then d
    else if why = 0 then
      let x := d.eport p
      let c := d.c
      let same := decide (c < x.errC + 1000000000)
      let n := if same then x.errs + 1 else 1
      let c0 := if same then x.errC else c
      let d1 := (d.incSat (F.ETH_PORT_RXERR_COUNT p)).onEport p fun y => { y with errs := n, errC := c0 }
      d1.when (n == 1001) fun d => (d.put F.ETH_IRQ_STAT_RXERR 1).report 161
    else if why = 1 then d.incSat (F.ETH_PORT_RXFILT_COUNT p)
    else d.report 163

/-! ### Link and answers -/

/-- Takes a port state: OFF 0, DOWN 1, UP 2; leaving UP raises source 160 and writes LATE back for a
frame that waits for its TIME. -/
def Dev.ethState (d : Dev) (p st : Nat) : Dev :=
  let old := d.get (F.ETH_PORT_STAT_STATE p)
  if old = st then d
  else
    let d1 := (d.put (F.ETH_PORT_STAT_STATE p) st).put F.ETH_IRQ_STAT_LINK 1
    let d2 := d1.when (old == 2) fun d => d.report 160
    d2.when (st != 2 && (d2.eport p).waiting) fun d => (d.txLate p).txGo p

/-- ETH starts at CONFIG_DONE (R436): enabled ports are DOWN until their PCS has block lock. -/
def Dev.ethStart (d : Dev) : Dev :=
  d.each ((List.range 4).filter fun p => d.get (F.ETH_PORT_CFG_ENABLE p) == 1) fun d p => d.put (F.ETH_PORT_STAT_STATE p) 1

/-- ETH_LINK_CHANGE: a port's PCS gains or loses block lock. -/
def execEthLinkChange (p : Fin 4) (lock : Bool) (s : State) : Host.Outcome State Fault Refusal :=
  s.upd fun d => d.when (d.get (F.ETH_PORT_STAT_STATE p) != 0) fun d => d.ethState p (if lock then 2 else 1)

/-- PAUSE: a received PAUSE of so many quanta of 512 bit times, obeyed when PAUSEEN is set (R418). -/
def execPause (p : Fin 4) (quanta : Fin 65536) (s : State) : Host.Outcome State Fault Refusal :=
  s.upd fun d => d.when (d.ethUp p) fun d =>
    let ps := if d.get (F.SRD_LANE_CFG_RATE (32 + p)) = 6 then 20480 else 51200
    let c := d.c
    (d.ethGood p).when (d.get (F.ETH_PORT_CFG_PAUSEEN p) == 1) fun d =>
      d.onEport p fun x => { x with pause := c + quanta * ps / 1000 }

/-- ARP_REQUEST: from a MAC and IPv4 address, for `ip` (R419). -/
def execArpRequest (p : Fin 4) (mac sip ip : Nat) (s : State) : Host.Outcome State Fault Refusal :=
  s.upd fun d => d.when (d.ethUp p) fun d =>
    (d.ethGood p).when (ip == (d.rd (R.ETH_PORT_IPV4 p)).toNat && ip != 0) fun d =>
      d.ethSend p 1 [mac, d.ethMac p, ip, sip]

/-- NEIGHBOUR_SOLICITATION: from a MAC and IPv6 address, for `target` (R419). -/
def execNeighbourSolicitation (p : Fin 4) (mac sip target : Nat) (s : State) : Host.Outcome State Fault Refusal :=
  s.upd fun d => d.when (d.ethUp p) fun d =>
    (d.ethGood p).when (target == d.ethLocal p || (target == d.ethIp6 p && target != 0)) fun d =>
      d.ethSend p 2 [mac, d.ethMac p, target, sip]

/-- ECHO_REQUEST: ICMPv4 or ICMPv6 from a MAC and IP address to `dst`, with its data (R419). -/
def execEchoRequest (p : Fin 4) (v6 : Bool) (mac sip dst : Nat) (data : List Byte) (s : State) :
    Host.Outcome State Fault Refusal :=
  s.upd fun d => d.when (d.ethUp p) fun d =>
    let own := if v6 then dst == d.ethLocal p || (dst == d.ethIp6 p && dst != 0)
      else dst == (d.rd (R.ETH_PORT_IPV4 p)).toNat && dst != 0
    (d.ethGood p).when (own && data.length ≤ 1500) fun d =>
      d.ethSend p 3 ([mac, d.ethMac p, dst, sip] ++ data.map (·.toNat))

/-! ### The ETH registers -/

/-- A port's settings are rejected at CONFIG_DONE (R418, R419). -/
def Dev.ethConfigBad (d : Dev) : Bool :=
  (List.range 4).any fun p => d.get (F.ETH_PORT_CFG_ENABLE p) == 1 && (
    let rate := d.get (F.SRD_LANE_CFG_RATE (32 + p))
    let mac := d.ethMac p
    let v (f : Fld) : Bool := d.bit F.ITK_NETCFG_PORTS p && d.get f == 1
    !(d.claimed 3 (32 + p)) || !(rate == 3 || rate == 6) || mac == 0 || bitB mac 40 ||
    (d.get (F.ETH_PORT_CFG_FEC p) == 2 && rate != 6) ||
    (v F.ITK_NETCFG_IPV4 && (d.rd (R.ETH_PORT_IPV4 p)).toNat == 0) || (v F.ITK_NETCFG_IPV6 && d.ethIp6 p == 0))

/-- The ring that a write of a base or a size would give, as address and bytes. -/
def Dev.ethRing (d : Dev) (w : Wr) (lo hi size : Nat) : Nat × Nat :=
  let v (r : Nat) : Nat := if w.addr = r then w.new else (d.rd r).toNat
  (v lo + 2 ^ 32 * (v hi % 256), 32 * (v size % 2 ^ 13))

/-- A ring's base and size are legal: a multiple of 32, wholly in shared SRAM or DRAM, 16 to 4,096
entries or none. -/
def Dev.ethRingOk (d : Dev) (w : Wr) (lo hi size : Nat) : Bool :=
  let r := d.ethRing w lo hi size
  let n := r.2 / 32
  if w.addr = size then (n == 0 || (16 ≤ n && n ≤ 4096)) && (!d.full || n == 0 || d.ethMem r.1 r.2)
  else (w.addr != lo || w.new % 32 == 0) && (!d.full || d.ethMem r.1 (max 1 r.2))

/-- Checks 5 and 6 of a write to ETH. -/
def ethCheck (d : Dev) (w : Wr) : Nat :=
  let p := w.i
  let tx := w.at (R.ETH_PORT_TXBASELO 0) || w.at (R.ETH_PORT_TXBASEHI 0) || w.at (R.ETH_PORT_TXSIZE 0)
  let rx := w.at (R.ETH_PORT_RXBASELO 0) || w.at (R.ETH_PORT_RXBASEHI 0) || w.at (R.ETH_PORT_RXSIZE 0)
  let cfg := w.at (R.ETH_PORT_CFG 0)
  let vid := bits w.new 0 12
  firstFail [
    (cfg && bits w.new 29 2 == 3, sBadValue),
    (cfg && bitB w.new 26 && (vid == 0 || vid == 4095), sBadValue),
    (tx && !(d.ethRingOk w (R.ETH_PORT_TXBASELO p) (R.ETH_PORT_TXBASEHI p) (R.ETH_PORT_TXSIZE p)), sBadValue),
    (rx && !(d.ethRingOk w (R.ETH_PORT_RXBASELO p) (R.ETH_PORT_RXBASEHI p) (R.ETH_PORT_RXSIZE p)), sBadValue),
    (w.at (R.ETH_PORT_TXKICK 0) && bitB w.new 0 && d.get (F.ETH_PORT_TXSIZE_ENTRIES p) == 0, sBadState),
    (w.at R.ETH_TXTS_POP && bitB w.new 0 && d.eth.txts == [], sBadState)]

/-- What a write to ETH does beside storing its fields. -/
def ethApply (d : Dev) (w : Wr) : Dev :=
  let p := w.i
  if w.at R.ETH_TXTS_POP then
    d.when (bitB w.new 0) fun d => (d.onEth fun t => { t with txts := t.txts.drop 1 }).syncTxts
  else if w.at (R.ETH_PORT_TXKICK 0) then d.when (bitB w.new 0) fun d => d.txKick p
  else if w.at (R.ETH_PORT_TXSIZE 0) then
    (d.put (F.ETH_PORT_NEXT_TXNEXT p) 0).onEport p fun x => { pause := x.pause, errs := x.errs, errC := x.errC }
  else if w.at (R.ETH_PORT_RXSIZE 0) then d.put (F.ETH_PORT_NEXT_RXNEXT p) 0
  else if w.at (R.ETH_PORT_CLR 0) then
    d.when (bitB w.new 0) fun d =>
      d.each [R.ETH_PORT_RXERR p, R.ETH_PORT_RXFILT p, R.ETH_PORT_RXNOBUF p, R.ETH_PORT_RXFRAMES p, R.ETH_PORT_TXFRAMES p]
        fun d r => d.wrN r 0
  else d

end Sys2Proof.Machine
end

