-- ==== Sys2Proof/Machine/Ptp.lean ====
section
/-! DEFINITION. PTP: device time and its steering (R425, R426, R432 to R435), the protocol (R430, R431),
and the PTP registers. The best master clock algorithm is that of IEEE 1588-2019, PRESUMED (entry 5). -/

namespace Sys2Proof.Machine

/-- A PTP port beside its registers. -/
def Dev.pport (d : Dev) (p : Nat) : PtpPort := nth d.ptp.ports p {}

/-- Changes a PTP port. -/
def Dev.onPport (d : Dev) (p : Nat) (f : PtpPort → PtpPort) : Dev :=
  d.onPtp fun t => { t with ports := upd t.ports p f }

/-- Port `p` is a PTP port (R430). -/
def Dev.ptpOn (d : Dev) (p : Nat) : Bool :=
  d.configDone && d.get F.PTP_CFG_PROFILE != 0 && d.bit F.PTP_CFG_PORTS p

def ptpListening : Nat := 1
def ptpPreMaster : Nat := 2
def ptpMaster : Nat := 3
def ptpPassive : Nat := 4
def ptpSlave : Nat := 6

/-- State of a PTP port. -/
def Dev.pstate (d : Dev) (p : Nat) : Nat := d.get (F.PTP_PORT_STAT_PSTATE p)

/-- The clock identity (R430). -/
def Dev.clockId (d : Dev) : Nat := eui64 (d.ethMac 0)

/-- The port identity of port `p`: clock identity, then the port number from 1. -/
def Dev.portId (d : Dev) (p : Nat) : Nat := d.clockId * 2 ^ 16 + (p + 1)

/-- An interval of 2 to the power `log` seconds, in ns. -/
def logNs (log : Int) : Nat := if log < 0 then 1000000000 / 2 ^ log.natAbs else 1000000000 * 2 ^ log.toNat

/-- The intervals of PTP_INTV, in ns. -/
def Dev.syncNs (d : Dev) : Nat := logNs (sx 8 (d.get F.PTP_INTV_LOGSYNC))
def Dev.annNs (d : Dev) : Nat := logNs (sx 8 (d.get F.PTP_INTV_LOGANN))

/-! ### The time unit (R425, R432, R433) -/

/-- A quotient whose rounding the spec leaves open. -/
def servoDiv (n m : Int) : Int :=
  if n % m = 0 then n / m else n / m + (if Config.servoRoundsUp n m then 1 else 0)

/-- RATE changes: the anchor first moves to the present time. -/
def Dev.setRate (d : Dev) (r : Int) : Dev :=
  let t := d.timeAt d.c
  let c : Int := (d.c : Int)
  (d.onPtp fun x => { x with t0 := t, c0 := c }).wrN R.PTP_RATE (ux 32 r)

/-- A step adds a signed amount to T0, and is counted (R425, R433). -/
def Dev.stepTime (d : Dev) (by' : Int) : Dev :=
  let d1 := d.onPtp fun x => { x with t0 := x.t0 + by' }
  (((d1.incSat F.PTP_STATE_STEPS).put F.PTP_IRQ_STAT_STEP 1).report 165).launchStepped

/-- The time state. -/
def Dev.tstate (d : Dev) : Nat := d.get F.PTP_STATE_STATE

def tsAcquire : Nat := 1
def tsSync : Nat := 2
def tsHoldover : Nat := 3
def tsExpired : Nat := 4

/-- Enters a time state (R433). -/
def Dev.enterTime (d : Dev) (n : Nat) : Dev :=
  if d.tstate = n then d
  else
    let d1 := (d.put F.PTP_STATE_STATE n).put F.PTP_IRQ_STAT_STATE 1
    let c := d.c
    if n = tsHoldover then
      let d2 := d1.onPtp fun x => { x with holdC := c }
      (d2.when (d.get F.PTP_CFG_SERVO == 1) fun d => d.setRate d.ptp.integ).report 164
    else if n = tsExpired then d1.report 166
    else if n = tsAcquire then d1.onPtp fun x => { x with inRow := 0, satRow := 0 }
    else d1

/-- MAXRATE in units of 2^-40, to the nearest (R425, R432). -/
def Dev.maxRate (d : Dev) : Int := (d.get F.PTP_SERVO_MAXRATE * 2 ^ 40 + 500000) / 1000000

/-- The servo takes an offset measured over `delta` ns (R432). -/
def Dev.servo (d : Dev) (o delta : Int) : Dev :=
  let m := d.maxRate
  let e := servoDiv (-o * 2 ^ 40) delta
  let ki : Int := d.get F.PTP_SERVO_KI
  let kp : Int := d.get F.PTP_SERVO_KP
  let i := clampI (-m) m (d.ptp.integ + servoDiv (e * ki) 256)
  let r := clampI (-m) m (i + servoDiv (e * kp) 256)
  let n := if r = m ∨ r = -m then d.ptp.satRow + 1 else 0
  let d1 := (d.onPtp fun x => { x with integ := i, satRow := n }).setRate r
  d1.when (n == 8) fun d => (d.put F.PTP_IRQ_STAT_RATESAT 1).report 167

/-- Selects a source, or none: (1 PTP or 2 fabric, port, grandmaster) (R433, R434). -/
def Dev.setSource (d : Dev) (src : Option (Nat × Nat × Nat)) : Dev :=
  if d.ptp.source = src then d
  else
    let x := src.getD (0, 0, 0)
    let d0 := d.when (d.tstate == tsSync) fun d => d.enterTime tsHoldover
    let d1 := d0.onPtp fun t => { t with source := src, lastOff := none, inRow := 0 }
    let d2 := ((d1.put F.PTP_STATE_SRC x.1).put F.PTP_STATE_PORT x.2.1).put64 R.PTP_GMIDLO R.PTP_GMIDHI x.2.2
    let d3 := d2.put F.PTP_IRQ_STAT_PARENT 1
    d3.when src.isSome fun d => d.enterTime tsAcquire

/-- An offset is measured from the source selected (R432, R433). -/
def Dev.takeOffset (d : Dev) (o : Int) : Dev :=
  let lim : Int := 2 ^ 31 - 1
  let d0 := (d.wrN R.PTP_OFFSET (ux 32 (clampI (-lim) lim o))).put F.PTP_IRQ_STAT_OFFSET 1
  let step : Int := d0.get F.PTP_THR_STEPTHR * 1000
  let beyond := decide (step < o.natAbs)
  if d0.tstate = tsSync ∧ beyond then
    let src := d0.ptp.source
    (d0.setSource none).setSource src
  else
    let now := d0.c
    let r := match d0.ptp.lastOff with
      | some c => (now - c, d0)
      | none => d0.fresh 40
    let d1 := r.2.onPtp fun x => { x with lastOff := some now }
    let d2 := if d1.get F.PTP_CFG_SERVO = 0 then d1
      else if d1.tstate = tsAcquire ∧ beyond then (d1.stepTime (-o)).onPtp fun x => { x with integ := 0 }
      else d1.servo o (max 1 (r.1 : Int))
    let row := if o.natAbs ≤ d2.get F.PTP_THR_LOCKTHR then d2.ptp.inRow + 1 else 0
    let d3 := d2.onPtp fun x => { x with inRow := row }
    d3.when (8 ≤ row && d3.tstate == tsAcquire) fun d => d.enterTime tsSync

/-! ### The best master clock algorithm (R430) -/

/-- `a` comes before `b`, element by element. -/
def lexLt : List Nat → List Nat → Bool
  | a :: as, b :: bs => a < b || (a == b && lexLt as bs)
  | [], _ :: _ => true
  | _, [] => false

/-- What the algorithm compares of a foreign master. -/
def Foreign.key (f : Foreign) : List Nat :=
  [f.ann.p1, f.ann.cls, f.ann.acc, f.ann.var, f.ann.p2, f.ann.gm, f.ann.steps, f.sender, f.port]

/-- What it compares of this device's own clock. -/
def Dev.ownKey (d : Dev) : List Nat :=
  [d.get F.PTP_PRIO_PRIORITY1, d.get F.PTP_PRIO_CLASS, d.get F.PTP_PRIO_ACCURACY, Config.clockVariance,
   d.get F.PTP_PRIO_PRIORITY2, d.clockId]

/-- A foreign master is qualified: two Announces in four intervals; under gPTP, one. -/
def Dev.qualified (d : Dev) (f : Foreign) : Bool :=
  let n := if d.get F.PTP_CFG_PROFILE = 3 then 0 else 1
  match f.times[n]? with
  | some t => decide (d.c ≤ t + 4 * d.annNs)
  | none => false

/-- The best of a list of foreign masters. -/
def bestForeign : List Foreign → Option Foreign
  | [] => none
  | f :: r => match bestForeign r with
    | none => some f
    | some g => if lexLt g.key f.key then some g else some f

/-- The best qualified foreign master of a port. -/
def Dev.erbest (d : Dev) (p : Nat) : Option Foreign :=
  bestForeign (d.ptp.foreign.filter fun f => f.port == p && d.qualified f)

/-- The best over all ports. -/
def Dev.ebest (d : Dev) : Option Foreign :=
  bestForeign ((List.range 4).filterMap fun p => if d.ptpOn p then d.erbest p else none)

/-- `a`, which is better than `b`, is better by topology alone. -/
def Dev.byTopology (d : Dev) (a b : Foreign) : Bool :=
  a.ann.gm == b.ann.gm &&
  (a.ann.steps == b.ann.steps || (b.ann.steps == a.ann.steps + 1 && decide (b.sender < d.portId b.port)))

/-- The state that the algorithm recommends for a port. -/
def Dev.ptpDecide (d : Dev) (p : Nat) : Nat :=
  let own := d.ownKey
  let cur := d.pstate p
  let er := d.erbest p
  let better (f : Foreign) : Bool := lexLt own f.key
  if d.get F.PTP_PRIO_PRIORITY1 = 255 then
    (if d.ebest.any fun f => f.port == p then ptpSlave else ptpListening)
  else if er.isNone && cur == ptpListening then ptpListening
  else if d.get F.PTP_CFG_PROFILE ≠ 3 ∧ 1 ≤ d.get F.PTP_PRIO_CLASS ∧ d.get F.PTP_PRIO_CLASS ≤ 127 then
    (if er.all better then ptpMaster else ptpPassive)
  else match d.ebest with
    | none => ptpMaster
    | some e =>
      if better e then ptpMaster
      else if e.port = p then ptpSlave
      else if er.any fun f => d.byTopology e f then ptpPassive
      else if cur = ptpMaster then ptpMaster
      else ptpPreMaster

/-- Gives a PTP port a state; PRE_MASTER ends after stepsRemoved + 1 Announce intervals. -/
def Dev.setPstate (d : Dev) (p n : Nat) : Dev :=
  if d.pstate p = n then d
  else
    let c := d.c
    let steps := (d.ebest.map (·.ann.steps)).getD 0
    let till := c + (steps + 2) * d.annNs
    (d.put (F.PTP_PORT_STAT_PSTATE p) n).onPport p fun x => { x with pre := till, syncC := c }

/-- The UTC offset in force (R435). -/
def Dev.syncUtc (d : Dev) : Dev :=
  let a := match d.ptp.source with
    | some (1, _, _) => d.ebest
    | _ => none
  match a with
  | some f =>
    if f.ann.utcValid then d.wrN R.PTP_UTC (2 ^ 31 + ux 16 f.ann.utc) else d.wrN R.PTP_UTC (d.get F.PTP_HOLD_UTCOFS)
  | none => d.wrN R.PTP_UTC (d.get F.PTP_HOLD_UTCOFS)

/-- The source that PTP_CFG.SRC chooses among what is there (R434). -/
def Dev.chooseSource (d : Dev) : Dev :=
  let sl := (List.range 4).find? fun p => d.ptpOn p && d.pstate p == ptpSlave
  let ptp := match sl, d.ebest with
    | some p, some f => some (1, p, f.ann.gm)
    | _, _ => none
  let root := d.pgf.root.map (·.2)
  let fab := if d.ptp.fabric then some (2, 0, root.getD 0 % 2 ^ 64) else none
  let m := d.get F.PTP_CFG_SRC
  (d.setSource (if m = 0 then ptp else if m = 1 then fab else ptp.or fab)).syncUtc

/-- The algorithm runs over every PTP port, and the source follows. -/
def Dev.bmca (d : Dev) : Dev :=
  let want := ((List.range 4).filter d.ptpOn).map fun p => (p, d.ptpDecide p)
  (d.each want fun d w => d.setPstate w.1 w.2).chooseSource

/-- PTP starts at CONFIG_DONE (R436). -/
def Dev.ptpStart (d : Dev) : Dev :=
  (d.each ((List.range 4).filter d.ptpOn) fun d p => d.put (F.PTP_PORT_STAT_PSTATE p) ptpListening).syncUtc

/-! ### Messages (R431) -/

/-- A message of this device's domain on a PTP port. -/
def Dev.ptpTakes (d : Dev) (p : Nat) (h : PtpHdr) : Bool :=
  d.ptpOn p && d.ethUp p && h.dom == d.get F.PTP_CFG_DOMAIN && h.sender / 2 ^ 16 != d.clockId

/-- The master that a SLAVE port follows sent this message. -/
def Dev.fromParent (d : Dev) (p : Nat) (h : PtpHdr) : Bool :=
  d.ptpTakes p h && d.pstate p == ptpSlave && (d.erbest p).any fun f => f.sender == h.sender

/-- ANNOUNCE: enters the algorithm. -/
def execAnnounce (p : Fin 4) (h : PtpHdr) (a : PtpAnn) (s : State) : Host.Outcome State Fault Refusal :=
  s.upd fun d => d.when (d.ethUp p) fun d => (d.ethGood p).when (d.ptpTakes p h && a.steps < 255) fun d =>
    let same (f : Foreign) : Bool := f.port == p.val && f.sender == h.sender
    let old := ((d.ptp.foreign.find? same).map (·.times)).getD []
    let f : Foreign := { port := p, sender := h.sender, ann := a, times := (d.c :: old).take 4 }
    let rest := d.ptp.foreign.filter fun g => !(same g)
    (d.onPtp fun t => { t with foreign := rest ++ [f] }).bmca

/-- A SLAVE port has t1, t2 and the corrections of a Sync: its offset follows, in whole ns. -/
def Dev.takeSync (d : Dev) (p : Nat) (t1 t2 corr : Int) : Dev :=
  let delay : Int := sx 32 (d.rd (R.PTP_PORT_DELAY p)).toNat
  let o := ((t2 - t1) * 65536 - delay * 4096 - corr) / 65536
  let d1 := d.onPport p fun x => { x with pend := none, last := some (t1 * 65536 + corr, t2 * 65536) }
  if d1.ptp.source.any (fun x => x.1 == 1 && x.2.1 == p) then d1.takeOffset o else d1

/-- SYNC: measured at the PCS at `pcs`; `t1` is its origin time in ns, when it is one-step. -/
def execPtpSync (p : Fin 4) (h : PtpHdr) (twoStep : Bool) (t1 : Nat) (pcs : Nat) (s : State) :
    Host.Outcome State Fault Refusal :=
  s.upd fun d0 =>
    let d := (d0.atTime pcs).when (d0.ethUp p) fun d => d.ethGood p
    if !(d.fromParent p h) then d
    else
      let c := d.c
      let t2 := d.ethStamp p pcs true
      let d1 := (d.incWrap (F.PTP_PORT_STAT_SYNCS p)).onPport p fun x => { x with syncC := c }
      if twoStep then d1.onPport p fun x => { x with pend := some (h.seq, h.sender, t2, h.corr) }
      else d1.takeSync p t1 t2 h.corr

/-- FOLLOW_UP: completes the two-step Sync that waits. -/
def execFollowUp (p : Fin 4) (h : PtpHdr) (t1 : Nat) (s : State) : Host.Outcome State Fault Refusal :=
  s.upd fun d0 =>
    let d := d0.when (d0.ethUp p) fun d => d.ethGood p
    if !(d.fromParent p h) then d
    else match (d.pport p).pend with
      | none => d
      | some (sq, snd, t2, corr) =>
        if sq = h.seq ∧ snd = h.sender then d.takeSync p t1 t2 (corr + h.corr) else d

/-- DELAY_REQ: to a MASTER port, answered with Delay_Resp. -/
def execDelayReq (p : Fin 4) (h : PtpHdr) (pcs : Nat) (s : State) : Host.Outcome State Fault Refusal :=
  s.upd fun d0 =>
    let d := (d0.atTime pcs).when (d0.ethUp p) fun d => d.ethGood p
    d.when (d.ptpTakes p h && d.pstate p == ptpMaster && d.get F.PTP_CFG_PROFILE == 1) fun d =>
      d.ethSend p 0x19 [h.seq, h.sender, (d.ethStamp p pcs true).toNat, ux 64 h.corr]

/-- Sets meanPathDelay from a sum in 2^-16 ns that is twice the delay. -/
def Dev.setDelay (d : Dev) (p : Nat) (twice : Int) : Dev := d.wrN (R.PTP_PORT_DELAY p) (ux 32 (twice / 8192))

/-- DELAY_RESP: with the receive time `t4` in ns, for port identity `req`. -/
def execDelayResp (p : Fin 4) (h : PtpHdr) (req t4 : Nat) (s : State) : Host.Outcome State Fault Refusal :=
  s.upd fun d0 =>
    let d := d0.when (d0.ethUp p) fun d => d.ethGood p
    if !(d.fromParent p h) ∨ d.get F.PTP_CFG_PROFILE ≠ 1 ∨ req ≠ d.portId p then d
    else match (d.pport p).req, (d.pport p).last with
      | some (sq, t3), some (t1, t2) =>
        if sq = h.seq then
          (d.setDelay p ((t2 - t1) + ((t4 : Int) - t3) * 65536 - h.corr)).onPport p fun x => { x with req := none }
        else d
      | _, _ => d

/-- Peer delay is measured (PROFILES 2 and 3). -/
def Dev.peerDelay (d : Dev) : Bool := d.get F.PTP_CFG_PROFILE == 2 || d.get F.PTP_CFG_PROFILE == 3

/-- PDELAY_REQ: answered; the answer leaves at the PCS at `tx`. -/
def execPdelayReq (p : Fin 4) (h : PtpHdr) (pcs tx : Nat) (s : State) : Host.Outcome State Fault Refusal :=
  s.upd fun d0 =>
    let d := (d0.atTime pcs).when (d0.ethUp p) fun d => d.ethGood p
    d.when (d.ptpTakes p h && d.peerDelay) fun d =>
      let t2 := (d.ethStamp p pcs true).toNat
      let t3 := (d.ethStamp p tx false).toNat
      if d.get F.PTP_CFG_ONESTEP = 1 then d.ethSend p 0x13 [h.seq, h.sender, 0, ux 64 (h.corr + ((t3 : Int) - t2) * 65536)]
      else (d.ethSend p 0x13 [h.seq, h.sender, t2, 0]).ethSend p 0x1A [h.seq, h.sender, t3, ux 64 h.corr]

/-- PDELAY_RESP: for port identity `req`, with T2 in ns. -/
def execPdelayResp (p : Fin 4) (h : PtpHdr) (req : Nat) (twoStep : Bool) (t2 : Nat) (pcs : Nat) (s : State) :
    Host.Outcome State Fault Refusal :=
  s.upd fun d0 =>
    let d := (d0.atTime pcs).when (d0.ethUp p) fun d => d.ethGood p
    if !(d.ptpTakes p h) ∨ !d.peerDelay ∨ req ≠ d.portId p then d
    else match (d.pport p).req with
      | none => d
      | some (sq, t1) =>
        let t4 := d.ethStamp p pcs true
        if sq ≠ h.seq then d
        else if twoStep then d.onPport p fun x => { x with resp := some (h.seq, t2, t4, h.corr) }
        else (d.setDelay p ((t4 - t1) * 65536 - h.corr)).onPport p fun x => { x with req := none }

/-- PDELAY_RESP_FOLLOW_UP: completes the measurement with T3 in ns. -/
def execPdelayRespFollowUp (p : Fin 4) (h : PtpHdr) (req t3 : Nat) (s : State) : Host.Outcome State Fault Refusal :=
  s.upd fun d0 =>
    let d := d0.when (d0.ethUp p) fun d => d.ethGood p
    if !(d.ptpTakes p h) ∨ !d.peerDelay ∨ req ≠ d.portId p then d
    else match (d.pport p).req, (d.pport p).resp with
      | some (sq, t1), some (sq2, t2, t4, corr) =>
        if sq = h.seq ∧ sq2 = h.seq then
          (d.setDelay p (((t4 - t1) - ((t3 : Int) - t2)) * 65536 - corr - h.corr)).onPport p fun x =>
            { x with req := none, resp := none }
        else d
      | _, _ => d

/-- MANAGEMENT_MESSAGE: dropped (R430). -/
def execManagementMessage (p : Fin 4) (s : State) : Host.Outcome State Fault Refusal :=
  s.upd fun d => d.when (d.ethUp p) fun d => d.ethGood p

/-- What an Announce of this device says: its parent's grandmaster, or its own clock. -/
def Dev.announceBody (d : Dev) (sq : Nat) : List Nat :=
  let utc := d.get F.PTP_UTC_OFS
  match d.ptp.source, d.ebest with
  | some (1, _, _), some f =>
    [sq, f.ann.p1, f.ann.cls, f.ann.acc, f.ann.var, f.ann.p2, f.ann.gm, f.ann.steps + 1, utc]
  | _, _ => [sq] ++ d.ownKey ++ [0, utc]

/-- PTP_SEND_TIMER: an interval of a port expires: `kind` 0 Sync, 1 Announce, 2 delay request. The
message leaves at the PCS at `tx`. -/
def execPtpSendTimer (p : Fin 4) (kind : Fin 3) (tx : Nat) (s : State) : Host.Outcome State Fault Refusal :=
  s.upd fun d0 =>
    let d1 := d0.atTime tx
    let d := d1.when (d1.ptpOn p && d1.pstate p == ptpPreMaster && decide ((d1.pport p).pre ≤ d1.c)) fun d =>
      d.setPstate p ptpMaster
    let x := d.pport p
    let t := d.ethStamp p tx false
    let master := d.pstate p == ptpMaster
    if !(d.ptpOn p) ∨ !(d.ethUp p) then d
    else if kind = 0 then
      d.when master fun d =>
        let d2 := d.onPport p fun y => { y with seqSync := (y.seqSync + 1) % 2 ^ 16 }
        if d.get F.PTP_CFG_ONESTEP = 1 then d2.ethSend p 0x10 [x.seqSync, t.toNat]
        else (d2.ethSend p 0x10 [x.seqSync, 0]).ethSend p 0x18 [x.seqSync, t.toNat]
    else if kind = 1 then
      d.when master fun d =>
        (d.ethSend p 0x1B (d.announceBody x.seqAnn)).onPport p fun y => { y with seqAnn := (y.seqAnn + 1) % 2 ^ 16 }
    else
      let ty := if d.peerDelay then 0x12 else 0x11
      d.when (d.peerDelay || d.pstate p == ptpSlave) fun d =>
        (d.ethSend p ty [x.seqDelay]).onPport p fun y =>
          { y with seqDelay := (y.seqDelay + 1) % 2 ^ 16, req := some (x.seqDelay, t), resp := none }

/-- The master that a port follows is lost: it has to qualify again. -/
def Dev.loseMaster (d : Dev) (p : Nat) : Dev :=
  let gone := (d.erbest p).map (·.sender)
  (d.onPtp fun t => { t with foreign := t.foreign.filter fun f => !(f.port == p && some f.sender == gone) }).bmca

/-- SYNC_TIMEOUT: no Sync for SYNCTO intervals on a SLAVE port. -/
def execSyncTimeout (p : Fin 4) (s : State) : Host.Outcome State Fault Refusal :=
  s.upd fun d => d.when (d.ptpOn p && d.pstate p == ptpSlave) fun d =>
    (d.atTime ((d.pport p).syncC + d.get F.PTP_INTV_SYNCTO * d.syncNs)).loseMaster p

/-- ANNOUNCE_RECEIPT_TIMEOUT: no Announce on a port for ANNTO intervals; a port that hears no master
becomes one. -/
def execAnnounceReceiptTimeout (p : Fin 4) (s : State) : Host.Outcome State Fault Refusal :=
  s.upd fun d => d.when (d.ptpOn p) fun d =>
    let d1 := d.onPtp fun t => { t with foreign := t.foreign.filter fun f => f.port != p.val }
    (d1.when (d1.pstate p == ptpListening) fun d => d.put (F.PTP_PORT_STAT_PSTATE p) ptpPreMaster).bmca

/-- HOLDOVER_EXPIRY: HOLDOVER has lasted HOLDMAX s. -/
def execHoldoverExpiry (s : State) : Host.Outcome State Fault Refusal :=
  s.upd fun d => d.when (d.tstate == tsHoldover) fun d =>
    (d.atTime (d.ptp.holdC + d.get F.PTP_HOLD_HOLDMAX * 1000000000)).enterTime tsExpired

/-- The fabric gives an offset to the PTP unit (R415, R434). -/
def Dev.fabricOffset (d : Dev) (o : Int) : Dev :=
  let d1 := (d.onPtp fun t => { t with fabric := true }).chooseSource
  d1.when (d1.ptp.source.any fun x => x.1 == 2) fun d => d.takeOffset o

/-- The fabric no longer gives time. -/
def Dev.fabricLost (d : Dev) : Dev :=
  d.when d.ptp.fabric fun d => (d.onPtp fun t => { t with fabric := false }).chooseSource

/-! ### The PTP registers -/

def ptpRngs : List Rng :=
  [⟨F.PTP_CFG_PROFILE, 0, 3⟩, ⟨F.PTP_CFG_SRC, 0, 2⟩, ⟨F.PTP_CFG_TRANSPORT, 0, 2⟩, ⟨F.PTP_CFG_DOMAIN, 0, 127⟩,
   ⟨F.PTP_INTV_ANNTO, 2, 10⟩, ⟨F.PTP_INTV_SYNCTO, 2, 15⟩, ⟨F.PTP_SERVO_KI, 1, 255⟩, ⟨F.PTP_SERVO_MAXRATE, 1, 500⟩,
   ⟨F.PTP_THR_LOCKTHR, 1, 65535⟩, ⟨F.PTP_THR_STEPTHR, 1, 65535⟩, ⟨F.PTP_HOLD_HOLDMAX, 1, 65535⟩]

/-- A signed field of a write lies within limits. -/
def sfield (w : Wr) (lo : Nat) (a b : Int) : Bool := a ≤ sx 8 (bits w.new lo 8) && sx 8 (bits w.new lo 8) ≤ b

/-- A PTP port that is not enabled is rejected at CONFIG_DONE. -/
def Dev.ptpConfigBad (d : Dev) : Bool :=
  (List.range 4).any fun p => d.bit F.PTP_CFG_PORTS p && d.get (F.ETH_PORT_CFG_ENABLE p) == 0

/-- Checks 5 and 6 of a write to PTP. -/
def ptpCheck (d : Dev) (w : Wr) : Nat :=
  let gptp := bits w.new 29 3 == 3
  let lim : Int := 549755814
  firstFail [
    (rngBad ptpRngs w, sBadValue),
    (w.at R.PTP_CFG && gptp && (bitB w.new 25 || bits w.new 8 8 != 0), sBadValue),
    (w.at R.PTP_INTV && !(sfield w 24 (-7) 4 && sfield w 16 (-3) 4 && sfield w 8 (-7) 5), sBadValue),
    (w.at R.PTP_RATE && decide (lim < sx 32 w.new ∨ sx 32 w.new < -lim), sBadValue),
    ((w.at R.PTP_RATE || w.at R.PTP_STEP) && d.get F.PTP_CFG_SERVO == 1, sBadState)]

/-- PTP_SNAP: C and device time are captured together, for the requester that wrote it (R426). -/
def Dev.snap (d : Dev) (req : Nat) : Dev :=
  let e := (req, d.c, (d.timeAt d.c).toNat)
  d.onPtp fun t => { t with snaps := spPut (0, 0) t.snaps e.1 e.2 }

/-- What a requester reads in the capture registers. -/
def ptpView (d : Dev) (req a : Nat) : Option Nat :=
  let x := spGet (0, 0) d.ptp.snaps req
  let sec := x.2 / 1000000000
  if a = R.PTP_SNAPCLO then some (x.1 % 2 ^ 32)
  else if a = R.PTP_SNAPCHI then some (x.1 / 2 ^ 32 % 2 ^ 32)
  else if a = R.PTP_TIMENS then some (x.2 % 1000000000)
  else if a = R.PTP_TIMESLO then some (sec % 2 ^ 32)
  else if a = R.PTP_TIMESHI then some (sec / 2 ^ 32 % 2 ^ 16)
  else none

/-- What a write to PTP does beside storing its fields. -/
def ptpApply (d : Dev) (w : Wr) : Dev :=
  if w.at R.PTP_SNAP then d.when (bitB w.new 0) fun d => d.snap w.req
  else if w.at R.PTP_RATE then (d.wrN R.PTP_RATE w.old).setRate (sx 32 w.new)
  else if w.at R.PTP_STEP then d.stepTime (sx 32 w.new)
  else d

end Sys2Proof.Machine
end

