-- ==== Sys2Proof/Machine/Pgf.lean ====
section
/-! DEFINITION. PGF: links and their retry (R397 to R406), root, addresses and routes (R407 to R411),
what the fabric carries but VJP (R413 to R415), and the PGF registers. -/

namespace Sys2Proof.Machine

/-- This device's unique identifier (R14). -/
def Dev.uid (d : Dev) : Nat := (List.range 4).foldl (fun x n => x + (d.rd (R.SYS_UID n)).toNat * 2 ^ (32 * n)) 0

/-- Port states (PGF_PORTp_STAT). -/
def fpTraining : Nat := 1
def fpBackoff : Nat := 2
def fpUp : Nat := 3
def fpOne : Nat := 4
def fpKeyLost : Nat := 5
def fpLooped : Nat := 6

/-- The state of a port. -/
def Dev.fstate (d : Dev) (p : Nat) : Nat := d.get (F.PGF_PORT_STAT_STATE p)

/-- The ports that are UP. -/
def Dev.fports (d : Dev) : List Nat := (List.range 4).filter d.fportUp

/-- A port of this device runs. -/
def Dev.fportOn (d : Dev) (p : Nat) : Bool :=
  d.configDone && d.get F.PGF_CFG_ENABLE == 1 && d.get (F.PGF_PORT_CFG_ENABLE p) == 1

/-! ### Root election and addresses (R407, R408) -/

/-- This device is the root. -/
def Dev.isRoot (d : Dev) : Bool := d.get F.PGF_STAT_ROOT == 1

/-- This device's rank. -/
def Dev.rank (d : Dev) : Nat × Nat := (d.get F.PGF_CFG_PRIO, d.uid)

/-- `a` ranks before `b`. -/
def rankLt (a b : Nat × Nat) : Bool := a.1 < b.1 || (a.1 == b.1 && a.2 < b.2)

/-- The adverts that count now, with their ports. -/
def Dev.adverts (d : Dev) : List (Nat × RootAdv) :=
  d.fports.filterMap fun p => match (d.fport p).adv with
    | some a => if a.dist < 31 ∧ d.c ≤ a.at' + 35000000 then some (p, a) else none
    | none => none

/-- Sends TOPO, or takes it at the root (R409): each port's state and neighbour. -/
def Dev.topoPorts (d : Dev) : List (Bool × Nat × Nat) :=
  (List.range 4).map fun p =>
    let uid := (List.range 4).foldl (fun x k => x + (d.rd (R.PGF_PORT_NBUID p k)).toNat * 2 ^ (32 * k)) 0
    (d.fportUp p, d.get (F.PGF_PORT_STAT_NBADDR p), uid)

/-- The root takes a device's report into its picture. -/
def Dev.takeTopo (d : Dev) (t : Topo) : Dev :=
  let c := d.c
  let same := d.pgf.topo.contains t
  d.onPgf fun g =>
    { g with topo := if same then g.topo else g.topo.filter (fun x => x.uid != t.uid) ++ [t],
             dirty := g.dirty || !same,
             grants := g.grants.map fun x => if x.uid = t.uid then { x with heard := c } else x }

/-- Sends TOPO while this device holds an address. -/
def Dev.sendTopo (d : Dev) : Dev :=
  if d.get F.PGF_STAT_ADDRVALID = 0 then d
  else
    let ps := d.topoPorts
    if d.isRoot then d.takeTopo { uid := d.uid, addr := d.fabAddr, kind := 0, ports := ps }
    else
      let b (x : Bool × Nat × Nat) : List Byte := leBytes 2 (if x.1 then 1 else 0) ++ leBytes 2 x.2.1 ++ leBytes 16 x.2.2
      d.fabSendUp 0x12 (leBytes 16 d.uid ++ leBytes 2 d.fabAddr ++ leBytes 2 0 ++ (ps.map b).flatten ++ leBytes 4 0)

/-- Sends ROOTADV on a port. -/
def Dev.sendAdv (d : Dev) (p : Nat) : Dev :=
  let r := d.pgf.root.getD d.rank
  let par := if d.pgf.parent = some p then 1 else 0
  d.fabLink p 0x03 (leBytes 16 r.2 ++ leBytes 1 r.1 ++ leBytes 1 (d.get F.PGF_STAT_DIST) ++ leBytes 1 par ++
    leBytes 5 0 ++ leBytes 16 d.uid)

/-- Sends ROOTADV on every UP port. -/
def Dev.sendAdvs (d : Dev) : Dev := d.each d.fports fun d p => d.sendAdv p

/-- Keeps PGF_MEMBERS, on the root only. -/
def Dev.syncMembers (d : Dev) : Dev :=
  let g := d.pgf.grants
  d.wrN R.PGF_MEMBERS (if d.isRoot then g.length + (g.filter fun x => x.kind == 0).length * 2 ^ 16 else 0)

/-- Keeps the TREE fields. -/
def Dev.syncTree (d : Dev) : Dev :=
  d.each (List.range 4) fun d p =>
    let child := d.fportUp p && (d.fport p).adv.any fun a => a.parent
    d.put (F.PGF_PORT_STAT_TREE p) (if d.pgf.parent = some p then 1 else if child then 2 else 0)

/-- The address that this device asks for, 0xFFFF for none. -/
def Dev.wantAddr (d : Dev) : Nat :=
  if d.get F.PGF_CFG_FIXED = 1 then d.get F.PGF_FIXADDR_ADDR
  else if d.get F.PGF_STAT_ADDRVALID = 1 then d.get F.PGF_STAT_ADDR
  else 0xFFFF

/-- The lowest address from `a` up that the root has not granted. -/
def freeAddr (g : List Grant) : Nat → Nat → Option Nat
  | 0, _ => none
  | n + 1, a => if g.any fun x => x.addr == a then freeAddr g n (a + 1) else some a

/-- This device takes an address. -/
def Dev.takeAddr (d : Dev) (a : Nat) : Dev :=
  let changed := d.get F.PGF_STAT_ADDRVALID = 0 || d.get F.PGF_STAT_ADDR != a
  let d1 := ((d.put F.PGF_STAT_ADDR a).put F.PGF_STAT_ADDRVALID 1).onPgf fun t => { t with granted := true }
  (d1.when changed fun d => d.put F.PGF_IRQ_STAT_ADDR 1).sendTopo

/-- Broadcasts an ADDRGRANT. -/
def Dev.sendGrant (d : Dev) (uid addr status : Nat) : Dev :=
  d.fabBroadcast 0x11 (leBytes 16 uid ++ leBytes 2 addr ++ leBytes 1 status ++ leBytes 5 0)

/-- The root's answer to a request (R408): the address and the status. -/
def Dev.answerAddr (d : Dev) (uid want kind : Nat) (fixed : Bool) : Nat × Nat :=
  let g := d.pgf.grants
  match g.find? fun x => x.uid == uid with
  | some x => (x.addr, sOk)
  | none =>
    let pb := (g.filter fun x => x.kind == 0).length
    let taken := g.any fun x => x.addr == want
    if 2048 ≤ g.length ∨ (kind = 0 ∧ 1024 ≤ pb) then (want, sNoRoom)
    else if want < 2048 ∧ !taken then (want, sOk)
    else if fixed then (want, sConflict)
    else match freeAddr g 2048 0 with
      | some a => (a, sOk)
      | none => (want, sNoRoom)

/-- The root grants an address. -/
def Dev.grantAddr (d : Dev) (uid want kind : Nat) (fixed : Bool) : Dev :=
  let r := d.answerAddr uid want kind fixed
  let c := d.c
  let d1 := d.onPgf fun t =>
    if r.2 = sOk then
      { t with grants := t.grants.filter (fun x => x.uid != uid) ++ [{ addr := r.1, uid := uid, kind := kind, heard := c }] }
    else t
  (d1.syncMembers).sendGrant uid r.1 r.2

/-- This device becomes the root: it grants itself an address first, then asks for reports. -/
def Dev.becomeRoot (d : Dev) : Dev :=
  let want := d.wantAddr
  let d0 := d.onPgf fun t => { t with grants := [], topo := [], dirty := true }
  let d1 := d0.grantAddr d.uid want 0 false
  let own := ((d1.pgf.grants.find? fun x => x.uid == d.uid).map (·.addr)).getD 0
  ((d1.takeAddr own).put F.PGF_STAT_ROOTADDR own).fabBroadcast 0x13 (leBytes 8 0)

/-- The best of the ports on which the root came: least DIST, then the lower sender, then the port. -/
def bestParent : List (Nat × RootAdv) → Option (Nat × RootAdv)
  | [] => none
  | x :: r => match bestParent r with
    | none => some x
    | some y =>
      if y.2.dist < x.2.dist ∨ (y.2.dist = x.2.dist ∧ y.2.sender < x.2.sender) then some y else some x

/-- The device chooses its root and its parent (R407), and tells its neighbours of any change. -/
def Dev.chooseRoot (d : Dev) : Dev :=
  if d.get F.PGF_CFG_ENABLE = 0 ∨ !d.configDone then d
  else
    let advs := d.adverts
    let best := advs.foldl (fun b a => if rankLt (a.2.prio, a.2.uid) b then (a.2.prio, a.2.uid) else b) d.rank
    let par := if best = d.rank then none else bestParent (advs.filter fun a => (a.2.prio, a.2.uid) == best)
    let dist := (par.map fun a => a.2.dist + 1).getD 0
    let parent := par.map (·.1)
    let was := d.pgf.root
    let changed := was != some best
    let moved := changed || d.pgf.parent != parent || d.get F.PGF_STAT_DIST != dist
    if !moved then d.syncTree
    else
      let d1 := d.onPgf fun t => { t with root := some best, parent := parent, granted := t.granted && !changed }
      let root := if best = d.rank then 1 else 0
      let d2 := (d1.put F.PGF_STAT_ROOT root).put F.PGF_STAT_DIST dist
      let d3 := d2.each (List.range 4) fun d n => d.wrN (R.PGF_ROOTUID n) (best.2 / 2 ^ (32 * n))
      let d4 := d3.when (changed && was.isSome) fun d => (d.put F.PGF_IRQ_STAT_ROOT 1).report 154
      let d5 := d4.when (d.pgf.parent != parent) Dev.fabricLost
      let d6 := d5.onPgf fun t => if d.pgf.parent = parent then t else { t with offset := none }
      let d7 := (d6.syncTree).sendAdvs
      let d8 := d7.when (changed && root == 1) Dev.becomeRoot
      let d9 := d8.when (changed && root == 0) fun d => d.onPgf fun t => { t with grants := [], topo := [], dirty := false }
      d9.syncMembers

/-! ### Ports coming up and going down (R404 to R406) -/

/-- Takes a port state, with line 0. -/
def Dev.setFstate (d : Dev) (p n : Nat) : Dev :=
  if d.fstate p = n then d else (d.put (F.PGF_PORT_STAT_STATE p) n).put F.PGF_IRQ_STAT_PORT 1

/-- A bring-up attempt begins, with a NONCE of its own. -/
def Dev.fattempt (d : Dev) (p : Nat) : Dev :=
  let r := d.fresh 128
  (r.2.onFport p fun _ => { step := 1, nonce := r.1 }).setFstate p fpTraining

/-- What a port holds is discarded and counted (R404). -/
def Dev.fdiscard (d : Dev) (p : Nat) : Dev :=
  let x := d.fport p
  (d.addSat (F.PGF_PORT_DROP_COUNT p) (x.queue.length + x.replay.length)).onFport p fun _ => {}

/-- A port leaves UP: source 152, and the device chooses again. -/
def Dev.fleave (d : Dev) (p st : Nat) : Dev :=
  let was := d.fportUp p
  let d1 := ((d.fdiscard p).setFstate p st).put (F.PGF_PORT_STAT_TREE p) 0
  d1.when was fun d => ((d.report 152).chooseRoot).sendTopo

/-- An UP port goes DOWN, and a new attempt starts at once. -/
def Dev.fdown (d : Dev) (p : Nat) : Dev := (d.fleave p fpTraining).fattempt p

/-- An attempt is aborted with the reason of R405. -/
def Dev.fabort (d : Dev) (p why : Nat) : Dev :=
  let d1 := ((d.fdiscard p).put (F.PGF_PORT_STAT_LASTFAIL p) why).setFstate p (if why = 6 then fpLooped else fpBackoff)
  d1.when (why == 5) fun d => (d.put F.PGF_IRQ_STAT_AUTH 1).report 153

/-- A port becomes UP: ROOTADV begins. -/
def Dev.fup (d : Dev) (p : Nat) : Dev :=
  let both := (d.fport p).lanes.all id
  let d1 := (d.onFport p fun x => { x with step := 5 }).setFstate p (if both then fpUp else fpOne)
  ((d1.chooseRoot).sendAdv p).sendTopo

/-- TAG of AUTH (R406). -/
def Dev.fabTag (d : Dev) (sender receiver nonceS nonceR : Nat) : List Byte :=
  let key := ((d.sec.keys.find? fun k => k.slot == d.get F.PGF_CFG_KEYSLOT).map (·.key)).getD []
  (hmacSha256 key (ascii "PGFLINK" ++ leBytes 16 sender ++ leBytes 16 receiver ++ leBytes 16 nonceS ++
    leBytes 16 nonceR)).take 16

/-- PGF_PORT_ATTEMPT: an attempt starts 100 ms after an abort. -/
def execPgfPortAttempt (p : Fin 4) (s : State) : Host.Outcome State Fault Refusal :=
  s.upd fun d => d.when (d.fportOn p && (d.fstate p == fpBackoff || d.fstate p == fpLooped)) fun d => d.fattempt p

/-- PGF_PORT_ABORT: a step of an attempt fails: 1 loss of signal, 2 no lock or alignment, 3 no HELLO,
5 AUTH missing. -/
def execPgfPortAbort (p : Fin 4) (why : Fin 6) (s : State) : Host.Outcome State Fault Refusal :=
  s.upd fun d => d.when (d.fstate p == fpTraining && why != 0) fun d => d.fabort p why

/-- PGF_LANE_ALIGN: the lanes of `mask` align: both, in step 2 of an attempt, after which HELLO goes
out; or a lane retrained beside one that is UP. -/
def execPgfLaneAlign (p : Fin 4) (mask : Fin 4) (s : State) : Host.Outcome State Fault Refusal :=
  s.upd fun d =>
    let x := d.fport p
    let ls := (List.range 2).map fun k => nth x.lanes k false || bitB mask k
    if d.fstate p = fpTraining ∧ x.step < 3 ∧ mask = 3 then
      let d1 := d.onFport p fun x => { x with lanes := ls, step := 3, lseq := 0, expect := 0 }
      let flags := d.get F.PGF_CFG_AUTH
      d1.fabLink p 0x01 (leBytes 16 d.uid ++ [1, 0] ++ leBytes 1 p ++ leBytes 1 flags ++ leBytes 2 64 ++
        leBytes 2 256 ++ leBytes 2 704 ++ leBytes 2 0 ++ leBytes 16 x.nonce ++ leBytes 4 0)
    else if d.fstate p = fpOne then
      (d.onFport p fun x => { x with lanes := ls }).setFstate p (if ls.all id then fpUp else fpOne)
    else d

/-- PGF_PORT_DOWN: the lanes of `mask` go DOWN (R290): with the other one left, the port carries on and
resends from its oldest unacknowledged packet (R397); with none left, it goes DOWN. -/
def execPgfPortDown (p : Fin 4) (mask : Fin 4) (s : State) : Host.Outcome State Fault Refusal :=
  s.upd fun d =>
    let x := d.fport p
    let ls := (List.range 2).map fun k => nth x.lanes k false && !(bitB mask k)
    if !(d.fportUp p) then d
    else if ls.any id then
      let all := x.replay.map (·.lseq)
      (d.onFport p fun x => { x with lanes := ls, resend := if ls = x.lanes then x.resend else all }).setFstate p
        (if ls.all id then fpUp else fpOne)
    else d.fdown p

/-- The fabric key is erased: every port closes for good, until a device reset (R406). -/
def Dev.pgfKeyLost (d : Dev) : Dev :=
  if d.get F.PGF_CFG_AUTH = 0 ∨ d.get F.PGF_CFG_ENABLE = 0 then d
  else
    let ps := (List.range 4).filter fun p => d.fportOn p && d.fstate p != fpKeyLost
    let d1 := d.each ps fun d p => d.fleave p fpKeyLost
    d1.when (ps != []) fun d => (d.put F.PGF_IRQ_STAT_AUTH 1).report 158

/-! ### Link retry (R401 to R403) -/

/-- A resend is due from some LSEQ on: the port goes DOWN when one of them has been resent 8 times. -/
def Dev.fresend (d : Dev) (p : Nat) (ls : List Nat) : Dev :=
  let worn := (d.fport p).replay.any fun r => ls.contains r.lseq && 8 ≤ r.again
  if worn then (d.put (F.PGF_PORT_STAT_LASTFAIL p) 7).fdown p
  else d.onFport p fun x => { x with resend := ls }

/-- FCRED: credits come back, and packets before ACK are acknowledged. -/
def execFcred (p : Fin 4) (good : Bool) (cls : Fin 4) (count ack : Fin 4096) (s : State) :
    Host.Outcome State Fault Refusal :=
  s.upd fun d =>
    if !(d.fportUp p) ∧ d.fstate p ≠ fpTraining then d
    else if !good then d.incSat (F.PGF_PORT_ERR_CRCERR p)
    else
      let acked (l : Nat) : Bool :=
        let x := (ack.val + 4096 - l) % 4096
        1 ≤ x && x ≤ 2048
      d.onFport p fun x =>
        { x with cred := if cls = 0 then x.cred else x.cred.modify (cls - 1) (· + count),
                 replay := x.replay.filter fun r => !(acked r.lseq),
                 resend := x.resend.filter fun l => !(acked l) }

/-- FNAK: the sender resends from the LSEQ named. -/
def execFnak (p : Fin 4) (good : Bool) (lseq : Fin 4096) (s : State) : Host.Outcome State Fault Refusal :=
  s.upd fun d =>
    if !(d.fportUp p) ∧ d.fstate p ≠ fpTraining then d
    else if !good then d.incSat (F.PGF_PORT_ERR_CRCERR p)
    else d.fresend p (((d.fport p).replay.map (·.lseq)).filter fun l => (l + 4096 - lseq.val) % 4096 < 2048)

/-- PGF_REPLAY_TIMEOUT: ACK has not advanced for 20 µs. -/
def execPgfReplayTimeout (p : Fin 4) (s : State) : Host.Outcome State Fault Refusal :=
  s.upd fun d =>
    let ls := (d.fport p).replay.map (·.lseq)
    d.when (ls != []) fun d => d.fresend p ls

/-- FCRED_TIMER: while packets have arrived, an FCRED goes out for each class with credits to return,
or one that returns none. -/
def execFcredTimer (p : Fin 4) (s : State) : Host.Outcome State Fault Refusal :=
  s.upd fun d =>
    let x := d.fport p
    let due := (List.range 3).filter fun k => nth x.back k 0 != 0
    d.when x.got fun d =>
      let d1 := d.each (if due = [] then [0] else due) fun d k => d.emit (.pgf p 0x4B [k + 1, nth x.back k 0, x.expect])
      d1.onFport p fun x => { x with got := false, back := [0, 0, 0] }

/-- Fabric time of this device at a counter value (R415): the root's is that of its PTP unit. -/
def Dev.fabTime (d : Dev) (c : Nat) : Int :=
  match d.pgf.offset with
  | some o => if d.isRoot then d.timeAt c else (c : Int) + o
  | none => d.timeAt c

/-- A packet as its first block leaves at `t`: TSYNC and PDRESP take their time then. -/
def Dev.stampPkt (d : Dev) (k : FabPkt) (t : Nat) : FabPkt :=
  let b := ptpBytes (d.fabTime t)
  if k.cls = 0 ∧ k.ptype = 0x04 then { k with payload := b ++ leBytes 6 0 }
  else if k.cls = 0 ∧ k.ptype = 0x07 then { k with payload := k.payload.take 10 ++ b ++ leBytes 4 0 }
  else k

/-- Credits are there for a packet, on a port that is UP or for a link packet. -/
def Dev.canStart (d : Dev) (p : Nat) (k : FabPkt) : Bool :=
  let x := d.fport p
  let held := (x.replay.foldl (fun n r => n + 8 * fabNblk r.pkt) 0) + 8 * fabNblk k
  x.replay.length < 2048 && held ≤ 65536 &&
  (k.cls == 0 || (d.fportUp p && fabCredits k ≤ nth x.cred (k.cls - 1) 0))

/-- The oldest packet of a class, when it may start. -/
def Dev.headOf (d : Dev) (p cls : Nat) : Option FabPkt :=
  match (d.fport p).queue.find? fun k => k.cls == cls with
  | some k => if d.canStart p k then some k else none
  | none => none

/-- The packet that an output takes next: classes 0 and 1 first, then 2 and 3 by weighted round robin;
with the round robin's turn and what is left of it (R402). -/
def Dev.nextPkt (d : Dev) (p : Nat) : Option (FabPkt × Nat × Nat) :=
  let x := d.fport p
  let w (c : Nat) : Nat := d.get (if c = 2 then F.PGF_PORT_CFG_WEIGHT2 p else F.PGF_PORT_CFG_WEIGHT3 p)
  let o := 5 - x.turn
  match d.headOf p 0, d.headOf p 1, d.headOf p x.turn, d.headOf p o with
  | some k, _, _, _ => some (k, x.turn, x.left)
  | none, some k, _, _ => some (k, x.turn, x.left)
  | none, none, some k, none => some (k, x.turn, (if x.left = 0 then w x.turn else x.left) - 1)
  | none, none, some k, some j => if x.left = 0 then some (j, o, w o - 1) else some (k, x.turn, x.left - 1)
  | none, none, none, some j => some (j, o, w o - 1)
  | none, none, none, none => none

/-- Puts a packet on a port's lanes. -/
def Dev.putPkt (d : Dev) (p lseq : Nat) (k : FabPkt) : Dev :=
  d.emit (.pgf p k.ptype ([lseq, fabNblk k, fabHeader k] ++ k.payload.map (·.toNat)))

/-- PGF_PACKET_SEND: the output of a port starts its next packet at `t`: one to be sent again first. -/
def execPgfPacketSend (p : Fin 4) (t : Nat) (s : State) : Host.Outcome State Fault Refusal :=
  s.upd fun d0 =>
    let d := d0.atTime t
    let x := d.fport p
    match x.resend with
    | l :: rest =>
      match x.replay.find? fun r => r.lseq == l with
      | none => d.onFport p fun x => { x with resend := rest }
      | some r =>
        let d1 := d.onFport p fun x =>
          { x with resend := rest, replay := x.replay.map fun y => if y.lseq = l then { y with again := y.again + 1 } else y }
        (d1.incSat (F.PGF_PORT_ERR_RETRY p)).putPkt p l r.pkt
    | [] =>
      match d.nextPkt p with
      | none => d
      | some (k, turn, left) =>
        let k1 := d.stampPkt k t
        let l := x.lseq
        let d1 := d.onFport p fun x =>
          { x with queue := x.queue.erase k, replay := x.replay ++ [{ lseq := l, pkt := k1 }], lseq := (l + 1) % 4096,
                   turn := turn, left := left, t1 := if k.cls = 0 ∧ k.ptype = 0x06 then some t else x.t1,
                   cred := if k.cls = 0 then x.cred else x.cred.modify (k.cls - 1) (· - fabCredits k) }
        d1.putPkt p l k1

/-! ### Receiving (R399, R400, R403, R410, R411) -/

/-- The class and the payload length that a packet type requires: least and greatest. -/
def ptypeInfo (t : Nat) : Option (Nat × Nat × Nat) :=
  match t with
  | 0x01 => some (0, 48, 48) | 0x02 => some (0, 16, 16) | 0x03 => some (0, 40, 40) | 0x04 => some (0, 16, 16)
  | 0x06 => some (0, 8, 8) | 0x07 => some (0, 24, 24)
  | 0x10 => some (1, 24, 24) | 0x11 => some (1, 24, 24) | 0x12 => some (1, 104, 104) | 0x13 => some (1, 8, 8)
  | 0x14 => some (1, 264, 264) | 0x20 => some (1, 32, 32) | 0x21 => some (1, 16, 16)
  | 0x30 => some (2, 48, 8960) | 0x31 => some (3, 48, 8960)
  | _ => none

/-- A packet that link retry will recover is discarded: FNAK at most once per 2 µs for one value. -/
def Dev.frefuse (d : Dev) (p : Nat) : Dev :=
  let x := d.fport p
  let c := d.c
  let again := x.nak.any fun n => n.1 == x.expect && decide (c < n.2 + 2000)
  if again then d
  else (d.emit (.pgf p 0xAA [x.expect])).onFport p fun x => { x with nak := some (x.expect, c) }

/-- A packet of type `ty` arrives on a port (R403): taken in order, then checked against its type,
delivered by `f` and forwarded as its type says. -/
def Dev.pgfRx (d0 : Dev) (p : Nat) (rx : FabRx) (ty : Nat) (f : Dev → Dev) : Dev :=
  let d := d0.atTime rx.t
  let x := d.fport p
  let k : FabPkt := { rx.pkt with ptype := ty }
  let good := rx.crcOk && !rx.ecc
  if !(d.fportUp p) ∧ !(d.fstate p = fpTraining ∧ 3 ≤ x.step) then d
  else
    let d1 := (d.when (!good) fun d => d.incSat (F.PGF_PORT_ERR_CRCERR p)).when rx.ecc fun d =>
      (d.put F.PGF_IRQ_STAT_ECC 1).report 159
    if !good ∨ rx.lseq ≠ x.expect ∨ rx.nblk ≠ fabNblk k ∨ !rx.resv then d1.frefuse p
    else
      let n := fabCredits k
      let d2 := d1.onFport p fun x =>
        { x with expect := (x.expect + 1) % 4096, got := true, nak := none,
                 back := if k.cls = 0 then x.back else x.back.modify (k.cls - 1) (· + n) }
      match ptypeInfo ty with
      | none => d2.incSat F.PGF_DROP_BAD
      | some (cls, lo, hi) =>
        if cls ≠ k.cls ∨ k.len < lo ∨ hi < k.len then d2.incSat F.PGF_DROP_BAD
        else if cls = 0 then f d2
        else if !(d.fportUp p) then d2
        else if ty = 0x10 ∨ ty = 0x12 then
          let d3 := d2.when (ty == 0x12 && fieldLE k.payload 0 16 ==
              (List.range 4).foldl (fun x j => x + (d.rd (R.PGF_PORT_NBUID p j)).toNat * 2 ^ (32 * j)) 0) fun d =>
            d.put (F.PGF_PORT_STAT_NBADDR p) (fieldLE k.payload 16 2)
          if d.isRoot then f d3
          else match d.pgf.parent with
            | some q => d3.fabForward q k
            | none => d3
        else if cls = 1 then
          let outs := (List.range 4).filter fun q => q != p && d.treePort q
          f (d2.each outs fun d q => d.fabForward q k)
        else
          let own := d.get F.PGF_STAT_ADDRVALID == 1 && k.dst == d.fabAddr
          let e := if own then 4 else d.fabRoute k.dst
          if e = 4 then f d2
          else if e < 4 ∧ e ≠ p then d2.fabForward e k
          else d2.fabDrop F.PGF_DROP_NOROUTE

/-- PGF_HELLO: the neighbour's UID, VER, KIND, AUTH, credits and NONCE (R405). -/
def execPgfHello (p : Fin 4) (rx : FabRx) (s : State) : Host.Outcome State Fault Refusal :=
  s.upd fun d => d.pgfRx p rx 0x01 fun d =>
    let b := rx.pkt.payload
    let uid := fieldLE b 0 16
    let kind := fieldLE b 17 1
    let auth := bitB (fieldLE b 19 1) 0
    let own := d.get F.PGF_CFG_AUTH == 1
    if d.fstate p ≠ fpTraining ∨ (d.fport p).step ≠ 3 then d
    else
      let d1 := d.each (List.range 4) fun d n => d.wrN (R.PGF_PORT_NBUID p n) (uid / 2 ^ (32 * n))
      let d2 := d1.put (F.PGF_PORT_STAT_NBKIND p) kind
      if uid = d.uid then d2.fabort p 6
      else if fieldLE b 16 1 ≠ 1 then d2.fabort p 4
      else if auth ≠ own then d2.fabort p 5
      else
        let cr := (List.range 3).map fun j => fieldLE b (20 + 2 * j) 2
        let nonce := fieldLE b 28 16
        let d3 := d2.onFport p fun x => { x with hello := some (uid, kind, auth, nonce), cred := cr }
        if own then (d3.onFport p fun x => { x with step := 4 }).fabLink p 0x02 (d.fabTag d.uid uid (d.fport p).nonce nonce)
        else d3.fup p

/-- PGF_AUTH: the neighbour's tag (R406). -/
def execPgfAuth (p : Fin 4) (rx : FabRx) (s : State) : Host.Outcome State Fault Refusal :=
  s.upd fun d => d.pgfRx p rx 0x02 fun d =>
    match (d.fport p).hello with
    | some (uid, _, _, nonce) =>
      if d.fstate p ≠ fpTraining ∨ (d.fport p).step ≠ 4 then d
      else if rx.pkt.payload.take 16 = d.fabTag uid d.uid nonce (d.fport p).nonce then d.fup p
      else d.fabort p 5
    | none => d

/-- ROOTADV (R407). -/
def execRootadv (p : Fin 4) (rx : FabRx) (s : State) : Host.Outcome State Fault Refusal :=
  s.upd fun d => d.pgfRx p rx 0x03 fun d =>
    let b := rx.pkt.payload
    let a : RootAdv := { prio := fieldLE b 16 1, uid := fieldLE b 0 16, dist := fieldLE b 17 1,
                         parent := bitB (fieldLE b 18 1) 0, sender := fieldLE b 24 16, at' := d.c }
    d.when (d.fportUp p) fun d => (d.onFport p fun x => { x with adv := some a }).chooseRoot

/-- ROOTADV_TIMER: every 10 ms. -/
def execRootadvTimer (s : State) : Host.Outcome State Fault Refusal := s.upd Dev.sendAdvs

/-- ROOTADV_AGE_OUT: the advert of a port has been heard for 35 ms no more. -/
def execRootadvAgeOut (p : Fin 4) (s : State) : Host.Outcome State Fault Refusal :=
  s.upd fun d => match (d.fport p).adv with
    | some a => (d.atTime (a.at' + 35000001)).chooseRoot
    | none => d

/-- ADDRREQ_TIMER: a device with no address from the present root asks for one. -/
def execAddrreqTimer (s : State) : Host.Outcome State Fault Refusal :=
  s.upd fun d => d.when (!d.pgf.granted && !d.isRoot) fun d =>
    d.fabSendUp 0x10 (leBytes 16 d.uid ++ leBytes 2 d.wantAddr ++ leBytes 1 (d.get F.PGF_CFG_FIXED) ++ leBytes 5 0)

/-- ADDRREQ: the root answers. -/
def execAddrreq (p : Fin 4) (rx : FabRx) (s : State) : Host.Outcome State Fault Refusal :=
  s.upd fun d => d.pgfRx p rx 0x10 fun d =>
    let b := rx.pkt.payload
    d.grantAddr (fieldLE b 0 16) (fieldLE b 16 2) (fieldLE b 19 1) (fieldLE b 18 1 == 1)

/-- ADDRGRANT: this device's own, the root's, or a neighbour's. -/
def execAddrgrant (p : Fin 4) (rx : FabRx) (s : State) : Host.Outcome State Fault Refusal :=
  s.upd fun d => d.pgfRx p rx 0x11 fun d =>
    let b := rx.pkt.payload
    let uid := fieldLE b 0 16
    let a := fieldLE b 16 2
    let st := fieldLE b 18 1
    let d1 := d.when (st == sOk && d.pgf.root.any fun r => r.2 == uid) fun d => d.put F.PGF_STAT_ROOTADDR a
    let d2 := d1.each (List.range 4) fun d q =>
      let nb := (List.range 4).foldl (fun x j => x + (d.rd (R.PGF_PORT_NBUID q j)).toNat * 2 ^ (32 * j)) 0
      d.when (st == sOk && nb == uid && d.fportUp q) fun d => d.put (F.PGF_PORT_STAT_NBADDR q) a
    if uid ≠ d.uid then d2
    else if st = sOk then d2.takeAddr a
    else ((d2.put F.PGF_STAT_ADDRVALID 0).put F.PGF_IRQ_STAT_ADDR 1).report 155

/-- ADDRESS_FREE: the root has heard nothing of an address's UID for 1 s. -/
def execAddressFree (addr : Fin 2048) (s : State) : Host.Outcome State Fault Refusal :=
  s.upd fun d =>
    match d.pgf.grants.find? fun g => g.addr == addr.val && g.uid != d.uid with
    | none => d
    | some g =>
      let d1 := (d.atTime (g.heard + 1000000000)).onPgf fun t =>
        { t with grants := t.grants.filter (fun x => x.addr != addr.val), topo := t.topo.filter (fun x => x.uid != g.uid),
                 dirty := t.dirty || t.topo.any fun x => x.uid == g.uid }
      d1.syncMembers

/-! ### Routes (R409, R410) -/

/-- TOPO: the root takes a report. -/
def execTopo (p : Fin 4) (rx : FabRx) (s : State) : Host.Outcome State Fault Refusal :=
  s.upd fun d => d.pgfRx p rx 0x12 fun d =>
    let b := rx.pkt.payload
    let port (j : Nat) : Bool × Nat × Nat :=
      (fieldLE b (20 + 20 * j) 1 == 1, fieldLE b (22 + 20 * j) 2, fieldLE b (24 + 20 * j) 16)
    d.takeTopo { uid := fieldLE b 0 16, addr := fieldLE b 16 2, kind := fieldLE b 18 1, ports := (List.range 4).map port }

/-- TOPOREQ: the device reports. -/
def execToporeq (p : Fin 4) (rx : FabRx) (s : State) : Host.Outcome State Fault Refusal :=
  s.upd fun d => d.pgfRx p rx 0x13 Dev.sendTopo

/-- TOPO_TIMER: every 250 ms. -/
def execTopoTimer (s : State) : Host.Outcome State Fault Refusal := s.upd Dev.sendTopo

/-- The neighbours of a device in the root's picture: output port and device. -/
def neighbours (l : List Topo) (t : Topo) : List (Nat × Topo) :=
  t.ports.zipIdx.filterMap fun x =>
    if x.1.1 then (l.find? fun u => u.uid == x.1.2.2).map fun u => (x.2, u) else none

/-- Distances to `dst` in at most `n` hops, no host adapter in between: (address, hops). -/
def hopsTo (l : List Topo) (dst : Topo) : Nat → List (Nat × Nat)
  | 0 => [(dst.addr, 0)]
  | n + 1 =>
    let m := hopsTo l dst n
    let near (t : Topo) : Bool := (neighbours l t).any fun x =>
      (x.2.uid == dst.uid || x.2.kind == 0) && m.any fun y => y.1 == x.2.addr && y.2 == n
    m ++ (l.filter fun t => !(m.any fun y => y.1 == t.addr) && near t).map fun t => (t.addr, n + 1)

/-- `a` is a better next hop than `b`, as (hops, address, port). -/
def hopLt (a b : Nat × Nat × Nat) : Bool :=
  a.1 < b.1 || (a.1 == b.1 && (a.2.1 < b.2.1 || (a.2.1 == b.2.1 && a.2.2 < b.2.2)))

/-- The entry of `src`'s table for the destination whose distances are `m` (R409). -/
def routeEntry (l : List Topo) (m : List (Nat × Nat)) (src dst : Topo) : Nat :=
  if src.uid = dst.uid then 4
  else
    let c := (neighbours l src).filterMap fun x =>
      if x.2.uid = dst.uid ∨ x.2.kind = 0 then
        (m.find? fun y => y.1 == x.2.addr && y.2 < 31).map fun y => (y.2, x.2.addr, x.1)
      else none
    match c with
    | [] => 7
    | x :: r => (r.foldl (fun b y => if hopLt y b then y else b) x).2.2

/-- A device takes a whole table. -/
def Dev.takeTable (d : Dev) (gen : Nat) (t : List (Nat × Nat)) : Dev :=
  let d1 := d.onPgf fun g => { g with table := t, parts := g.parts.filter fun x => later32 x.1 gen }
  ((d1.put F.PGF_STAT_TABLE 1).wrN R.PGF_GEN gen).put F.PGF_IRQ_STAT_ROUTE 1

/-- ROUTE_COMPUTE: the root computes every table, raises GEN and broadcasts eight ROUTE packets for
each device; GEN goes on from the table in force (R409). -/
def execRouteCompute (s : State) : Host.Outcome State Fault Refusal :=
  s.upd fun d =>
    if !d.isRoot ∨ !d.pgf.dirty then d
    else
      let l := d.pgf.topo
      let dist := l.map fun v => (v, hopsTo l v 31)
      let table (u : Topo) : List (Nat × Nat) :=
        dist.foldl (fun m x => spPut 7 m x.1.addr (routeEntry l x.2 u x.1)) []
      let lost := l.any fun u => dist.any fun x => routeEntry l x.2 u x.1 == 7
      let gen := ((if later32 (d.rd R.PGF_GEN).toNat d.pgf.gen then (d.rd R.PGF_GEN).toNat else d.pgf.gen) + 1) % 2 ^ 32
      let d1 := d.onPgf fun g => { g with dirty := false, gen := gen }
      let send (d : Dev) (u : Topo) : Dev :=
        let m := table u
        if u.uid = d.uid then d.takeTable gen m
        else d.each (List.range 8) fun d k =>
          d.fabBroadcast 0x14 (leBytes 2 u.addr ++ leBytes 2 k ++ leBytes 4 gen ++
            (List.range 256).map fun j => BitVec.ofNat 8 (spGet 7 m (256 * k + j)))
      (d1.each l send).when lost fun d => d.report 156

/-- ROUTE: a part of this device's table (R410). -/
def execRoute (p : Fin 4) (rx : FabRx) (s : State) : Host.Outcome State Fault Refusal :=
  s.upd fun d => d.pgfRx p rx 0x14 fun d =>
    let b := rx.pkt.payload
    let gen := fieldLE b 4 4
    let part := fieldLE b 2 1
    let mine := d.get F.PGF_STAT_ADDRVALID == 1 && fieldLE b 0 2 == d.fabAddr
    let newer := d.get F.PGF_STAT_TABLE == 0 || later32 gen (d.rd R.PGF_GEN).toNat
    if !(mine && newer && part < 8) then d
    else
      let c := d.c
      let since := ((d.pgf.parts.find? fun x => x.1 == gen).map (·.2.2.2)).getD c
      let es := (b.drop 8).map (·.toNat)
      let rest := d.pgf.parts.filter fun x => !(x.1 == gen && x.2.1 == part)
      let all := rest ++ [(gen, part, es, since)]
      let d1 := d.onPgf fun g => { g with parts := all }
      let have' := all.filter fun x => x.1 == gen
      if have'.length < 8 then d1
      else
        let put (m : List (Nat × Nat)) (x : Nat × Nat × List Nat × Nat) : List (Nat × Nat) :=
          x.2.2.1.zipIdx.foldl (fun m e => spPut 7 m (256 * x.2.1 + e.2) e.1) m
        d1.takeTable gen (have'.foldl put [])

/-- ROUTE_PART_DISCARD: the oldest GEN is still incomplete after 50 ms. -/
def execRoutePartDiscard (s : State) : Host.Outcome State Fault Refusal :=
  s.upd fun d => match d.pgf.parts with
    | [] => d
    | x :: r =>
      let oldest := r.foldl (fun m y => min m y.2.2.2) x.2.2.2
      let d1 := d.atTime (oldest + 50000000)
      let c := d1.c
      d1.onPgf fun g => { g with parts := g.parts.filter fun y => decide (c < y.2.2.2 + 50000000) }

/-! ### Refusals and epochs (R119, R413, R414) -/

/-- A refusal reaches ITK (R119): the named item, live and not yet FIRING, becomes NOT_PRINTED; a
refusal of an item not yet known is kept. -/
def Dev.takeRefusal (d0 : Dev) (link id : Nat) : Dev :=
  let d := (d0.put F.ITK_IRQ_STAT_LINKREF 1).report 47
  match d.itk.items.find? fun i => i.id == id && i.link == link with
  | some i =>
    if i.live && i.state < isFiring && d.drivesShared then d.finalise id isNotPrinted 0x08 i.bound
    else d.incSat F.ITK_LINKCNT_COUNT
  | none =>
    let c := d.c
    if d.itk.items.any fun i => i.id == id then d.incSat F.ITK_LINKCNT_COUNT
    else d.onItk fun t => { t with refusals := t.refusals ++ [(link, id, c)] }

/-- A LINK of this device's link groups. -/
def Dev.ownLink (d : Dev) (link : Nat) : Bool :=
  link != 0 && (List.range 8).any fun k => d.get (F.PGF_LGRP_LINKA k) == link || d.get (F.PGF_LGRP_LINKB k) == link

/-- REFUSE: filtered, then handed to ITK once (R413). -/
def execRefuse (p : Fin 4) (rx : FabRx) (s : State) : Host.Outcome State Fault Refusal :=
  s.upd fun d => d.pgfRx p rx 0x20 fun d =>
    let b := rx.pkt.payload
    let link := fieldLE b 0 2
    let e := (rx.pkt.src, fieldLE b 4 4)
    let tag := fieldLE b 16 4
    let known := d.pgf.epochs.find? fun x => x.1 == tag
    if !(d.ownLink link) then d
    else if d.pgf.taken.contains e then d.incSat F.PGF_STALE_DUP
    else if tag ≠ 0 ∧ known.any fun x => later32 x.2 (fieldLE b 20 4) then d.incSat F.PGF_STALE_EPOCH
    else
      let d1 := d.onPgf fun g => { g with taken := (g.taken ++ [e]).drop (g.taken.length + 1 - 1024) }
      (d1.incWrap F.PGF_REFCNT_TAKEN).takeRefusal link (fieldLE b 8 8)

/-- REFUSE_REPEAT: the REFUSE with a REFID is sent again, 1 ms and 2 ms after the first. -/
def execRefuseRepeat (refid : Nat) (s : State) : Host.Outcome State Fault Refusal :=
  s.upd fun d =>
    match d.pgf.refRepeat.find? fun r => r.2.2.2.1 == refid with
    | none => d
    | some (link, id, reason, r, left) =>
      let rest := d.pgf.refRepeat.filter fun x => x.2.2.2.1 != refid
      let d1 := d.onPgf fun g => { g with refRepeat := if left ≤ 1 then rest else rest ++ [(link, id, reason, r, left - 1)] }
      d1.fabRefuse link id reason r

/-- EPOCH: the latest epoch of up to 64 PAIRTAGs is kept, and a later one of the own pair fences
(R414). -/
def execEpoch (p : Fin 4) (rx : FabRx) (s : State) : Host.Outcome State Fault Refusal :=
  s.upd fun d => d.pgfRx p rx 0x21 fun d =>
    let b := rx.pkt.payload
    let tag := fieldLE b 0 4
    let e := fieldLE b 4 4
    let old := ((d.pgf.epochs.find? fun x => x.1 == tag).map (·.2))
    let e1 := match old with | some o => if later32 e o then e else o | none => e
    let d1 := d.onPgf fun g =>
      let l := g.epochs.filter (fun x => x.1 != tag) ++ [(tag, e1)]
      { g with epochs := l.drop (l.length - 64) }
    let own := d.get F.TWN_CFG_PAIR == 1 && tag == (d.rd R.TWN_PAIRTAG).toNat
    d1.when (own && later32 e (d.rd R.TWN_EPOCH).toNat) fun d => (d.put F.PGF_IRQ_STAT_EPOCH 1).learnEpoch 32 e

/-- EPOCH_BROADCAST_TIMER: every 100 ms. -/
def execEpochBroadcastTimer (s : State) : Host.Outcome State Fault Refusal := s.upd Dev.fabEpoch

/-! ### Fabric time (R415) -/

/-- TSYNC: from the parent, sets fabric time, and may give the PTP unit an offset. -/
def execTsync (p : Fin 4) (rx : FabRx) (s : State) : Host.Outcome State Fault Refusal :=
  s.upd fun d => d.pgfRx p rx 0x04 fun d =>
    if d.pgf.parent ≠ some p.val then d
    else
      let b := rx.pkt.payload
      let t : Int := fieldLE b 0 6 * 1000000000 + fieldLE b 6 4 + (d.fport p).delay
      let off := t - rx.t
      let d1 := d.onPgf fun g => { g with offset := some off }
      d1.when (d.get F.PGF_CFG_TIMESRC == 1) fun d => d.fabricOffset (d.timeAt rx.t - t)

/-- TSYNC_TIMER: every 1 ms a TSYNC goes to each child, from a device that has fabric time. -/
def execTsyncTimer (s : State) : Host.Outcome State Fault Refusal :=
  s.upd fun d => d.when (d.isRoot || d.pgf.offset.isSome) fun d =>
    d.each (d.fports.filter fun p => d.get (F.PGF_PORT_STAT_TREE p) == 2) fun d p => d.fabLink p 0x04 (leBytes 16 0)

/-- PDREQ: answered with T2; T3 is put in as the answer leaves. -/
def execPdreq (p : Fin 4) (rx : FabRx) (s : State) : Host.Outcome State Fault Refusal :=
  s.upd fun d => d.pgfRx p rx 0x06 fun d => d.fabLink p 0x07 (ptpBytes (d.fabTime rx.t) ++ leBytes 14 0)

/-- PDRESP: the mean delay of the port. -/
def execPdresp (p : Fin 4) (rx : FabRx) (s : State) : Host.Outcome State Fault Refusal :=
  s.upd fun d => d.pgfRx p rx 0x07 fun d =>
    match (d.fport p).t1 with
    | none => d
    | some t1 =>
      let b := rx.pkt.payload
      let t (o : Nat) : Int := fieldLE b o 6 * 1000000000 + fieldLE b (o + 6) 4
      let m := (((rx.t : Int) - t1) - (t 10 - t 0)) / 2
      d.onFport p fun x => { x with delay := m.toNat, t1 := none }

/-- PDREQ_TIMER: every 100 ms each UP port measures its delay. -/
def execPdreqTimer (s : State) : Host.Outcome State Fault Refusal :=
  s.upd fun d => d.each d.fports fun d p => d.fabLink p 0x06 (leBytes 8 0)

/-! ### Start and registers -/

/-- A port's settings, or the fabric key slot, are rejected at CONFIG_DONE (R396, R406). -/
def Dev.pgfConfigBad (d : Dev) : Bool :=
  ((List.range 4).any fun p => d.get (F.PGF_PORT_CFG_ENABLE p) == 1 && [24 + 2 * p, 25 + 2 * p].any fun l =>
    !(d.claimed 3 l) || d.get (F.SRD_LANE_CFG_RATE l) != 6) ||
  (d.get F.PGF_CFG_AUTH == 1 && !(d.sec.keys.any fun k =>
    k.slot == d.get F.PGF_CFG_KEYSLOT && k.kind == 5 && bitB k.use 2))

/-- PGF starts at CONFIG_DONE (R416): REFID begins at a random value (R413). -/
def Dev.pgfStart (d : Dev) : Dev :=
  let r := d.fresh 32
  let d1 := r.2.onPgf fun t => { t with refId := r.1 }
  let d2 := d1.each ((List.range 4).filter d1.fportOn) fun d p => d.fattempt p
  d2.chooseRoot

/-- Checks 5 and 6 of a write to PGF. -/
def pgfCheck (d : Dev) (w : Wr) : Nat :=
  let ps := (List.range 4).filter fun p => bitB w.new p
  firstFail [
    (rngBad [⟨F.PGF_PORT_CFG_WEIGHT3 0, 1, 255⟩, ⟨F.PGF_PORT_CFG_WEIGHT2 0, 1, 255⟩] w, sBadValue),
    (w.at R.PGF_CTL && ps.any fun p => !(d.fportOn p) || d.fstate p == fpKeyLost, sBadState)]

/-- What a write to PGF does beside storing its fields. -/
def pgfApply (d : Dev) (w : Wr) : Dev :=
  if w.at R.PGF_CTL then
    d.each ((List.range 4).filter fun p => bitB w.new p) fun d p => d.fdown p
  else if w.at R.PGF_STATCLR then
    let d1 := d.each ((List.range 4).filter fun p => bitB w.new (3 + p)) fun d p =>
      (d.wrN (R.PGF_PORT_ERR p) 0).wrN (R.PGF_PORT_DROP p) 0
    let d2 := d1.when (bitB w.new 2) fun d => d.wrN R.PGF_REFCNT 0
    let d3 := d2.when (bitB w.new 1) fun d => d.wrN R.PGF_STALE 0
    d3.when (bitB w.new 0) fun d => d.wrN R.PGF_DROP 0
  else d

/-- Registers of PGF that are worked out as they are read. -/
def pgfView (d : Dev) (base : Nat) (_ : List Nat) : Option Nat :=
  if base = R.PGF_ROUTE then
    some (if d.get F.PGF_STAT_TABLE = 0 then 0 else d.fabRoute (d.get F.PGF_ROUTESEL_ADDR))
  else none

end Sys2Proof.Machine
end

