-- ==== Sys2Proof/Machine/Sec.lean ====
section
/-! DEFINITION. Trust (R80, R84, R89 to R95): the alarms, the erasure of keys, the fuses, the MAC unit's
requests, JTAG but for its register accesses, and the SEC registers. -/

namespace Sys2Proof.Machine

/-! ### Sessions that end (R102) -/

/-- A session ends: nothing of it is sent again, and its slot is closed. -/
def Dev.endSession (d : Dev) (n : Nat) : Dev :=
  let d0 := d.onItk fun t => { t with items := t.items.map fun i => if i.finalOn = some n then { i with finalOn := none } else i }
  (((d0.updSess n fun _ => {}).put (F.ITK_SESS_STAT_STATE n) 0).put (F.ITK_SESS_STAT_UNACKED n) 0 |>.put (F.ITK_SESS_SID_SID n) 0).put
    F.ITK_IRQ_STAT_SESSION 1

/-! ### Keys and erasure (R82, R90, R91) -/

/-- KEYS of SEC_STATUS follows the key store. -/
def Dev.syncKeys (d : Dev) : Dev := d.put F.SEC_STATUS_KEYS (min 255 d.sec.keys.length)

/-- The level of the erase marker in MRAM: a level word whose halves disagree reads as level 2 (R91). -/
def Dev.markerLevel (d : Dev) : Nat :=
  let w := d.mrd dwEraseLevel
  match compVal w with
  | some v => v % 256
  | none => if w = 0 then 0 else 2

/-- Writes the erase marker: the SEQ word first, the level word second; a higher level stands. -/
def Dev.writeMarker (d : Dev) (level : Nat) : Dev :=
  let l := max level d.markerLevel
  let d1 := (d.mwr dwEraseSeq (withComp d.cfg.seq)).1
  (d1.mwr dwEraseLevel (withComp l)).1.put F.SEC_STATUS_ERASED 1

/-- Erase of a level (R90): the slots it covers are cleared, sessions and fabric links that need one of them
close (R92), and the marker is written. -/
def Dev.erase (d : Dev) (level : Nat) : Dev :=
  let gone (k : Key) : Bool := level == 2 || k.use % 2 == 1
  let lost := (d.sec.keys.filter gone).map (·.slot)
  let d1 := (d.onSec fun t => { t with keys := t.keys.filter fun k => !(gone k) }).syncKeys
  let d2 := d1.each (List.range 8) fun d n =>
    d.when (d.sessState n == 1 && (level == 2 || lost.contains (d.get (F.ITK_SESS_CFG_KEYSLOT n)))) fun d => d.endSession n
  let d3 := d2.when (level == 2 || lost.contains (d2.get F.PGF_CFG_KEYSLOT)) Dev.pgfKeyLost
  (d3.writeMarker level).put F.SEC_IRQ_STAT_ERASED 1

/-! ### Fuses (R79, R80) -/

/-- ROOT_KILL is blown, its three copies in order. -/
def Dev.blowRootKill (d : Dev) : Dev :=
  (d.onSec fun t => { t with fuses := { t.fuses with rootKill := [true, true, true] } }).put F.SEC_STATUS_ROOT_KILL 1

/-- DEBUG_KILL is blown: an unlock that is open ends at once (R95). -/
def Dev.blowDebugKill (d : Dev) : Dev :=
  let d1 := d.onSec fun t => { t with fuses := { t.fuses with debugKill := [true, true, true] }, rights := 0 }
  (d1.put F.SEC_STATUS_DEBUG_KILL 1).put F.SEC_STATUS_UNLOCKED 0

/-! ### Alarms (R89, R90) -/

/-- An enabled alarm `n` fires (source 16 + n): its erase and its ROOT_KILL follow. -/
def Dev.alarm (d : Dev) (n : Nat) : Dev :=
  if d.get (F.SEC_ALARM_CFG_ENABLE n) = 0 then d
  else
    let d1 := ((d.setBit F.SEC_ALARM_STAT_SRC n).put F.SEC_IRQ_STAT_ALARM 1).report (16 + n)
    let lv := d1.get (F.SEC_ALARM_CFG_ERASE n)
    let d2 := d1.when (lv != 0) fun d => d.erase lv
    d2.when (d2.get (F.SEC_ALARM_CFG_ROOTKILL n) == 1) Dev.blowRootKill

/-- SEC_STATUS.ALARM: an enabled alarm input is active now. -/
def Dev.syncAlarm (d : Dev) : Dev :=
  d.put F.SEC_STATUS_ALARM (if d.sec.active.any fun n => d.get (F.SEC_ALARM_CFG_ENABLE n) == 1 then 1 else 0)

/-- An alarm input becomes active. -/
def Dev.alarmOn (d : Dev) (n : Nat) : Dev :=
  ((d.onSec fun t => { t with active := if t.active.contains n then t.active else n :: t.active }).alarm n).syncAlarm

/-- TAMPER_ALARM: TAMP0 or TAMP1 has stayed at its active level longer than FILTER. -/
def execTamperAlarm (input : Fin 2) (s : State) : Host.Outcome State Fault Refusal :=
  s.upd fun d => d.alarmOn input

/-- MESH_SAMPLE: MESH_IN is sampled; the second mismatch in a row fires SEC_MESH. -/
def execMeshSample (ok : Bool) (s : State) : Host.Outcome State Fault Refusal :=
  s.upd fun d =>
    let second := !ok && d.sec.meshBad
    let d1 := d.onSec fun t => { t with meshBad := !ok }
    d1.when second fun d => d.alarmOn 2

/-- VOLTAGE_GLITCH: a core rail outside ±12 % for 5 ns or longer. -/
def execVoltageGlitch (s : State) : Host.Outcome State Fault Refusal := s.upd fun d => d.alarm 3

/-- CLOCK_GLITCH: a phase shorter than 40 % of nominal. -/
def execClockGlitch (s : State) : Host.Outcome State Fault Refusal := s.upd fun d => d.alarm 4

/-- SEC_TEMP_ALARM: the die below −60 °C or above +135 °C. -/
def execSecTempAlarm (s : State) : Host.Outcome State Fault Refusal := s.upd fun d => d.alarmOn 5

/-- ALARM_INPUT_INACTIVE: an alarm input is no longer active. -/
def execAlarmInputInactive (n : Fin 8) (s : State) : Host.Outcome State Fault Refusal :=
  s.upd fun d => (d.onSec fun t => { t with active := t.active.filter (· != n.val) }).syncAlarm

/-- MAC_OPERATION (R84): a requester, by its USE bit, sends a message for a slot: tag, ABSENT or DENIED. -/
def execMacOperation (use : Fin 3) (slot : Fin 256) (msg : List Byte) (s : State) : Host.Outcome State Fault Refusal :=
  s.upd fun d =>
    let a := d.macAnswer use slot msg
    d.emit (.mac use a.1 a.2)

/-! ### JTAG (R93 to R95) -/

/-- DEBUG_KILL is blown. -/
def Dev.debugKilled (d : Dev) : Bool := d.sec.fuses.debugKill.any id

/-- The instruction acts as BYPASS: one bit delayed. -/
def Dev.jtagBypass (d : Dev) : Dev := (d.onSys fun t => { t with jtagInstr := 0xFF }).emit (.jtag 0xFF [0])

/-- A boundary instruction: it takes effect in SAF_BOOT, CONFIG_FAIL or SAFE; in another state the device is
first taken to SAFE, which only a device reset then leaves (R94). -/
def Dev.boundary (d : Dev) (code : Nat) : Dev :=
  let d1 := if d.st? = stBoot ∨ d.st? = stConfigFail then d
    else (d.enterSafe 4 0).onSys fun t => { t with safeJtag := true }
  (d1.onSys fun t => { t with jtagInstr := code }).emit (.jtag code d1.sec.boundary)

/-- EXTEST: the boundary register, as shifted in, drives the pins. -/
def execExtest (cells : List Nat) (s : State) : Host.Outcome State Fault Refusal :=
  s.upd fun d => (d.onSec fun t => { t with boundary := cells }).boundary 0x00

/-- SAMPLE_PRELOAD: the pins' levels are shifted out and the boundary register is preloaded. -/
def execSamplePreload (cells : List Nat) (s : State) : Host.Outcome State Fault Refusal :=
  s.upd fun d =>
    let d1 := d.onSec fun t => { t with boundary := cells }
    (d1.onSys fun t => { t with jtagInstr := 0x01 }).emit (.jtag 0x01 [(d.rd R.PIN_GPIO_IN).toNat, (d.rd R.PIN_FIXIN).toNat])

/-- CLAMP: the pins hold the boundary register's values, with BYPASS between TDI and TDO. -/
def execClamp (s : State) : Host.Outcome State Fault Refusal := s.upd fun d => d.boundary 0x02

/-- HIGHZ: every output is at high impedance. -/
def execHighz (s : State) : Host.Outcome State Fault Refusal := s.upd fun d => d.boundary 0x03

/-- DEVID: SYS_ID is shifted out. -/
def execDevid (s : State) : Host.Outcome State Fault Refusal :=
  s.upd fun d => (d.onSys fun t => { t with jtagInstr := 0x10 }).emit (.jtag 0x10 [(d.rd 0x02000000).toNat])

/-- UNLOCK is BYPASS after DEBUG_KILL and after the third failure. -/
def Dev.unlockShut (d : Dev) : Bool := d.debugKilled || decide (3 ≤ d.sec.unlockFails)

/-- UNLOCK: Capture-DR draws a nonce from the TRNG, and it is shifted out. -/
def execUnlock (s : State) : Host.Outcome State Fault Refusal :=
  s.upd fun d =>
    if d.unlockShut then d.jtagBypass
    else
      let r := d.fresh 128
      let d1 := r.2.onSec fun t => { t with nonce := r.1 }
      (d1.onSys fun t => { t with jtagInstr := 0x20 }).emit (.jtag 0x20 [r.1])

/-- KEYHASHn as bytes. -/
def Dev.keyHash (d : Dev) (n : Nat) : List Byte := beBytes 48 (nth d.sec.fuses.keyHash n 0)

/-- A KEYSLOT or SLOT may sign (R79): it exists, is not revoked, its KEYHASH is not 0 and is that of the
public key. -/
def Dev.slotSigns (d : Dev) (slot : Nat) (pub : List Byte) : Bool :=
  decide (slot < 4) && !(nth d.sec.fuses.slotRevoke slot true) && nth d.sec.fuses.keyHash slot 0 != 0 &&
  sha384 pub == d.keyHash slot

/-- UNLOCK_TOKEN: RIGHTS, SLOT and a signature over SHA-384 of UID, nonce and RIGHTS (R95). `pub` is the
public key that KEYHASH[SLOT] stands for. -/
def execUnlockToken (rights slot : Nat) (pub sig : List Byte) (s : State) : Host.Outcome State Fault Refusal :=
  s.upd fun d =>
    if d.unlockShut then d.jtagBypass
    else
      let msg := leBytes 16 d.sec.fuses.uid ++ leBytes 16 d.sec.nonce ++ leBytes 4 rights
      let good := d.slotSigns slot pub && ecdsaVerify pub (sha384 msg) sig
      let d1 := d.put F.SEC_IRQ_STAT_UNLOCK 1
      if good then (d1.onSec fun t => { t with rights := rights % 4 }).put F.SEC_STATUS_UNLOCKED 1
      else
        let n := d.sec.unlockFails + 1
        (d1.onSec fun t => { t with unlockFails := n }).when (n == 3) fun d => d.alarm 7

/-- DBG_APP: after an unlock with APP the words shifted in reach the application cluster's debug module, which
lies outside the block; else BYPASS. -/
def execDbgApp (words : List Nat) (s : State) : Host.Outcome State Fault Refusal :=
  s.upd fun d =>
    if d.debugKilled ∨ !(bitB d.sec.rights 0) then d.jtagBypass
    else (d.onSys fun t => { t with jtagInstr := 0x21 }).emit (.jtag 0x21 words)

/-- BYPASS, and every code that is not in the table. -/
def execBypass (s : State) : Host.Outcome State Fault Refusal := s.upd Dev.jtagBypass

/-! ### Registers -/

/-- What a write to SEC must meet beside R501. -/
def secCheck (_ : Dev) (w : Wr) : Nat :=
  let f := w.val (F.SEC_ALARM_CFG_FILTER 0)
  firstFail [
    (w.at (R.SEC_ALARM_CFG 0) && w.i < 2 && w.opens (F.SEC_ALARM_CFG_FILTER 0) && !(1 ≤ f && f ≤ 1000), sBadValue),
    (w.at R.SEC_MBX_ALLOW && bitB w.new 4, sBadValue)]

/-- What a write to SEC does beside storing its fields. -/
def secApply (d : Dev) (w : Wr) : Dev :=
  if w.at R.SEC_ERASE then d.erase (w.val F.SEC_ERASE_LEVEL)
  else d.when (w.at (R.SEC_ALARM_CFG 0)) Dev.syncAlarm

/-- SEC_KEYMAPa and SEC_DEVPUBn (R81, R82). -/
def secView (d : Dev) (base : Nat) (ix : List Nat) : Option Nat :=
  let i := ix.headD 0
  if base = R.SEC_KEYMAP 0 then
    some ((d.sec.keys.filter fun k => k.slot / 32 == i).foldl (fun x k => x ||| 2 ^ (k.slot % 32)) 0)
  else if base = R.SEC_DEVPUB 0 then
    some (if d.get F.SEC_STATUS_ROOT_KILL = 1 then 0
      else beNat ((devPub d.sec.fuses.rootKey d.sec.fuses.uid).drop (4 * i) |>.take 4))
  else none

end Sys2Proof.Machine
end

