-- ==== Sys2Proof/Machine/Image.lean ====
section
/-! DEFINITION. The configuration image (R53 to R59): its header, directory and signature, the checks of a slot,
and the records whose bodies are no register list: claims (R65), tables, firmware (R62, R77) and keys (R83). -/

namespace Sys2Proof.Machine

/-! ### Reading a slot -/

/-- Flash address of a slot's first byte (R53): slot B on the second chip select where a device answers. -/
def Dev.slotBase (d : Dev) (s : Nat) : Nat := if s = 0 then 0 else if d.flashCs1 then 2 ^ 32 else 0x04000000

/-- Bytes of a slot. -/
def Dev.slotBs (d : Dev) (s o n : Nat) : List Byte := d.flBs (d.slotBase s + o) n

/-- A little-endian field of a slot's header. -/
def Dev.hdr (d : Dev) (s o n : Nat) : Nat := leNat (d.slotBs s o n)

/-- An entry of the directory (R56). -/
structure DirEnt where
  type : Nat
  flags : Nat
  offset : Nat
  length : Nat
  feature : Nat
  zero : Nat
  digest : List Byte
  deriving DecidableEq, Repr

/-- Directory entry `k` of a slot. -/
def Dev.dirEnt (d : Dev) (s k : Nat) : DirEnt :=
  let b := d.slotBs s (0x100 + 64 * k) 64
  { type := fieldLE b 0 2, flags := fieldLE b 2 2, offset := fieldLE b 4 4, length := fieldLE b 8 4,
    feature := fieldLE b 12 2, zero := fieldLE b 14 2, digest := b.drop 16 }

/-- DIRCOUNT of a slot. -/
def Dev.dirCount (d : Dev) (s : Nat) : Nat := d.hdr s 0x14 2

/-- The directory of a slot. -/
def Dev.directory (d : Dev) (s : Nat) : List DirEnt := (List.range (d.dirCount s)).map (d.dirEnt s)

/-- The body of a record. -/
def Dev.body (d : Dev) (s : Nat) (e : DirEnt) : List Byte := d.slotBs s e.offset e.length

/-! ### Checks of a slot (R55, R57, R58, R59) -/

/-- The status of a slot's header (R55), in the order of its table. -/
def Dev.hdrStatus (d : Dev) (s : Nat) : Nat :=
  let h := d.hdr s
  let z (o n : Nat) : Bool := h o n != 0
  firstFail [
    (h 0 4 != 0x494E4C56, sAbsent), (h 4 2 != 1, sUnsupported), (h 6 2 != 256, sBadValue), (3 < h 8 4, sBadValue),
    (decide (h 0x0C 4 < d.get F.CFG_FLOOR_VALUE), sSequence), (decide (h 0x0C 4 < h 0x10 4), sBadValue),
    (!(2 ≤ h 0x14 2 && h 0x14 2 ≤ 1024), sBadValue), (z 0x16 2, sBadValue), (0x4000000 < h 0x18 4, sBadValue),
    (h 0x1C 1 != 0xB8, sUnsupported), (0x0B < h 0x1D 1, sUnsupported), (z 0x1E 2, sBadValue),
    (bitB (h 8 4) 1 && h 0x20 16 != d.sec.fuses.uid, sDenied), (z 0x36 2, sBadValue), (z 0x39 7, sBadValue),
    (z 0xA6 2, sBadValue), (z 0xAC 84, sBadValue)]

/-- Record types of R59. -/
def typeKnown (t : Nat) : Bool :=
  (0x1000 ≤ t && t ≤ 0x101C && t != 0x1006) || (0x2000 ≤ t && t ≤ 0x2006) || (0x3000 ≤ t && t ≤ 0x3002) ||
  (0x4000 ≤ t && t ≤ 0x40FF) || t == 0x5000 || t == 0x5001

/-- A directory entry's own fields, and its body's place (R56, R58). -/
def Dev.entOk (d : Dev) (s : Nat) (e : DirEnt) : Bool :=
  e.flags < 4 && e.offset % 64 == 0 && 4 ≤ e.length && e.length ≤ 0x2000000 && e.zero == 0 &&
  0x100 + 64 * d.dirCount s + 96 ≤ e.offset && e.offset + e.length ≤ d.hdr s 0x18 4

/-- No two bodies overlap. -/
def bodiesApart : List DirEnt → Bool
  | [] => true
  | e :: r => r.all (fun x => !(rangesMeet e.offset e.length x.offset x.length)) && bodiesApart r

/-- The directory of a slot meets R56, R58 and R59. -/
def Dev.dirOk (d : Dev) (s : Nat) : Bool :=
  let l := d.directory s
  l.all (d.entOk s) && bodiesApart l && (l.map (·.type)).take 2 == [0x5001, 0x5000]

/-- The signature of a slot holds (R57), under a key that R79 lets sign. -/
def Dev.sigOk (d : Dev) (s : Nat) : Bool :=
  let pub := d.slotBs s 0x40 96
  let n := 0x100 + 64 * d.dirCount s
  d.slotSigns (d.hdr s 0x38 1) pub && ecdsaVerify pub (sha384 (d.slotBs s 0 n)) (d.slotBs s n 96)

/-- A record's body has its digest. -/
def Dev.digestOk (d : Dev) (s : Nat) (e : DirEnt) : Bool := sha384 (d.body s e) == e.digest

/-- The IMAGE_CHECK of a candidate slot (R69): its status, whether the failure was in header, directory or
signature, and the index of the failing record. -/
def Dev.imageCheck (d : Dev) (s : Nat) : Nat × Bool × Nat :=
  if d.hdrStatus s ≠ sOk then (d.hdrStatus s, true, 0)
  else if !(d.sigOk s) then (sAuthFail, true, 0)
  else if !(d.dirOk s) then (sBadValue, true, 0)
  else match (d.directory s).zipIdx.find? fun x => !(d.digestOk s x.1) with
    | some x => (sIntegrity, false, x.2)
    | none => (sOk, false, 0)

/-- A record that fails the start whatever the image says (R59, R67). -/
def DirEnt.required (e : DirEnt) : Bool :=
  bitB e.flags 0 || e.type == 0x5001 || e.type == 0x5000 || e.type == 0x3000 || e.feature == 0

/-! ### Claims (R65) -/

/-- Indices of a resource class. -/
def classSize (c : Nat) : Nat := nth [0, 64, 16, 42, 64, 96, 16, 4, 4] c 0

/-- Two claims overlap. -/
def claimsMeet (a b : Claim) : Bool := a.cls == b.cls && rangesMeet a.first a.num b.first b.num

/-- The claim of an entry of a claims body, if it is legal. -/
def claimOf (b : List Byte) (k : Nat) : Option Claim :=
  let o := 4 + 8 * k
  let c := fieldLE b o 1
  let first := fieldLE b (o + 4) 2
  let num := fieldLE b (o + 6) 2
  if fieldLE b (o + 1) 1 = 0 ∧ 1 ≤ c ∧ c ≤ 8 ∧ 1 ≤ num ∧ first + num ≤ classSize c then
    some { cls := c, feature := fieldLE b (o + 2) 2, first := first, num := num, image := true }
  else none

/-- Pads 32 to 63 belong to FEATURE 0 (R499). -/
def fixedPads : Claim := { cls := 1, feature := 0, first := 32, num := 32, image := true }

/-- The log of R68 takes an event; source 9 is raised once at READY. -/
def Dev.logEvent (d : Dev) (cls code feature : Nat) : Dev :=
  let n := d.get F.CFG_LOGCNT_COUNT
  let d1 := d.when (n < 64) fun d => d.wrN (R.CFG_LOG n) (cls * 2 ^ 24 + code * 2 ^ 16 + feature)
  (d1.incSat F.CFG_LOGCNT_COUNT).onCfg fun t => { t with logged := true }

/-- A feature is disabled (R67); one disabled by a conflict loses its claims. -/
def Dev.disable (d : Dev) (f : Nat) (conflict : Bool) : Dev :=
  d.onCfg fun t => { t with disabled := f :: t.disabled, claims := if conflict then t.claims.filter (fun c => c.feature != f) else t.claims }

/-- The claims of an image in entry order (R66, R67): the status that fails the start, or the device. `lost` are the claims
that conflicts have taken back, whose resources go to no other claim. -/
def Dev.takeClaims (d : Dev) (lenient : Bool) : List (Option Claim) → List Claim → Nat × Dev
  | [], _ => (sOk, d)
  | none :: _, _ => (sBadValue, d)
  | some c :: r, lost =>
    if d.cfg.disabled.contains c.feature then d.takeClaims lenient r lost
    else
      let held := d.cfg.claims ++ lost
      if held.any fun x => claimsMeet x c && x.feature != c.feature then
        if !lenient ∨ c.feature = 0 then (sConflict, d)
        else
          let back := d.cfg.claims.filter fun x => x.feature == c.feature
          ((d.disable c.feature true).logEvent c.cls sConflict c.feature).takeClaims lenient r (lost ++ back)
      else (d.onCfg fun t => { t with claims := t.claims ++ [c] }).takeClaims lenient r lost

/-- The claims record. -/
def Dev.claimsRecord (d : Dev) (lenient : Bool) (b : List Byte) : Nat × Dev :=
  let n := fieldLE b 0 4
  if b.length ≠ 4 + 8 * n then (sBadValue, d)
  else (d.onCfg fun t => { t with claims := [fixedPads] }).takeClaims lenient ((List.range n).map (claimOf b)) []

/-! ### Tables -/

/-- Copies bytes into consecutive registers. -/
def Dev.wordsTo (d : Dev) (a : Nat) (b : List Byte) : Dev :=
  d.each (List.range (b.length / 4)) fun d k => d.wrN (a + 4 * k) (fieldLE b (4 * k) 4)

/-- The entries of a table record: COUNT entries of 516 bytes, by INDEX; `none` when LENGTH, COUNT or the indices break the
rule. `taken` are the indices of earlier records. -/
def tableEntries (b : List Byte) (most limit : Nat) (taken : List Nat) : Option (List (Nat × List Byte)) :=
  let n := fieldLE b 0 4
  let es := (List.range n).map fun k => (fieldLE b (4 + 516 * k) 1, (b.drop (4 + 516 * k)).take 516)
  let ix := es.map (·.1)
  if n < 1 ∨ most < n ∨ b.length ≠ 4 + 516 * n ∨ ix.any (fun i => limit ≤ i || taken.contains i) ∨ ix.eraseDups.length ≠ n then none
  else some es

/-- The bytes never fall. -/
def notFalling : List Byte → Bool
  | a :: b :: r => a.toNat ≤ b.toNat && notFalling (b :: r)
  | _ => true

/-- A 0x2004 record: blend masks (R184). -/
def Dev.blendRecord (d : Dev) (b : List Byte) : Nat × Dev :=
  let taken := (List.range 16).filter fun m => d.bit F.RAS_TBLVALID_BLEND m
  match tableEntries b 16 16 taken with
  | none => (sBadValue, d)
  | some es =>
    let curve (e : List Byte) : List Byte := (e.drop 4).take 256
    let ok (e : List Byte) : Bool := fieldLE e 2 2 == 0 && notFalling (curve e) &&
      (fieldLE e 1 1 == 1 || (fieldLE e 1 1 == 0 && (curve e).all (· == 0)))
    if !(es.all fun x => ok x.2) then (sBadValue, d)
    else
      let linear : List Byte := (List.range 256).map (BitVec.ofNat 8)
      (sOk, d.each es fun d x =>
        let c := if fieldLE x.2 1 1 = 0 then linear else curve x.2
        (d.wordsTo (R.RAS_BLEND_CURVE x.1 0) (c ++ x.2.drop 260)).setBit F.RAS_TBLVALID_BLEND x.1)

/-- The passes of a feed set meet R186. -/
def feedOk (e : List Byte) : Bool :=
  let n := fieldLE e 1 1
  let o (p k m : Nat) : Nat := fieldLE e (0x104 + 16 * p + k) m
  fieldLE e 2 2 == 0 && 1 ≤ n && n ≤ 16 && ((List.range 16).all fun p =>
    if n ≤ p then o p 0 16 == 0
    else
      let x := sx 16 (o p 4 2)
      (if p = 0 then o p 0 4 == 0 else decide (o (p - 1) 0 4 < o p 0 4)) && o p 0 4 < 2 ^ 31 && decide (-1024 ≤ x ∧ x ≤ 1023) &&
        1 ≤ o p 6 1 && o p 6 1 ≤ 4 && decide (o p 7 1 < o p 6 1) && decide (o p 8 1 ≤ o p 9 1) && o p 10 6 == 0)

/-- A 0x2003 record: feed sets (R186). -/
def Dev.feedRecord (d : Dev) (b : List Byte) : Nat × Dev :=
  match tableEntries b 8 8 ((List.range 8).filter fun s => d.bit F.RAS_TBLVALID_FEED s) with
  | none => (sBadValue, d)
  | some es =>
    if !(es.all fun x => feedOk x.2) then (sBadValue, d)
    else (sOk, d.each es fun d x => (d.wordsTo (R.RAS_FEED_PASSW x.1 0 0 - 0x100) (x.2.drop 4)).setBit F.RAS_TBLVALID_FEED x.1)

/-- A 0x2001 record: transfer tables (R219). -/
def Dev.transferRecord (d : Dev) (b : List Byte) : Nat × Dev :=
  match tableEntries b 64 64 d.cfg.tts with
  | none => (sBadValue, d)
  | some es =>
    if !(es.all fun x => fieldLE x.2 1 3 == 0 && fieldLE x.2 4 2 == 0) then (sBadValue, d)
    else
      let d1 := d.each es fun d x => d.wordsTo (R.NZM_TT_W x.1 0) (x.2.drop 4)
      (sOk, d1.onCfg fun t => { t with tts := t.tts ++ es.map (·.1) })

/-- An entry of a 0x2002 record meets R224. -/
def Dev.tempEntOk (d : Dev) (b : List Byte) (k : Nat) : Bool :=
  let o := 4 + 64 * k
  let h := fieldLE b o 1
  let n := fieldLE b (o + 1) 1
  let t (j : Nat) : Int := sx 16 (fieldLE b (o + 4 + 2 * j) 2)
  let a := fieldLE b (o + 0x14) 4
  d.headOk h && 1 ≤ n && n ≤ 8 && fieldLE b (o + 2) 2 == 0 && fieldLE b (o + 0x18) 40 == 0 &&
  ((List.range 8).all fun j => if n ≤ j then t j == 0 else j == 0 || decide (t (j - 1) < t j)) &&
  decide (a + n * d.headN h ≤ b.length) &&
  ((b.drop a).take (n * d.headN h)).all fun x => decide (-32 ≤ sx 8 x.toNat ∧ sx 8 x.toNat ≤ 31)

/-- A 0x2002 record: temperature sets (R224). The sets stay in DRAM, where the rake reads them. -/
def Dev.tempRecord (d : Dev) (b : List Byte) : Nat × Dev :=
  let n := fieldLE b 0 4
  let base := dramBase + 2 ^ 20 * d.get F.CAL_TSBASE_MIB
  let hs := (List.range n).map fun k => fieldLE b (4 + 64 * k) 1
  let arr (k : Nat) : Nat × Nat := (fieldLE b (4 + 64 * k + 0x14) 4, fieldLE b (4 + 64 * k + 1) 1 * d.headN (nth hs k 0))
  let apart := (List.range n).all fun k => (List.range k).all fun j => !(rangesMeet (arr j).1 (arr j).2 (arr k).1 (arr k).2)
  let past := (List.range n).all fun k => decide (4 + 64 * n ≤ (arr k).1)
  if 2 ^ 20 * d.get F.CAL_TSSIZE_MIB < b.length then (sNoRoom, d)
  else if n < 1 ∨ 64 < n ∨ b.length < 4 + 64 * n ∨ !((List.range n).all (d.tempEntOk b)) ∨ hs.eraseDups.length ≠ n ∨ !apart ∨ !past then
    (sBadValue, d)
  else (sOk, (d.stBs base b).onNzm fun t => { t with sets := hs.zipIdx.map fun x => (x.1, base + 4 + 64 * x.2), setsBase := base })

/-! ### Firmware (R62, R77) -/

/-- A firmware record lies in shared SRAM or DRAM, apart from the others; ENTRY as its type asks. -/
def Dev.fwStatus (d : Dev) (type : Nat) (b : List Byte) : Nat :=
  let a := fieldLE b 0 8
  let e := fieldLE b 8 8
  let n := b.length - 0x20
  let place := inSram a n || d.inDram a n
  let entry := if type = 0x3002 then e == 0 else decide (a ≤ e ∧ e < a + n)
  if b.length < 0x20 ∨ !place ∨ !entry ∨ fieldLE b 0x10 16 ≠ 0 ∨ d.cfg.fwRanges.any (fun r => rangesMeet r.1 r.2 a n) then sBadValue
  else sOk

/-- Loads a 0x3001 or 0x3002 record. -/
def Dev.fwRecord (d : Dev) (type : Nat) (b : List Byte) : Nat × Dev :=
  let st := d.fwStatus type b
  if st ≠ sOk then (st, d)
  else
    let a := fieldLE b 0 8
    let d1 := (d.stBs a (b.drop 0x20)).onCfg fun t => { t with fwRanges := t.fwRanges ++ [(a, b.length - 0x20)] }
    (sOk, d1.when (type == 0x3001) fun d => d.onSys fun t => { t with ctlEntry := fieldLE b 8 8 })

/-- Loads the 0x3000 record: Zelnath's signature, then the code's place (R77). -/
def Dev.trustedRecord (d : Dev) (b : List Byte) : Nat × Dev :=
  let a := fieldLE b 0 4
  let e := fieldLE b 4 4
  let z := fieldLE b 8 1
  let code := b.drop 0x80
  let sig := (b.drop 0x20).take 96
  if 2 ≤ z ∨ nth d.sec.fuses.zkeyRevoke z true ∨ !(ecdsaVerify (Config.zelnathKey z) (sha384 (b.take 0x20 ++ code)) sig) then (sAuthFail, d)
  else if a < tsramBase ∨ tsramBase + 0x30000 < a + code.length ∨ e < a ∨ a + code.length ≤ e then (sBadValue, d)
  else (sOk, (d.stBs a code).onCfg fun t => { t with zkey := z, fwVersion := fieldLE b 0x0C 4 })

/-! ### Keys (R82, R83, R91) -/

/-- The marker or ROOT_KILL covers a key record with this USE, which is then skipped. -/
def Dev.keySkipped (d : Dev) (use : Nat) : Bool :=
  d.get F.SEC_STATUS_ROOT_KILL = 1 || d.markerLevel = 2 || (d.markerLevel = 1 && use % 2 = 1) || 2 < d.markerLevel

/-- Loads a key record into slot `slot`: status and device. -/
def Dev.keyRecord (d : Dev) (type : Nat) (b : List Byte) : Nat × Dev :=
  let kind := fieldLE b 0 1
  let use := fieldLE b 1 1
  let slot := type - 0x4000
  if kind < 1 ∨ 5 < kind ∨ use = 0 ∨ 8 ≤ use ∨ fieldLE b 2 6 ≠ 0 ∨ b.length ≠ (if kind = 2 then 0x80 else 0x90) then (sBadValue, d)
  else
    let x := beNat ((b.drop 8).take 48)
    let y := beNat ((b.drop 56).take 48)
    let f := d.sec.fuses
    if !(p384On (x, y)) then (sBadValue, d)
    else
      let z := match p384Mul (devScalar f.rootKey f.uid) (x, y) with
        | some q => beBytes 48 q.1
        | none => List.replicate 48 0
      let kek := kdf z (ascii "VLNKEK") (beBytes 16 f.uid ++ leBytes 2 type) 256
      match kwUnwrap kek (b.drop 0x68) with
      | none => (sIntegrity, d.alarm 6)
      | some key =>
        let k : Key := { slot := slot, kind := kind, use := use, key := key }
        (sOk, (d.onSec fun t => { t with keys := (t.keys.filter fun q => q.slot != slot) ++ [k] }).syncKeys)

/-! ### CTL reset (R45) -/

/-- The harts stop and the interrupt controller is cleared; the reload of their firmware is to come. -/
def Dev.ctlReset (d : Dev) : Dev :=
  let d1 : Dev := { d with regs := d.regs.filter fun r => r.1 < 0x0C000000 }
  let d2 := d1.onSys fun t => { t with hartsRun := false, claimed := [], ctlDue := true, hwdFirst := false }
  (d2.put F.SYS_RSTCAUSE_CTL 1).report 4

/-- The reload of base and extension firmware from the running slot: each is checked against its digest; the
harts restart, or stay in reset with source 12. -/
def Dev.ctlReload (d : Dev) : Dev :=
  let s := d.cfg.slot
  let fw := (d.directory s).filter fun e => e.type == 0x3001 || e.type == 0x3002
  let d1 := d.onSys fun t => { t with ctlDue := false }
  if fw.all (d.digestOk s) then
    let d2 := d1.each fw fun d e => d.stBs (leNat ((d.body s e).take 8)) ((d.body s e).drop 0x20)
    d2.onSys fun t => { t with hartsRun := fw.any fun e => e.type == 0x3001 }
  else d1.report 12

end Sys2Proof.Machine
end

