-- ==== Sys2Proof/Machine/Sys.lean ====
section
/-! DEFINITION. System control: interrupts (R41 to R43), the machine timer (R18), the clock check
(R15), resets and watchdogs (R44, R46), the supplies (R479 to R481), the die sensors and SAFE_N
(R468), and the pads (R500). -/

namespace Sys2Proof.Machine

/-! ### Interrupt lines -/

/-- The blocks with an interrupt status and an enable register: block, status, enable. -/
def irqRegs : List (Nat × Nat × Nat) :=
  [(0, R.SYS_IRQ_STAT, R.SYS_IRQ_EN), (1, R.CFG_IRQ_STAT, R.CFG_IRQ_EN), (2, R.SEC_IRQ_STAT, R.SEC_IRQ_EN),
   (3, R.JNL_IRQ_STAT, R.JNL_IRQ_EN), (4, R.FLT_IRQ_STAT, R.FLT_IRQ_EN), (5, R.TWN_IRQ_STAT, R.TWN_IRQ_EN),
   (6, R.MBX_IRQ_STAT, R.MBX_IRQ_EN), (7, R.ITK_IRQ_STAT, R.ITK_IRQ_EN), (8, R.BRD_IRQ_STAT, R.BRD_IRQ_EN),
   (9, R.BRC_IRQ_STAT, R.BRC_IRQ_EN)] ++
  [(10, R.RAS_IRQ_STAT, R.RAS_IRQ_EN), (11, R.IMP_IRQ_STAT, R.IMP_IRQ_EN), (12, R.NZM_IRQ_STAT, R.NZM_IRQ_EN),
   (13, R.CAL_IRQ_STAT, R.CAL_IRQ_EN), (14, R.POS_IRQ_STAT, R.POS_IRQ_EN), (15, R.FIR_IRQ_STAT, R.FIR_IRQ_EN),
   (16, R.HLK_IRQ_STAT, R.HLK_IRQ_EN), (17, R.SLU_IRQ_STAT, R.SLU_IRQ_EN), (18, R.CAM_IRQ_STAT, R.CAM_IRQ_EN),
   (19, R.VIS_IRQ_STAT, R.VIS_IRQ_EN)] ++
  [(20, R.INS_IRQ_STAT, R.INS_IRQ_EN), (21, R.LMP_IRQ_STAT, R.LMP_IRQ_EN), (22, R.PGF_IRQ_STAT, R.PGF_IRQ_EN),
   (23, R.ETH_IRQ_STAT, R.ETH_IRQ_EN), (24, R.PTP_IRQ_STAT, R.PTP_IRQ_EN), (25, R.DMC_IRQ_STAT, R.DMC_IRQ_EN),
   (26, R.DMA_IRQ_STAT, R.DMA_IRQ_EN), (27, R.SRD_IRQ_STAT, R.SRD_IRQ_EN), (28, R.PIN_IRQ_STAT, R.PIN_IRQ_EN)]

/-- The causes set in a block's status register; DMA line 0 and PIN line 0 follow other registers. -/
def Dev.irqStat (d : Dev) (blk stat : Nat) : Nat :=
  let w := (d.rd stat).toNat
  if blk = 26 then setBits w 0 1 (if (d.rd R.DMA_DONE).toNat = 0 then 0 else 1)
  else if blk = 28 then setBits w 0 1 (if (d.rd R.PIN_GPIO_EDGE).toNat = 0 then 0 else 1)
  else w

/-- The asserted interrupt IDs (R41, R42): 8 × block + line for each cause that is set and enabled;
MBX lines 4 to 7 follow TPEND and TIRQ_EN. -/
def Dev.irqs (d : Dev) : List Nat :=
  (irqRegs.map fun r =>
    let w := d.irqStat r.1 r.2.1 &&& (d.rd r.2.2).toNat
    let w1 := if r.1 = 6 then (w &&& 15) + 16 * (d.get F.MBX_TPEND_PEND &&& d.get F.MBX_TIRQ_EN_EN) else w
    ((List.range 8).filter fun l => bitB w1 l).map fun l => 8 * r.1 + l).flatten

/-- The IDs the application cluster's controller sees: all blocks but SEC and JNL, and of MBX its
application side (R43). -/
def appIrq (id : Nat) : Bool := id / 8 ≠ 2 && id / 8 ≠ 3 && !(52 ≤ id && id < 56) && id ≠ 0

/-- Priority of an ID in the application cluster's controller (layout PRESUMED, entry 6). -/
def Dev.plicPrio (d : Dev) (id : Nat) : Nat := (d.rd (0x0C000000 + 4 * id)).toNat % 8

/-- Whether a context enables an ID. -/
def Dev.plicEn (d : Dev) (ctx id : Nat) : Bool :=
  bitB (d.rd (0x0C002000 + 0x80 * ctx + 4 * (id / 32))).toNat (id % 32)

/-- Threshold of a context. -/
def Dev.plicThr (d : Dev) (ctx : Nat) : Nat := (d.rd (0x0C200000 + 0x1000 * ctx)).toNat % 8

/-- The ID with the highest priority, the lower ID at equal priority; 0 for none (R42). -/
def Dev.plicBest (d : Dev) (ctx : Nat) : Nat :=
  let cand := d.irqs.filter fun id =>
    appIrq id && d.plicEn ctx id && d.plicThr ctx < d.plicPrio id && !(d.sys.claimed.contains id)
  cand.foldl (fun b id =>
    if b = 0 ∨ d.plicPrio b < d.plicPrio id ∨ (d.plicPrio id = d.plicPrio b ∧ id < b) then id else b) 0

/-- A claim by a context: its answer is the best ID, or 0 when every line was withdrawn (R42). -/
def Dev.claimIrq (d : Dev) (ctx : Nat) : Dev :=
  let id := d.plicBest ctx
  let d1 := d.when (id != 0) fun d => d.onSys fun s => { s with claimed := id :: s.claimed }
  d1.emit (.claim ctx id)

def execInterruptClaim (ctx : Fin 8) (s : State) : Host.Outcome State Fault Refusal :=
  s.upd fun d => d.claimIrq ctx

/-! ### Machine timer and clocks -/

/-- mtime reaches a hart's mtimecmp: the counter stands at least there, and the timer interrupt is
pending (R18). -/
def execMachineTimerExpiry (hart : Fin 4) (s : State) : Host.Outcome State Fault Refusal :=
  s.upd fun d =>
    (d.atTime (nth d.sys.mtimecmp hart 0)).onSys fun t => { t with mtip := upd t.mtip hart fun _ => true }

/-- The end of a 1 ms window (R15): SYS_CLKCHK shows the deviation in ppm, and more than ±2 % raises
source 0 and line 3. -/
def execClockCheckWindow (ppm : Int) (s : State) : Host.Outcome State Fault Refusal :=
  s.upd fun d =>
    let d1 := d.put F.SYS_CLKCHK_PPM (ux 24 ppm)
    d1.when (20000 < ppm.natAbs) fun d => (d.put F.SYS_IRQ_STAT_CLKCHK 1).report 0

/-- REFCLK has been absent for more than 10 µs (R15): source 1; the clocks made from it stop. -/
def execRefclkLoss (s : State) : Host.Outcome State Fault Refusal :=
  s.upd fun d => (d.onSys fun t => { t with refclk := false }).report 1

/-! ### Resets -/

/-- A feed becomes valid after both were below threshold (R44): power-on reset, SAF_BOOT. -/
def execPowerOnReset (vina vinb viom33 : Bool) (s : State) : Host.Outcome State Fault Refusal :=
  s.upd fun d =>
    if vina || vinb then
      let d1 := d.deviceReset 0 true
      let d2 := d1.onSys fun t => { t with refclk := true }
      let ok := (if vina then 1 else 0) + (if vinb then 2 else 0)
      d2.wrN R.PIN_PWRSTAT (ok + 4 * ok + (if viom33 then 16 else 0) + 32)
    else d

/-- RST_N held low (R46): device reset; the start waits for the pin to return. -/
def execRstNAssert (s : State) : Host.Outcome State Fault Refusal :=
  s.upd fun d =>
    if d.sys.off then d.onSys fun t => { t with rstN := false }
    else (d.deviceReset 1 false).onSys fun t => { t with rstN := false }

/-- RST_N returns high (R46): the start begins again at SAF_BOOT. -/
def execRstNRelease (s : State) : Host.Outcome State Fault Refusal :=
  s.upd fun d => d.onSys fun t => { t with rstN := true, startC := d.c }

/-- No kick of the trusted watchdog within 100 ms (R44): FATAL source 2; the harvest runs and a
device reset follows it. The watchdog runs from SELFTEST entry. -/
def execTrustedWatchdogExpiry (s : State) : Host.Outcome State Fault Refusal :=
  s.upd fun d =>
    d.when (d.st? = stSelftest || d.running || d.st? = stSafe) fun d => (d.atTime (d.sys.twdC + 100000000)).report 2

/-! ### Supplies -/

/-- Raises PIN line 2 when PIN_PWRSTAT changes to `v`. -/
def Dev.pwrStat (d : Dev) (v : Nat) : Dev :=
  if (d.rd R.PIN_PWRSTAT).toNat = v then d else (d.wrN R.PIN_PWRSTAT v).put F.PIN_IRQ_STAT_PWR 1

/-- TWN_HEALTH.FEED: one feed has failed. -/
def Dev.feedHealth (d : Dev) : Dev :=
  d.put F.TWN_HEALTH_FEED (if d.get F.PIN_PWRSTAT_VINA_OK = 1 ∧ d.get F.PIN_PWRSTAT_VINB_OK = 1 then 0 else 1)

/-- A feed outside 3.0 to 3.6 V for 10 µs while the other is valid (R479): VINx_OK and CARRY_x clear,
source 188 or 189 with the measured value. -/
def execFeedOutOfRange (feed : Fin 2) (mv : Nat) (s : State) : Host.Outcome State Fault Refusal :=
  s.upd fun d =>
    let w := (d.rd R.PIN_PWRSTAT).toNat
    let other := bitB w (1 - feed.val)
    let d1 := d.put (if feed.val = 0 then F.PIN_VINMON_VINA else F.PIN_VINMON_VINB) mv
    let d2 := d1.pwrStat (setBits (setBits w feed 1 0) (2 + feed.val) 1 0)
    d2.feedHealth.when other fun d => d.report (188 + feed.val) (some mv)

/-- A feed 20 mV below the joined node has its ORing switch opened (R479): it carries no load. -/
def execFeedSwitchOpen (feed : Fin 2) (s : State) : Host.Outcome State Fault Refusal :=
  s.upd fun d => d.pwrStat (setBits (d.rd R.PIN_PWRSTAT).toNat (2 + feed.val) 1 0)

/-- Reverse current or a stuck ORing switch (R479): source 191. -/
def execOringFault (feed : Fin 2) (s : State) : Host.Outcome State Fault Refusal :=
  s.upd fun d => d.report 191

/-- A regulator output outside ±5 % for 1 µs (R468): source 190 with the measured value. -/
def execRegulatorFault (mv : Nat) (s : State) : Host.Outcome State Fault Refusal :=
  s.upd fun d => d.report 190 (some mv)

/-- Both feeds fall below 2.9 V (R480): ALIVE stops and JNL finishes only the word in progress. -/
def execPowerFailWarning (s : State) : Host.Outcome State Fault Refusal :=
  s.upd fun d => d.onSys fun t => { t with powerFail := true }

/-- A failed feed returns while the other stays valid (R479): its switch closes, and VINx_OK and
TWN_HEALTH.FEED follow. -/
def execFeedRestored (feed : Fin 2) (mv : Nat) (s : State) : Host.Outcome State Fault Refusal :=
  s.upd fun d =>
    let w := (d.rd R.PIN_PWRSTAT).toNat
    let d1 := d.put (if feed.val = 0 then F.PIN_VINMON_VINA else F.PIN_VINMON_VINB) mv
    ((d1.pwrStat (setBits (setBits w feed 1 1) (2 + feed.val) 1 1)).feedHealth).onSys fun t => { t with powerFail := false }

/-- Both feeds fall below 2.6 V (R480): the power-on reset holds the device, which is OFF. -/
def execSupplyLoss (s : State) : Host.Outcome State Fault Refusal :=
  s.upd fun d =>
    ((d.deviceReset 0 true).onSys fun t => { t with off := true }).wrN R.PIN_PWRSTAT 0

/-- A VIO bank or DRAM rail leaves or enters its range (R481): RAILS, and PIN line 2. -/
def execRailChange (ok : Bool) (s : State) : Host.Outcome State Fault Refusal :=
  s.upd fun d => d.pwrStat (setBits (d.rd R.PIN_PWRSTAT).toNat 5 1 (if ok then 1 else 0))

/-! ### Die sensors, SAFE_N, pads -/

/-- The sensors' reading crosses a threshold (R468): `hot` and `cold` are the hottest and the coldest
sensor in 1/16 °C. Each of sources 192 to 194 is raised once and clears after a return by HYST. -/
def execDieTempThreshold (hot cold : Int) (s : State) : Host.Outcome State Fault Refusal :=
  s.upd fun d =>
    let d1 := d.put F.FLT_DIETEMP_TEMP (ux 16 hot)
    let lim (f : Fld) : Int := 16 * sx 8 (d.get f)
    let hy : Int := 16 * d.get F.FLT_TEMP_HYST
    let st := d.sys.dieOver
    let w := if lim F.FLT_TEMP_WARN < hot then true else if hot ≤ lim F.FLT_TEMP_WARN - hy then false else bitB st 0
    let h := if lim F.FLT_TEMP_HOT < hot then true else if hot ≤ lim F.FLT_TEMP_HOT - hy then false else bitB st 1
    let c := if cold < lim F.FLT_TEMP_COLD then true else if lim F.FLT_TEMP_COLD + hy ≤ cold then false else bitB st 2
    let n := (if w then 1 else 0) + (if h then 2 else 0) + (if c then 4 else 0)
    let d2 := d1.onSys fun t => { t with dieOver := n }
    let d3 := d2.when (w && !bitB st 0) fun d => d.report 192 (some (ux 16 hot))
    let d4 := d3.when (h && !bitB st 1) fun d => d.report 193 (some (ux 16 hot))
    d4.when (c && !bitB st 2) fun d => d.report 194 (some (ux 16 cold))

/-- Two sensors differ by more than 10 °C (R468): source 195 with the difference in 1/16 °C. -/
def execDieSensorMismatch (diff : Nat) (s : State) : Host.Outcome State Fault Refusal :=
  s.upd fun d => d.when (160 < diff) fun d => d.report 195 (some diff)

/-- SAFE_N held low longer than the filter (R468): PIN line 1 and source 196. -/
def execSafeNLow (s : State) : Host.Outcome State Fault Refusal :=
  s.upd fun d =>
    if d.sys.safeN then
      ((d.onSys fun t => { t with safeN := false }).put F.PIN_IRQ_STAT_SAFEN 1).report 196
    else d

/-- A low pulse on SAFE_N shorter than the filter (R468): source 197. -/
def execSafeNShort (s : State) : Host.Outcome State Fault Refusal :=
  s.upd fun d => (d.put F.PIN_IRQ_STAT_SAFEN 1).report 197

/-- SAFE_N returns high (R468): PIN line 1; the pending bit of source 196 may then be cleared. -/
def execSafeNRelease (s : State) : Host.Outcome State Fault Refusal :=
  s.upd fun d =>
    if d.sys.safeN then d
    else (d.onSys fun t => { t with safeN := true }).put F.PIN_IRQ_STAT_SAFEN 1

/-- A pad changes level (R500 and the PIN registers): PIN_GPIO_IN or PIN_FIXIN follows, and an
enabled edge of pads 0 to 31 sets its bit in PIN_GPIO_EDGE. -/
def execGpioEdge (pad : Fin 64) (level : Bool) (s : State) : Host.Outcome State Fault Refusal :=
  s.upd fun d =>
    let v := if level then 1 else 0
    if pad.val < 32 then
      let old := bitB (d.rd R.PIN_GPIO_IN).toNat pad
      let d1 := d.wrN R.PIN_GPIO_IN (setBits (d.rd R.PIN_GPIO_IN).toNat pad 1 v)
      let en := if level then R.PIN_GPIO_RISE else R.PIN_GPIO_FALL
      d1.when (old != level && bitB (d.rd en).toNat pad) fun d =>
        d.wrN R.PIN_GPIO_EDGE (setBits (d.rd R.PIN_GPIO_EDGE).toNat pad 1 1)
    else d.wrN R.PIN_FIXIN (setBits (d.rd R.PIN_FIXIN).toNat (pad.val - 32) 1 v)

/-- The level a GPIO pad drives (R500): PIN_GPIO_OUT while enabled, and in SAFE the level of
PIN_GPIO_SAFEVAL where PIN_GPIO_SAFEEN is set; `none` when it drives nothing or is no GPIO. -/
def Dev.padLevel (d : Dev) (n : Nat) : Option Bool :=
  if 32 ≤ n ∨ d.get (F.PIN_PAD_CFG_FUNC n) ≠ 0 ∨ !d.configDone then none
  else if d.st? = stSafe ∧ bitB (d.rd R.PIN_GPIO_SAFEEN).toNat n then
    some (bitB (d.rd R.PIN_GPIO_SAFEVAL).toNat n)
  else if bitB (d.rd R.PIN_GPIO_OE).toNat n then some (bitB (d.rd R.PIN_GPIO_OUT).toNat n)
  else none

end Sys2Proof.Machine
end

