-- ==== Sys2Proof/Machine/Bus.lean ====
section
/-! DEFINITION. Register accesses (R19 to R27, R35 to R40, R501, R502): rights, checks, effects and views of every block's
registers; the machine timer and the interrupt controller's registers; the commands that are register writes with a row of their own. -/

namespace Sys2Proof.Machine

/-! ### Rights (R40) -/

/-- JTAG has REG rights. -/
def Dev.jtagReg (d : Dev) : Bool := bitB d.sec.rights 1 && !d.debugKilled

/-- VJP may reach a peripheral register: a list entry holds it, with WRITE for a write (R118). -/
def Dev.vjpListed (d : Dev) (a : Nat) (write : Bool) : Bool :=
  match blockOf a with
  | none => false
  | some b =>
    let o := a % 0x10000
    (List.range 32).any fun n =>
      let f := d.get (F.ITK_VJPLIST_OFFSET n)
      d.get (F.ITK_VJPLIST_BLOCK n) == b && decide (f ≤ o) && decide (o < f + 4 * d.get (F.ITK_VJPLIST_COUNT n)) &&
      (!write || d.get (F.ITK_VJPLIST_WRITE n) == 1)

/-- SYS, CFG, FLT, TWN and PIN. -/
def openBlock (b : Nat) : Bool := b == 0 || b == 1 || b == 4 || b == 5 || b == 28

/-- The mailbox channel that a register belongs to. -/
def mbxChan (a : Nat) : Option Nat := if 0x02060100 ≤ a ∧ a < 0x02060500 then some ((a - 0x02060100) / 0x100) else none

/-- Whether a requester has access to the registers of a block beyond its header. -/
def Dev.reaches (d : Dev) (req b a : Nat) (write : Bool) : Bool :=
  let hart := b != 2 && b != 3 && (b != 6 || (match mbxChan a with
    | some n => n == req
    | none => a == R.MBX_IRQ_STAT || a == R.MBX_IRQ_EN))
  if req < 4 then hart
  else if req = reqTrusted then b != 6 || (if write then a == R.MBX_TPEND || a == R.MBX_TIRQ_EN else true)
  else if req = reqVjp then (if openBlock b then !write else b != 2 && b != 3 && b != 6 && d.vjpListed a write)
  else if req = reqJtag then (if d.jtagReg then hart && b != 6 else !write && (b == 0 || b == 1))
  else if req = reqLoader then b != 6
  else false

/-- The requester can read some register space, and so every block's header (R37). -/
def readsHeaders (req : Nat) : Bool := req ≠ 5 && req ≤ 8

/-- The header of a block. -/
def isHeader (a : Nat) : Bool := a % 0x10000 < 0x10

/-- An island held in reset, or without its clock (R23): all but SAF until an image loads, in CONFIG_FAIL, and without REFCLK. -/
def Dev.islandDown (d : Dev) (b : Nat) : Bool :=
  islandOf b ≠ 0 && (d.st? = stBoot || d.st? = stImage || d.st? = stConfigFail || !d.sys.refclk)

/-! ### Checks by block -/

/-- Checks of writes to SYS. -/
def sysCheck (d : Dev) (w : Wr) : Nat :=
  firstFail [(rngBad safRngs w, sBadValue),
    (w.at R.SYS_DRAMWIN && decide (d.dramSize ≤ w.new * 0x10000000), sBadValue)]

/-- Every index of a claim is held by a feature, under `p`. -/
def Dev.holdsAll (d : Dev) (c : Claim) (p : Claim → Bool) : Bool :=
  (List.range c.num).all fun k => d.cfg.claims.any fun x =>
    p x && x.cls == c.cls && x.feature == c.feature && decide (x.first ≤ c.first + k) && decide (c.first + k < x.first + x.num)

/-- The claim or release that CFG_CLAIM_RES describes, for a feature. -/
def Dev.goClaim (d : Dev) (feature : Nat) : Claim :=
  { cls := d.get F.CFG_CLAIM_RES_CLASS, feature := feature, first := d.get F.CFG_CLAIM_RES_FIRST, num := d.get F.CFG_CLAIM_RES_NUM, image := false }

/-- Checks of writes to CFG (R74). -/
def cfgCheck (d : Dev) (w : Wr) : Nat :=
  if !(w.at R.CFG_CLAIM_GO) then sOk
  else
    let c := d.goClaim (w.new % 2 ^ 16)
    let release := d.get F.CFG_CLAIM_RES_RELEASE == 1
    firstFail [
      (c.feature == 0 || c.cls == 0 || 8 < c.cls || c.num == 0 || 96 < c.num || decide (classSize c.cls < c.first + c.num), sBadValue),
      (release && !(d.holdsAll c fun _ => true), sBadValue),
      (!release && d.cfg.claims.any (fun x => claimsMeet x c && x.feature != c.feature), sConflict),
      (release && d.cfg.claims.any (fun x => x.image && x.feature == c.feature && claimsMeet x c), sLocked),
      (!(d.running || d.st? = stSafe), sBadState)]

/-- The claims without the resources that are released. -/
def releaseFrom (c : Claim) (l : List Claim) : List Claim :=
  (l.map fun x =>
    if x.feature = c.feature ∧ claimsMeet x c then
      ((List.range x.num).filter fun k => !(c.first ≤ x.first + k && x.first + k < c.first + c.num)).map
        fun k => { x with first := x.first + k, num := 1 }
    else [x]).flatten

/-- A claim or release is carried out. -/
def Dev.claimGo (d : Dev) (feature : Nat) : Dev :=
  let c := d.goClaim feature
  if d.get F.CFG_CLAIM_RES_RELEASE = 1 then d.onCfg fun t => { t with claims := releaseFrom c t.claims }
  else d.onCfg fun t => { t with claims := t.claims ++ [c] }

/-- Checks of writes to ITK. -/
def itkCheck (d : Dev) (w : Wr) : Nat :=
  let n := w.val (F.ITK_VJPLIST_COUNT 0)
  let o := w.val (F.ITK_VJPLIST_OFFSET 0)
  let b := w.val (F.ITK_VJPLIST_BLOCK 0)
  firstFail [(rngBad safRngs w, sBadValue),
    (w.at (R.ITK_ZONE_CFG 0) && bitB w.new 17 && !(d.zoneOk w.i), sBadValue),
    (w.at (R.ITK_VJPLIST 0) && (b < 7 || 27 < b || o % 4 != 0 || decide (0xFFFC < o + 4 * (n - 1))), sBadValue)]

/-- Checks of writes to PIN (R499): pads 32 to 63 keep FUNC 0xFF; a function belongs to one pad, which a feature has claimed. -/
def pinCheck (d : Dev) (w : Wr) : Nat :=
  if !(w.at (R.PIN_PAD_CFG 0) || w.at (R.PIN_PAD_CFG 32)) then sOk
  else
    let n := (w.addr - R.PIN_PAD_CFG 0) / 4
    let f := w.new % 256
    let known := f == 0 || (0x10 ≤ f && f ≤ 0x1F) || (0x20 ≤ f && f ≤ 0x23)
    firstFail [
      (bits w.new 12 2 == 3 || (if n < 32 then !known else f != 0xFF), sBadValue),
      (n < 32 && f != 0 && ((List.range 32).any (fun k => k != n && d.get (F.PIN_PAD_CFG_FUNC k) == f) || !(d.claimed 1 n)), sConflict)]

/-- Checks of writes to MBX: a request word or GO while BUSY; a hart's own bit of MBX_IRQ_STAT only (R85). -/
def mbxCheck (d : Dev) (w : Wr) : Nat :=
  match mbxChan w.addr with
  | some n =>
    let busy := d.get (F.MBX_CTL_BUSY n) == 1
    firstFail [(busy && (w.addr % 0x100 < 0x40 || (w.addr % 0x100 == 0x80 && bitB w.new 0)), sBusy)]
  | none => firstFail [(w.at R.MBX_IRQ_STAT && w.req < 4 && w.new % 16 != 0 && w.new % 16 != 2 ^ w.req, sDenied)]

/-- Checks 5 and 6 of R501 for the block that owns the register. -/
def blockCheck (d : Dev) (b : Nat) (w : Wr) : Nat :=
  match b with
  | 0 => sysCheck d w
  | 1 => cfgCheck d w
  | 2 => firstFail [(rngBad safRngs w, sBadValue), (secCheck d w != sOk, secCheck d w)]
  | 3 => if rngBad safRngs w then sBadValue else sOk
  | 4 => fltCheck d w
  | 5 => twnCheck d w
  | 6 => mbxCheck d w
  | 7 => itkCheck d w
  | 8 | 9 | 10 => brdCheck d w
  | 11 => impCheck d w
  | 12 | 13 => nzmCheck d w
  | 14 => posCheck d w
  | 15 | 17 => firCheck d w
  | 16 | 27 => hlkCheck d w
  | 18 => camCheck d w
  | 19 => visCheck d w
  | 20 => insCheck d w
  | 21 => lmpCheck d w
  | 22 => pgfCheck d w
  | 23 => ethCheck d w
  | 24 => ptpCheck d w
  | 25 => dmcCheck d w
  | 26 => dmaCheck d w
  | 28 => pinCheck d w
  | _ => sOk

/-! ### Effects by block -/

/-- What a write to SYS does beside storing its fields. -/
def sysApply (d : Dev) (w : Wr) : Dev :=
  let now := d.c
  if w.at R.SYS_HWD_KICK then d.onSys fun t => { t with hwdFirst := false, hwdC := now }
  else if w.at R.SYS_TWD_KICK then d.onSys fun t => { t with twdC := now }
  else if w.at R.SYS_RSTCTL then (if w.val F.SYS_RSTCTL_KIND = 1 then d.deviceReset 3 false else d.ctlReset)
  else d

/-- What a write to MBX does beside storing its fields: GO makes the channel BUSY (R85). -/
def mbxApply (d : Dev) (w : Wr) : Dev :=
  match mbxChan w.addr with
  | some n =>
    if w.addr % 0x100 = 0x80 then
      let d1 := d.put (F.MBX_CTL_GO n) 0
      d1.when (bitB w.new 0) fun d => (d.put (F.MBX_CTL_BUSY n) 1).setBit F.MBX_TPEND_PEND n
    else d
  | none => d

/-- What a write to ITK does beside storing its fields. -/
def itkApply (d : Dev) (w : Wr) : Dev :=
  if w.at R.ITK_CNTCLR then
    let clr (d : Dev) (i a : Nat) : Dev := d.when (bitB w.new i) fun d => d.wrN a 0
    clr (clr (clr (clr d 0 R.ITK_DROP_FMT) 1 R.ITK_DROP_AUTH) 2 R.ITK_DROP_WIN) 3 R.ITK_LINKCNT
  else d

/-- The effect of a write for the block that owns the register. -/
def blockApply (d : Dev) (b : Nat) (w : Wr) : Dev :=
  match b with
  | 0 => sysApply d w
  | 1 => if w.at R.CFG_CLAIM_GO then d.claimGo (w.new % 2 ^ 16) else d
  | 2 => secApply d w
  | 4 => fltApply d w
  | 5 => twnApply d w
  | 6 => mbxApply d w
  | 7 => itkApply d w
  | 8 | 9 | 10 => brdApply d w
  | 11 => impApply d w
  | 12 | 13 => nzmApply d w
  | 14 => posApply d w
  | 15 | 17 => firApply d w
  | 16 | 27 => hlkApply d w
  | 18 => camApply d w
  | 19 => visApply d w
  | 20 => insApply d w
  | 21 => lmpApply d w
  | 22 => pgfApply d w
  | 23 => ethApply d w
  | 24 => ptpApply d w
  | 25 => dmcApply d w
  | 26 => dmaApply d w
  | _ => d

/-- A register that shows more than it stores. -/
def Dev.blockView (d : Dev) (b req a base : Nat) (ix : List Nat) : Option Nat :=
  match b with
  | 2 => secView d base ix
  | 4 => fltView d base
  | 5 => twnView d base
  | 11 => impView d base ix
  | 12 | 13 => nzmView d base ix
  | 14 => posView d base ix
  | 16 | 27 => hlkView d base ix
  | 21 => lmpView d base ix
  | 22 => pgfView d base ix
  | 24 => ptpView d req a
  | 26 => if base = R.DMA_IRQ_STAT then some (d.irqStat 26 R.DMA_IRQ_STAT) else none
  | 28 => if base = R.PIN_IRQ_STAT then some (d.irqStat 28 R.PIN_IRQ_STAT) else none
  | _ => none

/-! ### A register write (R501) -/

/-- A field is open to a requester. -/
def Dev.openTo (d : Dev) (req : Nat) (f : FieldRow) : Bool :=
  match f.acc with
  | .rw | .rws | .wo | .w1c | .w1s => true
  | .lck => req == reqLoader && !d.configDone
  | .trs | .trsWo => req == reqTrusted
  | .ro | .trsRo => false

/-- The bits of a field. -/
def FieldRow.mask (f : FieldRow) : Nat := 2 ^ (f.hi + 1) - 2 ^ f.lo

/-- The bits of the fields that meet `p`. -/
def fieldBits (l : List FieldRow) (p : FieldRow → Bool) : Nat := (l.filter p).foldl (fun m f => m ||| f.mask) 0

/-- What a register holds after a write of `v` over `old`: RW, RWS, LCK and TRS fields take their value, W1C bits written 1
clear, W1S bits written 1 set; WO and RO fields hold nothing. -/
def storedValue (l : List FieldRow) (old v : Nat) : Nat :=
  l.foldl (fun x f =>
    let o := bits old f.lo (f.hi + 1 - f.lo)
    let n := bits v f.lo (f.hi + 1 - f.lo)
    let r := match f.acc with
      | .rw | .rws | .lck | .trs => n
      | .w1c => o - (o &&& n)
      | .w1s => o ||| n
      | _ => o
    setBits x f.lo (f.hi + 1 - f.lo) r) old

/-- Rights: R40 and a field that is open (check 2). -/
def Dev.writeRight (d : Dev) (req b a : Nat) (l : List FieldRow) : Nat :=
  if d.reaches req b a true && l.any (d.openTo req) then sOk
  else if d.reaches req b a true && l.any (fun f => f.acc == .lck) && d.configDone then sLocked
  else sDenied

/-- Registers whose writes a pair mirrors (R381). -/
def mirrored (b base : Nat) (l : List FieldRow) : Bool :=
  ((b == 15 || b == 18 || b == 21) && l.any fun f => f.acc == .rws) ||
  [R.FIR_HG_COMMIT 0, R.CAM_TRG_COMMIT 0, R.LMP_CH_COMMIT 0, R.LMP_CH_LVLSEL 0, R.LMP_CH_LVL 0, R.NZM_STATEWR, R.CAL_HOLD,
    R.CAL_PB4REQLO, R.CAL_PB4REQHI].contains base

/-- A partner hart writes a mirrored register. -/
def Dev.mirrorBars (d : Dev) (req b base : Nat) (l : List FieldRow) : Bool :=
  req < 4 && (d.role == roleStandby || d.role == roleSyncing) && mirrored b base l

/-- The checks 2 to 6 of R501 on a register row, and the write that they pass: fields that are not open keep their value. -/
def Dev.regCheck (d : Dev) (req b a v : Nat) (r : RegRow) : Nat × Wr :=
  let old := (d.rd a).toNat
  let mask := fieldBits r.fields (d.openTo req)
  let all := fieldBits r.fields fun _ => true
  let ro := fieldBits r.fields fun f => f.acc == .ro || f.acc == .trsRo
  let closed := all - mask - (ro - (ro &&& mask))
  let new := (v &&& mask) ||| (old &&& (2 ^ 32 - 1 - mask))
  let w : Wr := { req := req, addr := a, base := r.base, ix := dimsIx r.dims (a - r.base), old := old, new := new, mask := mask }
  let lck := fieldBits (r.fields.filter fun f => f.acc == .lck) fun f => bits old f.lo (f.hi + 1 - f.lo) != bits v f.lo (f.hi + 1 - f.lo)
  let st := firstFail [
    (d.writeRight req b a r.fields != sOk, d.writeRight req b a r.fields),
    (v &&& all != v, sBadValue),
    (v &&& closed != old &&& closed, if d.configDone && lck &&& closed != 0 then sLocked else sDenied),
    (blockCheck d b w != sOk, blockCheck d b w),
    (d.mirrorBars req b r.base r.fields, sBadState)]
  (st, w)

/-- A write that passed: its fields are stored, its effect follows, and an ACTIVE tells its partner of a mirrored one, named by
the first head of the head group whose register it is. -/
def Dev.regStore (d : Dev) (b v : Nat) (r : RegRow) (w : Wr) : Dev :=
  let n := w.ix.headD 0
  let cnt := if b = 15 then (d.head (8 * n)).formed + 1 else 0
  let d1 := d.when (mirrored b r.base r.fields) fun d => d.twInput 10 n cnt [w.addr, v]
  blockApply (d1.wrN w.addr (storedValue r.fields w.old w.new)) b w

/-- A write to a header: only REJCLR takes one (R37, R38). -/
def Dev.headerWrite (d : Dev) (req b a v : Nat) : Nat × Dev :=
  let body := if b = 2 ∨ b = 3 then req == reqTrusted || req == reqLoader
    else if b = 6 then req < 4 || req == reqTrusted
    else d.reaches req b a true
  if a % 0x10000 ≠ 0x0C ∨ !body then (sDenied, d)
  else if 4 ≤ v then (sBadValue, d)
  else
    let d1 := d.when (bitB v 0) fun d => d.wrN (blockBase b + 4) 0
    (sOk, d1.when (bitB v 1) fun d => d.wrN (blockBase b + 8) 0)

/-- A register write that reaches its block, before a rejection is recorded. -/
def Dev.writeReg (d : Dev) (req b a width v : Nat) : Nat × Dev :=
  if width ≠ 4 ∨ a % 4 ≠ 0 ∨ 2 ^ 32 ≤ v then (sBadValue, d)
  else if isHeader a then d.headerWrite req b a v
  else match rowAt a with
    | none => (if d.reaches req b a true then sBadValue else sDenied, d)
    | some r =>
      let q := d.regCheck req b a v r
      if q.1 = sOk then (sOk, d.regStore b v r q.2)
      else (q.1, d.when (r.base == R.CFG_CLAIM_GO) fun d => d.put F.CFG_IRQ_STAT_CLAIM_REJ 1)

/-! ### The machine timer and the interrupt controller (R18, R42; layout PRESUMED, entry 6) -/

/-- An address of the machine timer or the interrupt controller. -/
def ctlSpace (a : Nat) : Bool := (0x0B000000 ≤ a && a < 0x0B010000) || (0x0C000000 ≤ a && a < 0x10000000)

/-- The context of a claim register. -/
def claimCtx (a : Nat) : Option Nat :=
  if 0x0C200000 ≤ a ∧ a < 0x0C208000 ∧ a % 0x1000 = 4 then some ((a - 0x0C200000) / 0x1000) else none

/-- A write to the machine timer or the interrupt controller. -/
def Dev.ctlWrite (d : Dev) (a v : Nat) : Dev :=
  if 0x0B004000 ≤ a ∧ a < 0x0B004020 then
    let h := (a - 0x0B004000) / 8
    let old := nth d.sys.mtimecmp h 0
    let new := setBits old (8 * (a % 8)) 32 v
    let due := decide (new ≤ d.c)
    d.onSys fun t => { t with mtimecmp := upd t.mtimecmp h fun _ => new, mtip := upd t.mtip h fun _ => due }
  else if (claimCtx a).isSome then d.onSys fun t => { t with claimed := t.claimed.filter (· != v) }
  else if 0x0C000000 ≤ a ∧ a < 0x0C000400 then d.wrN a (v % 8)
  else if 0x0C002000 ≤ a ∧ a < 0x0C002400 ∧ (a - 0x0C002000) % 0x80 < 0x20 then d.wrN a v
  else if 0x0C200000 ≤ a ∧ a < 0x0C208000 ∧ a % 0x1000 = 0 then d.wrN a (v % 8)
  else d

/-- A read of the machine timer or the interrupt controller: a read of a claim register claims. -/
def Dev.ctlRead (d : Dev) (a : Nat) : Nat × Dev :=
  if 0x0B004000 ≤ a ∧ a < 0x0B004020 then (bits (nth d.sys.mtimecmp ((a - 0x0B004000) / 8) 0) (8 * (a % 8)) 32, d)
  else if a = 0x0B00BFF8 then (d.c % 2 ^ 32, d)
  else if a = 0x0B00BFFC then (d.c / 2 ^ 32, d)
  else match claimCtx a with
    | some ctx => (d.plicBest ctx, d.claimIrq ctx)
    | none =>
      if 0x0C001000 ≤ a ∧ a < 0x0C001020 then
        ((d.irqs.filter fun i => appIrq i && i / 32 == (a - 0x0C001000) / 4).foldl (fun x i => x ||| 2 ^ (i % 32)) 0, d)
      else ((d.rd a).toNat, d)

/-- The status of an access to no region at all, where a hart takes an access fault (R33). -/
def accessFault : Nat := 0xFF

/-- Whether a requester reaches the machine timer and the interrupt controller. -/
def Dev.ctlRight (d : Dev) (req : Nat) : Bool := req < 4 || (req == reqJtag && d.jtagReg)

/-- An address lies in a range. -/
def inRange (a base n : Nat) : Bool := base ≤ a && a < base + n

/-- An address in a memory region (R33). -/
def Dev.inMemory (d : Dev) (a : Nat) : Bool :=
  a < 0x10000 || inRange a tsramBase 0x40000 || inRange a mramBase 0x400000 || inRange a sramBase 0x400000 || d.inDram a 1

/-- The status of an access to no register: an access fault to a hart; BAD_VALUE to VJP, and DENIED for memory,
to which it has no access (R33, R40). -/
def Dev.noRegister (d : Dev) (req a : Nat) : Nat :=
  if req = reqVjp then (if d.inMemory a then sDenied else sBadValue) else accessFault

/-- A register write: its status, and the device after it with any rejection recorded. -/
def Dev.busW (d : Dev) (req a width v : Nat) : Nat × Dev :=
  match blockOf a with
  | some b =>
    if d.islandDown b then (sAbsent, d)
    else
      let r := d.writeReg req b a width v
      if r.1 = sOk then r else (r.1, r.2.reject req a r.1)
  | none =>
    if ctlSpace a then
      if !(d.ctlRight req) then (sDenied, d) else if width ≠ 4 ∨ a % 4 ≠ 0 then (sBadValue, d) else (sOk, d.ctlWrite a (v % 2 ^ 32))
    else (d.noRegister req a, d)

/-- A register write and its answer (R19). -/
def Dev.busWrite (d : Dev) (req a width v : Nat) : Dev :=
  let r := d.busW req a width v
  r.2.answer req a r.1 0

/-! ### A register read (R502) -/

/-- LO registers whose read captures HI, with the distance to HI (R255). -/
def loPairs : List (Nat × Nat) :=
  [(R.TWN_TKOTIMELO, 4), (R.TWN_ENC_OFSLO 0, 4), (R.POS_ENC_SCALELO 0, 4), (R.POS_ENC_COUNTLO 0, 4), (R.POS_ENC_POSLO 0, 4),
   (R.POS_ENC_HWMLO 0, 4), (R.POS_ENC_ZLATLO 0, 4), (R.POS_ZONE_POSLO 0, 4), (R.POS_CMP_POSLO 0, 4), (R.POS_EMU_RATIOLO 0, 4),
   (R.LMP_SDOSELO, 4), (R.DMC_UEADDRLO, 4)]

/-- The value of a register as a requester sees it: reserved bits, WO fields and, for all but the trusted core, TRS fields read 0. -/
def Dev.seen (d : Dev) (req b a : Nat) (r : RegRow) : Nat :=
  let v := (d.blockView b req a r.base (dimsIx r.dims (a - r.base))).getD (d.rd a).toNat
  v &&& fieldBits r.fields fun f => match f.acc with
    | .wo | .trsWo => false
    | .trs | .trsRo => req == reqTrusted
    | _ => true

/-- The status and value of a read of a block's register. -/
def Dev.readReg (d : Dev) (req b a width : Nat) : Nat × Nat :=
  if width ≠ 4 ∨ a % 4 ≠ 0 then (sBadValue, 0)
  else if isHeader a then (if readsHeaders req then (sOk, if a % 0x10000 = 0xC then 0 else (d.rd a).toNat) else (sDenied, 0))
  else if !(d.reaches req b a false) then (sDenied, 0)
  else match rowAt a with
    | none => (sOk, 0)
    | some r =>
      if r.fields.all (fun f => f.acc == .trs || f.acc == .trsWo || f.acc == .trsRo) ∧ req ≠ reqTrusted then (sDenied, 0)
      else
        let v := d.seen req b a r
        let held := d.hiCap.find? fun h => h.1 == req && h.2.1 == a
        (sOk, (held.map (·.2.2)).getD v)

/-- A read of a LO register captures the matching HI register for the requester (R255). -/
def Dev.capture (d : Dev) (req b a : Nat) : Dev :=
  match rowAt a with
  | none => d
  | some r =>
    match loPairs.find? fun p => p.1 == r.base with
    | none => d
    | some p =>
      match rowAt (a + p.2) with
      | none => d
      | some h =>
        let v := d.seen req b (a + p.2) h
        { d with hiCap := (d.hiCap.filter fun x => !(x.1 == req && x.2.1 == a + p.2)) ++ [(req, a + p.2, v)] }

/-- A register read: status, value, and the device after it. -/
def Dev.busR (d : Dev) (req a width : Nat) : Nat × Nat × Dev :=
  match blockOf a with
  | some b =>
    if d.islandDown b then (sAbsent, 0, d)
    else
      let r := d.readReg req b a width
      if r.1 = sOk then (sOk, r.2, d.capture req b a) else (r.1, 0, d.reject req a r.1)
  | none =>
    if ctlSpace a then
      if !(d.ctlRight req) then (sDenied, 0, d) else if width ≠ 4 ∨ a % 4 ≠ 0 then (sBadValue, 0, d)
      else
        let r := d.ctlRead a
        (sOk, r.1, r.2)
    else (d.noRegister req a, 0, d)

/-! ### The commands -/

/-- A register access is a matter of a requester of R21; a device that is OFF answers none. -/
def Dev.regWrite (d : Dev) (req a v : Nat) : Dev := if d.sys.off then d else d.busWrite req a 4 v

/-- REGISTER_WRITE: any write, of any width. -/
def execRegisterWrite (req addr width value : Nat) (s : State) : Host.Outcome State Fault Refusal :=
  s.upd fun d => if d.sys.off then d else d.busWrite req addr width value

/-- LO_READ_CAPTURE: a read of a register; one of a LO register captures its HI register. -/
def execLoReadCapture (req addr width : Nat) (s : State) : Host.Outcome State Fault Refusal :=
  s.upd fun d =>
    if d.sys.off then d
    else
      let r := d.busR req addr width
      r.2.2.answer req addr r.1 r.2.1

/-- DBG_REG: an access as requester 7; memory is reached with REG rights as a hart reaches it (R93, R96). -/
def execDbgReg (write : Bool) (addr width value : Nat) (s : State) : Host.Outcome State Fault Refusal :=
  s.upd fun d =>
    if d.debugKilled ∨ d.sys.off then d.jtagBypass
    else if d.jtagReg ∧ (inSram addr width || d.inDram addr width) then
      if write then (d.st addr width value).answer reqJtag addr sOk 0 else d.answer reqJtag addr sOk (d.ld addr width)
    else if write then d.busWrite reqJtag addr width value
    else
      let r := d.busR reqJtag addr width
      r.2.2.answer reqJtag addr r.1 r.2.1

/-- REJCLR of a block. -/
def execRejclr (req : Nat) (block : Fin 29) (value : Nat) (s : State) : Host.Outcome State Fault Refusal :=
  s.upd fun d => d.regWrite req (blockBase block + 0xC) value
/-- SYS_HWD_KICK is written. -/
def execSysHwdKick (req : Nat) (value : Nat) (s : State) : Host.Outcome State Fault Refusal :=
  s.upd fun d => d.regWrite req R.SYS_HWD_KICK value

/-- SYS_TWD_KICK is written. -/
def execSysTwdKick (req : Nat) (value : Nat) (s : State) : Host.Outcome State Fault Refusal :=
  s.upd fun d => d.regWrite req R.SYS_TWD_KICK value

/-- SYS_RSTCTL is written. -/
def execSoftwareReset (req : Nat) (value : Nat) (s : State) : Host.Outcome State Fault Refusal :=
  s.upd fun d => d.regWrite req R.SYS_RSTCTL value

/-- CFG_CLAIM_GO is written, with the feature of the claim and the key. -/
def execCfgClaimGo (req : Nat) (value : Nat) (s : State) : Host.Outcome State Fault Refusal :=
  s.upd fun d => d.regWrite req R.CFG_CLAIM_GO value

/-- SEC_ERASE is written. -/
def execSecErase (req : Nat) (value : Nat) (s : State) : Host.Outcome State Fault Refusal :=
  s.upd fun d => d.regWrite req R.SEC_ERASE value

/-- ITK_CNTCLR is written. -/
def execItkCntclr (req : Nat) (value : Nat) (s : State) : Host.Outcome State Fault Refusal :=
  s.upd fun d => d.regWrite req R.ITK_CNTCLR value

/-- BRD_DJOB_GO.GO is written. -/
def execBrdDjobGo (req : Nat) (s : State) : Host.Outcome State Fault Refusal :=
  s.upd fun d => d.regWrite req R.BRD_DJOB_GO 1

/-- BRC_GO.GO is written. -/
def execBrcGo (req : Nat) (s : State) : Host.Outcome State Fault Refusal :=
  s.upd fun d => d.regWrite req R.BRC_GO 1

/-- BRC_OUTSIZE is written. -/
def execBrcOutsize (req : Nat) (value : Nat) (s : State) : Host.Outcome State Fault Refusal :=
  s.upd fun d => d.regWrite req R.BRC_OUTSIZE value

/-- RAS_STATCLR is written. -/
def execRasStatclr (req : Nat) (value : Nat) (s : State) : Host.Outcome State Fault Refusal :=
  s.upd fun d => d.regWrite req R.RAS_STATCLR value

/-- RAS_ERR.VALID is written 1. -/
def execRasErrClear (req : Nat) (s : State) : Host.Outcome State Fault Refusal :=
  s.upd fun d => d.regWrite req R.RAS_ERR 0x80000000

/-- IMP_ERR.VALID is written 1. -/
def execImpErrClear (req : Nat) (s : State) : Host.Outcome State Fault Refusal :=
  s.upd fun d => d.regWrite req R.IMP_ERR 0x80000000

/-- NZM_STATEWR is written. -/
def execNzmStatewr (req : Nat) (nozzle : Nat) (state4 : Fin 4) (s : State) : Host.Outcome State Fault Refusal :=
  s.upd fun d => d.regWrite req R.NZM_STATEWR (nozzle % 2 ^ 18 + state4.val * 2 ^ 18)

/-- CAL_PB4REQLO or CAL_PB4REQHI is written. -/
def execCalPb4req (req : Nat) (hi : Bool) (heads : Nat) (s : State) : Host.Outcome State Fault Refusal :=
  s.upd fun d => d.regWrite req (if hi then R.CAL_PB4REQHI else R.CAL_PB4REQLO) heads

/-- POS_CMPc_ARM.ARM is written. -/
def execCompareArm (req : Nat) (cmp : Fin 16) (lateOk : Bool) (s : State) : Host.Outcome State Fault Refusal :=
  s.upd fun d => d.regWrite req (R.POS_CMP_ARM cmp) (1 + 2 * lateOk.toNat)

/-- POS_CMPc_ARM.DISARM is written. -/
def execCompareDisarm (req : Nat) (cmp : Fin 16) (s : State) : Host.Outcome State Fault Refusal :=
  s.upd fun d => d.regWrite req (R.POS_CMP_ARM cmp) 4

/-- FIR_HGn_COMMIT.COMMIT is written. -/
def execFirCommit (req : Nat) (hg : Fin 8) (s : State) : Host.Outcome State Fault Refusal :=
  s.upd fun d => d.regWrite req (R.FIR_HG_COMMIT hg) 1

/-- FIR_STATCLR is written. -/
def execFirStatclr (req : Nat) (value : Nat) (s : State) : Host.Outcome State Fault Refusal :=
  s.upd fun d => d.regWrite req R.FIR_STATCLR value

/-- HLK_LANEl_CTL.RETRAIN is written. -/
def execRetrain (req : Nat) (lane : Fin 24) (s : State) : Host.Outcome State Fault Refusal :=
  s.upd fun d => d.regWrite req (R.HLK_LANE_CTL lane) 1

/-- HLK_LANEl_CTL.ERRCLR is written. -/
def execErrclr (req : Nat) (lane : Fin 24) (s : State) : Host.Outcome State Fault Refusal :=
  s.upd fun d => d.regWrite req (R.HLK_LANE_CTL lane) 2

/-- SRD_LANEl_CTL is written with a value of PD. -/
def execSrdPd (req : Nat) (lane : Fin 42) (pd : Fin 2) (s : State) : Host.Outcome State Fault Refusal :=
  s.upd fun d => d.regWrite req (R.SRD_LANE_CTL lane) (setBits (d.rd (R.SRD_LANE_CTL lane)).toNat 0 1 pd.val)

/-- SRD_LANEl_CTL is written with a value of PRBS. -/
def execSrdPrbs (req : Nat) (lane : Fin 42) (prbs : Fin 4) (s : State) : Host.Outcome State Fault Refusal :=
  s.upd fun d => d.regWrite req (R.SRD_LANE_CTL lane) (setBits (d.rd (R.SRD_LANE_CTL lane)).toNat 4 2 prbs.val)

/-- SRD_LANEl_CTL is written with a value of LOOP. -/
def execSrdLoop (req : Nat) (lane : Fin 42) (loop : Fin 4) (s : State) : Host.Outcome State Fault Refusal :=
  s.upd fun d => d.regWrite req (R.SRD_LANE_CTL lane) (setBits (d.rd (R.SRD_LANE_CTL lane)).toNat 8 2 loop.val)

/-- SLU_STATCLR is written. -/
def execSluStatclr (req : Nat) (value : Nat) (s : State) : Host.Outcome State Fault Refusal :=
  s.upd fun d => d.regWrite req R.SLU_STATCLR value

/-- CAM_TRGk_ARM.ARM is written. -/
def execTrgArm (req : Nat) (trg : Fin 4) (lateOk : Bool) (s : State) : Host.Outcome State Fault Refusal :=
  s.upd fun d => d.regWrite req (R.CAM_TRG_ARM trg) (1 + 2 * lateOk.toNat)

/-- CAM_TRGk_ARM.STOP is written. -/
def execTrgStop (req : Nat) (trg : Fin 4) (s : State) : Host.Outcome State Fault Refusal :=
  s.upd fun d => d.regWrite req (R.CAM_TRG_ARM trg) 4

/-- CAM_TRGk_COMMIT.COMMIT is written. -/
def execCamTrgCommit (req : Nat) (trg : Fin 4) (s : State) : Host.Outcome State Fault Refusal :=
  s.upd fun d => d.regWrite req (R.CAM_TRG_COMMIT trg) 1

/-- CAM_FDSIZE is written. -/
def execCamFdsize (req : Nat) (value : Nat) (s : State) : Host.Outcome State Fault Refusal :=
  s.upd fun d => d.regWrite req R.CAM_FDSIZE value

/-- CAM_STATCLR is written. -/
def execCamStatclr (req : Nat) (value : Nat) (s : State) : Host.Outcome State Fault Refusal :=
  s.upd fun d => d.regWrite req R.CAM_STATCLR value

/-- VIS_TBLDATA is written. -/
def execVisTbldata (req : Nat) (value : Nat) (s : State) : Host.Outcome State Fault Refusal :=
  s.upd fun d => d.regWrite req R.VIS_TBLDATA value

/-- INS_STATCLR is written. -/
def execInsStatclr (req : Nat) (value : Nat) (s : State) : Host.Outcome State Fault Refusal :=
  s.upd fun d => d.regWrite req R.INS_STATCLR value

/-- LMP_CHc_COMMIT.COMMIT is written. -/
def execLmpCommit (req : Nat) (chain : Fin 4) (s : State) : Host.Outcome State Fault Refusal :=
  s.upd fun d => d.regWrite req (R.LMP_CH_COMMIT chain) 1

/-- PGF_CTL.RETRAIN is written for ports. -/
def execPgfRetrain (req : Nat) (ports : Nat) (s : State) : Host.Outcome State Fault Refusal :=
  s.upd fun d => d.regWrite req R.PGF_CTL ports

/-- PGF_STATCLR is written. -/
def execPgfStatclr (req : Nat) (value : Nat) (s : State) : Host.Outcome State Fault Refusal :=
  s.upd fun d => d.regWrite req R.PGF_STATCLR value

/-- ETH_PORTp_TXKICK.KICK is written. -/
def execEthTxkick (req : Nat) (port : Fin 4) (s : State) : Host.Outcome State Fault Refusal :=
  s.upd fun d => d.regWrite req (R.ETH_PORT_TXKICK port) 1

/-- ETH_TXTS_POP.POP is written. -/
def execEthTxtsPop (req : Nat) (s : State) : Host.Outcome State Fault Refusal :=
  s.upd fun d => d.regWrite req R.ETH_TXTS_POP 1

/-- ETH_PORTp_RXSIZE or ETH_PORTp_TXSIZE is written. -/
def execEthRingSize (req : Nat) (port : Fin 4) (rx : Bool) (value : Nat) (s : State) : Host.Outcome State Fault Refusal :=
  s.upd fun d => d.regWrite req (if rx then R.ETH_PORT_RXSIZE port else R.ETH_PORT_TXSIZE port) value

/-- ETH_PORTp_CLR.CLR is written. -/
def execEthCounterClr (req : Nat) (port : Fin 4) (s : State) : Host.Outcome State Fault Refusal :=
  s.upd fun d => d.regWrite req (R.ETH_PORT_CLR port) 1

/-- PTP_SNAP.SNAP is written. -/
def execPtpSnap (req : Nat) (s : State) : Host.Outcome State Fault Refusal :=
  s.upd fun d => d.regWrite req R.PTP_SNAP 1

/-- PTP_RATE is written. -/
def execPtpRate (req : Nat) (value : Nat) (s : State) : Host.Outcome State Fault Refusal :=
  s.upd fun d => d.regWrite req R.PTP_RATE value

/-- PTP_STEP is written. -/
def execPtpStep (req : Nat) (value : Nat) (s : State) : Host.Outcome State Fault Refusal :=
  s.upd fun d => d.regWrite req R.PTP_STEP value

/-- DMC_FREQ is written. -/
def execDmcFreq (req : Nat) (value : Nat) (s : State) : Host.Outcome State Fault Refusal :=
  s.upd fun d => d.regWrite req R.DMC_FREQ value

/-- DMC_STATCLR is written. -/
def execDmcStatclr (req : Nat) (value : Nat) (s : State) : Host.Outcome State Fault Refusal :=
  s.upd fun d => d.regWrite req R.DMC_STATCLR value

/-- DMC_UEADDRHI.VALID is written 1. -/
def execDmcUeaddrClear (req : Nat) (s : State) : Host.Outcome State Fault Refusal :=
  s.upd fun d => d.regWrite req R.DMC_UEADDRHI 0x80000000

/-- DMA_CHc_KICK.KICK is written. -/
def execDmaKick (req : Nat) (chan : Fin 16) (s : State) : Host.Outcome State Fault Refusal :=
  s.upd fun d => d.regWrite req (R.DMA_CH_KICK chan) 1

/-- DMA_CTL.RESET is written. -/
def execDmaReset (req : Nat) (s : State) : Host.Outcome State Fault Refusal :=
  s.upd fun d => d.regWrite req R.DMA_CTL 1

/-- DMA_CHc_SIZE is written. -/
def execDmaRingSize (req : Nat) (chan : Fin 16) (value : Nat) (s : State) : Host.Outcome State Fault Refusal :=
  s.upd fun d => d.regWrite req (R.DMA_CH_SIZE chan) value

/-- FLT_INJ is written. -/
def execFltInj (req : Nat) (value : Nat) (s : State) : Host.Outcome State Fault Refusal :=
  s.upd fun d => d.regWrite req R.FLT_INJ value

/-- FLT_FWRAISE is written. -/
def execFltFwraise (req : Nat) (value : Nat) (s : State) : Host.Outcome State Fault Refusal :=
  s.upd fun d => d.regWrite req R.FLT_FWRAISE value

/-- FLT_PENDk is written. -/
def execFltPendClear (req : Nat) (word : Fin 8) (value : Nat) (s : State) : Host.Outcome State Fault Refusal :=
  s.upd fun d => d.regWrite req (R.FLT_PEND word) value

/-- FLT_SAFECTL is written. -/
def execFltSafectlExit (req : Nat) (value : Nat) (s : State) : Host.Outcome State Fault Refusal :=
  s.upd fun d => d.regWrite req R.FLT_SAFECTL value

/-- FLT_HISTCLR is written. -/
def execFltHistclr (req : Nat) (value : Nat) (s : State) : Host.Outcome State Fault Refusal :=
  s.upd fun d => d.regWrite req R.FLT_HISTCLR value

/-- A command to head boards: HLK_CMD is written with its fields, then HLK_CMDGO.GO (R286). -/
def Dev.headCmd (d : Dev) (req hg head opc arg : Nat) (all : Bool) : Dev :=
  (d.regWrite req R.HLK_CMD (hg * 16 + head * 256 + all.toNat * 2048 + opc * 4096 + arg % 2 ^ 16 * 2 ^ 16)).regWrite req R.HLK_CMDGO 1

/-- NOP. -/
def execHlkNop (req : Nat) (hg head : Fin 8) (all : Bool) (arg : Nat) (s : State) : Host.Outcome State Fault Refusal :=
  s.upd fun d => d.headCmd req hg head 0 arg all

/-- SPIT: ARG spit cycles. -/
def execSpit (req : Nat) (hg head : Fin 8) (all : Bool) (arg : Nat) (s : State) : Host.Outcome State Fault Refusal :=
  s.upd fun d => d.headCmd req hg head 1 arg all

/-- WAVESET: ARG selects the waveform set. -/
def execWaveset (req : Nat) (hg head : Fin 8) (all : Bool) (arg : Nat) (s : State) : Host.Outcome State Fault Refusal :=
  s.upd fun d => d.headCmd req hg head 2 arg all

/-- HEATER: ARG is the set point in 1/16 degC, signed. -/
def execHeater (req : Nat) (hg head : Fin 8) (all : Bool) (arg : Nat) (s : State) : Host.Outcome State Fault Refusal :=
  s.upd fun d => d.headCmd req hg head 3 arg all

/-- HEADRESET. -/
def execHeadreset (req : Nat) (hg head : Fin 8) (all : Bool) (arg : Nat) (s : State) : Host.Outcome State Fault Refusal :=
  s.upd fun d => d.headCmd req hg head 4 arg all

/-- A command that the board defines: opcodes 8 to 15. -/
def execBoardDefinedCommand (req : Nat) (hg head opc : Fin 8) (all : Bool) (arg : Nat) (s : State) : Host.Outcome State Fault Refusal :=
  s.upd fun d => d.headCmd req hg head (8 + opc.val) arg all

end Sys2Proof.Machine
end

