-- ==== Sys2Proof/Machine/Itk.lean ====
section
/-! DEFINITION. Job intake (R97 to R120): datagrams and messages of the job protocol, sessions, sequence and
acknowledgement, requests and their answers, the page store, and the timers. -/

namespace Sys2Proof.Machine

/-! ### Messages (R97 to R99) -/

/-- ITK takes messages from CONFIG_DONE on, but not in CONFIG_FAIL (R97). -/
def Dev.itkUp (d : Dev) : Bool := d.configDone && d.st? != stConfigFail && !d.sys.off

/-- The rules of R98 that a message's own fields can break. -/
def vjpFmtOk (m : VjpMsg) : Bool :=
  m.flags < 4 && m.slot < 8 && m.type < 256 && m.body.length % 8 == 0 && m.body.length ≤ 8912 && m.tag.length == 16 &&
  (m.type != 1 || (m.sid == 0 && m.seq == 0))

/-- A message from the bytes of a datagram, `none` when they break a rule of R97 or R98. -/
def parseVjp (b : List Byte) : Option VjpMsg :=
  let f (o n : Nat) : Nat := fieldLE b o n
  let n := b.length
  let m : VjpMsg := { flags := f 6 1, slot := f 7 1, sid := f 8 4, seq := f 0x0C 4, ack := f 0x10 4, sack := f 0x14 4,
                      type := f 3 1, body := (b.drop 32).take (n - 48), tag := b.drop (n - 16) }
  if 48 ≤ n && n ≤ 8960 && n % 8 == 0 && f 0 2 == 0x4A56 && f 2 1 == 1 && f 4 2 == n && f 0x18 8 == 0 && vjpFmtOk m then some m
  else none

/-- The TAG of a message verifies under a key (R99). -/
def vjpTagOk (key : List Byte) (m : VjpMsg) : Bool :=
  (hmacSha256 key (vjpBytes m.flags m.slot m.sid m.seq m.ack m.sack m.type m.body)).take 16 == m.tag

/-- A message dropped under R98. -/
def Dev.fmtDrop (d : Dev) : Dev := d.incSat F.ITK_DROP_FMT_COUNT

/-- A message dropped under R99: line 2, and source 45 for more than 1,000 of them in 1 s. -/
def Dev.authDrop (d : Dev) : Dev :=
  let d1 := (d.incSat F.ITK_DROP_AUTH_COUNT).put F.ITK_IRQ_STAT_AUTHDROP 1
  let now := d.c
  let l := (d.itk.authC ++ [now]).filter fun t => now < t + 1000000000
  let d2 := d1.onItk fun t => { t with authC := l.drop (l.length - 1001) }
  d2.when (1000 < l.length) fun d => d.report 45

/-- A session slot. -/
def Dev.sess (d : Dev) (n : Nat) : Sess := nth d.itk.sess n {}

/-! ### Sessions (R101, R102) -/

/-- The EVENTs of recovery that a session may carry leave on it, and are then sent (R126). -/
def Dev.flushEvents (d : Dev) (n : Nat) : Dev :=
  let mine (e : Nat × Nat × Nat × Nat) : Bool := e.2.1 == 0xFF || d.sessZone n e.2.1
  if !d.decides then d
  else
    let d1 := d.each (d.itk.events.filter mine) fun d e => d.sendSeq n 0x22 (eventBody e.1 e.2.1 e.2.2.1 e.2.2.2)
    d1.onItk fun t => { t with events := t.events.filter fun e => !(mine e) }

/-- OPEN (R101): NONCE_D and a non-zero SID are drawn, the session key is derived, and OPEN_OK goes out under it. -/
def Dev.openSess (d : Dev) (via : Nat) (m : VjpMsg) : Dev :=
  let n := m.slot
  if !(d.running || d.st? = stSafe) then d.fmtDrop
  else match d.sec.keys.find? fun k => k.slot == d.get (F.ITK_SESS_CFG_KEYSLOT n) && k.kind == 4 && bitB k.use 1 with
    | none => d.authDrop
    | some k =>
      if d.get (F.ITK_SESS_CFG_ENABLE n) = 0 ∨ !(vjpTagOk k.key m) then d.authDrop
      else if m.body.length ≠ 24 ∨ !(zeroBytes m.body 16 8) then d.fmtDrop
      else
        let r1 := d.fresh 128
        let r2 := r1.2.fresh 32
        let sid := 1 + r2.1 % (2 ^ 32 - 1)
        let nd := leBytes 16 r1.1
        let key := kdf k.key (ascii "VJPSES") (m.body.take 16 ++ nd ++ leBytes 4 sid) 256
        let now := d.c
        let d1 := r2.2.when (d.sessState n == 1) fun d => d.endSession n
        let d2 := d1.updSess n fun _ => { key := key, via := via, lastC := now }
        let d3 := ((d2.put (F.ITK_SESS_STAT_STATE n) 1).put (F.ITK_SESS_SID_SID n) sid).put F.ITK_IRQ_STAT_SESSION 1
        (d3.wire n 2 0 0 (leBytes 1 sOk ++ leBytes 3 0 ++ leBytes 4 sid ++ nd)).flushEvents n

/-- An acknowledgement only: it carries the next SEQ and uses none up (R103). -/
def Dev.ackOnly (d : Dev) (n : Nat) : Dev :=
  let s := d.sess n
  let seq := ((s.waiting.head?).map (·.seq)).getD s.txNext
  (d.updSess n fun s => { s with ackDue := false }).wire n 4 seq 0 []

/-- The peer's ACK and SACK are taken (R103, R104): an advance of ACK frees what it passes and restarts the timer. -/
def Dev.takeAck (d : Dev) (n ack sack : Nat) : Dev :=
  let s := d.sess n
  if later32 ack s.peerAck then
    let un := s.unacked.filter fun x => !(later32 ack x.seq)
    let rto := d.get (F.ITK_SESS_CFG2_RTO n)
    let now := d.c
    let d1 := d.updSess n fun s =>
      { s with peerAck := ack, peerSack := sack, unacked := un, expiries := 0, interval := rto, timerC := now }
    d1.put (F.ITK_SESS_STAT_UNACKED n) un.length
  else d.when (ack == s.peerAck) fun d => d.updSess n fun s => { s with peerSack := sack }

/-! ### Answers -/

/-- A RESULT to the session that sent a request, named by slot, SID and SEQ; none when that session has ended. -/
def Dev.resultTo (d : Dev) (who : Nat × Nat × Nat) (type status state reason item x : Nat) : Dev :=
  d.when (d.get (F.ITK_SESS_SID_SID who.1) == who.2.1) fun d => d.result who.1 who.2.2 type status state reason item x

/-- STATE of an item with no record, and of a request that is refused before its item is looked up (R109, R115). -/
def noItem : Nat := 0xFF

/-! ### The page store (R108) -/

/-- A page exists from the first SUBMIT or DATA that names it. -/
def Dev.ensurePage (d : Dev) (p : Nat) : Dev :=
  let now := d.c
  d.when (d.page? p).isNone fun d => d.onItk fun t => { t with pages := t.pages ++ [{ page := p, since := now }] }

/-- Changes a page. -/
def Dev.onPage (d : Dev) (p : Nat) (f : Page → Page) : Dev :=
  d.onItk fun t => { t with pages := t.pages.map fun x => if x.page = p then f x else x }

/-- A block of a page is put in place of the one with its index. -/
def Dev.putBlk (d : Dev) (p : Nat) (b : Blk) : Dev :=
  d.onPage p fun x => { x with blks := (x.blks.filter fun y => y.idx != b.idx) ++ [b] }

/-- A block is discarded and its room freed. -/
def Dev.dropBlk (d : Dev) (p idx : Nat) : Dev := d.onPage p fun x => { x with blks := x.blks.filter fun y => y.idx != idx }

/-- First fit in the page store for a block (entry 9). -/
def Dev.storeRoom (d : Dev) (total : Nat) : Option Nat :=
  let base := dramBase + 2 ^ 20 * d.get F.ITK_PAGEBASE_MIB
  let top := base + 2 ^ 20 * d.get F.ITK_PAGESIZE_MIB
  let all := (d.itk.pages.map fun p => p.blks.map fun b => (b.base, b.total)).flatten
  (base :: all.map fun x => x.1 + x.2).find? fun a => a + total ≤ top && all.all fun x => !(rangesMeet a total x.1 x.2)

/-- How far from byte 0 the parts of a block reach without a gap, in at most as many rounds as there are parts. -/
def reachOf (got : List (Nat × Nat)) : Nat → Nat → Nat
  | 0, n => n
  | k + 1, n => reachOf got k (got.foldl (fun x g => if g.1 ≤ x then max x (g.1 + g.2) else x) n)

/-- The blocks that completed before the stream header are checked against it; one that fails gets its
INTEGRITY now (R135). -/
def Dev.deferred (d : Dev) (p : Nat) (h : StreamHdr) : Dev :=
  let late := ((d.page? p).map fun x => x.blks.filter fun b => b.complete && b.idx != 0).getD []
  let bad := late.filter fun b => !((blkSelfOk (d.ldBs b.base b.total)).any (blkMatches h b.idx))
  d.each bad fun d b => (d.dropBlk p b.idx).resultTo b.who 0x11 sIntegrity 0 0 0 (p + b.idx * 2 ^ 32)

/-- The block check of R135, run when a block has arrived whole: its status, and the device after it. -/
def Dev.blockDone (d : Dev) (p : Nat) (b : Blk) : Nat × Dev :=
  let bs := d.ldBs b.base b.total
  let fail : Nat × Dev := (sIntegrity, d.dropBlk p b.idx)
  let keep := d.putBlk p { b with complete := true }
  if b.idx = 0 then
    match parseStream (bs.take 128), blkSelfOk (bs.drop 128) with
    | some h, some k =>
      if blkMatches h 0 k then
        let d1 := ((keep.onPage p fun x => { x with hdr := some h }).deferred p h)
        (sOk, d1.each ((d1.itk.items.filter fun i => i.page == p).map (·.id)) Dev.blocksCheck)
      else fail
    | _, _ => fail
  else match blkSelfOk bs with
    | none => fail
    | some k => if (d.pageHdr p).all fun h => blkMatches h b.idx k then (sOk, keep) else fail

/-- The body of a DATA, checked in the order of R108 and placed: its status, and the device after it. -/
def Dev.takeData (d : Dev) (who : Nat × Nat × Nat) (b : List Byte) : Nat × Dev :=
  let p := fieldLE b 0 4
  let ix := fieldLE b 4 4
  let part := fieldLE b 8 4
  let total := fieldLE b 12 4
  let n := min (b.length - 16) (total - part)
  let old := (d.page? p).bind fun x => x.blks.find? fun y => y.idx == ix
  if 65535 < p ∨ 65535 < ix ∨ total ≤ part ∨ (old.any fun x => x.total != total) ∨ total - part + 8 ≤ b.length - 16 then (sBadValue, d)
  else if old.any (·.complete) then (sDuplicate, d)
  else match (match old with
    | some x => some x.base
    | none => d.storeRoom total) with
    | none => (sNoRoom, (d.put F.ITK_IRQ_STAT_NOROOM 1).when (d.get F.ITK_PAGESIZE_MIB != 0) fun d => d.report 46)
    | some base =>
      let got := ((old.map (·.got)).getD []) ++ [(part, n)]
      let blk : Blk := { idx := ix, total := total, got := got, base := base, complete := false, who := who }
      let now := d.c
      let d1 := (d.ensurePage p).stBs (base + part) ((b.drop 16).take n)
      let d2 := (d1.putBlk p blk).onPage p fun x => { x with since := max x.since now }
      if total ≤ reachOf got got.length 0 then d2.blockDone p blk else (sOk, d2)

/-! ### SUBMIT (R107, R111, R112) -/

/-- The item that a SUBMIT body describes, in a record slot. -/
def itemOfSubmit (b : List Byte) (sess slot : Nat) : Item :=
  let f (o n : Nat) : Nat := fieldLE b o n
  { id := f 0 8, zseq := f 8 6, zone := f 0x0E 1, trig := f 0x0F 1, trigArg := f 0x14 1, lines := f 0x10 4,
    lateOk := f 0x15 1 % 2 == 1, link := f 0x16 2, offset := f 0x18 6, page := f 0x20 4, blocks := f 0x24 4,
    fields := (b.drop 64).take (f 0x28 4), sess := sess, slot := slot, state := isAccepted }

/-- The rules of R107 on a SUBMIT body. -/
def Dev.submitOk (d : Dev) (b : List Byte) : Bool :=
  let f (o n : Nat) : Nat := fieldLE b o n
  let z := f 0x0E 1
  let t := f 0x0F 1
  64 ≤ b.length && b.length == 64 + ceilDiv (f 0x28 4) 8 * 8 && f 0 8 != 0 && f 8 6 != 0 && z < 16 &&
  d.get (F.ITK_ZONE_CFG_ENABLE z) == 1 && t < 3 && 1 ≤ f 0x10 4 && f 0x10 4 ≤ 4194304 &&
  (if t == 0 then f 0x14 1 < 4 else f 0x14 1 == 0) && f 0x15 1 < 2 && f 0x1E 2 == 0 && f 0x20 4 ≤ 65535 &&
  1 ≤ f 0x24 4 && f 0x24 4 ≤ 65536 && f 0x28 4 ≤ 8832 && zeroBytes b 0x2C 20

/-- An item recovered as ACCEPTED gets its fields and BLOCKS again (R120, R126). -/
def Dev.resupply (d : Dev) (b : List Byte) (id : Nat) : Dev :=
  let j := itemOfSubmit b 0 0
  let d1 := (d.updItem id fun i => { i with fields := j.fields, blocks := j.blocks }).ensurePage j.page
  (d1.twInput 1 j.zone 0 ([id, j.blocks, 0] ++ j.fields.map (·.toNat))).blocksCheck id

/-- A SUBMIT that has passed its checks takes a record slot: the record is written (R124), and an ACTIVE sends it to
its partner (R384). A failed read-back refuses it (R112). -/
def Dev.submitWrite (d : Dev) (who : Nat × Nat × Nat) (b : List Byte) (slot : Nat) : Dev :=
  let i := itemOfSubmit b who.1 slot
  let r := d.writeRecord slot i d.replicates
  let d1 := r.1.onItk fun t => { t with lastSlot := slot }
  if !r.2 then (d1.quarantine slot).resultTo who 0x10 sIntegrity noItem 0 i.id i.zseq
  else
    let pair := d.replicates
    let d2 := (d1.setLastZseq i.zone i.zseq).ensurePage i.page
    let d3 := d2.onItk fun t => { t with receiving := some { item := i, who := who, jacked := !pair } }
    d3.when pair fun d =>
      let d4 := d.twSend 0x10 (slot :: (d.ldBs (slotAddr slot) 0x30).map (·.toNat))
      let d5 := d4.twInput 1 i.zone 0 ([i.id, i.blocks, i.sess] ++ i.fields.map (·.toNat))
      d5.onTwn fun t => { t with jackWait := t.jackWait ++ [slot] }

/-- Checks 4 to 7 of R111. -/
def Dev.submitTail (d : Dev) (who : Nat × Nat × Nat) (b : List Byte) : Dev :=
  let j := itemOfSubmit b who.1 0
  let refuse (d : Dev) (st : Nat) : Dev := d.resultTo who 0x10 st noItem 0 j.id j.zseq
  match d.findItem j.id with
  | some i =>
    let d1 := d.when (i.blocks == 0 && i.zseq == j.zseq && i.state == isAccepted) fun d => d.resupply b i.id
    d1.resultTo who 0x10 sDuplicate i.state i.reason i.id i.zseq
  | none =>
    if j.zseq ≠ d.lastZseq j.zone + 1 then refuse d sSequence
    else match d.nextSlot with
      | none => refuse ((d.put F.ITK_IRQ_STAT_NOROOM 1).report 26) sNoRoom
      | some slot =>
        if d.get F.ITK_PAGESIZE_MIB = 0 ∨ d.get (F.ITK_ZONE_CFG_MAXLIVE j.zone) ≤ d.liveCount j.zone then
          refuse (d.put F.ITK_IRQ_STAT_NOROOM 1) sNoRoom
        else if j.trig = 2 ∧ !j.lateOk ∧ !(later48 j.offset (d.zonePos j.zone)) then refuse d sLate
        else if d.get F.TWN_STAT_ACCHOLD = 1 then refuse d sBusy
        else d.submitWrite who b slot

/-- Checks 1 to 3 of R111; the rest follows when no SUBMIT before it is being accepted. -/
def Dev.submitHead (d : Dev) (n : Nat) (m : VjpMsg) : Dev :=
  let b := m.body
  let who := (n, m.sid, m.seq)
  let refuse (st : Nat) : Dev := d.resultTo who 0x10 st noItem 0 (fieldLE b 0 8) (fieldLE b 8 6)
  if d.get (F.ITK_SESS_CFG2_RIGHTS n) % 2 = 0 then refuse sDenied
  else if b.length < 64 then refuse sBadValue
  else if !(d.sessZone n (fieldLE b 0x0E 1)) then refuse sDenied
  else if !(d.submitOk b) then refuse sBadValue
  else if !d.running ∨ !d.decides ∨ d.stop then refuse sBadState
  else if d.itk.receiving.isSome ∨ d.itk.submitQ ≠ [] then d.onItk fun t => { t with submitQ := t.submitQ ++ [(n, m)] }
  else d.submitTail who b

/-- The SUBMITs that wait are checked in order until one of them is being accepted. -/
def Dev.submitNext : Nat → Dev → Dev
  | 0, d => d
  | k + 1, d =>
    match d.itk.receiving, d.itk.submitQ with
    | none, (n, m) :: r => Dev.submitNext k ((d.onItk fun t => { t with submitQ := r }).submitTail (n, m.sid, m.seq) m.body)
    | _, _ => d

/-- The record is durable, on both chips of a pair: the item is ACCEPTED and the ACCEPT leaves (R112). A refusal
kept for it makes it REFUSED at once (R119). -/
def Dev.accept (d : Dev) (r : Receiving) : Dev :=
  let i := r.item
  let now := d.c
  let d1 := (d.onItk fun t => { t with items := t.items ++ [i], receiving := none }).syncLive i.zone
  let d2 := (d1.resultTo r.who 0x10 sOk isAccepted 0 i.id i.zseq).blocksCheck i.id
  let mine (x : Nat × Nat × Nat) : Bool := i.link != 0 && x.1 == i.link && x.2.1 == i.id
  let d3 := d2.when (d2.itk.refusals.any fun x => mine x && now < x.2.2 + 10000000000) fun d => d.finalise i.id isNotPrinted 0x08 false
  let d4 := d3.onItk fun t => { t with refusals := t.refusals.filter fun x => !(mine x) }
  d4.submitNext d4.itk.submitQ.length

/-! ### The other requests -/

/-- CANCEL (R115). -/
def Dev.cancelReq (d : Dev) (n : Nat) (m : VjpMsg) : Dev :=
  let id := fieldLE m.body 0 8
  let res (d : Dev) (st state reason zseq : Nat) : Dev := d.result n m.seq 0x12 st state reason id zseq
  if !d.decides then res d sBadState noItem 0 0
  else match d.findItem id with
    | none => res d sAbsent noItem 0 0
    | some i =>
      if !(d.sessZone n i.zone) then res d sDenied noItem 0 0
      else if isFiring ≤ i.state ∨ i.stuck then res d sBadState i.state i.reason i.zseq
      else
        let d1 := d.finalise id isCancelled 0x0F false
        let d2 := d1.onItk fun t => { t with bound := upd t.bound i.zone fun l => l.filter fun x => x.1 != id }
        let j := (d2.findItem id).getD i
        res d2 sOk j.state j.reason i.zseq

/-- QUERY (R109); a FENCED chip answers BAD_STATE (R392). -/
def Dev.queryReq (d : Dev) (n : Nat) (m : VjpMsg) : Dev :=
  let id := fieldLE m.body 0 8
  let res (st state reason zseq : Nat) : Dev := d.result n m.seq 0x14 st state reason id zseq
  if d.role = roleFenced then res sBadState noItem 0 0
  else match d.findItem id with
    | none => res sAbsent noItem 0 0
    | some i => if d.sessZone n i.zone then res sOk i.state i.reason i.zseq else res sDenied noItem 0 0

/-- FINAL_ACK (R116): checked whole, then every named item is retired, on both chips of a pair (R384). -/
def Dev.finalAckReq (d : Dev) (n : Nat) (m : VjpMsg) : Dev :=
  let cnt := fieldLE m.body 0 2
  let res (d : Dev) (st : Nat) : Dev := d.result n m.seq 0x13 st 0 0 0 0
  let ids := (List.range cnt).map fun k => fieldLE m.body (8 + 8 * k) 8
  let held := ids.filterMap d.findItem
  if m.body.length ≠ 8 + 8 * cnt ∨ cnt = 0 ∨ 256 < cnt ∨ !(zeroBytes m.body 2 6) then res d sBadValue
  else if !d.decides ∨ held.any fun i => i.live then res d sBadState
  else
    let d1 := d.each held fun d i => d.retire i.id
    let slots := held.map (·.slot)
    res (d1.when d1.replicates fun d => d.twSend 0x12 (slots.length :: slots)) sOk

/-- ZONE_BASE (R122). -/
def Dev.zoneBaseReq (d : Dev) (n : Nat) (m : VjpMsg) : Dev :=
  let z := fieldLE m.body 0 1
  let v := fieldLE m.body 2 6
  let res (d : Dev) (st : Nat) : Dev := d.result n m.seq 0x15 st 0 0 0 0
  if fieldLE m.body 1 1 ≠ 0 then res d sBadValue
  else if !(d.sessZone n z) then res d sDenied
  else if !d.decides then res d sBadState
  else if v ≤ d.lastZseq z then res d sSequence
  else
    let r := d.jwr (markAddr z markAcc v) (markWord v)
    if r.2 then res ((r.1.setLastZseq z v).twInput 7 z 0 [v]) sOk else res r.1 sIntegrity

/-- REG_READ (R118): requester 6. -/
def Dev.regReadReq (d : Dev) (n : Nat) (m : VjpMsg) : Dev :=
  let a := fieldLE m.body 0 5
  if !(zeroBytes m.body 5 3) then d.result n m.seq 0x18 sBadValue 0 0 a 0
  else
    let r := d.busR reqVjp a 4
    r.2.2.result n m.seq 0x18 r.1 0 0 a r.2.1

/-- REG_WRITE (R118): requester 6. -/
def Dev.regWriteReq (d : Dev) (n : Nat) (m : VjpMsg) : Dev :=
  let a := fieldLE m.body 0 5
  if !(zeroBytes m.body 5 3) ∨ !(zeroBytes m.body 12 4) then d.result n m.seq 0x19 sBadValue 0 0 a 0
  else
    let r := d.busW reqVjp a 4 (fieldLE m.body 8 4)
    r.2.result n m.seq 0x19 r.1 0 0 a 0

/-- DATA (R108): a chip that follows takes it from the host only with DATAPATH 1 (R381); an ACTIVE with DATAPATH 0
forwards it. -/
def Dev.dataReq (d : Dev) (n : Nat) (m : VjpMsg) : Dev :=
  let x := fieldLE m.body 0 4 + fieldLE m.body 4 4 * 2 ^ 32
  let res (d : Dev) (st : Nat) : Dev := d.result n m.seq 0x11 st 0 0 0 x
  if m.body.length < 16 then res d sBadValue
  else if (d.role = roleStandby ∨ d.role = roleSyncing) ∧ d.get F.TWN_CFG_DATAPATH = 0 then res d sBadState
  else
    let r := d.takeData (n, m.sid, m.seq) m.body
    if r.1 = sOk then r.2.when (r.2.replicates && r.2.get F.TWN_CFG_DATAPATH == 0) fun d => d.twSend 0x22 (m.body.map (·.toNat))
    else res r.2 r.1

/-- The right a message type needs, as a bit of RIGHTS, and its body length (R100, R106): `none` for a type that
is not the host's to send. -/
def vjpKind (type : Nat) : Option (Option Nat × Nat) :=
  match type with
  | 0x03 => some (none, 0)
  | 0x12 => some (some 1, 8)
  | 0x14 => some (some 0, 8)
  | 0x15 => some (some 0, 8)
  | 0x18 => some (some 2, 8)
  | 0x19 => some (some 3, 16)
  | _ => none

/-- A message whose turn in its session has come is processed (R103, R106). -/
def Dev.vjpProcess (d : Dev) (n : Nat) (m : VjpMsg) : Dev :=
  let res (st state item : Nat) : Dev := d.result n m.seq m.type st state 0 item 0
  let named := if m.type = 0x12 ∨ m.type = 0x14 then fieldLE m.body 0 8 else if m.type = 0x18 ∨ m.type = 0x19 then fieldLE m.body 0 5 else 0
  let state := if m.type = 0x12 ∨ m.type = 0x14 then noItem else 0
  if m.type = 0x10 then d.submitHead n m
  else if m.type = 0x11 then (if d.bit (F.ITK_SESS_CFG2_RIGHTS n) 0 then d.dataReq n m
    else d.result n m.seq 0x11 sDenied 0 0 0 (fieldLE m.body 0 4 + fieldLE m.body 4 4 * 2 ^ 32))
  else if m.type = 0x13 then d.finalAckReq n m
  else match vjpKind m.type with
    | none => res sUnsupported 0 0
    | some (right, len) =>
      if right.any fun r => !(d.bit (F.ITK_SESS_CFG2_RIGHTS n) r) then res sDenied state named
      else if m.body.length ≠ len then res sBadValue state named
      else match m.type with
        | 0x03 => d.endSession n
        | 0x12 => d.cancelReq n m
        | 0x14 => d.queryReq n m
        | 0x15 => d.zoneBaseReq n m
        | 0x18 => d.regReadReq n m
        | _ => d.regWriteReq n m

/-- The message with the SEQ that is next: ACK passes it, and it is processed. -/
def Dev.takeOne (d : Dev) (n : Nat) (m : VjpMsg) : Dev :=
  (d.updSess n fun s => { s with ack := (s.ack + 1) % 2 ^ 32, held := s.held.filter fun h => h.1 != m.seq, ackDue := true }).vjpProcess n m

/-- The held messages that follow without a gap. -/
def Dev.takeHeld : Nat → Dev → Nat → Dev
  | 0, d, _ => d
  | k + 1, d, n =>
    match (d.sess n).held.find? fun h => h.1 == (d.sess n).ack with
    | none => d
    | some h => if d.sessState n = 1 then Dev.takeHeld k (d.takeOne n h.2) n else d

/-- A sequenced message (R103). -/
def Dev.vjpSequenced (d : Dev) (n : Nat) (m : VjpMsg) : Dev :=
  let s := d.sess n
  let gap := (m.seq + 2 ^ 32 - s.ack) % 2 ^ 32
  let now (d : Dev) : Dev := d.when (bitB m.flags 1 && d.sessState n == 1) fun d => d.ackOnly n
  if gap = 0 then now ((d.takeOne n m).takeHeld 64 n)
  else if gap ≤ 63 then
    now (d.updSess n fun s => { s with held := (s.held.filter fun h => h.1 != m.seq) ++ [(m.seq, m)], ackDue := true })
  else
    let d1 := d.incSat F.ITK_DROP_WIN_COUNT
    d1.when (later32 s.ack m.seq) fun d => d.ackOnly n

/-- A whole message from the host, over Ethernet (`via` 0xFFFF) or from a fabric address (R97 to R103, R412). -/
def Dev.vjpIn (d : Dev) (via : Nat) (m : VjpMsg) : Dev :=
  let n := m.slot
  if !d.itkUp then d
  else if !(vjpFmtOk m) then d.fmtDrop
  else if m.type = 0x01 then d.openSess via m
  else if d.sessState n ≠ 1 ∨ m.sid ≠ d.get (F.ITK_SESS_SID_SID n) ∨ !(vjpTagOk (d.sess n).key m) then d.authDrop
  else
    let now := d.c
    let d1 := (d.updSess n fun s => { s with via := via, lastC := now }).takeAck n m.ack m.sack
    if m.type = 0x04 then d1 else d1.vjpSequenced n m

/-- A datagram of an Ethernet port reaches ITK where ITK_NETCFG lets that port and IP version in (R97). -/
def Dev.netLets (d : Dev) (port : Nat) (v6 : Bool) : Bool :=
  d.itkUp && d.bit F.ITK_NETCFG_PORTS port && d.get (if v6 then F.ITK_NETCFG_IPV6 else F.ITK_NETCFG_IPV4) == 1

/-- A message of a type that a command stands for, from an Ethernet port. -/
def Dev.vjpNet (d : Dev) (port : Nat) (v6 : Bool) (m : VjpMsg) (types : Nat → Bool) : Dev :=
  d.when (d.netLets port v6 && types m.type) fun d => d.vjpIn 0xFFFF m

/-! ### The commands: messages -/

/-- VJP_MALFORMED: a datagram that is an IP fragment, or whose bytes break R97 or R98, is counted. -/
def execVjpMalformed (port : Fin 4) (v6 fragment : Bool) (data : List Byte) (s : State) : Host.Outcome State Fault Refusal :=
  s.upd fun d => d.when (d.netLets port v6 && (fragment || (parseVjp data).isNone)) Dev.fmtDrop

/-- OPEN. -/
def execVjpOpen (port : Fin 4) (v6 : Bool) (msg : VjpMsg) (s : State) : Host.Outcome State Fault Refusal :=
  s.upd fun d => d.vjpNet port v6 msg fun t => t == 0x01

/-- CLOSE. -/
def execClose (port : Fin 4) (v6 : Bool) (msg : VjpMsg) (s : State) : Host.Outcome State Fault Refusal :=
  s.upd fun d => d.vjpNet port v6 msg fun t => t == 0x03

/-- ACKONLY from the host. -/
def execAckonly (port : Fin 4) (v6 : Bool) (msg : VjpMsg) (s : State) : Host.Outcome State Fault Refusal :=
  s.upd fun d => d.vjpNet port v6 msg fun t => t == 0x04

/-- SUBMIT. -/
def execSubmit (port : Fin 4) (v6 : Bool) (msg : VjpMsg) (s : State) : Host.Outcome State Fault Refusal :=
  s.upd fun d => d.vjpNet port v6 msg fun t => t == 0x10

/-- DATA. -/
def execVjpData (port : Fin 4) (v6 : Bool) (msg : VjpMsg) (s : State) : Host.Outcome State Fault Refusal :=
  s.upd fun d => d.vjpNet port v6 msg fun t => t == 0x11

/-- CANCEL. -/
def execCancel (port : Fin 4) (v6 : Bool) (msg : VjpMsg) (s : State) : Host.Outcome State Fault Refusal :=
  s.upd fun d => d.vjpNet port v6 msg fun t => t == 0x12

/-- FINAL_ACK. -/
def execFinalAck (port : Fin 4) (v6 : Bool) (msg : VjpMsg) (s : State) : Host.Outcome State Fault Refusal :=
  s.upd fun d => d.vjpNet port v6 msg fun t => t == 0x13

/-- QUERY. -/
def execQuery (port : Fin 4) (v6 : Bool) (msg : VjpMsg) (s : State) : Host.Outcome State Fault Refusal :=
  s.upd fun d => d.vjpNet port v6 msg fun t => t == 0x14

/-- ZONE_BASE. -/
def execZoneBase (port : Fin 4) (v6 : Bool) (msg : VjpMsg) (s : State) : Host.Outcome State Fault Refusal :=
  s.upd fun d => d.vjpNet port v6 msg fun t => t == 0x15

/-- REG_READ. -/
def execRegRead (port : Fin 4) (v6 : Bool) (msg : VjpMsg) (s : State) : Host.Outcome State Fault Refusal :=
  s.upd fun d => d.vjpNet port v6 msg fun t => t == 0x18

/-- REG_WRITE. -/
def execRegWrite (port : Fin 4) (v6 : Bool) (msg : VjpMsg) (s : State) : Host.Outcome State Fault Refusal :=
  s.upd fun d => d.vjpNet port v6 msg fun t => t == 0x19

/-- VJP_UNKNOWN_TYPE: any type that is not the host's to send (R106). -/
def execVjpUnknownType (port : Fin 4) (v6 : Bool) (msg : VjpMsg) (s : State) : Host.Outcome State Fault Refusal :=
  s.upd fun d => d.vjpNet port v6 msg fun t => !([0x01, 0x04, 0x10, 0x11, 0x13].contains t) && (vjpKind t).isNone

/-- PGF_VJP: a message over the fabric; without VJPEN it is dropped (R412). -/
def execPgfVjp (p : Fin 4) (rx : FabRx) (s : State) : Host.Outcome State Fault Refusal :=
  s.upd fun d => d.pgfRx p rx 0x30 fun d =>
    if d.get F.PGF_CFG_VJPEN = 0 then d.incSat F.PGF_DROP_BAD
    else match parseVjp rx.pkt.payload with
      | none => d.when d.itkUp Dev.fmtDrop
      | some m => d.vjpIn rx.pkt.src m

/-- PGF_VJPDATA: a DATA message over the fabric (R412). -/
def execPgfVjpdata (p : Fin 4) (rx : FabRx) (s : State) : Host.Outcome State Fault Refusal :=
  s.upd fun d => d.pgfRx p rx 0x31 fun d =>
    if d.get F.PGF_CFG_VJPEN = 0 then d.incSat F.PGF_DROP_BAD
    else match parseVjp rx.pkt.payload with
      | none => d.when d.itkUp Dev.fmtDrop
      | some m => d.vjpIn rx.pkt.src m

/-! ### The commands: what ITK does of itself -/

/-- ACCEPT: the record write has ended, and in a pair the partner has answered JACK (R112, R384). -/
def execAccept (s : State) : Host.Outcome State Fault Refusal :=
  s.upd fun d =>
    match d.itk.receiving with
    | none => d
    | some r => if r.jacked || !d.replicates then d.accept r else d

/-- ACK_TIMER: a host message has been unacknowledged for 100 µs. -/
def execAckTimer (n : Fin 8) (s : State) : Host.Outcome State Fault Refusal :=
  s.upd fun d => d.when (d.sessState n == 1 && (d.sess n).ackDue) fun d => d.ackOnly n

/-- RETRANSMIT_TIMER (R104): the tenth expiry in a row loses the session. -/
def execRetransmitTimer (n : Fin 8) (s : State) : Host.Outcome State Fault Refusal :=
  s.upd fun d =>
    let x := d.sess n
    if d.sessState n ≠ 1 ∨ x.unacked = [] then d
    else
      let d1 := d.atTime (x.timerC + x.interval * 1000000)
      if 10 ≤ x.expiries + 1 then ((d1.endSession n).put (F.ITK_SESS_STAT_STATE n) 2).report 44
      else
        let shown (q : TxMsg) : Bool :=
          let i := (q.seq + 2 ^ 32 - x.peerAck - 1) % 2 ^ 32
          i < 32 && bitB x.peerSack i
        let now := d1.c
        let iv := min 64 (2 * x.interval)
        let d2 := d1.updSess n fun y => { y with expiries := y.expiries + 1, interval := iv, timerC := now, ackDue := false }
        d2.each (x.unacked.filter fun q => !(shown q)) fun d q => d.wire n q.type q.seq 1 q.body

/-- SESSION_IDLE: no valid message has come for IDLE (R102). -/
def execSessionIdle (n : Fin 8) (s : State) : Host.Outcome State Fault Refusal :=
  s.upd fun d => d.when (d.sessState n == 1) fun d =>
    (d.atTime ((d.sess n).lastC + d.get (F.ITK_SESS_CFG2_IDLE n) * 100000000)).endSession n

/-- QUEUED_MESSAGE_SEND: room among the 256 lets the first waiting message leave (R104). -/
def execQueuedMessageSend (n : Fin 8) (s : State) : Host.Outcome State Fault Refusal :=
  s.upd fun d =>
    let x := d.sess n
    match x.waiting with
    | [] => d
    | m :: r =>
      if d.sessState n ≠ 1 ∨ 256 ≤ x.unacked.length then d
      else
        let tc := if x.unacked = [] then d.c else x.timerC
        let d1 := d.updSess n fun y => { y with waiting := r, unacked := y.unacked ++ [m], ackDue := false, timerC := tc }
        (d1.put (F.ITK_SESS_STAT_UNACKED n) (x.unacked.length + 1)).wire n m.type m.seq 0 m.body

/-- PAGE_FREE (R108): HOLD has passed since the last DATA and the last final state, and no item names the page. -/
def execPageFree (page : Fin 65536) (s : State) : Host.Outcome State Fault Refusal :=
  s.upd fun d =>
    match d.page? page with
    | none => d
    | some p =>
      let named := d.itk.items.any (fun i => i.live && i.page == p.page) || d.itk.receiving.any fun r => r.item.page == p.page
      d.when (!named) fun d =>
        (d.atTime (p.since + d.get F.ITK_PAGECFG_HOLD * 1000000)).onItk fun t => { t with pages := t.pages.filter fun x => x.page != p.page }

/-- FINAL_SEND: a final state that both chips hold leaves on the lowest-numbered open session (R116). -/
def execFinalSend (id : Nat) (s : State) : Host.Outcome State Fault Refusal :=
  s.upd fun d =>
    match d.findItem id with
    | none => d
    | some i => d.when (d.finalDue i) fun d => d.sendFinal i

/-- REFUSAL_HOLD_EXPIRY: a refusal has been kept for 10 s (R119). -/
def execRefusalHoldExpiry (link id : Nat) (s : State) : Host.Outcome State Fault Refusal :=
  s.upd fun d =>
    match d.itk.refusals.find? fun x => x.1 == link && x.2.1 == id with
    | none => d
    | some r => (d.atTime (r.2.2 + 10000000000)).onItk fun t => { t with refusals := t.refusals.filter fun x => x != r }

end Sys2Proof.Machine
end

