-- ==== Sys2Proof/Machine/Mailbox.lean ====
section
/-! DEFINITION. The mailbox (R85 to R88, R394), image updates (R72, R73) and fuse programming (R80). -/

namespace Sys2Proof.Machine

/-! ### Serving a channel -/

/-- Argument `k`, from 0, of the request that a channel holds. -/
def Dev.arg (d : Dev) (n k : Nat) : Nat := (d.rd (R.MBX_REQ_W n (k + 1))).toNat

/-- Request word 0 of a channel. -/
def Dev.reqHead (d : Dev) (n : Nat) : Nat := (d.rd (R.MBX_REQ_W n 0)).toNat

/-- The channel that is served next: waiting channels in round-robin order from channel 0 (R85), but for one whose
UPD_DATA is being written. -/
def Dev.mbxTurn (d : Dev) : Option Nat :=
  ((List.range 4).map fun k => (d.sys.mbxNext + k) % 4).find? fun n => d.bit F.MBX_TPEND_PEND n && d.cfg.updData != some n

/-- A channel is answered: response words, DONE, and line `n`. -/
def Dev.mbxDone (d : Dev) (n status : Nat) (ws : List Nat) : Dev :=
  let h := d.reqHead n
  let d1 := (d.clrBit F.MBX_TPEND_PEND n).wrN (R.MBX_RSP_W n 0) (status + ws.length * 2 ^ 8 + h / 2 ^ 16 % 256 * 2 ^ 16 + h % 256 * 2 ^ 24)
  let d2 := d1.each ws.zipIdx fun d x => d.wrN (R.MBX_RSP_W n (x.2 + 1)) x.1
  let d3 := (d2.put (F.MBX_CTL_BUSY n) 0).put (F.MBX_CTL_DONE n) 1
  (d3.setBit F.MBX_IRQ_STAT_DONE n).emit (.mbx n status ws)

/-- Allowed states of R88: READY onward, READY and PRINTING, READY alone. -/
inductive MbxIn where
  | onward | firing | ready
  deriving DecidableEq, Repr

/-- The device state allows an opcode. -/
def Dev.mbxAllows (d : Dev) : MbxIn → Bool
  | .onward => d.running || d.st? = stSafe
  | .firing => d.running
  | .ready => d.st? = stReady

/-- The opcode, argument count, group (7 for none) and states of a row of R88 or R394. -/
structure MbxRow where
  op : Nat
  len : Nat
  group : Nat
  states : MbxIn

/-- Checks 1 to 4 of R87 on the request of a channel. -/
def Dev.mbxCheck4 (d : Dev) (n : Nat) (r : MbxRow) : Nat :=
  let h := d.reqHead n
  firstFail [(h / 2 ^ 8 % 256 != r.len || h / 2 ^ 24 != 0, sBadValue),
    (r.group != 7 && !(d.bit F.SEC_MBX_ALLOW_GROUP r.group), sDenied), (!(d.mbxAllows r.states), sBadState)]

/-- The round robin goes on after the channel that is served. -/
def Dev.mbxTake (d : Dev) (n : Nat) : Dev := d.onSys fun t => { t with mbxNext := (n + 1) % 4 }

/-- A channel's request is served when it is its turn and its opcode is a row's: checks 1 to 4, then what `f` does;
`f` answers a status, the response words, and `none` where the answer is still to come. -/
def Dev.mbxServe (d : Dev) (n : Nat) (r : MbxRow) (f : Dev → Option (Nat × List Nat) × Dev) : Dev :=
  if d.mbxTurn ≠ some n ∨ d.reqHead n % 256 ≠ r.op then d
  else
    let d1 := d.mbxTake n
    let st := d1.mbxCheck4 n r
    if st ≠ sOk then d1.mbxDone n st []
    else
      let q := f d1
      match q.1 with
      | some (s, ws) => q.2.mbxDone n s ws
      | none => q.2

/-- An answer with no words. -/
def mbxStatus (st : Nat) (d : Dev) : Option (Nat × List Nat) × Dev := (some (st, []), d)

/-- A buffer argument (R87): an address of the trusted core, whose window at 0x1000_0000 reaches DRAM (R17); its
control address, when the buffer lies wholly within shared SRAM or DRAM. -/
def Dev.mbxBuf (d : Dev) (a n : Nat) : Option Nat :=
  if inSram a n then some a
  else
    let x := dramBase + d.get F.SYS_DRAMWIN_WIN * 0x10000000 + (a - 0x10000000)
    if 0x10000000 ≤ a ∧ a + n ≤ 0x20000000 ∧ d.inDram x n then some x else none

/-! ### Reading -/

/-- INFO. -/
def execInfo (n : Fin 4) (s : State) : Host.Outcome State Fault Refusal :=
  s.upd fun d => d.mbxServe n { op := 0x01, len := 0, group := 7, states := .onward } fun d =>
    (some (sOk, [d.cfg.fwVersion, (d.rd R.SEC_STATUS).toNat, (d.rd R.CFG_SEQ).toNat, (d.rd R.CFG_FLOOR).toNat]), d)

/-- DEVPUB: half of Q, as SEC_DEVPUB shows it. -/
def execDevpub (n : Fin 4) (s : State) : Host.Outcome State Fault Refusal :=
  s.upd fun d => d.mbxServe n { op := 0x02, len := 1, group := 7, states := .onward } fun d =>
    let half := d.arg n 0
    if 1 < half then mbxStatus sBadValue d
    else (some (sOk, (List.range 12).map fun k => (secView d (R.SEC_DEVPUB 0) [12 * half + k]).getD 0), d)

/-- KEY_LIST: the loaded slots of a group of 32. -/
def execKeyList (n : Fin 4) (s : State) : Host.Outcome State Fault Refusal :=
  s.upd fun d => d.mbxServe n { op := 0x03, len := 1, group := 7, states := .onward } fun d =>
    let a := d.arg n 0
    if 7 < a then mbxStatus sBadValue d
    else (some (sOk, [(List.range 32).foldl (fun x b => if d.sec.keys.any fun k => k.slot == 32 * a + b then x + 2 ^ b else x) 0]), d)

/-- JNL_READ (R125). -/
def execJnlRead (n : Fin 4) (s : State) : Host.Outcome State Fault Refusal :=
  s.upd fun d => d.mbxServe n { op := 0x10, len := 2, group := 0, states := .onward } fun d =>
    let id := d.arg n 0 + 2 ^ 32 * d.arg n 1
    if id = 0 then mbxStatus sBadValue d
    else match d.findItem id with
      | none => mbxStatus sAbsent d
      | some i =>
        let b := d.ldBs (slotAddr i.slot) 64
        if !(d.recOk i.slot) then mbxStatus sIntegrity ((d.quarantine i.slot).report 25)
        else (some (sOk, (List.range 11).map (fun k => fieldLE b (4 * k) 4) ++ (List.range 4).map fun k => fieldLE b (0x30 + 4 * k) 4), d)

/-- TWN_INFO (R394). -/
def execTwnInfo (n : Fin 4) (s : State) : Host.Outcome State Fault Refusal :=
  s.upd fun d => d.mbxServe n { op := 0x80, len := 0, group := 7, states := .onward } fun d =>
    let v (a : Nat) : Nat := (twnView d a).getD (d.rd a).toNat
    (some (sOk, [v R.TWN_STAT, v R.TWN_EPOCH, v R.TWN_PEPOCH, v R.TWN_PHEALTH]), d)

/-! ### Faults and SAFE -/

/-- The trusted core writes a register on a request's behalf. -/
def Dev.trustedWrite (d : Dev) (a v : Nat) : Option (Nat × List Nat) × Dev :=
  let r := d.writeReg reqTrusted 4 a 4 v
  mbxStatus r.1 (if r.1 = sOk then r.2 else d)

/-- FLT_SETSEV (R8): bits [7:0] source, [10:8] severity. -/
def execFltSetsev (n : Fin 4) (s : State) : Host.Outcome State Fault Refusal :=
  s.upd fun d => d.mbxServe n { op := 0x20, len := 1, group := 1, states := .onward } fun d =>
    let a := d.arg n 0
    let src := a % 256
    if 2 ^ 11 ≤ a then mbxStatus sBadValue d
    else d.trustedWrite (R.FLT_SRC_CFG src) (setBits (d.rd (R.FLT_SRC_CFG src)).toNat (F.FLT_SRC_CFG_SEV src).lo (F.FLT_SRC_CFG_SEV src).width (a / 256))

/-- FLT_INJECT (R469): the argument goes to FLT_INJ. -/
def execFltInject (n : Fin 4) (s : State) : Host.Outcome State Fault Refusal :=
  s.upd fun d => d.mbxServe n { op := 0x21, len := 1, group := 2, states := .onward } fun d => d.trustedWrite R.FLT_INJ (d.arg n 0)

/-- SAFE_ENTER (R472). -/
def execSafeEnter (n : Fin 4) (s : State) : Host.Outcome State Fault Refusal :=
  s.upd fun d => d.mbxServe n { op := 0x50, len := 0, group := 5, states := .firing } fun d => mbxStatus sOk (d.enterSafe 3 0)

/-! ### The pair (R394) -/

/-- TWN_SWAP. -/
def execTwnSwap (n : Fin 4) (s : State) : Host.Outcome State Fault Refusal :=
  s.upd fun d => d.mbxServe n { op := 0x81, len := 0, group := 5, states := .firing } fun d =>
    let r := d.twnRequest 1
    mbxStatus r.1 r.2

/-- TWN_REJOIN. -/
def execTwnRejoin (n : Fin 4) (s : State) : Host.Outcome State Fault Refusal :=
  s.upd fun d => d.mbxServe n { op := 0x82, len := 0, group := 5, states := .onward } fun d =>
    let r := d.twnRequest 2
    mbxStatus r.1 r.2

/-- TWN_RESIGN. -/
def execTwnResign (n : Fin 4) (s : State) : Host.Outcome State Fault Refusal :=
  s.upd fun d => d.mbxServe n { op := 0x83, len := 0, group := 5, states := .onward } fun d =>
    let r := d.twnRequest 3
    mbxStatus r.1 r.2

/-- TWN_FORCE. -/
def execTwnForce (n : Fin 4) (s : State) : Host.Outcome State Fault Refusal :=
  s.upd fun d => d.mbxServe n { op := 0x84, len := 1, group := 5, states := .onward } fun d =>
    if d.arg n 0 ≠ 0x7A1F0C3D then mbxStatus sBadValue d
    else
      let r := d.twnRequest 4
      mbxStatus r.1 r.2

/-- The opcodes of R88 and R394. -/
def mbxOpcodes : List Nat := [0x01, 0x02, 0x03, 0x10, 0x20, 0x21, 0x30, 0x31, 0x32, 0x50, 0x60, 0x80, 0x81, 0x82, 0x83, 0x84]

/-- MAILBOX_UNKNOWN: UNSUPPORTED. -/
def execMailboxUnknown (n : Fin 4) (s : State) : Host.Outcome State Fault Refusal :=
  s.upd fun d =>
    if d.mbxTurn ≠ some n.val ∨ mbxOpcodes.contains (d.reqHead n % 256) then d
    else (d.mbxTake n).mbxDone n sUnsupported []

/-! ### Image updates (R72, R73) -/

/-- The offset from which no header, directory or signature can lie (R55 to R57). -/
def updBodies : Nat := 0x100 + 64 * 1024 + 96

/-- Image bytes go to the slot that is updated. -/
def Dev.updWrite (d : Dev) (slot : Nat) (l : Mem) : Dev :=
  d.each l fun d x => d.flWr (d.slotBase slot + x.1) [x.2]

/-- UPD_OPEN: the slot is erased in the background (entry 4: it reads erased from now on). -/
def execUpdOpen (n : Fin 4) (s : State) : Host.Outcome State Fault Refusal :=
  s.upd fun d => d.mbxServe n { op := 0x30, len := 4, group := 3, states := .onward } fun d =>
    let slot := d.arg n 0
    let len := d.arg n 1
    let sq := d.arg n 2
    let fl := d.arg n 3
    let st := firstFail [(1 < slot, sBadValue), (sq ≤ d.cfg.seq, sSequence), (sq < fl, sBadValue), (0x4000000 < len, sNoRoom),
      (slot == d.cfg.slot, sDenied), (d.cfg.upd.isSome, sBusy)]
    if st ≠ sOk then mbxStatus st d
    else
      let base := d.slotBase slot
      let d1 : Dev := { d with flash := d.flash.filter fun x => !(base ≤ x.1 && x.1 < base + 0x4000000) }
      let d2 := d1.onCfg fun t =>
        { t with upd := some (slot, len, sq, fl), updErased := false, updClosed := false, updData := none, updHeld := [] }
      mbxStatus sOk (d2.put F.CFG_UPDSTAT_STEP 1)

/-- The update ends with a code (R73): line 0, and source 10 for a failed check. -/
def Dev.updEnd (d : Dev) (code : Nat) : Dev :=
  let d1 := d.onCfg fun t => { t with upd := none, updErased := false, updClosed := false, updData := none, updHeld := [] }
  ((d1.put F.CFG_UPDSTAT_STEP 3).put F.CFG_UPDSTAT_CODE code).put F.CFG_IRQ_STAT_UPD_DONE 1

/-- The flash did not answer in an update: source 11; the code it ends with is not stated. -/
def Dev.updDead (d : Dev) : Dev :=
  let r := d.fresh 8
  (r.2.updEnd r.1).report 11

/-- UPDATE_ERASE_COMPLETE; `answers` is false for a flash that did not answer. -/
def execUpdateEraseComplete (answers : Bool) (s : State) : Host.Outcome State Fault Refusal :=
  s.upd fun d => d.when (d.cfg.upd.isSome && !d.cfg.updErased) fun d =>
    if answers then d.onCfg fun t => { t with updErased := true } else d.updDead

/-- UPD_DATA: the buffer is copied at once, and the answer comes when the flash write ends; BUSY before the erase
has ended. Bytes of header, directory and signature are kept for UPD_CLOSE (R72). -/
def execUpdData (n : Fin 4) (s : State) : Host.Outcome State Fault Refusal :=
  s.upd fun d => d.mbxServe n { op := 0x31, len := 3, group := 3, states := .onward } fun d =>
    let o := d.arg n 0
    let len := d.arg n 2
    match d.cfg.upd with
    | none => mbxStatus sBadState d
    | some u =>
      if d.cfg.updClosed then mbxStatus sBadState d
      else if 0x100000 < len then mbxStatus sBadValue d
      else match d.mbxBuf (d.arg n 1) len with
        | none => mbxStatus sDenied d
        | some a =>
          if u.2.1 < o + len then mbxStatus sBadValue d
          else if !d.cfg.updErased ∨ d.cfg.updData.isSome then mbxStatus sBusy d
          else
            let bs := d.ldBs a len
            (none, d.onCfg fun t => { t with updData := some n, updHeld := bs.zipIdx.foldl (fun m x => spPut flashDefault m (o + x.2) x.1) t.updHeld })

/-- FLASH_WRITE_COMPLETE: the flash write of an UPD_DATA ends, and its request is answered. -/
def execFlashWriteComplete (answers : Bool) (s : State) : Host.Outcome State Fault Refusal :=
  s.upd fun d =>
    match d.cfg.upd, d.cfg.updData with
    | some u, some n =>
      if answers then
        let d1 := d.updWrite u.1 (d.cfg.updHeld.filter fun x => updBodies ≤ x.1)
        let d2 := d1.onCfg fun t => { t with updData := none, updHeld := t.updHeld.filter fun x => x.1 < updBodies }
        d2.mbxDone n sOk []
      else
        let r := d.fresh 8
        (r.2.mbxDone n r.1 []).updDead
    | _, _ => d

/-- UPD_CLOSE: directory and signature are written, then the header; the check follows (R72). -/
def execUpdClose (n : Fin 4) (s : State) : Host.Outcome State Fault Refusal :=
  s.upd fun d => d.mbxServe n { op := 0x32, len := 0, group := 3, states := .onward } fun d =>
    match d.cfg.upd with
    | none => mbxStatus sBadState d
    | some u =>
      if d.cfg.updClosed then mbxStatus sBadState d
      else if !d.cfg.updErased ∨ d.cfg.updData.isSome then mbxStatus sBusy d
      else
        let d1 := d.updWrite u.1 (d.cfg.updHeld.filter fun x => 0x100 ≤ x.1)
        let d2 := d1.updWrite u.1 (d.cfg.updHeld.filter fun x => x.1 < 0x100)
        mbxStatus sOk ((d2.onCfg fun t => { t with updClosed := true, updHeld := [] }).put F.CFG_UPDSTAT_STEP 2)

/-- CFG_SLOTA or CFG_SLOTB shows the result of a check: CODE, HDR, REC, CHECKED, CANDIDATE. -/
def Dev.slotShow (d : Dev) (slot : Nat) (r : Nat × Bool × Nat) : Dev :=
  let a := if slot = 0 then R.CFG_SLOTA else R.CFG_SLOTB
  let cand := d.hdrStatus slot == sOk
  let hdr := r.1 != sOk && r.2.1 && r.1 != sAbsent
  let v := r.1 + cand.toNat * 2 ^ 8 + 2 ^ 9 + hdr.toNat * 2 ^ 11 + (if r.1 != sOk && !r.2.1 then r.2.2 else 0) * 2 ^ 16
  d.wrN a (setBits v 10 1 (bits (d.rd a).toNat 10 1))

/-- UPDATE_CHECK_COMPLETE: the slot has been read back and checked. -/
def execUpdateCheckComplete (s : State) : Host.Outcome State Fault Refusal :=
  s.upd fun d =>
    match d.cfg.upd with
    | none => d
    | some u =>
      if !d.cfg.updClosed then d
      else
        let r := d.imageCheck u.1
        ((d.slotShow u.1 r).updEnd r.1).when (r.1 != sOk) fun d => d.report 10

/-! ### Fuses (R80) -/

/-- The bit of a target has been blown. -/
def Dev.onFuses (d : Dev) (f : Fuses → Fuses) : Dev := d.onSec fun t => { t with fuses := f t.fuses }

/-- FUSE_PROG for the targets in `p`: the arguments, then BUSY during an update, then the target's own rule. -/
def Dev.fuseServe (d : Dev) (n : Nat) (p : Nat → Bool) (f : Dev → Nat → Nat × Dev) : Dev :=
  d.when (p (d.arg n 0)) fun d => d.mbxServe n { op := 0x60, len := 3, group := 6, states := .ready } fun d =>
    let t := d.arg n 0
    if 11 < t ∨ d.arg n 2 ≠ 0x0F05E0B1 then mbxStatus sBadValue d
    else if t < 4 ∧ (d.mbxBuf (d.arg n 1) 48).isNone then mbxStatus sDenied d
    else if d.cfg.upd.isSome then mbxStatus sBusy d
    else
      let r := f d t
      mbxStatus r.1 r.2

/-- FUSE_PROG targets 0 to 3, and the targets that are none (BAD_VALUE): a key hash into an empty slot. -/
def execFuseProgKeyhash (n : Fin 4) (s : State) : Host.Outcome State Fault Refusal :=
  s.upd fun d => d.fuseServe n (fun t => t < 4 || 11 < t) fun d t =>
    if nth d.sec.fuses.keyHash t 0 ≠ 0 then (sConflict, d)
    else
      let h := beNat (d.ldBs ((d.mbxBuf (d.arg n 1) 48).getD 0) 48)
      (sOk, d.onFuses fun x => { x with keyHash := upd x.keyHash t fun _ => h })

/-- FUSE_PROG targets 4 to 7: a slot is revoked, but not the running image's. -/
def execFuseProgSlotRevoke (n : Fin 4) (s : State) : Host.Outcome State Fault Refusal :=
  s.upd fun d => d.fuseServe n (fun t => 4 ≤ t && t < 8) fun d t =>
    if t - 4 = d.cfg.keySlot then (sBadState, d)
    else (sOk, d.onFuses fun x => { x with slotRevoke := upd x.slotRevoke (t - 4) fun _ => true })

/-- FUSE_PROG target 8. -/
def execFuseProgDebugKill (n : Fin 4) (s : State) : Host.Outcome State Fault Refusal :=
  s.upd fun d => d.fuseServe n (fun t => t == 8) fun d _ => (sOk, d.blowDebugKill)

/-- FUSE_PROG target 9. -/
def execFuseProgRootKill (n : Fin 4) (s : State) : Host.Outcome State Fault Refusal :=
  s.upd fun d => d.fuseServe n (fun t => t == 9) fun d _ => (sOk, d.blowRootKill)

/-- FUSE_PROG targets 10 and 11: a Zelnath key is revoked, but not the running trusted firmware's. -/
def execFuseProgZkeyRevoke (n : Fin 4) (s : State) : Host.Outcome State Fault Refusal :=
  s.upd fun d => d.fuseServe n (fun t => t == 10 || t == 11) fun d t =>
    if t - 10 = d.cfg.zkey then (sBadState, d)
    else (sOk, d.onFuses fun x => { x with zkeyRevoke := upd x.zkeyRevoke (t - 10) fun _ => true })

end Sys2Proof.Machine
end

