-- ==== Sys2Proof/Machine/TwnMsg.lean ====
section
/-! DEFINITION. The messages of the twin link that carry items, inputs, page data and state (R380 to R384), and the
forming of events by a chip that may follow its partner (R302, R382). -/

namespace Sys2Proof.Machine

/-- The chip follows its partner's journal (R384). -/
def Dev.follows (d : Dev) : Bool := d.role == roleStandby || d.role == roleSyncing

/-- The item of a record slot. -/
def Dev.slotItem (d : Dev) (slot : Nat) : Option Item := d.itk.items.find? fun i => i.slot == slot

/-! ### Inputs (R381, R382) -/

/-- Applies an input that the ACTIVE has decided. KIND, a code of the model: 1 SUBMIT details, 3 binding, 4 a head's
temperature and level, 5 nozzle change, 6 density report, 7 ZONE_BASE, 8 calibration pattern, 10 mirrored write, 12
hand-over point, 13 reject request, 16 entry to SAFE; 2 (composition time) and 9 (bank swap) are kept until they
are used. -/
def Dev.applyInput (d : Dev) (x : TwInput) : Dev :=
  let a (k : Nat) : Nat := nth x.args k 0
  let u := x.unit
  match x.kind with
  | 1 =>
    let d1 := d.updItem (a 0) fun i => { i with blocks := a 1, fields := x.data }
    match d1.findItem (a 0) with
    | some i => (d1.ensurePage i.page).blocksCheck (a 0)
    | none => d1
  | 3 =>
    match d.findItem (a 0) with
    | none => d
    | some i =>
      let st := if i.state = isAccepted ∨ i.state = isStaged then isScheduled else i.state
      let j : Item := { i with firstPos := a 1 % 2 ^ 48, bound := true, state := st }
      let lp := d.lastLine j
      let d1 := (d.updItem i.id fun _ => j).putMark i.zone markSch i.zseq
      d1.onItk fun t => { t with bound := upd t.bound i.zone fun l => (i.id, lp) :: l }
  | 4 => ((d.put (F.HLK_HEAD_TEMP_TEMP u) (a 0)).put (F.SLU_HEAD_STAT_STALE u) 0).setLevel u (a 1 % 4)
  | 5 => d.addChange (a 0) (a 1)
  | 6 => d.takeDensity (a 0) (a 1) (a 2)
  | 7 => ((d.jwr (markAddr (u % 16) markAcc (a 0)) (markWord (a 0))).1).setLastZseq (u % 16) (a 0)
  | 8 =>
    let hs := x.args.drop 2
    let p : Pattern := { zone := u % 16, heads := hs, firstPos := a 0, temps := hs.map fun h => (h, d.get (F.HLK_HEAD_TEMP_TEMP h)) }
    let d1 := d.onNzm fun t => { t with patterns := t.patterns ++ [p] }
    d1.onItk fun t => { t with bound := upd t.bound (u % 16) fun l => (0, a 1) :: l }
  | 10 =>
    match blockOf (a 0) with
    | none => d
    | some b =>
      let r := d.writeReg reqTrusted b (a 0) 4 (a 1 % 2 ^ 32)
      if r.1 = sOk then r.2 else d
  | 12 =>
    let n := u % 8
    if d.get F.TWN_STAT_SYNCSTEP ≠ 2 ∨ d.twn.cut.contains n then d
    else
      let d1 := d.each (List.range 8) fun d j => d.onHead (8 * n + j) fun h => { h with formed := a j }
      let d2 := d1.each (List.range 4) fun d e =>
        let own := (nth d.pos.encs e {}).h / 2 ^ 16
        d.put64 (R.TWN_ENC_OFSLO e) (R.TWN_ENC_OFSHI e) ((a (8 + e) + 2 ^ 64 - own % 2 ^ 64) % 2 ^ 64)
      d2.onTwn fun t => { t with cut := t.cut ++ [n] }
  | 13 => d.rejAt (u % 16) (a 0 % 2 ^ 48)
  | 16 => if d.st? = stSafe ∨ d.st? = stConfigFail then d else d.safeSteps (a 0 % 16) (a 1 % 256) false
  | _ => d.onTwn fun t => { t with inputs := t.inputs ++ [x] }

/-- The head whose COUNT an input names. -/
def inputHead (x : TwInput) : Nat := if x.kind = 4 then x.unit else 8 * x.unit

/-- An input precedes event COUNT of its head: it is due once every earlier event has been formed; COUNT 0 at once. -/
def Dev.inputDue (d : Dev) (x : TwInput) : Bool := x.count == 0 || x.count ≤ (d.head (inputHead x)).formed + 1

/-- The inputs that have come due are applied, in order. -/
def Dev.applyDue (d : Dev) : Dev :=
  let due := d.twn.inputs.filter fun x => x.kind != 2 && x.kind != 9 && d.inputDue x
  let d1 := d.onTwn fun t => { t with inputs := t.inputs.filter fun x => !(due.contains x) }
  d1.each due Dev.applyInput

/-- TWN_INPUT: applied at its named event by a chip that follows (R382). -/
def execTwnInput (x : TwInput) (s : State) : Host.Outcome State Fault Refusal :=
  s.upd fun d => d.twRecv fun d => d.when d.follows fun d =>
    if d.inputDue x then d.applyInput x else d.onTwn fun t => { t with inputs := t.inputs ++ [x] }

/-- SLUICE_EVENT (R302): the next event of a head is formed and let into the pan. A chip that follows forms it only
once it holds the ACTIVE's signature of it (R382), in SYNCING only after its cut-over (R380), and the inputs due come
first; a FENCED chip forms none. -/
def execSluiceEvent (h : Fin 64) (err : Option (Option Nat)) (s : State) : Host.Outcome State Fault Refusal :=
  s.upd fun d =>
    if d.decides then d.applyDue.sluice h err
    else
      let held := d.twn.peer.any fun x => x.1 == h.val && x.2.1 == (d.head h).formed + 1
      d.when (d.follows && held && d.twn.cut.contains (h.val / 8)) fun d => d.applyDue.sluice h err

/-! ### The journal (R384) -/

/-- FOLLOW ends when every item that was live when COPY began is final: STANDBY (R380). -/
def Dev.followEnd (d : Dev) : Dev :=
  let left := d.itk.items.any fun i => i.live && d.twn.copyLive.contains i.id
  d.when (d.role == roleSyncing && d.get F.TWN_STAT_SYNCSTEP == 2 && !left) fun d =>
    ((d.setRole roleStandby).put F.TWN_IRQ_STAT_SYNCED 1).onTwn fun t => { t with copyLive := [] }

/-- JACK: the partner answers for a slot. -/
def Dev.sendJack (d : Dev) (slot status : Nat) : Dev := d.twSend 0x13 [slot, status]

/-- JREC: the partner writes the record into the same slot, with the ACTIVE's generation, and answers. -/
def execJrec (slot : Fin 49152) (rec : List Byte) (s : State) : Host.Outcome State Fault Refusal :=
  s.upd fun d => d.twRecv fun d => d.when d.follows fun d =>
    let i := itemOfRec rec slot
    let d1 := d.put64 R.JNL_GENLO R.JNL_GENHI (fieldLE rec 0x20 8 - 1)
    let r := d1.writeRecord slot i true
    if !r.2 then (r.1.quarantine slot).sendJack slot sIntegrity
    else
      let d2 := (r.1.setLastZseq i.zone i.zseq).onItk fun t =>
        { t with items := (t.items.filter fun j => j.slot != slot.val) ++ [i], lastSlot := slot.val }
      ((d2.syncLive i.zone).ensurePage i.page).sendJack slot sOk

/-- JFIN: the partner writes the FINAL word and reads it back, the item is final here too and its lines that wait
are dropped, and the answer goes out. -/
def execJfin (slot : Fin 49152) (final : Nat) (s : State) : Host.Outcome State Fault Refusal :=
  s.upd fun d => d.twRecv fun d => d.when d.follows fun d =>
    match d.slotItem slot with
    | none =>
      let r := d.writeFinal slot (final % 2 ^ 64)
      r.1.sendJack slot (if r.2 then sOk else sIntegrity)
    | some i =>
      let st := final % 256
      let d1 := d.updItem i.id fun j => { j with defects := final / 2 ^ 16 % 2 ^ 16 }
      let d2 := d1.finaliseHere i.id st (final / 256 % 256) false
      let ok := (d2.findItem i.id).any fun j => !j.stuck
      let d3 := d2.when (!i.entered) fun d =>
        let d4 := d.onFir fun t => { t with heads := t.heads.map fun h => { h with queue := h.queue.filter fun l => l.item != i.id } }
        d4.closeBlocks i.id
      let d5 := d3.when (st == isCancelled) fun d => d.onItk fun t => { t with bound := upd t.bound i.zone fun l => l.filter fun x => x.1 != i.id }
      (d5.sendJack slot (if ok then sOk else sIntegrity)).followEnd

/-- JRET: the named slots are retired here too. -/
def execJret (slots : List (Fin 49152)) (s : State) : Host.Outcome State Fault Refusal :=
  s.upd fun d => d.twRecv fun d => d.when d.follows fun d =>
    let d1 := d.each slots fun d n =>
      match d.slotItem n with
      | some i => d.retire i.id
      | none => (d.setUse n false).1
    d1.followEnd

/-- JACK: the partner's answer for a record or a FINAL word; one that is not OK leaves the replication waiting. -/
def execJack (slot : Fin 49152) (status : Nat) (s : State) : Host.Outcome State Fault Refusal :=
  s.upd fun d => d.twRecv fun d => d.when (d.role == roleActive && status % 256 == sOk) fun d =>
    let d1 := d.onTwn fun t => { t with jackWait := t.jackWait.erase slot.val }
    d1.onItk fun t =>
      { t with receiving := t.receiving.map (fun r => if r.item.slot = slot.val then { r with jacked := true } else r),
               items := t.items.map fun i => if i.slot = slot.val ∧ !i.live then { i with finalJacked := true } else i }

/-! ### Page data and COPY (R380, R381) -/

/-- TWN_PAGE: a forwarded DATA body, with DATAPATH 0; it answers to no session. -/
def execTwnPage (body : List Byte) (s : State) : Host.Outcome State Fault Refusal :=
  s.upd fun d => d.twRecv fun d =>
    d.when (d.follows && d.get F.TWN_CFG_DATAPATH == 0 && 16 ≤ body.length) fun d => (d.takeData (0, 2 ^ 32, 0) body).2

/-- The regions that COPY replaces are emptied before its first message is applied. -/
def Dev.copyClear (d : Dev) : Dev :=
  let d1 : Dev := { d with mem := d.mem.filter fun x => !(inJournal x.1), act := [] }
  let d2 := d1.onNzm fun t => { t with states := [], active := [], next := [], corr := [], settle := [], temps := [] }
  let d3 := d2.onFir fun t => { t with heads := t.heads.map fun h => { h with acc := [], ring := [], queue := [], pan := [] } }
  let d4 := (d3.onPos fun p => { p with rejs := p.rejs.map fun r => { r with queue := [] } }).onItk fun t => { t with items := [] }
  d4.put F.TWN_STAT_SYNCSTEP 1

/-- A region of COPY is applied, under the model's REGION codes (`Dev.sendCopy`). -/
def Dev.applyCopy (d : Dev) (c : TwCopy) : Dev :=
  let nat (x : Nat × Int) : Nat := x.2.toNat
  let natPut (l : List (Nat × Nat)) : List (Nat × Nat) := c.args.foldl (fun l x => spPut 0 l x.1 (nat x)) l
  let intPut (l : List (Nat × Int)) : List (Nat × Int) := c.args.foldl (fun l x => spPut 0 l x.1 x.2) l
  let pairs := c.args.map fun x => (x.1, nat x)
  let level (f : LmpStr → Nat → LmpStr) (d : Dev) : Dev := d.onLmp fun t =>
    { t with strs := t.strs.map fun y => match pairs.find? fun x => x.1 == y.ix with
      | some x => f y x.2
      | none => y }
  match c.region with
  | 0 => d.each (pairs.filter fun x => inJournal x.1) fun d x => d.stB x.1 (BitVec.ofNat 8 x.2)
  | 1 => d.onNzm fun t => { t with states := natPut t.states }
  | 2 => d.onNzm fun t => { t with active := intPut t.active }
  | 3 => d.onNzm fun t => { t with next := intPut t.next }
  | 4 => d.each pairs fun d x => d.put (F.NZM_HG_STEPSEQ_SEQ (x.1 % 8)) x.2
  | 5 => d.onNzm fun t => { t with corr := intPut t.corr }
  | 6 => d.onHead (c.offset % 64) fun h => { h with acc := h.acc ++ pairs }
  | 7 => d.onHead (c.offset % 64) fun h => { h with ring := h.ring ++ pairs }
  | 8 => d.each pairs fun d x => d.wrN x.1 x.2
  | 9 => { d with act := pairs.foldl (fun l x => spPut (regReset x.1) l x.1 (BitVec.ofNat 32 x.2)) d.act }
  | 10 => d.each pairs fun d x => d.onHead (x.1 % 64) fun h => { h with formed := x.2 }
  | 11 => d.onPos fun p => { p with rejs := upd p.rejs (c.offset % 2) fun r => { r with queue := r.queue ++ pairs } }
  | 12 => level (fun y v => { y with shL := v % 2 ^ 16, shF := v / 2 ^ 16 }) d
  | 13 => level (fun y v => { y with acL := v % 2 ^ 16, acF := v / 2 ^ 16 }) d
  | 14 => d.onNzm fun t => { t with settle := t.settle ++ pairs }
  | 15 => d.onNzm fun t => { t with temps := t.temps ++ c.args }
  | _ => d

/-- COPY ends: the journal that has come is this chip's own, its live items form no events here, and the epoch is
taken; FOLLOW begins (R378, R380). -/
def Dev.copyEnd (d : Dev) (e : Nat) : Dev :=
  let used := (List.range nSlots).filter d.inUse
  let item (s : Nat) : Item :=
    let i := d.recItem s
    let f := d.finalWord s
    let w := d.fireWord s
    let j := { i with abandoned := true, firstPos := w % 2 ^ 48, entered := w != 0 }
    if f = 0 then j else { j with state := f % 256, reason := f / 256 % 256, defects := f / 2 ^ 16 % 2 ^ 16 }
  let items := (used.filter d.recOk).map item
  let live := (items.filter Item.live).map (·.id)
  let g := d.mrd dwGen
  let d1 := (d.onItk fun t => { t with items := items }).onTwn fun t => { t with copyLive := live, cut := [] }
  let d2 := (d1.put F.JNL_STATUS_INUSE used.length).put64 R.JNL_GENLO R.JNL_GENHI g
  let d3 := d2.each (List.range 16) fun d z =>
    let top := (d.itk.items.filter fun i => i.zone == z).foldl (fun x i => max x i.zseq) (d.mark z markAcc)
    (d.setLastZseq z top).syncLive z
  ((d3.setEpoch (e % 2 ^ 32)).put F.TWN_STAT_SYNCSTEP 2).followEnd

/-- TWN_COPY: applied by a SYNCING chip. -/
def execTwnCopy (c : TwCopy) (s : State) : Host.Outcome State Fault Refusal :=
  s.upd fun d => d.twRecv fun d => d.when (d.role == roleSyncing && d.get F.TWN_STAT_SYNCSTEP < 2) fun d =>
    let d1 := d.when (d.get F.TWN_STAT_SYNCSTEP == 0) Dev.copyClear
    if c.region = 255 then d1.copyEnd c.offset else d1.applyCopy c

end Sys2Proof.Machine
end

