-- ==== Sys2Proof/Machine/Loader.lean ====
section
/-! DEFINITION. The start from reset to READY (R47 to R51, R69 to R71): the choice of a slot, the loader with its register
lists (R60, R61, R64, R67), the checks and the hand-over at CONFIG_DONE (R63, R503), training, self-test, and the CTL reset
(R45) with the hart watchdog. -/

namespace Sys2Proof.Machine

/-! ### Slots (R53, R54, R69) -/

/-- MRAM word of the running slot, beside SEQ and FLOOR (R71; entry 8 gives the place). -/
def dwSlot : Nat := 0x033A1858

/-- A candidate slot's failure, or its success, takes its place in CFG_SLOTA or CFG_SLOTB before IMAGE_CHECK has run on it. -/
def Dev.slotHeader (d : Dev) (s : Nat) : Dev :=
  let st := d.hdrStatus s
  d.wrN (if s = 0 then R.CFG_SLOTA else R.CFG_SLOTB)
    (if st = sOk then 2 ^ 8 else st + (if st = sAbsent then 0 else 2 ^ 11))

/-- Every candidate has failed (R70). -/
def Dev.configFail (d : Dev) (st : Nat) : Dev :=
  ((d.wrN R.CFG_STATUS (st * 2 ^ 8)).enter stConfigFail).speed 0 0 0

/-- The candidates in the order of R69. -/
def Dev.candidates (d : Dev) : List Nat :=
  let ok := [0, 1].filter fun s => d.hdrStatus s == sOk
  if ok = [0, 1] ∧ d.hdr 0 0x0C 4 < d.hdr 1 0x0C 4 then [1, 0] else ok

/-- SAF_BOOT_COMPLETE: ROM and fuses have been checked; the floor, the epoch and the headers of both slots are read. -/
def execSafBootComplete (ok : Bool) (s : State) : Host.Outcome State Fault Refusal :=
  s.upd fun d =>
    if d.st? ≠ stBoot ∨ d.sys.off ∨ !d.sys.rstN ∨ d.sys.romBad then d
    else if !ok then d.onSys fun t => { t with romBad := true }
    else
      let floor := compVal (d.mrd dwFloor)
      let epoch := (compVal (d.mrd dwEpoch)).getD 0
      let d1 := (d.put F.CFG_FLOOR_VALUE (floor.getD 0)).when floor.isNone fun d => d.report 10
      let d2 := ((d1.wrN R.TWN_EPOCH epoch).put F.HLK_EPOCH_EPOCH epoch).enter stImage
      let d3 := (d2.slotHeader 0).slotHeader 1
      let cs := d3.candidates
      let d4 := d3.onCfg fun t => { t with cands := cs }
      if cs = [] then d4.configFail (d4.hdrStatus 1) else d4

/-- Every island but SAF is reset, which undoes a partial load (R69). -/
def Dev.resetIslands (d : Dev) : Dev :=
  let keep (a : Nat) : Bool := match blockOf a with
    | some b => islandOf b == 0
    | none => true
  let d1 : Dev := { d with regs := d.regs.filter (fun r => keep r.1), act := [], itk := {}, pos := {}, ras := {}, nzm := {}, fir := {} }
  let d2 : Dev := { d1 with lmp := {}, cam := {}, vis := {}, ins := {}, eth := {}, ptp := {}, pgf := {}, dmc := {}, dma := {} }
  let d3 := d2.onCfg fun t => { t with onDieDone := false, polls := none, claims := [], disabled := [] }
  (d3.onCfg fun t => { t with fwRanges := [], named := [], tts := [] }).put F.HLK_EPOCH_EPOCH (d.rd R.TWN_EPOCH).toNat

/-- A candidate has failed: its record, and the next candidate or CONFIG_FAIL. Source 8 is raised while another candidate is
left. -/
def Dev.slotFail (d : Dev) (s : Nat) (r : Nat × Bool × Nat) : Dev :=
  let d1 := d.resetIslands.slotShow s r
  if d1.cfg.cands = [] then d1.configFail r.1
  else (((d1.wrN R.CFG_STATUS 0).put F.CFG_STATUS_OTHERFAIL 1).enter stImage |>.speed 0 0 0).report 8

/-! ### Register lists (R60, R61) -/

/-- The entry waits: it is a POLL whose condition does not hold yet. -/
def sWaits : Nat := 0x100

/-- An entry of a register list. -/
structure ListEnt where
  addr : Nat
  op : Nat
  zero : Nat
  value : Nat
  mask : Nat
  deriving DecidableEq, Repr

/-- Entry `k` of a list for block `b`. -/
def listEnt (b : Nat) (body : List Byte) (k : Nat) : ListEnt :=
  let o := 4 + 12 * k
  { addr := blockBase b + fieldLE body o 2, op := fieldLE body (o + 2) 1, zero := fieldLE body (o + 3) 1,
    value := fieldLE body (o + 4) 4, mask := fieldLE body (o + 8) 4 }

/-- The entry's own rules: OFFSET, OP, reserved byte, MASK, and the access of the fields that MASK covers. -/
def ListEnt.ok (e : ListEnt) : Bool :=
  let o := e.addr % 0x10000
  let settable (f : FieldRow) : Bool := f.acc == .rw || f.acc == .rws || f.acc == .lck || f.mask &&& e.mask == 0
  o % 4 == 0 && 0x10 ≤ o && e.op ≤ 2 && e.zero == 0 && (e.op != 0 || e.mask == 2 ^ 32 - 1) &&
  (e.op == 2 || match rowAt e.addr with
    | some r => r.fields.all settable
    | none => true)

/-- The loader's read of a register. -/
def Dev.loaderRead (d : Dev) (b a : Nat) : Nat :=
  match rowAt a with
  | some r => (d.blockView b reqLoader a r.base (dimsIx r.dims (a - r.base))).getD (d.rd a).toNat
  | none => 0

/-- A saved value is written back. -/
def Dev.writeBack (d : Dev) (b : Nat) (x : Nat × Word) : Dev :=
  match rowAt x.1 with
  | some r => d.regStore b x.2.toNat r (d.regCheck reqLoader b x.1 x.2.toNat r).2
  | none => d

/-- The entries of a list in order; `saved` are the registers written so far, the last first. A rejected entry undoes them. -/
def Dev.runList (d : Dev) (b : Nat) (body : List Byte) (ix : Nat) : List Nat → List (Nat × Word) → Nat × Dev
  | [], _ => (sOk, d)
  | k :: r, saved =>
    let e := listEnt b body k
    let undo (d : Dev) : Dev := d.each saved fun d x => d.writeBack b x
    if !e.ok then (sBadValue, undo d)
    else if e.op = 2 then
      if d.loaderRead b e.addr &&& e.mask = e.value then d.runList b body ix r saved
      else (sWaits, d.onCfg fun t => { t with polls := some (ix, k, saved) })
    else
      let old := d.rd e.addr
      let v := if e.op = 0 then e.value else (old.toNat &&& (2 ^ 32 - 1 - e.mask)) ||| (e.value &&& e.mask)
      let w := d.busW reqLoader e.addr 4 v
      if w.1 ≠ sOk then (w.1, undo w.2) else w.2.runList b body ix r ((e.addr, old) :: saved)

/-- COUNT of a register list. -/
def listCount (body : List Byte) : Nat := fieldLE body 0 4

/-- A register-list record. -/
def Dev.listRecord (d : Dev) (b : Nat) (body : List Byte) (ix : Nat) : Nat × Dev :=
  if body.length ≠ 4 + 12 * listCount body then (sBadValue, d)
  else d.runList b body ix (List.range (listCount body)) []

/-! ### Records (R56, R64, R67) -/

/-- The record's target lies in DRAM. -/
def dramTarget (type : Nat) (b : List Byte) : Bool :=
  type == 0x2002 || type == 0x2005 || ((type == 0x3001 || type == 0x3002) && dramBase ≤ fieldLE b 0 8)

/-- A record is applied by its type. -/
def Dev.recordOf (d : Dev) (lenient : Bool) (ix : Nat) (e : DirEnt) (b : List Byte) : Nat × Dev :=
  if 0x1000 ≤ e.type ∧ e.type < 0x2000 then d.listRecord (e.type - 0x1000) b ix
  else if 0x4000 ≤ e.type ∧ e.type < 0x5000 then
    if d.keySkipped (fieldLE b 1 1) then (sOk, d.logEvent 0 sDenied e.feature) else d.keyRecord e.type b
  else if e.type = 0x5001 then d.claimsRecord lenient b
  else if e.type = 0x5000 then d.geoRecord b
  else if e.type = 0x3000 then d.trustedRecord b
  else if e.type = 0x3001 ∨ e.type = 0x3002 then d.fwRecord e.type b
  else if e.type = 0x2000 then
    let r := d.stateRecord d.cfg.named b
    if r.1 = sOk then (sOk, r.2.onCfg fun t => { t with named := t.named ++ [(fieldLE b 0 4, fieldLE b 4 4)] }) else r
  else if e.type = 0x2001 then d.transferRecord b
  else if e.type = 0x2002 then d.tempRecord b
  else if e.type = 0x2003 then d.feedRecord b
  else if e.type = 0x2004 then d.blendRecord b
  else if e.type = 0x2005 then d.fontRecord b
  else d.lampRecord b

/-- A record's end (R67): a failure fails the start, or in a lenient image disables the record's feature. -/
def Dev.recordEnd (lenient : Bool) (e : DirEnt) (r : Nat × Dev) : Nat × Dev :=
  if r.1 = sOk ∨ r.1 = sWaits ∨ !lenient ∨ e.required then r
  else (sOk, (r.2.disable e.feature false).logEvent 0 r.1 e.feature)

/-- A directory entry is applied or skipped; `slotFail` answers a re-hash failure in lenient images too. -/
def Dev.loadEntry (d : Dev) (lenient : Bool) (e : DirEnt) (ix : Nat) : Nat × Dev :=
  if e.feature ≠ 0 ∧ d.cfg.disabled.contains e.feature then (sOk, d)
  else if !(typeKnown e.type) then
    if !lenient ∨ bitB e.flags 0 then (sUnsupported, d) else (sOk, d.logEvent 0 sUnsupported e.feature)
  else if !(d.digestOk d.cfg.slot e) then (sIntegrity, d)
  else
    let b := d.body d.cfg.slot e
    Dev.recordEnd lenient e (if bitB e.flags 1 != dramTarget e.type b then (sBadValue, d) else d.recordOf lenient ix e b)

/-- Entries in directory order, up to the first that fails the start or waits: status, index of that entry, device. -/
def Dev.loadEntries (lenient : Bool) : List (DirEnt × Nat) → Dev → Nat × Nat × Dev
  | [], d => (sOk, 0, d)
  | (e, ix) :: r, d =>
    let q := d.loadEntry lenient e ix
    if q.1 = sOk then Dev.loadEntries lenient r q.2 else (q.1, ix, q.2)

/-- The entries of the running slot with or without the DRAM flag. -/
def Dev.entriesOf (d : Dev) (dram : Bool) : List (DirEnt × Nat) :=
  (d.directory d.cfg.slot).zipIdx.filter fun x => bitB x.1.flags 1 == dram

/-- Goes on with the on-die records. -/
def Dev.loadOnDie (d : Dev) (l : List (DirEnt × Nat)) : Dev :=
  let r := Dev.loadEntries d.cfg.lenient l d
  if r.1 = sWaits then r.2.2
  else if r.1 ≠ sOk then r.2.2.slotFail d.cfg.slot (r.1, false, r.2.1)
  else r.2.2.onCfg fun t => { t with onDieDone := true }

/-- At LOADING a marker that is set is cleared by a later image while no alarm input is active and ROOT_KILL is not blown (R91). -/
def Dev.clearMarker (d : Dev) : Dev :=
  let seq := (compVal (d.mrd dwEraseSeq)).getD d.cfg.seq
  d.when (d.markerLevel != 0 && decide (seq < d.cfg.seq) && d.sec.active == [] && d.get F.SEC_STATUS_ROOT_KILL == 0) fun d =>
    (d.mwr dwEraseLevel (withComp 0)).1.put F.SEC_STATUS_ERASED 0

/-- The mode that reads a slot (R54): what its header names, or 1S-4S-4S at 100 MHz when the header read there differs or the
fields are out of range; MODE, MHZ and whether the fallback is used. -/
def Dev.xspiOf (d : Dev) (s : Nat) (same : Bool) : Nat × Nat × Bool :=
  let m := d.hdr s 0xA0 1
  let f := d.hdr s 0xA2 2
  let lim := nth [50, 100, 200] m 0
  if m = 0 then (0, 50, false) else if same ∧ 25 ≤ f ∧ f ≤ lim then (m, f, false) else (1, 100, true)

/-- SLOT_CHECK (R69): the first candidate is checked, and loaded or recorded as failed. `same` says whether its header read in
the mode that it names equals the one read in 1S-1S-1S. -/
def execSlotCheck (same : Bool) (s : State) : Host.Outcome State Fault Refusal :=
  s.upd fun d => d.when (d.st? == stImage) fun d =>
    match d.cfg.cands with
    | [] => d
    | sl :: rest =>
      let m := d.xspiOf sl same
      let d1 := ((d.onCfg fun t => { t with cands := rest }).put F.CFG_XSPI_MODE m.1).put F.CFG_XSPI_MHZ m.2.1
      let r := d1.imageCheck sl
      if r.1 ≠ sOk then d1.slotFail sl r
      else
        let h := d1.hdr sl
        let len := bitB (h 8 4) 0
        let d2 := d1.slotShow sl r
        let d3 := ((d2.put F.CFG_STATUS_LENIENT len.toNat).put F.CFG_STATUS_SLOT sl).put F.CFG_STATUS_QUADFB m.2.2.toNat
        let d4 := (d3.put F.CFG_SEQ_VALUE (h 0x0C 4)).onCfg fun t =>
          { t with slot := sl, seq := h 0x0C 4, floor := h 0x10 4, keySlot := h 0x38 1, lenient := len }
        let d5 := d4.clearMarker.enter stLoading
        d5.loadOnDie (d5.entriesOf false)

/-- REGISTER_LIST_POLL (R60): the read matches VALUE and the list goes on, or 10 ms have passed and the entry fails. -/
def execRegisterListPoll (timeout : Bool) (s : State) : Host.Outcome State Fault Refusal :=
  s.upd fun d =>
    match d.cfg.polls with
    | none => d
    | some (ix, k, saved) =>
      if d.st? ≠ stLoading then d
      else
        let e := d.dirEnt d.cfg.slot ix
        let b := e.type - 0x1000
        let body := d.body d.cfg.slot e
        let x := listEnt b body k
        let rest := (d.entriesOf false).filter fun y => ix < y.2
        let d1 := d.onCfg fun t => { t with polls := none }
        let hit := d.loaderRead b x.addr &&& x.mask == x.value
        if !hit ∧ !timeout then d
        else
          let r := if hit then d1.runList b body ix ((List.range (listCount body)).filter fun j => k < j) saved
            else (sTimeout, d1.each saved fun d y => d.writeBack b y)
          let q := Dev.recordEnd d.cfg.lenient e r
          if q.1 = sWaits then q.2
          else if q.1 ≠ sOk then q.2.slotFail d.cfg.slot (q.1, false, ix)
          else q.2.loadOnDie rest

/-! ### CONFIG_DONE (R63, R503) -/

/-- The stores in DRAM, as offset and bytes: pages, fields, fonts, temperature sets, the rake's work area, expected lines, the
harvest's dump (R503). -/
def Dev.stores (d : Dev) : List (Nat × Nat) :=
  let m := 2 ^ 20
  [(m * d.get F.ITK_PAGEBASE_MIB, m * d.get F.ITK_PAGESIZE_MIB), (m * d.get F.IMP_FRBASE_MIB, m * d.get F.IMP_FRSIZE_MIB),
   (m * d.get F.IMP_FONTBASE_MIB, m * d.get F.IMP_FONTSIZE_MIB), (m * d.get F.CAL_TSBASE_MIB, m * d.get F.CAL_TSSIZE_MIB),
   (m * d.get F.CAL_WORKBASE_MIB, if d.get F.CAL_CFG_MODE = 0 then 0 else m), d.insStore,
   (m * d.get F.FLT_HVCFG_BASE, if d.get F.FLT_HVCFG_ENABLE = 1 then 8 * m else 0)]

/-- Some store leaves the addressable DRAM or meets another. -/
def Dev.storesBad (d : Dev) : Bool :=
  let l := d.stores
  l.any (fun x => x.2 != 0 && !(d.dramFits x.1 x.2)) ||
  (List.range l.length).any fun i => (List.range i).any fun j =>
    rangesMeet (nth l i (0, 0)).1 (nth l i (0, 0)).2 (nth l j (0, 0)).1 (nth l j (0, 0)).2

/-- Some ring in use leaves shared SRAM and DRAM: frame descriptors, ETH and DMA rings (R503). -/
def Dev.ringsBad (d : Dev) : Bool :=
  let a (lo hi : Nat) : Nat := (d.rd lo).toNat + 2 ^ 32 * ((d.rd hi).toNat % 256)
  let out (b n : Nat) : Bool := n != 0 && !(inSram b (32 * n) || d.inDram b (32 * n))
  out (a R.CAM_FDBASELO R.CAM_FDBASEHI) (d.rd R.CAM_FDSIZE).toNat ||
  ((List.range 4).any fun p => out (a (R.ETH_PORT_TXBASELO p) (R.ETH_PORT_TXBASEHI p)) (d.rd (R.ETH_PORT_TXSIZE p)).toNat ||
    out (a (R.ETH_PORT_RXBASELO p) (R.ETH_PORT_RXBASEHI p)) (d.rd (R.ETH_PORT_RXSIZE p)).toNat) ||
  (List.range 16).any fun c => out (a (R.DMA_CH_BASELO c) (R.DMA_CH_BASEHI c)) (d.rd (R.DMA_CH_SIZE c)).toNat

/-- BLEND and FEED of the geometry name tables that have been loaded (R175). -/
def Dev.geoTables (d : Dev) : Bool :=
  ((List.range 64).all fun h => !(d.headOk h) || d.get (F.RAS_HEAD_CFG_BLEND h) == 0xFF ||
    d.bit F.RAS_TBLVALID_BLEND (d.get (F.RAS_HEAD_CFG_BLEND h))) &&
  (List.range 16).all fun z => !(d.zoneOk z) || d.get (F.RAS_ZONE_CFG_FEED z) == 0 ||
    d.bit F.RAS_TBLVALID_FEED (d.get (F.RAS_ZONE_CFG_FEED z) - 1)

/-- Zones whose windows include columns of one head take one encoder (R179). -/
def Dev.oneEncoder (d : Dev) : Bool :=
  (List.range 64).all fun h =>
    let es := ((List.range 16).filter fun z => d.zoneOk z && (d.zoneHeads z).contains h).map fun z => d.get (F.POS_ZONE_CFG_ENC z)
    es.all fun e => some e == es.head?

/-- What POS asks at CONFIG_DONE: scales and ratios of what is enabled, and encoders of the geometry's zones and of LOCKOUTs. -/
def Dev.posConfigBad (d : Dev) : Bool :=
  let on (e : Nat) : Bool := d.get (F.POS_ENC_CFG_ENABLE e) == 1
  ((List.range 4).any fun e => on e && d.get (F.POS_ENC_SCALELO_VALUE e) == 0 && d.get (F.POS_ENC_SCALEHI_VALUE e) == 0) ||
  ((List.range 2).any fun k => d.get (F.POS_EMU_CFG_ENABLE k) == 1 && d.get (F.POS_EMU_RATIOLO_VALUE k) == 0 &&
    d.get (F.POS_EMU_RATIOHI_VALUE k) == 0) ||
  ((List.range 16).any fun z => d.zoneOk z && !(on (d.get (F.POS_ZONE_CFG_ENC z)))) ||
  (List.range 4).any fun i => d.get (F.POS_PG_CFG_ENABLE i) == 1 && d.get (F.POS_PG_LOCKOUT_SUBLINES i) != 0 &&
    !(on (d.get (F.POS_PG_CFG_LENC i)))

/-- The sluice's tables and temperatures break R301 or R306, or FULL lies below FLOOR (R310). -/
def Dev.sluConfigBad (d : Dev) : Bool :=
  ((List.range 8).any fun n =>
    let t := d.thresholds n
    d.weight n 0 != 0 || d.stepDn n 0 != 0 ||
    ((List.range 16).any fun s => d.weight n s != 0 && d.weight n s ≤ d.weight n (d.stepDn n s)) ||
    !(decide (nth t 0 0 ≤ nth t 1 0 ∧ nth t 1 0 ≤ nth t 2 0 ∧ nth t 2 0 < nth t 3 0))) ||
  decide (d.get F.SLU_SPD_DUTY_FULL < d.get F.SLU_SPD_FLOOR_FLOOR)

/-- A head has no lane, or one without a head-lane rate (R272). -/
def Dev.lanesBad (d : Dev) : Bool :=
  (List.range 64).any fun h => d.headOk h && (d.headLanes h == [] ||
    (d.headLanes h).any fun l => d.laneRate l == 0 || 5 < d.laneRate l)

/-- The status of the device-wide checks at CONFIG_DONE, in strict and lenient images alike. -/
def Dev.configStatus (d : Dev) : Nat :=
  firstFail [
    (d.dmcConfigBad, sBadValue), (d.storesBad || d.ringsBad || d.visRingBad, sBadValue), (!d.geoTables, sBadValue),
    (!d.oneEncoder, sConflict), (d.posConfigBad, sBadValue),
    ((List.range 64).any (fun h => d.headOk h && !(d.cfg.tts.contains (d.get (F.NZM_HEAD_CFG_TT h)))), sBadValue),
    (d.lanesBad, sBadValue), (d.sluConfigBad, sBadValue), (d.camConfigBad, sBadValue), (d.insConfigBad, sBadValue),
    (d.lampConfigBad, sBadValue), (d.ethConfigBad || d.ptpConfigBad || d.pgfConfigBad, sBadValue)]

/-- The breaches of R212 are dealt with: a strict image fails; a lenient one disables the counter or template and logs it. -/
def Dev.impSettle (d : Dev) (fonts : Nat → Bool) : Nat × Dev :=
  let b := d.impBreaches fonts
  if b.1 = [] ∧ b.2 = [] then (sOk, d)
  else if !d.cfg.lenient then (sBadValue, d)
  else
    let d1 := d.each b.1 fun d c => (d.put (F.IMP_CNT_CFG_ENABLE c) 0).logEvent 0 sBadValue (11 * 256 + c)
    (sOk, d1.each b.2 fun d t => (d.tplDisable t).logEvent 0 sBadValue (11 * 256 + t))

/-- The breaches of the camera sources are dealt with in the same way. -/
def Dev.srcSettle (d : Dev) : Nat × Dev :=
  let bad := (List.range 16).filter fun s => d.get (F.CAM_SRC_CFG_ENABLE s) == 1 && d.srcBreach s
  if bad = [] then (sOk, d)
  else if !d.cfg.lenient then (sBadValue, d)
  else (sOk, d.each bad fun d s => (d.put (F.CAM_SRC_CFG_ENABLE s) 0).logEvent 0 sBadValue (18 * 256 + s))

/-- The shadow sets go straight into the active sets, and every ACTIVE_SEQ is 1 (R63). -/
def Dev.firstSets (d : Dev) : Dev :=
  let d1 := (d.each ((List.range 8).map firSet).flatten Dev.copyAct).each ((List.range 4).map trgSet).flatten Dev.copyAct
  let d2 := d1.onLmp fun t => { t with strs := t.strs.map fun y => { y with acL := y.shL, acF := y.shF } }
  let d3 := d2.each (List.range 8) fun d n => d.put (F.FIR_HG_ACTIVE_SEQ_SEQ n) 1
  (d3.each (List.range 4) fun d k => d.put (F.CAM_TRG_ACTIVE_SEQ_SEQ k) 1).each (List.range 4) fun d c => d.put (F.LMP_CH_ACTIVE_SEQ_SEQ c) 1

/-- What CONFIG_DONE does once every check has passed: TRAINING begins. -/
def Dev.goTraining (d : Dev) : Dev :=
  let c := d.c
  let d1 := d.firstSets.each (List.range 256) fun d i => d.put (F.FLT_SRC_CFG_SEV i) (d.get (F.FLT_SRC_CFG_ISEV i))
  let d2 := ((d1.put F.CFG_STATUS_DONE 1).enter stTraining).syncStop.speedSafe
  let d3 := if d2.paired then d2.put F.TWN_STAT_ROLE roleFenced else d2.put F.HLK_EPOCH_ACT 1
  let d4 := ((d3.ethStart).ptpStart).pgfStart.lampStart
  d4.each ((List.range 64).filter d4.headOk) fun d h =>
    ((d.onHead h fun x => { x with tempSeen := false, tempT := c }).markStale h).syncCounts h

/-- CONFIG_DONE: all on-die records have been applied. -/
def execConfigDone (s : State) : Host.Outcome State Fault Refusal :=
  s.upd fun d => d.when (d.st? == stLoading && d.cfg.onDieDone) fun d =>
    let st := d.configStatus
    let q := d.srcSettle
    let r := q.2.impSettle fun _ => true
    let bad := firstFail [(st != sOk, st), (q.1 != sOk, q.1), (r.1 != sOk, r.1)]
    if bad ≠ sOk then d.slotFail d.cfg.slot (bad, false, 0) else r.2.goTraining

/-! ### TRAINING, SELFTEST, READY -/

/-- The first attempt of every configured lane has ended (R47). -/
def Dev.attemptsEnded (d : Dev) : Bool :=
  ((List.range 24).all fun l => !(d.laneUsed l) ||
    (d.get (F.HLK_LANE_STAT_STATE l) != 0 && !(d.get (F.HLK_LANE_STAT_STATE l) == 1 && d.get (F.HLK_LANE_STAT_ATTEMPT l) ≤ 1))) &&
  (List.range 4).all fun l => d.laneTiles l == [] || d.get (F.SRD_LANE_CFG_RATE (36 + l)) == 0 || 2 ≤ d.get (F.CAM_TLANE_STAT_STATE l)

/-- The enabled channels, as a mask. -/
def Dev.chanMask (d : Dev) : Nat :=
  (List.range 4).foldl (fun m i => if d.bit F.DMC_CFG_INTF i then m + 3 * 4 ^ i else m) 0

/-- TRAINING_COMPLETE: `failed` are the channels that failed training (R447). -/
def execTrainingComplete (failed : Fin 256) (s : State) : Host.Outcome State Fault Refusal :=
  s.upd fun d => d.when (d.st? == stTraining && d.attemptsEnded) fun d =>
    let f := failed.val &&& d.chanMask
    let d1 := (d.put F.DMC_TRAINSTAT_FAIL f).put F.DMC_TRAINSTAT_DONE (d.chanMask - f)
    if f ≠ 0 then d1.report 168
    else
      let r := Dev.loadEntries d.cfg.lenient (d1.entriesOf true) d1
      let q := r.2.2.impSettle r.2.2.hasFont
      if r.1 ≠ sOk then r.2.2.slotFail d.cfg.slot (r.1, false, r.2.1)
      else if q.1 ≠ sOk then q.2.slotFail d.cfg.slot (q.1, false, 0)
      else
        let c := d.c
        let d2 := q.2.onSys fun t => { t with twdC := c }
        (d2.enter stSelftest).put (if d.cfg.slot = 0 then F.CFG_SLOTA_LOADED else F.CFG_SLOTB_LOADED) 1

/-- The rollback floor is raised in MRAM, with SEQ, FLOOR and slot of the running image beside it (R71). -/
def Dev.raiseFloor (d : Dev) : Dev :=
  let v := max (d.get F.CFG_FLOOR_VALUE) d.cfg.floor
  let d1 := (d.mwr dwFloor (withComp v)).1
  let d2 := (d1.mwr dwImage (d.cfg.seq % 2 ^ 32 + 2 ^ 32 * (d.cfg.floor % 2 ^ 32))).1
  (d2.mwr dwSlot d.cfg.slot).1.put F.CFG_FLOOR_VALUE v

/-- The base firmware record, if the image has one: its harts leave reset at READY. -/
def Dev.hasFirmware (d : Dev) : Bool := (d.directory d.cfg.slot).any fun e => e.type == 0x3001

/-- READY is entered. -/
def Dev.goReady (d : Dev) : Dev :=
  let c := d.c
  let run := d.hasFirmware
  let d1 := d.fillBanks.enter stReady
  let d2 := (d1.put F.SYS_STARTUS_TIME ((c - d.sys.startC) / 1000 % 2 ^ 32)).onSys fun t => { t with hartsRun := run, hwdC := c, hwdFirst := false }
  let d3 := (d2.raiseFloor.when d.cfg.logged fun d => d.report 9).speed (d.get F.SLU_SPD_DUTY_FULL) 0 0
  let d4 := d3.each (List.range 8) fun d n => d.put (F.FIR_HG_STAT_IDLESAFE n) 0
  d4.when d4.paired Dev.twnStart

/-- SELFTEST_COMPLETE: the self-tests are done, and a failure is reported under its source; recovery has completed. A failure of
severity SAFE or FATAL keeps the device from READY. -/
def execSelftestComplete (failure : Option (Fin 256)) (s : State) : Host.Outcome State Fault Refusal :=
  s.upd fun d => d.when (d.st? == stSelftest && d.get F.JNL_STATUS_RECOVERED == 1) fun d =>
    match failure with
    | none => d.goReady
    | some f => if 4 ≤ d.sev f then d.report f else (d.report f).goReady

/-- START_LIMIT_EXCEEDED: a start state takes longer than its limit, which is reported under a source (R48). -/
def execStartLimitExceeded (src : Fin 256) (s : State) : Host.Outcome State Fault Refusal :=
  s.upd fun d => d.when (1 ≤ d.st? && d.st? ≤ stSelftest && !d.sys.off) fun d => d.report src

/-! ### The harts (R44, R45) -/

/-- HART_WATCHDOG_EXPIRY: no kick within TIMEOUT ms. -/
def execHartWatchdogExpiry (s : State) : Host.Outcome State Fault Refusal :=
  s.upd fun d =>
    let ms := d.get F.SYS_HWD_CFG_TIMEOUT
    d.when (d.sys.hartsRun && ms != 0) fun d =>
      let d1 := (d.atTime (d.sys.hwdC + ms * 1000000)).report 3
      let c := d1.c
      let d2 := d1.onSys fun t => { t with hwdC := c, hwdFirst := true }
      if !d.sys.hwdFirst then d2.put F.SYS_IRQ_STAT_HWD_WARN 1
      else if d.get F.SYS_HWD_CFG_ACTION = 1 then d2.ctlReset else d2

/-- CTL_RESET: the harts' firmware is reloaded after a CTL reset; a flash that does not answer leaves the reload to come. -/
def execCtlReset (flash : Bool) (s : State) : Host.Outcome State Fault Refusal :=
  s.upd fun d => d.when d.sys.ctlDue fun d =>
    if flash then
      let c := d.c
      d.ctlReload.onSys fun t => { t with hwdC := c, hwdFirst := false }
    else d.report 11

end Sys2Proof.Machine
end

