-- ==== Sys2Proof/Machine/Harvest.lean ====
section
/-! DEFINITION. The harvest (R474 to R476): the MRAM summary, the DRAM dump, and the policy that follows. -/

namespace Sys2Proof.Machine

/-- Address of summary slot of harvest `h` (R475). -/
def hvSlot (h : Nat) : Nat := 0x03300000 + 0x10000 * (h % 8)

/-- The number of the next harvest, counted in MRAM from 0. -/
def Dev.hvNumber (d : Dev) : Nat := d.mrd dwHarvest

/-- The 64 history records, oldest first. -/
def Dev.historyBytes (d : Dev) : List Byte :=
  let from' := d.get F.FLT_STAT_NEXT + 64 - d.get F.FLT_STAT_COUNT
  ((List.range 64).map fun k => ((List.range 8).map fun w => leBytes 4 (d.rd (R.FLT_HIST_W ((from' + k) % 64) w)).toNat).flatten).flatten

/-- SEC, JNL and MBX, of which only the header is copied. -/
def headerOnly (b : Nat) : Bool := b == 2 || b == 3 || b == 6

/-- A word of a block's registers as requester 4 reads it; a block that answers ABSENT gives 0. -/
def Dev.snapWord (d : Dev) (b o : Nat) : Nat :=
  if d.islandDown b || (headerOnly b && 0x10 ≤ o) then 0 else (d.readReg reqTrusted b (blockBase b + o) 4).2

/-- The first `n` words of a block, as bytes. -/
def Dev.snapBytes (d : Dev) (b n : Nat) : List Byte := ((List.range n).map fun k => leBytes 4 (d.snapWord b (4 * k))).flatten

/-- The part of the summary from 0x004 to 0x04F, which the dump repeats (R475, R476). -/
def Dev.hvHead (d : Dev) (src : Nat) : List Byte :=
  let reg (a : Nat) : List Byte := leBytes 4 (d.rd a).toNat
  leBytes 1 1 ++ leBytes 1 (d.sev src) ++ leBytes 1 src ++ leBytes 1 (d.get F.FLT_SAFESTAT_FROM) ++
  leBytes 8 d.hvNumber ++ leBytes 8 d.sys.harvestC ++ ptpBytes d.sys.harvestT ++ leBytes 2 0 ++ reg R.CFG_SEQ ++
  leBytes 16 d.sec.fuses.uid ++ leBytes 8 (d.get64 R.JNL_GENLO R.JNL_GENHI) ++
  reg R.TWN_STAT ++ reg R.TWN_EPOCH ++ reg R.SYS_RSTCAUSE ++ reg R.FLT_STAT

/-- Bytes 0x100 to 0x103F of the summary. -/
def Dev.hvBody (d : Dev) : List Byte := d.historyBytes ++ ((List.range 29).map fun b => d.snapBytes b 16).flatten

/-- Writes bytes to MRAM in words. -/
def Dev.mwrBytes (d : Dev) (a : Nat) (l : List Byte) : Dev :=
  d.each (List.range (l.length / 8)) fun d k => (d.mwr (a + 8 * k) (fieldLE l (8 * k) 8)).1

/-- The MRAM summary in the order of R475, all but DRAMWORD; the count of harvests follows it. -/
def Dev.hvSummary (d : Dev) (src : Nat) : Dev :=
  let h := d.hvNumber
  let a := hvSlot h
  let head := [0x48, 0x52, 0x56, 0x4D] ++ d.hvHead src
  let body := d.hvBody
  let first := (head ++ List.replicate 160 0).drop 8
  let tail := first ++ leBytes 4 (crc32 (first ++ body)) ++ leBytes 4 0
  let d1 := ((d.mwr a 0).1.mwrBytes (a + 0x100) body).mwrBytes (a + 8) tail
  ((d1.mwr a (leNat (head.take 8))).1.mwr dwHarvest (h + 1)).1

/-- The blocks that answer ABSENT. -/
def Dev.absentMask (d : Dev) : Nat := (List.range 29).foldl (fun m b => if d.islandDown b then m + 2 ^ b else m) 0

/-- The dump is written: it is enabled, and DMC is trained. -/
def Dev.dumps (d : Dev) : Bool :=
  d.get F.FLT_HVCFG_ENABLE == 1 && d.get F.DMC_TRAINSTAT_DONE != 0 && d.get F.DMC_TRAINSTAT_FAIL == 0

/-- Control address and length of the dump. -/
def Dev.dumpAt (d : Dev) : Nat := dramBase + 2 ^ 20 * d.get F.FLT_HVCFG_BASE
def Dev.dumpLen (d : Dev) : Nat := if d.get F.FLT_HVCFG_SRAM = 1 then 0x600000 else 0x1D1000

/-- The DRAM dump (R476). Its register reads are reads of requester 4, captures of HI halves among them. -/
def Dev.hvDump (d : Dev) (src : Nat) : Dev :=
  let a := d.dumpAt
  let sram := d.get F.FLT_HVCFG_SRAM
  let head := [0x48, 0x52, 0x56, 0x44] ++ d.hvHead src ++ leBytes 4 d.dumpLen ++ leBytes 4 sram ++ leBytes 4 d.absentMask
  let d1 := (d.stBs a (head ++ List.replicate (0x100 - head.length) 0)).stBs (a + 0x100) d.historyBytes
  let d2 := d1.each (List.range 29) fun x b =>
    let y := x.stBs (a + 0x1000 + 0x10000 * b) (d.snapBytes b 0x4000)
    if d.islandDown b || headerOnly b then y else y.each (List.range 0x4000) fun y k => y.capture reqTrusted b (blockBase b + 4 * k)
  d2.when (sram == 1) fun x => x.stBs (a + 0x200000) (d.ldBs sramBase 0x400000)

/-- HARVEST: once the journal is consistent. `err`: a DRAM error ends the dump's step; what it has written by then is open. -/
def execHarvest (err : Bool) (s : State) : Host.Outcome State Fault Refusal :=
  s.upd fun d =>
    match d.sys.harvestDue with
    | none => d
    | some src =>
      if d.sys.harvestPhase ≠ 0 ∨ !d.journalSafe then d
      else
        let c := d.c
        let d1 := (d.put F.FLT_STAT_HARVEST 1).hvSummary src
        let bad := err && d.dumps
        let d2 :=
          if !d.dumps then d1
          else if err then
            let f := d1.freeBytes d.dumpLen
            f.2.stBs d.dumpAt f.1
          else d1.hvDump src
        d2.onSys fun t => { t with harvestPhase := 1, harvestFrom := c, harvestCode := if bad then sIntegrity else sOk }

/-- The harvest ends with a status: DRAMWORD, FLT_HVSTAT, and the policy (R474). Without a whole dump its CRC is open, and
without a dump its status too. A failure raises source 35, after the reset where one follows, so that the next summary holds it. -/
def Dev.hvEnd (d : Dev) (code : Nat) : Dev :=
  let h := d.hvNumber - 1
  let r := d.fresh 32
  let q := r.2.fresh 8
  let d0 : Dev := if code = sOk ∧ d.dumps then d else q.2
  let crc := if code = sOk ∧ d.dumps then crc32 (d.ldBs d.dumpAt d.dumpLen) else r.1
  let st := if code = sOk ∧ !d.dumps then q.1 else code
  let w := crc % 2 ^ 32 + st % 2 ^ 8 * 2 ^ 32 + (2 ^ 16 - 1 - crc % 2 ^ 16) * 2 ^ 48
  let show' := h % 2 ^ 16 * 2 ^ 16 + code * 2 ^ 8 + h % 8
  let d1 := ((d0.mwr (hvSlot h + 0xF8) w).1.mwr dwHvLast show').1.wrN R.FLT_HVSTAT show'
  let d2 := (d1.put F.FLT_STAT_HARVEST 0).onSys fun t => { t with harvestPhase := 2, harvestDue := none }
  let d3 :=
    if d.sys.harvestTwd then d2.deviceReset 2 false
    else if d.get F.FLT_CFG_FATALPOL = 0 then (d2.onDmc fun t => { t with selfRef := t.selfRef.map fun _ => true }).deviceReset 4 false
    else d2.put F.FLT_IRQ_STAT_HELD 1
  d3.when (code != sOk) fun d => d.report 35

/-- HARVEST_COMPLETE: the harvest that runs ends. -/
def execHarvestComplete (s : State) : Host.Outcome State Fault Refusal :=
  s.upd fun d => d.when (d.sys.harvestPhase == 1) fun d => d.hvEnd d.sys.harvestCode

/-- HARVEST_TIMEOUT: 30 ms have passed; the dump is left as it stands, which is open. -/
def execHarvestTimeout (s : State) : Host.Outcome State Fault Refusal :=
  s.upd fun d => d.when (d.sys.harvestPhase == 1) fun d =>
    let d1 := d.atTime (d.sys.harvestFrom + 30000000)
    if !d1.dumps then d1.hvEnd sTimeout
    else
      let f := d1.freeBytes d1.dumpLen
      (f.2.stBs d1.dumpAt f.1).hvEnd sTimeout

end Sys2Proof.Machine
end

