-- ==== Sys2Proof/Machine/Recovery.lean ====
section
/-! DEFINITION. Recovery of the journal after a device reset (R126), and reading a record for the mailbox (R125). -/

namespace Sys2Proof.Machine

/-- What recovery has found so far. -/
structure Recov where
  dev : Dev
  gen : Nat
  lastGen : Nat
  reacc : Nat := 0
  intr : Nat := 0

/-- The final state that recovery gives a record, from its FIRE and FINAL words: state, reason, whether the FINAL
word is to be written, whether source 25 is raised; `none` for ACCEPTED. -/
def recoverState (fire final zseq frd : Nat) : Option (Nat × Nat × Bool × Bool) :=
  let marked := fire / 2 ^ 48 == 0xF1F1
  if final ≠ 0 ∧ finalOk final then some (final % 256, final / 256 % 256, false, false)
  else if final ≠ 0 then some (if fire = 0 then isNotPrinted else isInterrupted, 0x13, true, true)
  else if fire = 0 then none
  else if marked then some (isInterrupted, if frd < zseq then 0x0C else 0x0D, true, false)
  else some (isInterrupted, 0x13, true, true)

/-- One in-use slot is recovered. -/
def Recov.slot (r : Recov) (s : Nat) : Recov :=
  let d := r.dev
  if !(d.recOk s) then
    let d1 := (d.quarantine s).report 25
    { r with dev := d1.onItk fun t => { t with events := t.events ++ [(4, 0xFF, s, 0)] } }
  else
    let i := d.recItem s
    let fire := d.fireWord s
    let final := d.finalWord s
    let marked := fire / 2 ^ 48 == 0xF1F1
    let g := d.mrd (slotAddr s + 0x20)
    let j := { i with firstPos := if marked then fire % 2 ^ 48 else 0, entered := marked }
    let add (d : Dev) (j : Item) : Dev := d.onItk fun t =>
      { t with items := t.items ++ [j], lastSlot := if r.lastGen ≤ g then s else t.lastSlot }
    let r1 : Recov := { r with gen := max r.gen g, lastGen := max r.lastGen g }
    match recoverState fire final i.zseq (d.mark i.zone markFrd) with
    | none =>
      let d1 := add d j
      { r1 with dev := d1.onItk (fun t => { t with events := t.events ++ [(1, i.zone, i.id, i.page)] }), reacc := r.reacc + 1 }
    | some (st, rs, rewrite, bad) =>
      let w := if rewrite then d.writeFinal s (mkFinal st rs 0) else (d, true)
      let k := { j with state := st, reason := rs, defects := if rewrite then 0 else final / 2 ^ 16 % 2 ^ 16, stuck := !w.2 }
      let d1 := ((add w.1 k).when bad fun d => d.report 25).when (!w.2) fun d => d.report 24
      { r1 with dev := d1, intr := r.intr + (if rewrite && st == isInterrupted then 1 else 0) }

/-- Recovery (R126): marks, records in slot order, the generation in force and its write-back, and the last used
ZSEQ of every zone. -/
def Dev.recover (d : Dev) : Dev :=
  let w := d.mrd dwGen
  let g0 := if w + d.mrd (dwGen + 8) = 2 ^ 64 - 1 then w else 0
  let badMarks := (List.range 16).any fun z => (List.range 4).any fun m => d.markBad z m
  let used := (List.range nSlots).filter d.inUse
  let d0 := ((d.put F.JNL_STATUS_INUSE used.length).when badMarks fun d => d.report 27).onItk fun t => { t with items := [] }
  let r := used.foldl Recov.slot { dev := d0, gen := g0, lastGen := 0 }
  let d1 := (r.dev.mwrs [(dwGen, r.gen), (dwGen + 8, 2 ^ 64 - 1 - r.gen)]).1.put64 R.JNL_GENLO R.JNL_GENHI r.gen
  let d2 := d1.each (List.range 16) fun d z =>
    let top := (d.itk.items.filter fun i => i.zone == z).foldl (fun x i => max x i.zseq) (d.mark z markAcc)
    (d.setLastZseq z top).syncLive z
  let d3 := (d2.put F.JNL_RECCNT_REACC (min 65535 r.reacc)).put F.JNL_RECCNT_INTR (min 65535 r.intr)
  ((d3.put F.JNL_STATUS_RECOVERED 1).put F.JNL_IRQ_STAT_RECOVERED 1).lowCheck

/-- JOURNAL_RECOVERY: recovery in SELFTEST, which took `us` µs (R126). -/
def execJournalRecovery (us : Fin 16001) (s : State) : Host.Outcome State Fault Refusal :=
  s.upd fun d => d.when (d.st? = stSelftest && d.get F.JNL_STATUS_RECOVERED = 0) fun d => d.recover.wrN R.JNL_RECUS us

end Sys2Proof.Machine
end

