-- ==== Sys2Proof/Machine/Dispatch.lean ====
section
/-! DEFINITION. The dispatch: one arm per command, each one call of that command's meaning. -/

namespace Sys2Proof.Machine

/-- What a command does to the state (everything but the queue). -/
def exec (i : Instr) (s : State) : Host.Outcome State Fault Refusal :=
  match i with
  | .registerWrite req addr width value => Sys2Proof.Machine.execRegisterWrite req addr width value s
  | .loReadCapture req addr width => Sys2Proof.Machine.execLoReadCapture req addr width s
  | .rejclr req block value => Sys2Proof.Machine.execRejclr req block value s
  | .interruptClaim ctx => Sys2Proof.Machine.execInterruptClaim ctx s
  | .machineTimerExpiry hart => Sys2Proof.Machine.execMachineTimerExpiry hart s
  | .clockCheckWindow ppm => Sys2Proof.Machine.execClockCheckWindow ppm s
  | .refclkLoss => Sys2Proof.Machine.execRefclkLoss s
  | .powerOnReset vina vinb viom33 => Sys2Proof.Machine.execPowerOnReset vina vinb viom33 s
  | .rstNAssert => Sys2Proof.Machine.execRstNAssert s
  | .rstNRelease => Sys2Proof.Machine.execRstNRelease s
  | .trustedWatchdogExpiry => Sys2Proof.Machine.execTrustedWatchdogExpiry s
  | .hartWatchdogExpiry => Sys2Proof.Machine.execHartWatchdogExpiry s
  | .sysHwdKick req value => Sys2Proof.Machine.execSysHwdKick req value s
  | .sysTwdKick req value => Sys2Proof.Machine.execSysTwdKick req value s
  | .softwareReset req value => Sys2Proof.Machine.execSoftwareReset req value s
  | .ctlReset flash => Sys2Proof.Machine.execCtlReset flash s
  | .safBootComplete ok => Sys2Proof.Machine.execSafBootComplete ok s
  | .slotCheck same => Sys2Proof.Machine.execSlotCheck same s
  | .registerListPoll timeout => Sys2Proof.Machine.execRegisterListPoll timeout s
  | .configDone => Sys2Proof.Machine.execConfigDone s
  | .trainingComplete failed => Sys2Proof.Machine.execTrainingComplete failed s
  | .selftestComplete failure => Sys2Proof.Machine.execSelftestComplete failure s
  | .startLimitExceeded src => Sys2Proof.Machine.execStartLimitExceeded src s
  | .journalRecovery us => Sys2Proof.Machine.execJournalRecovery us s
  | .updateEraseComplete answers => Sys2Proof.Machine.execUpdateEraseComplete answers s
  | .flashWriteComplete answers => Sys2Proof.Machine.execFlashWriteComplete answers s
  | .updateCheckComplete => Sys2Proof.Machine.execUpdateCheckComplete s
  | .cfgClaimGo req value => Sys2Proof.Machine.execCfgClaimGo req value s
  | .info n => Sys2Proof.Machine.execInfo n s
  | .devpub n => Sys2Proof.Machine.execDevpub n s
  | .keyList n => Sys2Proof.Machine.execKeyList n s
  | .jnlRead n => Sys2Proof.Machine.execJnlRead n s
  | .fltSetsev n => Sys2Proof.Machine.execFltSetsev n s
  | .fltInject n => Sys2Proof.Machine.execFltInject n s
  | .updOpen n => Sys2Proof.Machine.execUpdOpen n s
  | .updData n => Sys2Proof.Machine.execUpdData n s
  | .updClose n => Sys2Proof.Machine.execUpdClose n s
  | .safeEnter n => Sys2Proof.Machine.execSafeEnter n s
  | .fuseProgKeyhash n => Sys2Proof.Machine.execFuseProgKeyhash n s
  | .fuseProgSlotRevoke n => Sys2Proof.Machine.execFuseProgSlotRevoke n s
  | .fuseProgDebugKill n => Sys2Proof.Machine.execFuseProgDebugKill n s
  | .fuseProgRootKill n => Sys2Proof.Machine.execFuseProgRootKill n s
  | .fuseProgZkeyRevoke n => Sys2Proof.Machine.execFuseProgZkeyRevoke n s
  | .mailboxUnknown n => Sys2Proof.Machine.execMailboxUnknown n s
  | .tamperAlarm input => Sys2Proof.Machine.execTamperAlarm input s
  | .meshSample ok => Sys2Proof.Machine.execMeshSample ok s
  | .voltageGlitch => Sys2Proof.Machine.execVoltageGlitch s
  | .clockGlitch => Sys2Proof.Machine.execClockGlitch s
  | .secTempAlarm => Sys2Proof.Machine.execSecTempAlarm s
  | .secErase req value => Sys2Proof.Machine.execSecErase req value s
  | .macOperation use slot msg => Sys2Proof.Machine.execMacOperation use slot msg s
  | .extest cells => Sys2Proof.Machine.execExtest cells s
  | .samplePreload cells => Sys2Proof.Machine.execSamplePreload cells s
  | .clamp => Sys2Proof.Machine.execClamp s
  | .highz => Sys2Proof.Machine.execHighz s
  | .devid => Sys2Proof.Machine.execDevid s
  | .unlock => Sys2Proof.Machine.execUnlock s
  | .unlockToken rights slot pub sig => Sys2Proof.Machine.execUnlockToken rights slot pub sig s
  | .dbgApp words => Sys2Proof.Machine.execDbgApp words s
  | .dbgReg write addr width value => Sys2Proof.Machine.execDbgReg write addr width value s
  | .bypass => Sys2Proof.Machine.execBypass s
  | .vjpMalformed port v6 fragment data => Sys2Proof.Machine.execVjpMalformed port v6 fragment data s
  | .vjpOpen port v6 msg => Sys2Proof.Machine.execVjpOpen port v6 msg s
  | .close port v6 msg => Sys2Proof.Machine.execClose port v6 msg s
  | .ackonly port v6 msg => Sys2Proof.Machine.execAckonly port v6 msg s
  | .submit port v6 msg => Sys2Proof.Machine.execSubmit port v6 msg s
  | .accept => Sys2Proof.Machine.execAccept s
  | .vjpData port v6 msg => Sys2Proof.Machine.execVjpData port v6 msg s
  | .cancel port v6 msg => Sys2Proof.Machine.execCancel port v6 msg s
  | .finalAck port v6 msg => Sys2Proof.Machine.execFinalAck port v6 msg s
  | .query port v6 msg => Sys2Proof.Machine.execQuery port v6 msg s
  | .zoneBase port v6 msg => Sys2Proof.Machine.execZoneBase port v6 msg s
  | .regRead port v6 msg => Sys2Proof.Machine.execRegRead port v6 msg s
  | .regWrite port v6 msg => Sys2Proof.Machine.execRegWrite port v6 msg s
  | .vjpUnknownType port v6 msg => Sys2Proof.Machine.execVjpUnknownType port v6 msg s
  | .ackTimer n => Sys2Proof.Machine.execAckTimer n s
  | .retransmitTimer n => Sys2Proof.Machine.execRetransmitTimer n s
  | .sessionIdle n => Sys2Proof.Machine.execSessionIdle n s
  | .queuedMessageSend n => Sys2Proof.Machine.execQueuedMessageSend n s
  | .pageFree page => Sys2Proof.Machine.execPageFree page s
  | .itemStaged id => Sys2Proof.Machine.execItemStaged id s
  | .itemBind id => Sys2Proof.Machine.execItemBind id s
  | .finalSend id => Sys2Proof.Machine.execFinalSend id s
  | .refusalHoldExpiry link id => Sys2Proof.Machine.execRefusalHoldExpiry link id s
  | .itkCntclr req value => Sys2Proof.Machine.execItkCntclr req value s
  | .inputRingFetch hg k ecc => Sys2Proof.Machine.execInputRingFetch hg k ecc s
  | .decoderInputReady hg k => Sys2Proof.Machine.execDecoderInputReady hg k s
  | .decoderStallEnd hg clocks => Sys2Proof.Machine.execDecoderStallEnd hg clocks s
  | .brdDjobGo req => Sys2Proof.Machine.execBrdDjobGo req s
  | .djobComplete => Sys2Proof.Machine.execDjobComplete s
  | .brcGo req => Sys2Proof.Machine.execBrcGo req s
  | .brcBlockVerify coded fail => Sys2Proof.Machine.execBrcBlockVerify coded fail s
  | .brcRingRoom => Sys2Proof.Machine.execBrcRingRoom s
  | .brcOutsize req value => Sys2Proof.Machine.execBrcOutsize req value s
  | .assembleLine row zone err => Sys2Proof.Machine.execAssembleLine row zone err s
  | .rasStatclr req value => Sys2Proof.Machine.execRasStatclr req value s
  | .rasErrClear req => Sys2Proof.Machine.execRasErrClear req s
  | .impItemRender err => Sys2Proof.Machine.execImpItemRender err s
  | .macResult err => Sys2Proof.Machine.execMacResult err s
  | .fieldStoreRoom err => Sys2Proof.Machine.execFieldStoreRoom err s
  | .impErrClear req => Sys2Proof.Machine.execImpErrClear req s
  | .nzmStatewr req nozzle state4 => Sys2Proof.Machine.execNzmStatewr req nozzle state4 s
  | .nozzleStateApply hg => Sys2Proof.Machine.execNozzleStateApply hg s
  | .probeDelayExpiry nozzle => Sys2Proof.Machine.execProbeDelayExpiry nozzle s
  | .rakeSweep hg eccHead => Sys2Proof.Machine.execRakeSweep hg eccHead s
  | .densityReport nozzle r lowSeq => Sys2Proof.Machine.execDensityReport nozzle r lowSeq s
  | .tempStaleTimeout h => Sys2Proof.Machine.execTempStaleTimeout h s
  | .pb4Run => Sys2Proof.Machine.execPb4Run s
  | .pb4Analysis failed ratios => Sys2Proof.Machine.execPb4Analysis failed ratios s
  | .pb4AnalysisTimeout => Sys2Proof.Machine.execPb4AnalysisTimeout s
  | .calPb4req req hi heads => Sys2Proof.Machine.execCalPb4req req hi heads s
  | .encoderCount enc a b t => Sys2Proof.Machine.execEncoderCount enc a b t s
  | .zEdge enc t => Sys2Proof.Machine.execZEdge enc t s
  | .encoderStill enc t => Sys2Proof.Machine.execEncoderStill enc t s
  | .compareArm req cmp lateOk => Sys2Proof.Machine.execCompareArm req cmp lateOk s
  | .compareDisarm req cmp => Sys2Proof.Machine.execCompareDisarm req cmp s
  | .compareMatch c t => Sys2Proof.Machine.execCompareMatch c t s
  | .comparePulseEnd c => Sys2Proof.Machine.execComparePulseEnd c s
  | .printGoEdge input rising full t => Sys2Proof.Machine.execPrintGoEdge input rising full t s
  | .rejectPulseStart o t => Sys2Proof.Machine.execRejectPulseStart o t s
  | .rejectPulseEnd o t => Sys2Proof.Machine.execRejectPulseEnd o t s
  | .emuOutputStep k t => Sys2Proof.Machine.execEmuOutputStep k t s
  | .sluiceEvent h err => Sys2Proof.Machine.execSluiceEvent h err s
  | .fireInstant h t => Sys2Proof.Machine.execFireInstant h t s
  | .firCommit req hg => Sys2Proof.Machine.execFirCommit req hg s
  | .firStatclr req value => Sys2Proof.Machine.execFirStatclr req value s
  | .frameStart lane t ecc => Sys2Proof.Machine.execFrameStart lane t ecc s
  | .fireBlockSend h slot => Sys2Proof.Machine.execFireBlockSend h slot s
  | .idleBlock lane => Sys2Proof.Machine.execIdleBlock lane s
  | .idleUp lane good state sel stale epoch => Sys2Proof.Machine.execIdleUp lane good state sel stale epoch s
  | .helloUp lane good ver heads bufev fixns turnns => Sys2Proof.Machine.execHelloUp lane good ver heads bufev fixns turnns s
  | .echoUp lane good tag t => Sys2Proof.Machine.execEchoUp lane good tag t s
  | .firedUp lane good head evseq status => Sys2Proof.Machine.execFiredUp lane good head evseq status s
  | .tempUp lane good head temp vsup flags => Sys2Proof.Machine.execTempUp lane good head temp vsup flags s
  | .nakUp lane good head evseq offset => Sys2Proof.Machine.execNakUp lane good head evseq offset s
  | .cmdackUp lane good head opc status ctag arg => Sys2Proof.Machine.execCmdackUp lane good head opc status ctag arg s
  | .faultUp lane good head code arg => Sys2Proof.Machine.execFaultUp lane good head code arg s
  | .firedUpTimeout h => Sys2Proof.Machine.execFiredUpTimeout h s
  | .hlkNop req hg head all arg => Sys2Proof.Machine.execHlkNop req hg head all arg s
  | .spit req hg head all arg => Sys2Proof.Machine.execSpit req hg head all arg s
  | .waveset req hg head all arg => Sys2Proof.Machine.execWaveset req hg head all arg s
  | .heater req hg head all arg => Sys2Proof.Machine.execHeater req hg head all arg s
  | .headreset req hg head all arg => Sys2Proof.Machine.execHeadreset req hg head all arg s
  | .boardDefinedCommand req hg head opc all arg => Sys2Proof.Machine.execBoardDefinedCommand req hg head opc all arg s
  | .hlkCmdTimeout => Sys2Proof.Machine.execHlkCmdTimeout s
  | .laneSeriesStart lane => Sys2Proof.Machine.execLaneSeriesStart lane s
  | .laneLock lane => Sys2Proof.Machine.execLaneLock lane s
  | .helloTimer lane => Sys2Proof.Machine.execHelloTimer lane s
  | .echoTimer lane t => Sys2Proof.Machine.execEchoTimer lane t s
  | .echoWindowEnd lane => Sys2Proof.Machine.execEchoWindowEnd lane s
  | .laneAbort lane why => Sys2Proof.Machine.execLaneAbort lane why s
  | .laneBackoffEnd lane => Sys2Proof.Machine.execLaneBackoffEnd lane s
  | .laneDown lane => Sys2Proof.Machine.execLaneDown lane s
  | .retrain req lane => Sys2Proof.Machine.execRetrain req lane s
  | .errclr req lane => Sys2Proof.Machine.execErrclr req lane s
  | .lanePllLoss lane => Sys2Proof.Machine.execLanePllLoss lane s
  | .dfeTapLimit lane => Sys2Proof.Machine.execDfeTapLimit lane s
  | .prbsError lane errs => Sys2Proof.Machine.execPrbsError lane errs s
  | .losChange lane los => Sys2Proof.Machine.execLosChange lane los s
  | .eyeMonitorRefresh lane eyeh eyev => Sys2Proof.Machine.execEyeMonitorRefresh lane eyeh eyev s
  | .srdPd req lane pd => Sys2Proof.Machine.execSrdPd req lane pd s
  | .srdPrbs req lane prbs => Sys2Proof.Machine.execSrdPrbs req lane prbs s
  | .srdLoop req lane loop => Sys2Proof.Machine.execSrdLoop req lane loop s
  | .lanePowerUpComplete lane => Sys2Proof.Machine.execLanePowerUpComplete lane s
  | .headTempStale h => Sys2Proof.Machine.execHeadTempStale h s
  | .marginRecompute zone => Sys2Proof.Machine.execMarginRecompute zone s
  | .speedReqUpdate => Sys2Proof.Machine.execSpeedReqUpdate s
  | .speedFloorTimeout => Sys2Proof.Machine.execSpeedFloorTimeout s
  | .sluStatclr req value => Sys2Proof.Machine.execSluStatclr req value s
  | .csiFrameStart port vc => Sys2Proof.Machine.execCsiFrameStart port vc s
  | .csiFrameEnd port vc => Sys2Proof.Machine.execCsiFrameEnd port vc s
  | .csiLine port vc dt payload crcOk cor => Sys2Proof.Machine.execCsiLine port vc dt payload crcOk cor s
  | .csiGenericShort port dt => Sys2Proof.Machine.execCsiGenericShort port dt s
  | .csiHeaderError port => Sys2Proof.Machine.execCsiHeaderError port s
  | .csiFrameTimeout src => Sys2Proof.Machine.execCsiFrameTimeout src s
  | .deskew port => Sys2Proof.Machine.execDeskew port s
  | .tileLine tile line shape lcrcOk px => Sys2Proof.Machine.execTileLine tile line shape lcrcOk px s
  | .tileLineTimeout src => Sys2Proof.Machine.execTileLineTimeout src s
  | .tidleUp lane good state fixns => Sys2Proof.Machine.execTidleUp lane good state fixns s
  | .thelloUp lane good ver tiles => Sys2Proof.Machine.execThelloUp lane good ver tiles s
  | .tackUp lane good tile status => Sys2Proof.Machine.execTackUp lane good tile status s
  | .tfaultUp lane good tile code arg => Sys2Proof.Machine.execTfaultUp lane good tile code arg s
  | .tackTimeout lane => Sys2Proof.Machine.execTackTimeout lane s
  | .tlaneAttemptStart lane fail => Sys2Proof.Machine.execTlaneAttemptStart lane fail s
  | .tlaneDown lane => Sys2Proof.Machine.execTlaneDown lane s
  | .trgArm req trg lateOk => Sys2Proof.Machine.execTrgArm req trg lateOk s
  | .trgStop req trg => Sys2Proof.Machine.execTrgStop req trg s
  | .triggerDue k t => Sys2Proof.Machine.execTriggerDue k t s
  | .camTrgCommit req trg => Sys2Proof.Machine.execCamTrgCommit req trg s
  | .lineGrant err => Sys2Proof.Machine.execLineGrant err s
  | .camFdsize req value => Sys2Proof.Machine.execCamFdsize req value s
  | .camStatclr req value => Sys2Proof.Machine.execCamStatclr req value s
  | .visTbldata req value => Sys2Proof.Machine.execVisTbldata req value s
  | .archiveBand o => Sys2Proof.Machine.execArchiveBand o s
  | .expectedFold ecc => Sys2Proof.Machine.execExpectedFold ecc s
  | .inspectionWindow room => Sys2Proof.Machine.execInspectionWindow room s
  | .insStatclr req value => Sys2Proof.Machine.execInsStatclr req value s
  | .lampFrame c sts ecc => Sys2Proof.Machine.execLampFrame c sts ecc s
  | .lampStrobe c t late => Sys2Proof.Machine.execLampStrobe c t late s
  | .lampStrobeEnd c t => Sys2Proof.Machine.execLampStrobeEnd c t s
  | .diagPeriodEnd c b k => Sys2Proof.Machine.execDiagPeriodEnd c b k s
  | .diagLatchHoldEnd c => Sys2Proof.Machine.execDiagLatchHoldEnd c s
  | .chainIdent c => Sys2Proof.Machine.execChainIdent c s
  | .lmpCommit req chain => Sys2Proof.Machine.execLmpCommit req chain s
  | .safeNopTimer => Sys2Proof.Machine.execSafeNopTimer s
  | .twidle epoch role => Sys2Proof.Machine.execTwidle epoch role s
  | .twnHello role side last epoch seq tag gen => Sys2Proof.Machine.execTwnHello role side last epoch seq tag gen s
  | .twnHealth health encs => Sys2Proof.Machine.execTwnHealth health encs s
  | .jrec slot rec => Sys2Proof.Machine.execJrec slot rec s
  | .jfin slot final => Sys2Proof.Machine.execJfin slot final s
  | .jret slots => Sys2Proof.Machine.execJret slots s
  | .jack slot status => Sys2Proof.Machine.execJack slot status s
  | .twnInput x => Sys2Proof.Machine.execTwnInput x s
  | .twnSig head count sig => Sys2Proof.Machine.execTwnSig head count sig s
  | .twnPage body => Sys2Proof.Machine.execTwnPage body s
  | .twnCopy c => Sys2Proof.Machine.execTwnCopy c s
  | .twnDiag head count failed => Sys2Proof.Machine.execTwnDiag head count failed s
  | .resign cause counts => Sys2Proof.Machine.execResign cause counts s
  | .fence epoch => Sys2Proof.Machine.execFence epoch s
  | .mack mseq => Sys2Proof.Machine.execMack mseq s
  | .mnak mseq => Sys2Proof.Machine.execMnak mseq s
  | .messageResendTimer mseq => Sys2Proof.Machine.execMessageResendTimer mseq s
  | .sidebandFrame frame => Sys2Proof.Machine.execSidebandFrame frame s
  | .sidebandSend => Sys2Proof.Machine.execSidebandSend s
  | .aliveLost => Sys2Proof.Machine.execAliveLost s
  | .aliveRegained => Sys2Proof.Machine.execAliveRegained s
  | .twinLinkSilent => Sys2Proof.Machine.execTwinLinkSilent s
  | .formwaitExpiry => Sys2Proof.Machine.execFormwaitExpiry s
  | .sigTimeout head count => Sys2Proof.Machine.execSigTimeout head count s
  | .diagnosisComplete scrub slot => Sys2Proof.Machine.execDiagnosisComplete scrub slot s
  | .replicationTimeout => Sys2Proof.Machine.execReplicationTimeout s
  | .standbyLinkTimeout => Sys2Proof.Machine.execStandbyLinkTimeout s
  | .twnHelloSend => Sys2Proof.Machine.execTwnHelloSend s
  | .twnHealthSend => Sys2Proof.Machine.execTwnHealthSend s
  | .memoryScrub bad => Sys2Proof.Machine.execMemoryScrub bad s
  | .mramTest pattern => Sys2Proof.Machine.execMramTest pattern s
  | .macSelfTest failed => Sys2Proof.Machine.execMacSelfTest failed s
  | .twnInfo n => Sys2Proof.Machine.execTwnInfo n s
  | .twnSwap n => Sys2Proof.Machine.execTwnSwap n s
  | .twnRejoin n => Sys2Proof.Machine.execTwnRejoin n s
  | .twnResign n => Sys2Proof.Machine.execTwnResign n s
  | .twnForce n => Sys2Proof.Machine.execTwnForce n s
  | .pgfHello p rx => Sys2Proof.Machine.execPgfHello p rx s
  | .pgfAuth p rx => Sys2Proof.Machine.execPgfAuth p rx s
  | .rootadv p rx => Sys2Proof.Machine.execRootadv p rx s
  | .tsync p rx => Sys2Proof.Machine.execTsync p rx s
  | .pdreq p rx => Sys2Proof.Machine.execPdreq p rx s
  | .pdresp p rx => Sys2Proof.Machine.execPdresp p rx s
  | .addrreq p rx => Sys2Proof.Machine.execAddrreq p rx s
  | .addrgrant p rx => Sys2Proof.Machine.execAddrgrant p rx s
  | .topo p rx => Sys2Proof.Machine.execTopo p rx s
  | .toporeq p rx => Sys2Proof.Machine.execToporeq p rx s
  | .route p rx => Sys2Proof.Machine.execRoute p rx s
  | .refuse p rx => Sys2Proof.Machine.execRefuse p rx s
  | .epoch p rx => Sys2Proof.Machine.execEpoch p rx s
  | .pgfVjp p rx => Sys2Proof.Machine.execPgfVjp p rx s
  | .pgfVjpdata p rx => Sys2Proof.Machine.execPgfVjpdata p rx s
  | .fcred p good cls count ack => Sys2Proof.Machine.execFcred p good cls count ack s
  | .fnak p good lseq => Sys2Proof.Machine.execFnak p good lseq s
  | .pgfPacketSend p t => Sys2Proof.Machine.execPgfPacketSend p t s
  | .pgfReplayTimeout p => Sys2Proof.Machine.execPgfReplayTimeout p s
  | .fcredTimer p => Sys2Proof.Machine.execFcredTimer p s
  | .rootadvTimer => Sys2Proof.Machine.execRootadvTimer s
  | .rootadvAgeOut p => Sys2Proof.Machine.execRootadvAgeOut p s
  | .addrreqTimer => Sys2Proof.Machine.execAddrreqTimer s
  | .addressFree addr => Sys2Proof.Machine.execAddressFree addr s
  | .topoTimer => Sys2Proof.Machine.execTopoTimer s
  | .routeCompute => Sys2Proof.Machine.execRouteCompute s
  | .routePartDiscard => Sys2Proof.Machine.execRoutePartDiscard s
  | .refuseRepeat refid => Sys2Proof.Machine.execRefuseRepeat refid s
  | .epochBroadcastTimer => Sys2Proof.Machine.execEpochBroadcastTimer s
  | .tsyncTimer => Sys2Proof.Machine.execTsyncTimer s
  | .pdreqTimer => Sys2Proof.Machine.execPdreqTimer s
  | .pgfPortAttempt p => Sys2Proof.Machine.execPgfPortAttempt p s
  | .pgfPortAbort p why => Sys2Proof.Machine.execPgfPortAbort p why s
  | .pgfLaneAlign p mask => Sys2Proof.Machine.execPgfLaneAlign p mask s
  | .pgfPortDown p mask => Sys2Proof.Machine.execPgfPortDown p mask s
  | .pgfRetrain req ports => Sys2Proof.Machine.execPgfRetrain req ports s
  | .pgfStatclr req value => Sys2Proof.Machine.execPgfStatclr req value s
  | .ethLinkChange p lock => Sys2Proof.Machine.execEthLinkChange p lock s
  | .pause p quanta => Sys2Proof.Machine.execPause p quanta s
  | .arpRequest p mac sip ip => Sys2Proof.Machine.execArpRequest p mac sip ip s
  | .neighbourSolicitation p mac sip target => Sys2Proof.Machine.execNeighbourSolicitation p mac sip target s
  | .echoRequest p v6 mac sip dst data => Sys2Proof.Machine.execEchoRequest p v6 mac sip dst data s
  | .swrxFrame p frame vlan pcs err => Sys2Proof.Machine.execSwrxFrame p frame vlan pcs err s
  | .ethRxDrop p why => Sys2Proof.Machine.execEthRxDrop p why s
  | .ethTxkick req port => Sys2Proof.Machine.execEthTxkick req port s
  | .txFrameDone p pcs err => Sys2Proof.Machine.execTxFrameDone p pcs err s
  | .timedLaunch p t => Sys2Proof.Machine.execTimedLaunch p t s
  | .ethTxtsPop req => Sys2Proof.Machine.execEthTxtsPop req s
  | .ethRingSize req port rx value => Sys2Proof.Machine.execEthRingSize req port rx value s
  | .ethCounterClr req port => Sys2Proof.Machine.execEthCounterClr req port s
  | .announce p h a => Sys2Proof.Machine.execAnnounce p h a s
  | .ptpSync p h twoStep t1 pcs => Sys2Proof.Machine.execPtpSync p h twoStep t1 pcs s
  | .followUp p h t1 => Sys2Proof.Machine.execFollowUp p h t1 s
  | .delayReq p h pcs => Sys2Proof.Machine.execDelayReq p h pcs s
  | .delayResp p h req t4 => Sys2Proof.Machine.execDelayResp p h req t4 s
  | .pdelayReq p h pcs tx => Sys2Proof.Machine.execPdelayReq p h pcs tx s
  | .pdelayResp p h req twoStep t2 pcs => Sys2Proof.Machine.execPdelayResp p h req twoStep t2 pcs s
  | .pdelayRespFollowUp p h req t3 => Sys2Proof.Machine.execPdelayRespFollowUp p h req t3 s
  | .managementMessage p => Sys2Proof.Machine.execManagementMessage p s
  | .ptpSendTimer p kind tx => Sys2Proof.Machine.execPtpSendTimer p kind tx s
  | .syncTimeout p => Sys2Proof.Machine.execSyncTimeout p s
  | .announceReceiptTimeout p => Sys2Proof.Machine.execAnnounceReceiptTimeout p s
  | .holdoverExpiry => Sys2Proof.Machine.execHoldoverExpiry s
  | .ptpSnap req => Sys2Proof.Machine.execPtpSnap req s
  | .ptpRate req value => Sys2Proof.Machine.execPtpRate req value s
  | .ptpStep req value => Sys2Proof.Machine.execPtpStep req value s
  | .dramRequest cls addr lat err => Sys2Proof.Machine.execDramRequest cls addr lat err s
  | .refresh ch rank bank rt => Sys2Proof.Machine.execRefresh ch rank bank rt s
  | .mr4Poll codes => Sys2Proof.Machine.execMr4Poll codes s
  | .selfRefreshEntry ch => Sys2Proof.Machine.execSelfRefreshEntry ch s
  | .dramRetrainCheck ch drift => Sys2Proof.Machine.execDramRetrainCheck ch drift s
  | .dramRetrainDone fail => Sys2Proof.Machine.execDramRetrainDone fail s
  | .dmcFreq req value => Sys2Proof.Machine.execDmcFreq req value s
  | .freqChangeDone relock => Sys2Proof.Machine.execFreqChangeDone relock s
  | .dramScrub err => Sys2Proof.Machine.execDramScrub err s
  | .ceRateWindow => Sys2Proof.Machine.execCeRateWindow s
  | .dmcStatclr req value => Sys2Proof.Machine.execDmcStatclr req value s
  | .dmcUeaddrClear req => Sys2Proof.Machine.execDmcUeaddrClear req s
  | .dmaKick req chan => Sys2Proof.Machine.execDmaKick req chan s
  | .dmaDescriptorFetch err => Sys2Proof.Machine.execDmaDescriptorFetch err s
  | .dmaWriteback => Sys2Proof.Machine.execDmaWriteback s
  | .dmaBusError kind count => Sys2Proof.Machine.execDmaBusError kind count s
  | .dmaReset req => Sys2Proof.Machine.execDmaReset req s
  | .dmaRingSize req chan value => Sys2Proof.Machine.execDmaRingSize req chan value s
  | .faultReport reports damaged => Sys2Proof.Machine.execFaultReport reports damaged s
  | .safeJournalComplete => Sys2Proof.Machine.execSafeJournalComplete s
  | .fltInj req value => Sys2Proof.Machine.execFltInj req value s
  | .fltFwraise req value => Sys2Proof.Machine.execFltFwraise req value s
  | .fltPendClear req word value => Sys2Proof.Machine.execFltPendClear req word value s
  | .fltSafectlExit req value => Sys2Proof.Machine.execFltSafectlExit req value s
  | .fltHistclr req value => Sys2Proof.Machine.execFltHistclr req value s
  | .severityCheck copies words => Sys2Proof.Machine.execSeverityCheck copies words s
  | .harvest err => Sys2Proof.Machine.execHarvest err s
  | .harvestComplete => Sys2Proof.Machine.execHarvestComplete s
  | .harvestTimeout => Sys2Proof.Machine.execHarvestTimeout s
  | .feedOutOfRange feed mv => Sys2Proof.Machine.execFeedOutOfRange feed mv s
  | .feedSwitchOpen feed => Sys2Proof.Machine.execFeedSwitchOpen feed s
  | .oringFault feed => Sys2Proof.Machine.execOringFault feed s
  | .regulatorFault mv => Sys2Proof.Machine.execRegulatorFault mv s
  | .powerFailWarning => Sys2Proof.Machine.execPowerFailWarning s
  | .dieTempThreshold hot cold => Sys2Proof.Machine.execDieTempThreshold hot cold s
  | .dieSensorMismatch diff => Sys2Proof.Machine.execDieSensorMismatch diff s
  | .safeNLow => Sys2Proof.Machine.execSafeNLow s
  | .safeNShort => Sys2Proof.Machine.execSafeNShort s
  | .railChange ok => Sys2Proof.Machine.execRailChange ok s
  | .gpioEdge pad level => Sys2Proof.Machine.execGpioEdge pad level s
  | .feedRestored feed mv => Sys2Proof.Machine.execFeedRestored feed mv s
  | .supplyLoss => Sys2Proof.Machine.execSupplyLoss s
  | .safeNRelease => Sys2Proof.Machine.execSafeNRelease s
  | .alarmInputInactive n => Sys2Proof.Machine.execAlarmInputInactive n s

end Sys2Proof.Machine
end

