-- ==== Sys2Proof/Machine/Step.lean ====
section
/-! DEFINITION. The step: the command at the front of the queue runs with the queue's rest; on an
empty queue the free-running counter counts one nanosecond (DESIGN CHOICE, entry 1). -/

namespace Sys2Proof.Machine

/-- The state with its front command taken off and run by `f`. -/
def State.popFront (s : State) (rest : List Instr) : State := { s with pending := rest }

/-- One nanosecond passes: the free-running counter counts, modulo 2^64 (R3). -/
def State.tick (s : State) : State := { s with dev := { s.dev with c := (s.dev.c + 1) % 2 ^ 64 } }

/-- One step. -/
def step (s : State) : Host.Outcome State Fault Refusal :=
  match s.pending with
  | [] => .next s.tick
  | i :: rest => exec i (s.popFront rest)

/-- The state with the command that a word spells put at the front of the queue; unchanged where
the word spells none. -/
def State.withFetchWord (s : State) (nbits w : Nat) : State :=
  match Sys2Proof.decodeTableWord nbits w with
  | some i => { s with pending := i :: s.pending }
  | none => s

end Sys2Proof.Machine
end

