-- ==== Sys2Proof/Safety.lean ====
section
/-! DEFINITION. What a safe step is, and the terms in which the statements say what a command does. -/

namespace Sys2Proof.Machine

/-- The step does not end the run. -/
def Completes (o : Host.Outcome State Fault Refusal) : Prop := ∃ t, o = .next t

/-- The command completes, the queue is untouched, and `P` holds of the device `e` that the command's
own effect leaves: the next state's device is `e` once the margins follow the items (R309) and the
collector has taken the reports that stand in `e.reps` (R460). Where `e` has the items it had and no
report waits, the next state's device is `e` itself (`Obligations.QuietCommandEnds`). -/
def Ends (i : Instr) (s : State) (P : Dev → Prop) : Prop :=
  ∃ e, exec i s = .next { s with dev := (e.margins s.dev).settle } ∧ P e

/-- The frame: every register but those at the addresses `as` reads as before, every byte of memory
reads as before. -/
structure Frame (d e : Dev) (as : List Nat) : Prop where
  regs : ∀ a, a ∉ as → e.rd a = d.rd a
  mem : ∀ a, e.ldB a = d.ldB a

/-- The command has sent reports of the sources `ns`, in this order, after those that waited. -/
def Reports (d e : Dev) (ns : List Nat) : Prop :=
  e.reps.map (fun r => r.src) = d.reps.map (fun r => r.src) ++ ns

/-- The part is on and a 32-bit register write passes every check of R501: its status is OK. -/
def Granted (d : Dev) (req a v : Nat) : Prop := d.sys.off = false ∧ (d.busW req a 4 v).1 = sOk

/-- What the alarm `n` leaves (R89, R90): nothing of its own where it is not enabled; else its source bit, its interrupt, its
report, the erasure of the keys of its level, and ROOT_KILL where it is to be blown. -/
abbrev AlarmFires (d e : Dev) (n : Nat) : Prop :=
  let lv := d.get (F.SEC_ALARM_CFG_ERASE n)
  (d.get (F.SEC_ALARM_CFG_ENABLE n) = 0 → e.sec.keys = d.sec.keys ∧ e.sec.fuses = d.sec.fuses ∧ e.reps = d.reps ∧ e.mem = d.mem) ∧
  (d.get (F.SEC_ALARM_CFG_ENABLE n) = 1 →
    e.bit F.SEC_ALARM_STAT_SRC n = true ∧ e.get F.SEC_IRQ_STAT_ALARM = 1 ∧ 16 + n ∈ e.reps.map (fun r => r.src) ∧
    (lv = 0 → Reports d e [16 + n] ∧ e.mem = d.mem) ∧ (lv ≠ 0 → e.get F.SEC_IRQ_STAT_ERASED = 1 ∧ e.get F.SEC_STATUS_ERASED = 1) ∧
    e.sec.keys = d.sec.keys.filter (fun k => lv = 0 || !(lv = 2 || k.use % 2 = 1)) ∧
    e.sec.fuses = if d.get (F.SEC_ALARM_CFG_ROOTKILL n) = 1 then { d.sec.fuses with rootKill := [true, true, true] } else d.sec.fuses)

/-- Channel `n` has the mailbox's turn, and its request is that of the row `r` with checks 1 to 4 of R87 passed. -/
abbrev Asks (d : Dev) (n : Nat) (r : MbxRow) : Prop :=
  d.mbxTurn = some n ∧ d.reqHead n % 2 ^ 8 = r.op ∧ d.reqHead n / 2 ^ 8 % 2 ^ 8 = r.len ∧ d.reqHead n / 2 ^ 24 = 0 ∧
  (r.group = 7 ∨ d.bit F.SEC_MBX_ALLOW_GROUP r.group = true) ∧ d.mbxAllows r.states = true

/-- The registers that an answer on channel `n` writes. -/
def mbxRegs (n : Nat) : List Nat :=
  [R.MBX_TPEND, R.MBX_IRQ_STAT, R.MBX_CTL n] ++ (List.range 16).map fun k => R.MBX_RSP_W n k

/-- The request of channel `n` has been answered: status, words, tag and opcode in the response words, DONE, BUSY clear, the
channel's interrupt, and the round robin past it (R85, R86). -/
abbrev Answered (d e : Dev) (n st : Nat) (ws : List Nat) : Prop :=
  e.out.head? = some (.mbx n st ws) ∧
  (e.rd (R.MBX_RSP_W n 0)).toNat =
    (st + ws.length * 2 ^ 8 + d.reqHead n / 2 ^ 16 % 2 ^ 8 * 2 ^ 16 + d.reqHead n % 2 ^ 8 * 2 ^ 24) % 2 ^ 32 ∧
  (∀ k : Fin 15, k.val < ws.length → (e.rd (R.MBX_RSP_W n (k + 1))).toNat = nth ws k 0 % 2 ^ 32) ∧
  e.get (F.MBX_CTL_DONE n) = 1 ∧ e.get (F.MBX_CTL_BUSY n) = 0 ∧ e.bit F.MBX_IRQ_STAT_DONE n = true ∧
  e.bit F.MBX_TPEND_PEND n = false ∧ e.sys.mbxNext = (n + 1) % 4

/-- The request of channel `n` has been answered with a status alone, and nothing else has changed (R87). -/
abbrev Declined (d e : Dev) (n st : Nat) : Prop :=
  Answered d e n st [] ∧ Frame d e (mbxRegs n) ∧
  e = { d with regs := e.regs, sys := { d.sys with mbxNext := (n + 1) % 4 }, out := .mbx n st [] :: d.out }

/-- The messages to the host that a command has sent: session slot, type and body (R98). -/
def sentVjp (d e : Dev) : List (Nat × Nat × List Byte) :=
  (e.out.take (e.out.length - d.out.length)).filterMap fun o =>
    match o with
    | .vjp n type _ b => some (n, type, (b.drop 32).take (b.length - 48))
    | _ => none

/-- A RESULT has left on slot `n` (R109): the request's SEQ and type, status, state, reason, item and value. -/
abbrev ResultSent (d e : Dev) (n seq type status state reason item x : Nat) : Prop :=
  (n, 0x20, leBytes 4 seq ++ leBytes 1 type ++ leBytes 1 status ++ leBytes 1 state ++ leBytes 1 reason ++ leBytes 8 item ++
    leBytes 8 x ++ leBytes 8 0) ∈ sentVjp d e

/-- A message of an open session comes in its turn from a port that may send it, its TAG holds, and the session has room to
answer at once (R97 to R99, R103, R104). -/
abbrev InTurn (d : Dev) (port : Nat) (v6 : Bool) (m : VjpMsg) : Prop :=
  d.netLets port v6 = true ∧ vjpFmtOk m = true ∧ d.sessState m.slot = 1 ∧ m.sid = d.get (F.ITK_SESS_SID_SID m.slot) ∧
  vjpTagOk (d.sess m.slot).key m = true ∧ m.seq = (d.sess m.slot).ack ∧ (d.sess m.slot).held = [] ∧
  (d.sess m.slot).unacked.length < 256 ∧ (d.sess m.slot).waiting = []

/-- What a message of session slot `n` may change beside its own effect: the session's acknowledgements and what is sent. -/
abbrev SessionOnly (d e : Dev) (n : Nat) : Prop :=
  Frame d e [R.ITK_SESS_STAT n] ∧
  e = { d with regs := e.regs, out := e.out, itk := { d.itk with sess := e.itk.sess } } ∧
  ∀ k, k ≠ n → e.sess k = d.sess k

/-- An upstream control block of a head lane that is not taken in (R275): its lane's error count rises, and nothing else but the
rate interrupt and the lane's own rate count can change. -/
abbrev UpstreamBad (d e : Dev) (l : Nat) : Prop :=
  Frame d e [R.HLK_LANE_ERR l, R.HLK_IRQ_STAT] ∧ e = { d with regs := e.regs, fir := { d.fir with lanes := e.fir.lanes } } ∧
  e.get (F.HLK_LANE_ERR_CTLERR l) = min 65535 (d.get (F.HLK_LANE_ERR_CTLERR l) + 1)

/-- Head lane `l` has come to state `st` (R289): its line, its bit in its head group, and the group's DEGRADE flag follow. -/
abbrev LaneNow (e : Dev) (l st : Nat) : Prop :=
  e.get (F.HLK_LANE_STAT_STATE l) = st ∧ e.get F.HLK_IRQ_STAT_LINK = 1 ∧
  e.bit (F.HLK_HG_STAT_UP (l / 3)) (l % 3) = (st == 3) ∧
  e.get (F.NZM_HG_FLAGS_DEGRADE (l / 3)) = if e.hgReady (l / 3) then 0 else 1

/-- The registers that a lane's change of state writes. -/
def laneRegs (l : Nat) : List Nat := [R.HLK_LANE_STAT l, R.HLK_IRQ_STAT, R.HLK_HG_STAT (l / 3), R.NZM_HG_FLAGS (l / 3)]

/-- A control block of a tile lane that is not taken in (R275): its lane's error count rises, and nothing else. -/
abbrev TileBad (d e : Dev) (l : Nat) : Prop :=
  Frame d e [R.CAM_TLANE_ERR l] ∧ e = { d with regs := e.regs } ∧
  e.get (F.CAM_TLANE_ERR_CTLERR l) = min 65535 (d.get (F.CAM_TLANE_ERR_CTLERR l) + 1)

/-- The attempt of tile lane `l` is aborted with the reason `why` (R323). -/
abbrev TileAborts (d e : Dev) (l why : Nat) : Prop :=
  Frame d e [R.CAM_TLANE_STAT l, R.CAM_IRQ_STAT] ∧ e = { d with regs := e.regs, cam := { d.cam with acks := e.cam.acks } } ∧
  e.get (F.CAM_TLANE_STAT_STATE l) = 2 ∧ e.get (F.CAM_TLANE_STAT_LASTFAIL l) = why ∧ e.get F.CAM_IRQ_STAT_LINK = 1 ∧
  nth e.cam.acks l [] = []

/-- A frame has been received on port `p` (R418), and, where `own` holds, answered with a frame of this kind and body. -/
abbrev EthAnswers (d e : Dev) (p : Nat) (own : Prop) (kind : Nat) (body : List Nat) : Prop :=
  Frame d e [R.ETH_PORT_RXFRAMES p, R.ETH_PORT_TXFRAMES p] ∧ e = { d with regs := e.regs, out := e.out } ∧
  e.get (F.ETH_PORT_RXFRAMES_COUNT p) = (d.get (F.ETH_PORT_RXFRAMES_COUNT p) + 1) % 2 ^ 32 ∧
  (own → e.out = .eth p kind body :: d.out ∧
    e.get (F.ETH_PORT_TXFRAMES_COUNT p) = (d.get (F.ETH_PORT_TXFRAMES_COUNT p) + 1) % 2 ^ 32) ∧
  (¬ own → e.out = d.out ∧ e.rd (R.ETH_PORT_TXFRAMES p) = d.rd (R.ETH_PORT_TXFRAMES p))

/-- A SLAVE port has an origin time with its correction, the receive time `t2` and the offset `o` in ns (R431, R432): they are
kept, and where the port is the source, the offset shows, and the servo or a step takes it. -/
abbrev OffsetTaken (d e : Dev) (p : Nat) (t1 t2 o : Int) : Prop :=
  let mine := d.ptp.source.any (fun x => x.1 == 1 && x.2.1 == p) = true
  let lim : Int := 2 ^ 31 - 1
  let far := d.get F.PTP_THR_STEPTHR * 1000 < o.natAbs
  (e.pport p).pend = none ∧ (e.pport p).last = some (t1, t2 * 65536) ∧
  (¬ mine → Frame d e [R.PTP_PORT_STAT p] ∧ e.reps = d.reps) ∧
  (mine → (e.rd R.PTP_OFFSET).toNat = ux 32 (clampI (-lim) lim o) ∧ e.get F.PTP_IRQ_STAT_OFFSET = 1 ∧
    (d.tstate = tsAcquire → far → d.get F.PTP_CFG_SERVO = 1 → 165 ∈ e.reps.map (fun r => r.src) ∧ e.get F.PTP_IRQ_STAT_STEP = 1 ∧
      e.ptp.t0 = d.ptp.t0 - o ∧ e.ptp.integ = 0) ∧
    (d.tstate = tsSync → far → 164 ∈ e.reps.map (fun r => r.src) ∧ e.tstate = tsAcquire ∧ e.ptp.source = d.ptp.source) ∧
    (d.tstate = tsAcquire → o.natAbs ≤ d.get F.PTP_THR_LOCKTHR → ¬ far → e.tstate = if 7 ≤ d.ptp.inRow then tsSync else tsAcquire))

/-- The receiving port after a packet has been taken in order (R401, R403): the next LSEQ is expected, and its credits are to
be returned. -/
def fabGot (d : Dev) (p : Nat) (k : FabPkt) : Dev :=
  d.onFport p fun x =>
    let back := if k.cls = 0 then x.back else x.back.modify (k.cls - 1) fun n => n + fabCredits k
    { x with expect := (x.expect + 1) % 4096, got := true, nak := none, back := back }

/-- What a packet of type `ty` does at its port (R399, R403): nothing at a port that takes none; one that is bad or out of
order asks for a resend and is not taken; one that does not fit its type is counted; else `own` holds. -/
abbrev FabArrives (d e : Dev) (p : Nat) (rx : FabRx) (ty : Nat) (own : Prop) : Prop :=
  let x := d.fport p
  let k : FabPkt := { rx.pkt with ptype := ty }
  let good := rx.crcOk = true ∧ rx.ecc = false
  let asked := x.nak.any (fun n => n.1 == x.expect && decide (d.c < n.2 + 2000)) = true
  if d.fportUp p = false ∧ ¬ (d.fstate p = fpTraining ∧ 3 ≤ x.step) then e = d
  else if ¬ good ∨ rx.lseq ≠ x.expect ∨ rx.nblk ≠ fabNblk k ∨ rx.resv = false then
    Frame d e [R.PGF_PORT_ERR p, R.PGF_IRQ_STAT] ∧ e.itk = d.itk ∧ (e.fport p).expect = x.expect ∧ (e.fport p).queue = x.queue ∧
    (e.out = if asked then d.out else .pgf p 0xAA [x.expect] :: d.out) ∧
    e.get (F.PGF_PORT_ERR_CRCERR p) = min 65535 (d.get (F.PGF_PORT_ERR_CRCERR p) + if good then 0 else 1) ∧
    Reports d e (if rx.ecc then [159] else [])
  else match ptypeInfo ty with
    | none => False
    | some (cls, lo, hi) =>
      if cls ≠ k.cls ∨ k.len < lo ∨ hi < k.len then
        Frame d e [R.PGF_DROP] ∧ e = { fabGot d p k with regs := e.regs } ∧ e.get F.PGF_DROP_BAD = min 1023 (d.get F.PGF_DROP_BAD + 1)
      else own

/-- A fabric port has joined packets of these types to its output queue. -/
abbrev FabSends (d e : Dev) (p : Nat) (tys : List Nat) : Prop :=
  (e.fport p).queue.map (fun k => k.ptype) = (d.fport p).queue.map (fun k => k.ptype) ++ tys

/-- A resend of the packets `ls` is due on port `p` (R403): they wait in their order, or, where one of them has been resent
eight times, the port goes DOWN with LASTFAIL 7 and source 152. -/
abbrev Resends (d e : Dev) (p : Nat) (ls : List Nat) : Prop :=
  let x := d.fport p
  if x.replay.any (fun r => ls.contains r.lseq && 8 ≤ r.again) = true then
    e.fstate p = fpTraining ∧ e.get (F.PGF_PORT_STAT_LASTFAIL p) = 7 ∧ (e.fport p).step = 1 ∧ (e.fport p).replay = [] ∧
    (d.fportUp p = true → 152 ∈ e.reps.map (fun r => r.src)) ∧ e.itk = d.itk
  else e.fport p = { x with resend := ls } ∧ e = { d with pgf := { d.pgf with ports := e.pgf.ports } } ∧ ∀ q, q ≠ p → e.fport q = d.fport q

/-- The root is the best rank among the device's own and those of the adverts (R407). -/
def RootChosen (d e : Dev) (advs : List (Nat × RootAdv)) : Prop :=
  match e.pgf.root with
  | none => False
  | some b =>
    (b = d.rank ∨ b ∈ advs.map fun a => (a.2.prio, a.2.uid)) ∧ rankLt d.rank b = false ∧
    (∀ a ∈ advs, rankLt (a.2.prio, a.2.uid) b = false) ∧
    (d.pgf.root ≠ none → d.pgf.root ≠ some b → e.get F.PGF_IRQ_STAT_ROOT = 1 ∧ 154 ∈ e.reps.map (fun r => r.src)) ∧
    (d.pgf.root ≠ some b → e.isRoot = (b == d.rank))

/-- A packet has been taken at port `p` and gone on up the tree, or been dropped under the hop limit (R400, R410). -/
def ForwardedUp (d e : Dev) (p : Nat) (k : FabPkt) : Prop :=
  match d.pgf.parent with
  | none => e = fabGot d p k
  | some q =>
    if 31 ≤ k.hops then e.get F.PGF_DROP_HOPS = min 2047 (d.get F.PGF_DROP_HOPS + 1) ∧ Frame d e [R.PGF_DROP, R.PGF_IRQ_STAT] ∧ e.itk = d.itk
    else e = (fabGot d p k).fabQueue q { k with hops := k.hops + 1 }

/-- A broadcast has gone on to every other tree port (R411). -/
abbrev Forwarded (d e : Dev) (p : Nat) (k : FabPkt) : Prop :=
  ∀ q, q < 4 → q ≠ p → d.treePort q = true → k.hops < 31 → { k with hops := k.hops + 1 } ∈ (e.fport q).queue

/-- What a VJP packet does that has been taken at port `p` (R410, R412): one for another address goes on by its route or is
dropped; at its own address it needs VJPEN, and a message that does not parse is dropped. -/
abbrev VjpArrives (d e : Dev) (p : Nat) (rx : FabRx) (k : FabPkt) : Prop :=
  let out := if d.get F.PGF_STAT_ADDRVALID = 1 ∧ k.dst = d.get F.PGF_STAT_ADDR then 4 else d.fabRoute k.dst
  if d.fportUp p = false then e = fabGot d p k
  else if out = 4 then
    if d.get F.PGF_CFG_VJPEN = 0 then
      Frame d e [R.PGF_DROP] ∧ e = { fabGot d p k with regs := e.regs } ∧ e.get F.PGF_DROP_BAD = min 1023 (d.get F.PGF_DROP_BAD + 1)
    else match parseVjp rx.pkt.payload with
      | none => e = if d.itkUp then (fabGot d p k).fmtDrop else fabGot d p k
      | some m => e = (fabGot d p k).vjpIn k.src m
  else if out < 4 ∧ out ≠ p then
    if 31 ≤ k.hops then e.get F.PGF_DROP_HOPS = min 2047 (d.get F.PGF_DROP_HOPS + 1) ∧ e.itk = d.itk
    else e = (fabGot d p k).fabQueue out { k with hops := k.hops + 1 }
  else e.get F.PGF_DROP_NOROUTE = min 2047 (d.get F.PGF_DROP_NOROUTE + 1) ∧ Frame d e [R.PGF_DROP, R.PGF_IRQ_STAT] ∧ e.itk = d.itk

/-- DMA channel `c` has stopped on its own (R455, R456), which is source 177. -/
abbrev DmaStopped (d e : Dev) (c : Nat) : Prop :=
  e.get (F.DMA_CH_STAT_STATE c) = 2 ∧ e.get F.DMA_IRQ_STAT_CHSTOP = 1 ∧ Reports d e [177]

/-- A DMA descriptor has been written back (R453), and nothing else stored, where `m` is memory before: COUNT, and FLAGS without
OWN, RESULT and CODE; the ring goes on; IRQ and an error show. -/
abbrev DmaBack (m e : Dev) (x : DmaDesc) (result code count : Nat) : Prop :=
  e.ld (x.at' + 24) 4 = count % 2 ^ 32 ∧ e.ld (x.at' + 20) 4 = (x.flags / 2 * 2 + result * 2 ^ 8 + code * 2 ^ 16) % 2 ^ 32 ∧
  (∀ a, a < x.at' + 20 ∨ x.at' + 28 ≤ a → e.ldB a = m.ldB a) ∧
  e.get (F.DMA_CH_STAT_NEXT x.ch) = (m.get (F.DMA_CH_STAT_NEXT x.ch) + 1) % max 1 (m.get (F.DMA_CH_SIZE_ENTRIES x.ch)) % 2 ^ 12 ∧
  (bitB x.flags 2 = true → e.bit F.DMA_DONE_CH x.ch = true ∧ e.get F.DMA_IRQ_STAT_DONE = 1) ∧
  (result = 2 → e.get F.DMA_STAT_ERRCH = x.ch % 16 ∧ e.get F.DMA_STAT_CODE = code)

/-- A valid block has come on the twin link (R375): it is not silent, and a hold of acceptance that its silence began ends (R385). -/
def twnHeardBy (d : Dev) : Dev :=
  if d.twn.silent = true then { (d.put F.TWN_STAT_ACCHOLD 0) with twn := { d.twn with silent := false } } else d

/-- A message of the twin link has been taken (R375): the link is heard, MACK answers, and the next MSEQ is expected. -/
def twnGot (d : Dev) : Dev :=
  let x := twnHeardBy d
  { x with out := .twn 0x5A [d.twn.rxSeq] :: d.out, twn := { x.twn with rxSeq := (d.twn.rxSeq + 1) % 2 ^ 16 } }

/-- The chip is FENCED, and where it was not, source 40 is raised, ACT leaves the head links and the last role is stored (R378, R392). -/
abbrev Fenced (x e : Dev) : Prop :=
  e.role = roleFenced ∧ (x.role ≠ roleFenced → 40 ∈ e.reps.map (fun r => r.src) ∧ e.get F.TWN_IRQ_STAT_ROLE = 1 ∧ e.get F.HLK_EPOCH_ACT = 0 ∧
    (x.mramBad = [] → x.sys.powerFail = false → e.lastRole = roleFenced))

/-- A chip that was not ACTIVE is ACTIVE with the epoch `ep` (R378, R379, R385): alone, nothing waiting for a partner, the epoch
and the last role stored. -/
abbrev ActiveNow (x e : Dev) (ep : Nat) : Prop :=
  e.role = roleActive ∧ (e.rd R.TWN_EPOCH).toNat = ep % 2 ^ 32 ∧ e.get F.TWN_STAT_ALONE = 1 ∧ e.get F.TWN_STAT_ACCHOLD = 0 ∧
  e.twn.starting = false ∧ e.twn.jackWait = [] ∧ e.twn.diag = none ∧ e.get F.HLK_EPOCH_ACT = 1 ∧ e.get F.HLK_EPOCH_EPOCH = ep % 2 ^ 16 ∧
  (x.mramBad = [] → x.sys.powerFail = false → e.lastRole = roleActive ∧ compVal (e.mrd dwEpoch) = some (ep % 2 ^ 32))

/-- A STANDBY has taken over (R389, R390): ACTIVE with the next epoch, the takeover counted with its cause and time, source 38,
and the items of the uncertain events, those fired from 100 ns before the last ALIVE edge, INTERRUPTED with reason RESET_FIRING. -/
abbrev TakesOver (x e : Dev) (cause : Nat) (ids : List Nat) : Prop :=
  let unc := if cause = 1 then x.fir.heads.filter fun h => h.lastCmd.any fun t => decide ((x.twn.aliveC - 100) * 1000 ≤ t) else []
  ActiveNow x e (x.epoch + 1) ∧ e.get F.TWN_TKOCNT_COUNT = min (2 ^ 32 - 1) (x.get F.TWN_TKOCNT_COUNT + 1) ∧
  e.get F.TWN_LASTTKO_CAUSE = cause ∧ e.get F.TWN_LASTTKO_UNCERTAIN = unc.length % 2 ^ 16 ∧
  (e.rd R.TWN_TKOTIMELO).toNat = x.c % 2 ^ 32 ∧ e.get F.TWN_IRQ_STAT_TAKEOVER = 1 ∧ 38 ∈ e.reps.map (fun r => r.src) ∧
  (x.mramBad = [] → x.sys.powerFail = false → ∀ id ∈ ids ++ (unc.map fun h => h.lastItems).flatten,
    match x.findItem id with
    | some i => i.live = true → i.stuck = false → (e.findItem id).map (fun j => (j.state, j.reason)) = some (isInterrupted, 0x0C)
    | none => True)

/-- The partner has shown its role and epoch (R380, R384, R385, R392): they are kept; a later epoch than the chip's own fences it;
an ACTIVE begins COPY when its partner joins and goes on alone when it leaves. -/
abbrev PartnerShows (x e : Dev) (r ep : Nat) : Prop :=
  let later := x.get F.TWN_CFG_PAIR = 1 ∧ later32 ep (x.rd R.TWN_EPOCH).toNat = true
  e.get F.TWN_STAT_PROLE = r ∧ (e.rd R.TWN_PEPOCH).toNat = ep ∧
  (later → e.get F.TWN_IRQ_STAT_EPOCH = 1 ∧ (x.role ≠ roleFenced → e.role ≠ roleActive ∧ 40 ∈ e.reps.map (fun r => r.src))) ∧
  (¬ later → x.role ≠ roleFenced → e.role = x.role ∧ e.reps = x.reps) ∧
  (¬ later → x.role = roleActive → r = roleSyncing → x.get F.TWN_STAT_PROLE ≠ roleSyncing → e.get F.TWN_STAT_ALONE = 0 ∧
    (match e.out.head? with
      | some (.twn ty l) => ty = 0x30 ∧ l.tail = [255, x.epoch, 0]
      | _ => False)) ∧
  (¬ later → x.role = roleActive → r ≠ roleSyncing → r ≠ roleStandby → e.get F.TWN_STAT_ALONE = 1)

/-- A FENCED chip that is not starting joins its partner again on its own (R379, R392). -/
abbrev Rejoins (x : Dev) (partner : Nat) (tag seq : Nat) : Prop :=
  x.twn.starting = false ∧ x.get F.TWN_CFG_AUTOREJOIN = 1 ∧ x.get F.TWN_STAT_LINKUP = 1 ∧ partner = roleActive ∧ x.health = 0 ∧
  tag = (x.rd R.TWN_PAIRTAG).toNat ∧ seq = x.cfg.seq

/-- A divergence on head `h` at event `count` (R386, R387): counted, kept with the items of the event, and, where no diagnosis
runs, one begins, which is source 39. -/
abbrev Diverges (x e : Dev) (h count : Nat) (items : List Nat) : Prop :=
  e.get F.TWN_DIVCNT_COUNT = min (2 ^ 32 - 1) (x.get F.TWN_DIVCNT_COUNT + 1) ∧ e.get F.TWN_IRQ_STAT_DIVERGE = 1 ∧
  e.twn.divs = x.twn.divs ++ [(h, count, items)] ∧
  (x.twn.diag = none → e.twn.diag.map (fun g => (g.head, g.count, g.own)) = some (h, count, none) ∧ e.get F.TWN_STAT_DIAG = 1 ∧ Reports x e [39]) ∧
  (x.twn.diag ≠ none → e.twn.diag.map (fun g => (g.head, g.count, g.own)) = x.twn.diag.map (fun g => (g.head, g.count, g.own)) ∧ e.reps = x.reps)

/-- The outcome of a diagnosis whose two results are `mine` and `his` (R387, R388). -/
abbrev Diagnosed (x e : Dev) (mine his : Bool) : Prop :=
  let both := mine = false ∧ his = false
  e.twn.diag = none ∧ e.get F.TWN_STAT_DIAG = 0 ∧
  (x.role = roleActive → mine = false → his = true → e.role = roleFenced ∧ 38 ∈ e.reps.map (fun r => r.src) ∧ e.twn.tko = x.takeoverCounts ∧
    e.get F.TWN_LASTTKO_CAUSE = 2) ∧
  (x.role = roleActive → mine = true ∨ his = false → e.role = roleActive ∧ Reports x e (if both then [43] else [])) ∧
  (x.role = roleStandby → mine = true → his = false → e.role = roleStandby ∧ e.reps = x.reps) ∧
  (x.role = roleStandby → mine = false ∨ his = true → Fenced x e ∧ (both → 43 ∈ e.reps.map (fun r => r.src)))

/-- A register write at `a` has been answered OK (R19, R501): beside the registers `l` nothing reads otherwise, no item changes
and no report is sent. -/
abbrev WriteOk (d e : Dev) (req a : Nat) (l : List Nat) : Prop :=
  Frame d e l ∧ e.out.head? = some (.reg req a sOk 0) ∧ e.itk = d.itk ∧ e.reps = d.reps

/-- A write to SRD_LANEl_CTL has been taken (R298, R299): PRBSERR is 0, and a lane without power holds no lock. -/
abbrev LaneControl (d e : Dev) (req l : Nat) : Prop :=
  WriteOk d e req (R.SRD_LANE_CTL l) [R.SRD_LANE_CTL l, R.SRD_LANE_PRBSERR l, R.SRD_LANE_STAT l] ∧ e.rd (R.SRD_LANE_PRBSERR l) = 0 ∧
  (e.lanePowered l = true → e.rd (R.SRD_LANE_STAT l) = d.rd (R.SRD_LANE_STAT l)) ∧
  (e.lanePowered l = false → e.get (F.SRD_LANE_STAT_LOWPWR l) = 1 ∧ e.get (F.SRD_LANE_STAT_PLLLOCK l) = 0 ∧ e.get (F.SRD_LANE_STAT_CDRLOCK l) = 0)

/-- A command to head boards whose two writes pass (R286): HLK_CMD holds its fields, the next tag is in use, and the answer of
every head that it names is awaited. -/
abbrev HeadCommand (d e : Dev) (req : Nat) (hg head : Fin 8) (opc arg : Nat) (all : Bool) : Prop :=
  let v := hg.val * 16 + head.val * 256 + all.toNat * 2048 + opc * 4096 + arg % 2 ^ 16 * 2 ^ 16
  Granted d req R.HLK_CMD v → Granted (d.busWrite req R.HLK_CMD 4 v) req R.HLK_CMDGO 1 →
    (e.rd R.HLK_CMD).toNat = v ∧ e.get F.HLK_CMDSTAT_STATE = 1 ∧ e.get F.HLK_CMDSTAT_STATUS = 0 ∧ e.fir.cmdTag = (d.fir.cmdTag + 1) % 256 ∧ e.fir.cmdT = d.c ∧
    e.fir.cmdWait = (if all then e.hgHeads hg else [8 * hg.val + head.val]) ∧ Frame d e [R.HLK_CMD, R.HLK_CMDSTAT] ∧ e.itk = d.itk ∧
    e.out.head? = some (.reg req R.HLK_CMDGO sOk 0)

/-- A hart's write reaches its block and is not barred (R23, R40, R381): the part is on, the islands are out of reset, and the
chip does not follow a partner. -/
abbrev HartWrites (d : Dev) (req : Nat) : Prop :=
  req < 4 ∧ d.sys.off = false ∧ d.sys.refclk = true ∧ d.st? ≠ stBoot ∧ d.st? ≠ stImage ∧ d.st? ≠ stConfigFail ∧ d.role ≠ roleStandby ∧
  d.role ≠ roleSyncing

/-- The stores are in canonical form, and C is a 64-bit number (R3). -/
structure InForm (s : State) : Prop where
  mem : s.dev.mem.wf = true
  flash : s.dev.flash.flashWf = true
  regs : s.dev.regs.wf = true
  act : s.dev.act.wf = true
  time : s.dev.c < 2 ^ 64

/-- Writes of MRAM words succeed and read back. -/
abbrev MramGood (d : Dev) : Prop := d.mramBad = [] ∧ d.sys.powerFail = false

/-- The item ends NOT_PRINTED with reason FIELD and leaves IMP (R210), where its FINAL word can be written. -/
abbrev FieldFails (x e : Dev) (i : Item) : Prop :=
  e.ras.impWork = none ∧ i.id ∉ e.ras.impQ ∧ e.get F.IMP_IRQ_STAT_FIELD = 1 ∧ e.get F.IMP_ERR_VALID = 1 ∧ 72 ∈ e.reps.map (fun r => r.src) ∧
  (MramGood x → x.decides = true → i.live = true → i.stuck = false → x.findItem i.id = some i →
    (e.findItem i.id).map (fun j => (j.state, j.reason)) = some (isNotPrinted, 0x0A))

/-- What drawing and writing an item's fields leaves (R207 to R210): a failure, a wait for room, or the rasters in the store. -/
def FieldsEnd (x e : Dev) (i : Item) (h : StreamHdr) (T err : Nat) : Prop :=
  match x.drawAll i h T x.ras.impTags (x.fieldPlan i) with
  | .error _ => FieldFails x e i
  | .ok fs =>
    let n := fs.foldl (fun k f => k + f.size) 0
    if err = 1 then FieldFails x e i ∧ 74 ∈ e.reps.map (fun r => r.src)
    else if err = 2 then FieldFails x e i ∧ 78 ∈ e.reps.map (fun r => r.src)
    else if 2 ^ 20 < n then FieldFails x e i
    else match x.storePlace n with
      | none => e.ras.impRoom = true ∧ (x.ras.impRoom = false → e.get F.IMP_IRQ_STAT_FRFULL = 1 ∧ Reports x e [75]) ∧ ∀ a, e.ldB a = x.ldB a
      | some o =>
        let base := dramBase + 2 ^ 20 * x.get F.IMP_FRBASE_MIB + o
        e.reps = x.reps ∧ e.ras.impWork = none ∧ i.id ∉ e.ras.impQ ∧
        (∀ j ∈ e.itk.items, j.id = i.id → j.rendered = true ∧ j.rasters.map (fun r => (r.tpl, r.x, r.y)) = fs.map fun f => (f.tpl, f.x, f.y)) ∧
        ∀ a, a < base ∨ base + n ≤ a → e.ldB a = x.ldB a

end Sys2Proof.Machine
end

