-- ==== Sys2Proof/Certificates/Slice0/Obligations.lean ====
section
/-! DEFINITION. The statements for the provers: what each command of the table does, from the numbered rules of the spec, and the
promises that hold of every step. `Ends` (Safety.lean) says that a command completes and what device its own effect leaves. -/

set_option maxRecDepth 4000

open Sys2Proof Sys2Proof.Machine

/-- A step runs the command at the front of the queue with the queue's rest. -/
def Obligations.StepRunsFront : Prop :=
  ∀ (i : Instr) (s : State), step { s with pending := i :: s.pending } = exec i s

/-- R15, R18, R42, R44: a claim, the machine timer, the clock checks, the trusted watchdog. The time that
an expiry stands at is the model's choice (log entry 1). -/
def Obligations.TimersAndClocks : Prop :=
  (∀ (s : State) (ctx : Fin 8), Ends (.interruptClaim ctx) s fun e =>
    let d := s.dev
    let id := d.plicBest ctx
    e = { d with out := e.out, sys := e.sys } ∧ e.out = .claim ctx id :: d.out ∧
    e.sys = { d.sys with claimed := if id = 0 then d.sys.claimed else id :: d.sys.claimed }) ∧
  (∀ (s : State) (h : Fin 4), Ends (.machineTimerExpiry h) s fun e =>
    let d := s.dev
    e = { d with c := e.c, sys := e.sys } ∧ e.c = max d.c (nth d.sys.mtimecmp h 0) % 2 ^ 64 ∧
    e.sys = { d.sys with mtip := upd d.sys.mtip h fun _ => true }) ∧
  (∀ (s : State) (ppm : Int), Ends (.clockCheckWindow ppm) s fun e =>
    let d := s.dev
    let bad := 20000 < ppm.natAbs
    Frame d e [R.SYS_CLKCHK, R.SYS_IRQ_STAT] ∧
    e = { d with regs := e.regs, reps := e.reps, freeCtr := e.freeCtr } ∧
    e.get F.SYS_CLKCHK_PPM = ux 24 ppm ∧
    (e.rd R.SYS_IRQ_STAT).toNat = (if bad then setBits (d.rd R.SYS_IRQ_STAT).toNat 3 1 1 else (d.rd R.SYS_IRQ_STAT).toNat) ∧
    Reports d e (if bad then [0] else [])) ∧
  (∀ s : State, Ends .refclkLoss s fun e =>
    let d := s.dev
    e = { d with sys := e.sys, reps := e.reps, freeCtr := e.freeCtr } ∧
    e.sys = { d.sys with refclk := false } ∧ Reports d e [1]) ∧
  (∀ s : State, Ends .trustedWatchdogExpiry s fun e =>
    let d := s.dev
    let runs := d.st? = stSelftest ∨ d.running ∨ d.st? = stSafe
    e = { d with c := e.c, reps := e.reps, freeCtr := e.freeCtr } ∧
    e.c = (if runs then max d.c (d.sys.twdC + 100000000) % 2 ^ 64 else d.c) ∧
    Reports d e (if runs then [2] else []))

/-- R44, R46, R480: what the device resets leave and keep. -/
def Obligations.ResetCommands : Prop :=
  (∀ (s : State) (a b v : Bool), Ends (.powerOnReset a b v) s fun e =>
    let d := s.dev
    if a || b then
      e.st? = stBoot ∧ (e.rd R.SYS_RSTCAUSE).toNat = 1 ∧ e.sec.fuses = d.sec.fuses ∧ e.flash = d.flash ∧ e.reps = [] ∧
      e.mem = (d.mem.filter fun c => decide (mramBase ≤ c.1) && decide (c.1 < sramBase)) ∧
      (d.mem.wf → ∀ x, e.ldB x = if mramBase ≤ x ∧ x < sramBase then d.ldB x else memDefault) ∧
      e.itk = {} ∧ e.cfg = {} ∧ e.sys.off = false ∧ e.sys.refclk = true ∧
      e.get F.PIN_PWRSTAT_VINA_OK = a.toNat ∧ e.get F.PIN_PWRSTAT_VINB_OK = b.toNat
    else e = d) ∧
  (∀ s : State, Ends .rstNAssert s fun e =>
    let d := s.dev
    e.sys.rstN = false ∧ (∀ x, e.ldB x = d.ldB x) ∧ e.sec.fuses = d.sec.fuses ∧ e.flash = d.flash ∧
    if d.sys.off then e = { d with sys := e.sys }
    else e.st? = stBoot ∧ (e.rd R.SYS_RSTCAUSE).toNat = 2 ∧ e.reps = [] ∧ e.itk = {} ∧ e.cfg = {}) ∧
  (∀ s : State, Ends .rstNRelease s fun e =>
    let d := s.dev
    e = { d with sys := e.sys } ∧ e.sys = { d.sys with rstN := true, startC := d.c }) ∧
  (∀ s : State, Ends .supplyLoss s fun e =>
    let d := s.dev
    e.sys.off = true ∧ e.st? = stBoot ∧ (e.rd R.SYS_RSTCAUSE).toNat = 1 ∧ e.sec.fuses = d.sec.fuses ∧ e.flash = d.flash ∧
    e.reps = [] ∧ e.itk = {} ∧ e.cfg = {} ∧ (e.rd R.PIN_PWRSTAT).toNat = 0 ∧
    e.mem = (d.mem.filter fun c => decide (mramBase ≤ c.1) && decide (c.1 < sramBase)) ∧
      (d.mem.wf → ∀ x, e.ldB x = if mramBase ≤ x ∧ x < sramBase then d.ldB x else memDefault))

/-- R468, R479 to R481: the supplies. That a returning feed ends the power-fail warning is the model's
reading (log entry 7). -/
def Obligations.SupplyEvents : Prop :=
  (∀ (s : State) (n : Fin 2) (mv : Nat), Ends (.feedOutOfRange n mv) s fun e =>
    let d := s.dev
    Frame d e [R.PIN_VINMON, R.PIN_PWRSTAT, R.PIN_IRQ_STAT, R.TWN_HEALTH] ∧
    e = { d with regs := e.regs, reps := e.reps, freeCtr := e.freeCtr } ∧
    e.get (if n.val = 0 then F.PIN_VINMON_VINA else F.PIN_VINMON_VINB) = mv % 2 ^ 16 ∧
    (e.rd R.PIN_PWRSTAT).toNat = setBits (setBits (d.rd R.PIN_PWRSTAT).toNat n 1 0) (2 + n.val) 1 0 ∧
    ((e.rd R.PIN_PWRSTAT).toNat ≠ (d.rd R.PIN_PWRSTAT).toNat → e.get F.PIN_IRQ_STAT_PWR = 1) ∧
    e.get F.TWN_HEALTH_FEED = 1 ∧
    Reports d e (if bitB (d.rd R.PIN_PWRSTAT).toNat (1 - n.val) then [188 + n.val] else [])) ∧
  (∀ (s : State) (n : Fin 2), Ends (.feedSwitchOpen n) s fun e =>
    let d := s.dev
    Frame d e [R.PIN_PWRSTAT, R.PIN_IRQ_STAT] ∧ e = { d with regs := e.regs } ∧
    (e.rd R.PIN_PWRSTAT).toNat = setBits (d.rd R.PIN_PWRSTAT).toNat (2 + n.val) 1 0 ∧
    ((e.rd R.PIN_PWRSTAT).toNat ≠ (d.rd R.PIN_PWRSTAT).toNat → e.get F.PIN_IRQ_STAT_PWR = 1)) ∧
  (∀ (s : State) (n : Fin 2), Ends (.oringFault n) s fun e =>
    e = { s.dev with reps := e.reps, freeCtr := e.freeCtr } ∧ Reports s.dev e [191]) ∧
  (∀ (s : State) (mv : Nat), Ends (.regulatorFault mv) s fun e =>
    e = { s.dev with reps := s.dev.reps ++ [{ src := 190, detail := mv % 2 ^ 32 }] }) ∧
  (∀ s : State, Ends .powerFailWarning s fun e =>
    e = { s.dev with sys := e.sys } ∧ e.sys = { s.dev.sys with powerFail := true } ∧ e.aliveOut = false) ∧
  (∀ (s : State) (n : Fin 2) (mv : Nat), Ends (.feedRestored n mv) s fun e =>
    let d := s.dev
    Frame d e [R.PIN_VINMON, R.PIN_PWRSTAT, R.PIN_IRQ_STAT, R.TWN_HEALTH] ∧
    e = { d with regs := e.regs, sys := e.sys } ∧ e.sys = { d.sys with powerFail := false } ∧
    e.get (if n.val = 0 then F.PIN_VINMON_VINA else F.PIN_VINMON_VINB) = mv % 2 ^ 16 ∧
    (e.rd R.PIN_PWRSTAT).toNat = setBits (setBits (d.rd R.PIN_PWRSTAT).toNat n 1 1) (2 + n.val) 1 1 ∧
    ((e.rd R.PIN_PWRSTAT).toNat ≠ (d.rd R.PIN_PWRSTAT).toNat → e.get F.PIN_IRQ_STAT_PWR = 1) ∧
    (e.get F.TWN_HEALTH_FEED = 0 ↔ e.get F.PIN_PWRSTAT_VINA_OK = 1 ∧ e.get F.PIN_PWRSTAT_VINB_OK = 1)) ∧
  (∀ (s : State) (ok : Bool), Ends (.railChange ok) s fun e =>
    let d := s.dev
    Frame d e [R.PIN_PWRSTAT, R.PIN_IRQ_STAT] ∧ e = { d with regs := e.regs } ∧
    e.get F.PIN_PWRSTAT_RAILS = ok.toNat ∧
    ((e.rd R.PIN_PWRSTAT).toNat ≠ (d.rd R.PIN_PWRSTAT).toNat → e.get F.PIN_IRQ_STAT_PWR = 1))

/-- R468, R500: the die sensors, SAFE_N and the pads. -/
def Obligations.SensorsAndPads : Prop :=
  (∀ (s : State) (hot cold : Int), Ends (.dieTempThreshold hot cold) s fun e =>
    let d := s.dev
    let lim (f : Fld) : Int := 16 * sx 8 (d.get f)
    let hy : Int := 16 * d.get F.FLT_TEMP_HYST
    let was (k : Nat) : Bool := bitB d.sys.dieOver k
    let w := decide (lim F.FLT_TEMP_WARN < hot) || (was 0 && decide (lim F.FLT_TEMP_WARN - hy < hot))
    let h := decide (lim F.FLT_TEMP_HOT < hot) || (was 1 && decide (lim F.FLT_TEMP_HOT - hy < hot))
    let c := decide (cold < lim F.FLT_TEMP_COLD) || (was 2 && decide (cold < lim F.FLT_TEMP_COLD + hy))
    Frame d e [R.FLT_DIETEMP] ∧
    e = { d with regs := e.regs, sys := e.sys, reps := e.reps, freeCtr := e.freeCtr } ∧
    e.get F.FLT_DIETEMP_TEMP = ux 16 hot ∧
    (bitB e.sys.dieOver 0 = w ∧ bitB e.sys.dieOver 1 = h ∧ bitB e.sys.dieOver 2 = c) ∧
    Reports d e ((if w && !was 0 then [192] else []) ++ (if h && !was 1 then [193] else []) ++
      (if c && !was 2 then [194] else []))) ∧
  (∀ (s : State) (x : Nat), Ends (.dieSensorMismatch x) s fun e =>
    e = { s.dev with reps := s.dev.reps ++ if 160 < x then [{ src := 195, detail := x % 2 ^ 32 }] else [] }) ∧
  (∀ s : State, Ends .safeNLow s fun e =>
    let d := s.dev
    if d.sys.safeN then
      Frame d e [R.PIN_IRQ_STAT] ∧ e = { d with regs := e.regs, sys := e.sys, reps := e.reps, freeCtr := e.freeCtr } ∧
      e.sys = { d.sys with safeN := false } ∧ e.get F.PIN_IRQ_STAT_SAFEN = 1 ∧ Reports d e [196]
    else e = d) ∧
  (∀ s : State, Ends .safeNShort s fun e =>
    let d := s.dev
    Frame d e [R.PIN_IRQ_STAT] ∧ e = { d with regs := e.regs, reps := e.reps, freeCtr := e.freeCtr } ∧
    e.get F.PIN_IRQ_STAT_SAFEN = 1 ∧ Reports d e [197]) ∧
  (∀ s : State, Ends .safeNRelease s fun e =>
    let d := s.dev
    if d.sys.safeN then e = d
    else Frame d e [R.PIN_IRQ_STAT] ∧ e = { d with regs := e.regs, sys := e.sys } ∧
      e.sys = { d.sys with safeN := true } ∧ e.get F.PIN_IRQ_STAT_SAFEN = 1) ∧
  (∀ (s : State) (p : Fin 64) (l : Bool), Ends (.gpioEdge p l) s fun e =>
    let d := s.dev
    let en := if l then R.PIN_GPIO_RISE else R.PIN_GPIO_FALL
    e = { d with regs := e.regs } ∧
    if p.val < 32 then
      Frame d e [R.PIN_GPIO_IN, R.PIN_GPIO_EDGE] ∧
      (e.rd R.PIN_GPIO_IN).toNat = setBits (d.rd R.PIN_GPIO_IN).toNat p 1 l.toNat ∧
      (e.rd R.PIN_GPIO_EDGE).toNat =
        (if bitB (d.rd R.PIN_GPIO_IN).toNat p ≠ l ∧ bitB (d.rd en).toNat p then setBits (d.rd R.PIN_GPIO_EDGE).toNat p 1 1
         else (d.rd R.PIN_GPIO_EDGE).toNat)
    else Frame d e [R.PIN_FIXIN] ∧
      (e.rd R.PIN_FIXIN).toNat = setBits (d.rd R.PIN_FIXIN).toNat (p.val - 32) 1 l.toNat)

/-- R236, R238: H is a high-water mark. -/
def Obligations.PositionNeverFallsBack : Prop :=
  ∀ (d : Dev) (t : Nat),
    let e := d.posAt t
    e.pos.encs.map (fun x => (x.a, x.b, x.raw, x.lastT)) = d.pos.encs.map (fun x => (x.a, x.b, x.raw, x.lastT)) ∧
    (∀ n, (d.enc n).h ≤ (e.enc n).h) ∧
    (∀ n, n < 4 → d.encOn n = true → (d.interp n t).toNat ≤ (e.enc n).h) ∧
    Frame d e [R.POS_EMU_STAT 0, R.POS_EMU_STAT 1, R.POS_IRQ_STAT] ∧
    e = { d with c := e.c, regs := e.regs, pos := e.pos, reps := e.reps, freeCtr := e.freeCtr }

/-- R232, R234, R235, R240, R244, R249, R251. Times are operands of the events (log entry 1). -/
def Obligations.EncoderEvents : Prop :=
  (∀ (s : State) (n : Fin 4) (a b : Bool) (t : Nat), Ends (.encoderCount n a b t) s fun e =>
    let d := s.dev.posAt t
    let x := s.dev.enc n
    let inv := d.get (F.POS_ENC_CFG_INV n) = 1
    let pins := if d.encOn n then decodePins (d.get (F.POS_ENC_CFG_MODE n)) x.a x.b a b else .nothing
    let by' : Int := match pins with
      | .count up => if up = inv then -1 else 1
      | _ => 0
    e = { d with regs := e.regs, pos := e.pos, reps := e.reps, freeCtr := e.freeCtr } ∧
    e.pos.encs.map (fun x => x.raw) = upd (s.dev.pos.encs.map fun x => x.raw) n (fun r => r + by') ∧
    e.pos.encs.map (fun x => (x.a, x.b)) = upd (s.dev.pos.encs.map fun x => (x.a, x.b)) n (fun _ => (a, b)) ∧
    (by' ≠ 0 → e.get (F.POS_ENC_STAT_STILL n) = 0) ∧
    (pins = .error → e.get (F.POS_ENC_STAT_QERR n) = min (2 ^ (F.POS_ENC_STAT_QERR n).width - 1) (d.get (F.POS_ENC_STAT_QERR n) + 1) ∧
      e.get F.POS_IRQ_STAT_QERR = 1 ∧ Reports d e [88] ∧ Frame d e [R.POS_ENC_STAT n, R.POS_IRQ_STAT]) ∧
    (pins = .nothing → Frame d e [] ∧ Reports d e [])) ∧
  (∀ (s : State) (n : Fin 4) (t : Nat), Ends (.zEdge n t) s fun e =>
    let d := s.dev.posAt t
    if d.encOn n ∧ d.get (F.POS_ENC_CFG_ZEN n) = 1 then
      Frame d e [R.POS_ENC_ZLATLO n, R.POS_ENC_ZLATHI n, R.POS_IRQ_STAT] ∧ e = { d with regs := e.regs } ∧
      e.get64 (R.POS_ENC_ZLATLO n) (R.POS_ENC_ZLATHI n) = ux 64 (s.dev.enc n).raw ∧ e.get F.POS_IRQ_STAT_ZIDX = 1
    else e = d) ∧
  (∀ (s : State) (n : Fin 4) (t : Nat), Ends (.encoderStill n t) s fun e =>
    let d := s.dev.posAt t
    let due := match (s.dev.enc n).lastT with
      | none => false
      | some tl => d.encOn n && d.get (F.POS_ENC_STAT_STILL n) = 0 && tl + d.get (F.POS_ENC_SPD_STILL n) * 1000000000 ≤ t
    if due then
      Frame d e [R.POS_ENC_STAT n, R.POS_IRQ_STAT] ∧ e = { d with regs := e.regs, pos := e.pos } ∧
      e.get (F.POS_ENC_STAT_STILL n) = 1 ∧ e.get F.POS_IRQ_STAT_STILL = 1 ∧ ∀ t', e.speedAt n t' = 0
    else e = d) ∧
  (∀ (s : State) (c : Fin 16) (t : Nat), Ends (.compareMatch c t) s fun e =>
    let d := s.dev.posAt t
    let p := nth d.pos.cmpAt c 0
    let z := d.zonePos (d.get (F.POS_CMP_CFG_ZONE c))
    let act := d.get (F.POS_CMP_CFG_ACTION c)
    let per := d.get (F.POS_CMP_PERIOD_VALUE c)
    if d.get (F.POS_CMP_STAT_ARMED c) = 1 ∧ passed z p then
      e.get (F.POS_CMP_STAT_MATCHED c) = 1 ∧ e.get (F.POS_CMP_STAT_LATE c) = 0 ∧ e.get F.POS_IRQ_STAT_CMP = 1 ∧
      e.get (F.POS_CMP_STAT_ARMED c) = (if per = 0 then 0 else 1) ∧
      e.pos.cmpPad = (if act = 1 then upd d.pos.cmpPad c fun _ => true
        else if act = 2 then upd d.pos.cmpPad c fun _ => !(nth d.pos.cmpPad c false) else d.pos.cmpPad) ∧
      e.pos.cmpAt = (if per = 0 then d.pos.cmpAt
        else upd d.pos.cmpAt c fun _ => (p + ((z + 2 ^ 48 - p % 2 ^ 48) % 2 ^ 48 / per + 1) * per) % 2 ^ 48)
    else e = d) ∧
  (∀ (s : State) (c : Fin 16), Ends (.comparePulseEnd c) s fun e =>
    let d := s.dev
    Frame d e [] ∧ e = { d with pos := e.pos, out := e.out } ∧
    e.pos.cmpPad = (if nth d.pos.cmpPad c false && d.get (F.POS_CMP_CFG_ACTION c) = 1 then upd d.pos.cmpPad c fun _ => false
      else d.pos.cmpPad)) ∧
  (∀ (s : State) (o : Fin 2) (t : Nat), Ends (.rejectPulseStart o t) s fun e =>
    let d := s.dev.posAt t
    match (nth d.pos.rejs o {}).queue with
    | [] => e = d
    | (z, p) :: r =>
      if passed (d.zonePos z) p then
        Frame d e [R.POS_REJ_STAT o] ∧ e = { d with regs := e.regs, pos := e.pos, out := e.out } ∧
        e.pos.rejs.map (fun x => x.queue) = upd (d.pos.rejs.map fun x => x.queue) o (fun _ => r) ∧
        (nth e.pos.rejs o {}).asserted = true ∧ e.out = .pin (54 + o.val) 1 :: d.out
      else e = d) ∧
  (∀ (s : State) (o : Fin 2) (t : Nat), Ends (.rejectPulseEnd o t) s fun e =>
    let d := s.dev.posAt t
    Frame d e [R.POS_REJ_STAT o] ∧ e = { d with regs := e.regs, pos := e.pos, out := e.out } ∧
    e.pos.rejs.map (fun x => (x.queue, x.pulses)) = upd (d.pos.rejs.map fun x => (x.queue, x.pulses)) o
      (fun x => (x.1, x.2.filter fun q => !(passed (d.zonePos q.1) q.2.1 && q.2.2 ≤ t)))) ∧
  (∀ (s : State) (k : Fin 2) (t : Nat), Ends (.emuOutputStep k t) s fun e =>
    let d := s.dev.posAt t
    let m := nth d.pos.emus k {}
    let sep := d.get (F.POS_EMU_CFG_MINSEP k) * 1250
    let free := match m.lastT with
      | some tl => decide (tl + sep ≤ t)
      | none => true
    if m.owed = 0 ∨ !free ∨ d.get (F.POS_EMU_CFG_ENABLE k) = 0 then e = d
    else
      let st : Int := if 0 < m.owed then 1 else -1
      Frame d e [R.POS_EMU_COUNT k, R.POS_EMU_STAT k] ∧ e = { d with regs := e.regs, pos := e.pos, out := e.out } ∧
      (e.rd (R.POS_EMU_COUNT k)).toNat = ux 32 (sx 32 (d.rd (R.POS_EMU_COUNT k)).toNat + st) ∧
      e.pos.emus = upd d.pos.emus k fun m => { m with owed := m.owed - st, lastT := some t })

/-- R19, R23, R24, R38, R39, R501: the outcome of REGISTER_WRITE. -/
def Obligations.RegisterWriteOutcome : Prop :=
  ∀ (s : State) (req a w v b : Nat), blockOf a = some b → Ends (.registerWrite req a w v) s fun e =>
    let d := s.dev
    let st := (d.busW req a w v).1
    let rej := blockBase b + 4
    let cnt := blockBase b + 8
    if d.sys.off then e = d
    else
      e.out.head? = some (.reg req a st 0) ∧
      ((w ≠ 4 ∨ a % 4 ≠ 0) → d.islandDown b = false → st = sBadValue) ∧
      (d.islandDown b = true → st = sAbsent ∧ e = { d with out := e.out }) ∧
      (st ≠ sOk → d.islandDown b = false →
        Frame d e [rej, cnt, R.CFG_IRQ_STAT] ∧ e = { d with regs := e.regs, out := .reg req a st 0 :: d.out } ∧
        (e.rd rej).toNat = (if bitB (d.rd rej).toNat 31 then (d.rd rej).toNat
          else 2 ^ 31 + req % 16 * 2 ^ 24 + a % 0x10000 / 4 * 4 * 2 ^ 8 + st) ∧
        (e.rd cnt).toNat = min (2 ^ 32 - 1) ((d.rd cnt).toNat + 1))

/-- R35. -/
def Obligations.UndefinedOffset : Prop :=
  ∀ (d : Dev) (req a b v : Nat), blockOf a = some b → rowAt a = none → isHeader a = false → a % 4 = 0 →
    d.islandDown b = false → v < 2 ^ 32 →
    (d.busR req a 4).2.1 = 0 ∧
    (d.reaches req b a false = true → (d.busR req a 4).1 = sOk) ∧
    (d.reaches req b a true = true →
      (d.busW req a 4 v).1 = sBadValue ∧
      (bitB (d.rd (blockBase b + 4)).toNat 31 = false →
        ((d.busW req a 4 v).2.rd (blockBase b + 4)).toNat =
          2 ^ 31 + req % 16 * 2 ^ 24 + a % 0x10000 * 2 ^ 8 + sBadValue))

/-- R255, R502: LO_READ_CAPTURE. -/
def Obligations.LoReadCaptures : Prop :=
  (∀ (s : State) (req a w b : Nat), blockOf a = some b → Ends (.loReadCapture req a w) s fun e =>
    let d := s.dev
    let r := d.busR req a w
    if d.sys.off then e = d
    else
      e.out = .reg req a r.1 r.2.1 :: d.out ∧ (∀ x, e.ldB x = d.ldB x) ∧
      e = { d with regs := e.regs, out := e.out, hiCap := e.hiCap } ∧
      (r.1 = sOk → e.regs = d.regs) ∧
      (r.1 ≠ sOk → r.2.1 = 0 ∧ e.hiCap = d.hiCap ∧ Frame d e [blockBase b + 4, blockBase b + 8])) ∧
  (∀ (d : Dev) (req b : Nat) (n : Fin 4), (d.readReg req 14 (R.POS_ENC_COUNTLO n) 4).1 = sOk → d.islandDown 14 = false → b = 14 →
    let e := (d.busR req (R.POS_ENC_COUNTLO n) 4).2.2
    (∀ (e' : Dev), e'.hiCap = e.hiCap → e'.sys = e.sys → (e'.rd R.SYS_STATE) = e.rd R.SYS_STATE →
      e'.reaches req 14 (R.POS_ENC_COUNTHI n) false = true →
      (e'.busR req (R.POS_ENC_COUNTHI n) 4).2.1 = ux 64 (d.enc n).raw / 2 ^ 32) ∧
    (∀ h ∈ d.hiCap, h.1 ≠ req → h ∈ e.hiCap))

/-- R4, R501: LCK fields are closed after CONFIG_DONE. -/
def Obligations.LockedAfterConfigDone : Prop :=
  (∀ (d : Dev) (req b a v : Nat) (r : RegRow) (f : FieldRow), d.configDone = true → rowAt a = some r → f ∈ r.fields → f.acc = .lck →
    (d.regCheck req b a v r).1 = sOk →
    bits (storedValue r.fields (d.rd a).toNat (d.regCheck req b a v r).2.new) f.lo (f.hi + 1 - f.lo) =
      bits (d.rd a).toNat f.lo (f.hi + 1 - f.lo)) ∧
  (∀ (d : Dev) (req b a v : Nat) (r : RegRow) (f : FieldRow), d.configDone = true → rowAt a = some r → f ∈ r.fields → f.acc = .lck →
    bits v f.lo (f.hi + 1 - f.lo) ≠ bits (d.rd a).toNat f.lo (f.hi + 1 - f.lo) →
    d.writeRight req b a r.fields = sOk → v &&& fieldBits r.fields (fun _ => true) = v →
    (d.regCheck req b a v r).1 = sLocked)

/-- R38, R44, R45, R74, R90, R98: the SAF and ITK registers with a row of their own. -/
def Obligations.SystemRegisterWrites : Prop :=
  (∀ (s : State) (req : Nat) (b : Fin 29) (v : Nat), Ends (.rejclr req b v) s fun e =>
    let d := s.dev
    let rej := blockBase b + 4
    let cnt := blockBase b + 8
    Granted d req (blockBase b + 0xC) v →
      Frame d e [rej, cnt] ∧ e = { d with regs := e.regs, out := .reg req (blockBase b + 0xC) sOk 0 :: d.out } ∧
      (e.rd rej).toNat = (if bitB v 0 then 0 else (d.rd rej).toNat) ∧ (e.rd cnt).toNat = (if bitB v 1 then 0 else (d.rd cnt).toNat)) ∧
  (∀ (s : State) (req v : Nat), Ends (.sysHwdKick req v) s fun e =>
    let d := s.dev
    Granted d req R.SYS_HWD_KICK v →
      v = 0xA5C3 ∧ Frame d e [] ∧ e = { d with regs := e.regs, sys := e.sys, out := .reg req R.SYS_HWD_KICK sOk 0 :: d.out } ∧
      e.sys = { d.sys with hwdFirst := false, hwdC := d.c }) ∧
  (∀ (s : State) (req v : Nat), Ends (.sysTwdKick req v) s fun e =>
    let d := s.dev
    Granted d req R.SYS_TWD_KICK v →
      v = 0x3CA5 ∧ req = reqTrusted ∧ Frame d e [] ∧ e = { d with regs := e.regs, sys := e.sys, out := .reg req R.SYS_TWD_KICK sOk 0 :: d.out } ∧
      e.sys = { d.sys with twdC := d.c }) ∧
  (∀ (s : State) (req v : Nat), Ends (.softwareReset req v) s fun e =>
    let d := s.dev
    Granted d req R.SYS_RSTCTL v →
      (v = 0x5EB00001 ∨ v = 0x5EB00002) ∧
      (v = 0x5EB00001 → e.st? = stBoot ∧ (e.rd R.SYS_RSTCAUSE).toNat = 8 ∧ e.itk = {} ∧ e.cfg = {} ∧ (∀ x, e.ldB x = d.ldB x) ∧
        e.sec.fuses = d.sec.fuses ∧ e.flash = d.flash) ∧
      (v = 0x5EB00002 → e.sys = { d.sys with hartsRun := false, claimed := [], ctlDue := true, hwdFirst := false } ∧
        e.get F.SYS_RSTCAUSE_CTL = 1 ∧ Reports d e [4] ∧ e.itk = d.itk ∧ e.fir = d.fir ∧ ∀ x, e.ldB x = d.ldB x)) ∧
  (∀ (s : State) (req v : Nat), Ends (.cfgClaimGo req v) s fun e =>
    let d := s.dev
    let c := d.goClaim (v % 2 ^ 16)
    Granted d req R.CFG_CLAIM_GO v →
      (d.running = true ∨ d.st? = stSafe) ∧ Frame d e [] ∧
      e = { d with regs := e.regs, cfg := e.cfg, out := .reg req R.CFG_CLAIM_GO sOk 0 :: d.out } ∧
      e.cfg = { d.cfg with claims := if d.get F.CFG_CLAIM_RES_RELEASE = 1 then releaseFrom c d.cfg.claims else d.cfg.claims ++ [c] } ∧
      (d.get F.CFG_CLAIM_RES_RELEASE = 0 → ∀ x ∈ d.cfg.claims, claimsMeet x c = true → x.feature = c.feature)) ∧
  (∀ (s : State) (req v : Nat), Ends (.secErase req v) s fun e =>
    let d := s.dev
    Granted d req R.SEC_ERASE v →
      (v = 0x3E5A0001 ∨ v = 0x3E5A0002) ∧ req = reqTrusted ∧ e.get F.SEC_IRQ_STAT_ERASED = 1 ∧
      e.sec.keys = (d.sec.keys.filter fun k => !(v % 4 = 2 || k.use % 2 = 1)) ∧ e.sec.fuses = d.sec.fuses) ∧
  (∀ (s : State) (req v : Nat), Ends (.itkCntclr req v) s fun e =>
    let d := s.dev
    Granted d req R.ITK_CNTCLR v →
      Frame d e [R.ITK_DROP_FMT, R.ITK_DROP_AUTH, R.ITK_DROP_WIN, R.ITK_LINKCNT] ∧
      e = { d with regs := e.regs, out := .reg req R.ITK_CNTCLR sOk 0 :: d.out } ∧
      (e.rd R.ITK_DROP_FMT).toNat = (if bitB v 0 then 0 else (d.rd R.ITK_DROP_FMT).toNat) ∧
      (e.rd R.ITK_DROP_AUTH).toNat = (if bitB v 1 then 0 else (d.rd R.ITK_DROP_AUTH).toNat) ∧
      (e.rd R.ITK_DROP_WIN).toNat = (if bitB v 2 then 0 else (d.rd R.ITK_DROP_WIN).toNat) ∧
      (e.rd R.ITK_LINKCNT).toNat = (if bitB v 3 then 0 else (d.rd R.ITK_LINKCNT).toNat))

/-- R460, R462, R465, R468, R469, R471 to R473: FLT's commands. -/
def Obligations.FaultCollectorCommands : Prop :=
  (∀ (s : State) (l : List (Nat × Nat)) (x : Option (Fin 64)), Ends (.faultReport l x) s fun e =>
    let d := s.dev
    let reps := l.map fun r => ({ src := r.1, detail := r.2 % 2 ^ 32 } : Rep)
    match x with
    | none => e = { d with reps := d.reps ++ reps }
    | some n => e = { d with regs := e.regs, reps := e.reps, freeCtr := e.freeCtr } ∧
        Reports d e (l.map (fun r => r.1) ++ [33]) ∧ (e.rd (R.FLT_HIST_W n 0)).toNat = 4 * 2 ^ 16 ∧
        (∀ k, 1 ≤ k → k < 8 → (e.rd (R.FLT_HIST_W n k)).toNat = 0) ∧ Frame d e ((List.range 8).map fun k => R.FLT_HIST_W n k)) ∧
  (∀ s : State, Ends .safeJournalComplete s fun e =>
    let d := s.dev
    if d.st? = stSafe ∧ d.journalSafe = true then
      Frame d e [R.FLT_SAFESTAT] ∧ e = { d with regs := e.regs } ∧ e.get F.FLT_SAFESTAT_JOURNAL = 1
    else e = d) ∧
  (∀ (s : State) (n : Fin 256) (v : Fin 6), (srcInfo n).isSome = true → Ends (.severityCheck [(n, v)] []) s fun e =>
    let d := s.dev
    e.sev n = max (d.sev n) v ∧ (d.sev n = v.val → e = d.syncStop) ∧ (d.sev n ≠ v.val → 32 ∈ e.reps.map fun r => r.src)) ∧
  (∀ (s : State) (c : List (Fin 256 × Fin 6)) (w : List (Fin 8)), Ends (.severityCheck c w) s fun e =>
    (∀ k ∈ w, ∀ i, i < 32 → (srcInfo (32 * k.val + i)).isSome = true → e.pendBit (32 * k.val + i) = true) ∧
    (∀ i, s.dev.pendBit i = true → e.pendBit i = true) ∧ (w ≠ [] → 32 ∈ e.reps.map fun r => r.src)) ∧
  (∀ (s : State) (req v : Nat), Ends (.fltInj req v) s fun e =>
    let d := s.dev
    Granted d req R.FLT_INJ v →
      req = reqTrusted ∧ (d.running = true ∨ d.st? = stSafe) ∧ (srcInfo (v % 2 ^ 8)).isSome = true ∧ Frame d e [] ∧
      e = { d with regs := e.regs, reps := d.reps ++ [{ src := v % 2 ^ 8, detail := v / 2 ^ 8, inj := true }],
                   out := .reg req R.FLT_INJ sOk 0 :: d.out }) ∧
  (∀ (s : State) (req v : Nat), Ends (.fltFwraise req v) s fun e =>
    let d := s.dev
    Granted d req R.FLT_FWRAISE v → Frame d e [] ∧
      e = { d with regs := e.regs, reps := d.reps ++ [{ src := 200 + v % 2 ^ 5, detail := v / 2 ^ 8 }],
                   out := .reg req R.FLT_FWRAISE sOk 0 :: d.out }) ∧
  (∀ (s : State) (req : Nat) (k : Fin 8) (v : Nat), Ends (.fltPendClear req k v) s fun e =>
    let d := s.dev
    let old := (d.rd (R.FLT_PEND k)).toNat
    Granted d req (R.FLT_PEND k) v →
      (k.val = 6 ∧ d.sys.safeN = false ∧ bitB old 4 = true → bitB (e.rd (R.FLT_PEND k)).toNat 4 = true) ∧
      (∀ i, i < 32 → ¬(k.val = 6 ∧ i = 4 ∧ d.sys.safeN = false) →
        bitB (e.rd (R.FLT_PEND k)).toNat i = (bitB old i && !bitB v i)) ∧
      (∀ j : Fin 8, j ≠ k → e.rd (R.FLT_PEND j) = d.rd (R.FLT_PEND j)) ∧
      e.get F.FLT_STAT_STOP = (if e.stop then 1 else 0)) ∧
  (∀ (s : State) (req v : Nat), Ends (.fltSafectlExit req v) s fun e =>
    let d := s.dev
    Granted d req R.FLT_SAFECTL v → bitB v 0 = true →
      v / 2 ^ 16 = 0x5AFE ∧ d.st? = stSafe ∧ d.exitOk = true ∧ e.running = true ∧ e.get F.FLT_STAT_SAFE = 0 ∧
      e.get F.FLT_SAFESTAT_ACTIVE = 0 ∧ (∀ n : Fin 8, e.get (F.FIR_HG_STAT_IDLESAFE n) = 0) ∧
      (∀ r ∈ e.pos.rejs, r.asserted = false ∧ r.queue = [] ∧ r.pulses = []) ∧ e.sys.safeJtag = false ∧ e.sys.safeFatal = false) ∧
  (∀ (s : State) (req v : Nat), Ends (.fltHistclr req v) s fun e =>
    let d := s.dev
    Granted d req R.FLT_HISTCLR v →
      (bitB v 0 = true → e.get F.FLT_STAT_COUNT = 0 ∧ e.get F.FLT_STAT_NEXT = 0 ∧ e.get F.FLT_STAT_FROZEN = 0) ∧
      (bitB v 1 = true → (e.rd R.FLT_FIRST).toNat = 0 ∧ ∀ k : Fin 16, (e.rd (R.FLT_DETAIL k)).toNat = 0) ∧
      (bitB v 2 = true → (e.rd R.FLT_LOSTCNT).toNat = 0) ∧
      (bitB v 0 = true ∨ bitB v 1 = true → e.sys = { d.sys with capOpen := true, capLeft := none }) ∧
      Frame d e ([R.FLT_STAT, R.FLT_FIRST, R.FLT_LOSTCNT] ++ (List.range 16).map fun k => R.FLT_DETAIL k) ∧
      e = { d with regs := e.regs, sys := e.sys, out := .reg req R.FLT_HISTCLR sOk 0 :: d.out })

/-- R47, R53, R54, R69 to R71. Source 8 at a failed candidate while another is left is the model's reading (log entry 34). -/
def Obligations.BootAndSlots : Prop :=
  (∀ (s : State) (ok : Bool), Ends (.safBootComplete ok) s fun e =>
    let d := s.dev
    let fl := compVal (d.mrd dwFloor)
    let d1 := d.put F.CFG_FLOOR_VALUE (fl.getD 0)
    if d.st? ≠ stBoot ∨ d.sys.off = true ∨ d.sys.rstN = false ∨ d.sys.romBad = true then e = d
    else if ok = false then e = { d with sys := { d.sys with romBad := true } }
    else
      e = { d with regs := e.regs, cfg := e.cfg, reps := e.reps, freeCtr := e.freeCtr } ∧ (∀ a, e.ldB a = d.ldB a) ∧
      e.cfg = { d.cfg with cands := d1.candidates } ∧ e.st? = (if d1.candidates = [] then stConfigFail else stImage) ∧
      e.get F.CFG_FLOOR_VALUE = fl.getD 0 % 2 ^ 32 ∧ (e.rd R.TWN_EPOCH).toNat = (compVal (d.mrd dwEpoch)).getD 0 % 2 ^ 32 ∧
      Reports d e (if fl.isNone then [10] else [])) ∧
  (∀ (d : Dev), d.candidates = (if d.hdrStatus 0 = sOk ∧ d.hdrStatus 1 = sOk then (if d.hdr 0 0x0C 4 < d.hdr 1 0x0C 4 then [1, 0] else [0, 1])
    else if d.hdrStatus 0 = sOk then [0] else if d.hdrStatus 1 = sOk then [1] else [])) ∧
  (∀ (s : State) (same : Bool), Ends (.slotCheck same) s fun e =>
    let d := s.dev
    if d.st? ≠ stImage then e = d
    else match d.cfg.cands with
      | [] => e = d
      | sl :: rest =>
        let r := d.imageCheck sl
        if r.1 = sOk then
          ∃ x : Dev, e = x.loadOnDie (x.entriesOf false) ∧ x.st? = stLoading ∧ x.get F.CFG_SEQ_VALUE = d.hdr sl 0x0C 4 % 2 ^ 32 ∧
            x.get F.CFG_STATUS_LENIENT = (bitB (d.hdr sl 8 4) 0).toNat ∧ x.get F.CFG_STATUS_SLOT = sl % 2 ∧
            x.cfg = { d.cfg with cands := rest, slot := sl, seq := d.hdr sl 0x0C 4, floor := d.hdr sl 0x10 4,
                                 keySlot := d.hdr sl 0x38 1, lenient := bitB (d.hdr sl 8 4) 0 }
        else
          bits (e.rd (if sl = 0 then R.CFG_SLOTA else R.CFG_SLOTB)).toNat 0 8 = r.1 % 2 ^ 8 ∧
          e.cfg.cands = rest ∧ e.cfg.claims = [] ∧ e.itk = {} ∧ (∀ a, e.ldB a = d.ldB a) ∧
          if rest = [] then e.st? = stConfigFail ∧ bits (e.rd R.CFG_STATUS).toNat 8 8 = r.1 % 2 ^ 8 ∧ e.reps = d.reps
          else e.st? = stImage ∧ e.get F.CFG_STATUS_OTHERFAIL = 1 ∧ Reports d e [8])

/-- R47, R60, R61, R63, R67, R503. -/
def Obligations.LoadingAndHandOver : Prop :=
  (∀ (s : State) (timeout : Bool), Ends (.registerListPoll timeout) s fun e =>
    let d := s.dev
    match d.cfg.polls with
    | none => e = d
    | some (ix, k, sv) =>
      let en := d.dirEnt d.cfg.slot ix
      let b := en.type - 0x1000
      let x := listEnt b (d.body d.cfg.slot en) k
      let hit := d.loaderRead b x.addr &&& x.mask = x.value
      let d1 : Dev := { d with cfg := { d.cfg with polls := none } }
      let rest := (d.entriesOf false).filter fun y => ix < y.2
      if d.st? ≠ stLoading then e = d
      else
        (¬ hit → timeout = false → e = d) ∧
        (¬ hit → timeout = true → d.cfg.lenient = false ∨ en.required = true →
          e = (d1.each sv fun d y => d.writeBack b y).slotFail d.cfg.slot (sTimeout, false, ix)) ∧
        (hit → listCount (d.body d.cfg.slot en) ≤ k + 1 → e = d1.loadOnDie rest)) ∧
  (∀ (d : Dev) (len : Bool) (en : DirEnt) (ix : Nat),
    let q := d.loadEntry len en ix
    (en.feature ≠ 0 → en.feature ∈ d.cfg.disabled → q = (sOk, d)) ∧
    ((en.feature = 0 ∨ en.feature ∉ d.cfg.disabled) → typeKnown en.type = false →
      q = if len = false ∨ bitB en.flags 0 = true then (sUnsupported, d) else (sOk, d.logEvent 0 sUnsupported en.feature))) ∧
  (∀ (en : DirEnt) (c : Nat) (d : Dev), c ≠ sOk → c ≠ sWaits →
    Dev.recordEnd false en (c, d) = (c, d) ∧ (en.required = true → Dev.recordEnd true en (c, d) = (c, d)) ∧
    (en.required = false → (Dev.recordEnd true en (c, d)).1 = sOk ∧ en.feature ∈ (Dev.recordEnd true en (c, d)).2.cfg.disabled)) ∧
  (∀ s : State, Ends .configDone s fun e =>
    let d := s.dev
    if d.st? ≠ stLoading ∨ d.cfg.onDieDone = false then e = d
    else
      (d.configStatus ≠ sOk → e = d.slotFail d.cfg.slot (d.configStatus, false, 0)) ∧
      (d.configStatus = sOk → d.srcSettle = (sOk, d) → d.impSettle (fun _ => true) = (sOk, d) →
        e.st? = stTraining ∧ e.configDone = true ∧ (∀ i : Fin 256, e.sev i = d.get (F.FLT_SRC_CFG_ISEV i)) ∧
        (∀ n : Fin 8, e.get (F.FIR_HG_ACTIVE_SEQ_SEQ n) = 1 ∧ ∀ a ∈ firSet n, spGet (regReset a) e.act a = d.rd a) ∧
        (∀ k : Fin 4, e.get (F.CAM_TRG_ACTIVE_SEQ_SEQ k) = 1) ∧ (∀ c : Fin 4, e.get (F.LMP_CH_ACTIVE_SEQ_SEQ c) = 1) ∧
        ∀ a, e.ldB a = d.ldB a)) ∧
  (∀ (s : State) (x : Fin 256), Ends (.trainingComplete x) s fun e =>
    let d := s.dev
    let f := x.val &&& d.chanMask
    let d1 := (d.put F.DMC_TRAINSTAT_FAIL f).put F.DMC_TRAINSTAT_DONE (d.chanMask - f)
    if d.st? ≠ stTraining ∨ d.attemptsEnded = false then e = d
    else
      (f ≠ 0 → Frame d e [R.DMC_TRAINSTAT] ∧ e = { d with regs := e.regs, reps := e.reps, freeCtr := e.freeCtr } ∧
        e.get F.DMC_TRAINSTAT_FAIL = f % 2 ^ 8 ∧ Reports d e [168]) ∧
      (f = 0 → d1.entriesOf true = [] → d1.impSettle d1.hasFont = (sOk, d1) →
        Frame d e [R.DMC_TRAINSTAT, R.SYS_STATE, R.SYS_IRQ_STAT, R.CFG_SLOTA, R.CFG_SLOTB] ∧
        e = { d with regs := e.regs, sys := e.sys } ∧ e.sys = { d.sys with twdC := d.c } ∧ e.st? = stSelftest ∧
        e.get (if d.cfg.slot = 0 then F.CFG_SLOTA_LOADED else F.CFG_SLOTB_LOADED) = 1 ∧ e.get F.DMC_TRAINSTAT_DONE = d.chanMask % 2 ^ 8))

/-- R44, R45, R47, R48, R51, R71, R126. The time of an expiry is the model's choice (log entry 1). -/
def Obligations.SelftestAndHarts : Prop :=
  (∀ (s : State) (us : Fin 16001), Ends (.journalRecovery us) s fun e =>
    let d := s.dev
    if d.st? = stSelftest ∧ d.get F.JNL_STATUS_RECOVERED = 0 then
      (e.rd R.JNL_RECUS).toNat = us ∧ (((List.range nSlots).filter d.inUse) = [] →
        e.get F.JNL_STATUS_RECOVERED = 1 ∧ e.get F.JNL_IRQ_STAT_RECOVERED = 1 ∧ e.get F.JNL_STATUS_INUSE = 0 ∧ e.itk.items = [])
    else e = d) ∧
  (∀ (s : State) (x : Option (Fin 256)), Ends (.selftestComplete x) s fun e =>
    let d := s.dev
    if d.st? ≠ stSelftest ∨ d.get F.JNL_STATUS_RECOVERED ≠ 1 then e = d
    else match x with
      | some f => (4 ≤ d.sev f → e = { d with reps := e.reps, freeCtr := e.freeCtr } ∧ Reports d e [f.val]) ∧
          (d.sev f < 4 → e.st? = stReady)
      | none => e.st? = stReady ∧ e.sys.hartsRun = d.hasFirmware ∧
          e.get F.CFG_FLOOR_VALUE = max (d.get F.CFG_FLOOR_VALUE) d.cfg.floor % 2 ^ 32 ∧
          (e.rd R.SYS_STARTUS).toNat = (d.c - d.sys.startC) / 1000 % 2 ^ 32) ∧
  (∀ (s : State) (src : Fin 256), Ends (.startLimitExceeded src) s fun e =>
    let d := s.dev
    if 1 ≤ d.st? ∧ d.st? ≤ stSelftest ∧ d.sys.off = false then e = { d with reps := e.reps, freeCtr := e.freeCtr } ∧ Reports d e [src.val]
    else e = d) ∧
  (∀ s : State, Ends .hartWatchdogExpiry s fun e =>
    let d := s.dev
    let ms := d.get F.SYS_HWD_CFG_TIMEOUT
    if d.sys.hartsRun = false ∨ ms = 0 then e = d
    else
      e.c = max d.c (d.sys.hwdC + ms * 1000000) % 2 ^ 64 ∧ (∀ a, e.ldB a = d.ldB a) ∧
      e = { d with regs := e.regs, c := e.c, sys := e.sys, reps := e.reps, freeCtr := e.freeCtr } ∧
      (d.sys.hwdFirst = false → Frame d e [R.SYS_IRQ_STAT] ∧ e.get F.SYS_IRQ_STAT_HWD_WARN = 1 ∧
        e.sys = { d.sys with hwdC := e.c, hwdFirst := true } ∧ Reports d e [3]) ∧
      (d.sys.hwdFirst = true → d.get F.SYS_HWD_CFG_ACTION ≠ 1 → Frame d e [] ∧ e.sys = { d.sys with hwdC := e.c } ∧ Reports d e [3]) ∧
      (d.sys.hwdFirst = true → d.get F.SYS_HWD_CFG_ACTION = 1 →
        e.sys = { d.sys with hwdC := e.c, hartsRun := false, claimed := [], ctlDue := true, hwdFirst := false } ∧
        e.get F.SYS_RSTCAUSE_CTL = 1 ∧ Reports d e [3, 4])) ∧
  (∀ (s : State) (flash : Bool), Ends (.ctlReset flash) s fun e =>
    let d := s.dev
    let fw := (d.directory d.cfg.slot).filter fun x => x.type == 0x3001 || x.type == 0x3002
    if d.sys.ctlDue = false then e = d
    else if flash = false then e = { d with reps := e.reps, freeCtr := e.freeCtr } ∧ Reports d e [11]
    else if fw.all (d.digestOk d.cfg.slot) then
      e = { d with sys := e.sys, mem := e.mem } ∧
      e.sys = { d.sys with ctlDue := false, hartsRun := fw.any fun x => x.type == 0x3001, hwdC := d.c, hwdFirst := false } ∧
      (fw = [] → e.mem = d.mem)
    else e = { d with sys := { d.sys with ctlDue := false, hwdC := d.c, hwdFirst := false }, reps := e.reps, freeCtr := e.freeCtr } ∧
      Reports d e [12])

/-- R474 to R476. -/
def Obligations.HarvestOfFault : Prop :=
  (∀ (s : State) (err : Bool), Ends (.harvest err) s fun e =>
    let d := s.dev
    if d.sys.harvestDue = none ∨ d.sys.harvestPhase ≠ 0 ∨ d.journalSafe = false then e = d
    else
      e.get F.FLT_STAT_HARVEST = 1 ∧ e.reps = d.reps ∧ e.itk = d.itk ∧ e.cfg = d.cfg ∧ e.sec = d.sec ∧ e.flash = d.flash ∧
      e.sys = { d.sys with harvestPhase := 1, harvestFrom := d.c, harvestCode := if err && d.dumps then sIntegrity else sOk } ∧
      (d.sys.powerFail = true → d.dumps = false → e.mem = d.mem)) ∧
  (∀ s : State, Ends .harvestComplete s fun e =>
    let d := s.dev
    if d.sys.harvestPhase ≠ 1 then e = d
    else
      (e.sys.harvestDue = none) ∧
      (d.sys.harvestTwd = true → e.st? = stBoot ∧ (e.rd R.SYS_RSTCAUSE).toNat = 4) ∧
      (d.sys.harvestTwd = false → d.get F.FLT_CFG_FATALPOL = 0 → e.st? = stBoot ∧ (e.rd R.SYS_RSTCAUSE).toNat = 16) ∧
      (d.sys.harvestTwd = false → d.get F.FLT_CFG_FATALPOL = 1 → e.st? = d.st? ∧ e.get F.FLT_IRQ_STAT_HELD = 1 ∧
        e.get F.FLT_STAT_HARVEST = 0 ∧ bits (e.rd R.FLT_HVSTAT).toNat 8 8 = d.sys.harvestCode % 2 ^ 8 ∧ e.sys = { d.sys with harvestPhase := 2, harvestDue := none } ∧
        Reports d e (if d.sys.harvestCode = sOk then [] else [35]))) ∧
  (∀ s : State, Ends .harvestTimeout s fun e =>
    let d := s.dev
    if d.sys.harvestPhase ≠ 1 then e = d
    else
      e.sys.harvestDue = none ∧
      (d.sys.harvestTwd = true → e.st? = stBoot ∧ (e.rd R.SYS_RSTCAUSE).toNat = 4) ∧
      (d.sys.harvestTwd = false → d.get F.FLT_CFG_FATALPOL = 0 → e.st? = stBoot ∧ (e.rd R.SYS_RSTCAUSE).toNat = 16) ∧
      (d.sys.harvestTwd = false → d.get F.FLT_CFG_FATALPOL = 1 → e.st? = d.st? ∧ e.get F.FLT_IRQ_STAT_HELD = 1 ∧
        e.c = max d.c (d.sys.harvestFrom + 30000000) % 2 ^ 64 ∧ bits (e.rd R.FLT_HVSTAT).toNat 8 8 = sTimeout ∧ Reports d e [35]))

/-- R84, R89 to R91: alarm inputs and the MAC unit. -/
def Obligations.AlarmInputs : Prop :=
  (∀ (s : State) (n : Fin 2), Ends (.tamperAlarm n) s fun e =>
    AlarmFires s.dev e n ∧ n.val ∈ e.sec.active ∧ (∀ m ∈ s.dev.sec.active, m ∈ e.sec.active) ∧
    (e.get F.SEC_STATUS_ALARM = 1 ↔ ∃ m ∈ e.sec.active, e.get (F.SEC_ALARM_CFG_ENABLE m) = 1)) ∧
  (∀ (s : State) (ok : Bool), Ends (.meshSample ok) s fun e =>
    let d := s.dev
    (ok = true ∨ d.sec.meshBad = false → e = { d with sec := { d.sec with meshBad := !ok } }) ∧
    (ok = false → d.sec.meshBad = true → AlarmFires d e 2 ∧ 2 ∈ e.sec.active ∧ e.sec.meshBad = true)) ∧
  (∀ s : State, Ends .voltageGlitch s fun e =>
    AlarmFires s.dev e 3 ∧ e.sec.active = s.dev.sec.active ∧ (s.dev.get (F.SEC_ALARM_CFG_ENABLE 3) = 0 → e = s.dev)) ∧
  (∀ s : State, Ends .clockGlitch s fun e =>
    AlarmFires s.dev e 4 ∧ e.sec.active = s.dev.sec.active ∧ (s.dev.get (F.SEC_ALARM_CFG_ENABLE 4) = 0 → e = s.dev)) ∧
  (∀ s : State, Ends .secTempAlarm s fun e => AlarmFires s.dev e 5 ∧ 5 ∈ e.sec.active) ∧
  (∀ (s : State) (n : Fin 8), Ends (.alarmInputInactive n) s fun e =>
    let d := s.dev
    Frame d e [R.SEC_STATUS] ∧ e = { d with regs := e.regs, sec := e.sec } ∧
    e.sec = { d.sec with active := d.sec.active.filter fun m => m ≠ n.val } ∧
    (e.get F.SEC_STATUS_ALARM = 1 ↔ ∃ m ∈ e.sec.active, d.get (F.SEC_ALARM_CFG_ENABLE m) = 1)) ∧
  (∀ (s : State) (use : Fin 3) (slot : Fin 256) (msg : List Byte), Ends (.macOperation use slot msg) s fun e =>
    let d := s.dev
    let a := d.macAnswer use slot msg
    e = { d with out := .mac use a.1 a.2 :: d.out } ∧
    (d.keyAt slot = none → a = (sAbsent, [])) ∧
    (∀ k ∈ d.sec.keys, d.keyAt slot = some k → bitB k.use use = false → a = (sDenied, [])) ∧
    (∀ k ∈ d.sec.keys, d.keyAt slot = some k → bitB k.use use = true →
      a = (sOk, if k.kind = 2 ∨ k.kind = 3 then aesCmac k.key msg else hmacSha256 k.key msg)))

/-- R79, R93 to R96. -/
def Obligations.JtagInstructions : Prop :=
  (∀ (s : State) (cells : List Nat), Ends (.extest cells) s fun e =>
    let d := s.dev
    e.sys.jtagInstr = 0x00 ∧ e.sec.boundary = cells ∧ (∀ a, e.ldB a = d.ldB a) ∧ e.out.head? = some (.jtag 0 cells) ∧
    if d.st? = stBoot ∨ d.st? = stConfigFail then
      e = { d with sys := { d.sys with jtagInstr := 0 }, sec := { d.sec with boundary := cells }, out := .jtag 0 cells :: d.out }
    else e.st? = stSafe ∧ e.sys.safeJtag = true) ∧
  (∀ (s : State) (cells : List Nat), Ends (.samplePreload cells) s fun e =>
    let d := s.dev
    e = { d with sys := { d.sys with jtagInstr := 1 }, sec := { d.sec with boundary := cells },
                 out := .jtag 1 [(d.rd R.PIN_GPIO_IN).toNat, (d.rd R.PIN_FIXIN).toNat] :: d.out }) ∧
  (∀ s : State, Ends .clamp s fun e =>
    let d := s.dev
    e.sys.jtagInstr = 2 ∧ (∀ a, e.ldB a = d.ldB a) ∧
    if d.st? = stBoot ∨ d.st? = stConfigFail then e = { d with sys := { d.sys with jtagInstr := 2 }, out := .jtag 2 d.sec.boundary :: d.out }
    else e.st? = stSafe ∧ e.sys.safeJtag = true) ∧
  (∀ s : State, Ends .highz s fun e =>
    let d := s.dev
    e.sys.jtagInstr = 3 ∧ (∀ a, e.ldB a = d.ldB a) ∧
    if d.st? = stBoot ∨ d.st? = stConfigFail then e = { d with sys := { d.sys with jtagInstr := 3 }, out := .jtag 3 d.sec.boundary :: d.out }
    else e.st? = stSafe ∧ e.sys.safeJtag = true) ∧
  (∀ s : State, Ends .devid s fun e =>
    let d := s.dev
    e = { d with sys := { d.sys with jtagInstr := 0x10 }, out := .jtag 0x10 [(d.rd 0x02000000).toNat] :: d.out }) ∧
  (∀ s : State, Ends .unlock s fun e =>
    let d := s.dev
    if d.debugKilled ∨ 3 ≤ d.sec.unlockFails then e = { d with sys := { d.sys with jtagInstr := 0xFF }, out := .jtag 0xFF [0] :: d.out }
    else e = { d with sys := { d.sys with jtagInstr := 0x20 }, freeCtr := d.freeCtr + 1,
                      sec := { d.sec with nonce := Config.freeValue d.freeCtr % 2 ^ 128 },
                      out := .jtag 0x20 [Config.freeValue d.freeCtr % 2 ^ 128] :: d.out }) ∧
  (∀ (s : State) (rights slot : Nat) (pub sig : List Byte), Ends (.unlockToken rights slot pub sig) s fun e =>
    let d := s.dev
    let msg := leBytes 16 d.sec.fuses.uid ++ leBytes 16 d.sec.nonce ++ leBytes 4 rights
    let good := slot < 4 ∧ nth d.sec.fuses.slotRevoke slot true = false ∧ nth d.sec.fuses.keyHash slot 0 ≠ 0 ∧
      sha384 pub = beBytes 48 (nth d.sec.fuses.keyHash slot 0) ∧ ecdsaVerify pub (sha384 msg) sig = true
    if d.debugKilled ∨ 3 ≤ d.sec.unlockFails then e = { d with sys := { d.sys with jtagInstr := 0xFF }, out := .jtag 0xFF [0] :: d.out }
    else
      e.get F.SEC_IRQ_STAT_UNLOCK = 1 ∧
      (good → Frame d e [R.SEC_IRQ_STAT, R.SEC_STATUS] ∧ e.sec = { d.sec with rights := rights % 4 } ∧ e.get F.SEC_STATUS_UNLOCKED = 1) ∧
      (¬ good → d.sec.unlockFails < 2 → Frame d e [R.SEC_IRQ_STAT] ∧ e.sec = { d.sec with unlockFails := d.sec.unlockFails + 1 } ∧
        e.reps = d.reps) ∧
      (¬ good → d.sec.unlockFails = 2 → e.sec.unlockFails = 3 ∧ AlarmFires d e 7)) ∧
  (∀ (s : State) (ws : List Nat), Ends (.dbgApp ws) s fun e =>
    let d := s.dev
    if d.debugKilled = false ∧ bitB d.sec.rights 0 = true then e = { d with sys := { d.sys with jtagInstr := 0x21 }, out := .jtag 0x21 ws :: d.out }
    else e = { d with sys := { d.sys with jtagInstr := 0xFF }, out := .jtag 0xFF [0] :: d.out }) ∧
  (∀ (s : State) (w : Bool) (a n v : Nat), Ends (.dbgReg w a n v) s fun e =>
    let d := s.dev
    if d.debugKilled ∨ d.sys.off then e = { d with sys := { d.sys with jtagInstr := 0xFF }, out := .jtag 0xFF [0] :: d.out }
    else
      let memory : Bool := d.jtagReg && (inSram a n || d.inDram a n)
      (memory = true → w = true → e = { d with mem := e.mem, out := .reg 7 a sOk 0 :: d.out } ∧ e.mem = (d.st a n v).mem ∧
        (∀ x, x < a ∨ a + n ≤ x → e.ldB x = d.ldB x)) ∧
      (memory = true → w = false → e = { d with out := .reg 7 a sOk (d.ld a n) :: d.out }) ∧
      (memory = false → w = true → e.out.head? = some (.reg 7 a (d.busW 7 a n v).1 0)) ∧
      (memory = false → w = false → e = { (d.busR 7 a n).2.2 with out := .reg 7 a (d.busR 7 a n).1 (d.busR 7 a n).2.1 :: d.out })) ∧
  (∀ s : State, Ends .bypass s fun e =>
    e = { s.dev with sys := { s.dev.sys with jtagInstr := 0xFF }, out := .jtag 0xFF [0] :: s.dev.out })

/-- R85 to R88, R125, R394: the opcodes that read. -/
def Obligations.MailboxReads : Prop :=
  (∀ (s : State) (n : Fin 4), Ends (.info n) s fun e =>
    let d := s.dev
    Asks d n { op := 0x01, len := 0, group := 7, states := .onward } →
      Answered d e n sOk [d.cfg.fwVersion, (d.rd R.SEC_STATUS).toNat, (d.rd R.CFG_SEQ).toNat, (d.rd R.CFG_FLOOR).toNat] ∧
      Frame d e (mbxRegs n) ∧ e = { d with regs := e.regs, sys := e.sys, out := e.out }) ∧
  (∀ (s : State) (n : Fin 4), Ends (.devpub n) s fun e =>
    let d := s.dev
    let half := d.arg n 0
    Asks d n { op := 0x02, len := 1, group := 7, states := .onward } →
      if 1 < half then Declined d e n sBadValue
      else
        Frame d e (mbxRegs n) ∧ e = { d with regs := e.regs, sys := e.sys, out := e.out } ∧
        Answered d e n sOk ((List.range 12).map fun k => if d.get F.SEC_STATUS_ROOT_KILL = 1 then 0
          else beNat (((devPub d.sec.fuses.rootKey d.sec.fuses.uid).drop (4 * (12 * half + k))).take 4))) ∧
  (∀ (s : State) (n : Fin 4), Ends (.keyList n) s fun e =>
    let d := s.dev
    let a := d.arg n 0
    Asks d n { op := 0x03, len := 1, group := 7, states := .onward } →
      if 7 < a then Declined d e n sBadValue
      else
        Frame d e (mbxRegs n) ∧ e = { d with regs := e.regs, sys := e.sys, out := e.out } ∧
        Answered d e n sOk [(e.rd (R.MBX_RSP_W n 1)).toNat] ∧
        ∀ b : Fin 32, bitB (e.rd (R.MBX_RSP_W n 1)).toNat b = d.sec.keys.any fun k => k.slot == 32 * a + b.val) ∧
  (∀ (s : State) (n : Fin 4), Ends (.jnlRead n) s fun e =>
    let d := s.dev
    let id := d.arg n 0 + 2 ^ 32 * d.arg n 1
    Asks d n { op := 0x10, len := 2, group := 0, states := .onward } →
      if id = 0 then Declined d e n sBadValue
      else match d.findItem id with
        | none => Declined d e n sAbsent
        | some i =>
          let r := d.ldBs (slotAddr i.slot) 64
          if d.recOk i.slot = false then Answered d e n sIntegrity [] ∧ 25 ∈ e.reps.map fun x => x.src
          else
            Frame d e (mbxRegs n) ∧ e = { d with regs := e.regs, sys := e.sys, out := e.out } ∧
            Answered d e n sOk ((List.range 11).map (fun k => fieldLE r (4 * k) 4) ++
              [fieldLE r 0x30 4, fieldLE r 0x34 4, fieldLE r 0x38 4, fieldLE r 0x3C 4])) ∧
  (∀ (s : State) (n : Fin 4), Ends (.twnInfo n) s fun e =>
    let d := s.dev
    let v (a : Nat) : Nat := (twnView d a).getD (d.rd a).toNat
    Asks d n { op := 0x80, len := 0, group := 7, states := .onward } →
      Answered d e n sOk [v R.TWN_STAT, v R.TWN_EPOCH, v R.TWN_PEPOCH, v R.TWN_PHEALTH] ∧
      Frame d e (mbxRegs n) ∧ e = { d with regs := e.regs, sys := e.sys, out := e.out })

/-- R8, R87, R88, R389, R394, R469, R472. -/
def Obligations.MailboxActs : Prop :=
  (∀ (s : State) (n : Fin 4), Ends (.fltSetsev n) s fun e =>
    let d := s.dev
    let src := d.arg n 0 % 2 ^ 8
    let v := d.arg n 0 / 2 ^ 8
    Asks d n { op := 0x20, len := 1, group := 1, states := .onward } →
      match srcInfo src with
      | none => Declined d e n sBadValue
      | some (_, least) =>
        if v < least ∨ 5 < v then Declined d e n sBadValue
        else Answered d e n sOk [] ∧ e.sev src = v ∧ (∀ k : Fin 256, k.val ≠ src → e.sev k = d.sev k) ∧ (∀ a, e.ldB a = d.ldB a)) ∧
  (∀ (s : State) (n : Fin 4), Ends (.fltInject n) s fun e =>
    let d := s.dev
    let a := d.arg n 0
    Asks d n { op := 0x21, len := 1, group := 2, states := .onward } →
      if srcInfo (a % 2 ^ 8) = none then Declined d e n sBadValue
      else
        Answered d e n sOk [] ∧ Frame d e (mbxRegs n) ∧
        e = { d with regs := e.regs, sys := e.sys, out := e.out, reps := d.reps ++ [{ src := a % 2 ^ 8, detail := a / 2 ^ 8, inj := true }] }) ∧
  (∀ (s : State) (n : Fin 4), Ends (.safeEnter n) s fun e =>
    let d := s.dev
    Asks d n { op := 0x50, len := 0, group := 5, states := .firing } →
      Answered d e n sOk [] ∧ e.st? = stSafe ∧ e.get F.FLT_SAFESTAT_CAUSE = 3 ∧ e.get F.FLT_SAFESTAT_FROM = d.st? ∧
      (∀ k : Fin 8, e.get (F.FIR_HG_STAT_IDLESAFE k) = 1)) ∧
  (∀ (s : State) (n : Fin 4), Ends (.twnSwap n) s fun e =>
    let d := s.dev
    Asks d n { op := 0x81, len := 0, group := 5, states := .firing } →
      if d.paired ∧ d.role = roleActive ∧ d.get F.TWN_STAT_PROLE = roleStandby ∧ d.get healthBits = 0 then
        Answered d e n sOk [] ∧ e.role = roleFenced
      else Declined d e n sBadState) ∧
  (∀ (s : State) (n : Fin 4), Ends (.twnRejoin n) s fun e =>
    let d := s.dev
    Asks d n { op := 0x82, len := 0, group := 5, states := .onward } →
      if d.paired = false ∨ d.role ≠ roleFenced then Declined d e n sBadState
      else if d.get F.TWN_STAT_LINKUP = 0 then Declined d e n sAbsent
      else Answered d e n sOk [] ∧ e.role = roleSyncing) ∧
  (∀ (s : State) (n : Fin 4), Ends (.twnResign n) s fun e =>
    let d := s.dev
    Asks d n { op := 0x83, len := 0, group := 5, states := .onward } →
      if d.paired ∧ (d.role = roleStandby ∨ d.role = roleSyncing ∨
          d.role = roleActive ∧ d.get F.TWN_STAT_PROLE = roleStandby ∧ d.get healthBits = 0) then
        Answered d e n sOk [] ∧ e.role = roleFenced
      else Declined d e n sBadState) ∧
  (∀ (s : State) (n : Fin 4), Ends (.twnForce n) s fun e =>
    let d := s.dev
    Asks d n { op := 0x84, len := 1, group := 5, states := .onward } →
      if d.arg n 0 ≠ 0x7A1F0C3D then Declined d e n sBadValue
      else if d.paired ∧ d.role = roleFenced ∧ d.twn.silent ∧ d.get F.TWN_STAT_PALIVE = 0 then
        Answered d e n sOk [] ∧ e.role = roleActive ∧ e.epoch = 1 + (d.get F.TWN_PEPOCH_EPOCH :: d.epochsSeen).foldl max d.epoch ∧
        e.get F.TWN_IRQ_STAT_TAKEOVER = 1 ∧ 38 ∈ e.reps.map fun x => x.src
      else Declined d e n sBadState) ∧
  (∀ (s : State) (n : Fin 4), Ends (.mailboxUnknown n) s fun e =>
    let d := s.dev
    if d.mbxTurn = some n.val ∧ d.reqHead n % 2 ^ 8 ∉ mbxOpcodes then Declined d e n sUnsupported else e = d)

/-- R87. -/
def Obligations.MailboxRefusals : Prop :=
  ∀ (s : State) (n : Fin 4), ∀ p ∈ ([
      (.info n, ⟨0x01, 0, 7, .onward⟩), (.devpub n, ⟨0x02, 1, 7, .onward⟩), (.keyList n, ⟨0x03, 1, 7, .onward⟩),
      (.jnlRead n, ⟨0x10, 2, 0, .onward⟩), (.fltSetsev n, ⟨0x20, 1, 1, .onward⟩), (.fltInject n, ⟨0x21, 1, 2, .onward⟩),
      (.updOpen n, ⟨0x30, 4, 3, .onward⟩), (.updData n, ⟨0x31, 3, 3, .onward⟩), (.updClose n, ⟨0x32, 0, 3, .onward⟩),
      (.safeEnter n, ⟨0x50, 0, 5, .firing⟩), (.fuseProgDebugKill n, ⟨0x60, 3, 6, .ready⟩), (.fuseProgRootKill n, ⟨0x60, 3, 6, .ready⟩),
      (.twnInfo n, ⟨0x80, 0, 7, .onward⟩), (.twnSwap n, ⟨0x81, 0, 5, .firing⟩), (.twnRejoin n, ⟨0x82, 0, 5, .onward⟩),
      (.twnResign n, ⟨0x83, 0, 5, .onward⟩), (.twnForce n, ⟨0x84, 1, 5, .onward⟩)] : List (Sys2Proof.Instr × MbxRow)),
    Ends p.1 s fun e =>
      let d := s.dev
      let h := d.reqHead n
      (d.mbxTurn ≠ some n.val ∨ h % 2 ^ 8 ≠ p.2.op → e = d) ∧
      (d.mbxTurn = some n.val → h % 2 ^ 8 = p.2.op →
        (p.1 = .fuseProgDebugKill n → d.arg n 0 = 8) → (p.1 = .fuseProgRootKill n → d.arg n 0 = 9) →
        (h / 2 ^ 8 % 2 ^ 8 ≠ p.2.len ∨ h / 2 ^ 24 ≠ 0 → Declined d e n sBadValue) ∧
        (h / 2 ^ 8 % 2 ^ 8 = p.2.len → h / 2 ^ 24 = 0 → p.2.group ≠ 7 → d.bit F.SEC_MBX_ALLOW_GROUP p.2.group = false →
          Declined d e n sDenied) ∧
        (h / 2 ^ 8 % 2 ^ 8 = p.2.len → h / 2 ^ 24 = 0 → (p.2.group = 7 ∨ d.bit F.SEC_MBX_ALLOW_GROUP p.2.group = true) →
          d.mbxAllows p.2.states = false → Declined d e n sBadState))

/-- R72, R73, R88. -/
def Obligations.ImageUpdates : Prop :=
  (∀ (s : State) (n : Fin 4), Ends (.updOpen n) s fun e =>
    let d := s.dev
    let slot := d.arg n 0
    let sq := d.arg n 2
    Asks d n { op := 0x30, len := 4, group := 3, states := .onward } →
      if 1 < slot then Declined d e n sBadValue
      else if sq ≤ d.cfg.seq then Declined d e n sSequence
      else if sq < d.arg n 3 then Declined d e n sBadValue
      else if 0x4000000 < d.arg n 1 then Declined d e n sNoRoom
      else if slot = d.cfg.slot then Declined d e n sDenied
      else if d.cfg.upd.isSome then Declined d e n sBusy
      else
        Answered d e n sOk [] ∧ Frame d e (R.CFG_UPDSTAT :: mbxRegs n) ∧
        e = { d with regs := e.regs, sys := e.sys, out := e.out, cfg := e.cfg, flash := e.flash } ∧ e.get F.CFG_UPDSTAT_STEP = 1 ∧
        e.cfg = { d.cfg with upd := some (slot, d.arg n 1, sq, d.arg n 3), updErased := false, updClosed := false, updData := none,
                             updHeld := [] } ∧
        (d.flash.flashWf → ∀ x, e.flB x = if d.slotBase slot ≤ x ∧ x < d.slotBase slot + 0x4000000 then 0xFF else d.flB x)) ∧
  (∀ (s : State) (answers : Bool), Ends (.updateEraseComplete answers) s fun e =>
    let d := s.dev
    if d.cfg.upd = none ∨ d.cfg.updErased = true then e = d
    else if answers then e = { d with cfg := { d.cfg with updErased := true } }
    else
      e.cfg = { d.cfg with upd := none, updErased := false, updClosed := false, updData := none, updHeld := [] } ∧
      Frame d e [R.CFG_UPDSTAT, R.CFG_IRQ_STAT] ∧ e.get F.CFG_UPDSTAT_STEP = 3 ∧ e.get F.CFG_IRQ_STAT_UPD_DONE = 1 ∧ Reports d e [11]) ∧
  (∀ (s : State) (n : Fin 4), Ends (.updData n) s fun e =>
    let d := s.dev
    let o := d.arg n 0
    let len := d.arg n 2
    Asks d n { op := 0x31, len := 3, group := 3, states := .onward } →
      match d.cfg.upd with
      | none => Declined d e n sBadState
      | some u =>
        if d.cfg.updClosed = true then Declined d e n sBadState
        else if 0x100000 < len then Declined d e n sBadValue
        else match d.mbxBuf (d.arg n 1) len with
          | none => Declined d e n sDenied
          | some a =>
            if u.2.1 < o + len then Declined d e n sBadValue
            else if d.cfg.updErased = false then Declined d e n sBusy
            else if d.cfg.updData = none then
              e = { d with sys := { d.sys with mbxNext := (n.val + 1) % 4 }, cfg := e.cfg } ∧
              e.cfg = { d.cfg with updData := some n.val, updHeld := e.cfg.updHeld } ∧
              (∀ k : Nat, d.cfg.updHeld.flashWf → spGet 0xFF e.cfg.updHeld k = if o ≤ k ∧ k < o + len then d.ldB (a + (k - o)) else spGet 0xFF d.cfg.updHeld k)
            else Declined d e n sBusy) ∧
  (∀ (s : State) (answers : Bool), Ends (.flashWriteComplete answers) s fun e =>
    let d := s.dev
    match d.cfg.upd, d.cfg.updData with
    | some u, some n =>
      (answers = true → e.out.head? = some (.mbx n sOk []) ∧ e.get (F.MBX_CTL_DONE n) = 1 ∧ e.get (F.MBX_CTL_BUSY n) = 0 ∧
        e.cfg = { d.cfg with updData := none, updHeld := d.cfg.updHeld.filter fun x => x.1 < updBodies } ∧
        e = { d with regs := e.regs, cfg := e.cfg, out := e.out, flash := e.flash } ∧ Frame d e (mbxRegs n) ∧
        ∀ x ∈ d.cfg.updHeld, updBodies ≤ x.1 → d.cfg.updHeld.flashWf → d.flash.flashWf → e.flB (d.slotBase u.1 + x.1) = x.2) ∧
      (answers = false → e.cfg.upd = none ∧ e.flash = d.flash ∧ e.get (F.MBX_CTL_DONE n) = 1 ∧ e.get F.CFG_UPDSTAT_STEP = 3 ∧
        Reports d e [11])
    | _, _ => e = d) ∧
  (∀ (s : State) (n : Fin 4), Ends (.updClose n) s fun e =>
    let d := s.dev
    Asks d n { op := 0x32, len := 0, group := 3, states := .onward } →
      match d.cfg.upd with
      | none => Declined d e n sBadState
      | some u =>
        if d.cfg.updClosed = true then Declined d e n sBadState
        else if d.cfg.updErased = false ∨ d.cfg.updData ≠ none then Declined d e n sBusy
        else
          Answered d e n sOk [] ∧ Frame d e (R.CFG_UPDSTAT :: mbxRegs n) ∧ e.get F.CFG_UPDSTAT_STEP = 2 ∧
          e = { d with regs := e.regs, sys := e.sys, out := e.out, cfg := e.cfg, flash := e.flash } ∧
          e.cfg = { d.cfg with updClosed := true, updHeld := [] } ∧
          ∀ x ∈ d.cfg.updHeld, d.cfg.updHeld.flashWf → d.flash.flashWf → e.flB (d.slotBase u.1 + x.1) = x.2) ∧
  (∀ s : State, Ends .updateCheckComplete s fun e =>
    let d := s.dev
    match d.cfg.upd with
    | none => e = d
    | some u =>
      if d.cfg.updClosed = false then e = d
      else
        let r := d.imageCheck u.1
        Frame d e [R.CFG_SLOTA, R.CFG_SLOTB, R.CFG_UPDSTAT, R.CFG_IRQ_STAT] ∧ e.flash = d.flash ∧
        e.cfg = { d.cfg with upd := none, updErased := false, updClosed := false, updData := none, updHeld := [] } ∧
        e.get F.CFG_UPDSTAT_STEP = 3 ∧ e.get F.CFG_UPDSTAT_CODE = r.1 % 2 ^ 8 ∧ e.get F.CFG_IRQ_STAT_UPD_DONE = 1 ∧
        bits (e.rd (if u.1 = 0 then R.CFG_SLOTA else R.CFG_SLOTB)).toNat 0 8 = r.1 % 2 ^ 8 ∧
        Reports d e (if r.1 = sOk then [] else [10]))

/-- R79, R80, R88, R95. -/
def Obligations.FuseProgramming : Prop :=
  (∀ (s : State) (n : Fin 4), Ends (.fuseProgKeyhash n) s fun e =>
    let d := s.dev
    let t := d.arg n 0
    Asks d n { op := 0x60, len := 3, group := 6, states := .ready } → t < 4 ∨ 11 < t →
      if 11 < t ∨ d.arg n 2 ≠ 0x0F05E0B1 then Declined d e n sBadValue
      else match d.mbxBuf (d.arg n 1) 48 with
        | none => Declined d e n sDenied
        | some a =>
          if d.cfg.upd.isSome then Declined d e n sBusy
          else if nth d.sec.fuses.keyHash t 0 ≠ 0 then Declined d e n sConflict
          else
            Answered d e n sOk [] ∧ Frame d e (mbxRegs n) ∧ e = { d with regs := e.regs, sys := e.sys, out := e.out, sec := e.sec } ∧
            e.sec = { d.sec with fuses := { d.sec.fuses with keyHash := upd d.sec.fuses.keyHash t fun _ => beNat (d.ldBs a 48) } }) ∧
  (∀ (s : State) (n : Fin 4), Ends (.fuseProgSlotRevoke n) s fun e =>
    let d := s.dev
    let t := d.arg n 0
    Asks d n { op := 0x60, len := 3, group := 6, states := .ready } → 4 ≤ t → t < 8 →
      if d.arg n 2 ≠ 0x0F05E0B1 then Declined d e n sBadValue
      else if d.cfg.upd.isSome then Declined d e n sBusy
      else if t = 4 + d.cfg.keySlot then Declined d e n sBadState
      else
        Answered d e n sOk [] ∧ Frame d e (mbxRegs n) ∧ e = { d with regs := e.regs, sys := e.sys, out := e.out, sec := e.sec } ∧
        e.sec = { d.sec with fuses := { d.sec.fuses with slotRevoke := upd d.sec.fuses.slotRevoke (t - 4) fun _ => true } }) ∧
  (∀ (s : State) (n : Fin 4), Ends (.fuseProgDebugKill n) s fun e =>
    let d := s.dev
    Asks d n { op := 0x60, len := 3, group := 6, states := .ready } → d.arg n 0 = 8 →
      if d.arg n 2 ≠ 0x0F05E0B1 then Declined d e n sBadValue
      else if d.cfg.upd.isSome then Declined d e n sBusy
      else
        Answered d e n sOk [] ∧ Frame d e (R.SEC_STATUS :: mbxRegs n) ∧ e.debugKilled = true ∧ e.get F.SEC_STATUS_DEBUG_KILL = 1 ∧
        e.get F.SEC_STATUS_UNLOCKED = 0 ∧
        e.sec = { d.sec with rights := 0, fuses := { d.sec.fuses with debugKill := [true, true, true] } }) ∧
  (∀ (s : State) (n : Fin 4), Ends (.fuseProgRootKill n) s fun e =>
    let d := s.dev
    Asks d n { op := 0x60, len := 3, group := 6, states := .ready } → d.arg n 0 = 9 →
      if d.arg n 2 ≠ 0x0F05E0B1 then Declined d e n sBadValue
      else if d.cfg.upd.isSome then Declined d e n sBusy
      else
        Answered d e n sOk [] ∧ Frame d e (R.SEC_STATUS :: mbxRegs n) ∧ e.get F.SEC_STATUS_ROOT_KILL = 1 ∧
        e.sec = { d.sec with fuses := { d.sec.fuses with rootKill := [true, true, true] } }) ∧
  (∀ (s : State) (n : Fin 4), Ends (.fuseProgZkeyRevoke n) s fun e =>
    let d := s.dev
    let t := d.arg n 0
    Asks d n { op := 0x60, len := 3, group := 6, states := .ready } → t = 10 ∨ t = 11 →
      if d.arg n 2 ≠ 0x0F05E0B1 then Declined d e n sBadValue
      else if d.cfg.upd.isSome then Declined d e n sBusy
      else if t = 10 + d.cfg.zkey then Declined d e n sBadState
      else
        Answered d e n sOk [] ∧ Frame d e (mbxRegs n) ∧ e = { d with regs := e.regs, sys := e.sys, out := e.out, sec := e.sec } ∧
        e.sec = { d.sec with fuses := { d.sec.fuses with zkeyRevoke := upd d.sec.fuses.zkeyRevoke (t - 10) fun _ => true } })

/-- R97 to R103, R106. -/
def Obligations.SessionMessages : Prop :=
  (∀ (s : State) (p : Fin 4) (v6 frag : Bool) (b : List Byte), Ends (.vjpMalformed p v6 frag b) s fun e =>
    let d := s.dev
    if d.netLets p v6 = true ∧ (frag = true ∨ parseVjp b = none) then
      Frame d e [R.ITK_DROP_FMT] ∧ e = { d with regs := e.regs } ∧
      (e.rd R.ITK_DROP_FMT).toNat = min (2 ^ 32 - 1) ((d.rd R.ITK_DROP_FMT).toNat + 1)
    else e = d) ∧
  (∀ (s : State) (p : Fin 4) (v6 : Bool) (m : VjpMsg), Ends (.vjpOpen p v6 m) s fun e =>
    let d := s.dev
    let n := m.slot
    let r0 := Config.freeValue d.freeCtr % 2 ^ 128
    let sid := 1 + Config.freeValue (d.freeCtr + 1) % 2 ^ 32 % (2 ^ 32 - 1)
    let nd := leBytes 16 r0
    d.netLets p v6 = true → m.type = 1 → vjpFmtOk m = true → (d.running = true ∨ d.st? = stSafe) →
      match d.sec.keys.find? fun k => k.slot == d.get (F.ITK_SESS_CFG_KEYSLOT n) && k.kind == 4 && bitB k.use 1 with
      | none => Frame d e [R.ITK_DROP_AUTH, R.ITK_IRQ_STAT] ∧ e.get F.ITK_IRQ_STAT_AUTHDROP = 1
      | some k =>
        (d.get (F.ITK_SESS_CFG_ENABLE n) = 0 ∨ vjpTagOk k.key m = false →
          Frame d e [R.ITK_DROP_AUTH, R.ITK_IRQ_STAT] ∧ e.get F.ITK_IRQ_STAT_AUTHDROP = 1) ∧
        (d.get (F.ITK_SESS_CFG_ENABLE n) = 1 → vjpTagOk k.key m = true → m.body.length = 24 → zeroBytes m.body 16 8 = true →
          e.sessState n = 1 ∧ e.get (F.ITK_SESS_SID_SID n) = sid ∧ e.get F.ITK_IRQ_STAT_SESSION = 1 ∧
          (n < d.itk.sess.length → (e.sess n).key = kdf k.key (ascii "VJPSES") (m.body.take 16 ++ nd ++ leBytes 4 sid) 256 ∧
            (e.sess n).ack = 1 ∧ (e.sess n).held = []) ∧
          (n, 2, leBytes 1 sOk ++ leBytes 3 0 ++ leBytes 4 sid ++ nd) ∈ sentVjp d e)) ∧
  (∀ (s : State) (p : Fin 4) (v6 : Bool) (m : VjpMsg), Ends (.close p v6 m) s fun e =>
    let d := s.dev
    let n := m.slot
    InTurn d p v6 m → m.type = 3 → m.body = [] →
      Frame d e [R.ITK_SESS_STAT n, R.ITK_SESS_SID n, R.ITK_IRQ_STAT] ∧ e.sessState n = 0 ∧ e.get (F.ITK_SESS_SID_SID n) = 0 ∧
      e.get (F.ITK_SESS_STAT_UNACKED n) = 0 ∧ e.get F.ITK_IRQ_STAT_SESSION = 1 ∧ e.sess n = {} ∧ e.out = d.out) ∧
  (∀ (s : State) (p : Fin 4) (v6 : Bool) (m : VjpMsg), Ends (.ackonly p v6 m) s fun e =>
    let d := s.dev
    let n := m.slot
    let x := d.sess n
    let rto := d.get (F.ITK_SESS_CFG2_RTO n)
    d.netLets p v6 = true → m.type = 4 → vjpFmtOk m = true → d.sessState n = 1 → m.sid = d.get (F.ITK_SESS_SID_SID n) →
      vjpTagOk x.key m = true → n < d.itk.sess.length →
      Frame d e [R.ITK_SESS_STAT n] ∧ e = { d with regs := e.regs, itk := { d.itk with sess := e.itk.sess } } ∧
      (∀ k, k ≠ n → e.sess k = d.sess k) ∧
      e.sess n = if later32 m.ack x.peerAck then
          { x with via := 0xFFFF, lastC := d.c, peerAck := m.ack, peerSack := m.sack, expiries := 0, interval := rto, timerC := d.c,
                   unacked := x.unacked.filter fun q => !(later32 m.ack q.seq) }
        else if m.ack = x.peerAck then { x with via := 0xFFFF, lastC := d.c, peerSack := m.sack }
        else { x with via := 0xFFFF, lastC := d.c }) ∧
  (∀ (s : State) (p : Fin 4) (v6 : Bool) (m : VjpMsg), Ends (.vjpUnknownType p v6 m) s fun e =>
    let d := s.dev
    let n := m.slot
    InTurn d p v6 m → m.type ∉ [1, 3, 4, 0x10, 0x11, 0x12, 0x13, 0x14, 0x15, 0x18, 0x19] →
      SessionOnly d e n ∧ ResultSent d e n m.seq m.type sUnsupported 0 0 0 0)

/-- R102 to R104, R108, R116, R119. The times of expiries are the model's choice (log entry 1). -/
def Obligations.SessionTimers : Prop :=
  (∀ (s : State) (n : Fin 8), Ends (.ackTimer n) s fun e =>
    let d := s.dev
    if d.sessState n = 1 ∧ (d.sess n).ackDue = true then
      (∀ a, e.ldB a = d.ldB a) ∧ e.itk.sess = upd d.itk.sess n (fun x => { x with ackDue := false }) ∧
      ((d.sess n).via = 0xFFFF → e = { d with itk := e.itk, out := e.out } ∧ (n.val, 4, []) ∈ sentVjp d e)
    else e = d) ∧
  (∀ (s : State) (n : Fin 8), Ends (.retransmitTimer n) s fun e =>
    let d := s.dev
    let x := d.sess n
    let shown (q : TxMsg) : Bool :=
      let i := (q.seq + 2 ^ 32 - x.peerAck - 1) % 2 ^ 32
      i < 32 && bitB x.peerSack i
    if d.sessState n ≠ 1 ∨ x.unacked = [] then e = d
    else
      e.c = max d.c (x.timerC + x.interval * 1000000) % 2 ^ 64 ∧
      (9 ≤ x.expiries → e.sessState n = 2 ∧ e.get (F.ITK_SESS_SID_SID n) = 0 ∧ e.get F.ITK_IRQ_STAT_SESSION = 1 ∧ Reports d e [44]) ∧
      (x.expiries < 9 → e.itk.sess = upd d.itk.sess n (fun y =>
          { y with expiries := x.expiries + 1, interval := min 64 (2 * x.interval), timerC := e.c, ackDue := false }) ∧
        (x.via = 0xFFFF → e = { d with c := e.c, itk := { d.itk with sess := e.itk.sess }, out := e.out } ∧
          ∀ q ∈ x.unacked, shown q = false → (n.val, q.type, q.body) ∈ sentVjp d e))) ∧
  (∀ (s : State) (n : Fin 8), Ends (.sessionIdle n) s fun e =>
    let d := s.dev
    if d.sessState n = 1 then
      e.c = max d.c ((d.sess n).lastC + d.get (F.ITK_SESS_CFG2_IDLE n) * 100000000) % 2 ^ 64 ∧
      Frame d e [R.ITK_SESS_STAT n, R.ITK_SESS_SID n, R.ITK_IRQ_STAT] ∧ e.sessState n = 0 ∧ e.get (F.ITK_SESS_SID_SID n) = 0 ∧
      e.get F.ITK_IRQ_STAT_SESSION = 1 ∧ e.sess n = {} ∧ e.out = d.out
    else e = d) ∧
  (∀ (s : State) (n : Fin 8), Ends (.queuedMessageSend n) s fun e =>
    let d := s.dev
    let x := d.sess n
    match x.waiting with
    | [] => e = d
    | m :: r =>
      if d.sessState n = 1 ∧ x.unacked.length < 256 then
        e.get (F.ITK_SESS_STAT_UNACKED n) = x.unacked.length + 1 ∧
        e.itk.sess = upd d.itk.sess n (fun y => { y with
          waiting := r, unacked := y.unacked ++ [m], ackDue := false, timerC := if x.unacked = [] then d.c else x.timerC }) ∧
        (x.via = 0xFFFF → Frame d e [R.ITK_SESS_STAT n] ∧ (n.val, m.type, m.body) ∈ sentVjp d e)
      else e = d) ∧
  (∀ (s : State) (pg : Fin 65536), Ends (.pageFree pg) s fun e =>
    let d := s.dev
    match d.page? pg with
    | none => e = d
    | some x =>
      if (d.itk.items.any fun i => i.live && i.page == x.page) = true ∨ (d.itk.receiving.any fun r => r.item.page == x.page) = true then e = d
      else
        e = { d with c := e.c, itk := { d.itk with pages := d.itk.pages.filter fun y => y.page != x.page } } ∧
        e.c = max d.c (x.since + d.get F.ITK_PAGECFG_HOLD * 1000000) % 2 ^ 64) ∧
  (∀ (s : State) (id : Nat), Ends (.finalSend id) s fun e =>
    let d := s.dev
    match d.findItem id with
    | none => e = d
    | some i =>
      if d.finalDue i = false then e = d
      else match (List.range 8).find? (fun n => d.sessState n = 1 && d.sessZone n i.zone) with
        | none => e = d
        | some n =>
          (∀ a, e.ldB a = d.ldB a) ∧ (∀ j ∈ e.itk.items, j.id = id → j.finalOn = some n) ∧
          ((d.sess n).via = 0xFFFF → (d.sess n).unacked.length < 256 → (d.sess n).waiting = [] →
            Frame d e [R.ITK_SESS_STAT n] ∧ (n, 0x21, finalBody i) ∈ sentVjp d e)) ∧
  (∀ (s : State) (link id : Nat), Ends (.refusalHoldExpiry link id) s fun e =>
    let d := s.dev
    match d.itk.refusals.find? fun x => x.1 == link && x.2.1 == id with
    | none => e = d
    | some r => e = { d with c := e.c, itk := { d.itk with refusals := d.itk.refusals.filter fun x => x ≠ r } } ∧
        e.c = max d.c (r.2.2 + 10000000000) % 2 ^ 64)

/-- R100, R107, R109, R111, R112, R115, R116, R119, R122. -/
def Obligations.ItemRequests : Prop :=
  (∀ (s : State) (p : Fin 4) (v6 : Bool) (m : VjpMsg), Ends (.submit p v6 m) s fun e =>
    let d := s.dev
    let n := m.slot
    let j := itemOfSubmit m.body n 0
    InTurn d p v6 m → m.type = 0x10 → d.itk.receiving = none → d.itk.submitQ = [] →
      if d.bit (F.ITK_SESS_CFG2_RIGHTS n) 0 = false then SessionOnly d e n ∧ ResultSent d e n m.seq 0x10 sDenied 0xFF 0 j.id j.zseq
      else if m.body.length < 64 then SessionOnly d e n ∧ ResultSent d e n m.seq 0x10 sBadValue 0xFF 0 j.id j.zseq
      else if d.sessZone n j.zone = false then SessionOnly d e n ∧ ResultSent d e n m.seq 0x10 sDenied 0xFF 0 j.id j.zseq
      else if d.submitOk m.body = false then SessionOnly d e n ∧ ResultSent d e n m.seq 0x10 sBadValue 0xFF 0 j.id j.zseq
      else if d.running = false ∨ d.decides = false ∨ d.stop = true then SessionOnly d e n ∧ ResultSent d e n m.seq 0x10 sBadState 0xFF 0 j.id j.zseq
      else match d.findItem j.id with
        | some i => ResultSent d e n m.seq 0x10 sDuplicate i.state i.reason i.id i.zseq
        | none =>
          if j.zseq ≠ d.lastZseq j.zone + 1 then SessionOnly d e n ∧ ResultSent d e n m.seq 0x10 sSequence 0xFF 0 j.id j.zseq
          else match d.nextSlot with
            | none => ResultSent d e n m.seq 0x10 sNoRoom 0xFF 0 j.id j.zseq ∧ 26 ∈ e.reps.map (fun r => r.src)
            | some slot =>
              if d.get F.ITK_PAGESIZE_MIB = 0 ∨ d.get (F.ITK_ZONE_CFG_MAXLIVE j.zone) ≤ d.liveCount j.zone then
                ResultSent d e n m.seq 0x10 sNoRoom 0xFF 0 j.id j.zseq ∧ e.get F.ITK_IRQ_STAT_NOROOM = 1
              else if j.trig = 2 ∧ j.lateOk = false ∧ later48 j.offset (d.zonePos j.zone) = false then
                SessionOnly d e n ∧ ResultSent d e n m.seq 0x10 sLate 0xFF 0 j.id j.zseq
              else if d.get F.TWN_STAT_ACCHOLD = 1 then SessionOnly d e n ∧ ResultSent d e n m.seq 0x10 sBusy 0xFF 0 j.id j.zseq
              else MramGood d → d.replicates = false → slot < nSlots →
                e.itk.receiving = some { item := itemOfSubmit m.body n slot, who := (n, m.sid, m.seq), jacked := true } ∧
                e.lastZseq j.zone = j.zseq ∧ e.itk.lastSlot = slot ∧ e.inUse slot = true ∧ e.recOk slot = true ∧
                e.itk.items = d.itk.items ∧ (e.page? j.page).isSome) ∧
  (∀ s : State, Ends .accept s fun e =>
    let d := s.dev
    match d.itk.receiving with
    | none => e = d
    | some r =>
      if r.jacked = false ∧ d.replicates = true then e = d
      else
        d.itk.refusals = [] → d.itk.submitQ = [] → d.pageHdr r.item.page = none →
          e.itk.receiving = none ∧ e.itk.items = d.itk.items ++ [r.item] ∧
          e.get (F.ITK_ZONE_STAT_LIVE r.item.zone) = e.liveCount r.item.zone % 2 ^ 16 ∧ (∀ a, e.ldB a = d.ldB a) ∧
          (d.sessState r.who.1 = 1 → d.get (F.ITK_SESS_SID_SID r.who.1) = r.who.2.1 → (d.sess r.who.1).via = 0xFFFF →
            (d.sess r.who.1).unacked.length < 256 → (d.sess r.who.1).waiting = [] → r.item.zone < 16 → r.who.1 < 8 →
            ResultSent d e r.who.1 r.who.2.2 0x10 sOk isAccepted 0 r.item.id r.item.zseq)) ∧
  (∀ (s : State) (p : Fin 4) (v6 : Bool) (m : VjpMsg), Ends (.cancel p v6 m) s fun e =>
    let d := s.dev
    let n := m.slot
    let id := fieldLE m.body 0 8
    InTurn d p v6 m → m.type = 0x12 →
      if d.bit (F.ITK_SESS_CFG2_RIGHTS n) 1 = false then SessionOnly d e n ∧ ResultSent d e n m.seq 0x12 sDenied 0xFF 0 id 0
      else if m.body.length ≠ 8 then SessionOnly d e n ∧ ResultSent d e n m.seq 0x12 sBadValue 0xFF 0 id 0
      else if d.decides = false then SessionOnly d e n ∧ ResultSent d e n m.seq 0x12 sBadState 0xFF 0 id 0
      else match d.findItem id with
        | none => SessionOnly d e n ∧ ResultSent d e n m.seq 0x12 sAbsent 0xFF 0 id 0
        | some i =>
          if d.sessZone n i.zone = false then SessionOnly d e n ∧ ResultSent d e n m.seq 0x12 sDenied 0xFF 0 id 0
          else if isFiring ≤ i.state ∨ i.stuck = true then
            SessionOnly d e n ∧ ResultSent d e n m.seq 0x12 sBadState i.state i.reason id i.zseq
          else MramGood d → i.live = true →
            (e.findItem id).map (fun j => (j.state, j.reason, j.slot)) = some (isCancelled, 0x0F, i.slot) ∧
            (d.replicates = false → ResultSent d e n m.seq 0x12 sOk isCancelled 0x0F id i.zseq)) ∧
  (∀ (s : State) (p : Fin 4) (v6 : Bool) (m : VjpMsg), Ends (.finalAck p v6 m) s fun e =>
    let d := s.dev
    let n := m.slot
    let cnt := fieldLE m.body 0 2
    let ids := (List.range cnt).map fun k => fieldLE m.body (8 + 8 * k) 8
    InTurn d p v6 m → m.type = 0x13 →
      if m.body.length ≠ 8 + 8 * cnt ∨ cnt = 0 ∨ 256 < cnt ∨ zeroBytes m.body 2 6 = false then
        SessionOnly d e n ∧ ResultSent d e n m.seq 0x13 sBadValue 0 0 0 0
      else if d.decides = false ∨ ((ids.filterMap d.findItem).any fun i => i.live) = true then
        SessionOnly d e n ∧ ResultSent d e n m.seq 0x13 sBadState 0 0 0 0
      else
        e.itk.items = d.itk.items.filter (fun i => !(ids.contains i.id)) ∧ (d.replicates = false → ResultSent d e n m.seq 0x13 sOk 0 0 0 0)) ∧
  (∀ (s : State) (p : Fin 4) (v6 : Bool) (m : VjpMsg), Ends (.query p v6 m) s fun e =>
    let d := s.dev
    let n := m.slot
    let id := fieldLE m.body 0 8
    InTurn d p v6 m → m.type = 0x14 →
      SessionOnly d e n ∧
      if d.bit (F.ITK_SESS_CFG2_RIGHTS n) 0 = false then ResultSent d e n m.seq 0x14 sDenied 0xFF 0 id 0
      else if m.body.length ≠ 8 then ResultSent d e n m.seq 0x14 sBadValue 0xFF 0 id 0
      else if d.role = roleFenced then ResultSent d e n m.seq 0x14 sBadState 0xFF 0 id 0
      else match d.findItem id with
        | none => ResultSent d e n m.seq 0x14 sAbsent 0xFF 0 id 0
        | some i =>
          if d.sessZone n i.zone then ResultSent d e n m.seq 0x14 sOk i.state i.reason id i.zseq
          else ResultSent d e n m.seq 0x14 sDenied 0xFF 0 id 0) ∧
  (∀ (s : State) (p : Fin 4) (v6 : Bool) (m : VjpMsg), Ends (.zoneBase p v6 m) s fun e =>
    let d := s.dev
    let n := m.slot
    let z := fieldLE m.body 0 1
    let v := fieldLE m.body 2 6
    InTurn d p v6 m → m.type = 0x15 →
      if d.bit (F.ITK_SESS_CFG2_RIGHTS n) 0 = false then SessionOnly d e n ∧ ResultSent d e n m.seq 0x15 sDenied 0 0 0 0
      else if m.body.length ≠ 8 ∨ fieldLE m.body 1 1 ≠ 0 then SessionOnly d e n ∧ ResultSent d e n m.seq 0x15 sBadValue 0 0 0 0
      else if d.sessZone n z = false then SessionOnly d e n ∧ ResultSent d e n m.seq 0x15 sDenied 0 0 0 0
      else if d.decides = false then SessionOnly d e n ∧ ResultSent d e n m.seq 0x15 sBadState 0 0 0 0
      else if v ≤ d.lastZseq z then SessionOnly d e n ∧ ResultSent d e n m.seq 0x15 sSequence 0 0 0 0
      else MramGood d → e.lastZseq z = v ∧ e.itk.items = d.itk.items ∧ (d.replicates = false → ResultSent d e n m.seq 0x15 sOk 0 0 0 0))

/-- R100, R108, R118, R135, R381. -/
def Obligations.DataAndRegisters : Prop :=
  (∀ (s : State) (p : Fin 4) (v6 : Bool) (m : VjpMsg), Ends (.vjpData p v6 m) s fun e =>
    let d := s.dev
    let n := m.slot
    let b := m.body
    let pg := fieldLE b 0 4
    let ix := fieldLE b 4 4
    let part := fieldLE b 8 4
    let total := fieldLE b 12 4
    let x := pg + ix * 2 ^ 32
    let len := min (b.length - 16) (total - part)
    let old := (d.page? pg).bind fun y => y.blks.find? fun z => z.idx == ix
    let got := ((old.map fun z => z.got).getD []) ++ [(part, len)]
    InTurn d p v6 m → m.type = 0x11 → ¬ (d.role = roleStandby ∨ d.role = roleSyncing) →
      if d.bit (F.ITK_SESS_CFG2_RIGHTS n) 0 = false then SessionOnly d e n ∧ ResultSent d e n m.seq 0x11 sDenied 0 0 0 x
      else if b.length < 16 then SessionOnly d e n ∧ ResultSent d e n m.seq 0x11 sBadValue 0 0 0 x
      else if 65535 < pg ∨ 65535 < ix ∨ total ≤ part ∨ (old.any fun z => z.total != total) = true ∨ total - part + 8 ≤ b.length - 16 then
        SessionOnly d e n ∧ ResultSent d e n m.seq 0x11 sBadValue 0 0 0 x
      else if (old.any fun z => z.complete) = true then SessionOnly d e n ∧ ResultSent d e n m.seq 0x11 sDuplicate 0 0 0 x
      else match (match old with
        | some z => some z.base
        | none => d.storeRoom total) with
        | none => ResultSent d e n m.seq 0x11 sNoRoom 0 0 0 x ∧ e.get F.ITK_IRQ_STAT_NOROOM = 1 ∧ (∀ a, e.ldB a = d.ldB a)
        | some base =>
          reachOf got got.length 0 < total →
            (∀ a, e.ldB a = if base + part ≤ a ∧ a < base + part + len then nth b (16 + (a - (base + part))) 0 else d.ldB a) ∧
            ∃ y ∈ e.itk.pages, y.page = pg ∧ { idx := ix, total := total, got := got, base := base, complete := false,
                                               who := (n, m.sid, m.seq) } ∈ y.blks) ∧
  (∀ (s : State) (p : Fin 4) (v6 : Bool) (m : VjpMsg), Ends (.regRead p v6 m) s fun e =>
    let d := s.dev
    let n := m.slot
    let a := fieldLE m.body 0 5
    InTurn d p v6 m → m.type = 0x18 →
      if d.bit (F.ITK_SESS_CFG2_RIGHTS n) 2 = false then SessionOnly d e n ∧ ResultSent d e n m.seq 0x18 sDenied 0 0 a 0
      else if m.body.length ≠ 8 then SessionOnly d e n ∧ ResultSent d e n m.seq 0x18 sBadValue 0 0 a 0
      else if zeroBytes m.body 5 3 = false then SessionOnly d e n ∧ ResultSent d e n m.seq 0x18 sBadValue 0 0 a 0
      else ∃ x : Dev, SessionOnly d x n ∧ SessionOnly (x.busR reqVjp a 4).2.2 e n ∧
        ResultSent d e n m.seq 0x18 (x.busR reqVjp a 4).1 0 0 a (x.busR reqVjp a 4).2.1) ∧
  (∀ (s : State) (p : Fin 4) (v6 : Bool) (m : VjpMsg), Ends (.regWrite p v6 m) s fun e =>
    let d := s.dev
    let n := m.slot
    let a := fieldLE m.body 0 5
    let v := fieldLE m.body 8 4
    InTurn d p v6 m → m.type = 0x19 →
      if d.bit (F.ITK_SESS_CFG2_RIGHTS n) 3 = false then SessionOnly d e n ∧ ResultSent d e n m.seq 0x19 sDenied 0 0 a 0
      else if m.body.length ≠ 16 ∨ zeroBytes m.body 5 3 = false ∨ zeroBytes m.body 12 4 = false then
        SessionOnly d e n ∧ ResultSent d e n m.seq 0x19 sBadValue 0 0 a 0
      else ∃ x : Dev, SessionOnly d x n ∧
        ((x.busW reqVjp a 4 v).2.out = d.out → (x.busW reqVjp a 4 v).2.sessState n = 1 → (x.busW reqVjp a 4 v).2.sess n = x.sess n →
          SessionOnly (x.busW reqVjp a 4 v).2 e n ∧ ResultSent d e n m.seq 0x19 (x.busW reqVjp a 4 v).1 0 0 a 0))

/-- R113 to R115, R135, R155, R187, R246, R247. -/
def Obligations.StagingAndBinding : Prop :=
  (∀ (s : State) (id : Nat), Ends (.itemStaged id) s fun e =>
    let d := s.dev
    match d.findItem id with
    | none => e = d
    | some i => match d.pageHdr i.page with
      | none => e = d
      | some h =>
        if i.state ≠ isAccepted ∨ i.rendered = false ∨ i.blocks ≠ h.blocks ∨ d.pageComplete i h = false then e = d
        else if d.noFit h i.zone = [] then
          e.itk = { d.itk with items := d.itk.items.map fun j => if j.id = id then { j with state := isStaged } else j } ∧
          (MramGood d → e.regs = d.regs ∧ e.out = d.out ∧ ∀ a, a < mramBase ∨ sramBase ≤ a → e.ldB a = d.ldB a)
        else
          e.get F.BRD_IRQ_STAT_NOFIT = 1 ∧
          (MramGood d → d.decides = true → i.stuck = false →
            (e.findItem id).map (fun j => (j.state, j.reason)) = some (isNotPrinted, 0x0B))) ∧
  (∀ (s : State) (id : Nat), Ends (.itemBind id) s fun e =>
    let d := s.dev
    match d.findItem id with
    | none => e = d
    | some i =>
      let now := d.zonePos i.zone
      let base := match d.predEnd i.zone with
        | some p => if later48 p now then p else now
        | none => now
      let late := passed now i.offset
      let fp := if i.trig = 1 then d.firstPosFor i.zone ((base + i.offset) % 2 ^ 48) else if late ∧ i.lateOk then now else i.offset
      let first := (d.givePos i fp).firstLine { i with firstPos := fp }
      if i.state ≠ isStaged ∨ i.trig = 0 ∨ d.bindTurn i = false ∨ d.running = false ∨ d.decides = false then e = d
      else
        (e.findItem id).map (fun j => (j.firstPos, j.bound)) = some (fp, true) ∧
        (i.zone < d.itk.bound.length → (nth e.itk.bound i.zone []).map (fun x => x.1) = id :: (nth d.itk.bound i.zone []).map (fun x => x.1)) ∧
        ((i.trig = 1 ∨ late = false ∨ i.lateOk = true) → d.refuses (d.zoneHgs i.zone) = none → d.passesOverlap i = false →
          (∀ p, d.predEnd i.zone = some p → later48 first p = true) → (e.findItem id).map (fun j => j.state) = some isScheduled) ∧
        (i.trig ≠ 1 → late = true → i.lateOk = false → d.refuses (d.zoneHgs i.zone) = none → MramGood d → i.stuck = false →
          (e.findItem id).map (fun j => (j.state, j.reason)) = some (isNotPrinted, 0x05)) ∧
        (d.refuses (d.zoneHgs i.zone) = some 0x07 → MramGood d → i.stuck = false →
          (e.findItem id).map (fun j => (j.state, j.reason)) = some (isNotPrinted, 0x07))) ∧
  (∀ (s : State) (k : Fin 4) (up full : Bool) (t : Nat), Ends (.printGoEdge k up full t) s fun e =>
    let d := s.dev.posAt t
    let w := (d.enc (d.get (F.POS_PG_CFG_LENC k))).h / 2 ^ 32
    let locked := (nth d.pos.pgLast k none).any fun p => decide (w - p < d.get (F.POS_PG_LOCKOUT_SUBLINES k))
    let zs := (List.range 16).filter fun z => (d.oldestUnbound z).any fun i => i.trig == 0 && i.trigArg == k.val
    if d.get (F.POS_PG_CFG_ENABLE k) = 0 ∨ bitB (d.get (F.POS_PG_CFG_EDGE k)) (if up then 0 else 1) = false then e = d
    else
      e.get (F.POS_PG_STAT_EDGES k) = (d.get (F.POS_PG_STAT_EDGES k) + 1) % 2 ^ (F.POS_PG_STAT_EDGES k).width ∧
      if d.running = false ∧ d.st? ≠ stSafe then Frame d e [R.POS_PG_STAT k] ∧ e = { d with regs := e.regs }
      else if locked then
        Frame d e [R.POS_PG_STAT k] ∧ e = { d with regs := e.regs } ∧
        e.get (F.POS_PG_STAT_LOCKED k) = min (2 ^ (F.POS_PG_STAT_LOCKED k).width - 1) (d.get (F.POS_PG_STAT_LOCKED k) + 1)
      else
        nth e.pos.pgLast k none = (if k < d.pos.pgLast.length then some w else none) ∧
        (full = true → Frame d e [R.POS_PG_STAT k, R.POS_IRQ_STAT] ∧ e.get F.POS_IRQ_STAT_PGOVF = 1 ∧ Reports d e [90]) ∧
        (full = false → d.decides = false → Frame d e [R.POS_PG_STAT k] ∧ e = { d with regs := e.regs, pos := e.pos }) ∧
        (full = false → d.decides = true → ∀ z ∈ zs, zs = [z] → z < d.itk.lastPg.length → nth e.itk.lastPg z none = some k.val ∧
          (d.oldestUnbound z).map (fun i => (i.id, (d.edgePos z k t + i.offset) % 2 ^ 48)) =
            (d.oldestUnbound z).bind fun i => (e.findItem i.id).map fun j => (j.id, j.firstPos)))

/-- R157 to R162, R166, R167. -/
def Obligations.DecodersAndCompressor : Prop :=
  (∀ (s : State) (hg : Fin 8) (k : Fin 8) (ecc : Bool), Ends (.inputRingFetch hg k ecc) s fun e =>
    let d := s.dev
    let l := nth d.ras.opened hg []
    match l[k.val]? with
    | none => e = d
    | some b =>
      (ecc = false → e = if b.fetched < b.total ∧ b.fetched + 256 - b.used ≤ 65536 / l.length then
          { d with ras := { d.ras with opened := upd d.ras.opened hg fun l => upd l k fun b => { b with fetched := min b.total (b.fetched + 256) } } }
        else d) ∧
      (ecc = true → b.idx < 2 ^ 16 → e.get F.BRD_IRQ_STAT_ERR = 1 ∧ e.get (F.BRD_HG_ERR_VALID hg) = 1 ∧ 53 ∈ e.reps.map (fun r => r.src) ∧
        ∀ j ∈ e.itk.items, j.id = b.item → j.abandoned = true)) ∧
  (∀ (s : State) (hg : Fin 8) (k : Fin 8), Ends (.decoderInputReady hg k) s fun e =>
    let d := s.dev
    match (nth d.ras.opened hg [])[k.val]? with
    | none => e = d
    | some b => e = if b.waiting = true ∧ min b.total (b.used + 8) ≤ b.fetched then
        { d with ras := { d.ras with opened := upd d.ras.opened hg fun l => upd l k fun b => { b with waiting := false } } }
      else d) ∧
  (∀ (s : State) (hg : Fin 8) (n : Nat), Ends (.decoderStallEnd hg n) s fun e =>
    let d := s.dev
    if nth d.ras.stopped hg false = true ∧ (d.hgHeads hg).all d.panRoom = true then
      Frame d e [R.BRD_HG_STALL hg] ∧ e = { d with regs := e.regs, ras := { d.ras with stopped := upd d.ras.stopped hg fun _ => false } } ∧
      (e.rd (R.BRD_HG_STALL hg)).toNat = min (2 ^ 32 - 1) ((d.rd (R.BRD_HG_STALL hg)).toNat + n)
    else e = d) ∧
  (∀ s : State, Ends .djobComplete s fun e =>
    let d := s.dev
    if d.get F.BRD_DJOB_STAT_STATE ≠ 1 then e = d
    else
      Frame { d with mem := e.mem } e [R.BRD_DJOB_STAT, R.BRD_IRQ_STAT] ∧
      e = { d with regs := e.regs, mem := e.mem, reps := e.reps, freeCtr := e.freeCtr } ∧ e.get F.BRD_IRQ_STAT_DJOB = 1 ∧
      (e.get F.BRD_DJOB_STAT_STATE = 2 ∧ e.get F.BRD_DJOB_STAT_CODE = sOk ∧ Reports d e [] ∨
        e.get F.BRD_DJOB_STAT_STATE = 3 ∧ e.get F.BRD_DJOB_STAT_CODE = sIntegrity ∧ Reports d e [55]) ∧
      (d.pageHdr (d.get F.BRD_DJOB_PAGE_PAGE) = none → e.mem = d.mem ∧ e.get F.BRD_DJOB_STAT_STATE = 3)) ∧
  (∀ s : State, Ends .brcRingRoom s fun e =>
    let d := s.dev
    match d.ras.jobs with
    | [] => e = d
    | j :: _ =>
      if d.get F.BRC_STAT_STATE = 2 ∧ j.need ≤ d.ringFree then
        Frame d e [R.BRC_STAT] ∧ e = { d with regs := e.regs } ∧ e.get F.BRC_STAT_STATE = 1
      else e = d) ∧
  (∀ (s : State) (c : List Byte) (fail : Fin 3), Ends (.brcBlockVerify c fail) s fun e =>
    let d := s.dev
    match d.ras.jobs with
    | [] => e = d
    | j :: rest =>
      let h := j.hdr
      let p := j.place
      let rows := d.jobRows j
      let stored := storedBlock p.1 p.2.2 p.2.1 (h.stripW p.1 p.2.2) (h.bandH p.2.1) j.depth rows
      let good := decodesTo h (h.index p.1 p.2.1 p.2.2) c rows
      let out := (if j.next = 0 then streamBytes h else []) ++ (if good ∧ c.length < stored.length then c else stored)
      let w := d.get F.BRC_OUTWR_COUNT
      let size := d.get F.BRC_OUTSIZE_BYTES
      let base := d.addr40 R.BRC_OUTBASELO R.BRC_OUTBASEHI
      if d.get F.BRC_STAT_STATE ≠ 1 then e = d
      else if fail = 2 then
        e.ras.jobs = rest ∧ e.get F.BRC_STAT_CODE = sIntegrity ∧ e.get F.BRC_IRQ_STAT_DONE = 1 ∧ Reports d e [62] ∧ e.mem = d.mem
      else if fail = 1 ∧ good = false then
        e.ras.jobs = rest ∧ e.get F.BRC_STAT_CODE = sIntegrity ∧ e.get F.BRC_IRQ_STAT_DONE = 1 ∧ Reports d e [60, 61] ∧ e.mem = d.mem
      else
        Reports d e (if good then [] else [60]) ∧ e.get F.BRC_OUTWR_COUNT = (w + out.length) % 2 ^ 32 ∧
        (out.length ≤ size → w + out.length ≤ 2 ^ 32 →
          ∀ k : Fin 192, k.val < out.length → e.ldB (base + (w + k) % size) = nth out k 0) ∧
        (j.next + 1 = h.blocks → e.ras.jobs = rest ∧ e.get F.BRC_STAT_CODE = sOk ∧ e.get F.BRC_IRQ_STAT_DONE = 1 ∧
          (e.rd R.BRC_JOBBYTES).toNat = (j.bytes + out.length) % 2 ^ 32) ∧
        (j.next + 1 ≠ h.blocks → e.ras.jobs = { j with next := j.next + 1, bytes := j.bytes + out.length } :: rest))

/-- R159, R176, R181, R188, R189, R229, R230. -/
def Obligations.AssemblyOfLines : Prop :=
  ∀ (s : State) (r z : Fin 16) (err : Fin 4), Ends (.assembleLine r z err) s fun e =>
    let d := s.dev
    let hs := d.zoneRowHeads z r
    let it := d.nextOnRow r z
    let pt := d.nextPattern r z
    (d.running = false ∨ hs = [] ∨ d.zoneOk z = false ∨ (it = none ∧ pt = none) → e = d) ∧
    (d.running = true → hs ≠ [] → d.zoneOk z = true → (it.isSome ∨ pt.isSome) →
      (hs.all d.panRoom = false → e = { d with ras := { d.ras with stopped := e.ras.stopped } } ∧
        ∀ h ∈ hs, d.panRoom h = false → h / 8 < d.ras.stopped.length → nth e.ras.stopped (h / 8) false = true) ∧
      (hs.all d.panRoom = true →
        (∀ i ∈ d.itk.items, it = some i → pt = none → (i.abandoned = true ∨ err = 0 ∧ d.pageHdr i.page = none) →
          d.findItem i.id = some i →
          (e.findItem i.id).map (fun j => asmDone j.asm r) = some (asmDone i.asm r + 1) ∧ (∀ a, e.ldB a = d.ldB a) ∧
          (hs.eraseDups = hs → ∀ h ∈ hs, h < d.fir.heads.length → (e.head h).queue.length = (d.head h).queue.length + 1)) ∧
        (∀ i ∈ d.itk.items, it = some i → pt = none → i.abandoned = false → err ≠ 0 → d.findItem i.id = some i →
          (if err = 1 then 65 else if err = 2 then 66 else 80) ∈ e.reps.map (fun x => x.src) ∧ e.get F.RAS_IRQ_STAT_LATE = 1 ∧
          (e.findItem i.id).map (fun j => (j.abandoned, asmDone j.asm r)) = some (true, asmDone i.asm r + 1)) ∧
        (∀ p ∈ d.nzm.patterns, it = none → pt = some p →
          (∀ q ∈ e.nzm.patterns, q.zone = p.zone → ∃ q0 ∈ d.nzm.patterns, q0.zone = p.zone ∧ asmDone q.asm r = asmDone q0.asm r + 1) ∧
          (∀ a, e.ldB a = d.ldB a))))

/-- R195 to R198, R207, R209, R210. -/
def Obligations.FieldRendering : Prop :=
  (∀ (s : State) (err : Fin 3), Ends (.impItemRender err) s fun e =>
    let d := s.dev.impPurge
    match d.ras.impWork, d.ras.impQ with
    | none, id :: _ =>
      match d.findItem id with
      | none => e = d
      | some i => match d.pageHdr i.page with
        | none => e = d
        | some h =>
          if d.fieldPlan i = [] then
            (∀ j ∈ e.itk.items, j.id = i.id → j.rendered = true) ∧ i.id ∉ e.ras.impQ ∧ e.regs = d.regs ∧ e.mem = d.mem
          else match d.impT id with
            | none => e = d
            | some T =>
              let d1 := d.twInput 2 i.zone 0 [i.id, T]
              let d2 : Dev := { d1 with ras := { d1.ras with impWork := some (i.id, T), impTags := [] } }
              let d3 := d2.composeEffects i (d2.fieldPlan i)
              if d3.tagFields i T = [] then FieldsEnd d3 e i h T err
              else e = { d3 with ras := { d3.ras with impTag := true } }
    | _, _ => e = d) ∧
  (∀ (s : State) (err : Fin 3), Ends (.macResult err) s fun e =>
    let d := s.dev.impPurge
    match d.impItem with
    | none => e = d
    | some (i, h, T) =>
      if d.ras.impTag = false then e = d
      else match (d.tagFields i T).filter (fun x => !(d.ras.impTags.any fun y => y.1 == x.1)) with
        | [] => FieldsEnd d e i h T err
        | x :: r =>
          let ans := d.macAnswer 0 (d.get (F.IMP_TPL_MAC_KEYSLOT x.1)) x.2
          let d1 : Dev := { d with ras := { d.ras with impTags := d.ras.impTags ++ [(x.1, ans.2)] } }
          (ans.1 ≠ sOk → e.ras.impWork = none ∧ e.get F.IMP_IRQ_STAT_KEYS = 1 ∧ 73 ∈ e.reps.map (fun y => y.src) ∧
            (MramGood d → d.decides = true → i.live = true → i.stuck = false → d.findItem i.id = some i →
              (e.findItem i.id).map (fun j => (j.state, j.reason)) = some (isNotPrinted, 0x04))) ∧
          (ans.1 = sOk → r ≠ [] → e = d1) ∧
          (ans.1 = sOk → r = [] → FieldsEnd d1 e i h T err)) ∧
  (∀ (s : State) (err : Fin 3), Ends (.fieldStoreRoom err) s fun e =>
    let d := s.dev.impPurge
    match d.impItem with
    | none => e = d
    | some (i, h, T) => if d.ras.impRoom = true then FieldsEnd d e i h T err else e = d)

/-- R221 to R223, R225 to R230. The time of a delay's end is the model's choice (log entry 1). -/
def Obligations.NozzlesAndRake : Prop :=
  (∀ (s : State) (hg : Fin 8), Ends (.nozzleStateApply hg) s fun e =>
    let d := s.dev
    let next (st k : Nat) : Nat :=
      if k = 0 then (if st = 0 ∨ st = 2 then 1 else st) else if k = 1 then (if st = 3 then 3 else 0)
      else if k = 2 then (if st = 3 then 3 else 1) else if k = 3 then (if st = 1 then 2 else st)
      else if k = 4 then (if st = 2 then 0 else st) else (if st = 2 then 1 else st)
    (∀ n : Nat, e.nozState n = if n / 32768 = hg then (d.nzm.changes.filter fun x => x.1 = n).foldl (fun st x => next st x.2) (d.nozState n)
      else d.nozState n) ∧
    e.nzm.changes = d.nzm.changes.filter (fun x => x.1 / 32768 ≠ hg.val) ∧ e.nzm.active = d.nzm.active ∧ e.nzm.next = d.nzm.next ∧
    (∀ a, e.ldB a = d.ldB a) ∧ e.itk = d.itk ∧ e.fir = d.fir ∧
    ((d.nzm.changes.filter fun x => x.1 / 32768 = hg.val) = [] → e = d)) ∧
  (∀ (s : State) (n : Fin 262144), Ends (.probeDelayExpiry n) s fun e =>
    let d := s.dev
    match d.nzm.outs.find? fun x => x.1 == n.val with
    | none => e = d
    | some (_, t0, w) =>
      e.c = max d.c (t0 + w * 1000000000) % 2 ^ 64 ∧ e.regs = d.regs ∧ e.mem = d.mem ∧
      (d.get F.CAL_CFG_RESTORE ≠ 1 → e = { d with c := e.c }) ∧
      (d.get F.CAL_CFG_RESTORE = 1 → e.nzm = { d.nzm with outs := d.nzm.outs.filter (fun x => x.1 ≠ n.val), changes := e.nzm.changes } ∧
        e.nzm.changes = if d.decides then d.nzm.changes ++ [(n.val, 3)] else d.nzm.changes)) ∧
  (∀ (s : State) (hg : Fin 8) (ecc : Option (Fin 8)), Ends (.rakeSweep hg ecc) s fun e =>
    let d := s.dev
    let step := d.get F.CAL_CFG_STEP
    let held (h : Nat) : Bool := e.nzm.heldHeads.contains h
    e.nzm.active = d.nzm.active ∧ e.get (F.NZM_HG_FLAGS_READY hg) = 1 ∧ (∀ a, e.ldB a = d.ldB a) ∧ e.nzm.states = d.nzm.states ∧
    (∀ h ∈ d.hgHeads hg, ∀ i ∈ d.headNozzles h, (e.trimN (d.devNoz h i) - d.trimA (d.devNoz h i)).natAbs ≤ step) ∧
    (∀ h ∈ d.hgHeads hg, d.hgHeads hg = [h] → held h = false → ∀ i ∈ d.headNozzles h,
      let a := d.trimA (d.devNoz h i)
      e.trimN (d.devNoz h i) = a + clampI (-step) step (e.target h i - a)) ∧
    (∀ h ∈ d.hgHeads hg, d.hgHeads hg = [h] → held h = true → ∀ i ∈ d.headNozzles h, e.trimN (d.devNoz h i) = d.trimA (d.devNoz h i)) ∧
    (match ecc with
      | none => 87 ∉ (e.reps.drop d.reps.length).map fun x => x.src
      | some j => held (8 * hg + j) = true ∧ 87 ∈ (e.reps.drop d.reps.length).map fun x => x.src)) ∧
  (∀ (s : State) (n : Fin 262144) (r low : Nat), Ends (.densityReport n r low) s fun e =>
    let d := s.dev
    let early := (d.nzm.settle.find? fun x => x.1 == n.val).any fun x =>
      decide ((x.2 + 2 ^ 32 - low % 2 ^ 32) % 2 ^ 32 ≠ 0 ∧ (x.2 + 2 ^ 32 - low % 2 ^ 32) % 2 ^ 32 < 2 ^ 31)
    if d.get F.CAL_CFG_MODE ≠ 1 ∨ d.decides = false then e = d
    else match d.nozHead n with
      | none => e.regs = d.regs ∧ e.nzm = d.nzm
      | some (_, _) =>
        if d.nozState n ≠ 0 ∨ d.get (F.NZM_HG_FLAGS_DEGRADE (n / 32768)) = 1 ∨ early = true ∨ d.get F.CAL_HOLD_HOLD = 1 then
          e.nzm = d.nzm ∧ Frame d e [R.CAL_DISCCNT] ∧ (e.rd R.CAL_DISCCNT).toNat = min (2 ^ 32 - 1) ((d.rd R.CAL_DISCCNT).toNat + 1)
        else
          let x := roundDiv ((d.get F.CAL_CFG_GAIN : Int) * 128 * (16384 - (r : Int))) (256 * 16384)
          let delta : Int := if x.natAbs ≤ d.get F.CAL_CFG_DEADBAND then 0 else x
          Frame d e [R.CAL_UPDCNT, R.CAL_STAT] ∧ e.corr n = clampI (-63) 63 (d.corr n + delta) ∧ (∀ m : Nat, m ≠ n → e.corr m = d.corr m) ∧
          (e.corr n ≠ d.corr n → (e.rd R.CAL_UPDCNT).toNat = min (2 ^ 32 - 1) ((d.rd R.CAL_UPDCNT).toNat + 1))) ∧
  (∀ (s : State) (h : Fin 64), Ends (.tempStaleTimeout h) s fun e =>
    let d := s.dev
    if d.headOk h = true ∧ 100 ≤ d.tempAge h then
      Frame d e [R.CAL_IRQ_STAT] ∧ e = { d with regs := e.regs, reps := e.reps, freeCtr := e.freeCtr } ∧
      e.get F.CAL_IRQ_STAT_TEMPSTALE = 1 ∧ Reports d e [84]
    else e = d) ∧
  (∀ s : State, Ends .pb4Run s fun e =>
    let d := s.dev
    let due := (List.range 64).filter d.pbDue
    if d.get F.CAL_CFG_MODE ≠ 2 ∨ due = [] ∨ d.running = false ∨ d.nzm.patterns ≠ [] ∨ d.decides = false then e = d
    else
      e.nzm.patterns.map (fun p => (p.zone, p.heads, p.asm)) =
        ((List.range 16).filter fun z => d.zoneOk z && (d.zoneHeads z).any fun h => due.contains h).map (fun z => (z, due, [])) ∧
      Frame d e [R.CAL_STAT, R.CAL_PB4LAST] ∧ e.get F.CAL_STAT_STATE = 2) ∧
  (∀ (s : State) (bad : List Nat) (rs : List (Nat × Nat)), Ends (.pb4Analysis bad rs) s fun e =>
    let d := s.dev
    let hs := ((d.nzm.patterns.map fun p => p.heads).flatten).eraseDups
    let mine (n : Nat) : Bool := (d.nozHead n).any fun x => hs.contains x.1
    if d.nzm.patterns = [] ∨ d.decides = false then e = d
    else
      e.nzm.patterns = [] ∧ e.get F.CAL_STAT_STATE = 0 ∧ e.get F.CAL_IRQ_STAT_PB4DONE = 1 ∧ (∀ a, e.ldB a = d.ldB a) ∧ e.nzm.states = d.nzm.states ∧
      e.nzm.changes = d.nzm.changes ++ (bad.filter mine).map (fun n => (n, 0)) ++
        (d.nzm.states.filter fun x => x.2 == 2 && mine x.1 && !(bad.contains x.1)).map (fun x => (x.1, 4)) ∧
      (∀ h ∈ hs, h < 32 → e.bit F.CAL_PB4REQLO_HEADS h = false) ∧ (∀ h ∈ hs, 32 ≤ h → h < 64 → e.bit F.CAL_PB4REQHI_HEADS (h - 32) = false)) ∧
  (∀ s : State, Ends .pb4AnalysisTimeout s fun e =>
    let d := s.dev
    if d.nzm.patterns = [] then e = d
    else
      Frame d e [R.CAL_STAT, R.CAL_IRQ_STAT] ∧ e.get F.CAL_STAT_STATE = 0 ∧ e.get F.CAL_IRQ_STAT_PB4FAIL = 1 ∧ Reports d e [86] ∧
      e = { d with regs := e.regs, nzm := { d.nzm with patterns := [] }, reps := e.reps, freeCtr := e.freeCtr })

/-- R188, R256 to R261, R269, R307, R309, R310. -/
def Obligations.FiringAndHeat : Prop :=
  (∀ (s : State) (h : Fin 64) (t : Nat), Ends (.fireInstant h t) s fun e =>
    let d := s.dev.posAt t
    let n := h.val / 8
    if d.running = false then e = d
    else match (d.head h).pan.zipIdx.find? fun x => x.1.left.isNone with
      | some (v, k) =>
        if d.reached (d.zoneEnc v.zone) (d.fireAdv h (d.zoneEnc v.zone) v.throw t) v.f = false then e = d
        else
          let tc := match (d.head h).lastCmd with
            | some l => max t (l + d.getAct (F.FIR_HG_CFG_MINGAP n) * 10000)
            | none => t
          (e.head h).lastCmd = some tc ∧
          (e.head h).pan = (if v.silent then (d.head h).pan.eraseIdx k else upd (d.head h).pan k fun x => { x with left := some tc }) ∧
          e.get (F.FIR_HG_EVENTS_VALUE n) = (d.get (F.FIR_HG_EVENTS_VALUE n) + 1) % 2 ^ 32 ∧ e.get (F.FIR_HG_FIRESEQ_SEQ n) = v.act % 2 ^ 32 ∧
          (t < tc → e.get F.FIR_IRQ_STAT_SQUEEZE = 1 ∧ 97 ∈ e.reps.map (fun r => r.src) ∧
            (e.rd (R.FIR_HG_SQUEEZE n)).toNat = min (2 ^ 32 - 1) ((d.rd (R.FIR_HG_SQUEEZE n)).toNat + 1)) ∧
          (tc = t → e.rd (R.FIR_HG_SQUEEZE n) = d.rd (R.FIR_HG_SQUEEZE n) ∧ e.rd (R.FIR_HG_MAXLAG n) = d.rd (R.FIR_HG_MAXLAG n)) ∧
          let sent := if v.noDrop then [] else v.sel
          let rec0 : FiredRec := { head := h, seq := v.seq, time := tc / 1000, f := v.f, act := v.act, lines := v.lines, sel := sent }
          (if d.fir.recs.length < 4096 then e.fir.recs = d.fir.recs ++ [rec0]
            else e.fir.recs = d.fir.recs ∧ 99 ∈ e.reps.map (fun r => r.src) ∧ e.get F.FIR_IRQ_STAT_RECDROP = 1) ∧
          ((∀ l ∈ v.lines, l.last = false) → (∀ a, e.ldB a = d.ldB a) ∧
            e.itk.items.map (fun i => (i.id, i.state)) = d.itk.items.map fun i => (i.id, i.state)) ∧
          (∀ l ∈ v.lines, l.last = true → l.item ≠ 0 → (∀ i ∈ d.itk.items, i.id = l.item →
              (d.lastHeads i.zone).all (fun x => x = h.val || i.lastFired.contains x) = true) →
            (e.findItem l.item).map (fun i => i.state) ≠ some isFiring)
      | none =>
        match d.dueLine h with
        | none => e = d
        | some (f, l) =>
          if d.reached (d.zoneEnc l.zone) (d.fireAdv h (d.zoneEnc l.zone) (d.getAct (F.FIR_HG_HEAD_THROW_THROW n (h % 8))) t) f = false then e = d
          else
            64 ∈ e.reps.map (fun r => r.src) ∧ e.get F.RAS_IRQ_STAT_LATE = 1 ∧ e.get F.RAS_ERR_VALID = 1 ∧
            e.get (F.RAS_HG_STAT_LATE n) = min 65535 (d.get (F.RAS_HG_STAT_LATE n) + 1) ∧
            (MramGood d → ∀ i, d.findItem l.item = some i → i.live = true → i.stuck = false → l.item ≠ 0 →
              (e.findItem l.item).map (fun j => (j.state, j.reason)) = some (if i.entered then isInterrupted else isNotPrinted, 0x09))) ∧
  (∀ (s : State) (h : Fin 64), Ends (.headTempStale h) s fun e =>
    let d := s.dev
    let x := d.head h
    let lane := ((d.headLanes h).head?).getD 0
    let t0 := if x.tempSeen then some x.tempT else if d.laneUp lane then some (nth d.fir.lanes lane {}).upC else none
    if d.headOk h = false ∨ d.decides = false ∨ t0 = none then e = d
    else
      Frame d e [R.SLU_HEAD_STAT h, R.SLU_HG_STAT (h / 8), R.SLU_IRQ_STAT] ∧
      e = { d with c := e.c, regs := e.regs, reps := e.reps, freeCtr := e.freeCtr } ∧
      e.c = max d.c (t0.getD 0 + d.get (F.SLU_HG_THERM_STALE (h / 8)) * 1000000) % 2 ^ 64 ∧
      e.get (F.SLU_HEAD_STAT_STALE h) = 1 ∧ e.get (F.SLU_HEAD_STAT_LEVEL h) = max 2 (d.get (F.SLU_HEAD_STAT_LEVEL h)) ∧
      e.get F.SLU_IRQ_STAT_STALE = 1 ∧ (Reports d e [124] ∨ Reports d e [122, 124])) ∧
  (∀ s : State, Ends .speedReqUpdate s fun e =>
    let d := s.dev
    if d.running = false then e = d
    else
      Frame d e [R.SLU_SPD_STAT] ∧ e = { d with regs := e.regs, fir := { d.fir with slewT := e.fir.slewT, floorSince := e.fir.floorSince } } ∧
      if d.get F.SLU_SPD_CFG_ENABLE = 0 then
        e.get F.SLU_SPD_STAT_DUTY = d.get F.SLU_SPD_DUTY_FULL ∧ e.get F.SLU_SPD_STAT_CAUSE = 0 ∧ e.fir = d.fir
      else
        let least := (d.speedFactors.map fun x => x.1).foldl min 4096
        let fl := d.get F.SLU_SPD_FLOOR_FLOOR
        let target := fl + (d.get F.SLU_SPD_DUTY_FULL - fl) * least / 4096
        let cur := d.get F.SLU_SPD_STAT_DUTY
        let duty := if target ≤ cur then target else min target (cur + d.get F.SLU_SPD_CFG_SLEW * (d.c - d.fir.slewT) / 1000000)
        e.get F.SLU_SPD_STAT_DUTY = duty % 2 ^ 13 ∧ (least = 4096 → e.get F.SLU_SPD_STAT_CAUSE = 0) ∧
        (e.fir.floorSince = if duty = fl then some (d.fir.floorSince.getD d.c) else none)) ∧
  (∀ s : State, Ends .speedFloorTimeout s fun e =>
    let d := s.dev
    match d.fir.floorSince with
    | none => e = d
    | some t0 => e = { d with c := e.c, reps := e.reps, freeCtr := e.freeCtr } ∧ e.c = max d.c (t0 + 1000000001) % 2 ^ 64 ∧ Reports d e [127]) ∧
  (∀ (s : State) (z : Fin 16), Ends (.marginRecompute z) s fun e =>
    let d := s.dev
    let l := d.zoneLive z
    let m := min 16777215 ((untilAccepted l).foldl (fun x i => x + d.linesLeft i) 0)
    let low := m < d.get (F.SLU_ZONE_CFG_THRESH z)
    (∀ a, e.ldB a = d.ldB a) ∧ e.itk.items = d.itk.items ∧
    if l.any (fun i => i.state == isAccepted) = false then
      e.get (F.SLU_ZONE_MARGIN_FULL z) = 1 ∧ e.get (F.SLU_ZONE_MARGIN_LINES z) = 0 ∧ Frame d e [R.SLU_ZONE_MARGIN z] ∧ e = { d with regs := e.regs }
    else
      e.get (F.SLU_ZONE_MARGIN_FULL z) = 0 ∧ e.get (F.SLU_ZONE_MARGIN_LINES z) = m ∧
      (if low ∧ z.val ∉ d.fir.lowMargin then
          e.get F.SLU_IRQ_STAT_MARGIN = 1 ∧ Reports d e [123] ∧ z.val ∈ e.fir.lowMargin ∧
          e.get (F.SLU_ZONE_LATECNT_LOW z) = min 65535 (d.get (F.SLU_ZONE_LATECNT_LOW z) + 1)
        else e.reps = d.reps ∧ Frame d e [R.SLU_ZONE_MARGIN z]) ∧
      (¬ low → d.get (F.SLU_ZONE_CFG_THRESH z) ≠ 0 → z.val ∉ e.fir.lowMargin))

/-- R256, R257, R264 to R266, R270, R302, R303, R382. -/
def Obligations.EventsFormed : Prop :=
  ∀ (s : State) (h : Fin 64) (err : Option (Option Nat)), Ends (.sluiceEvent h err) s fun e =>
    let d := s.dev
    let n := h.val / 8
    let held := d.twn.peer.any fun x => x.1 == h.val && x.2.1 == (d.head h).formed + 1
    let leads := d.role = roleSolo ∨ d.role = roleActive
    let forms := leads ∨ (d.role = roleStandby ∨ d.role = roleSyncing) ∧ held = true ∧ n ∈ d.twn.cut
    (¬ forms → e = d) ∧
    (forms → d.twn.inputs = [] →
      if d.running = false ∨ d.getAct (F.FIR_HG_CFG_HIWM n) ≤ (d.head h).pan.length ∨ 64 ≤ (d.head h).pan.length then e = d
      else match d.formEvent h with
        | none => e = d
        | some (f, ls, rest) =>
          let fresh := (itemsOf ls).filter fun id => d.newOn n id
          let first := fresh.find? fun id => (d.findItem id).any fun i => i.state == isScheduled
          let reason := if d.stop then some 7 else if d.hgHeld n then some 2 else if d.hgHot n then some 3 else none
          match first, (if leads then reason else none) with
          | some id, some r =>
            (e.head h).pan = (d.head h).pan ∧ (e.head h).formed = (d.head h).formed ∧ (∀ k, k < 64 → ∀ l ∈ (e.head k).queue, l.item ≠ id) ∧
            (r = 3 → e.get (F.SLU_HG_HARDCNT_COUNT n) = min (2 ^ 32 - 1) (d.get (F.SLU_HG_HARDCNT_COUNT n) + 1) ∧ e.get F.SLU_IRQ_STAT_HARD = 1) ∧
            (MramGood d → match d.findItem id with
              | some i => i.live = true → i.stuck = false → (e.findItem id).map (fun j => (j.state, j.reason)) = some (isNotPrinted, r)
              | none => False)
          | _, _ =>
            h.val < d.fir.heads.length →
              (e.head h).formed = (d.head h).formed + 1 ∧ (e.head h).pan.dropLast = (d.head h).pan ∧
              (fresh ≠ [] → d.get (F.FIR_HG_STAT_ARMED n) = 1 → e.get (F.FIR_HG_STAT_ARMED n) = 0 ∧ e.get F.FIR_IRQ_STAT_HANDOVER = 1 ∧
                e.get (F.FIR_HG_ACTIVE_SEQ_SEQ n) = (d.get (F.FIR_HG_ACTIVE_SEQ_SEQ n) + 1) % 2 ^ 32) ∧
              match (e.head h).pan.getLast? with
              | none => False
              | some v =>
                v.seq = (d.head h).formed + 1 ∧ v.left = none ∧ (∀ x ∈ v.sel, x.2 ≠ 0 ∧ (v.lines.any fun l => l.sels.any fun y => y.1 == x.1) = true) ∧
                (fresh = [] ∨ d.get (F.FIR_HG_STAT_ARMED n) = 0 → v.f = f ∧ v.lines = ls ∧ (e.head h).queue = rest) ∧
                (err = none → ∀ l ∈ v.lines, (d.findItem l.item).map (fun i => i.state) = some isScheduled →
                  (e.findItem l.item).map (fun i => i.state) = some isFiring))

/-- R263, R265, R276 to R285, R289: what leaves on a head lane. -/
def Obligations.FramesAndFireBlocks : Prop :=
  (∀ (s : State) (l : Fin 24) (t : Nat) (ecc : Bool), Ends (.frameStart l t ecc) s fun e =>
    let d := s.dev.posAt t
    let first := (d.cands l t).find? fun c => (d.cands l t).all fun x => !(x.before c)
    if d.laneUp l = false ∨ d.running = false ∨ d.cands l t = [] then e = d
    else match first with
      | none => False
      | some c =>
        match (d.head c.h).pan[c.k]? with
        | none => e = d
        | some v =>
          let stop := (d.laneSpan c.h l).2
          let nblk := min 42 (ceilDiv (stop - c.off) 16)
          let next := min stop (c.off + 16 * nblk)
          let sample (i : Nat) : Nat :=
            if c.off + i < stop ∧ v.noDrop = false ∧ ecc = false then ((v.sel.find? fun q => q.1 == c.off + i).map fun q => q.2).getD 0 else 0
          e.c = d.c ∧ (e.lane l).fseq = ((d.lane l).fseq + 1) % 256 ∧
          (match e.out.head? with
            | some (.hlk l2 ty b) =>
              l2 = l.val ∧ ty = 0x78 ∧ b.length = nblk + 2 ∧ e.out.tail = d.out ∧
              nth b 0 0 = c.h % 8 + v.seq % 256 * 2 ^ 3 + c.off * 2 ^ 11 + nblk * 2 ^ 26 + (if next = stop then 2 ^ 32 else 0) ∧
              ((∀ q ∈ v.sel, q.2 < 16) → ∀ i, i < 16 * nblk → nth b (1 + i / 16) 0 / 2 ^ (4 * (i % 16)) % 16 = sample i) ∧
              nth b (nblk + 1) 0 / 2 ^ 32 = (d.lane l).fseq
            | _ => False) ∧
          (ecc = false → e.regs = d.regs ∧ e.mem = d.mem ∧ e.itk = d.itk ∧ e.reps = d.reps ∧
            (e.head c.h).pan[c.k]? = some
              (if c.again then { v with again := v.again.erase (l.val, c.off) } else { v with sent := (v.sent.filter fun x => x.1 != l.val) ++ [(l.val, next)] })) ∧
          (ecc = true → 96 ∈ e.reps.map (fun r => r.src) ∧ e.get F.FIR_IRQ_STAT_PANECC = 1 ∧
            ((e.head c.h).pan[c.k]?).map (fun x => x.noDrop) = some true)) ∧
  (∀ (s : State) (h : Fin 64) (slot : Nat), Ends (.fireBlockSend h slot) s fun e =>
    let d := s.dev.atTime (slot / 1000)
    match (d.head h).pan with
    | [] => e = d
    | v :: rest =>
      match v.left, (d.headLanes h).head? with
      | some tc, some l =>
        let n := h.val / 8
        let lat := nth [0, 104, 83, 66, 56, 46, 0] (d.laneRate l) 0 * 1000
        let late := tc + lat < slot
        let dly := if late then 0 else ((tc + lat - slot) * 64 + 500) / 1000
        let whole := (d.headLanes h).all fun x => (v.sent.find? fun y => y.1 == x).any fun y => y.2 == (d.laneSpan h x).2
        (e.head h).pan = rest ∧ (e.head h).sent = (d.head h).sent + 1 ∧ (e.head h).awaiting = (d.head h).awaiting ++ [(v.seq, tc, v.lines)] ∧
        (e.out = if d.role ≤ roleStandby ∨ v.seq < nth d.twn.tko h 0 then
            .hlk l 0x66 [h.val % 8 + (if whole = false ∨ v.noDrop = true then 8 else 0) + dly * 2 ^ 4 + v.seq % 256 * 2 ^ 17] :: d.out else d.out) ∧
        Frame d e [R.FIR_HG_SQUEEZE n, R.FIR_IRQ_STAT, R.FIR_HG_STAT n] ∧
        e = { d with regs := e.regs, fir := { d.fir with heads := e.fir.heads }, out := e.out, reps := e.reps, freeCtr := e.freeCtr } ∧
        (if late then e.get F.FIR_IRQ_STAT_SQUEEZE = 1 ∧ Reports d e [97] ∧
            (e.rd (R.FIR_HG_SQUEEZE n)).toNat = min (2 ^ 32 - 1) ((d.rd (R.FIR_HG_SQUEEZE n)).toNat + 1)
          else e.rd (R.FIR_HG_SQUEEZE n) = d.rd (R.FIR_HG_SQUEEZE n) ∧ e.rd R.FIR_IRQ_STAT = d.rd R.FIR_IRQ_STAT ∧ e.reps = d.reps)
      | _, _ => e = d) ∧
  (∀ (s : State) (l : Fin 24), Ends (.idleBlock l) s fun e =>
    let d := s.dev
    let safe := d.running = false ∨ d.role = roleFenced
    let word := (if safe then 1 else 0) + 2 * d.get F.HLK_EPOCH_ACT + 4 * d.get F.HLK_EPOCH_EPOCH + l.val / 3 * 2 ^ 18 + l.val % 3 * 2 ^ 21
    e = if d.get (F.HLK_LANE_STAT_STATE l) = 0 then d else { d with out := .hlk l 0x1E [word] :: d.out }) ∧
  (∀ (s : State) (l : Fin 24), Ends (.helloTimer l) s fun e =>
    let d := s.dev
    let heads := (((d.hgHeads (l / 3)).filter fun h => (d.headLanes h).contains l.val).map fun h => h % 8)
    if d.get (F.HLK_LANE_STAT_STATE l) = 1 ∧ (d.lane l).step = 2 then
      match e.out with
      | .hlk l2 ty [w] :: r => r = d.out ∧ l2 = l.val ∧ ty = 0x33 ∧ w % 2 ^ 4 = 1 ∧ w / 2 ^ 4 % 2 ^ 3 = l.val / 3 ∧ w / 2 ^ 7 % 2 ^ 2 = l.val % 3 ∧
          w / 2 ^ 9 % 2 ^ 3 = d.laneRate l ∧ (∀ j, j < 8 → (w / 2 ^ (12 + j) % 2 = 1 ↔ j ∈ heads)) ∧ e = { d with out := e.out }
      | _ => False
    else e = d) ∧
  (∀ (s : State) (l : Fin 24) (t : Nat), Ends (.echoTimer l t) s fun e =>
    let d := s.dev
    let x := d.lane l
    if d.get (F.HLK_LANE_STAT_STATE l) = 1 ∧ x.step = 3 ∧ x.echoes.length < 16 then
      e.c = max d.c (t / 1000) % 2 ^ 64 ∧ e.out = .hlk l 0x4B [x.echoes.length] :: d.out ∧
      e.lane l = { x with echoes := x.echoes ++ [(x.echoes.length, t)] } ∧
      e = { d with c := e.c, fir := { d.fir with lanes := e.fir.lanes }, out := e.out } ∧ (∀ k, k ≠ l.val → e.lane k = d.lane k)
    else e = d)

/-- R275, R281, R284 to R287, R289, R291, R306, R307: what comes upstream on a head lane. -/
def Obligations.UpstreamBlocks : Prop :=
  (∀ (s : State) (l : Fin 24) (good : Bool) (st : Fin 16) (sel stale : Bool) (ep : Fin 65536), Ends (.idleUp l good st sel stale ep) s fun e =>
    let d := s.dev
    let x := (ep.val + 65536 - d.get F.HLK_EPOCH_EPOCH) % 65536
    let later := x ≠ 0 ∧ x < 32768
    if good = false then UpstreamBad d e l
    else
      (e.rd (R.HLK_LANE_PEER l)).toNat = st.val + (if sel then 16 else 0) + (if stale then 32 else 0) + ep.val * 2 ^ 16 ∧
      (later → e.get F.HLK_IRQ_STAT_EPOCH = 1) ∧ (∀ a, e.ldB a = d.ldB a) ∧ e.fir = d.fir ∧
      (¬ later → e = { d with regs := e.regs } ∧ Frame d e [R.HLK_LANE_PEER l]) ∧
      (d.get F.TWN_CFG_PAIR ≠ 1 → e = { d with regs := e.regs } ∧ Frame d e [R.HLK_LANE_PEER l, R.HLK_IRQ_STAT])) ∧
  (∀ (s : State) (l : Fin 24) (good : Bool) (j : Fin 8) (seq : Fin 256) (st : Fin 4), Ends (.firedUp l good j seq st) s fun e =>
    let d := s.dev
    let n := l.val / 3
    let h := 8 * n + j.val
    if good = false then UpstreamBad d e l
    else match (d.head h).awaiting.find? fun a => a.1 % 256 == seq.val with
      | none => e = d
      | some a =>
        (e.head h).awaiting = (d.head h).awaiting.filter (fun b => b.1 ≠ a.1) ∧
        (st = 0 → Frame d e [R.HLK_HEAD_FIRED h] ∧ e.get (F.HLK_HEAD_FIRED_EVSEQ h) = seq) ∧
        (st = 0 ∨ st = 3 ∨ d.hgReady n = false → e = { d with regs := e.regs, fir := { d.fir with heads := e.fir.heads } } ∧ (st ≠ 0 → e.regs = d.regs)) ∧
        ((st = 1 ∨ st = 2) ∧ d.hgReady n = true →
          e.get (F.HLK_HEAD_FIRED_MISS h) = min 65535 (d.get (F.HLK_HEAD_FIRED_MISS h) + 1) ∧ e.get F.HLK_IRQ_STAT_DATA = 1 ∧
          105 + 2 * n ∈ e.reps.map (fun r => r.src) ∧ e.get (F.RAS_HG_STAT_LATE n) = min 65535 (d.get (F.RAS_HG_STAT_LATE n) + 1))) ∧
  (∀ (s : State) (h : Fin 64), Ends (.firedUpTimeout h) s fun e =>
    let d := s.dev
    let n := h.val / 8
    match (d.head h).awaiting with
    | [] => e = d
    | a :: r =>
      e.c = max d.c (a.2.1 / 1000 + 2000) % 2 ^ 64 ∧ (e.head h).awaiting = r ∧
      if d.hgReady n = true then
        e.get (F.HLK_HEAD_FIRED_MISS h) = min 65535 (d.get (F.HLK_HEAD_FIRED_MISS h) + 1) ∧ e.get F.HLK_IRQ_STAT_DATA = 1 ∧
        105 + 2 * n ∈ e.reps.map (fun r => r.src)
      else e = { d with c := e.c, fir := { d.fir with heads := e.fir.heads } }) ∧
  (∀ (s : State) (l : Fin 24) (good : Bool) (j : Fin 8) (temp : Int) (vsup flags : Nat), Ends (.tempUp l good j temp vsup flags) s fun e =>
    let d := s.dev
    let h := 8 * (l.val / 3) + j.val
    let T := sx 16 (ux 16 temp)
    let old := d.get (F.SLU_HEAD_STAT_LEVEL h)
    let lv := levelOf (d.thresholds (h / 8)) (d.get (F.SLU_HG_THERM_THYST (h / 8))) old T
    if good = false then UpstreamBad d e l
    else
      e.head h = { d.head h with tempSeen := true, tempEver := true, tempT := d.c, vsup := vsup % 65536 + flags % 32 * 65536 } ∧
      (d.decides = false → e = { d with fir := { d.fir with heads := e.fir.heads } }) ∧
      (d.decides = true →
        Frame d e [R.HLK_HEAD_TEMP h, R.SLU_HEAD_STAT h, R.SLU_HG_STAT (h / 8), R.SLU_IRQ_STAT] ∧ e.itk = d.itk ∧
        e.get (F.HLK_HEAD_TEMP_TEMP h) = ux 16 temp ∧ e.get (F.SLU_HEAD_STAT_STALE h) = 0 ∧ e.get (F.SLU_HEAD_STAT_LEVEL h) = lv ∧
        (old < lv → e.get F.SLU_IRQ_STAT_LEVEL = 1) ∧ (old = 0 → 0 < lv → 121 ∈ e.reps.map (fun r => r.src)) ∧
        (lv ≤ old → lv < 4 → (d.hgHeads (h / 8)).all (fun x => x = h || d.get (F.SLU_HEAD_STAT_LEVEL x) != 4) = true → e.reps = d.reps))) ∧
  (∀ (s : State) (l : Fin 24) (good : Bool) (j : Fin 8) (seq : Fin 256) (off : Nat), Ends (.nakUp l good j seq off) s fun e =>
    let d := s.dev
    let h := 8 * (l.val / 3) + j.val
    if good = false then UpstreamBad d e l
    else
      Frame d e [R.HLK_LANE_ERR l, R.HLK_IRQ_STAT] ∧ e = { d with regs := e.regs, fir := { d.fir with heads := e.fir.heads, lanes := e.fir.lanes } } ∧
      e.get (F.HLK_LANE_ERR_NAK l) = min 65535 (d.get (F.HLK_LANE_ERR_NAK l) + 1) ∧ (∀ k, k ≠ h → e.head k = d.head k) ∧
      (e.head h).pan = (d.head h).pan.map fun v => if v.seq % 256 = seq.val then { v with again := v.again ++ [(l.val, off)] } else v) ∧
  (∀ (s : State) (l : Fin 24) (good : Bool) (j : Fin 8) (code arg : Nat), Ends (.faultUp l good j code arg) s fun e =>
    let d := s.dev
    if good = false then UpstreamBad d e l
    else if code < 256 ∧ arg < 65536 then
      Frame d e [R.HLK_IRQ_STAT] ∧ e = { d with regs := e.regs } ∧ (e.rd R.HLK_IRQ_STAT).toNat = setBits (d.rd R.HLK_IRQ_STAT).toNat 6 1 1
    else e = d) ∧
  (∀ (s : State) (l : Fin 24) (good : Bool) (j : Fin 8) (opc st tag arg : Nat), Ends (.cmdackUp l good j opc st tag arg) s fun e =>
    let d := s.dev
    let h := 8 * (l.val / 3) + j.val
    let left := d.fir.cmdWait.filter (fun x => x ≠ h)
    if good = false then UpstreamBad d e l
    else if d.get F.HLK_CMDSTAT_STATE ≠ 1 ∨ tag ≠ d.fir.cmdTag ∨ opc ≠ d.get F.HLK_CMD_OPC ∨ h ∉ d.fir.cmdWait then e = d
    else
      Frame d e [R.HLK_CMDSTAT, R.HLK_IRQ_STAT] ∧ e = { d with regs := e.regs, fir := { d.fir with cmdWait := left } } ∧
      (e.get F.HLK_CMDSTAT_STATUS = if d.get F.HLK_CMDSTAT_STATUS = 0 then st % 2 ^ 8 else d.get F.HLK_CMDSTAT_STATUS) ∧
      (e.get F.HLK_CMDSTAT_ARG = if d.get F.HLK_CMDSTAT_STATUS = 0 then arg % 2 ^ 16 else d.get F.HLK_CMDSTAT_ARG) ∧
      (e.get F.HLK_CMDSTAT_STATE = if left = [] then 2 else 1) ∧ (left = [] → e.get F.HLK_IRQ_STAT_CMD = 1)) ∧
  (∀ s : State, Ends .hlkCmdTimeout s fun e =>
    let d := s.dev
    if d.get F.HLK_CMDSTAT_STATE = 1 then
      e.c = max d.c (d.fir.cmdT + 1000000) % 2 ^ 64 ∧ Frame d e [R.HLK_CMDSTAT, R.HLK_IRQ_STAT] ∧ e.get F.HLK_CMDSTAT_STATE = 2 ∧
      e.get F.HLK_CMDSTAT_STATUS = sTimeout ∧ e.get F.HLK_IRQ_STAT_CMD = 1 ∧ e = { d with c := e.c, regs := e.regs, fir := { d.fir with cmdWait := [] } }
    else e = d) ∧
  (∀ (s : State) (l : Fin 24) (good : Bool) (ver : Fin 16) (heads bufev fixns turnns : Nat), Ends (.helloUp l good ver heads bufev fixns turnns) s fun e =>
    let d := s.dev
    let placed := ((d.hgHeads (l / 3)).filter fun h => (d.headLanes h).contains l.val).map fun h => h % 8
    if good = false then UpstreamBad d e l
    else if d.get (F.HLK_LANE_STAT_STATE l) ≠ 1 ∨ (d.lane l).step ≠ 2 then e = d
    else if ver.val ≠ 1 then
      e.get (F.HLK_LANE_STAT_LASTFAIL l) = 4 ∧ (e.get (F.HLK_LANE_STAT_STATE l) = 2 ∨ e.get (F.HLK_LANE_STAT_STATE l) = 4)
    else
      e.get (F.HLK_LANE_STAT_BUFEV l) = bufev % 2 ^ 8 ∧ e.get (F.HLK_LANE_STAT_HEADS l) = heads % 2 ^ 8 ∧
      e.get (F.HLK_LANE_DELAY_FIXNS l) = fixns % 2 ^ 12 ∧ e.get (F.HLK_LANE_DELAY_TURNNS l) = turnns % 2 ^ 9 ∧ (∀ a, e.ldB a = d.ldB a) ∧
      if placed.all (fun j => heads / 2 ^ j % 2 == 1) then
        (e.lane l).step = 3 ∧ Frame d e [R.HLK_LANE_STAT l, R.HLK_LANE_DELAY l] ∧ e = { d with regs := e.regs, fir := { d.fir with lanes := e.fir.lanes } }
      else
        LaneNow e l 5 ∧ e.get (F.HLK_LANE_STAT_LASTFAIL l) = 5 ∧ e.get F.HLK_IRQ_STAT_MISMATCH = 1 ∧ Reports d e [104 + 2 * (l.val / 3)] ∧
        Frame d e (R.HLK_LANE_DELAY l :: laneRegs l)) ∧
  (∀ (s : State) (l : Fin 24) (good : Bool) (tag t : Nat), Ends (.echoUp l good tag t) s fun e =>
    let d := s.dev
    let x := d.lane l
    if good = false then UpstreamBad d e l
    else match x.echoes.find? fun y => y.1 == tag with
      | none => e = d
      | some y =>
        if x.step ≠ 3 then e = d
        else
          e.c = max d.c (t / 1000) % 2 ^ 64 ∧ e = { d with c := e.c, fir := { d.fir with lanes := e.fir.lanes } } ∧
          e.lane l = { x with echoUps := x.echoUps + 1, trip := some (match x.trip with | some m => min m (t - y.2) | none => t - y.2) })

/-- R282, R289, R290, R295 to R299: the bring-up of a head lane, and the serial lane macro. -/
def Obligations.LaneBringUp : Prop :=
  (∀ (s : State) (l : Fin 24), Ends (.laneSeriesStart l) s fun e =>
    let d := s.dev
    if (d.get (F.HLK_LANE_STAT_STATE l) = 0 ∨ d.get (F.HLK_LANE_STAT_STATE l) = 4) ∧ d.configDone = true ∧ l.val ∈ d.hgLanes (l / 3) then
      LaneNow e l 1 ∧ e.get (F.HLK_LANE_STAT_ATTEMPT l) = 1 ∧ (e.lane l).step = 1 ∧ (e.lane l).echoes = [] ∧ (e.lane l).trip = none ∧
      Frame d e (laneRegs l) ∧ e.reps = d.reps
    else e = d) ∧
  (∀ (s : State) (l : Fin 24), Ends (.laneLock l) s fun e =>
    let d := s.dev
    if d.get (F.HLK_LANE_STAT_STATE l) = 1 ∧ (d.lane l).step = 1 then
      e.lane l = { d.lane l with step := 2 } ∧ Frame d e [R.SRD_LANE_STAT l] ∧ e = { d with regs := e.regs, fir := { d.fir with lanes := e.fir.lanes } } ∧
      e.get (F.SRD_LANE_STAT_LOS l) = 0 ∧ e.get (F.SRD_LANE_STAT_CDRLOCK l) = 1 ∧ e.get (F.SRD_LANE_STAT_ADAPTED l) = 1
    else e = d) ∧
  (∀ (s : State) (l : Fin 24), Ends (.echoWindowEnd l) s fun e =>
    let d := s.dev
    let x := d.lane l
    let flight := e.get (F.HLK_LANE_DELAY_FLIGHT l)
    let mine := (d.hgHeads (l / 3)).filter fun h => (d.headLanes h).head? == some l.val
    if d.get (F.HLK_LANE_STAT_STATE l) ≠ 1 ∨ x.step ≠ 3 ∨ x.echoes.length < 16 then e = d
    else
      LaneNow e l 3 ∧ (e.lane l).step = 4 ∧ e.out = .hlk l 0x55 [] :: d.out ∧ (∀ a, e.ldB a = d.ldB a) ∧
      (match x.trip with
        | none => True
        | some m =>
          let far := ceilDiv (m - d.get (F.HLK_LANE_DELAY_TURNNS l) * 1000) 2000
          flight = far % 2 ^ 11 ∧ ∀ h ∈ mine, e.get (F.HLK_HEAD_DELAY_LINKDELAY h) =
            (nth [0, 104, 83, 66, 56, 46, 0] (d.laneRate l) 0 + far + d.get (F.HLK_LANE_DELAY_FIXNS l)) % 2 ^ 16) ∧
      (∀ h ∈ mine, e.get (F.SLU_HEAD_STAT_STALE h) = 1 ∧ e.get (F.SLU_HEAD_STAT_LEVEL h) = max 2 (d.get (F.SLU_HEAD_STAT_LEVEL h)) ∧
        (e.head h).tempSeen = false)) ∧
  (∀ (s : State) (l : Fin 24) (why : Fin 3), Ends (.laneAbort l why) s fun e =>
    let d := s.dev
    if d.get (F.HLK_LANE_STAT_STATE l) ≠ 1 then e = d
    else
      e.get (F.HLK_LANE_STAT_LASTFAIL l) = why.val + 1 ∧ (e.lane l).step = 0 ∧ Frame d e (laneRegs l) ∧
      if d.get (F.HLK_HG_CFG_ATTEMPTS (l / 3)) ≤ d.get (F.HLK_LANE_STAT_ATTEMPT l) then
        LaneNow e l 4 ∧ e.get F.HLK_IRQ_STAT_ABSENT = 1 ∧ Reports d e [104 + 2 * (l.val / 3)]
      else LaneNow e l 2 ∧ e.reps = d.reps ∧ (e.lane l).startC = d.c) ∧
  (∀ (s : State) (l : Fin 24), Ends (.laneBackoffEnd l) s fun e =>
    let d := s.dev
    if d.get (F.HLK_LANE_STAT_STATE l) ≠ 2 then e = d
    else
      e.c = max d.c ((d.lane l).startC + 10000000) % 2 ^ 64 ∧ LaneNow e l 1 ∧ Frame d e (laneRegs l) ∧ e.reps = d.reps ∧
      e.get (F.HLK_LANE_STAT_ATTEMPT l) = (d.get (F.HLK_LANE_STAT_ATTEMPT l) + 1) % 2 ^ 8 ∧ (e.lane l).step = 1) ∧
  (∀ (s : State) (l : Fin 24), Ends (.laneDown l) s fun e =>
    let d := s.dev
    if d.laneUp l = false then e = d
    else
      LaneNow e l 1 ∧ e.get (F.HLK_LANE_STAT_ATTEMPT l) = 1 ∧ (e.lane l).step = 1 ∧ Frame d e (laneRegs l) ∧ e.reps = d.reps ∧
      ∀ h, h ∈ d.hgHeads (l / 3) → l.val ∈ d.headLanes h → (e.head h).awaiting = []) ∧
  (∀ (s : State) (l : Fin 42), Ends (.lanePllLoss l) s fun e =>
    let d := s.dev
    e.get (F.SRD_LANE_STAT_PLLLOCK l) = 0 ∧ e.get (F.SRD_LANE_STAT_LOS l) = 1 ∧ e.get F.SRD_IRQ_STAT_PLL = 1 ∧ Reports d e [180] ∧
    if l.val < 24 ∧ d.laneUp l = true then LaneNow e l 1 ∧ Frame d e ([R.SRD_LANE_STAT l, R.SRD_IRQ_STAT] ++ laneRegs l)
    else Frame d e [R.SRD_LANE_STAT l, R.SRD_IRQ_STAT] ∧ e = { d with regs := e.regs, reps := e.reps, freeCtr := e.freeCtr }) ∧
  (∀ (s : State) (l : Fin 42), Ends (.dfeTapLimit l) s fun e =>
    let d := s.dev
    Frame d e [R.SRD_IRQ_STAT] ∧ e.get F.SRD_IRQ_STAT_ADAPT = 1 ∧ Reports d e [181] ∧
    e = { d with regs := e.regs, reps := e.reps, freeCtr := e.freeCtr }) ∧
  (∀ (s : State) (l : Fin 42) (errs : Nat), Ends (.prbsError l errs) s fun e =>
    let d := s.dev
    if d.get (F.SRD_LANE_CTL_PRBS l) ≠ 0 ∧ errs ≠ 0 then
      Frame d e [R.SRD_LANE_PRBSERR l, R.SRD_IRQ_STAT] ∧ e = { d with regs := e.regs } ∧ e.get F.SRD_IRQ_STAT_PRBS = 1 ∧
      (e.rd (R.SRD_LANE_PRBSERR l)).toNat = min (2 ^ 32 - 1) ((d.rd (R.SRD_LANE_PRBSERR l)).toNat + errs)
    else e = d) ∧
  (∀ (s : State) (l : Fin 42) (los : Bool), Ends (.losChange l los) s fun e =>
    let d := s.dev
    let v := if los then 1 else 0
    if d.get (F.SRD_LANE_STAT_LOS l) = v then e = d
    else Frame d e [R.SRD_LANE_STAT l, R.SRD_IRQ_STAT] ∧ e = { d with regs := e.regs } ∧ e.get (F.SRD_LANE_STAT_LOS l) = v ∧ e.get F.SRD_IRQ_STAT_LOS = 1) ∧
  (∀ (s : State) (l : Fin 42) (eyeh eyev : Nat), Ends (.eyeMonitorRefresh l eyeh eyev) s fun e =>
    let d := s.dev
    Frame d e [R.SRD_LANE_STAT l] ∧ e = { d with regs := e.regs } ∧
    e.get (F.SRD_LANE_STAT_EYEH l) = min 255 eyeh ∧ e.get (F.SRD_LANE_STAT_EYEV l) = min 255 eyev) ∧
  (∀ (s : State) (l : Fin 42), Ends (.lanePowerUpComplete l) s fun e =>
    let d := s.dev
    let sig := if d.get (F.SRD_LANE_STAT_LOS l) = 0 then 1 else 0
    if d.laneRate l ≠ 0 ∧ d.get (F.SRD_LANE_CTL_PD l) = 0 then
      Frame d e [R.SRD_LANE_STAT l] ∧ e = { d with regs := e.regs } ∧ e.get (F.SRD_LANE_STAT_LOWPWR l) = 0 ∧
      e.get (F.SRD_LANE_STAT_PLLLOCK l) = 1 ∧ e.get (F.SRD_LANE_STAT_CDRLOCK l) = sig ∧ e.get (F.SRD_LANE_STAT_ADAPTED l) = sig
    else e = d)

/-- R315 to R318, R327, R329 to R331, R333. -/
def Obligations.CameraSources : Prop :=
  (∀ (s : State) (p : Fin 4) (vc : Fin 16), Ends (.csiFrameStart p vc) s fun e =>
    let d := s.dev
    let xs := d.csiSrcs p vc
    (xs = [] → e = d) ∧ (∀ k, k ∉ xs → e.src k = d.src k) ∧
    ∀ x ∈ xs,
      let flags := if (d.src x).gnew.any (fun g => g.2) then ffTrgskip else 0
      let fresh' : CamFrame := { num := (d.src x).nextFrame, trigs := ((d.src x).gnew.map (fun g => g.1)).getD [], live := (d.src x).gnew.isSome, since := d.c, flags := flags }
      (e.src x).frames.getLast? = some fresh' ∧ (e.src x).nextFrame = ((d.src x).nextFrame + 1) % 2 ^ 32 ∧ (e.src x).gnew = none ∧
      match d.openFrame x with
      | none => (e.src x).frames = [fresh'] ∧ (e.src x).buf = (d.src x).buf
      | some n => e.get (F.CAM_SRC_FRAME_FRAME x) = n % 2 ^ 32 ∧ e.get F.CAM_IRQ_STAT_FRAME = 1 ∧
          (e.src x).frames = ((d.src x).frames.filter fun g => g.num != n) ++ [fresh']) ∧
  (∀ (s : State) (p : Fin 4) (vc : Fin 16), Ends (.csiFrameEnd p vc) s fun e =>
    let d := s.dev
    let xs := d.csiSrcs p vc
    let open' := xs.filter fun x => (d.openFrame x).isSome
    (open' = [] → e = d) ∧ (∀ k, k ∉ open' → e.src k = d.src k) ∧
    (∀ x ∈ open',
      match (d.src x).frames with
      | [] => False
      | f :: _ =>
        let missing := d.srcLines x - f.placed
        e.get (F.CAM_SRC_FRAME_FRAME x) = f.num % 2 ^ 32 ∧ e.get F.CAM_IRQ_STAT_FRAME = 1 ∧
        (e.src x).frames = (d.src x).frames.filter (fun g => g.num != f.num) ∧
        (0 < missing → 129 ∈ e.reps.map (fun r => r.src) ∧ e.get F.CAM_IRQ_STAT_SHAPE = 1) ∧
        (anyBit f.flags ffDropped = false → (d.src x).buf.length + missing ≤ d.srcCap x → (e.src x).buf.length = (d.src x).buf.length + missing ∧
          (e.src x).buf.take (d.src x).buf.length = (d.src x).buf)) ∧
    (open'.length = 1 → d.get F.CAM_FDSIZE_ENTRIES ≠ 0 →
      if d.fdFull then 134 ∈ e.reps.map (fun r => r.src) ∧ e.get F.CAM_FDLOST_COUNT = min (2 ^ 32 - 1) (d.get F.CAM_FDLOST_COUNT + 1)
      else e.get F.CAM_FDWR_COUNT = (d.get F.CAM_FDWR_COUNT + 1) % 2 ^ 32)) ∧
  (∀ (s : State) (x : Fin 16), Ends (.csiFrameTimeout x) s fun e =>
    let d := s.dev
    let tout := d.get (F.CAM_SRC_FILL_TOUT x)
    match (d.src x).frames with
    | [] => e = d
    | f :: _ =>
      if d.srcTile x = true ∨ tout = 0 then e = d
      else
        e.c = max d.c (f.since + tout * 1000000) % 2 ^ 64 ∧ e.get (F.CAM_SRC_FRAME_FRAME x) = f.num % 2 ^ 32 ∧
        e.get F.CAM_IRQ_STAT_FRAME = 1 ∧ e.get F.CAM_IRQ_STAT_SHAPE = 1 ∧ 129 ∈ e.reps.map (fun r => r.src) ∧
        (e.src x).frames = (d.src x).frames.filter (fun g => g.num != f.num) ∧ (∀ k, k ≠ x.val → e.src k = d.src k)) ∧
  (∀ (s : State) (p : Fin 4) (vc : Fin 16) (dt : Fin 64) (pl : List Byte) (ok cor : Bool), Ends (.csiLine p vc dt pl ok cor) s fun e =>
    let d := s.dev
    let hdr := min 65535 (d.get (F.CAM_PORT_STAT_HDRCOR p) + if cor then 1 else 0)
    if d.get (F.CAM_PORT_CFG_ENABLE p) = 0 ∨ d.capturing = false then e = d
    else
      (∀ a, e.ldB a = d.ldB a) ∧ e.itk = d.itk ∧
      match (d.csiSrcs p vc).find? fun x => d.srcDt x == dt.val with
      | none => e.get (F.CAM_PORT_STAT_HDRCOR p) = hdr % 2 ^ 16 ∧ e.cam = d.cam ∧ e.reps = d.reps ∧ Frame d e [R.CAM_PORT_STAT p, R.CAM_PORT_ERR p] ∧
          e.get (F.CAM_PORT_ERR_UNKNOWN p) = min 65535 (d.get (F.CAM_PORT_ERR_UNKNOWN p) + if dt.val = 0x12 then 0 else 1)
      | some x =>
        e.get (F.CAM_PORT_STAT_HDRCOR p) = hdr % 2 ^ 16 ∧ (∀ k, k ≠ x → e.src k = d.src k) ∧
        match d.openFrame x with
        | none => e.cam = d.cam ∧ Frame d e [R.CAM_PORT_STAT p] ∧ e.reps = d.reps
        | some n =>
          match d.frame? x n, e.frame? x n with
          | some f, some g =>
            let fills := d.srcWidth x * d.srcComps x
            g.recv = f.recv + 1 ∧ g.hdr = (f.hdr + if cor then 1 else 0) ∧
            if d.srcLines x ≤ f.placed then
              g.flags = f.flags ||| ffLong ∧ g.placed = f.placed ∧ (e.src x).buf = (d.src x).buf ∧ e.reps = d.reps
            else
              g.placed = f.placed + 1 ∧ g.crc = (f.crc + if ok then 0 else 1) ∧
              if anyBit f.flags ffDropped = true then (e.src x).buf = (d.src x).buf ∧ e.reps = d.reps
              else if d.srcCap x ≤ (d.src x).buf.length then
                anyBit g.flags ffDropped = true ∧ Reports d e [128] ∧ e.get F.CAM_IRQ_STAT_DROP = 1 ∧
                (e.src x).buf = (d.src x).buf.filter fun y => y.frame != n
              else
                match (e.src x).buf.getLast? with
                | none => False
                | some y =>
                  (e.src x).buf.dropLast = (d.src x).buf ∧ y.frame = n ∧ y.line = f.placed ∧ e.reps = d.reps ∧
                  (anyBit y.flags lfCrc = true ↔ ok = false) ∧ (anyBit y.flags lfFilled = true ↔ ok = false) ∧
                  (anyBit y.flags lfLenfix = true ↔ pl.length ≠ d.csiWords x) ∧ (anyBit y.flags lfLast = true ↔ f.placed + 1 = d.srcLines x) ∧
                  y.px.length = fills ∧ (ok = false → ∀ v ∈ y.px, v = d.srcFill x) ∧
                  (ok = true → dt.val = 0x2A → ∀ k, k < min pl.length fills → nth y.px k 0 = (nth pl k 0).toNat)
          | _, _ => False) ∧
  (∀ (s : State) (p : Fin 4) (dt : Fin 64), Ends (.csiGenericShort p dt) s fun e =>
    let d := s.dev
    if d.get (F.CAM_PORT_CFG_ENABLE p) = 1 ∧ d.capturing = true ∧ 8 ≤ dt.val ∧ dt.val ≤ 15 then
      Frame d e [R.CAM_PORT_ERR p] ∧ e = { d with regs := e.regs } ∧ e.get (F.CAM_PORT_ERR_UNKNOWN p) = min 65535 (d.get (F.CAM_PORT_ERR_UNKNOWN p) + 1)
    else e = d) ∧
  (∀ (s : State) (p : Fin 4), Ends (.csiHeaderError p) s fun e =>
    let d := s.dev
    if d.get (F.CAM_PORT_CFG_ENABLE p) = 1 ∧ d.capturing = true then
      Frame d e [R.CAM_PORT_ERR p, R.CAM_IRQ_STAT] ∧ Reports d e [131] ∧ e.get F.CAM_IRQ_STAT_LINK = 1 ∧
      e.get (F.CAM_PORT_ERR_HDRERR p) = min 65535 (d.get (F.CAM_PORT_ERR_HDRERR p) + 1) ∧
      e = { d with regs := e.regs, reps := e.reps, freeCtr := e.freeCtr }
    else e = d) ∧
  (∀ (s : State) (p : Fin 4), Ends (.deskew p) s fun e =>
    let d := s.dev
    if d.get (F.CAM_PORT_CFG_ENABLE p) = 1 ∧ d.configDone = true then
      Frame d e [R.CAM_PORT_STAT p] ∧ e = { d with regs := e.regs } ∧ e.get (F.CAM_PORT_STAT_DESKEWED p) = 1
    else e = d)

/-- R275, R319 to R328, R331. -/
def Obligations.TilesAndTriggers : Prop :=
  (∀ (s : State) (tile : Fin 32) (line : Fin 16777216) (shape lcrc : Bool) (px : List Nat), Ends (.tileLine tile line shape lcrc px) s fun e =>
    let d := s.dev
    let l := d.get (F.CAM_TILE_CFG_LANE tile)
    let x := d.get (F.CAM_TILE_CFG_SRC tile)
    let errs := min 65535 (d.get (F.CAM_TLANE_ERR_LCRC l) + if lcrc then 0 else 1)
    if d.get (F.CAM_TILE_CFG_ENABLE tile) = 0 ∨ d.get (F.CAM_TLANE_STAT_STATE l) ≠ 3 then e = d
    else match (d.src x).tiles.find? fun o => o.trig.num % 2 ^ 24 == line.val with
      | none => Frame d e [R.CAM_TLANE_ERR l] ∧ e = { d with regs := e.regs } ∧ e.get (F.CAM_TLANE_ERR_CTLERR l) = min 65535 (d.get (F.CAM_TLANE_ERR_CTLERR l) + 1)
      | some o =>
        let part := (tile.val, if lcrc then (if shape then 0 else 2) else 1, px)
        let parts := o.parts.filter (fun q => q.1 ≠ tile.val) ++ [part]
        let whole := (d.srcTiles x).all fun t => parts.any fun q => q.1 == t && q.2.1 == 0
        e.get (F.CAM_TLANE_ERR_LCRC l) = errs ∧ (∀ k, k ≠ x → e.src k = d.src k) ∧
        (whole = false → (e.src x).tiles = (d.src x).tiles.map fun z => if z.trig.num = o.trig.num then { o with parts := parts } else z) ∧
        (whole = false → (e.src x).frames = (d.src x).frames ∧ (e.src x).buf = (d.src x).buf ∧ Frame d e [R.CAM_TLANE_ERR l] ∧ e.reps = d.reps) ∧
        (whole = true → (e.src x).tiles = (d.src x).tiles.filter (fun z => z.trig.num ≠ o.trig.num) ∧
          (∀ f, d.frame? x o.frame = some f →
            if d.srcLines x ≤ f.placed + 1 then e.get (F.CAM_SRC_FRAME_FRAME x) = o.frame % 2 ^ 32 ∧ e.get F.CAM_IRQ_STAT_FRAME = 1
            else (e.frame? x o.frame).map (fun g => (g.placed, g.recv)) = some (f.placed + 1, f.recv + 1)))) ∧
  (∀ (s : State) (x : Fin 16), Ends (.tileLineTimeout x) s fun e =>
    let d := s.dev
    match (d.src x).tiles with
    | [] => e = d
    | o :: _ =>
      let st (t : Nat) : Nat := ((o.parts.find? fun q => q.1 == t).map fun q => q.2.1).getD 2
      let bad := (d.srcTiles x).any fun t => st t == 1 || st t == 2
      e.c = max d.c (o.trig.time + d.get (F.CAM_SRC_FILL_TOUT x) * 1000) % 2 ^ 64 ∧
      (e.src x).tiles = (d.src x).tiles.filter (fun z => z.trig.num ≠ o.trig.num) ∧ (∀ k, k ≠ x.val → e.src k = d.src k) ∧
      match d.frame? x o.frame with
      | none => (e.src x).frames = (d.src x).frames
      | some f =>
        if d.srcLines x ≤ f.placed + 1 then e.get (F.CAM_SRC_FRAME_FRAME x) = o.frame % 2 ^ 32 ∧ e.get F.CAM_IRQ_STAT_FRAME = 1
        else (e.frame? x o.frame).map (fun g => (g.placed, g.recv, g.filled)) = some (f.placed + 1, f.recv + 1, f.filled + if bad then 1 else 0)) ∧
  (∀ (s : State) (l : Fin 4) (fail : Fin 4), Ends (.tlaneAttemptStart l fail) s fun e =>
    let d := s.dev
    let st := d.get (F.CAM_TLANE_STAT_STATE l)
    if d.configDone = false ∨ d.laneTiles l = [] ∨ d.get (F.SRD_LANE_CFG_RATE (36 + l.val)) = 0 ∨ (st ≠ 0 ∧ st ≠ 2) then e = d
    else
      Frame d e [R.CAM_TLANE_STAT l, R.CAM_IRQ_STAT] ∧ e = { d with regs := e.regs, cam := { d.cam with acks := e.cam.acks }, out := e.out } ∧
      e.out = .tile l 0x33 [1, l] :: .tile l 0x1E [] :: d.out ∧ nth e.cam.acks l [] = [] ∧ e.get F.CAM_IRQ_STAT_LINK = 1 ∧
      (e.get (F.CAM_TLANE_STAT_STATE l) = if fail.val = 0 then 1 else 2) ∧ (fail.val ≠ 0 → e.get (F.CAM_TLANE_STAT_LASTFAIL l) = fail.val)) ∧
  (∀ (s : State) (l : Fin 4) (good : Bool) (ver : Fin 16) (tiles : Nat), Ends (.thelloUp l good ver tiles) s fun e =>
    let d := s.dev
    let ts := d.laneTiles l
    let ask (t : Nat) : Out := .tile l 0x5A [t, d.get (F.CAM_SRC_CFG_TRG (d.get (F.CAM_TILE_CFG_SRC t))) - 1, d.get (F.CAM_TILE_CFG_FMT t), d.get (F.CAM_TILE_GEOM_NPIXM1 t)]
    if good = false then TileBad d e l
    else if d.get (F.CAM_TLANE_STAT_STATE l) ≠ 1 ∨ nth d.cam.acks l [] ≠ [] then e = d
    else if ver.val ≠ 1 then TileAborts d e l 4
    else if ts.all (fun t => tiles / 2 ^ t % 2 == 1) = false then TileAborts d e l 5
    else e.out = (ts.map ask).reverse ++ d.out ∧ nth e.cam.acks l [] = ts ∧ e = { d with cam := { d.cam with acks := e.cam.acks }, out := e.out }) ∧
  (∀ (s : State) (l : Fin 4) (good : Bool) (tile : Fin 32) (st : Nat), Ends (.tackUp l good tile st) s fun e =>
    let d := s.dev
    let left := (nth d.cam.acks l []).filter (fun t => t ≠ tile.val)
    if good = false then TileBad d e l
    else if d.get (F.CAM_TLANE_STAT_STATE l) ≠ 1 ∨ tile.val ∉ nth d.cam.acks l [] then e = d
    else if st ≠ 0 then TileAborts d e l 6
    else
      nth e.cam.acks l [] = left ∧ e = { d with regs := e.regs, cam := { d.cam with acks := e.cam.acks }, out := e.out } ∧
      if left = [] then e.get (F.CAM_TLANE_STAT_STATE l) = 3 ∧ e.out = .tile l 0x55 [] :: d.out ∧ e.get F.CAM_IRQ_STAT_LINK = 1 ∧
        Frame d e [R.CAM_TLANE_STAT l, R.CAM_IRQ_STAT]
      else e.regs = d.regs ∧ e.out = d.out) ∧
  (∀ (s : State) (l : Fin 4), Ends (.tackTimeout l) s fun e =>
    let d := s.dev
    if d.get (F.CAM_TLANE_STAT_STATE l) = 1 ∧ nth d.cam.acks l [] ≠ [] then TileAborts d e l 6 else e = d) ∧
  (∀ (s : State) (l : Fin 4), Ends (.tlaneDown l) s fun e =>
    let d := s.dev
    if d.get (F.CAM_TLANE_STAT_STATE l) = 3 then
      e.get (F.CAM_TLANE_STAT_STATE l) = 1 ∧ Reports d e [132] ∧ e.get F.CAM_IRQ_STAT_LINK = 1 ∧ Frame d e [R.CAM_TLANE_STAT l, R.CAM_IRQ_STAT] ∧
      e.out = .tile l 0x33 [1, l] :: .tile l 0x1E [] :: d.out
    else e = d) ∧
  (∀ (s : State) (l : Fin 4) (good : Bool) (st : Fin 16) (fixns : Nat), Ends (.tidleUp l good st fixns) s fun e =>
    let d := s.dev
    if good = false then TileBad d e l
    else if d.get (F.CAM_TLANE_STAT_STATE l) = 0 then e = d
    else Frame d e [R.CAM_TLANE_STAT l] ∧ e = { d with regs := e.regs } ∧ e.get (F.CAM_TLANE_STAT_FIXNS l) = fixns % 2 ^ 12) ∧
  (∀ (s : State) (l : Fin 4) (good : Bool) (tile : Fin 32) (code arg : Nat), Ends (.tfaultUp l good tile code arg) s fun e =>
    let d := s.dev
    if good = true ∧ code < 256 ∧ arg < 65536 then e = d else TileBad d e l) ∧
  (∀ (s : State) (k : Fin 4) (t : Nat), Ends (.triggerDue k t) s fun e =>
    let d := s.dev.posAt t
    let g := d.gen' k
    let h := d.pairH (d.get (F.POS_ZONE_CFG_ENC (d.get (F.CAM_TRG_CFG_ZONE k)))) / 2 ^ 16 % 2 ^ 64
    let g2 := e.gen' k
    if d.get (F.CAM_TRG_STAT_RUNNING k) = 0 ∨ d.capturing = false ∨ 2 ^ 63 ≤ (h + 2 ^ 64 - g.next % 2 ^ 64) % 2 ^ 64 then e = d
    else if g.last.any (fun l => t - l < d.getAct (F.CAM_TRG_TIMING_MINPER k) * 10000) = true then
      Frame d e [R.CAM_TRG_STAT k, R.CAM_IRQ_STAT] ∧ Reports d e [133] ∧ e.get F.CAM_IRQ_STAT_TRGSKIP = 1 ∧ e.out = d.out ∧
      e.get (F.CAM_TRG_STAT_SKIPCNT k) = min 65535 (d.get (F.CAM_TRG_STAT_SKIPCNT k) + 1) ∧
      g2.next = (g.next + d.getAct (F.CAM_TRG_PERIOD_PERIOD k)) % 2 ^ 64 ∧ g2.m = g.m + 1 ∧ g2.count = g.count ∧ g2.last = g.last
    else
      let handed := g.count % max 1 (d.getAct (F.CAM_TRG_FRAME_NTRIG k)) = 0 ∧ d.get (F.CAM_TRG_STAT_SHADOW k) = 1
      let last := e.getAct (F.CAM_TRG_FRAME_NTRIG k) ≤ g.inFrame + 1
      g2.next = (g.next + e.getAct (F.CAM_TRG_PERIOD_PERIOD k)) % 2 ^ 64 ∧ g2.m = g.m + 1 ∧ g2.count = g.count + 1 ∧ g2.last = some t ∧
      g2.inFrame = (if last then 0 else g.inFrame + 1) ∧
      e.get (F.CAM_TRG_COUNT_COUNT k) = (d.get (F.CAM_TRG_COUNT_COUNT k) + 1) % 2 ^ 32 ∧
      (last → g.stopping = true → e.get (F.CAM_TRG_STAT_RUNNING k) = 0) ∧
      (handed → e.get (F.CAM_TRG_STAT_SHADOW k) = 0 ∧ e.get (F.CAM_TRG_ACTIVE_SEQ_SEQ k) = (d.get (F.CAM_TRG_ACTIVE_SEQ_SEQ k) + 1) % 2 ^ 32 ∧
        ∀ a ∈ [R.CAM_TRG_TIMING k, R.CAM_TRG_PERIOD k, R.CAM_TRG_STROBE k, R.CAM_TRG_FRAME k], spGet (regReset a) e.act a = d.rd a) ∧
      (¬ handed → e.get (F.CAM_TRG_ACTIVE_SEQ_SEQ k) = d.get (F.CAM_TRG_ACTIVE_SEQ_SEQ k)) ∧
      (∀ j ∈ List.range 4, d.get (F.CAM_TLANE_STAT_STATE j) = 3 → (d.laneTiles j).any (fun x => (d.genSrcs k).contains (d.get (F.CAM_TILE_CFG_SRC x))) = true →
        .tile j 0x69 [k, g.count % 2 ^ 24, e.getAct (F.CAM_TRG_TIMING_EXP k)] ∈ e.out) ∧ e.reps = d.reps ∧ e.itk = d.itk)

/-- R332, R333, R336, R340 to R346, R352. -/
def Obligations.VisionAndInspection : Prop :=
  (∀ (s : State) (err : Fin 3), Ends (.lineGrant err) s fun e =>
    let d := s.dev
    let again := 0 < d.cam.left ∧ (d.src d.cam.ptr).buf ≠ []
    let next := ((List.range 16).map fun k => (d.cam.ptr + 1 + k) % 16).find? fun x => (d.src x).buf != []
    match if again then some d.cam.ptr else next with
    | none => e = d
    | some x =>
      match (d.src x).buf with
      | [] => False
      | l :: rest =>
        e.cam.ptr = x ∧ e.cam.left = (if again then d.cam.left - 1 else d.get (F.CAM_SRC_CFG_WEIGHT x) - 1) ∧
        (∀ k, k ≠ x → e.src k = d.src k) ∧
        (err = 0 → (e.src x).buf = rest ∧ (e.src x).frames = (d.src x).frames ∧ e.get (F.CAM_SRC_LEVEL_LINES x) = rest.length % 2 ^ 16 ∧ e.itk = d.itk ∧
          ((List.range 4).all (fun o => d.get (F.VIS_OUT_CFG_ENABLE o) ≠ 1 || d.get (F.VIS_OUT_CFG_SRC o) ≠ x) = true →
            (∀ a, e.ldB a = d.ldB a) ∧ e.reps = d.reps ∧ e.vis.outs = d.vis.outs ∧ e.ins = d.ins)) ∧
        (err ≠ 0 → (e.src x).buf = rest.filter (fun y => y.frame ≠ l.frame) ∧ (∀ a, e.ldB a = d.ldB a) ∧ e.itk = d.itk ∧
          (∀ f, d.frame? x l.frame = some f → (e.frame? x l.frame).map (fun g => g.flags) = some (f.flags ||| (ffDropped ||| ffEcc)))) ∧
        (err = 1 → 135 ∈ e.reps.map (fun r => r.src)) ∧
        (err = 2 → Reports d e [136] ∧ e.get F.VIS_IRQ_STAT_ECC = 1 ∧ e.vis.eccBad = true)) ∧
  (∀ (s : State) (o : Fin 4), Ends (.archiveBand o) s fun e =>
    let d := s.dev
    match (nth d.vis.outs o {}).bands with
    | [] => e = d
    | w :: rest =>
      let j := d.bandJob o w
      (nth e.vis.outs o {}).bands = rest ∧ (∀ a, e.ldB a = d.ldB a) ∧ e.itk = d.itk ∧
      if d.get F.BRC_OUTSIZE_BYTES ≠ 0 ∧ d.jobOk j = true ∧ d.ras.jobs.length < 4 ∧ (d.running = true ∨ d.st? = stSafe) then
        e.ras.jobs.map (fun y => (y.src, y.width, y.lines, y.depth)) = (d.ras.jobs ++ [j]).map (fun y => (y.src, y.width, y.lines, y.depth)) ∧
        e.rd (R.VIS_OUT_LOST o) = d.rd (R.VIS_OUT_LOST o) ∧ e.reps = d.reps
      else
        e.ras = d.ras ∧ Reports d e [142] ∧ e.get F.VIS_IRQ_STAT_ARCSKIP = 1 ∧
        e.get (F.VIS_OUT_LOST_COUNT o) = min (2 ^ 32 - 1) (d.get (F.VIS_OUT_LOST_COUNT o) + 1) ∧
        e.get (F.VIS_OUT_RD_COUNT o) = (d.get (F.VIS_OUT_RD_COUNT o) + (d.get (F.VIS_OUT_CFG_ARCBHM1 o) + 1)) % 2 ^ 32 ∧
        Frame d e [R.VIS_OUT_LOST o, R.VIS_IRQ_STAT, R.VIS_OUT_RD o]) ∧
  (∀ (s : State) (ecc : Bool), Ends (.expectedFold ecc) s fun e =>
    let d := s.dev
    let d1 := d.onFir fun t => { t with lostRecs := [], recs := t.recs.drop 1 }
    (d.insGen = none → e = d1) ∧ e.fir.lanes = d.fir.lanes ∧ e.nzm = d.nzm ∧ e.cam = d.cam ∧
    e.fir.recs = d.fir.recs.drop 1 ∧ e.fir.lostRecs = [] ∧
    (d.insGen ≠ none → ecc = true → d.fir.recs ≠ [] → 143 ∈ e.reps.map (fun r => r.src) ∧ e.get F.INS_IRQ_STAT_ECC = 1) ∧
    (d.insGen ≠ none → (d.fir.lostRecs.any fun r => r.lines.any fun l => ((d.usedGrps.map d.grpRows).flatten).contains l.row) = true →
      e.get F.INS_IRQ_STAT_VOID = 1)) ∧
  (∀ (s : State) (room : Nat), Ends (.inspectionWindow room) s fun e =>
    let d := s.dev
    match d.insSrc, d.ins.descs with
    | some x, f :: rest =>
      let flagged := anyBit f.flags (ffDropped ||| ffEcc ||| ffTrgskip) || d.vis.eccBad || f.m0.isNone || d.insGen.isNone
      let ex := sx 8 (e.get F.INS_REGSTAT_EX)
      let ey := sx 8 (e.get F.INS_REGSTAT_EY)
      let lim := d.get F.INS_REG_REGLIM
      if (d.src x).buf.any (fun l => l.frame == f.frame) = true then e = d
      else
        e.ins.descs = rest ∧ e.ins.lines = d.ins.lines.filter (fun l => l.frame ≠ f.frame) ∧
        (flagged = true → e.nzm = d.nzm ∧ e.rd R.INS_REGSTAT = d.rd R.INS_REGSTAT ∧ e.ins.dx = d.ins.dx ∧ e.ins.dy = d.ins.dy ∧
          e.get F.INS_IRQ_STAT_VOID = 1 ∧ e.get F.INS_VOIDCNT_COUNT = min (2 ^ 32 - 1) (d.get F.INS_VOIDCNT_COUNT + 1)) ∧
        (f.m0.isSome = true → d.insGen.isSome = true → e.ins.readTo = f.m0.getD 0 + d.srcLines x) ∧
        (flagged = false →
          (e.ins.dx = d.ins.dx ∧ e.ins.dy = d.ins.dy ∧ e.nzm = d.nzm ∧ e.get F.INS_IRQ_STAT_VOID = 1) ∨
          (ex.natAbs ≤ lim ∧ ey.natAbs ≤ lim ∧ e.ins.dx = d.ins.dx + 4 * ex.tdiv 2 ∧ e.ins.dy = d.ins.dy + 4 * ey.tdiv 2))
    | _, _ => e = d)

/-- R355 to R358, R361, R364, R366 to R368, R370. -/
def Obligations.LampChains : Prop :=
  (∀ (s : State) (c : Fin 4) (sts' : List Nat) (ecc : Option (Fin 128)), Ends (.lampFrame c sts' ecc) s fun e =>
    let d := s.dev
    let x := d.lch c
    let y := e.lch c
    let st := d.get (F.LMP_CH_STAT_STATE c)
    let nb := d.get (F.LMP_CH_CFG_NBM1 c) + 1
    let word (b : Nat) : Nat := nth sts' b 0
    let quiet := (List.range nb).all fun b => statusGood (word b) && word b / 2 ^ 36 % 2 ^ 8 == 0 &&
      (wordOp (nth x.prev b nopWord) == 0 || bits (word b) 32 4 == wordOp (nth x.prev b nopWord)) && sx 8 (bits (word b) 52 8) == (d.board c b).temp
    let good := sts'.length = nb ∧ (∀ w ∈ sts', statusGood w = true ∧ bits w 32 4 = 1) ∧ d.identOk c sts' = true
    Frame d e [R.LMP_CH_STAT c, R.LMP_IRQ_STAT, R.LMP_CH_ACTIVE_SEQ c] ∧ e.itk = d.itk ∧ e.fir = d.fir ∧ (∀ k, k ≠ c.val → e.lch k = d.lch k) ∧
    (ecc ≠ none → 151 ∈ e.reps.map (fun r => r.src) ∧ e.get F.LMP_IRQ_STAT_ECC = 1) ∧
    (ecc = none → st = 0 ∨ x.held = true → e = d) ∧
    (st ≠ 0 → x.held = false →
      (st = 3 → y = { x with ident := min 5 (x.ident + 1) } ∧ e.out = d.out) ∧
      (st ≠ 3 → y.prev = x.cur ∧ e.out = if e.drivesShared then .lamp c y.cur.reverse :: d.out else d.out) ∧
      (st = 2 → x.up = true → statusGood (word 0) = false → 2 ≤ (d.board c 0).bad →
        e.get (F.LMP_CH_STAT_STATE c) = 1 ∧ y.up = false ∧ 149 ∈ e.reps.map (fun r => r.src) ∧ e.get F.LMP_IRQ_STAT_CHAIN = 1) ∧
      (st = 2 → x.up = true → quiet = true → x.staging = true → x.pend = [] → x.cur.all (fun w => wordOp w == opApply) = true →
        x.resend = [] → x.urgent = [] →
        e.get F.LMP_IRQ_STAT_APPLY = 1 ∧
        e.get (F.LMP_CH_ACTIVE_SEQ_SEQ c) = (d.get (F.LMP_CH_ACTIVE_SEQ_SEQ c) + if x.armedSet then 1 else 0) % 2 ^ 32) ∧
      (st = 1 → x.up = false → x.ident = 3 → good → e.get (F.LMP_CH_STAT_STATE c) = 2 ∧ y.up = true ∧ e.get F.LMP_IRQ_STAT_CHAIN = 1) ∧
      (st = 1 → x.up = false → x.ident = 3 → ¬ good → e.get (F.LMP_CH_STAT_STATE c) = 1 ∧ y.up = false ∧ y.ident = 0 ∧ y.cur = List.replicate nb nopWord) ∧
      (st = 1 → x.up = false → x.ident = 1 → y.ident = 2 ∧ y.cur = List.replicate nb identWord) ∧
      (st = 1 → x.up = false → x.ident = 2 → y.ident = 3 ∧ y.cur = List.replicate nb nopWord))) ∧
  (∀ (s : State) (c : Fin 4), Ends (.chainIdent c) s fun e =>
    let d := s.dev
    if d.get (F.LMP_CH_STAT_STATE c) = 1 ∧ (d.lch c).ident = 0 then
      e.lch c = { d.lch c with ident := 1 } ∧ (∀ k, k ≠ c.val → e.lch k = d.lch k) ∧ e = { d with lmp := { d.lmp with chains := e.lmp.chains } }
    else e = d) ∧
  (∀ (s : State) (c : Fin 4) (t : Nat) (late : Bool), Ends (.lampStrobe c t late) s fun e =>
    let d := s.dev
    let st := d.get (F.LMP_CH_STAT_STATE c)
    match (d.lch c).strobes with
    | [] => e = d
    | (a, z) :: rest =>
      if t < a then e = d
      else
        (∀ k, k ≠ c.val → e.lch k = d.lch k) ∧ Frame d e [R.LMP_CH_STAT c] ∧
        e = { d with regs := e.regs, lmp := { d.lmp with chains := e.lmp.chains }, out := e.out } ∧
        if d.running = false ∨ st = 0 ∨ st = 3 then e.lch c = { d.lch c with strobes := rest } ∧ e.regs = d.regs ∧ e.out = d.out
        else
          e.get (F.LMP_CH_STAT_STRBLATE c) = min (2 ^ (F.LMP_CH_STAT_STRBLATE c).width - 1) (d.get (F.LMP_CH_STAT_STRBLATE c) + if late then 1 else 0) ∧
          match (d.lch c).lat with
          | some (b, f) => e.lch c = { d.lch c with strobes := rest, lat := some (b, max f z) } ∧ e.out = d.out
          | none => e.lch c = { d.lch c with strobes := rest, lat := some (a, z) } ∧ e.out = if d.drivesShared then .lamp c [1] :: d.out else d.out) ∧
  (∀ (s : State) (c : Fin 4) (t : Nat), Ends (.lampStrobeEnd c t) s fun e =>
    let d := s.dev
    match (d.lch c).lat with
    | none => e = d
    | some (a, z) =>
      if t < z then e = d
      else
        e.lch c = { d.lch c with lat := none } ∧ (∀ k, k ≠ c.val → e.lch k = d.lch k) ∧
        (e.out = if d.drivesShared then .lamp c [0] :: d.out else d.out) ∧ e.regs = d.regs ∧ e.mem = d.mem ∧ e.itk = d.itk ∧ e.reps = d.reps ∧
        ((d.lmp.strs.map fun x => x.ix).Nodup → e.lmp.strs = d.lmp.strs.map fun x =>
          if x.mapped ∧ x.ix / 128 = c.val ∧ x.modeOn = 2 then { x with dose := x.dose + 4096 * x.idac * ((z - a) / 1000) } else x)) ∧
  (∀ (s : State) (c : Fin 4) (b : Fin 32) (k : Fin 4), Ends (.diagPeriodEnd c b k) s fun e =>
    let d := s.dev
    let ix := c.val * 128 + b.val * 4 + k.val
    let x := d.str ix
    let off := x.meas = true ∨ x.mapped = false ∨ x.modeOn = 0 ∨ x.idac = 0
    let diagen := d.get (F.LMP_CH_CFG_DIAGEN c) = 1
    if d.get (F.LMP_CH_STAT_STATE c) ≠ 2 then e = d
    else
      Frame d e [R.LMP_IRQ_STAT] ∧ (∀ j, j ≠ c.val → e.lch j = d.lch j) ∧ (x ∈ d.lmp.strs → (e.str ix).meas = false) ∧
      (off → e.regs = d.regs ∧ e.reps = d.reps ∧ e.lch c = d.lch c) ∧
      (¬ off → diagen → e.regs = d.regs ∧ e.reps = d.reps ∧
        (e.lch c).diag = if x.search = none then (d.lch c).diag ++ [(b.val, diagWord k 0)] else (d.lch c).diag) ∧
      (¬ off → ¬ diagen → e.get F.LMP_IRQ_STAT_UNDIAG = 1 ∧ Reports d e (if x.undiagEver then [] else [150]) ∧ e.lch c = d.lch c ∧
        (x ∈ d.lmp.strs → (e.str ix).undiag = true ∧ (e.str ix).undiagEver = true))) ∧
  (∀ (s : State) (c : Fin 4), Ends (.diagLatchHoldEnd c) s fun e =>
    let d := s.dev
    e.lch c = { d.lch c with held := false } ∧ (∀ k, k ≠ c.val → e.lch k = d.lch k) ∧ e = { d with lmp := { d.lmp with chains := e.lmp.chains } }) ∧
  (∀ s : State, Ends .safeNopTimer s fun e =>
    let d := s.dev
    let cs := (List.range 4).filter fun c => d.get (F.LMP_CH_STAT_STATE c) == 3
    e = if d.drivesShared then { d with out := (cs.map fun c => .lamp c (List.replicate (d.get (F.LMP_CH_CFG_NBM1 c) + 1) nopWord)).reverse ++ d.out } else d)

/-- R418 to R429, R436. -/
def Obligations.EthernetPorts : Prop :=
  (∀ (s : State) (p : Fin 4) (pcs : Nat) (err : Bool), Ends (.txFrameDone p pcs err) s fun e =>
    let d := (s.dev.atTime pcs).txGo p
    let a := d.txEntry p
    let len := d.ld (a + 8) 2
    let size := d.get (F.ETH_PORT_TXSIZE_ENTRIES p)
    let nx := (d.get (F.ETH_PORT_NEXT_TXNEXT p) + 1) % max 1 size
    let bad := err = true ∨ d.ethMem (d.ld a 8) len = false
    let want := (d.ldB (a + 0x0A)).toNat / 2 % 2 = 1
    if (d.eport p).sending = false ∨ d.ethUp p = false then e = d
    else
      e.get F.ETH_IRQ_STAT_TXDONE = 1 ∧ e.c = d.c ∧
      (bad → e.out = d.out ∧ e.eth.txts = d.eth.txts) ∧
      (¬ bad → e.out = .eth p 4 ((d.ldBs (d.ld a 8) len).map (fun b => b.toNat) ++ List.replicate (60 - len) 0) :: d.out ∧
        e.get (F.ETH_PORT_TXFRAMES_COUNT p) = (d.get (F.ETH_PORT_TXFRAMES_COUNT p) + 1) % 2 ^ 32 ∧
        (e.eth.txts = if want ∧ d.eth.txts.length < 64 then d.eth.txts ++ [(d.ld (a + 0x0C) 4, p.val, (d.ethStamp p pcs false).toNat)] else d.eth.txts) ∧
        (want → 64 ≤ d.eth.txts.length → 162 ∈ e.reps.map (fun r => r.src) ∧ e.get F.ETH_IRQ_STAT_TSOVF = 1)) ∧
      (2 ≤ size → d.get (F.ETH_PORT_NEXT_TXNEXT p) < size →
        (d.ldB (d.ethBase (R.ETH_PORT_TXBASELO p) (R.ETH_PORT_TXBASEHI p) + 32 * nx + 0x0A)).toNat % 2 = 0 → d.c ≥ (d.eport p).pause →
        e.get (F.ETH_PORT_NEXT_TXNEXT p) = nx ∧ (e.ldB (a + 0x0A)).toNat % 2 = 0 ∧
        (e.ldB (a + 0x0B)).toNat = (if bad then sIntegrity else sOk) ∧ (e.eport p).sending = false ∧
        (∀ k, k < a + 0x0A ∨ a + 0x10 ≤ k → e.ldB k = d.ldB k))) ∧
  (∀ (s : State) (p : Fin 4) (t : Nat), Ends (.timedLaunch p t) s fun e =>
    let d := (s.dev.atTime t).txGo p
    if (d.eport p).waiting = true ∧ (d.txTime p : Int) ≤ d.timeAt d.c then
      e.eport p = { d.eport p with waiting := false, sending := true, late := false } ∧ (∀ k, k ≠ p.val → e.eport k = d.eport k) ∧
      e = { d with eth := { d.eth with ports := e.eth.ports } }
    else e = d) ∧
  (∀ (s : State) (p : Fin 4) (frame : List Byte) (vlan : Bool) (pcs : Nat) (err : Bool), Ends (.swrxFrame p frame vlan pcs err) s fun e =>
    let d := s.dev.atTime pcs
    let a := d.rxEntry p
    let size := d.get (F.ETH_PORT_RXSIZE_ENTRIES p)
    let buf := d.ld a 8
    let status := if d.ld (a + 8) 2 < frame.length then sOverflow else if err = true ∨ d.ethMem buf frame.length = false then sIntegrity else sOk
    if d.ethUp p = false then e = d
    else if d.get (F.ETH_PORT_CFG_SWRX p) = 0 then
      Frame d e [R.ETH_PORT_RXFILT p] ∧ e = { d with regs := e.regs } ∧
      e.get (F.ETH_PORT_RXFILT_COUNT p) = min (2 ^ 32 - 1) (d.get (F.ETH_PORT_RXFILT_COUNT p) + 1)
    else
      e.get (F.ETH_PORT_RXFRAMES_COUNT p) = (d.get (F.ETH_PORT_RXFRAMES_COUNT p) + 1) % 2 ^ 32 ∧
      if size = 0 ∨ (d.ldB (a + 0x0A)).toNat % 2 = 0 then
        Frame d e [R.ETH_PORT_RXFRAMES p, R.ETH_PORT_RXNOBUF p] ∧ e = { d with regs := e.regs } ∧
        e.get (F.ETH_PORT_RXNOBUF_COUNT p) = min (2 ^ 32 - 1) (d.get (F.ETH_PORT_RXNOBUF_COUNT p) + 1)
      else
        e = { d with regs := e.regs, mem := e.mem } ∧ e.get F.ETH_IRQ_STAT_RXDONE = 1 ∧
        e.get (F.ETH_PORT_NEXT_RXNEXT p) = (d.get (F.ETH_PORT_NEXT_RXNEXT p) + 1) % size ∧
        e.ld (a + 8) 2 = frame.length % 2 ^ 16 ∧ (e.ldB (a + 0x0A)).toNat = (if vlan then 16 else 0) ∧ (e.ldB (a + 0x0B)).toNat = status ∧
        (status ≠ sOk → ∀ k, k < a + 8 ∨ a + 32 ≤ k → e.ldB k = d.ldB k) ∧
        (status = sOk → a + 32 ≤ buf ∨ buf + frame.length ≤ a → e.ldBs buf frame.length = frame ∧
          ∀ k, (k < a + 8 ∨ a + 32 ≤ k) → (k < buf ∨ buf + frame.length ≤ k) → e.ldB k = d.ldB k)) ∧
  (∀ (s : State) (p : Fin 4) (why : Fin 3), Ends (.ethRxDrop p why) s fun e =>
    let d := s.dev
    let n := if d.c < (d.eport p).errC + 1000000000 then (d.eport p).errs + 1 else 1
    if d.ethUp p = false then e = d
    else
      (why = 0 → Frame d e [R.ETH_PORT_RXERR p, R.ETH_IRQ_STAT] ∧ (e.eport p).errs = n ∧ Reports d e (if n = 1001 then [161] else []) ∧
        e.get (F.ETH_PORT_RXERR_COUNT p) = min (2 ^ 32 - 1) (d.get (F.ETH_PORT_RXERR_COUNT p) + 1) ∧
        (n = 1001 → e.get F.ETH_IRQ_STAT_RXERR = 1)) ∧
      (why = 1 → Frame d e [R.ETH_PORT_RXFILT p] ∧ e = { d with regs := e.regs } ∧
        e.get (F.ETH_PORT_RXFILT_COUNT p) = min (2 ^ 32 - 1) (d.get (F.ETH_PORT_RXFILT_COUNT p) + 1)) ∧
      (why = 2 → e = { d with reps := e.reps, freeCtr := e.freeCtr } ∧ Reports d e [163])) ∧
  (∀ (s : State) (p : Fin 4) (lock : Bool), Ends (.ethLinkChange p lock) s fun e =>
    let d := s.dev
    let old := d.get (F.ETH_PORT_STAT_STATE p)
    let new := if lock then 2 else 1
    if old = 0 ∨ old = new then e = d
    else
      e.get (F.ETH_PORT_STAT_STATE p) = new ∧ e.get F.ETH_IRQ_STAT_LINK = 1 ∧ e.itk = d.itk ∧
      ((d.eport p).waiting = false ∨ lock = true → Frame d e [R.ETH_PORT_STAT p, R.ETH_IRQ_STAT] ∧ Reports d e (if old = 2 then [160] else []) ∧
        e = { d with regs := e.regs, reps := e.reps, freeCtr := e.freeCtr }) ∧
      ((d.eport p).waiting = true → lock = false → 163 ∈ e.reps.map (fun r => r.src) ∧ e.get F.ETH_IRQ_STAT_LATE = 1 ∧ (old = 2 → 160 ∈ e.reps.map (fun r => r.src)))) ∧
  (∀ (s : State) (p : Fin 4) (q : Fin 65536), Ends (.pause p q) s fun e =>
    let d := s.dev
    let ps := if d.get (F.SRD_LANE_CFG_RATE (32 + p.val)) = 6 then 20480 else 51200
    if d.ethUp p = false then e = d
    else
      Frame d e [R.ETH_PORT_RXFRAMES p] ∧ e.get (F.ETH_PORT_RXFRAMES_COUNT p) = (d.get (F.ETH_PORT_RXFRAMES_COUNT p) + 1) % 2 ^ 32 ∧
      e = { d with regs := e.regs, eth := { d.eth with ports := e.eth.ports } } ∧ (∀ k, k ≠ p.val → e.eport k = d.eport k) ∧
      e.eport p = if d.get (F.ETH_PORT_CFG_PAUSEEN p) = 1 then { d.eport p with pause := d.c + q.val * ps / 1000 } else d.eport p) ∧
  (∀ (s : State) (p : Fin 4) (mac sip ip : Nat), Ends (.arpRequest p mac sip ip) s fun e =>
    let d := s.dev
    if d.ethUp p = false then e = d
    else EthAnswers d e p (ip = (d.rd (R.ETH_PORT_IPV4 p)).toNat ∧ ip ≠ 0) 1 [mac, d.ethMac p, ip, sip]) ∧
  (∀ (s : State) (p : Fin 4) (mac sip t : Nat), Ends (.neighbourSolicitation p mac sip t) s fun e =>
    let d := s.dev
    if d.ethUp p = false then e = d
    else EthAnswers d e p (t = d.ethLocal p ∨ (t = d.ethIp6 p ∧ t ≠ 0)) 2 [mac, d.ethMac p, t, sip]) ∧
  (∀ (s : State) (p : Fin 4) (v6 : Bool) (mac sip dst : Nat) (data : List Byte), Ends (.echoRequest p v6 mac sip dst data) s fun e =>
    let d := s.dev
    let own := if v6 then dst = d.ethLocal p ∨ (dst = d.ethIp6 p ∧ dst ≠ 0) else dst = (d.rd (R.ETH_PORT_IPV4 p)).toNat ∧ dst ≠ 0
    if d.ethUp p = false then e = d
    else EthAnswers d e p (own ∧ data.length ≤ 1500) 3 ([mac, d.ethMac p, dst, sip] ++ data.map fun b => b.toNat))

/-- R425, R427, R430 to R434. -/
def Obligations.PtpMessages : Prop :=
  (∀ (s : State) (p : Fin 4) (h : PtpHdr) (a : PtpAnn), Ends (.announce p h a) s fun e =>
    let d := s.dev
    let old := ((d.ptp.foreign.find? fun f => f.port == p.val && f.sender == h.sender).map fun f => f.times).getD []
    let now : Foreign := { port := p, sender := h.sender, ann := a, times := (d.c :: old).take 4 }
    let fs := (d.ptp.foreign.filter fun f => !(f.port == p.val && f.sender == h.sender)) ++ [now]
    let d1 := d.onPtp fun t => { t with foreign := fs }
    if d.ethUp p = false then e = d
    else if d.ptpTakes p h = false ∨ 255 ≤ a.steps then e = d.ethGood p
    else
      e.ptp.foreign = fs ∧ e.itk = d.itk ∧ (∀ q, q < 4 → d.ptpOn q = true → e.pstate q = d1.ptpDecide q) ∧
      (∀ q, q < 4 → d.ptpOn q = false → e.pstate q = d.pstate q) ∧
      (e.ptp.source ≠ d.ptp.source → e.get F.PTP_IRQ_STAT_PARENT = 1 ∧ (d.tstate = tsSync → 164 ∈ e.reps.map (fun r => r.src))) ∧
      (e.ptp.source = d.ptp.source → e.reps = d.reps ∧ e.get F.PTP_STATE_STATE = d.get F.PTP_STATE_STATE)) ∧
  (∀ (s : State) (p : Fin 4) (h : PtpHdr) (two : Bool) (t1 pcs : Nat), Ends (.ptpSync p h two t1 pcs) s fun e =>
    let d1 := s.dev.atTime pcs
    let d := if s.dev.ethUp p then d1.ethGood p else d1
    let t2 := d.ethStamp p pcs true
    let o := ((t2 - t1) * 65536 - sx 32 (d.rd (R.PTP_PORT_DELAY p)).toNat * 4096 - h.corr) / 65536
    if d.fromParent p h = false then e = d
    else
      e.get (F.PTP_PORT_STAT_SYNCS p) = (d.get (F.PTP_PORT_STAT_SYNCS p) + 1) % 2 ^ 16 ∧ (e.pport p).syncC = d.c ∧
      (two = true → (e.pport p).pend = some (h.seq, h.sender, t2, h.corr) ∧ Frame d e [R.PTP_PORT_STAT p] ∧ e.reps = d.reps) ∧
      (two = false → OffsetTaken d e p (t1 * 65536 + h.corr) t2 o)) ∧
  (∀ (s : State) (p : Fin 4) (h : PtpHdr) (t1 : Nat), Ends (.followUp p h t1) s fun e =>
    let d := if s.dev.ethUp p then s.dev.ethGood p else s.dev
    if d.fromParent p h = false then e = d
    else match (d.pport p).pend with
      | none => e = d
      | some (sq, snd, t2, corr) =>
        let o := ((t2 - t1) * 65536 - sx 32 (d.rd (R.PTP_PORT_DELAY p)).toNat * 4096 - (corr + h.corr)) / 65536
        if sq = h.seq ∧ snd = h.sender then OffsetTaken d e p (t1 * 65536 + (corr + h.corr)) t2 o else e = d) ∧
  (∀ (s : State) (p : Fin 4) (h : PtpHdr) (pcs : Nat), Ends (.delayReq p h pcs) s fun e =>
    let d1 := s.dev.atTime pcs
    let d := if s.dev.ethUp p then d1.ethGood p else d1
    if d.ptpTakes p h = true ∧ d.pstate p = ptpMaster ∧ d.get F.PTP_CFG_PROFILE = 1 then
      e.out = .eth p 0x19 [h.seq, h.sender, (d.ethStamp p pcs true).toNat, ux 64 h.corr] :: d.out ∧
      Frame d e [R.ETH_PORT_TXFRAMES p] ∧ e = { d with regs := e.regs, out := e.out }
    else e = d) ∧
  (∀ (s : State) (p : Fin 4) (h : PtpHdr) (req t4 : Nat), Ends (.delayResp p h req t4) s fun e =>
    let d := if s.dev.ethUp p then s.dev.ethGood p else s.dev
    match (d.pport p).req, (d.pport p).last with
    | some (sq, t3), some (t1, t2) =>
      if d.fromParent p h = true ∧ d.get F.PTP_CFG_PROFILE = 1 ∧ req = d.portId p ∧ sq = h.seq then
        Frame d e [R.PTP_PORT_DELAY p] ∧ (e.pport p).req = none ∧ e.reps = d.reps ∧
        (e.rd (R.PTP_PORT_DELAY p)).toNat = ux 32 (((t2 - t1) + ((t4 : Int) - t3) * 65536 - h.corr) / 8192)
      else e = d
    | _, _ => e = d) ∧
  (∀ (s : State) (p : Fin 4) (h : PtpHdr) (pcs tx : Nat), Ends (.pdelayReq p h pcs tx) s fun e =>
    let d1 := s.dev.atTime pcs
    let d := if s.dev.ethUp p then d1.ethGood p else d1
    let t2 := (d.ethStamp p pcs true).toNat
    let t3 := (d.ethStamp p tx false).toNat
    if d.ptpTakes p h = true ∧ (d.get F.PTP_CFG_PROFILE = 2 ∨ d.get F.PTP_CFG_PROFILE = 3) then
      Frame d e [R.ETH_PORT_TXFRAMES p] ∧ e = { d with regs := e.regs, out := e.out } ∧
      e.out = if d.get F.PTP_CFG_ONESTEP = 1 then .eth p 0x13 [h.seq, h.sender, 0, ux 64 (h.corr + ((t3 : Int) - t2) * 65536)] :: d.out
        else .eth p 0x1A [h.seq, h.sender, t3, ux 64 h.corr] :: .eth p 0x13 [h.seq, h.sender, t2, 0] :: d.out
    else e = d) ∧
  (∀ (s : State) (p : Fin 4) (h : PtpHdr) (req : Nat) (two : Bool) (t2 pcs : Nat), Ends (.pdelayResp p h req two t2 pcs) s fun e =>
    let d1 := s.dev.atTime pcs
    let d := if s.dev.ethUp p then d1.ethGood p else d1
    let t4 := d.ethStamp p pcs true
    match (d.pport p).req with
    | none => e = d
    | some (sq, t1) =>
      if d.ptpTakes p h = true ∧ d.peerDelay = true ∧ req = d.portId p ∧ sq = h.seq then
        if two then (e.pport p).resp = some (h.seq, (t2 : Int), t4, h.corr) ∧ e.regs = d.regs ∧ e.mem = d.mem
        else Frame d e [R.PTP_PORT_DELAY p] ∧ (e.rd (R.PTP_PORT_DELAY p)).toNat = ux 32 (((t4 - t1) * 65536 - h.corr) / 8192) ∧ (e.pport p).req = none
      else e = d) ∧
  (∀ (s : State) (p : Fin 4) (h : PtpHdr) (req t3 : Nat), Ends (.pdelayRespFollowUp p h req t3) s fun e =>
    let d := if s.dev.ethUp p then s.dev.ethGood p else s.dev
    match (d.pport p).req, (d.pport p).resp with
    | some (sq, t1), some (sq2, t2, t4, corr) =>
      if d.ptpTakes p h = true ∧ d.peerDelay = true ∧ req = d.portId p ∧ sq = h.seq ∧ sq2 = h.seq then
        Frame d e [R.PTP_PORT_DELAY p] ∧ (e.pport p).req = none ∧ (e.pport p).resp = none ∧
        (e.rd (R.PTP_PORT_DELAY p)).toNat = ux 32 ((((t4 - t1) - ((t3 : Int) - t2)) * 65536 - corr - h.corr) / 8192)
      else e = d
    | _, _ => e = d) ∧
  (∀ (s : State) (p : Fin 4), Ends (.managementMessage p) s fun e =>
    let d := s.dev
    if d.ethUp p = false then e = d
    else Frame d e [R.ETH_PORT_RXFRAMES p] ∧ e = { d with regs := e.regs } ∧
      e.get (F.ETH_PORT_RXFRAMES_COUNT p) = (d.get (F.ETH_PORT_RXFRAMES_COUNT p) + 1) % 2 ^ 32) ∧
  (∀ (s : State) (p : Fin 4) (kind : Fin 3) (tx : Nat), Ends (.ptpSendTimer p kind tx) s fun e =>
    let d := s.dev.atTime tx
    let x := d.pport p
    let t := d.ethStamp p tx false
    let grown := d.ptpOn p = true ∧ d.pstate p = ptpPreMaster ∧ x.pre ≤ d.c
    let st := if grown then ptpMaster else d.pstate p
    let can := d.ptpOn p = true ∧ d.ethUp p = true
    let sync := if d.get F.PTP_CFG_ONESTEP = 1 then [Out.eth p 0x10 [x.seqSync, t.toNat]] else [.eth p 0x18 [x.seqSync, t.toNat], .eth p 0x10 [x.seqSync, 0]]
    e.pstate p = st ∧ Frame d e [R.PTP_PORT_STAT p, R.ETH_PORT_TXFRAMES p] ∧ e.reps = d.reps ∧ e.itk = d.itk ∧ e.c = d.c ∧
    (kind = 0 → e.out = (if can ∧ st = ptpMaster then sync else []) ++ d.out ∧
      (can → st = ptpMaster → (e.pport p).seqSync = (x.seqSync + 1) % 2 ^ 16)) ∧
    (kind = 1 → e.out = (if can ∧ st = ptpMaster then [.eth p 0x1B (d.announceBody x.seqAnn)] else []) ++ d.out ∧
      (can → st = ptpMaster → (e.pport p).seqAnn = (x.seqAnn + 1) % 2 ^ 16)) ∧
    (kind = 2 → if can ∧ (d.peerDelay = true ∨ st = ptpSlave) then
        e.out = .eth p (if d.peerDelay then 0x12 else 0x11) [x.seqDelay] :: d.out ∧ (e.pport p).req = some (x.seqDelay, t) ∧
        (e.pport p).resp = none ∧ (e.pport p).seqDelay = (x.seqDelay + 1) % 2 ^ 16
      else e.out = d.out)) ∧
  (∀ (s : State) (p : Fin 4), Ends (.syncTimeout p) s fun e =>
    let d := s.dev
    let x := d.atTime ((d.pport p).syncC + d.get F.PTP_INTV_SYNCTO * d.syncNs)
    let gone := (x.erbest p).map fun f => f.sender
    if d.ptpOn p = false ∨ d.pstate p ≠ ptpSlave then e = d
    else
      e.c = x.c ∧ e.ptp.foreign = d.ptp.foreign.filter (fun f => !(f.port == p.val && some f.sender == gone)) ∧ e.itk = d.itk ∧
      (e.ptp.source ≠ d.ptp.source → e.get F.PTP_IRQ_STAT_PARENT = 1)) ∧
  (∀ (s : State) (p : Fin 4), Ends (.announceReceiptTimeout p) s fun e =>
    let d := s.dev
    if d.ptpOn p = false then e = d
    else
      e.ptp.foreign = d.ptp.foreign.filter (fun f => f.port ≠ p.val) ∧ e.c = d.c ∧ e.itk = d.itk ∧
      (d.pstate p = ptpListening → d.get F.PTP_PRIO_PRIORITY1 ≠ 255 → e.pstate p ≠ ptpListening) ∧
      (e.ptp.source ≠ d.ptp.source → e.get F.PTP_IRQ_STAT_PARENT = 1)) ∧
  (∀ s : State, Ends .holdoverExpiry s fun e =>
    let d := s.dev
    if d.tstate ≠ tsHoldover then e = d
    else
      e.c = max d.c (d.ptp.holdC + d.get F.PTP_HOLD_HOLDMAX * 1000000000) % 2 ^ 64 ∧ e.tstate = tsExpired ∧ e.get F.PTP_IRQ_STAT_STATE = 1 ∧
      Reports d e [166] ∧ Frame d e [R.PTP_STATE, R.PTP_IRQ_STAT] ∧ e = { d with c := e.c, regs := e.regs, reps := e.reps, freeCtr := e.freeCtr })

/-- R397, R399, R401 to R405. -/
def Obligations.FabricLinks : Prop :=
  (∀ (s : State) (p : Fin 4), Ends (.pgfPortAttempt p) s fun e =>
    let d := s.dev
    if d.fportOn p = true ∧ (d.fstate p = fpBackoff ∨ d.fstate p = fpLooped) then
      e.fstate p = fpTraining ∧ e.get F.PGF_IRQ_STAT_PORT = 1 ∧ e.fport p = { step := 1, nonce := (e.fport p).nonce } ∧
      Frame d e [R.PGF_PORT_STAT p, R.PGF_IRQ_STAT] ∧ (∀ q, q ≠ p.val → e.fport q = d.fport q) ∧ e.reps = d.reps
    else e = d) ∧
  (∀ (s : State) (p : Fin 4) (why : Fin 6), Ends (.pgfPortAbort p why) s fun e =>
    let d := s.dev
    if d.fstate p = fpTraining ∧ why ≠ 0 then
      e.fstate p = fpBackoff ∧ e.get F.PGF_IRQ_STAT_PORT = 1 ∧ e.get (F.PGF_PORT_STAT_LASTFAIL p) = why.val ∧ e.fport p = {} ∧
      e.get (F.PGF_PORT_DROP_COUNT p) = min (2 ^ 32 - 1) (d.get (F.PGF_PORT_DROP_COUNT p) + ((d.fport p).queue.length + (d.fport p).replay.length)) ∧
      Reports d e (if why = 5 then [153] else []) ∧ (∀ q, q ≠ p.val → e.fport q = d.fport q) ∧
      Frame d e [R.PGF_PORT_STAT p, R.PGF_IRQ_STAT, R.PGF_PORT_DROP p]
    else e = d) ∧
  (∀ (s : State) (p : Fin 4) (mask : Fin 4), Ends (.pgfLaneAlign p mask) s fun e =>
    let d := s.dev
    let x := d.fport p
    let ls := [nth x.lanes 0 false || bitB mask 0, nth x.lanes 1 false || bitB mask 1]
    if d.fstate p = fpTraining ∧ x.step < 3 ∧ mask = 3 then
      (e.fport p).step = 3 ∧ (e.fport p).lanes = [true, true] ∧ (e.fport p).expect = 0 ∧ (e.fport p).lseq = 0 ∧ FabSends d e p [0x01] ∧
      e = { d with pgf := { d.pgf with ports := e.pgf.ports } } ∧ (∀ q, q ≠ p.val → e.fport q = d.fport q)
    else if d.fstate p = fpOne then
      e.fport p = { x with lanes := ls } ∧ e.fstate p = (if ls = [true, true] then fpUp else fpOne) ∧ Frame d e [R.PGF_PORT_STAT p, R.PGF_IRQ_STAT] ∧
      e.reps = d.reps
    else e = d) ∧
  (∀ (s : State) (p : Fin 4) (mask : Fin 4), Ends (.pgfPortDown p mask) s fun e =>
    let d := s.dev
    let x := d.fport p
    let ls := [nth x.lanes 0 false && !(bitB mask 0), nth x.lanes 1 false && !(bitB mask 1)]
    if d.fportUp p = false then e = d
    else if ls ≠ [false, false] then
      e.fport p = { x with lanes := ls, resend := if ls = x.lanes then x.resend else x.replay.map fun r => r.lseq } ∧
      e.fstate p = (if ls = [true, true] then fpUp else fpOne) ∧ Frame d e [R.PGF_PORT_STAT p, R.PGF_IRQ_STAT] ∧ e.reps = d.reps
    else
      e.fstate p = fpTraining ∧ (e.fport p).step = 1 ∧ (e.fport p).queue = [] ∧ (e.fport p).replay = [] ∧ 152 ∈ e.reps.map (fun r => r.src) ∧
      e.get F.PGF_IRQ_STAT_PORT = 1 ∧ e.get (F.PGF_PORT_STAT_TREE p) = 0 ∧ e.itk = d.itk ∧
      e.get (F.PGF_PORT_DROP_COUNT p) = min (2 ^ 32 - 1) (d.get (F.PGF_PORT_DROP_COUNT p) + (x.queue.length + x.replay.length))) ∧
  (∀ (s : State) (p : Fin 4) (good : Bool) (cls : Fin 4) (count ack : Fin 4096), Ends (.fcred p good cls count ack) s fun e =>
    let d := s.dev
    let x := d.fport p
    let done (l : Nat) : Bool := decide (1 ≤ (ack.val + 4096 - l) % 4096 ∧ (ack.val + 4096 - l) % 4096 ≤ 2048)
    if d.fportUp p = false ∧ d.fstate p ≠ fpTraining then e = d
    else if good = false then Frame d e [R.PGF_PORT_ERR p] ∧ e = { d with regs := e.regs } ∧
      e.get (F.PGF_PORT_ERR_CRCERR p) = min 65535 (d.get (F.PGF_PORT_ERR_CRCERR p) + 1)
    else
      e.fport p = { x with replay := x.replay.filter fun r => !(done r.lseq), resend := x.resend.filter fun l => !(done l), cred := (e.fport p).cred } ∧
      (∀ k, k < x.cred.length → nth (e.fport p).cred k 0 = nth x.cred k 0 + if k + 1 = cls.val then count.val else 0) ∧
      e = { d with pgf := { d.pgf with ports := e.pgf.ports } } ∧ (∀ q, q ≠ p.val → e.fport q = d.fport q)) ∧
  (∀ (s : State) (p : Fin 4) (good : Bool) (lseq : Fin 4096), Ends (.fnak p good lseq) s fun e =>
    let d := s.dev
    let x := d.fport p
    let ls := (x.replay.map fun r => r.lseq).filter fun l => decide ((l + 4096 - lseq.val) % 4096 < 2048)
    if d.fportUp p = false ∧ d.fstate p ≠ fpTraining then e = d
    else if good = false then Frame d e [R.PGF_PORT_ERR p] ∧ e = { d with regs := e.regs } ∧
      e.get (F.PGF_PORT_ERR_CRCERR p) = min 65535 (d.get (F.PGF_PORT_ERR_CRCERR p) + 1)
    else Resends d e p ls) ∧
  (∀ (s : State) (p : Fin 4), Ends (.pgfReplayTimeout p) s fun e =>
    let d := s.dev
    let ls := (d.fport p).replay.map fun r => r.lseq
    if ls = [] then e = d else Resends d e p ls) ∧
  (∀ (s : State) (p : Fin 4), Ends (.fcredTimer p) s fun e =>
    let d := s.dev
    let x := d.fport p
    let due := (List.range 3).filter fun k => nth x.back k 0 != 0
    let ks := if due = [] then [0] else due
    if x.got = false then e = d
    else
      e.out = (ks.map fun k => .pgf p 0x4B [k + 1, nth x.back k 0, x.expect]).reverse ++ d.out ∧
      e.fport p = { x with got := false, back := [0, 0, 0] } ∧ e = { d with pgf := { d.pgf with ports := e.pgf.ports }, out := e.out }) ∧
  (∀ (s : State) (p : Fin 4) (t : Nat), Ends (.pgfPacketSend p t) s fun e =>
    let d := s.dev.atTime t
    let x := d.fport p
    (∀ a, e.ldB a = d.ldB a) ∧ e.itk = d.itk ∧ e.reps = d.reps ∧ (∀ q, q ≠ p.val → e.fport q = d.fport q) ∧
    match x.resend with
    | l :: rest =>
      (e.fport p).resend = rest ∧ (e.fport p).queue = x.queue ∧
      (match x.replay.find? fun r => r.lseq == l with
        | none => e.out = d.out ∧ e.regs = d.regs
        | some r => e.out = .pgf p r.pkt.ptype ([l, fabNblk r.pkt, fabHeader r.pkt] ++ r.pkt.payload.map fun b => b.toNat) :: d.out ∧
          Frame d e [R.PGF_PORT_ERR p] ∧ e.get (F.PGF_PORT_ERR_RETRY p) = min 65535 (d.get (F.PGF_PORT_ERR_RETRY p) + 1))
    | [] =>
      match d.nextPkt p with
      | none => e = d
      | some (k, _, _) =>
        e.regs = d.regs ∧ (e.fport p).queue = x.queue.erase k ∧ (e.fport p).lseq = (x.lseq + 1) % 4096 ∧
        (match (e.fport p).replay.getLast? with
          | none => False
          | some r => r.lseq = x.lseq ∧ r.pkt.ptype = k.ptype ∧ r.pkt.dst = k.dst ∧ (e.fport p).replay.dropLast = x.replay ∧
            (k.cls ≠ 0 → r.pkt = k) ∧
            e.out = .pgf p k.ptype ([x.lseq, fabNblk r.pkt, fabHeader r.pkt] ++ r.pkt.payload.map fun b => b.toNat) :: d.out) ∧
        (∀ c, c < x.cred.length → nth (e.fport p).cred c 0 = nth x.cred c 0 - if c + 1 = k.cls then fabCredits k else 0))

/-- R119, R399, R403, R405 to R410, R412, R413, R415. -/
def Obligations.FabricPackets : Prop :=
  (∀ (s : State) (p : Fin 4) (rx : FabRx), Ends (.pgfHello p rx) s fun e =>
    let d := s.dev.atTime rx.t
    let b := rx.pkt.payload
    let uid := fieldLE b 0 16
    let auth := d.get F.PGF_CFG_AUTH
    FabArrives d e p rx 0x01 (
      if d.fstate p ≠ fpTraining ∨ (d.fport p).step ≠ 3 then e = fabGot d p { rx.pkt with ptype := 0x01 }
      else
        (∀ k : Fin 4, (e.rd (R.PGF_PORT_NBUID p k)).toNat = uid / 2 ^ (32 * k.val) % 2 ^ 32) ∧ e.itk = d.itk ∧
        if uid = d.uid then e.fstate p = fpLooped ∧ e.get (F.PGF_PORT_STAT_LASTFAIL p) = 6
        else if fieldLE b 16 1 ≠ 1 then e.fstate p = fpBackoff ∧ e.get (F.PGF_PORT_STAT_LASTFAIL p) = 4
        else if fieldLE b 19 1 % 2 ≠ auth then e.fstate p = fpBackoff ∧ e.get (F.PGF_PORT_STAT_LASTFAIL p) = 5 ∧ Reports d e [153]
        else if auth = 1 then (e.fport p).step = 4 ∧ FabSends d e p [0x02] ∧ e.fstate p = fpTraining
        else e.fportUp p = true ∧ (e.fport p).step = 5 ∧ (e.fport p).cred = [fieldLE b 20 2, fieldLE b 22 2, fieldLE b 24 2])) ∧
  (∀ (s : State) (p : Fin 4) (rx : FabRx), Ends (.pgfAuth p rx) s fun e =>
    let d := s.dev.atTime rx.t
    FabArrives d e p rx 0x02 (
      match (d.fport p).hello with
      | none => e = fabGot d p { rx.pkt with ptype := 0x02 }
      | some (uid, _, _, nonce) =>
        if d.fstate p ≠ fpTraining ∨ (d.fport p).step ≠ 4 then e = fabGot d p { rx.pkt with ptype := 0x02 }
        else if rx.pkt.payload.take 16 = d.fabTag uid d.uid nonce (d.fport p).nonce then e.fportUp p = true ∧ (e.fport p).step = 5 ∧ e.itk = d.itk
        else e.fstate p = fpBackoff ∧ e.get (F.PGF_PORT_STAT_LASTFAIL p) = 5 ∧ Reports d e [153] ∧ e.get F.PGF_IRQ_STAT_AUTH = 1 ∧ e.itk = d.itk)) ∧
  (∀ (s : State) (p : Fin 4) (rx : FabRx), Ends (.rootadv p rx) s fun e =>
    let d := s.dev.atTime rx.t
    let b := rx.pkt.payload
    let a : RootAdv := { prio := fieldLE b 16 1, uid := fieldLE b 0 16, dist := fieldLE b 17 1, parent := bitB (fieldLE b 18 1) 0, sender := fieldLE b 24 16, at' := d.c }
    let advs := (d.onFport p fun x => { x with adv := some a }).adverts
    FabArrives d e p rx 0x03 (
      if d.fportUp p = false then e = fabGot d p { rx.pkt with ptype := 0x03 }
      else (e.fport p).adv = some a ∧ e.itk = d.itk ∧ (d.get F.PGF_CFG_ENABLE = 1 → d.configDone = true → RootChosen d e advs))) ∧
  (∀ (s : State) (p : Fin 4) (rx : FabRx), Ends (.addrreq p rx) s fun e =>
    let d := s.dev.atTime rx.t
    let b := rx.pkt.payload
    let k : FabPkt := { rx.pkt with ptype := 0x10 }
    let r := d.answerAddr (fieldLE b 0 16) (fieldLE b 16 2) (fieldLE b 19 1) (fieldLE b 18 1 == 1)
    FabArrives d e p rx 0x10 (
      if d.fportUp p = false then e = fabGot d p k
      else if d.isRoot = true then
        (r.2 = sOk → (e.pgf.grants.getLast?).map (fun g => (g.addr, g.uid, g.heard)) = some (r.1, fieldLE b 0 16, d.c)) ∧
        (r.2 ≠ sOk → e.pgf.grants = d.pgf.grants) ∧ Frame d e [R.PGF_MEMBERS] ∧ e.itk = d.itk ∧ (∀ q, q < 4 → d.treePort q = true → FabSends d e q [0x11])
      else ForwardedUp d e p k)) ∧
  (∀ (s : State) (p : Fin 4) (rx : FabRx), Ends (.addrgrant p rx) s fun e =>
    let d := s.dev.atTime rx.t
    let b := rx.pkt.payload
    let k : FabPkt := { rx.pkt with ptype := 0x11 }
    let mine := fieldLE b 0 16 = d.uid
    let ok := fieldLE b 18 1 = sOk
    FabArrives d e p rx 0x11 (
      if d.fportUp p = false then e = fabGot d p k
      else
        Forwarded d e p k ∧ e.itk = d.itk ∧ (ok → d.pgf.root.any (fun r => r.2 == fieldLE b 0 16) = true → e.get F.PGF_STAT_ROOTADDR = fieldLE b 16 2 % 2 ^ 11) ∧
        (mine → ok → e.get F.PGF_STAT_ADDRVALID = 1 ∧ e.get F.PGF_STAT_ADDR = fieldLE b 16 2 % 2 ^ 11 ∧ e.pgf.granted = true) ∧
        (mine → ¬ ok → e.get F.PGF_STAT_ADDRVALID = 0 ∧ e.get F.PGF_IRQ_STAT_ADDR = 1 ∧ 155 ∈ e.reps.map (fun r => r.src)) ∧
        (¬ mine → e.get F.PGF_STAT_ADDRVALID = d.get F.PGF_STAT_ADDRVALID ∧ e.get F.PGF_STAT_ADDR = d.get F.PGF_STAT_ADDR))) ∧
  (∀ (s : State) (p : Fin 4) (rx : FabRx), Ends (.topo p rx) s fun e =>
    let d := s.dev.atTime rx.t
    let b := rx.pkt.payload
    let k : FabPkt := { rx.pkt with ptype := 0x12 }
    FabArrives d e p rx 0x12 (
      if d.fportUp p = false then e = fabGot d p k
      else if d.isRoot = true then
        (e.pgf.topo.find? fun t => t.uid == fieldLE b 0 16 && t.addr == fieldLE b 16 2 && t.kind == fieldLE b 18 1).isSome = true ∧
        (e.pgf.topo = d.pgf.topo ∨ e.pgf.dirty = true) ∧ Frame d e [R.PGF_PORT_STAT p] ∧ e.itk = d.itk
      else (∀ a, e.ldB a = d.ldB a) ∧ e.itk = d.itk ∧ e.pgf.topo = d.pgf.topo ∧
        match d.pgf.parent with
        | some q => if 31 ≤ k.hops then e.get F.PGF_DROP_HOPS = min 2047 (d.get F.PGF_DROP_HOPS + 1) else FabSends d e q (if d.fportUp q then [0x12] else [])
        | none => Frame d e [R.PGF_PORT_STAT p])) ∧
  (∀ (s : State) (p : Fin 4) (rx : FabRx), Ends (.toporeq p rx) s fun e =>
    let d := s.dev.atTime rx.t
    let k : FabPkt := { rx.pkt with ptype := 0x13 }
    FabArrives d e p rx 0x13 (
      if d.fportUp p = false then e = fabGot d p k
      else Forwarded d e p k ∧ e.itk = d.itk ∧ (∀ a, e.ldB a = d.ldB a) ∧
        (d.get F.PGF_STAT_ADDRVALID = 1 → d.isRoot = false → match d.pgf.parent with
          | some q => d.fportUp q = true → 0x12 ∈ (e.fport q).queue.map fun k => k.ptype
          | none => True) ∧
        (d.get F.PGF_STAT_ADDRVALID = 1 → d.isRoot = true → (e.pgf.topo.find? fun t => t.uid == d.uid).isSome = true))) ∧
  (∀ (s : State) (p : Fin 4) (rx : FabRx), Ends (.route p rx) s fun e =>
    let d := s.dev.atTime rx.t
    let b := rx.pkt.payload
    let k : FabPkt := { rx.pkt with ptype := 0x14 }
    let gen := fieldLE b 4 4
    let part := fieldLE b 2 1
    let mine := d.get F.PGF_STAT_ADDRVALID = 1 ∧ fieldLE b 0 2 = d.get F.PGF_STAT_ADDR ∧ part < 8 ∧
      (d.get F.PGF_STAT_TABLE = 0 ∨ later32 gen (d.rd R.PGF_GEN).toNat = true)
    let others := d.pgf.parts.filter fun x => x.1 == gen && x.2.1 != part
    FabArrives d e p rx 0x14 (
      if d.fportUp p = false then e = fabGot d p k
      else Forwarded d e p k ∧ e.itk = d.itk ∧
        (¬ mine → e.pgf.table = d.pgf.table ∧ e.pgf.parts = d.pgf.parts ∧ e.rd R.PGF_GEN = d.rd R.PGF_GEN) ∧
        (mine → others.length < 7 → e.pgf.table = d.pgf.table ∧ (e.pgf.parts.getLast?).map (fun x => (x.1, x.2.1)) = some (gen, part)) ∧
        (mine → others.map (fun x => x.2.1) = (List.range 8).filter (fun n => n ≠ part) → e.get F.PGF_STAT_TABLE = 1 ∧
          (e.rd R.PGF_GEN).toNat = gen ∧ e.get F.PGF_IRQ_STAT_ROUTE = 1 ∧
          ∀ n, n < 256 → n < b.length - 8 → e.fabRoute (256 * part + n) = (nth (b.drop 8) n 0).toNat))) ∧
  (∀ (s : State) (p : Fin 4) (rx : FabRx), Ends (.refuse p rx) s fun e =>
    let d := s.dev.atTime rx.t
    let b := rx.pkt.payload
    let k : FabPkt := { rx.pkt with ptype := 0x20 }
    let link := fieldLE b 0 2
    let id := fieldLE b 8 8
    let dup := d.pgf.taken.contains (rx.pkt.src, fieldLE b 4 4) = true
    let stale := fieldLE b 16 4 ≠ 0 ∧ (d.pgf.epochs.find? fun x => x.1 == fieldLE b 16 4).any (fun x => later32 x.2 (fieldLE b 20 4)) = true
    FabArrives d e p rx 0x20 (
      if d.fportUp p = false then e = fabGot d p k
      else Forwarded d e p k ∧
        if d.ownLink link = false then e.itk = d.itk ∧ (∀ a, e.ldB a = d.ldB a) ∧ e.rd R.PGF_REFCNT = d.rd R.PGF_REFCNT
        else if dup then e.itk = d.itk ∧ (∀ a, e.ldB a = d.ldB a) ∧ e.get F.PGF_STALE_DUP = min 65535 (d.get F.PGF_STALE_DUP + 1)
        else if stale then e.itk = d.itk ∧ (∀ a, e.ldB a = d.ldB a) ∧ e.get F.PGF_STALE_EPOCH = min 65535 (d.get F.PGF_STALE_EPOCH + 1)
        else
          e.get F.PGF_REFCNT_TAKEN = (d.get F.PGF_REFCNT_TAKEN + 1) % 2 ^ 16 ∧ e.get F.ITK_IRQ_STAT_LINKREF = 1 ∧ 47 ∈ e.reps.map (fun r => r.src) ∧
          (rx.pkt.src, fieldLE b 4 4) ∈ e.pgf.taken ∧
          match d.itk.items.find? fun i => i.id == id && i.link == link with
          | some i =>
            (i.live = true → i.state < isFiring → i.stuck = false → d.drivesShared = true → MramGood d → d.findItem id = some i →
              (e.findItem id).map (fun j => (j.state, j.reason)) = some (isNotPrinted, 0x08)) ∧
            (i.live = false ∨ isFiring ≤ i.state ∨ d.drivesShared = false → e.get F.ITK_LINKCNT_COUNT = min (2 ^ 32 - 1) (d.get F.ITK_LINKCNT_COUNT + 1))
          | none => d.itk.items.any (fun i => i.id == id) = false → (link, id, d.c) ∈ e.itk.refusals)) ∧
  (∀ (s : State) (p : Fin 4) (rx : FabRx), Ends (.epoch p rx) s fun e =>
    let d := s.dev.atTime rx.t
    let b := rx.pkt.payload
    let k : FabPkt := { rx.pkt with ptype := 0x21 }
    let tag := fieldLE b 0 4
    let x := fieldLE b 4 4
    let old := (d.pgf.epochs.find? fun y => y.1 == tag).map fun y => y.2
    let own := d.get F.TWN_CFG_PAIR = 1 ∧ tag = (d.rd R.TWN_PAIRTAG).toNat ∧ later32 x (d.rd R.TWN_EPOCH).toNat = true
    FabArrives d e p rx 0x21 (
      if d.fportUp p = false then e = fabGot d p k
      else Forwarded d e p k ∧ (∀ a, e.ldB a = d.ldB a) ∧ e.pgf.epochs.length ≤ max 64 d.pgf.epochs.length ∧
        e.pgf.epochs.getLast? = some (tag, match old with | some o => if later32 x o then x else o | none => x) ∧
        (own → e.get F.PGF_IRQ_STAT_EPOCH = 1 ∧ e.get F.TWN_IRQ_STAT_EPOCH = 1) ∧
        (¬ own → e.itk = d.itk ∧ e.reps = d.reps ∧ e.rd R.PGF_IRQ_STAT = d.rd R.PGF_IRQ_STAT ∨ 31 ≤ k.hops))) ∧
  (∀ (s : State) (p : Fin 4) (rx : FabRx), Ends (.tsync p rx) s fun e =>
    let d := s.dev.atTime rx.t
    let b := rx.pkt.payload
    let t : Int := fieldLE b 0 6 * 1000000000 + fieldLE b 6 4 + (d.fport p).delay
    FabArrives d e p rx 0x04 (
      if d.pgf.parent ≠ some p.val then e = fabGot d p { rx.pkt with ptype := 0x04 }
      else e.pgf.offset = some (t - rx.t) ∧ e.itk = d.itk ∧ (d.get F.PGF_CFG_TIMESRC = 0 → e.regs = d.regs ∧ e.ptp = d.ptp) ∧
        (d.get F.PGF_CFG_TIMESRC = 1 → e.ptp.fabric = true))) ∧
  (∀ (s : State) (p : Fin 4) (rx : FabRx), Ends (.pdreq p rx) s fun e =>
    let d := s.dev.atTime rx.t
    FabArrives d e p rx 0x06 (
      FabSends d e p [0x07] ∧ (((e.fport p).queue.getLast?).map fun k => k.payload.take 10) = some (ptpBytes (d.fabTime rx.t)) ∧
      e = { d with pgf := { d.pgf with ports := e.pgf.ports } })) ∧
  (∀ (s : State) (p : Fin 4) (rx : FabRx), Ends (.pdresp p rx) s fun e =>
    let d := s.dev.atTime rx.t
    let b := rx.pkt.payload
    let t (o : Nat) : Int := fieldLE b o 6 * 1000000000 + fieldLE b (o + 6) 4
    FabArrives d e p rx 0x07 (
      match (d.fport p).t1 with
      | none => e = fabGot d p { rx.pkt with ptype := 0x07 }
      | some t1 => (e.fport p).delay = ((((rx.t : Int) - t1) - (t 10 - t 0)) / 2).toNat ∧ (e.fport p).t1 = none ∧
        e = { d with pgf := { d.pgf with ports := e.pgf.ports } })) ∧
  (∀ (s : State) (p : Fin 4) (rx : FabRx), Ends (.pgfVjp p rx) s fun e =>
    let d := s.dev.atTime rx.t
    FabArrives d e p rx 0x30 (VjpArrives d e p rx { rx.pkt with ptype := 0x30 })) ∧
  (∀ (s : State) (p : Fin 4) (rx : FabRx), Ends (.pgfVjpdata p rx) s fun e =>
    let d := s.dev.atTime rx.t
    FabArrives d e p rx 0x31 (VjpArrives d e p rx { rx.pkt with ptype := 0x31 }))

/-- R402, R407 to R410, R413 to R415. -/
def Obligations.FabricTimers : Prop :=
  (∀ s : State, Ends .rootadvTimer s fun e =>
    let d := s.dev
    (∀ q, q < 4 → FabSends d e q (if d.fportUp q then [0x03] else [])) ∧ e = { d with pgf := { d.pgf with ports := e.pgf.ports } }) ∧
  (∀ (s : State) (p : Fin 4), Ends (.rootadvAgeOut p) s fun e =>
    let d := s.dev
    match (d.fport p).adv with
    | none => e = d
    | some a =>
      let x := d.atTime (a.at' + 35000001)
      e.c = x.c ∧ e.itk = d.itk ∧ (d.get F.PGF_CFG_ENABLE = 1 → d.configDone = true → RootChosen x e x.adverts) ∧
      (d.get F.PGF_CFG_ENABLE = 0 → e = x)) ∧
  (∀ s : State, Ends .addrreqTimer s fun e =>
    let d := s.dev
    match d.pgf.parent with
    | none => e = d
    | some q =>
      if d.pgf.granted = false ∧ d.isRoot = false ∧ d.fportUp q = true ∧ q < 4 then
        FabSends d e q [0x10] ∧ e = { d with pgf := { d.pgf with ports := e.pgf.ports } } ∧
        (((e.fport q).queue.getLast?).map fun k => (fieldLE k.payload 0 16, fieldLE k.payload 16 2)) = some (d.uid % 2 ^ 128, d.wantAddr)
      else if q < 4 then e = d else True) ∧
  (∀ (s : State) (addr : Fin 2048), Ends (.addressFree addr) s fun e =>
    let d := s.dev
    match d.pgf.grants.find? fun g => g.addr == addr.val && g.uid != d.uid with
    | none => e = d
    | some g =>
      e.c = max d.c (g.heard + 1000000000) % 2 ^ 64 ∧ e.pgf.grants = d.pgf.grants.filter (fun x => x.addr ≠ addr.val) ∧
      e.pgf.topo = d.pgf.topo.filter (fun x => x.uid ≠ g.uid) ∧ Frame d e [R.PGF_MEMBERS] ∧ e.itk = d.itk ∧
      (d.isRoot = true → (e.rd R.PGF_MEMBERS).toNat % 2 ^ 16 = e.pgf.grants.length % 2 ^ 16)) ∧
  (∀ s : State, Ends .topoTimer s fun e =>
    let d := s.dev
    (∀ a, e.ldB a = d.ldB a) ∧ e.regs = d.regs ∧ e.itk = d.itk ∧ e.reps = d.reps ∧
    (d.get F.PGF_STAT_ADDRVALID = 0 → e = d) ∧
    (d.get F.PGF_STAT_ADDRVALID = 1 → d.isRoot = true → (e.pgf.topo.find? fun t => t.uid == d.uid && t.addr == d.get F.PGF_STAT_ADDR).isSome = true) ∧
    (d.get F.PGF_STAT_ADDRVALID = 1 → d.isRoot = false → e.pgf.topo = d.pgf.topo ∧ match d.pgf.parent with
      | some q => q < 4 → FabSends d e q (if d.fportUp q then [0x12] else [])
      | none => e = d)) ∧
  (∀ s : State, Ends .routeCompute s fun e =>
    let d := s.dev
    let l := d.pgf.topo
    let others := l.filter fun u => u.uid != d.uid
    let gen := ((if later32 (d.rd R.PGF_GEN).toNat d.pgf.gen then (d.rd R.PGF_GEN).toNat else d.pgf.gen) + 1) % 2 ^ 32
    if d.isRoot = false ∨ d.pgf.dirty = false then e = d
    else
      e.pgf.dirty = false ∧ e.pgf.gen = gen ∧ e.itk = d.itk ∧ (∀ a, e.ldB a = d.ldB a) ∧
      (∀ q, q < 4 → d.treePort q = true → FabSends d e q (List.replicate (8 * others.length) 0x14)) ∧
      (others.length = l.length → e.pgf.table = d.pgf.table) ∧
      (others.length + 1 = l.length → e.get F.PGF_STAT_TABLE = 1 ∧ (e.rd R.PGF_GEN).toNat = gen ∧ e.get F.PGF_IRQ_STAT_ROUTE = 1 ∧
        ((l.map fun t => t.addr).Nodup → ∀ u ∈ l, u.uid = d.uid → e.fabRoute u.addr = 4))) ∧
  (∀ s : State, Ends .routePartDiscard s fun e =>
    let d := s.dev
    match d.pgf.parts with
    | [] => e = d
    | x :: r =>
      let oldest := r.foldl (fun m y => min m y.2.2.2) x.2.2.2
      e.c = max d.c (oldest + 50000000) % 2 ^ 64 ∧ e.pgf.parts = d.pgf.parts.filter (fun y => e.c < y.2.2.2 + 50000000) ∧
      e = { d with c := e.c, pgf := { d.pgf with parts := e.pgf.parts } }) ∧
  (∀ (s : State) (refid : Nat), Ends (.refuseRepeat refid) s fun e =>
    let d := s.dev
    match d.pgf.refRepeat.find? fun r => r.2.2.2.1 == refid with
    | none => e = d
    | some (link, id, reason, r, left) =>
      let rest := d.pgf.refRepeat.filter fun x => x.2.2.2.1 != refid
      e.pgf.refRepeat = (if left ≤ 1 then rest else rest ++ [(link, id, reason, r, left - 1)]) ∧
      (∀ q, q < 4 → FabSends d e q (if d.treePort q then [0x20] else [])) ∧
      e = { d with pgf := { d.pgf with ports := e.pgf.ports, refRepeat := e.pgf.refRepeat } }) ∧
  (∀ s : State, Ends .epochBroadcastTimer s fun e =>
    let d := s.dev
    let can := d.get F.PGF_CFG_ENABLE = 1 ∧ (d.get F.TWN_STAT_ROLE = 1 ∨ d.get F.TWN_STAT_ROLE = 2)
    (∀ q, q < 4 → FabSends d e q (if can ∧ d.treePort q = true then [0x21] else [])) ∧ e = { d with pgf := { d.pgf with ports := e.pgf.ports } }) ∧
  (∀ s : State, Ends .tsyncTimer s fun e =>
    let d := s.dev
    let can := d.isRoot = true ∨ d.pgf.offset ≠ none
    (∀ q, q < 4 → FabSends d e q (if can ∧ d.fportUp q = true ∧ d.get (F.PGF_PORT_STAT_TREE q) = 2 then [0x04] else [])) ∧
    e = { d with pgf := { d.pgf with ports := e.pgf.ports } }) ∧
  (∀ s : State, Ends .pdreqTimer s fun e =>
    let d := s.dev
    (∀ q, q < 4 → FabSends d e q (if d.fportUp q then [0x06] else [])) ∧ e = { d with pgf := { d.pgf with ports := e.pgf.ports } })

/-- R444 to R446, R448 to R450. -/
def Obligations.DramCommands : Prop :=
  (∀ (s : State) (cls : Fin 4) (addr lat : Nat) (err : Fin 3), Ends (.dramRequest cls addr lat err) s fun e =>
    let d := s.dev
    let ch := d.dmcServes addr
    let slept := nth d.dmc.selfRef ch false
    let bound := 1000 + (if d.bit F.DMC_TRAINSTAT_RUN ch then 1500 else 0) + (if d.get F.DMC_FREQSTAT_STATE = 2 then 20000 else 0)
    let late := cls = 0 ∧ slept = false ∧ bound < lat
    let ecc := d.get F.DMC_CFG_ECC = 1
    if d.inDram addr 1 = false then e = d
    else
      nth e.dmc.selfRef ch false = false ∧ (∀ k, k ≠ ch → nth e.dmc.selfRef k false = nth d.dmc.selfRef k false) ∧
      Frame d e [R.DMC_RTLAT, R.DMC_IRQ_STAT, R.DMC_CECNT, R.DMC_UECNT, R.DMC_UEADDRLO, R.DMC_UEADDRHI] ∧
      e.get F.DMC_RTLAT_MAX = (if cls = 0 then min 65535 (max lat (d.get F.DMC_RTLAT_MAX)) else d.get F.DMC_RTLAT_MAX) ∧
      e.get F.DMC_RTLAT_OVER = (if late then min 65535 (d.get F.DMC_RTLAT_OVER + 1) else d.get F.DMC_RTLAT_OVER) ∧
      e.get F.DMC_CECNT_COUNT = (if ecc ∧ err = 1 then min (2 ^ 32 - 1) (d.get F.DMC_CECNT_COUNT + 1) else d.get F.DMC_CECNT_COUNT) ∧
      e.get F.DMC_UECNT_COUNT = (if ecc ∧ err = 2 then min (2 ^ 32 - 1) (d.get F.DMC_UECNT_COUNT + 1) else d.get F.DMC_UECNT_COUNT) ∧
      (ecc → err = 2 → d.get F.DMC_UEADDRHI_VALID = 0 → (e.rd R.DMC_UEADDRLO).toNat = addr % 2 ^ 32 ∧ e.get F.DMC_UEADDRHI_VALID = 1) ∧
      (¬ (ecc ∧ err = 2 ∧ d.get F.DMC_UEADDRHI_VALID = 0) → e.rd R.DMC_UEADDRLO = d.rd R.DMC_UEADDRLO ∧ e.rd R.DMC_UEADDRHI = d.rd R.DMC_UEADDRHI) ∧
      Reports d e ((if late then [171] else []) ++ if ecc ∧ err = 2 then [169] else [])) ∧
  (∀ (s : State) (ch : Fin 8) (rank : Fin 2) (bank : Fin 16) (rt : Bool), Ends (.refresh ch rank bank rt) s fun e =>
    let d := s.dev
    let k := ch.val * 64 + rank.val * 16 + bank.val
    e = { d with dmc := { d.dmc with late := e.dmc.late } } ∧ spGet 0 e.dmc.late k = if rt then min 8 (spGet 0 d.dmc.late k + 1) else 0) ∧
  (∀ (s : State) (codes : List Nat), Ends (.mr4Poll codes) s fun e =>
    let d := s.dev
    let hot := d.dmcChans.any fun c => decide (c < 8) && nth codes c 0 % 32 == 31
    Frame d e [R.DMC_TEMP, R.DMC_IRQ_STAT] ∧ (∀ c, c < 8 → nth e.dmc.mr4 c 0 = if d.dmcChans.contains c then nth codes c 0 % 256 else 0) ∧
    (∀ c, c < 8 → nth e.dmc.mr4 c 0 ≤ e.get F.DMC_TEMP_MR4) ∧ Reports d e (if hot then [172] else []) ∧
    (hot → e.get F.DMC_IRQ_STAT_TEMP = 1) ∧ (¬ hot → e.rd R.DMC_IRQ_STAT = d.rd R.DMC_IRQ_STAT)) ∧
  (∀ (s : State) (ch : Fin 8), Ends (.selfRefreshEntry ch) s fun e =>
    let d := s.dev
    if d.get F.DMC_PWR_SRIDLE ≠ 0 ∧ d.st? ≠ stPrinting ∧ ch.val ∈ d.dmcChans then
      e = { d with dmc := { d.dmc with selfRef := e.dmc.selfRef } } ∧ e.dmc.selfRef.length = d.dmc.selfRef.length ∧
      ∀ k, k < d.dmc.selfRef.length → nth e.dmc.selfRef k false = (nth d.dmc.selfRef k false || k == ch.val)
    else e = d) ∧
  (∀ (s : State) (ch : Fin 8) (drift : Bool), Ends (.dramRetrainCheck ch drift) s fun e =>
    let d := s.dev
    let on := (d.st? = stReady ∨ d.st? = stPrinting ∨ d.st? = stSafe ∧ stReady ≤ d.get F.FLT_SAFESTAT_FROM)
    if on ∧ drift = true ∧ d.get F.DMC_TRAINSTAT_RUN = 0 ∧ ch.val ∈ d.dmcChans then
      e.get F.DMC_TRAINSTAT_RUN = 2 ^ ch.val ∧ Frame d e [R.DMC_TRAINSTAT] ∧ e = { d with regs := e.regs }
    else e = d) ∧
  (∀ (s : State) (fail : Bool), Ends (.dramRetrainDone fail) s fun e =>
    let d := s.dev
    let x := { d with regs := e.regs }
    if d.get F.DMC_TRAINSTAT_RUN = 0 then e = d
    else
      e.get F.DMC_TRAINSTAT_RUN = 0 ∧ Frame d e [R.DMC_TRAINSTAT, R.DMC_FREQSTAT, R.DMC_IRQ_STAT] ∧ Reports d e (if fail then [173] else []) ∧
      (fail = true → e.get F.DMC_IRQ_STAT_RETRAIN = 1) ∧ e.get F.DMC_FREQSTAT_CUR = d.get F.DMC_FREQSTAT_CUR ∧
      match d.dmc.freq with
      | some (sp, _) =>
        if d.get F.DMC_FREQSTAT_STATE ≠ 1 then e.rd R.DMC_FREQSTAT = d.rd R.DMC_FREQSTAT ∧ e.dmc = d.dmc
        else if fail = true ∨ d.freqCheck sp true ≠ sOk then
          e.get F.DMC_FREQSTAT_STATE = 0 ∧ e.get F.DMC_FREQSTAT_CODE = sBadState ∧ e.get F.DMC_IRQ_STAT_FREQ = 1 ∧ e.dmc = { d.dmc with freq := none }
        else e.get F.DMC_FREQSTAT_STATE = 2 ∧ e = x
      | none => e.rd R.DMC_FREQSTAT = d.rd R.DMC_FREQSTAT ∧ e.dmc = d.dmc) ∧
  (∀ (s : State) (relock : Bool), Ends (.freqChangeDone relock) s fun e =>
    let d := s.dev
    match d.dmc.freq with
    | none => e = d
    | some (sp, _) =>
      if d.get F.DMC_FREQSTAT_STATE ≠ 2 then e = d
      else e.get F.DMC_FREQSTAT_STATE = 0 ∧ e.get F.DMC_IRQ_STAT_FREQ = 1 ∧ e.dmc = { d.dmc with freq := none } ∧
        Frame d e [R.DMC_FREQSTAT, R.DMC_IRQ_STAT] ∧ Reports d e (if relock then [] else [174]) ∧
        (relock = true → e.get F.DMC_FREQSTAT_CUR = sp % 4 ∧ e.get F.DMC_FREQSTAT_CODE = sOk)) ∧
  (∀ (s : State) (err : Fin 3), Ends (.dramScrub err) s fun e =>
    let d := s.dev
    let bad := d.get F.DMC_UEADDRHI_VALID = 0 ∧ err = 2
    if d.get F.DMC_SCRUB_HOURS ≠ 0 ∧ d.get F.DMC_CFG_ECC = 1 then
      e.dmc.scrubAt = (d.dmc.scrubAt + 64) % max 64 d.dramSize ∧ Reports d e (if err = 2 then [169] else []) ∧
      Frame d e [R.DMC_CECNT, R.DMC_UECNT, R.DMC_UEADDRLO, R.DMC_UEADDRHI, R.DMC_IRQ_STAT] ∧ e.dmc.ce = d.dmc.ce + (if err = 1 then 1 else 0) ∧
      (bad → (e.rd R.DMC_UEADDRLO).toNat = (dramBase + d.dmc.scrubAt) % 2 ^ 32)
    else e = d) ∧
  (∀ s : State, Ends .ceRateWindow s fun e =>
    let d := s.dev
    let many := d.get F.DMC_CETHR_PERSEC ≠ 0 ∧ d.get F.DMC_CETHR_PERSEC < d.dmc.ce
    e.dmc = { d.dmc with ce := 0 } ∧ Reports d e (if many then [170] else []) ∧ Frame d e [R.DMC_IRQ_STAT] ∧
    (many → e.get F.DMC_IRQ_STAT_CE = 1) ∧ (¬ many → e.rd R.DMC_IRQ_STAT = d.rd R.DMC_IRQ_STAT))

/-- R453 to R457. -/
def Obligations.DmaCommands : Prop :=
  (∀ (s : State) (err : Bool), Ends (.dmaDescriptorFetch err) s fun e =>
    let d := s.dev
    if d.get F.DMA_STAT_STOPPED = 1 ∨ d.dma.pre ≠ none then e = d
    else match d.dmaOrder.find? d.dmaOwns with
      | none => (∀ a, e.ldB a = d.ldB a) ∧ e.dma = d.dma ∧ e.reps = d.reps
      | some c =>
        let a := d.dmaEntry c (d.dmaNext c)
        let x : DmaDesc := { ch := c, at' := a, src := d.ld a 8, dst := d.ld (a + 8) 8, len := d.ld (a + 16) 4, flags := d.ld (a + 20) 1 }
        if err = true then DmaStopped d e c ∧ (∀ a, e.ldB a = d.ldB a) ∧ e.dma = d.dma
        else if d.dma.run ≠ none ∧ bitB x.flags 1 = true then (∀ a, e.ldB a = d.ldB a) ∧ e.dma = d.dma ∧ e.reps = d.reps
        else if x.len = 0 ∨ 16777216 < x.len ∨ 16 ≤ x.flags ∨ d.ldB (a + 23) ≠ 0 ∨ (inSram x.dst x.len || d.inDram x.dst x.len) = false ∨
            bitB x.flags 3 = false ∧ ((inSram x.src x.len || d.inDram x.src x.len) = false ∨ rangesMeet x.src x.len x.dst x.len = true) then
          DmaStopped d e c ∧ DmaBack d e x 2 sBadValue 0 ∧ e.dma = d.dma
        else (∀ a, e.ldB a = d.ldB a) ∧ e.reps = d.reps ∧
          if d.dma.run ≠ none then e.dma = { d.dma with pre := some x }
          else e.dma = { d.dma with run := some x } ∧ e.get F.DMA_STAT_CUR = c ∧ e.get F.DMA_STAT_BUSY = 1) ∧
  (∀ s : State, Ends .dmaWriteback s fun e =>
    let d := s.dev
    match d.dma.run with
    | none => e = d
    | some x =>
      let m := d.stBs x.dst (d.dmaData x x.len).1
      let own := bitB (m.ld (x.at' + 20) 1) 0
      ((e.dma.run.map fun y => { y with race := x.race }) = d.dma.pre.map fun y => { y with race := x.race }) ∧ e.dma.pre = none ∧
      DmaBack m e x (if own then 1 else 2) (if own then sOk else sBadValue) (if own then x.len else 0) ∧
      (if own then e.reps = d.reps else DmaStopped d e x.ch)) ∧
  (∀ (s : State) (kind : Fin 3) (count : Nat), Ends (.dmaBusError kind count) s fun e =>
    let d := s.dev
    let wrote (x : DmaDesc) (n : Nat) : Prop :=
      e.ld (x.at' + 24) 4 = n ∧ e.ld (x.at' + 21) 1 = 2 ∧ e.ld (x.at' + 22) 1 = sIntegrity ∧
      ∀ a, (a < x.dst ∨ x.dst + x.len ≤ a) → (a < x.at' + 20 ∨ x.at' + 28 ≤ a) → e.ldB a = d.ldB a
    if kind = 0 ∧ d.dma.pre = none then
      match d.dma.run with
      | none => e = d
      | some x => x.len < 2 ^ 32 → DmaStopped d e x.ch ∧ e.dma = {} ∧ wrote x (min count x.len)
    else match d.dma.run with
      | none =>
        (kind ≠ 2 → e = d) ∧ (kind = 2 → Reports d e [178, 176] ∧ e.get F.DMA_STAT_STOPPED = 1 ∧ e.get F.DMA_IRQ_STAT_ECC = 1 ∧ ∀ a, e.ldB a = d.ldB a)
      | some x =>
        e.dma = {} ∧ e.get F.DMA_STAT_STOPPED = 1 ∧ e.get F.DMA_IRQ_STAT_STOPPED = 1 ∧ e.get F.DMA_STAT_ERRCH = x.ch % 16 ∧ e.get F.DMA_STAT_CODE = sIntegrity ∧
        (∀ c : Fin 16, d.get (F.DMA_CH_CFG_ENABLE c) = 1 → e.get (F.DMA_CH_STAT_STATE c) = 2) ∧
        Reports d e (if kind = 2 then [178, 176] else [176]) ∧ (x.len < 2 ^ 32 → wrote x x.len))

/-- R375 to R380, R385, R389, R390, R393. -/
def Obligations.TwinLinkAndTimers : Prop :=
  (∀ (s : State) (mseq : Fin 65536), Ends (.mack mseq) s fun e =>
    let d := s.dev
    let x := twnHeardBy d
    e = if d.get F.TWN_CFG_PAIR = 1 then { x with twn := { x.twn with unacked := d.twn.unacked.filter fun m => m.1 ≠ mseq.val } } else d) ∧
  (∀ (s : State) (mseq : Fin 65536), Ends (.mnak mseq) s fun e =>
    let d := s.dev
    let x := twnHeardBy d
    if d.get F.TWN_CFG_PAIR = 0 then e = d
    else match d.twn.unacked.find? fun m => m.1 == mseq.val with
      | some (_, ty, body) => e = { x with out := .twn ty (mseq.val :: body) :: d.out }
      | none => e = x) ∧
  (∀ (s : State) (mseq : Fin 65536), Ends (.messageResendTimer mseq) s fun e =>
    let d := s.dev
    match d.twn.unacked.find? fun m => m.1 == mseq.val with
    | some (_, ty, body) => e = { d with out := .twn ty (mseq.val :: body) :: d.out }
    | none => e = d) ∧
  (∀ (s : State) (frame : Nat), Ends (.sidebandFrame frame) s fun e =>
    let d := s.dev
    let r := frame / 2 ^ 53 % 8
    let h := frame / 2 ^ 13 % 256
    let ok := d.twn.hello.any fun h => decide (Rejoins d r h.tag h.seq)
    if d.get F.TWN_CFG_PAIR = 0 ∨ frame / 2 ^ 56 % 256 ≠ 0x5A ∨ frame % 256 ≠ wordCrc (frame % 2 ^ 64) then e = d
    else
      PartnerShows d e r (frame / 2 ^ 21 % 2 ^ 32) ∧ e.get healthBits = h ∧ e.twn.phC = d.c ∧
      (d.get healthBits ≠ h → e.get F.TWN_IRQ_STAT_PHEALTH = 1) ∧
      (d.role = roleFenced → e.role = if ok then roleSyncing else roleFenced)) ∧
  (∀ s : State, Ends .sidebandSend s fun e =>
    let d := s.dev
    let ill := d.role = roleStandby ∧ (d.health % 8 ≠ 0 ∨ 128 ≤ d.health)
    let w (r : Nat) : Nat := 0x5A * 2 ^ 56 + r * 2 ^ 53 + (d.rd R.TWN_EPOCH).toNat * 2 ^ 21 + d.health * 2 ^ 13
    if d.get F.TWN_CFG_PAIR = 0 then e = d
    else if ill then Fenced d e ∧ e.out.head? = some (.twn 0x100 [w roleFenced + wordCrc (w roleFenced)])
    else e = { d with out := .twn 0x100 [w d.role + wordCrc (w d.role)] :: d.out }) ∧
  (∀ s : State, Ends .aliveLost s fun e =>
    let d := s.dev
    let x := { d with twn := { d.twn with aliveC := d.c - 80 } }
    if d.get F.TWN_CFG_PAIR = 0 ∨ d.get F.TWN_STAT_PALIVE = 0 then e = d
    else
      e.get F.TWN_STAT_PALIVE = 0 ∧ e.get F.TWN_IRQ_STAT_PALIVE = 1 ∧ e.twn.aliveC = d.c - 80 ∧
      (d.twn.silent = false → Frame d e [R.TWN_STAT, R.TWN_IRQ_STAT] ∧ e.role = d.role ∧ Reports d e (if d.get F.TWN_STAT_LINKUP = 1 then [37] else [])) ∧
      (d.twn.silent = true → d.role = roleStandby → TakesOver x e 1 []) ∧
      (d.twn.silent = true → d.role = roleActive → e.role = roleActive ∧ e.get F.TWN_STAT_ALONE = 1 ∧ e.reps = d.reps) ∧
      (d.twn.silent = true → d.role ≠ roleStandby → d.role ≠ roleActive → e.role = d.role ∧ e.reps = d.reps)) ∧
  (∀ s : State, Ends .aliveRegained s fun e =>
    let d := s.dev
    if d.get F.TWN_CFG_PAIR = 0 ∨ d.get F.TWN_STAT_PALIVE = 1 then e = d
    else e.get F.TWN_STAT_PALIVE = 1 ∧ e.get F.TWN_IRQ_STAT_PALIVE = 1 ∧ e = { d with regs := e.regs } ∧ Frame d e [R.TWN_STAT, R.TWN_IRQ_STAT]) ∧
  (∀ s : State, Ends .twinLinkSilent s fun e =>
    let d := s.dev
    let alive := d.get F.TWN_STAT_PALIVE = 1
    if d.get F.TWN_CFG_PAIR = 0 ∨ d.twn.silent = true then e = d
    else
      e.twn.silent = true ∧ e.twn.silentC = d.c ∧ e.get F.TWN_STAT_LINKUP = 0 ∧ e.get F.TWN_IRQ_STAT_LINK = 1 ∧ 36 ∈ e.reps.map (fun r => r.src) ∧
      (d.role = roleSyncing → Fenced d e) ∧ (d.role = roleStandby → ¬ alive → TakesOver d e 1 []) ∧
      (d.role = roleStandby → alive → e.role = roleStandby ∧ Reports d e [36]) ∧
      (d.role = roleActive → ¬ alive → e.role = roleActive ∧ e.get F.TWN_STAT_ALONE = 1 ∧ Reports d e [36]) ∧
      (d.role = roleActive → alive → d.get F.TWN_STAT_ALONE = 0 → e.get F.TWN_STAT_ACCHOLD = 1 ∧ Reports d e [36])) ∧
  (∀ s : State, Ends .standbyLinkTimeout s fun e =>
    let d := s.dev
    if d.role = roleStandby ∧ d.twn.silent = true then
      Fenced d e ∧ Reports d e [40] ∧ e.c = max d.c (d.twn.silentC + 100000 * d.get F.TWN_CFG_LINKTO) % 2 ^ 64
    else e = d) ∧
  (∀ s : State, Ends .replicationTimeout s fun e =>
    let d := s.dev
    if d.role = roleActive ∧ d.get F.TWN_STAT_ALONE = 0 ∧ d.twn.silent = false ∧ d.twn.jackWait ≠ [] then
      e.out = .twn 0x41 [d.twn.mseq, d.epoch] :: d.out ∧ e.get F.TWN_STAT_ALONE = 1 ∧ e.get F.TWN_STAT_ACCHOLD = 0 ∧ e.twn.jackWait = [] ∧
      e.role = roleActive ∧ Reports d e [42] ∧ Frame d e [R.TWN_STAT]
    else e = d) ∧
  (∀ s : State, Ends .formwaitExpiry s fun e =>
    let d := s.dev
    let ep := (d.rd R.TWN_EPOCH).toNat
    let older := d.epochsSeen.any fun x => decide (0 < (x + 65536 - ep % 65536) % 65536 ∧ (x + 65536 - ep % 65536) % 65536 < 32768)
    if d.get F.TWN_CFG_PAIR = 1 ∧ d.running = true ∧ d.role = roleFenced ∧ d.twn.starting = true ∧ d.get F.TWN_STAT_LINKUP = 0 ∧ d.get F.TWN_STAT_PALIVE = 0 then
      if d.lastRole = roleActive ∧ older = false then ActiveNow d e (1 + (d.get F.TWN_PEPOCH_EPOCH :: d.epochsSeen).foldl max ep)
      else e = { d with twn := { d.twn with starting := false } }
    else e = d) ∧
  (∀ s : State, Ends .twnHelloSend s fun e =>
    let d := s.dev
    let m := [d.sec.fuses.uid, d.role, d.get F.TWN_CFG_SIDE, d.lastRole, 0, d.epoch, d.cfg.seq, (d.rd R.TWN_PAIRTAG).toNat, d.gen]
    if d.get F.TWN_CFG_PAIR = 0 then e = d
    else e.out = .twn 0x01 (d.twn.mseq :: m) :: d.out ∧ e.twn = { d.twn with mseq := (d.twn.mseq + 1) % 2 ^ 16, unacked := d.twn.unacked ++ [(d.twn.mseq, 0x01, m)] } ∧
      e = { d with out := e.out, twn := e.twn }) ∧
  (∀ s : State, Ends .twnHealthSend s fun e =>
    let d := s.dev
    let ill := d.role = roleStandby ∧ (d.health % 8 ≠ 0 ∨ 128 ≤ d.health)
    let x := d.health
    if d.get F.TWN_CFG_PAIR = 0 then e = d
    else
      (match e.out.head? with
        | some (.twn ty l) => ty = 0x02 ∧ l.take 2 = [d.twn.mseq, x] ∧ l.length = 10 ∧
          (∀ k, k < 4 → nth l (2 + 2 * k) 0 = ux 64 (d.enc k).raw)
        | _ => False) ∧
      (ill → Fenced d e) ∧ (¬ ill → e = { d with out := e.out, twn := e.twn })) ∧
  (∀ (s : State) (b : Bool), Ends (.memoryScrub b) s fun e =>
    let d := s.dev
    let c := (d.role = roleStandby)
    e.get F.TWN_HEALTH_SCRUB = (if b then 1 else 0) ∧ e.itk = d.itk ∧ (c → b = true → Fenced d e) ∧
    (¬ c → Frame d e [R.TWN_HEALTH] ∧ e = { d with regs := e.regs })) ∧
  (∀ (s : State) (pattern : Nat), Ends (.mramTest pattern) s fun e =>
    let d := s.dev
    let c := (d.role = roleStandby)
    (d.mramBad = [] → d.sys.powerFail = false → e.get F.TWN_HEALTH_MRAM = 0 ∧ (¬ c → e.mrd dwTest = pattern % 2 ^ 64)) ∧
    (∀ a, a < dwTest ∨ dwTest + 8 ≤ a → ¬ c → e.ldB a = d.ldB a) ∧ e.itk = d.itk ∧
    (c → e.get F.TWN_HEALTH_MRAM = 1 → Fenced d e)) ∧
  (∀ (s : State) (b : Bool), Ends (.macSelfTest b) s fun e =>
    let d := s.dev
    let c := (d.role = roleStandby)
    e.get F.TWN_HEALTH_MAC = (if b then 1 else 0) ∧ e.itk = d.itk ∧ (c → b = true → Fenced d e) ∧
    (¬ c → Frame d e [R.TWN_HEALTH] ∧ e = { d with regs := e.regs }))

/-- R376, R379, R380, R383, R386 to R390, R392, R393. -/
def Obligations.TwinRoles : Prop :=
  (∀ (s : State) (epoch role : Nat), Ends (.twidle epoch role) s fun e =>
    let d := s.dev
    let x := twnHeardBy d
    let ok := d.twn.hello.any fun h => decide (Rejoins x (role % 8) h.tag h.seq)
    if d.get F.TWN_CFG_PAIR = 0 then e = d
    else PartnerShows x e (role % 8) (epoch % 2 ^ 32) ∧ e.twn.silent = false ∧ (d.role = roleFenced → e.role = if ok then roleSyncing else roleFenced)) ∧
  (∀ (s : State) (role side last epoch seq tag gen : Nat), Ends (.twnHello role side last epoch seq tag gen) s fun e =>
    let d := s.dev
    let x := (twnGot d).put F.TWN_STAT_LINKUP 1
    let h : TwHello := { role := role, side := side, last := last, epoch := epoch, seq := seq, tag := tag, gen := gen }
    let ep := (d.rd R.TWN_EPOCH).toNat
    let first := (d.lastRole = roleActive ∧ last ≠ roleActive) ∨ ((d.lastRole = roleActive ↔ last = roleActive) ∧
      (epoch < ep ∨ epoch = ep ∧ (gen < d.gen ∨ gen = d.gen ∧ d.get F.TWN_CFG_SIDE = 0)))
    if d.get F.TWN_CFG_PAIR = 0 then e = d
    else
      e.twn.hello = some h ∧ e.get F.TWN_STAT_LINKUP = 1 ∧ (d.get F.TWN_STAT_LINKUP = 0 → e.get F.TWN_IRQ_STAT_LINK = 1) ∧
      (d.role ≠ roleFenced → (d.running = true → d.twn.starting = false) → PartnerShows x e (role % 8) (epoch % 2 ^ 32)) ∧
      (d.role = roleFenced → ¬ (d.running = true ∧ d.twn.starting = true) → e.role = if Rejoins x (role % 8) tag seq then roleSyncing else roleFenced) ∧
      (d.role = roleFenced → d.running = true → d.twn.starting = true →
        if tag ≠ (d.rd R.TWN_PAIRTAG).toNat ∨ seq ≠ d.cfg.seq then
          e.role = roleFenced ∧ e.twn.starting = true ∧ Reports d e (if d.twn.hello = some h then [] else [41])
        else if role = roleActive then e.role = roleSyncing ∧ e.get F.TWN_STAT_SYNCSTEP = 0 ∧ e.twn.starting = false
        else if role = roleFenced then
          if first then ActiveNow d e (1 + (epoch :: d.epochsSeen).foldl max ep) else e.role = roleSyncing ∧ e.get F.TWN_STAT_SYNCSTEP = 0 ∧ e.twn.starting = false
        else e.role = roleFenced ∧ e.reps = d.reps)) ∧
  (∀ (s : State) (health : Nat) (encs : List (Int × Int)), Ends (.twnHealth health encs) s fun e =>
    let d := s.dev
    let x := twnGot d
    let bad := (List.range (min 4 encs.length)).filter fun k =>
      d.encOn k && (d.enc k).raw == (nth encs k (0, 0)).1 &&
      decide (d.encScale k < ((nth encs k (0, 0)).2 - (x.pairH k / 2 ^ 16 : Nat)).natAbs * 2 ^ 16)
    if d.get F.TWN_CFG_PAIR = 0 then e = d
    else
      e.get healthBits = health % 256 ∧ e.twn.phC = d.c ∧ (d.get healthBits ≠ health % 256 → e.get F.TWN_IRQ_STAT_PHEALTH = 1) ∧
      (d.role = roleStandby → e.get F.TWN_DIVCNT_COUNT = min (2 ^ 32 - 1) (d.get F.TWN_DIVCNT_COUNT + bad.length) ∧
        (bad = [] → e.reps = d.reps ∧ e.twn.diag = d.twn.diag) ∧ (bad ≠ [] → e.get F.TWN_STAT_DIAG = 1 ∨ d.twn.diag ≠ none)) ∧
      (d.role ≠ roleStandby → e.get F.TWN_DIVCNT_COUNT = d.get F.TWN_DIVCNT_COUNT ∧ e.reps = d.reps) ∧
      (d.role ≠ roleStandby → d.role ≠ roleFenced → e.role = d.role)) ∧
  (∀ (s : State) (head : Fin 64) (count sig : Nat), Ends (.twnSig head count sig) s fun e =>
    let d := s.dev
    let x := twnGot d
    let c := count % 2 ^ 32
    let key (y : Nat × Nat × Nat) : Bool := y.1 == head.val && y.2.1 == c
    let signs := (d.role = roleActive ∧ d.get F.TWN_STAT_ALONE = 0) ∨ d.role = roleStandby ∨ d.role = roleSyncing ∧ d.get F.TWN_STAT_SYNCSTEP = 2
    if d.get F.TWN_CFG_PAIR = 0 then e = d
    else if d.role = roleSyncing ∧ ((d.head head).queue = [] ∨ head.val / 8 ∉ d.twn.cut) then
      (e.head head).formed = max (d.head head).formed c ∧ e = { x with fir := { d.fir with heads := e.fir.heads } } ∧ ∀ h, h ≠ head.val → e.head h = d.head h
    else if ¬ signs then e = x
    else match d.twn.own.find? key with
      | none => e = { x with twn := { x.twn with peer := d.twn.peer ++ [(head.val, c, sig % 2 ^ 32)] } }
      | some m =>
        let his := ((d.twn.peer ++ [(head.val, c, sig % 2 ^ 32)]).find? key).map fun (y : Nat × Nat × Nat) => y.2.2
        e.get F.TWN_SIGCNT_COUNT = (d.get F.TWN_SIGCNT_COUNT + 1) % 2 ^ 32 ∧ e.twn.own = d.twn.own.filter (fun y => !(key y)) ∧ e.twn.peer = d.twn.peer.filter (fun y => !(key y)) ∧
        if his = some m.2.2 then (head.val, d.c) ∈ e.twn.matched ∧ e.reps = d.reps ∧ e.twn.divs = d.twn.divs
        else Diverges x e head c (d.panItems head c)) ∧
  (∀ (s : State) (head : Fin 64) (count : Nat), Ends (.sigTimeout head count) s fun e =>
    let d := s.dev
    let key (y : Nat × Nat × Nat) : Bool := y.1 == head.val && y.2.1 == count % 2 ^ 32
    let due := (d.role = roleActive ∧ d.get F.TWN_STAT_ALONE = 0 ∧ d.get F.TWN_STAT_PROLE = roleStandby) ∨ d.role = roleStandby
    if d.twn.own.any key = true ∧ due then
      Diverges d e head (count % 2 ^ 32) (d.panItems head count) ∧ e.twn.own = d.twn.own.filter fun y => !(key y)
    else e = d) ∧
  (∀ (s : State) (scrub slot : Bool), Ends (.diagnosisComplete scrub slot) s fun e =>
    let d := s.dev
    match d.twn.diag with
    | none => e = d
    | some g =>
      let n := g.head / 8
      let cause (k : Nat) : Bool := decide ((52 ≤ k ∧ k ≤ 55) ∨ (64 ≤ k ∧ k ≤ 68) ∨ (80 ≤ k ∧ k ≤ 83) ∨ (96 ≤ k ∧ k ≤ 99) ∨ k = 104 + 2 * n ∨ k = 105 + 2 * n ∨ (120 ≤ k ∧ k ≤ 127))
      let since := ((d.twn.matched.find? fun y => y.1 == g.head).map fun y => y.2).getD 0
      let fail := scrub || slot || d.twn.raised.any fun y => cause y.1 && decide (since ≤ y.2)
      if g.own ≠ none then e = d
      else
        (d.twn.mseq, 0x31, [g.head, g.count, if fail then 1 else 0]) ∈ e.twn.unacked ∧
        match g.peer with
        | none => e.twn.diag = some { g with own := some (!fail) } ∧ e.regs = d.regs ∧ e.reps = d.reps
        | some his => Diagnosed d e (!fail) his) ∧
  (∀ (s : State) (head : Fin 64) (count : Nat) (failed : Bool), Ends (.twnDiag head count failed) s fun e =>
    let d := s.dev
    let x := twnGot d
    let c := count % 2 ^ 32
    if d.get F.TWN_CFG_PAIR = 0 then e = d
    else match d.twn.diag with
      | none =>
        if d.role = roleActive ∨ d.role = roleStandby then Diverges x e head c (d.panItems head c) ∧ e.twn.diag.map (fun g => g.peer) = some (some (!failed))
        else e = x
      | some g => match g.own with
        | none => e = { x with twn := { x.twn with diag := some { g with peer := some (!failed) } } }
        | some mine => Diagnosed x e mine (!failed)) ∧
  (∀ (s : State) (cause : Fin 8) (counts : List Nat), Ends (.resign cause counts) s fun e =>
    let d := s.dev
    let x := twnGot d
    let ids := if cause = 2 then ((d.twn.divs.filter fun y => decide (y.2.1 < nth counts y.1 0)).map fun y => y.2.2).flatten else []
    if d.get F.TWN_CFG_PAIR = 0 then e = d
    else if d.role = roleSyncing then Fenced d e ∧ Reports d e [36, 40]
    else if d.role = roleStandby then TakesOver x e cause ids ∧ e.get F.TWN_STAT_PROLE = roleFenced
    else e = x) ∧
  (∀ (s : State) (epoch : Nat), Ends (.fence epoch) s fun e =>
    let d := s.dev
    let later := later32 (epoch % 2 ^ 32) (d.rd R.TWN_EPOCH).toNat = true
    if d.get F.TWN_CFG_PAIR = 0 then e = d
    else
      (d.role = roleStandby ∨ d.role = roleSyncing ∨ later → Fenced d e) ∧ (later → e.get F.TWN_IRQ_STAT_EPOCH = 1) ∧
      (¬ later → d.role ≠ roleStandby → d.role ≠ roleSyncing → e = twnGot d))

/-- R380 to R382, R384. -/
def Obligations.TwinReplication : Prop :=
  (∀ (s : State) (x : TwInput), Ends (.twnInput x) s fun e =>
    let d := s.dev
    let h := if x.kind = 4 then x.unit else 8 * x.unit
    let due := x.count = 0 ∨ x.count ≤ (d.head h).formed + 1
    if d.get F.TWN_CFG_PAIR = 0 then e = d
    else if d.role ≠ roleStandby ∧ d.role ≠ roleSyncing then e = twnGot d
    else if due then e = (twnGot d).applyInput x
    else e = { twnGot d with twn := { (twnGot d).twn with inputs := d.twn.inputs ++ [x] } }) ∧
  (∀ (s : State) (slot : Fin 49152) (rec : List Byte), Ends (.jrec slot rec) s fun e =>
    let d := s.dev
    if d.get F.TWN_CFG_PAIR = 0 then e = d
    else if d.role ≠ roleStandby ∧ d.role ≠ roleSyncing then e = twnGot d
    else
      (match e.out.head? with
        | some (.twn ty l) => ty = 0x13 ∧ l.take 2 = [d.twn.mseq, slot.val] ∧ (d.mramBad = [] → d.sys.powerFail = false → l = [d.twn.mseq, slot.val, sOk])
        | _ => False) ∧
      (d.mramBad = [] → d.sys.powerFail = false → e.itk.lastSlot = slot.val ∧ e.inUse slot = true ∧ e.recOk slot = true ∧ (e.recItem slot).id = fieldLE rec 0 8 ∧
        (e.itk.items.filter fun i => i.slot == slot.val).map (fun i => i.id) = [fieldLE rec 0 8])) ∧
  (∀ (s : State) (slot : Fin 49152) (final : Nat), Ends (.jfin slot final) s fun e =>
    let d := s.dev
    if d.get F.TWN_CFG_PAIR = 0 then e = d
    else if d.role ≠ roleStandby ∧ d.role ≠ roleSyncing then e = twnGot d
    else
      (d.mramBad = [] → d.sys.powerFail = false → (d.twn.mseq, 0x13, [slot.val, sOk]) ∈ e.twn.unacked) ∧
      match d.itk.items.find? fun i => i.slot == slot.val with
      | none => (d.mramBad = [] → d.sys.powerFail = false → e.finalWord slot = final % 2 ^ 64) ∧ e.itk.items = d.itk.items
      | some i => i.live = true → i.stuck = false → d.findItem i.id = some i → d.mramBad = [] → d.sys.powerFail = false →
        (e.findItem i.id).map (fun j => (j.state, j.reason, j.defects)) = some (final % 256, final / 256 % 256, final / 2 ^ 16 % 2 ^ 16) ∧
        (i.entered = false → ∀ h, h < 64 → ∀ l ∈ (e.head h).queue, l.item ≠ i.id)) ∧
  (∀ (s : State) (slots : List (Fin 49152)), Ends (.jret slots) s fun e =>
    let d := s.dev
    if d.get F.TWN_CFG_PAIR = 0 then e = d
    else if d.role ≠ roleStandby ∧ d.role ≠ roleSyncing then e = twnGot d
    else (d.mramBad = [] → d.sys.powerFail = false → ∀ n ∈ slots, (d.itk.items.filter fun i => i.slot == n.val).length ≤ 1 → e.inUse n = false)) ∧
  (∀ (s : State) (slot : Fin 49152) (status : Nat), Ends (.jack slot status) s fun e =>
    let d := s.dev
    if d.get F.TWN_CFG_PAIR = 0 then e = d
    else if d.role = roleActive ∧ status % 256 = sOk then
      e.twn.jackWait = d.twn.jackWait.erase slot.val ∧ (∀ r ∈ e.itk.receiving, r.item.slot = slot.val → r.jacked = true) ∧
      (∀ i ∈ e.itk.items, i.slot = slot.val → i.live = false → i.finalJacked = true) ∧
      e = { twnGot d with itk := { d.itk with receiving := e.itk.receiving, items := e.itk.items }, twn := { (twnGot d).twn with jackWait := e.twn.jackWait } }
    else e = twnGot d) ∧
  (∀ (s : State) (body : List Byte), Ends (.twnPage body) s fun e =>
    let d := s.dev
    if d.get F.TWN_CFG_PAIR = 0 then e = d
    else if (d.role = roleStandby ∨ d.role = roleSyncing) ∧ d.get F.TWN_CFG_DATAPATH = 0 ∧ 16 ≤ body.length then
      e = ((twnGot d).takeData (0, 2 ^ 32, 0) body).2
    else e = twnGot d) ∧
  (∀ (s : State) (c : TwCopy), Ends (.twnCopy c) s fun e =>
    let d := s.dev
    let step := d.get F.TWN_STAT_SYNCSTEP
    if d.get F.TWN_CFG_PAIR = 0 then e = d
    else if d.role ≠ roleSyncing ∨ 2 ≤ step then e = twnGot d
    else if c.region = 255 then
      (e.rd R.TWN_EPOCH).toNat = c.offset % 2 ^ 32 ∧ e.get F.TWN_STAT_SYNCSTEP = 2 ∧ e.twn.cut = [] ∧
      (e.role = roleStandby ↔ e.itk.items.any (fun i => i.live) = false) ∧ (e.role = roleStandby → e.get F.TWN_IRQ_STAT_SYNCED = 1)
    else
      e.role = roleSyncing ∧ e.get F.TWN_STAT_SYNCSTEP = 1 ∧ e.reps = d.reps ∧
      (step = 0 → e.itk.items = [] ∧ (∀ h, h < 64 → (e.head h).queue = [] ∧ (e.head h).pan = [])) ∧
      (step = 1 → c.region ≠ 0 → ∀ a, e.ldB a = d.ldB a) ∧ (∀ a, inJournal a = false → e.ldB a = d.ldB a))

/-- R161, R163, R190, R221, R229, R243, R268, R501. -/
def Obligations.PrintPathWrites : Prop :=
  (∀ (s : State) (req : Nat), Ends (.brdDjobGo req) s fun e =>
    let d := s.dev
    Granted d req R.BRD_DJOB_GO 1 →
      WriteOk d e req R.BRD_DJOB_GO [R.BRD_DJOB_STAT] ∧ e.get F.BRD_DJOB_STAT_STATE = 1 ∧ e.get F.BRD_DJOB_STAT_CODE = 0 ∧ e = { d with regs := e.regs, out := e.out }) ∧
  (∀ (s : State) (req : Nat), Ends (.brcGo req) s fun e =>
    let d := s.dev
    Granted d req R.BRC_GO 1 →
      WriteOk d e req R.BRC_GO [R.BRC_STAT, R.BRC_IRQ_STAT] ∧ e.ras.jobs.dropLast = d.ras.jobs ∧ e.get F.BRC_STAT_QUEUED = (d.ras.jobs.length + 1) % 8 ∧
      (d.ras.jobs = [] → if (d.brcJob).need ≤ d.ringFree then e.get F.BRC_STAT_STATE = 1 else e.get F.BRC_STAT_STATE = 2 ∧ e.get F.BRC_IRQ_STAT_WAIT = 1) ∧
      match e.ras.jobs.getLast? with
      | some j => j.src = d.addr40 R.BRC_SRCLO R.BRC_SRCHI ∧ j.width = d.get F.BRC_WIDTH_VALUE ∧ j.lines = d.get F.BRC_LINES_VALUE ∧ j.planes = d.get F.BRC_PLANES_PLANESM1 + 1
      | none => False) ∧
  (∀ (s : State) (req v : Nat), Ends (.brcOutsize req v) s fun e =>
    let d := s.dev
    Granted d req R.BRC_OUTSIZE v →
      v % 64 = 0 ∧ d.ras.jobs = [] ∧ d.rd R.BRC_OUTWR = d.rd R.BRC_OUTRD ∧ WriteOk d e req R.BRC_OUTSIZE [R.BRC_OUTSIZE, R.BRC_OUTWR, R.BRC_OUTRD] ∧
      (e.rd R.BRC_OUTSIZE).toNat = v ∧ e.rd R.BRC_OUTWR = 0 ∧ e.rd R.BRC_OUTRD = 0) ∧
  (∀ (s : State) (req v : Nat), Ends (.rasStatclr req v) s fun e =>
    let d := s.dev
    Granted d req R.RAS_STATCLR v →
      WriteOk d e req R.RAS_STATCLR (R.RAS_CLIPCNT :: (List.range 8).map R.RAS_HG_STAT) ∧ e = { d with regs := e.regs, out := e.out } ∧
      (e.rd R.RAS_CLIPCNT).toNat = (if bitB v 8 then 0 else (d.rd R.RAS_CLIPCNT).toNat) ∧
      ∀ n : Fin 8, if bitB v n then e.get (F.RAS_HG_STAT_LATE n) = 0 ∧ e.get (F.RAS_HG_STAT_MINLEAD n) = 64 else e.rd (R.RAS_HG_STAT n) = d.rd (R.RAS_HG_STAT n)) ∧
  (∀ (s : State) (req : Nat), Ends (.rasErrClear req) s fun e =>
    let d := s.dev
    Granted d req R.RAS_ERR 0x80000000 →
      WriteOk d e req R.RAS_ERR [R.RAS_ERR, R.RAS_ERRITEMLO, R.RAS_ERRITEMHI] ∧ e.rd R.RAS_ERR = 0 ∧ e.rd R.RAS_ERRITEMLO = 0 ∧ e.rd R.RAS_ERRITEMHI = 0 ∧
      e = { d with regs := e.regs, out := e.out }) ∧
  (∀ (s : State) (req : Nat), Ends (.impErrClear req) s fun e =>
    let d := s.dev
    Granted d req R.IMP_ERR 0x80000000 →
      WriteOk d e req R.IMP_ERR [R.IMP_ERR, R.IMP_ERRITEMLO, R.IMP_ERRITEMHI] ∧ e.rd R.IMP_ERR = 0 ∧ e.rd R.IMP_ERRITEMLO = 0 ∧ e.rd R.IMP_ERRITEMHI = 0 ∧
      e = { d with regs := e.regs, out := e.out }) ∧
  (∀ (s : State) (req n : Nat) (k : Fin 4), Ends (.nzmStatewr req n k) s fun e =>
    let d := s.dev
    let m := n % 2 ^ 18
    Granted d req R.NZM_STATEWR (m + k.val * 2 ^ 18) →
      k.val ≤ 1 ∧ (d.nozHead m).isSome = true ∧ d.nozState m ≠ 3 ∧ (d.running = true ∨ d.st? = stSafe) ∧ WriteOk d e req R.NZM_STATEWR [] ∧
      e.nzm = { d.nzm with changes := d.nzm.changes ++ [(m, if k = 0 then 1 else 2)] }) ∧
  (∀ (s : State) (req : Nat) (hi : Bool) (heads : Nat), Ends (.calPb4req req hi heads) s fun e =>
    let d := s.dev
    let a := if hi then R.CAL_PB4REQHI else R.CAL_PB4REQLO
    Granted d req a heads → d.get F.CAL_CFG_MODE = 2 ∧ WriteOk d e req a [a] ∧ (e.rd a).toNat = (d.rd a).toNat ||| heads) ∧
  (∀ (s : State) (req : Nat) (c : Fin 16) (late : Bool), Ends (.compareArm req c late) s fun e =>
    let d := s.dev
    let p := d.get64 (R.POS_CMP_POSLO c) (R.POS_CMP_POSHI c)
    let z := d.get (F.POS_CMP_CFG_ZONE c)
    Granted d req (R.POS_CMP_ARM c) (1 + 2 * late.toNat) →
      (passed (d.zonePos z) p = true → late = true) ∧ e.out.head? = some (.reg req (R.POS_CMP_ARM c) sOk 0) ∧ (∀ x, e.ldB x = d.ldB x) ∧ e.itk = d.itk ∧
      if passed (d.zonePos z) p = true then
        e.get (F.POS_CMP_STAT_MATCHED c) = 1 ∧ e.get (F.POS_CMP_STAT_LATE c) = 1 ∧ e.get F.POS_IRQ_STAT_CMP = 1 ∧
        e.get (F.POS_CMP_STAT_ARMED c) = if d.get (F.POS_CMP_PERIOD_VALUE c) = 0 then 0 else 1
      else
        e.get (F.POS_CMP_STAT_ARMED c) = 1 ∧ WriteOk d e req (R.POS_CMP_ARM c) [R.POS_CMP_STAT c] ∧ e = { d with regs := e.regs, out := e.out, pos := { d.pos with cmpAt := e.pos.cmpAt } } ∧
        (c.val < d.pos.cmpAt.length → nth e.pos.cmpAt c 0 = p)) ∧
  (∀ (s : State) (req : Nat) (c : Fin 16), Ends (.compareDisarm req c) s fun e =>
    let d := s.dev
    Granted d req (R.POS_CMP_ARM c) 4 →
      WriteOk d e req (R.POS_CMP_ARM c) [R.POS_CMP_STAT c] ∧ e.get (F.POS_CMP_STAT_ARMED c) = 0 ∧ e = { d with regs := e.regs, out := e.out } ∧
      e.get (F.POS_CMP_STAT_MATCHED c) = d.get (F.POS_CMP_STAT_MATCHED c) ∧ e.get (F.POS_CMP_STAT_MISSCNT c) = d.get (F.POS_CMP_STAT_MISSCNT c)) ∧
  (∀ (s : State) (req : Nat) (n : Fin 8), Ends (.firCommit req n) s fun e =>
    let d := s.dev
    Granted d req (R.FIR_HG_COMMIT n) 1 →
      (d.running = true ∨ d.st? = stSafe) ∧ d.trimsApart n = false ∧ WriteOk d e req (R.FIR_HG_COMMIT n) [R.FIR_HG_STAT n] ∧ e.get (F.FIR_HG_STAT_ARMED n) = 1 ∧
      e.act = d.act ∧ e.fir = d.fir) ∧
  (∀ (s : State) (req v : Nat), Ends (.firStatclr req v) s fun e =>
    let d := s.dev
    Granted d req R.FIR_STATCLR v →
      WriteOk d e req R.FIR_STATCLR (R.FIR_RECDROP :: ((List.range 8).map R.FIR_HG_SQUEEZE ++ (List.range 8).map R.FIR_HG_MAXLAG)) ∧ e = { d with regs := e.regs, out := e.out } ∧
      (e.rd R.FIR_RECDROP).toNat = (if bitB v 8 then 0 else (d.rd R.FIR_RECDROP).toNat) ∧
      ∀ n : Fin 8, (e.rd (R.FIR_HG_SQUEEZE n)).toNat = (if bitB v n then 0 else (d.rd (R.FIR_HG_SQUEEZE n)).toNat) ∧
        (e.rd (R.FIR_HG_MAXLAG n)).toNat = if bitB v n then 0 else (d.rd (R.FIR_HG_MAXLAG n)).toNat) ∧
  (∀ (s : State) (req v : Nat), Ends (.sluStatclr req v) s fun e =>
    let d := s.dev
    let of (r : Nat → Nat) (n : Nat) : Nat := if bitB v n then 0 else (d.rd (r n)).toNat
    Granted d req R.SLU_STATCLR v →
      (∀ x, e.ldB x = d.ldB x) ∧ e = { d with regs := e.regs, out := .reg req R.SLU_STATCLR sOk 0 :: d.out } ∧
      (∀ n : Fin 8, (e.rd (R.SLU_HG_THINEV n)).toNat = of R.SLU_HG_THINEV n ∧ (e.rd (R.SLU_HG_STEPS n)).toNat = of R.SLU_HG_STEPS n ∧
        (e.rd (R.SLU_HG_ROUNDS n)).toNat = of R.SLU_HG_ROUNDS n ∧ (e.rd (R.SLU_HG_HARDCNT n)).toNat = of R.SLU_HG_HARDCNT n) ∧
      (∀ h : Fin 64, e.get (F.SLU_HEAD_STAT_MAXLOAD h) = (if bitB v 8 then 0 else d.get (F.SLU_HEAD_STAT_MAXLOAD h)) ∧ e.get (F.SLU_HEAD_STAT_STALE h) = d.get (F.SLU_HEAD_STAT_STALE h)) ∧
      ∀ z : Fin 16, (e.rd (R.SLU_ZONE_LATECNT z)).toNat = if bitB v 9 then 0 else (d.rd (R.SLU_ZONE_LATECNT z)).toNat)

/-- R286, R289, R298, R299, R325 to R327, R361, R501. -/
def Obligations.HeadAndCaptureWrites : Prop :=
  (∀ (s : State) (req : Nat) (hg head : Fin 8) (all : Bool) (arg : Nat), Ends (.hlkNop req hg head all arg) s fun e => HeadCommand s.dev e req hg head 0 arg all) ∧
  (∀ (s : State) (req : Nat) (hg head : Fin 8) (all : Bool) (arg : Nat), Ends (.spit req hg head all arg) s fun e => HeadCommand s.dev e req hg head 1 arg all) ∧
  (∀ (s : State) (req : Nat) (hg head : Fin 8) (all : Bool) (arg : Nat), Ends (.waveset req hg head all arg) s fun e => HeadCommand s.dev e req hg head 2 arg all) ∧
  (∀ (s : State) (req : Nat) (hg head : Fin 8) (all : Bool) (arg : Nat), Ends (.heater req hg head all arg) s fun e => HeadCommand s.dev e req hg head 3 arg all) ∧
  (∀ (s : State) (req : Nat) (hg head : Fin 8) (all : Bool) (arg : Nat), Ends (.headreset req hg head all arg) s fun e => HeadCommand s.dev e req hg head 4 arg all) ∧
  (∀ (s : State) (req : Nat) (hg head opc : Fin 8) (all : Bool) (arg : Nat), Ends (.boardDefinedCommand req hg head opc all arg) s fun e =>
    HeadCommand s.dev e req hg head (8 + opc.val) arg all) ∧
  (∀ (s : State) (req : Nat) (l : Fin 24), Ends (.retrain req l) s fun e =>
    let d := s.dev
    Granted d req (R.HLK_LANE_CTL l) 1 →
      d.configDone = true ∧ d.laneUsed l = true ∧ WriteOk d e req (R.HLK_LANE_CTL l) (laneRegs l) ∧ LaneNow e l 1 ∧ e.get (F.HLK_LANE_STAT_ATTEMPT l) = 1 ∧
      (l.val < d.fir.lanes.length → (e.lane l).step = 1)) ∧
  (∀ (s : State) (req : Nat) (l : Fin 24), Ends (.errclr req l) s fun e =>
    let d := s.dev
    Granted d req (R.HLK_LANE_CTL l) 2 →
      WriteOk d e req (R.HLK_LANE_CTL l) [R.HLK_LANE_ERR l] ∧ e.rd (R.HLK_LANE_ERR l) = 0 ∧ e = { d with regs := e.regs, out := e.out }) ∧
  (∀ (s : State) (req : Nat) (l : Fin 42) (v : Fin 2), Ends (.srdPd req l v) s fun e =>
    let d := s.dev
    Granted d req (R.SRD_LANE_CTL l) (setBits (d.rd (R.SRD_LANE_CTL l)).toNat 0 1 v.val) →
      LaneControl d e req l ∧ e.get (F.SRD_LANE_CTL_PD l) = v.val ∧ e.get (F.SRD_LANE_CTL_PRBS l) = d.get (F.SRD_LANE_CTL_PRBS l) ∧ e.get (F.SRD_LANE_CTL_LOOP l) = d.get (F.SRD_LANE_CTL_LOOP l)) ∧
  (∀ (s : State) (req : Nat) (l : Fin 42) (v : Fin 4), Ends (.srdPrbs req l v) s fun e =>
    let d := s.dev
    Granted d req (R.SRD_LANE_CTL l) (setBits (d.rd (R.SRD_LANE_CTL l)).toNat 4 2 v.val) →
      LaneControl d e req l ∧ e.get (F.SRD_LANE_CTL_PRBS l) = v.val ∧ e.get (F.SRD_LANE_CTL_PD l) = d.get (F.SRD_LANE_CTL_PD l) ∧ e.get (F.SRD_LANE_CTL_LOOP l) = d.get (F.SRD_LANE_CTL_LOOP l)) ∧
  (∀ (s : State) (req : Nat) (l : Fin 42) (v : Fin 4), Ends (.srdLoop req l v) s fun e =>
    let d := s.dev
    Granted d req (R.SRD_LANE_CTL l) (setBits (d.rd (R.SRD_LANE_CTL l)).toNat 8 2 v.val) →
      v ≠ 3 ∧ LaneControl d e req l ∧ e.get (F.SRD_LANE_CTL_LOOP l) = v.val ∧ e.get (F.SRD_LANE_CTL_PD l) = d.get (F.SRD_LANE_CTL_PD l) ∧ e.get (F.SRD_LANE_CTL_PRBS l) = d.get (F.SRD_LANE_CTL_PRBS l)) ∧
  (∀ (s : State) (req : Nat) (k : Fin 4) (late : Bool), Ends (.trgArm req k late) s fun e =>
    let d := s.dev
    let z := d.get (F.CAM_TRG_CFG_ZONE k)
    let gone := passed (d.zonePos z) (d.trgPos k)
    Granted d req (R.CAM_TRG_ARM k) (1 + 2 * late.toNat) →
      e.out.head? = some (.reg req (R.CAM_TRG_ARM k) sOk 0) ∧ (∀ x, e.ldB x = d.ldB x) ∧ e.itk = d.itk ∧ e.reps = d.reps ∧
      (d.get (F.CAM_TRG_STAT_SHADOW k) = 1 → e.get (F.CAM_TRG_STAT_SHADOW k) = 0 ∧ e.get (F.CAM_TRG_ACTIVE_SEQ_SEQ k) = (d.get (F.CAM_TRG_ACTIVE_SEQ_SEQ k) + 1) % 2 ^ 32) ∧
      if d.get (F.CAM_TRG_CFG_START k) = 1 then e.get (F.CAM_TRG_STAT_WAITING k) = 1 ∧ e.get (F.CAM_TRG_STAT_LATE k) = 0
      else
        (gone = true → late = true) ∧ e.get (F.CAM_TRG_STAT_RUNNING k) = 1 ∧ e.get (F.CAM_TRG_STAT_WAITING k) = 0 ∧ e.get (F.CAM_TRG_COUNT_COUNT k) = 0 ∧
        e.get (F.CAM_TRG_STAT_LATE k) = (if gone then 1 else 0) ∧ (gone = true → e.get F.CAM_IRQ_STAT_LATE = 1) ∧
        (k.val < d.cam.gens.length → (e.gen' k).t0 = if gone then d.zonePos16 z else d.trgPos k * 2 ^ 16)) ∧
  (∀ (s : State) (req : Nat) (k : Fin 4), Ends (.trgStop req k) s fun e =>
    let d := s.dev
    Granted d req (R.CAM_TRG_ARM k) 4 →
      WriteOk d e req (R.CAM_TRG_ARM k) [R.CAM_TRG_STAT k] ∧
      (d.get (F.CAM_TRG_STAT_WAITING k) = 1 → e.get (F.CAM_TRG_STAT_WAITING k) = 0) ∧
      (d.get (F.CAM_TRG_STAT_WAITING k) = 0 → d.get (F.CAM_TRG_STAT_RUNNING k) = 1 →
        if (d.gen' k).inFrame = 0 then e.get (F.CAM_TRG_STAT_RUNNING k) = 0
        else e.get (F.CAM_TRG_STAT_RUNNING k) = 1 ∧ (k.val < d.cam.gens.length → (e.gen' k).stopping = true))) ∧
  (∀ (s : State) (req : Nat) (k : Fin 4), Ends (.camTrgCommit req k) s fun e =>
    let d := s.dev
    Granted d req (R.CAM_TRG_COMMIT k) 1 →
      d.get (F.CAM_TRG_STROBE_SDLY k) + d.get (F.CAM_TRG_STROBE_SWIDTH k) ≤ 10 * d.get (F.CAM_TRG_TIMING_MINPER k) ∧
      WriteOk d e req (R.CAM_TRG_COMMIT k) [R.CAM_TRG_STAT k] ∧ e.get (F.CAM_TRG_STAT_SHADOW k) = 1 ∧ e.act = d.act ∧ e.pos = d.pos) ∧
  (∀ (s : State) (req v : Nat), Ends (.camFdsize req v) s fun e =>
    let d := s.dev
    Granted d req R.CAM_FDSIZE v →
      (v = 0 ∨ 16 ≤ v ∧ v ≤ 65536) ∧ d.rd R.CAM_FDWR = d.rd R.CAM_FDRD ∧ WriteOk d e req R.CAM_FDSIZE [R.CAM_FDSIZE, R.CAM_FDWR, R.CAM_FDRD] ∧
      (e.rd R.CAM_FDSIZE).toNat = v ∧ e.rd R.CAM_FDWR = 0 ∧ e.rd R.CAM_FDRD = 0) ∧
  (∀ (s : State) (req v : Nat), Ends (.camStatclr req v) s fun e =>
    let d := s.dev
    Granted d req R.CAM_STATCLR v →
      e = { d with regs := e.regs, out := .reg req R.CAM_STATCLR sOk 0 :: d.out } ∧
      (e.rd R.CAM_FDLOST).toNat = (if bitB v 8 then 0 else (d.rd R.CAM_FDLOST).toNat) ∧
      (∀ n : Fin 16, (e.rd (R.CAM_SRC_DROPCNT n)).toNat = (if bitB v (16 + n) then 0 else (d.rd (R.CAM_SRC_DROPCNT n)).toNat) ∧
        (e.rd (R.CAM_SRC_BADCNT n)).toNat = (if bitB v (16 + n) then 0 else (d.rd (R.CAM_SRC_BADCNT n)).toNat) ∧
        e.get (F.CAM_SRC_LEVEL_MAXLINES n) = if bitB v (16 + n) then 0 else d.get (F.CAM_SRC_LEVEL_MAXLINES n)) ∧
      ∀ n : Fin 4, (e.rd (R.CAM_TLANE_ERR n)).toNat = (if bitB v (4 + n) then 0 else (d.rd (R.CAM_TLANE_ERR n)).toNat) ∧
        (e.rd (R.CAM_PORT_ERR n)).toNat = (if bitB v n then 0 else (d.rd (R.CAM_PORT_ERR n)).toNat) ∧
        e.get (F.CAM_PORT_STAT_HDRCOR n) = if bitB v n then 0 else d.get (F.CAM_PORT_STAT_HDRCOR n)) ∧
  (∀ (s : State) (req v : Nat), Ends (.visTbldata req v) s fun e =>
    let d := s.dev
    let a := d.get F.VIS_TBLADDR_VALUE
    Granted d req R.VIS_TBLDATA v →
      e.out.head? = some (.reg req R.VIS_TBLDATA sOk 0) ∧ spGet 0 e.vis.tbl a = v ∧ (∀ k, k < 0x3C000 → k ≠ a → spGet 0 e.vis.tbl k = spGet 0 d.vis.tbl k) ∧
      e.get F.VIS_TBLADDR_VALUE = (a + 1) % 2 ^ 32 ∧ (∀ r, r ≠ R.VIS_TBLADDR → r ≠ R.VIS_TBLDATA → e.rd r = d.rd r) ∧ ∀ x, e.ldB x = d.ldB x) ∧
  (∀ (s : State) (req v : Nat), Ends (.insStatclr req v) s fun e =>
    let d := s.dev
    Granted d req R.INS_STATCLR v →
      WriteOk d e req R.INS_STATCLR ((List.range 4).map fun k => R.INS_DECLCNT + 4 * k) ∧ e = { d with regs := e.regs, out := e.out } ∧
      ∀ k : Fin 4, (e.rd (R.INS_DECLCNT + 4 * k)).toNat = if bitB v k then 0 else (d.rd (R.INS_DECLCNT + 4 * k)).toNat) ∧
  (∀ (s : State) (req : Nat) (k : Fin 4), Ends (.lmpCommit req k) s fun e =>
    let d := s.dev
    Granted d req (R.LMP_CH_COMMIT k) 1 →
      d.get (F.LMP_CH_STAT_STATE k) ≠ 1 ∧ WriteOk d e req (R.LMP_CH_COMMIT k) [R.LMP_CH_STAT k] ∧ e.get (F.LMP_CH_STAT_ARMED k) = 1 ∧ e.lmp = d.lmp)

/-- R405, R423, R425, R426, R428, R432, R449, R454, R458, R501. -/
def Obligations.LinkAndMemoryWrites : Prop :=
  (∀ (s : State) (req v : Nat), Ends (.pgfRetrain req v) s fun e =>
    let d := s.dev
    Granted d req R.PGF_CTL v →
      v < 16 ∧ e.out.head? = some (.reg req R.PGF_CTL sOk 0) ∧ e.itk = d.itk ∧ (∀ x, e.ldB x = d.ldB x) ∧
      (∀ p : Fin 4, bitB v p = true → d.fportOn p = true ∧ d.fstate p ≠ fpKeyLost ∧ e.fstate p = fpTraining ∧ (e.fport p).step = 1 ∧ (e.fport p).replay = [] ∧
        (d.fportUp p = true → 152 ∈ e.reps.map (fun r => r.src))) ∧
      (∀ p : Fin 4, bitB v p = false → e.fstate p = d.fstate p ∧ (e.fport p).step = (d.fport p).step)) ∧
  (∀ (s : State) (req v : Nat), Ends (.pgfStatclr req v) s fun e =>
    let d := s.dev
    let of (i a : Nat) : Nat := if bitB v i then 0 else (d.rd a).toNat
    Granted d req R.PGF_STATCLR v →
      e = { d with regs := e.regs, out := .reg req R.PGF_STATCLR sOk 0 :: d.out } ∧ (e.rd R.PGF_DROP).toNat = of 0 R.PGF_DROP ∧
      (e.rd R.PGF_STALE).toNat = of 1 R.PGF_STALE ∧ (e.rd R.PGF_REFCNT).toNat = of 2 R.PGF_REFCNT ∧
      (∀ p : Fin 4, (e.rd (R.PGF_PORT_ERR p)).toNat = of (3 + p) (R.PGF_PORT_ERR p) ∧ (e.rd (R.PGF_PORT_DROP p)).toNat = of (3 + p) (R.PGF_PORT_DROP p)) ∧
      Frame d e ([R.PGF_DROP, R.PGF_STALE, R.PGF_REFCNT] ++ (List.range 4).map R.PGF_PORT_ERR ++ (List.range 4).map R.PGF_PORT_DROP)) ∧
  (∀ (s : State) (req : Nat) (p : Fin 4), Ends (.ethTxkick req p) s fun e =>
    let d := s.dev
    let x := d.onEport p fun q => { q with run := true }
    Granted d req (R.ETH_PORT_TXKICK p) 1 →
      d.get (F.ETH_PORT_TXSIZE_ENTRIES p) ≠ 0 ∧ e.out.head? = some (.reg req (R.ETH_PORT_TXKICK p) sOk 0) ∧ e.itk = d.itk ∧ e.pgf = d.pgf ∧
      e = (x.txGo p).answer req (R.ETH_PORT_TXKICK p) sOk 0) ∧
  (∀ (s : State) (req : Nat), Ends (.ethTxtsPop req) s fun e =>
    let d := s.dev
    let n := match d.eth.txts.drop 1 with
      | x :: _ => x
      | [] => (0, 0, 0)
    Granted d req R.ETH_TXTS_POP 1 →
      d.eth.txts ≠ [] ∧ e.eth = { d.eth with txts := d.eth.txts.drop 1 } ∧ e.get F.ETH_TXTS_STAT_COUNT = (d.eth.txts.length - 1) % 2 ^ 8 ∧
      (e.rd R.ETH_TXTS_ID).toNat = n.1 % 2 ^ 32 ∧ (e.rd R.ETH_TXTS_NS).toNat = n.2.2 % 1000000000 ∧
      WriteOk d e req R.ETH_TXTS_POP [R.ETH_TXTS_STAT, R.ETH_TXTS_ID, R.ETH_TXTS_SECLO, R.ETH_TXTS_SECHI, R.ETH_TXTS_NS]) ∧
  (∀ (s : State) (req : Nat) (p : Fin 4) (rx : Bool) (v : Nat), Ends (.ethRingSize req p rx v) s fun e =>
    let d := s.dev
    let a := if rx then R.ETH_PORT_RXSIZE p else R.ETH_PORT_TXSIZE p
    Granted d req a v →
      WriteOk d e req a [a, R.ETH_PORT_NEXT p] ∧ (e.rd a).toNat = v ∧ (v = 0 ∨ 16 ≤ v ∧ v ≤ 4096) ∧
      (rx = true → e.get (F.ETH_PORT_NEXT_RXNEXT p) = 0 ∧ e.get (F.ETH_PORT_NEXT_TXNEXT p) = d.get (F.ETH_PORT_NEXT_TXNEXT p) ∧ e.eth = d.eth) ∧
      (rx = false → e.get (F.ETH_PORT_NEXT_TXNEXT p) = 0 ∧ e.get (F.ETH_PORT_NEXT_RXNEXT p) = d.get (F.ETH_PORT_NEXT_RXNEXT p) ∧ (e.eport p).run = false)) ∧
  (∀ (s : State) (req : Nat) (p : Fin 4), Ends (.ethCounterClr req p) s fun e =>
    let d := s.dev
    let l := [R.ETH_PORT_RXERR p, R.ETH_PORT_RXFILT p, R.ETH_PORT_RXNOBUF p, R.ETH_PORT_RXFRAMES p, R.ETH_PORT_TXFRAMES p]
    Granted d req (R.ETH_PORT_CLR p) 1 → WriteOk d e req (R.ETH_PORT_CLR p) l ∧ (∀ a ∈ l, e.rd a = 0) ∧ e = { d with regs := e.regs, out := e.out }) ∧
  (∀ (s : State) (req : Nat), Ends (.ptpSnap req) s fun e =>
    let d := s.dev
    Granted d req R.PTP_SNAP 1 →
      WriteOk d e req R.PTP_SNAP [] ∧ spGet (0, 0) e.ptp.snaps req = (d.c, (d.timeAt d.c).toNat) ∧ e = { d with out := e.out, ptp := { d.ptp with snaps := e.ptp.snaps } } ∧
      ∀ r, r < 9 → r ≠ req → spGet (0, 0) e.ptp.snaps r = spGet (0, 0) d.ptp.snaps r) ∧
  (∀ (s : State) (req v : Nat), Ends (.ptpRate req v) s fun e =>
    let d := s.dev
    Granted d req R.PTP_RATE v →
      d.get F.PTP_CFG_SERVO = 0 ∧ (sx 32 v).natAbs ≤ 549755814 ∧ WriteOk d e req R.PTP_RATE [R.PTP_RATE] ∧ (e.rd R.PTP_RATE).toNat = v ∧
      e.ptp.t0 = d.timeAt d.c ∧ e.ptp.c0 = d.c ∧ e.timeAt d.c = d.timeAt d.c) ∧
  (∀ (s : State) (req v : Nat), Ends (.ptpStep req v) s fun e =>
    let d := s.dev
    Granted d req R.PTP_STEP v →
      d.get F.PTP_CFG_SERVO = 0 ∧ e.ptp = { d.ptp with t0 := d.ptp.t0 + sx 32 v } ∧ e.get F.PTP_STATE_STEPS = min 65535 (d.get F.PTP_STATE_STEPS + 1) ∧
      e.get F.PTP_IRQ_STAT_STEP = 1 ∧ 165 ∈ e.reps.map (fun r => r.src)) ∧
  (∀ (s : State) (req v : Nat), Ends (.dmcFreq req v) s fun e =>
    let d := s.dev
    let sp := v % 4
    Granted d req R.DMC_FREQ v →
      bitB (d.get F.DMC_CFG_FSPEN) sp = true ∧ d.get F.DMC_FSP_RATE / 16 ^ sp % 16 ≠ 0 ∧ d.get F.DMC_FREQSTAT_STATE = 0 ∧ (d.st? = stReady ∨ d.st? = stSafe) ∧
      (∀ i ∈ d.itk.items, i.state ≠ isScheduled ∧ i.state ≠ isFiring) ∧
      WriteOk d e req R.DMC_FREQ [R.DMC_FREQ, R.DMC_FREQSTAT] ∧ e.get F.DMC_FREQ_SP = v ∧ e.dmc = { d.dmc with freq := some (sp, req) } ∧
      e.get F.DMC_FREQSTAT_STATE = (if d.get F.DMC_TRAINSTAT_RUN = 0 then 2 else 1) ∧ e.get F.DMC_FREQSTAT_CUR = d.get F.DMC_FREQSTAT_CUR) ∧
  (∀ (s : State) (req v : Nat), Ends (.dmcStatclr req v) s fun e =>
    let d := s.dev
    let of (i a : Nat) : Nat := if bitB v i then 0 else (d.rd a).toNat
    Granted d req R.DMC_STATCLR v →
      WriteOk d e req R.DMC_STATCLR [R.DMC_CECNT, R.DMC_UECNT, R.DMC_RTLAT] ∧ e = { d with regs := e.regs, out := e.out } ∧
      (e.rd R.DMC_CECNT).toNat = of 0 R.DMC_CECNT ∧ (e.rd R.DMC_UECNT).toNat = of 1 R.DMC_UECNT ∧ (e.rd R.DMC_RTLAT).toNat = of 2 R.DMC_RTLAT) ∧
  (∀ (s : State) (req : Nat), Ends (.dmcUeaddrClear req) s fun e =>
    let d := s.dev
    Granted d req R.DMC_UEADDRHI 0x80000000 →
      WriteOk d e req R.DMC_UEADDRHI [R.DMC_UEADDRLO, R.DMC_UEADDRHI] ∧ e.rd R.DMC_UEADDRLO = 0 ∧ e.rd R.DMC_UEADDRHI = 0 ∧ e = { d with regs := e.regs, out := e.out }) ∧
  (∀ (s : State) (req : Nat) (c : Fin 16), Ends (.dmaKick req c) s fun e =>
    let d := s.dev
    Granted d req (R.DMA_CH_KICK c) 1 →
      d.get F.DMA_STAT_STOPPED = 0 ∧ d.get (F.DMA_CH_CFG_ENABLE c) = 1 ∧ d.get (F.DMA_CH_SIZE_ENTRIES c) ≠ 0 ∧
      WriteOk d e req (R.DMA_CH_KICK c) [R.DMA_CH_STAT c] ∧ e.get (F.DMA_CH_STAT_STATE c) = 1 ∧ e.get (F.DMA_CH_STAT_NEXT c) = d.get (F.DMA_CH_STAT_NEXT c) ∧ e.dma = d.dma) ∧
  (∀ (s : State) (req : Nat), Ends (.dmaReset req) s fun e =>
    let d := s.dev
    Granted d req R.DMA_CTL 1 →
      (d.get F.DMA_STAT_STOPPED = 1 ∨ ∀ c : Fin 16, d.get (F.DMA_CH_CFG_ENABLE c) = 0) ∧ WriteOk d e req R.DMA_CTL (R.DMA_STAT :: (List.range 16).map R.DMA_CH_STAT) ∧
      e.get F.DMA_STAT_STOPPED = 0 ∧ e.dma = d.dma ∧
      ∀ c : Fin 16, e.get (F.DMA_CH_STAT_NEXT c) = d.get (F.DMA_CH_STAT_NEXT c) ∧
        e.get (F.DMA_CH_STAT_STATE c) = if d.get (F.DMA_CH_STAT_STATE c) = 2 then 0 else d.get (F.DMA_CH_STAT_STATE c)) ∧
  (∀ (s : State) (req : Nat) (c : Fin 16) (v : Nat), Ends (.dmaRingSize req c v) s fun e =>
    let d := s.dev
    Granted d req (R.DMA_CH_SIZE c) v →
      16 ≤ v ∧ v ≤ 4096 ∧ d.get (F.DMA_CH_CFG_ENABLE c) = 0 ∧ WriteOk d e req (R.DMA_CH_SIZE c) [R.DMA_CH_SIZE c, R.DMA_CH_STAT c] ∧
      (e.rd (R.DMA_CH_SIZE c)).toNat = v ∧ e.get (F.DMA_CH_STAT_NEXT c) = 0 ∧ e.get (F.DMA_CH_STAT_STATE c) = d.get (F.DMA_CH_STAT_STATE c))

/-- R20, R40, R501: the conditions under which `Granted` holds. -/
def Obligations.WritesThatPass : Prop :=
  (∀ (d : Dev) (req v : Nat), HartWrites d req →
    (v < 2 ^ 9 → Granted d req R.RAS_STATCLR v ∧ Granted d req R.FIR_STATCLR v) ∧ (v < 2 ^ 10 → Granted d req R.SLU_STATCLR v) ∧
    (v % 2 ^ 16 < 2 ^ 9 → v < 2 ^ 32 → Granted d req R.CAM_STATCLR v) ∧ (v < 2 ^ 7 → Granted d req R.PGF_STATCLR v) ∧
    (v < 2 ^ 4 → Granted d req R.INS_STATCLR v ∧ Granted d req R.ITK_CNTCLR v) ∧ (v < 2 ^ 3 → Granted d req R.DMC_STATCLR v)) ∧
  (∀ (d : Dev) (req : Nat), HartWrites d req →
    Granted d req R.RAS_ERR 0x80000000 ∧ Granted d req R.IMP_ERR 0x80000000 ∧ Granted d req R.DMC_UEADDRHI 0x80000000 ∧
    Granted d req R.SYS_HWD_KICK 0xA5C3 ∧ Granted d req R.PTP_SNAP 1) ∧
  (∀ (d : Dev) (req : Nat), HartWrites d req →
    (d.eth.txts ≠ [] → Granted d req R.ETH_TXTS_POP 1) ∧
    (d.get F.DMA_STAT_STOPPED = 1 ∨ (∀ c : Fin 16, d.get (F.DMA_CH_CFG_ENABLE c) = 0) → Granted d req R.DMA_CTL 1) ∧
    (d.jobOk d.brcJob = true → d.get F.BRC_OUTSIZE_BYTES ≠ 0 → d.ras.jobs.length < 4 → d.running = true ∨ d.st? = stSafe → Granted d req R.BRC_GO 1) ∧
    (d.djobCheck = sOk → Granted d req R.BRD_DJOB_GO 1)) ∧
  (∀ (d : Dev) (req v : Nat), HartWrites d req →
    (v % 64 = 0 → v ≤ 2 ^ 31 → d.ras.jobs = [] → d.rd R.BRC_OUTWR = d.rd R.BRC_OUTRD → Granted d req R.BRC_OUTSIZE v) ∧
    (d.get F.PTP_CFG_SERVO = 0 → v < 2 ^ 32 → Granted d req R.PTP_STEP v ∧ ((sx 32 v).natAbs ≤ 549755814 → Granted d req R.PTP_RATE v)) ∧
    (v < 4 → d.bit F.DMC_CFG_FSPEN v = true → bits (d.get F.DMC_FSP_RATE) (4 * v) 4 ≠ 0 → d.get F.DMC_FREQSTAT_STATE = 0 → d.st? = stReady ∨ d.st? = stSafe →
      (∀ i ∈ d.itk.items, i.state ≠ isScheduled ∧ i.state ≠ isFiring) → Granted d req R.DMC_FREQ v) ∧
    (v < 16 → (∀ p : Fin 4, bitB v p = true → d.fportOn p = true ∧ d.fstate p ≠ fpKeyLost) → Granted d req R.PGF_CTL v) ∧
    (d.get F.CAL_CFG_MODE = 2 → v < 2 ^ 32 → Granted d req R.CAL_PB4REQLO v ∧ Granted d req R.CAL_PB4REQHI v) ∧
    (v < 2 ^ 18 → (d.nozHead v).isSome = true → d.nozState v ≠ 3 → d.running = true ∨ d.st? = stSafe →
      Granted d req R.NZM_STATEWR v ∧ Granted d req R.NZM_STATEWR (v + 2 ^ 18))) ∧
  (∀ (d : Dev) (req : Nat) (c : Fin 16), HartWrites d req →
    let z := d.get (F.POS_CMP_CFG_ZONE c)
    let wd := d.get (F.POS_CMP_WIDTH_VALUE c)
    let gone := passed (d.zonePos z) (d.get64 (R.POS_CMP_POSLO c) (R.POS_CMP_POSHI c))
    Granted d req (R.POS_CMP_ARM c) 4 ∧
    (d.get (F.ITK_ZONE_CFG_ENABLE z) = 1 → (d.rd (R.POS_CMP_POSHI c)).toNat < 2 ^ 16 → (d.get (F.POS_CMP_CFG_ACTION c) = 1 → 0 < wd ∧ wd < 2 ^ 16) →
      d.running = true ∨ d.st? = stSafe → d.get (F.POS_CMP_STAT_ARMED c) = 0 → d.holds 2 (d.get (F.POS_CMP_CFG_FEATURE c)) c = true →
      Granted d req (R.POS_CMP_ARM c) 3 ∧ (gone = false → Granted d req (R.POS_CMP_ARM c) 1)) ∧
    (d.get F.DMA_STAT_STOPPED = 0 → d.get (F.DMA_CH_CFG_ENABLE c) = 1 → d.get (F.DMA_CH_SIZE_ENTRIES c) ≠ 0 → Granted d req (R.DMA_CH_KICK c) 1)) ∧
  (∀ (d : Dev) (req : Nat) (c : Fin 16) (v : Nat), HartWrites d req →
    let base := (d.rd (R.DMA_CH_BASELO c)).toNat + 2 ^ 32 * ((d.rd (R.DMA_CH_BASEHI c)).toNat % 256)
    16 ≤ v → v ≤ 4096 → d.get (F.DMA_CH_CFG_ENABLE c) = 0 → (inSram base (32 * v) || d.inDram base (32 * v)) = true → Granted d req (R.DMA_CH_SIZE c) v) ∧
  (∀ (d : Dev) (req : Nat) (l : Fin 24), HartWrites d req →
    Granted d req (R.HLK_LANE_CTL l) 2 ∧ (d.configDone = true → d.laneUsed l = true → Granted d req (R.HLK_LANE_CTL l) 1)) ∧
  (∀ (d : Dev) (req : Nat) (l : Fin 42) (p : Fin 2) (v : Fin 4), HartWrites d req →
    let old := (d.rd (R.SRD_LANE_CTL l)).toNat
    old &&& 0x331 = old → d.get (F.SRD_LANE_CTL_LOOP l) ≠ 3 → d.inService l = false →
      Granted d req (R.SRD_LANE_CTL l) (setBits old 0 1 p.val) ∧ Granted d req (R.SRD_LANE_CTL l) (setBits old 4 2 v.val) ∧
      (v ≠ 3 → Granted d req (R.SRD_LANE_CTL l) (setBits old 8 2 v.val))) ∧
  (∀ (d : Dev) (req : Nat) (k : Fin 4), HartWrites d req →
    Granted d req (R.CAM_TRG_ARM k) 4 ∧ Granted d req (R.ETH_PORT_CLR k) 1 ∧
    (d.trgArmCheck k false = sOk → Granted d req (R.CAM_TRG_ARM k) 1) ∧ (d.trgArmCheck k true = sOk → Granted d req (R.CAM_TRG_ARM k) 3) ∧
    (d.get (F.CAM_TRG_STROBE_SDLY k) + d.get (F.CAM_TRG_STROBE_SWIDTH k) ≤ 10 * d.get (F.CAM_TRG_TIMING_MINPER k) → Granted d req (R.CAM_TRG_COMMIT k) 1) ∧
    (d.get (F.LMP_CH_STAT_STATE k) ≠ 1 → Granted d req (R.LMP_CH_COMMIT k) 1) ∧
    (d.get (F.ETH_PORT_TXSIZE_ENTRIES k) ≠ 0 → Granted d req (R.ETH_PORT_TXKICK k) 1)) ∧
  (∀ (d : Dev) (req : Nat) (n : Fin 8), HartWrites d req →
    d.running = true ∨ d.st? = stSafe → d.trimsApart n = false → Granted d req (R.FIR_HG_COMMIT n) 1)

/-- R309, R460: neither the margins nor the collector adds anything. -/
def Obligations.QuietCommandEnds : Prop :=
  ∀ (i : Instr) (s : State) (P : Dev → Prop), Ends i s P →
    ∃ e, P e ∧ (e.reps = [] → e.itk.items = s.dev.itk.items → exec i s = .next { s with dev := e })

/-- R19, R501: no command faults or is refused; the idle step is the model's (log entry 1). -/
def Obligations.EveryCommandCompletes : Prop :=
  (∀ (i : Instr) (s : State), ∃ d, exec i s = .next { s with dev := d }) ∧
  (∀ s : State, s.pending = [] → step s = .next { s with dev := { s.dev with c := (s.dev.c + 1) % 2 ^ 64 } })

/-- R3, R44: the state after reset. -/
def Obligations.FormAtReset : Prop :=
  InForm State.reset ∧ State.reset.pending = [] ∧ State.reset.dev.c = 0 ∧ State.reset.dev.st? = stBoot ∧ State.reset.dev.itk.items = [] ∧
  State.reset.dev.reps = [] ∧ State.reset.dev.out = [] ∧ ∀ n, n < 8 → State.reset.dev.sessState n = 0

/-- R3, R25: the form of the stores and the width of C, over every command. -/
def Obligations.EveryStepKeepsForm : Prop :=
  ∀ s t : State, InForm s → step s = .next t → InForm t
end

