-- ==== Sys2Proof/Laws/Sparse.lean ====
section
/-! SUPPORT. The sparse maps: reading after a write, and the canonical form, which every operation over memory, flash and
registers keeps. -/

namespace Sys2Proof.Machine

theorem spGet_dropWhile {α : Type} (dv : α) (r : List (Nat × α)) (a : Nat) :
    spGet dv (r.dropWhile fun x => decide (x.1 ≤ a)) a = dv := by
  induction r with
  | nil => rfl
  | cons x r ih =>
    obtain ⟨b, w⟩ := x
    by_cases h : b ≤ a
    · simpa [List.dropWhile, h] using ih
    · have h1 : a ≠ b := by omega
      have h2 : a < b := by omega
      simp [List.dropWhile, h, spGet, h1, h2]

theorem spGet_dropWhile_gt {α : Type} (dv : α) (r : List (Nat × α)) (a c : Nat) (h : a < c) :
    spGet dv (r.dropWhile fun x => decide (x.1 ≤ a)) c = spGet dv r c := by
  induction r with
  | nil => rfl
  | cons x r ih =>
    obtain ⟨b, w⟩ := x
    by_cases hb : b ≤ a
    · have h1 : c ≠ b := by omega
      have h2 : ¬ c < b := by omega
      simpa [List.dropWhile, hb, spGet, h1, h2] using ih
    · simp [List.dropWhile, hb]

theorem spGet_dropWhile_lt {α : Type} (dv : α) (r : List (Nat × α)) (a c : Nat) (h : c < a) :
    spGet dv (r.dropWhile fun x => decide (x.1 ≤ a)) c = dv := by
  induction r with
  | nil => rfl
  | cons x r ih =>
    obtain ⟨b, w⟩ := x
    by_cases hb : b ≤ a
    · simpa [List.dropWhile, hb] using ih
    · have h1 : c ≠ b := by omega
      have h2 : c < b := by omega
      simp [List.dropWhile, hb, spGet, h1, h2]

/-- A read of the key just written gives the value written. -/
@[simp] theorem spGet_spPut_same {α : Type} [DecidableEq α] (dv : α) (m : List (Nat × α)) (a : Nat) (v : α) :
    spGet dv (spPut dv m a v) a = v := by
  induction m with
  | nil => by_cases h : v = dv <;> simp [spPut, spGet, h]
  | cons x r ih =>
    obtain ⟨b, w⟩ := x
    by_cases h1 : a < b
    · have h2 : a ≠ b := by omega
      by_cases hv : v = dv <;> simp [spPut, spGet, h1, h2, hv]
    · by_cases h2 : a = b
      · subst h2
        by_cases hv : v = dv
        · simpa [spPut, hv] using spGet_dropWhile dv r a
        · simp [spPut, spGet, hv]
      · simpa [spPut, spGet, h1, h2] using ih

/-- A write leaves every other key as it was, whatever the default that was written. -/
theorem spGet_spPut_ne {α : Type} [DecidableEq α] (dv dw : α) (m : List (Nat × α)) (a c : Nat) (v : α) (h : c ≠ a) :
    spGet dv (spPut dw m a v) c = spGet dv m c := by
  induction m with
  | nil =>
    by_cases hv : v = dw
    · simp [spPut, hv]
    · by_cases h2 : c < a <;> simp [spPut, spGet, hv, h, h2]
  | cons x r ih =>
    obtain ⟨b, w⟩ := x
    by_cases h1 : a < b
    · by_cases hv : v = dw
      · simp [spPut, h1, hv]
      · by_cases h2 : c < a
        · have h3 : c ≠ b := by omega
          have h4 : c < b := by omega
          simp [spPut, spGet, h1, hv, h, h2, h3, h4]
        · simp [spPut, spGet, h1, hv, h, h2]
    · by_cases h2 : a = b
      · subst h2
        by_cases hv : v = dw
        · by_cases h3 : c < a
          · simpa [spPut, spGet, hv, h, h3] using spGet_dropWhile_lt dv r a c h3
          · have h4 : a < c := by omega
            simpa [spPut, spGet, hv, h, h3] using spGet_dropWhile_gt dv r a c h4
        · by_cases h3 : c < a <;> simp [spPut, spGet, hv, h, h3]
      · by_cases h3 : c = b
        · simp [spPut, spGet, h1, h2, h3]
        · by_cases h4 : c < b <;> simp [spPut, spGet, h1, h2, h3, h4, ih]

theorem spWf_mono {α : Type} [DecidableEq α] (dflt : Nat → α) (m : List (Nat × α)) (lo lo' : Nat) (h : lo' ≤ lo)
    (hm : spWf dflt lo m = true) : spWf dflt lo' m = true := by
  cases m with
  | nil => rfl
  | cons x r =>
    obtain ⟨b, w⟩ := x
    simp only [spWf, Bool.and_eq_true, decide_eq_true_eq] at hm ⊢
    exact ⟨⟨by omega, hm.1.2⟩, hm.2⟩

theorem spWf_dropWhile {α : Type} [DecidableEq α] (dflt : Nat → α) (m : List (Nat × α)) (lo a : Nat) (h : a < lo)
    (hm : spWf dflt lo m = true) : m.dropWhile (fun x => decide (x.1 ≤ a)) = m := by
  cases m with
  | nil => rfl
  | cons x r =>
    obtain ⟨b, w⟩ := x
    simp only [spWf, Bool.and_eq_true, decide_eq_true_eq] at hm
    have hb : ¬ b ≤ a := by omega
    simp [List.dropWhile, hb]

/-- A write keeps the canonical form. -/
theorem spPut_wf {α : Type} [DecidableEq α] (dflt : Nat → α) (m : List (Nat × α)) (lo a : Nat) (v : α) (h : lo ≤ a)
    (hm : spWf dflt lo m = true) : spWf dflt lo (spPut (dflt a) m a v) = true := by
  induction m generalizing lo with
  | nil => by_cases hv : v = dflt a <;> simp [spPut, spWf, hv, h]
  | cons x r ih =>
    obtain ⟨b, w⟩ := x
    simp only [spWf, Bool.and_eq_true, decide_eq_true_eq] at hm
    by_cases h1 : a < b
    · by_cases hv : v = dflt a
      · simp [spPut, h1, hv, spWf, hm.1.1, hm.1.2, hm.2]
      · have hb : a + 1 ≤ b := by omega
        simp [spPut, h1, hv, spWf, h, hb, hm.1.2, hm.2]
    · by_cases h2 : a = b
      · subst h2
        by_cases hv : v = dflt a
        · have hd := spWf_dropWhile dflt r (a + 1) a (by omega) hm.2
          simp only [spPut, h1, hv, if_true, if_false]
          rw [hd]
          exact spWf_mono dflt r (a + 1) lo (by omega) hm.2
        · simp [spPut, hv, spWf, h, hm.2]
      · have := ih (b + 1) (by omega) hm.2
        simp [spPut, h1, h2, spWf, hm.1.1, hm.1.2, this]

/-- Keys at most `n` below `lo + 1` may be kept by a filter: the canonical form stays. -/
theorem spWf_filter {α : Type} [DecidableEq α] (dflt : Nat → α) (p : Nat × α → Bool) (m : List (Nat × α)) (lo : Nat)
    (hm : spWf dflt lo m = true) : spWf dflt lo (m.filter p) = true := by
  induction m generalizing lo with
  | nil => rfl
  | cons x r ih =>
    obtain ⟨b, w⟩ := x
    simp only [spWf, Bool.and_eq_true, decide_eq_true_eq] at hm
    have hr := ih (b + 1) hm.2
    by_cases hp : p (b, w)
    · simp [List.filter, hp, spWf, hm.1.1, hm.1.2, hr]
    · have := spWf_mono dflt _ (b + 1) lo (by omega) hr
      simpa [List.filter, hp] using this

/-! ### The operations over memory, flash and registers -/

theorem stB_wf (d : Dev) (a : Nat) (v : Byte) (h : d.mem.wf = true) : (d.stB a v).mem.wf = true :=
  spPut_wf (fun _ => memDefault) d.mem 0 a v (Nat.zero_le a) h

theorem stBs_wf (l : List Byte) (d : Dev) (a : Nat) (h : d.mem.wf = true) : (d.stBs a l).mem.wf = true := by
  induction l generalizing d a with
  | nil => exact h
  | cons b r ih => exact ih (d.stB a b) (a + 1) (stB_wf d a b h)

theorem st_wf (d : Dev) (a n v : Nat) (h : d.mem.wf = true) : (d.st a n v).mem.wf = true :=
  stBs_wf (leBytes n v) d a h

theorem flWr_wf (l : List Byte) (d : Dev) (a : Nat) (h : d.flash.flashWf = true) : (d.flWr a l).flash.flashWf = true := by
  induction l generalizing d a with
  | nil => exact h
  | cons b r ih =>
    exact ih _ (a + 1) (spPut_wf (fun _ => flashDefault) d.flash 0 a b (Nat.zero_le a) h)

theorem wr_wf (d : Dev) (a : Nat) (v : Word) (h : d.regs.wf = true) : (d.wr a v).regs.wf = true :=
  spPut_wf regReset d.regs 0 a v (Nat.zero_le a) h

theorem put_wf (d : Dev) (f : Fld) (v : Nat) (h : d.regs.wf = true) : (d.put f v).regs.wf = true := wr_wf d _ _ h

theorem wrN_wf (d : Dev) (a v : Nat) (h : d.regs.wf = true) : (d.wrN a v).regs.wf = true := wr_wf d _ _ h

theorem copyAct_wf (d : Dev) (a : Nat) (h : d.act.wf = true) : (d.copyAct a).act.wf = true :=
  spPut_wf regReset d.act 0 a (d.rd a) (Nat.zero_le a) h

theorem reset_mem_wf : State.reset.dev.mem.wf = true := rfl

theorem reset_flash_wf : State.reset.dev.flash.flashWf = true := rfl

/-! ### One byte of memory after a store -/

@[simp] theorem ldB_stB_same (d : Dev) (a : Nat) (v : Byte) : (d.stB a v).ldB a = v :=
  spGet_spPut_same memDefault d.mem a v

theorem ldB_stB_ne (d : Dev) (a c : Nat) (v : Byte) (h : c ≠ a) : (d.stB a v).ldB c = d.ldB c :=
  spGet_spPut_ne memDefault memDefault d.mem a c v h

/-- A store of bytes leaves every byte outside them as it was. -/
theorem ldB_stBs_out (l : List Byte) (d : Dev) (a c : Nat) (h : c < a ∨ a + l.length ≤ c) : (d.stBs a l).ldB c = d.ldB c := by
  induction l generalizing d a with
  | nil => rfl
  | cons b r ih =>
    simp only [List.length_cons] at h
    rw [Dev.stBs, ih _ _ (by omega), ldB_stB_ne _ _ _ _ (by omega)]

/-- A store of bytes puts each of them in its place. -/
theorem ldB_stBs_in (l : List Byte) (d : Dev) (a k : Nat) (h : k < l.length) : (d.stBs a l).ldB (a + k) = l[k] := by
  induction l generalizing d a k with
  | nil => exact absurd h (by simp)
  | cons b r ih =>
    cases k with
    | zero => rw [Dev.stBs, ldB_stBs_out r _ _ _ (by omega)]; simp
    | succ k =>
      have hk : k < r.length := by simpa using h
      have := ih (d.stB a b) (a + 1) k hk
      rw [Dev.stBs, show a + (k + 1) = a + 1 + k by omega, this]; rfl

end Sys2Proof.Machine
end

