-- ==== Sys2Proof/Laws/State.lean ====
section
/-! SUPPORT. One lemma per field of the device per update, true by rfl: a part changes, the others stay; and what an update
leaves of registers, fields and bytes of memory. -/

namespace Sys2Proof.Machine


/-! ### onSys -/

@[simp] theorem onSys_c (d : Dev) (f : SysSt → SysSt) : (d.onSys f).c = d.c := rfl
@[simp] theorem onSys_regs (d : Dev) (f : SysSt → SysSt) : (d.onSys f).regs = d.regs := rfl
@[simp] theorem onSys_act (d : Dev) (f : SysSt → SysSt) : (d.onSys f).act = d.act := rfl
@[simp] theorem onSys_mem (d : Dev) (f : SysSt → SysSt) : (d.onSys f).mem = d.mem := rfl
@[simp] theorem onSys_flash (d : Dev) (f : SysSt → SysSt) : (d.onSys f).flash = d.flash := rfl
@[simp] theorem onSys_flashCs1 (d : Dev) (f : SysSt → SysSt) : (d.onSys f).flashCs1 = d.flashCs1 := rfl
@[simp] theorem onSys_hiCap (d : Dev) (f : SysSt → SysSt) : (d.onSys f).hiCap = d.hiCap := rfl
@[simp] theorem onSys_reps (d : Dev) (f : SysSt → SysSt) : (d.onSys f).reps = d.reps := rfl
@[simp] theorem onSys_out (d : Dev) (f : SysSt → SysSt) : (d.onSys f).out = d.out := rfl
@[simp] theorem onSys_freeCtr (d : Dev) (f : SysSt → SysSt) : (d.onSys f).freeCtr = d.freeCtr := rfl
@[simp] theorem onSys_sys (d : Dev) (f : SysSt → SysSt) : (d.onSys f).sys = f d.sys := rfl
@[simp] theorem onSys_cfg (d : Dev) (f : SysSt → SysSt) : (d.onSys f).cfg = d.cfg := rfl
@[simp] theorem onSys_sec (d : Dev) (f : SysSt → SysSt) : (d.onSys f).sec = d.sec := rfl
@[simp] theorem onSys_itk (d : Dev) (f : SysSt → SysSt) : (d.onSys f).itk = d.itk := rfl
@[simp] theorem onSys_pos (d : Dev) (f : SysSt → SysSt) : (d.onSys f).pos = d.pos := rfl
@[simp] theorem onSys_ras (d : Dev) (f : SysSt → SysSt) : (d.onSys f).ras = d.ras := rfl
@[simp] theorem onSys_nzm (d : Dev) (f : SysSt → SysSt) : (d.onSys f).nzm = d.nzm := rfl
@[simp] theorem onSys_fir (d : Dev) (f : SysSt → SysSt) : (d.onSys f).fir = d.fir := rfl
@[simp] theorem onSys_lmp (d : Dev) (f : SysSt → SysSt) : (d.onSys f).lmp = d.lmp := rfl
@[simp] theorem onSys_cam (d : Dev) (f : SysSt → SysSt) : (d.onSys f).cam = d.cam := rfl
@[simp] theorem onSys_vis (d : Dev) (f : SysSt → SysSt) : (d.onSys f).vis = d.vis := rfl
@[simp] theorem onSys_ins (d : Dev) (f : SysSt → SysSt) : (d.onSys f).ins = d.ins := rfl
@[simp] theorem onSys_eth (d : Dev) (f : SysSt → SysSt) : (d.onSys f).eth = d.eth := rfl
@[simp] theorem onSys_ptp (d : Dev) (f : SysSt → SysSt) : (d.onSys f).ptp = d.ptp := rfl
@[simp] theorem onSys_twn (d : Dev) (f : SysSt → SysSt) : (d.onSys f).twn = d.twn := rfl
@[simp] theorem onSys_pgf (d : Dev) (f : SysSt → SysSt) : (d.onSys f).pgf = d.pgf := rfl
@[simp] theorem onSys_dmc (d : Dev) (f : SysSt → SysSt) : (d.onSys f).dmc = d.dmc := rfl
@[simp] theorem onSys_dma (d : Dev) (f : SysSt → SysSt) : (d.onSys f).dma = d.dma := rfl
@[simp] theorem onSys_mramBad (d : Dev) (f : SysSt → SysSt) : (d.onSys f).mramBad = d.mramBad := rfl
@[simp] theorem onSys_rd (d : Dev) (f : SysSt → SysSt) (a : Nat) : (d.onSys f).rd a = d.rd a := rfl
@[simp] theorem onSys_get (d : Dev) (f : SysSt → SysSt) (g : Fld) : (d.onSys f).get g = d.get g := rfl
@[simp] theorem onSys_ldB (d : Dev) (f : SysSt → SysSt) (a : Nat) : (d.onSys f).ldB a = d.ldB a := rfl

/-! ### onCfg -/

@[simp] theorem onCfg_c (d : Dev) (f : CfgSt → CfgSt) : (d.onCfg f).c = d.c := rfl
@[simp] theorem onCfg_regs (d : Dev) (f : CfgSt → CfgSt) : (d.onCfg f).regs = d.regs := rfl
@[simp] theorem onCfg_act (d : Dev) (f : CfgSt → CfgSt) : (d.onCfg f).act = d.act := rfl
@[simp] theorem onCfg_mem (d : Dev) (f : CfgSt → CfgSt) : (d.onCfg f).mem = d.mem := rfl
@[simp] theorem onCfg_flash (d : Dev) (f : CfgSt → CfgSt) : (d.onCfg f).flash = d.flash := rfl
@[simp] theorem onCfg_flashCs1 (d : Dev) (f : CfgSt → CfgSt) : (d.onCfg f).flashCs1 = d.flashCs1 := rfl
@[simp] theorem onCfg_hiCap (d : Dev) (f : CfgSt → CfgSt) : (d.onCfg f).hiCap = d.hiCap := rfl
@[simp] theorem onCfg_reps (d : Dev) (f : CfgSt → CfgSt) : (d.onCfg f).reps = d.reps := rfl
@[simp] theorem onCfg_out (d : Dev) (f : CfgSt → CfgSt) : (d.onCfg f).out = d.out := rfl
@[simp] theorem onCfg_freeCtr (d : Dev) (f : CfgSt → CfgSt) : (d.onCfg f).freeCtr = d.freeCtr := rfl
@[simp] theorem onCfg_sys (d : Dev) (f : CfgSt → CfgSt) : (d.onCfg f).sys = d.sys := rfl
@[simp] theorem onCfg_cfg (d : Dev) (f : CfgSt → CfgSt) : (d.onCfg f).cfg = f d.cfg := rfl
@[simp] theorem onCfg_sec (d : Dev) (f : CfgSt → CfgSt) : (d.onCfg f).sec = d.sec := rfl
@[simp] theorem onCfg_itk (d : Dev) (f : CfgSt → CfgSt) : (d.onCfg f).itk = d.itk := rfl
@[simp] theorem onCfg_pos (d : Dev) (f : CfgSt → CfgSt) : (d.onCfg f).pos = d.pos := rfl
@[simp] theorem onCfg_ras (d : Dev) (f : CfgSt → CfgSt) : (d.onCfg f).ras = d.ras := rfl
@[simp] theorem onCfg_nzm (d : Dev) (f : CfgSt → CfgSt) : (d.onCfg f).nzm = d.nzm := rfl
@[simp] theorem onCfg_fir (d : Dev) (f : CfgSt → CfgSt) : (d.onCfg f).fir = d.fir := rfl
@[simp] theorem onCfg_lmp (d : Dev) (f : CfgSt → CfgSt) : (d.onCfg f).lmp = d.lmp := rfl
@[simp] theorem onCfg_cam (d : Dev) (f : CfgSt → CfgSt) : (d.onCfg f).cam = d.cam := rfl
@[simp] theorem onCfg_vis (d : Dev) (f : CfgSt → CfgSt) : (d.onCfg f).vis = d.vis := rfl
@[simp] theorem onCfg_ins (d : Dev) (f : CfgSt → CfgSt) : (d.onCfg f).ins = d.ins := rfl
@[simp] theorem onCfg_eth (d : Dev) (f : CfgSt → CfgSt) : (d.onCfg f).eth = d.eth := rfl
@[simp] theorem onCfg_ptp (d : Dev) (f : CfgSt → CfgSt) : (d.onCfg f).ptp = d.ptp := rfl
@[simp] theorem onCfg_twn (d : Dev) (f : CfgSt → CfgSt) : (d.onCfg f).twn = d.twn := rfl
@[simp] theorem onCfg_pgf (d : Dev) (f : CfgSt → CfgSt) : (d.onCfg f).pgf = d.pgf := rfl
@[simp] theorem onCfg_dmc (d : Dev) (f : CfgSt → CfgSt) : (d.onCfg f).dmc = d.dmc := rfl
@[simp] theorem onCfg_dma (d : Dev) (f : CfgSt → CfgSt) : (d.onCfg f).dma = d.dma := rfl
@[simp] theorem onCfg_mramBad (d : Dev) (f : CfgSt → CfgSt) : (d.onCfg f).mramBad = d.mramBad := rfl
@[simp] theorem onCfg_rd (d : Dev) (f : CfgSt → CfgSt) (a : Nat) : (d.onCfg f).rd a = d.rd a := rfl
@[simp] theorem onCfg_get (d : Dev) (f : CfgSt → CfgSt) (g : Fld) : (d.onCfg f).get g = d.get g := rfl
@[simp] theorem onCfg_ldB (d : Dev) (f : CfgSt → CfgSt) (a : Nat) : (d.onCfg f).ldB a = d.ldB a := rfl

/-! ### onSec -/

@[simp] theorem onSec_c (d : Dev) (f : SecSt → SecSt) : (d.onSec f).c = d.c := rfl
@[simp] theorem onSec_regs (d : Dev) (f : SecSt → SecSt) : (d.onSec f).regs = d.regs := rfl
@[simp] theorem onSec_act (d : Dev) (f : SecSt → SecSt) : (d.onSec f).act = d.act := rfl
@[simp] theorem onSec_mem (d : Dev) (f : SecSt → SecSt) : (d.onSec f).mem = d.mem := rfl
@[simp] theorem onSec_flash (d : Dev) (f : SecSt → SecSt) : (d.onSec f).flash = d.flash := rfl
@[simp] theorem onSec_flashCs1 (d : Dev) (f : SecSt → SecSt) : (d.onSec f).flashCs1 = d.flashCs1 := rfl
@[simp] theorem onSec_hiCap (d : Dev) (f : SecSt → SecSt) : (d.onSec f).hiCap = d.hiCap := rfl
@[simp] theorem onSec_reps (d : Dev) (f : SecSt → SecSt) : (d.onSec f).reps = d.reps := rfl
@[simp] theorem onSec_out (d : Dev) (f : SecSt → SecSt) : (d.onSec f).out = d.out := rfl
@[simp] theorem onSec_freeCtr (d : Dev) (f : SecSt → SecSt) : (d.onSec f).freeCtr = d.freeCtr := rfl
@[simp] theorem onSec_sys (d : Dev) (f : SecSt → SecSt) : (d.onSec f).sys = d.sys := rfl
@[simp] theorem onSec_cfg (d : Dev) (f : SecSt → SecSt) : (d.onSec f).cfg = d.cfg := rfl
@[simp] theorem onSec_sec (d : Dev) (f : SecSt → SecSt) : (d.onSec f).sec = f d.sec := rfl
@[simp] theorem onSec_itk (d : Dev) (f : SecSt → SecSt) : (d.onSec f).itk = d.itk := rfl
@[simp] theorem onSec_pos (d : Dev) (f : SecSt → SecSt) : (d.onSec f).pos = d.pos := rfl
@[simp] theorem onSec_ras (d : Dev) (f : SecSt → SecSt) : (d.onSec f).ras = d.ras := rfl
@[simp] theorem onSec_nzm (d : Dev) (f : SecSt → SecSt) : (d.onSec f).nzm = d.nzm := rfl
@[simp] theorem onSec_fir (d : Dev) (f : SecSt → SecSt) : (d.onSec f).fir = d.fir := rfl
@[simp] theorem onSec_lmp (d : Dev) (f : SecSt → SecSt) : (d.onSec f).lmp = d.lmp := rfl
@[simp] theorem onSec_cam (d : Dev) (f : SecSt → SecSt) : (d.onSec f).cam = d.cam := rfl
@[simp] theorem onSec_vis (d : Dev) (f : SecSt → SecSt) : (d.onSec f).vis = d.vis := rfl
@[simp] theorem onSec_ins (d : Dev) (f : SecSt → SecSt) : (d.onSec f).ins = d.ins := rfl
@[simp] theorem onSec_eth (d : Dev) (f : SecSt → SecSt) : (d.onSec f).eth = d.eth := rfl
@[simp] theorem onSec_ptp (d : Dev) (f : SecSt → SecSt) : (d.onSec f).ptp = d.ptp := rfl
@[simp] theorem onSec_twn (d : Dev) (f : SecSt → SecSt) : (d.onSec f).twn = d.twn := rfl
@[simp] theorem onSec_pgf (d : Dev) (f : SecSt → SecSt) : (d.onSec f).pgf = d.pgf := rfl
@[simp] theorem onSec_dmc (d : Dev) (f : SecSt → SecSt) : (d.onSec f).dmc = d.dmc := rfl
@[simp] theorem onSec_dma (d : Dev) (f : SecSt → SecSt) : (d.onSec f).dma = d.dma := rfl
@[simp] theorem onSec_mramBad (d : Dev) (f : SecSt → SecSt) : (d.onSec f).mramBad = d.mramBad := rfl
@[simp] theorem onSec_rd (d : Dev) (f : SecSt → SecSt) (a : Nat) : (d.onSec f).rd a = d.rd a := rfl
@[simp] theorem onSec_get (d : Dev) (f : SecSt → SecSt) (g : Fld) : (d.onSec f).get g = d.get g := rfl
@[simp] theorem onSec_ldB (d : Dev) (f : SecSt → SecSt) (a : Nat) : (d.onSec f).ldB a = d.ldB a := rfl

/-! ### onItk -/

@[simp] theorem onItk_c (d : Dev) (f : ItkSt → ItkSt) : (d.onItk f).c = d.c := rfl
@[simp] theorem onItk_regs (d : Dev) (f : ItkSt → ItkSt) : (d.onItk f).regs = d.regs := rfl
@[simp] theorem onItk_act (d : Dev) (f : ItkSt → ItkSt) : (d.onItk f).act = d.act := rfl
@[simp] theorem onItk_mem (d : Dev) (f : ItkSt → ItkSt) : (d.onItk f).mem = d.mem := rfl
@[simp] theorem onItk_flash (d : Dev) (f : ItkSt → ItkSt) : (d.onItk f).flash = d.flash := rfl
@[simp] theorem onItk_flashCs1 (d : Dev) (f : ItkSt → ItkSt) : (d.onItk f).flashCs1 = d.flashCs1 := rfl
@[simp] theorem onItk_hiCap (d : Dev) (f : ItkSt → ItkSt) : (d.onItk f).hiCap = d.hiCap := rfl
@[simp] theorem onItk_reps (d : Dev) (f : ItkSt → ItkSt) : (d.onItk f).reps = d.reps := rfl
@[simp] theorem onItk_out (d : Dev) (f : ItkSt → ItkSt) : (d.onItk f).out = d.out := rfl
@[simp] theorem onItk_freeCtr (d : Dev) (f : ItkSt → ItkSt) : (d.onItk f).freeCtr = d.freeCtr := rfl
@[simp] theorem onItk_sys (d : Dev) (f : ItkSt → ItkSt) : (d.onItk f).sys = d.sys := rfl
@[simp] theorem onItk_cfg (d : Dev) (f : ItkSt → ItkSt) : (d.onItk f).cfg = d.cfg := rfl
@[simp] theorem onItk_sec (d : Dev) (f : ItkSt → ItkSt) : (d.onItk f).sec = d.sec := rfl
@[simp] theorem onItk_itk (d : Dev) (f : ItkSt → ItkSt) : (d.onItk f).itk = f d.itk := rfl
@[simp] theorem onItk_pos (d : Dev) (f : ItkSt → ItkSt) : (d.onItk f).pos = d.pos := rfl
@[simp] theorem onItk_ras (d : Dev) (f : ItkSt → ItkSt) : (d.onItk f).ras = d.ras := rfl
@[simp] theorem onItk_nzm (d : Dev) (f : ItkSt → ItkSt) : (d.onItk f).nzm = d.nzm := rfl
@[simp] theorem onItk_fir (d : Dev) (f : ItkSt → ItkSt) : (d.onItk f).fir = d.fir := rfl
@[simp] theorem onItk_lmp (d : Dev) (f : ItkSt → ItkSt) : (d.onItk f).lmp = d.lmp := rfl
@[simp] theorem onItk_cam (d : Dev) (f : ItkSt → ItkSt) : (d.onItk f).cam = d.cam := rfl
@[simp] theorem onItk_vis (d : Dev) (f : ItkSt → ItkSt) : (d.onItk f).vis = d.vis := rfl
@[simp] theorem onItk_ins (d : Dev) (f : ItkSt → ItkSt) : (d.onItk f).ins = d.ins := rfl
@[simp] theorem onItk_eth (d : Dev) (f : ItkSt → ItkSt) : (d.onItk f).eth = d.eth := rfl
@[simp] theorem onItk_ptp (d : Dev) (f : ItkSt → ItkSt) : (d.onItk f).ptp = d.ptp := rfl
@[simp] theorem onItk_twn (d : Dev) (f : ItkSt → ItkSt) : (d.onItk f).twn = d.twn := rfl
@[simp] theorem onItk_pgf (d : Dev) (f : ItkSt → ItkSt) : (d.onItk f).pgf = d.pgf := rfl
@[simp] theorem onItk_dmc (d : Dev) (f : ItkSt → ItkSt) : (d.onItk f).dmc = d.dmc := rfl
@[simp] theorem onItk_dma (d : Dev) (f : ItkSt → ItkSt) : (d.onItk f).dma = d.dma := rfl
@[simp] theorem onItk_mramBad (d : Dev) (f : ItkSt → ItkSt) : (d.onItk f).mramBad = d.mramBad := rfl
@[simp] theorem onItk_rd (d : Dev) (f : ItkSt → ItkSt) (a : Nat) : (d.onItk f).rd a = d.rd a := rfl
@[simp] theorem onItk_get (d : Dev) (f : ItkSt → ItkSt) (g : Fld) : (d.onItk f).get g = d.get g := rfl
@[simp] theorem onItk_ldB (d : Dev) (f : ItkSt → ItkSt) (a : Nat) : (d.onItk f).ldB a = d.ldB a := rfl

/-! ### onPos -/

@[simp] theorem onPos_c (d : Dev) (f : PosSt → PosSt) : (d.onPos f).c = d.c := rfl
@[simp] theorem onPos_regs (d : Dev) (f : PosSt → PosSt) : (d.onPos f).regs = d.regs := rfl
@[simp] theorem onPos_act (d : Dev) (f : PosSt → PosSt) : (d.onPos f).act = d.act := rfl
@[simp] theorem onPos_mem (d : Dev) (f : PosSt → PosSt) : (d.onPos f).mem = d.mem := rfl
@[simp] theorem onPos_flash (d : Dev) (f : PosSt → PosSt) : (d.onPos f).flash = d.flash := rfl
@[simp] theorem onPos_flashCs1 (d : Dev) (f : PosSt → PosSt) : (d.onPos f).flashCs1 = d.flashCs1 := rfl
@[simp] theorem onPos_hiCap (d : Dev) (f : PosSt → PosSt) : (d.onPos f).hiCap = d.hiCap := rfl
@[simp] theorem onPos_reps (d : Dev) (f : PosSt → PosSt) : (d.onPos f).reps = d.reps := rfl
@[simp] theorem onPos_out (d : Dev) (f : PosSt → PosSt) : (d.onPos f).out = d.out := rfl
@[simp] theorem onPos_freeCtr (d : Dev) (f : PosSt → PosSt) : (d.onPos f).freeCtr = d.freeCtr := rfl
@[simp] theorem onPos_sys (d : Dev) (f : PosSt → PosSt) : (d.onPos f).sys = d.sys := rfl
@[simp] theorem onPos_cfg (d : Dev) (f : PosSt → PosSt) : (d.onPos f).cfg = d.cfg := rfl
@[simp] theorem onPos_sec (d : Dev) (f : PosSt → PosSt) : (d.onPos f).sec = d.sec := rfl
@[simp] theorem onPos_itk (d : Dev) (f : PosSt → PosSt) : (d.onPos f).itk = d.itk := rfl
@[simp] theorem onPos_pos (d : Dev) (f : PosSt → PosSt) : (d.onPos f).pos = f d.pos := rfl
@[simp] theorem onPos_ras (d : Dev) (f : PosSt → PosSt) : (d.onPos f).ras = d.ras := rfl
@[simp] theorem onPos_nzm (d : Dev) (f : PosSt → PosSt) : (d.onPos f).nzm = d.nzm := rfl
@[simp] theorem onPos_fir (d : Dev) (f : PosSt → PosSt) : (d.onPos f).fir = d.fir := rfl
@[simp] theorem onPos_lmp (d : Dev) (f : PosSt → PosSt) : (d.onPos f).lmp = d.lmp := rfl
@[simp] theorem onPos_cam (d : Dev) (f : PosSt → PosSt) : (d.onPos f).cam = d.cam := rfl
@[simp] theorem onPos_vis (d : Dev) (f : PosSt → PosSt) : (d.onPos f).vis = d.vis := rfl
@[simp] theorem onPos_ins (d : Dev) (f : PosSt → PosSt) : (d.onPos f).ins = d.ins := rfl
@[simp] theorem onPos_eth (d : Dev) (f : PosSt → PosSt) : (d.onPos f).eth = d.eth := rfl
@[simp] theorem onPos_ptp (d : Dev) (f : PosSt → PosSt) : (d.onPos f).ptp = d.ptp := rfl
@[simp] theorem onPos_twn (d : Dev) (f : PosSt → PosSt) : (d.onPos f).twn = d.twn := rfl
@[simp] theorem onPos_pgf (d : Dev) (f : PosSt → PosSt) : (d.onPos f).pgf = d.pgf := rfl
@[simp] theorem onPos_dmc (d : Dev) (f : PosSt → PosSt) : (d.onPos f).dmc = d.dmc := rfl
@[simp] theorem onPos_dma (d : Dev) (f : PosSt → PosSt) : (d.onPos f).dma = d.dma := rfl
@[simp] theorem onPos_mramBad (d : Dev) (f : PosSt → PosSt) : (d.onPos f).mramBad = d.mramBad := rfl
@[simp] theorem onPos_rd (d : Dev) (f : PosSt → PosSt) (a : Nat) : (d.onPos f).rd a = d.rd a := rfl
@[simp] theorem onPos_get (d : Dev) (f : PosSt → PosSt) (g : Fld) : (d.onPos f).get g = d.get g := rfl
@[simp] theorem onPos_ldB (d : Dev) (f : PosSt → PosSt) (a : Nat) : (d.onPos f).ldB a = d.ldB a := rfl

/-! ### onTwn -/

@[simp] theorem onTwn_c (d : Dev) (f : TwnSt → TwnSt) : (d.onTwn f).c = d.c := rfl
@[simp] theorem onTwn_regs (d : Dev) (f : TwnSt → TwnSt) : (d.onTwn f).regs = d.regs := rfl
@[simp] theorem onTwn_act (d : Dev) (f : TwnSt → TwnSt) : (d.onTwn f).act = d.act := rfl
@[simp] theorem onTwn_mem (d : Dev) (f : TwnSt → TwnSt) : (d.onTwn f).mem = d.mem := rfl
@[simp] theorem onTwn_flash (d : Dev) (f : TwnSt → TwnSt) : (d.onTwn f).flash = d.flash := rfl
@[simp] theorem onTwn_flashCs1 (d : Dev) (f : TwnSt → TwnSt) : (d.onTwn f).flashCs1 = d.flashCs1 := rfl
@[simp] theorem onTwn_hiCap (d : Dev) (f : TwnSt → TwnSt) : (d.onTwn f).hiCap = d.hiCap := rfl
@[simp] theorem onTwn_reps (d : Dev) (f : TwnSt → TwnSt) : (d.onTwn f).reps = d.reps := rfl
@[simp] theorem onTwn_out (d : Dev) (f : TwnSt → TwnSt) : (d.onTwn f).out = d.out := rfl
@[simp] theorem onTwn_freeCtr (d : Dev) (f : TwnSt → TwnSt) : (d.onTwn f).freeCtr = d.freeCtr := rfl
@[simp] theorem onTwn_sys (d : Dev) (f : TwnSt → TwnSt) : (d.onTwn f).sys = d.sys := rfl
@[simp] theorem onTwn_cfg (d : Dev) (f : TwnSt → TwnSt) : (d.onTwn f).cfg = d.cfg := rfl
@[simp] theorem onTwn_sec (d : Dev) (f : TwnSt → TwnSt) : (d.onTwn f).sec = d.sec := rfl
@[simp] theorem onTwn_itk (d : Dev) (f : TwnSt → TwnSt) : (d.onTwn f).itk = d.itk := rfl
@[simp] theorem onTwn_pos (d : Dev) (f : TwnSt → TwnSt) : (d.onTwn f).pos = d.pos := rfl
@[simp] theorem onTwn_ras (d : Dev) (f : TwnSt → TwnSt) : (d.onTwn f).ras = d.ras := rfl
@[simp] theorem onTwn_nzm (d : Dev) (f : TwnSt → TwnSt) : (d.onTwn f).nzm = d.nzm := rfl
@[simp] theorem onTwn_fir (d : Dev) (f : TwnSt → TwnSt) : (d.onTwn f).fir = d.fir := rfl
@[simp] theorem onTwn_lmp (d : Dev) (f : TwnSt → TwnSt) : (d.onTwn f).lmp = d.lmp := rfl
@[simp] theorem onTwn_cam (d : Dev) (f : TwnSt → TwnSt) : (d.onTwn f).cam = d.cam := rfl
@[simp] theorem onTwn_vis (d : Dev) (f : TwnSt → TwnSt) : (d.onTwn f).vis = d.vis := rfl
@[simp] theorem onTwn_ins (d : Dev) (f : TwnSt → TwnSt) : (d.onTwn f).ins = d.ins := rfl
@[simp] theorem onTwn_eth (d : Dev) (f : TwnSt → TwnSt) : (d.onTwn f).eth = d.eth := rfl
@[simp] theorem onTwn_ptp (d : Dev) (f : TwnSt → TwnSt) : (d.onTwn f).ptp = d.ptp := rfl
@[simp] theorem onTwn_twn (d : Dev) (f : TwnSt → TwnSt) : (d.onTwn f).twn = f d.twn := rfl
@[simp] theorem onTwn_pgf (d : Dev) (f : TwnSt → TwnSt) : (d.onTwn f).pgf = d.pgf := rfl
@[simp] theorem onTwn_dmc (d : Dev) (f : TwnSt → TwnSt) : (d.onTwn f).dmc = d.dmc := rfl
@[simp] theorem onTwn_dma (d : Dev) (f : TwnSt → TwnSt) : (d.onTwn f).dma = d.dma := rfl
@[simp] theorem onTwn_mramBad (d : Dev) (f : TwnSt → TwnSt) : (d.onTwn f).mramBad = d.mramBad := rfl
@[simp] theorem onTwn_rd (d : Dev) (f : TwnSt → TwnSt) (a : Nat) : (d.onTwn f).rd a = d.rd a := rfl
@[simp] theorem onTwn_get (d : Dev) (f : TwnSt → TwnSt) (g : Fld) : (d.onTwn f).get g = d.get g := rfl
@[simp] theorem onTwn_ldB (d : Dev) (f : TwnSt → TwnSt) (a : Nat) : (d.onTwn f).ldB a = d.ldB a := rfl

/-! ### onPgf -/

@[simp] theorem onPgf_c (d : Dev) (f : PgfSt → PgfSt) : (d.onPgf f).c = d.c := rfl
@[simp] theorem onPgf_regs (d : Dev) (f : PgfSt → PgfSt) : (d.onPgf f).regs = d.regs := rfl
@[simp] theorem onPgf_act (d : Dev) (f : PgfSt → PgfSt) : (d.onPgf f).act = d.act := rfl
@[simp] theorem onPgf_mem (d : Dev) (f : PgfSt → PgfSt) : (d.onPgf f).mem = d.mem := rfl
@[simp] theorem onPgf_flash (d : Dev) (f : PgfSt → PgfSt) : (d.onPgf f).flash = d.flash := rfl
@[simp] theorem onPgf_flashCs1 (d : Dev) (f : PgfSt → PgfSt) : (d.onPgf f).flashCs1 = d.flashCs1 := rfl
@[simp] theorem onPgf_hiCap (d : Dev) (f : PgfSt → PgfSt) : (d.onPgf f).hiCap = d.hiCap := rfl
@[simp] theorem onPgf_reps (d : Dev) (f : PgfSt → PgfSt) : (d.onPgf f).reps = d.reps := rfl
@[simp] theorem onPgf_out (d : Dev) (f : PgfSt → PgfSt) : (d.onPgf f).out = d.out := rfl
@[simp] theorem onPgf_freeCtr (d : Dev) (f : PgfSt → PgfSt) : (d.onPgf f).freeCtr = d.freeCtr := rfl
@[simp] theorem onPgf_sys (d : Dev) (f : PgfSt → PgfSt) : (d.onPgf f).sys = d.sys := rfl
@[simp] theorem onPgf_cfg (d : Dev) (f : PgfSt → PgfSt) : (d.onPgf f).cfg = d.cfg := rfl
@[simp] theorem onPgf_sec (d : Dev) (f : PgfSt → PgfSt) : (d.onPgf f).sec = d.sec := rfl
@[simp] theorem onPgf_itk (d : Dev) (f : PgfSt → PgfSt) : (d.onPgf f).itk = d.itk := rfl
@[simp] theorem onPgf_pos (d : Dev) (f : PgfSt → PgfSt) : (d.onPgf f).pos = d.pos := rfl
@[simp] theorem onPgf_ras (d : Dev) (f : PgfSt → PgfSt) : (d.onPgf f).ras = d.ras := rfl
@[simp] theorem onPgf_nzm (d : Dev) (f : PgfSt → PgfSt) : (d.onPgf f).nzm = d.nzm := rfl
@[simp] theorem onPgf_fir (d : Dev) (f : PgfSt → PgfSt) : (d.onPgf f).fir = d.fir := rfl
@[simp] theorem onPgf_lmp (d : Dev) (f : PgfSt → PgfSt) : (d.onPgf f).lmp = d.lmp := rfl
@[simp] theorem onPgf_cam (d : Dev) (f : PgfSt → PgfSt) : (d.onPgf f).cam = d.cam := rfl
@[simp] theorem onPgf_vis (d : Dev) (f : PgfSt → PgfSt) : (d.onPgf f).vis = d.vis := rfl
@[simp] theorem onPgf_ins (d : Dev) (f : PgfSt → PgfSt) : (d.onPgf f).ins = d.ins := rfl
@[simp] theorem onPgf_eth (d : Dev) (f : PgfSt → PgfSt) : (d.onPgf f).eth = d.eth := rfl
@[simp] theorem onPgf_ptp (d : Dev) (f : PgfSt → PgfSt) : (d.onPgf f).ptp = d.ptp := rfl
@[simp] theorem onPgf_twn (d : Dev) (f : PgfSt → PgfSt) : (d.onPgf f).twn = d.twn := rfl
@[simp] theorem onPgf_pgf (d : Dev) (f : PgfSt → PgfSt) : (d.onPgf f).pgf = f d.pgf := rfl
@[simp] theorem onPgf_dmc (d : Dev) (f : PgfSt → PgfSt) : (d.onPgf f).dmc = d.dmc := rfl
@[simp] theorem onPgf_dma (d : Dev) (f : PgfSt → PgfSt) : (d.onPgf f).dma = d.dma := rfl
@[simp] theorem onPgf_mramBad (d : Dev) (f : PgfSt → PgfSt) : (d.onPgf f).mramBad = d.mramBad := rfl
@[simp] theorem onPgf_rd (d : Dev) (f : PgfSt → PgfSt) (a : Nat) : (d.onPgf f).rd a = d.rd a := rfl
@[simp] theorem onPgf_get (d : Dev) (f : PgfSt → PgfSt) (g : Fld) : (d.onPgf f).get g = d.get g := rfl
@[simp] theorem onPgf_ldB (d : Dev) (f : PgfSt → PgfSt) (a : Nat) : (d.onPgf f).ldB a = d.ldB a := rfl

/-! ### onRas -/

@[simp] theorem onRas_c (d : Dev) (f : RasSt → RasSt) : (d.onRas f).c = d.c := rfl
@[simp] theorem onRas_regs (d : Dev) (f : RasSt → RasSt) : (d.onRas f).regs = d.regs := rfl
@[simp] theorem onRas_act (d : Dev) (f : RasSt → RasSt) : (d.onRas f).act = d.act := rfl
@[simp] theorem onRas_mem (d : Dev) (f : RasSt → RasSt) : (d.onRas f).mem = d.mem := rfl
@[simp] theorem onRas_flash (d : Dev) (f : RasSt → RasSt) : (d.onRas f).flash = d.flash := rfl
@[simp] theorem onRas_flashCs1 (d : Dev) (f : RasSt → RasSt) : (d.onRas f).flashCs1 = d.flashCs1 := rfl
@[simp] theorem onRas_hiCap (d : Dev) (f : RasSt → RasSt) : (d.onRas f).hiCap = d.hiCap := rfl
@[simp] theorem onRas_reps (d : Dev) (f : RasSt → RasSt) : (d.onRas f).reps = d.reps := rfl
@[simp] theorem onRas_out (d : Dev) (f : RasSt → RasSt) : (d.onRas f).out = d.out := rfl
@[simp] theorem onRas_freeCtr (d : Dev) (f : RasSt → RasSt) : (d.onRas f).freeCtr = d.freeCtr := rfl
@[simp] theorem onRas_sys (d : Dev) (f : RasSt → RasSt) : (d.onRas f).sys = d.sys := rfl
@[simp] theorem onRas_cfg (d : Dev) (f : RasSt → RasSt) : (d.onRas f).cfg = d.cfg := rfl
@[simp] theorem onRas_sec (d : Dev) (f : RasSt → RasSt) : (d.onRas f).sec = d.sec := rfl
@[simp] theorem onRas_itk (d : Dev) (f : RasSt → RasSt) : (d.onRas f).itk = d.itk := rfl
@[simp] theorem onRas_pos (d : Dev) (f : RasSt → RasSt) : (d.onRas f).pos = d.pos := rfl
@[simp] theorem onRas_ras (d : Dev) (f : RasSt → RasSt) : (d.onRas f).ras = f d.ras := rfl
@[simp] theorem onRas_nzm (d : Dev) (f : RasSt → RasSt) : (d.onRas f).nzm = d.nzm := rfl
@[simp] theorem onRas_fir (d : Dev) (f : RasSt → RasSt) : (d.onRas f).fir = d.fir := rfl
@[simp] theorem onRas_lmp (d : Dev) (f : RasSt → RasSt) : (d.onRas f).lmp = d.lmp := rfl
@[simp] theorem onRas_cam (d : Dev) (f : RasSt → RasSt) : (d.onRas f).cam = d.cam := rfl
@[simp] theorem onRas_vis (d : Dev) (f : RasSt → RasSt) : (d.onRas f).vis = d.vis := rfl
@[simp] theorem onRas_ins (d : Dev) (f : RasSt → RasSt) : (d.onRas f).ins = d.ins := rfl
@[simp] theorem onRas_eth (d : Dev) (f : RasSt → RasSt) : (d.onRas f).eth = d.eth := rfl
@[simp] theorem onRas_ptp (d : Dev) (f : RasSt → RasSt) : (d.onRas f).ptp = d.ptp := rfl
@[simp] theorem onRas_twn (d : Dev) (f : RasSt → RasSt) : (d.onRas f).twn = d.twn := rfl
@[simp] theorem onRas_pgf (d : Dev) (f : RasSt → RasSt) : (d.onRas f).pgf = d.pgf := rfl
@[simp] theorem onRas_dmc (d : Dev) (f : RasSt → RasSt) : (d.onRas f).dmc = d.dmc := rfl
@[simp] theorem onRas_dma (d : Dev) (f : RasSt → RasSt) : (d.onRas f).dma = d.dma := rfl
@[simp] theorem onRas_mramBad (d : Dev) (f : RasSt → RasSt) : (d.onRas f).mramBad = d.mramBad := rfl
@[simp] theorem onRas_rd (d : Dev) (f : RasSt → RasSt) (a : Nat) : (d.onRas f).rd a = d.rd a := rfl
@[simp] theorem onRas_get (d : Dev) (f : RasSt → RasSt) (g : Fld) : (d.onRas f).get g = d.get g := rfl
@[simp] theorem onRas_ldB (d : Dev) (f : RasSt → RasSt) (a : Nat) : (d.onRas f).ldB a = d.ldB a := rfl

/-! ### onNzm -/

@[simp] theorem onNzm_c (d : Dev) (f : NzmSt → NzmSt) : (d.onNzm f).c = d.c := rfl
@[simp] theorem onNzm_regs (d : Dev) (f : NzmSt → NzmSt) : (d.onNzm f).regs = d.regs := rfl
@[simp] theorem onNzm_act (d : Dev) (f : NzmSt → NzmSt) : (d.onNzm f).act = d.act := rfl
@[simp] theorem onNzm_mem (d : Dev) (f : NzmSt → NzmSt) : (d.onNzm f).mem = d.mem := rfl
@[simp] theorem onNzm_flash (d : Dev) (f : NzmSt → NzmSt) : (d.onNzm f).flash = d.flash := rfl
@[simp] theorem onNzm_flashCs1 (d : Dev) (f : NzmSt → NzmSt) : (d.onNzm f).flashCs1 = d.flashCs1 := rfl
@[simp] theorem onNzm_hiCap (d : Dev) (f : NzmSt → NzmSt) : (d.onNzm f).hiCap = d.hiCap := rfl
@[simp] theorem onNzm_reps (d : Dev) (f : NzmSt → NzmSt) : (d.onNzm f).reps = d.reps := rfl
@[simp] theorem onNzm_out (d : Dev) (f : NzmSt → NzmSt) : (d.onNzm f).out = d.out := rfl
@[simp] theorem onNzm_freeCtr (d : Dev) (f : NzmSt → NzmSt) : (d.onNzm f).freeCtr = d.freeCtr := rfl
@[simp] theorem onNzm_sys (d : Dev) (f : NzmSt → NzmSt) : (d.onNzm f).sys = d.sys := rfl
@[simp] theorem onNzm_cfg (d : Dev) (f : NzmSt → NzmSt) : (d.onNzm f).cfg = d.cfg := rfl
@[simp] theorem onNzm_sec (d : Dev) (f : NzmSt → NzmSt) : (d.onNzm f).sec = d.sec := rfl
@[simp] theorem onNzm_itk (d : Dev) (f : NzmSt → NzmSt) : (d.onNzm f).itk = d.itk := rfl
@[simp] theorem onNzm_pos (d : Dev) (f : NzmSt → NzmSt) : (d.onNzm f).pos = d.pos := rfl
@[simp] theorem onNzm_ras (d : Dev) (f : NzmSt → NzmSt) : (d.onNzm f).ras = d.ras := rfl
@[simp] theorem onNzm_nzm (d : Dev) (f : NzmSt → NzmSt) : (d.onNzm f).nzm = f d.nzm := rfl
@[simp] theorem onNzm_fir (d : Dev) (f : NzmSt → NzmSt) : (d.onNzm f).fir = d.fir := rfl
@[simp] theorem onNzm_lmp (d : Dev) (f : NzmSt → NzmSt) : (d.onNzm f).lmp = d.lmp := rfl
@[simp] theorem onNzm_cam (d : Dev) (f : NzmSt → NzmSt) : (d.onNzm f).cam = d.cam := rfl
@[simp] theorem onNzm_vis (d : Dev) (f : NzmSt → NzmSt) : (d.onNzm f).vis = d.vis := rfl
@[simp] theorem onNzm_ins (d : Dev) (f : NzmSt → NzmSt) : (d.onNzm f).ins = d.ins := rfl
@[simp] theorem onNzm_eth (d : Dev) (f : NzmSt → NzmSt) : (d.onNzm f).eth = d.eth := rfl
@[simp] theorem onNzm_ptp (d : Dev) (f : NzmSt → NzmSt) : (d.onNzm f).ptp = d.ptp := rfl
@[simp] theorem onNzm_twn (d : Dev) (f : NzmSt → NzmSt) : (d.onNzm f).twn = d.twn := rfl
@[simp] theorem onNzm_pgf (d : Dev) (f : NzmSt → NzmSt) : (d.onNzm f).pgf = d.pgf := rfl
@[simp] theorem onNzm_dmc (d : Dev) (f : NzmSt → NzmSt) : (d.onNzm f).dmc = d.dmc := rfl
@[simp] theorem onNzm_dma (d : Dev) (f : NzmSt → NzmSt) : (d.onNzm f).dma = d.dma := rfl
@[simp] theorem onNzm_mramBad (d : Dev) (f : NzmSt → NzmSt) : (d.onNzm f).mramBad = d.mramBad := rfl
@[simp] theorem onNzm_rd (d : Dev) (f : NzmSt → NzmSt) (a : Nat) : (d.onNzm f).rd a = d.rd a := rfl
@[simp] theorem onNzm_get (d : Dev) (f : NzmSt → NzmSt) (g : Fld) : (d.onNzm f).get g = d.get g := rfl
@[simp] theorem onNzm_ldB (d : Dev) (f : NzmSt → NzmSt) (a : Nat) : (d.onNzm f).ldB a = d.ldB a := rfl

/-! ### onFir -/

@[simp] theorem onFir_c (d : Dev) (f : FirSt → FirSt) : (d.onFir f).c = d.c := rfl
@[simp] theorem onFir_regs (d : Dev) (f : FirSt → FirSt) : (d.onFir f).regs = d.regs := rfl
@[simp] theorem onFir_act (d : Dev) (f : FirSt → FirSt) : (d.onFir f).act = d.act := rfl
@[simp] theorem onFir_mem (d : Dev) (f : FirSt → FirSt) : (d.onFir f).mem = d.mem := rfl
@[simp] theorem onFir_flash (d : Dev) (f : FirSt → FirSt) : (d.onFir f).flash = d.flash := rfl
@[simp] theorem onFir_flashCs1 (d : Dev) (f : FirSt → FirSt) : (d.onFir f).flashCs1 = d.flashCs1 := rfl
@[simp] theorem onFir_hiCap (d : Dev) (f : FirSt → FirSt) : (d.onFir f).hiCap = d.hiCap := rfl
@[simp] theorem onFir_reps (d : Dev) (f : FirSt → FirSt) : (d.onFir f).reps = d.reps := rfl
@[simp] theorem onFir_out (d : Dev) (f : FirSt → FirSt) : (d.onFir f).out = d.out := rfl
@[simp] theorem onFir_freeCtr (d : Dev) (f : FirSt → FirSt) : (d.onFir f).freeCtr = d.freeCtr := rfl
@[simp] theorem onFir_sys (d : Dev) (f : FirSt → FirSt) : (d.onFir f).sys = d.sys := rfl
@[simp] theorem onFir_cfg (d : Dev) (f : FirSt → FirSt) : (d.onFir f).cfg = d.cfg := rfl
@[simp] theorem onFir_sec (d : Dev) (f : FirSt → FirSt) : (d.onFir f).sec = d.sec := rfl
@[simp] theorem onFir_itk (d : Dev) (f : FirSt → FirSt) : (d.onFir f).itk = d.itk := rfl
@[simp] theorem onFir_pos (d : Dev) (f : FirSt → FirSt) : (d.onFir f).pos = d.pos := rfl
@[simp] theorem onFir_ras (d : Dev) (f : FirSt → FirSt) : (d.onFir f).ras = d.ras := rfl
@[simp] theorem onFir_nzm (d : Dev) (f : FirSt → FirSt) : (d.onFir f).nzm = d.nzm := rfl
@[simp] theorem onFir_fir (d : Dev) (f : FirSt → FirSt) : (d.onFir f).fir = f d.fir := rfl
@[simp] theorem onFir_lmp (d : Dev) (f : FirSt → FirSt) : (d.onFir f).lmp = d.lmp := rfl
@[simp] theorem onFir_cam (d : Dev) (f : FirSt → FirSt) : (d.onFir f).cam = d.cam := rfl
@[simp] theorem onFir_vis (d : Dev) (f : FirSt → FirSt) : (d.onFir f).vis = d.vis := rfl
@[simp] theorem onFir_ins (d : Dev) (f : FirSt → FirSt) : (d.onFir f).ins = d.ins := rfl
@[simp] theorem onFir_eth (d : Dev) (f : FirSt → FirSt) : (d.onFir f).eth = d.eth := rfl
@[simp] theorem onFir_ptp (d : Dev) (f : FirSt → FirSt) : (d.onFir f).ptp = d.ptp := rfl
@[simp] theorem onFir_twn (d : Dev) (f : FirSt → FirSt) : (d.onFir f).twn = d.twn := rfl
@[simp] theorem onFir_pgf (d : Dev) (f : FirSt → FirSt) : (d.onFir f).pgf = d.pgf := rfl
@[simp] theorem onFir_dmc (d : Dev) (f : FirSt → FirSt) : (d.onFir f).dmc = d.dmc := rfl
@[simp] theorem onFir_dma (d : Dev) (f : FirSt → FirSt) : (d.onFir f).dma = d.dma := rfl
@[simp] theorem onFir_mramBad (d : Dev) (f : FirSt → FirSt) : (d.onFir f).mramBad = d.mramBad := rfl
@[simp] theorem onFir_rd (d : Dev) (f : FirSt → FirSt) (a : Nat) : (d.onFir f).rd a = d.rd a := rfl
@[simp] theorem onFir_get (d : Dev) (f : FirSt → FirSt) (g : Fld) : (d.onFir f).get g = d.get g := rfl
@[simp] theorem onFir_ldB (d : Dev) (f : FirSt → FirSt) (a : Nat) : (d.onFir f).ldB a = d.ldB a := rfl

/-! ### onLmp -/

@[simp] theorem onLmp_c (d : Dev) (f : LmpSt → LmpSt) : (d.onLmp f).c = d.c := rfl
@[simp] theorem onLmp_regs (d : Dev) (f : LmpSt → LmpSt) : (d.onLmp f).regs = d.regs := rfl
@[simp] theorem onLmp_act (d : Dev) (f : LmpSt → LmpSt) : (d.onLmp f).act = d.act := rfl
@[simp] theorem onLmp_mem (d : Dev) (f : LmpSt → LmpSt) : (d.onLmp f).mem = d.mem := rfl
@[simp] theorem onLmp_flash (d : Dev) (f : LmpSt → LmpSt) : (d.onLmp f).flash = d.flash := rfl
@[simp] theorem onLmp_flashCs1 (d : Dev) (f : LmpSt → LmpSt) : (d.onLmp f).flashCs1 = d.flashCs1 := rfl
@[simp] theorem onLmp_hiCap (d : Dev) (f : LmpSt → LmpSt) : (d.onLmp f).hiCap = d.hiCap := rfl
@[simp] theorem onLmp_reps (d : Dev) (f : LmpSt → LmpSt) : (d.onLmp f).reps = d.reps := rfl
@[simp] theorem onLmp_out (d : Dev) (f : LmpSt → LmpSt) : (d.onLmp f).out = d.out := rfl
@[simp] theorem onLmp_freeCtr (d : Dev) (f : LmpSt → LmpSt) : (d.onLmp f).freeCtr = d.freeCtr := rfl
@[simp] theorem onLmp_sys (d : Dev) (f : LmpSt → LmpSt) : (d.onLmp f).sys = d.sys := rfl
@[simp] theorem onLmp_cfg (d : Dev) (f : LmpSt → LmpSt) : (d.onLmp f).cfg = d.cfg := rfl
@[simp] theorem onLmp_sec (d : Dev) (f : LmpSt → LmpSt) : (d.onLmp f).sec = d.sec := rfl
@[simp] theorem onLmp_itk (d : Dev) (f : LmpSt → LmpSt) : (d.onLmp f).itk = d.itk := rfl
@[simp] theorem onLmp_pos (d : Dev) (f : LmpSt → LmpSt) : (d.onLmp f).pos = d.pos := rfl
@[simp] theorem onLmp_ras (d : Dev) (f : LmpSt → LmpSt) : (d.onLmp f).ras = d.ras := rfl
@[simp] theorem onLmp_nzm (d : Dev) (f : LmpSt → LmpSt) : (d.onLmp f).nzm = d.nzm := rfl
@[simp] theorem onLmp_fir (d : Dev) (f : LmpSt → LmpSt) : (d.onLmp f).fir = d.fir := rfl
@[simp] theorem onLmp_lmp (d : Dev) (f : LmpSt → LmpSt) : (d.onLmp f).lmp = f d.lmp := rfl
@[simp] theorem onLmp_cam (d : Dev) (f : LmpSt → LmpSt) : (d.onLmp f).cam = d.cam := rfl
@[simp] theorem onLmp_vis (d : Dev) (f : LmpSt → LmpSt) : (d.onLmp f).vis = d.vis := rfl
@[simp] theorem onLmp_ins (d : Dev) (f : LmpSt → LmpSt) : (d.onLmp f).ins = d.ins := rfl
@[simp] theorem onLmp_eth (d : Dev) (f : LmpSt → LmpSt) : (d.onLmp f).eth = d.eth := rfl
@[simp] theorem onLmp_ptp (d : Dev) (f : LmpSt → LmpSt) : (d.onLmp f).ptp = d.ptp := rfl
@[simp] theorem onLmp_twn (d : Dev) (f : LmpSt → LmpSt) : (d.onLmp f).twn = d.twn := rfl
@[simp] theorem onLmp_pgf (d : Dev) (f : LmpSt → LmpSt) : (d.onLmp f).pgf = d.pgf := rfl
@[simp] theorem onLmp_dmc (d : Dev) (f : LmpSt → LmpSt) : (d.onLmp f).dmc = d.dmc := rfl
@[simp] theorem onLmp_dma (d : Dev) (f : LmpSt → LmpSt) : (d.onLmp f).dma = d.dma := rfl
@[simp] theorem onLmp_mramBad (d : Dev) (f : LmpSt → LmpSt) : (d.onLmp f).mramBad = d.mramBad := rfl
@[simp] theorem onLmp_rd (d : Dev) (f : LmpSt → LmpSt) (a : Nat) : (d.onLmp f).rd a = d.rd a := rfl
@[simp] theorem onLmp_get (d : Dev) (f : LmpSt → LmpSt) (g : Fld) : (d.onLmp f).get g = d.get g := rfl
@[simp] theorem onLmp_ldB (d : Dev) (f : LmpSt → LmpSt) (a : Nat) : (d.onLmp f).ldB a = d.ldB a := rfl

/-! ### onCam -/

@[simp] theorem onCam_c (d : Dev) (f : CamSt → CamSt) : (d.onCam f).c = d.c := rfl
@[simp] theorem onCam_regs (d : Dev) (f : CamSt → CamSt) : (d.onCam f).regs = d.regs := rfl
@[simp] theorem onCam_act (d : Dev) (f : CamSt → CamSt) : (d.onCam f).act = d.act := rfl
@[simp] theorem onCam_mem (d : Dev) (f : CamSt → CamSt) : (d.onCam f).mem = d.mem := rfl
@[simp] theorem onCam_flash (d : Dev) (f : CamSt → CamSt) : (d.onCam f).flash = d.flash := rfl
@[simp] theorem onCam_flashCs1 (d : Dev) (f : CamSt → CamSt) : (d.onCam f).flashCs1 = d.flashCs1 := rfl
@[simp] theorem onCam_hiCap (d : Dev) (f : CamSt → CamSt) : (d.onCam f).hiCap = d.hiCap := rfl
@[simp] theorem onCam_reps (d : Dev) (f : CamSt → CamSt) : (d.onCam f).reps = d.reps := rfl
@[simp] theorem onCam_out (d : Dev) (f : CamSt → CamSt) : (d.onCam f).out = d.out := rfl
@[simp] theorem onCam_freeCtr (d : Dev) (f : CamSt → CamSt) : (d.onCam f).freeCtr = d.freeCtr := rfl
@[simp] theorem onCam_sys (d : Dev) (f : CamSt → CamSt) : (d.onCam f).sys = d.sys := rfl
@[simp] theorem onCam_cfg (d : Dev) (f : CamSt → CamSt) : (d.onCam f).cfg = d.cfg := rfl
@[simp] theorem onCam_sec (d : Dev) (f : CamSt → CamSt) : (d.onCam f).sec = d.sec := rfl
@[simp] theorem onCam_itk (d : Dev) (f : CamSt → CamSt) : (d.onCam f).itk = d.itk := rfl
@[simp] theorem onCam_pos (d : Dev) (f : CamSt → CamSt) : (d.onCam f).pos = d.pos := rfl
@[simp] theorem onCam_ras (d : Dev) (f : CamSt → CamSt) : (d.onCam f).ras = d.ras := rfl
@[simp] theorem onCam_nzm (d : Dev) (f : CamSt → CamSt) : (d.onCam f).nzm = d.nzm := rfl
@[simp] theorem onCam_fir (d : Dev) (f : CamSt → CamSt) : (d.onCam f).fir = d.fir := rfl
@[simp] theorem onCam_lmp (d : Dev) (f : CamSt → CamSt) : (d.onCam f).lmp = d.lmp := rfl
@[simp] theorem onCam_cam (d : Dev) (f : CamSt → CamSt) : (d.onCam f).cam = f d.cam := rfl
@[simp] theorem onCam_vis (d : Dev) (f : CamSt → CamSt) : (d.onCam f).vis = d.vis := rfl
@[simp] theorem onCam_ins (d : Dev) (f : CamSt → CamSt) : (d.onCam f).ins = d.ins := rfl
@[simp] theorem onCam_eth (d : Dev) (f : CamSt → CamSt) : (d.onCam f).eth = d.eth := rfl
@[simp] theorem onCam_ptp (d : Dev) (f : CamSt → CamSt) : (d.onCam f).ptp = d.ptp := rfl
@[simp] theorem onCam_twn (d : Dev) (f : CamSt → CamSt) : (d.onCam f).twn = d.twn := rfl
@[simp] theorem onCam_pgf (d : Dev) (f : CamSt → CamSt) : (d.onCam f).pgf = d.pgf := rfl
@[simp] theorem onCam_dmc (d : Dev) (f : CamSt → CamSt) : (d.onCam f).dmc = d.dmc := rfl
@[simp] theorem onCam_dma (d : Dev) (f : CamSt → CamSt) : (d.onCam f).dma = d.dma := rfl
@[simp] theorem onCam_mramBad (d : Dev) (f : CamSt → CamSt) : (d.onCam f).mramBad = d.mramBad := rfl
@[simp] theorem onCam_rd (d : Dev) (f : CamSt → CamSt) (a : Nat) : (d.onCam f).rd a = d.rd a := rfl
@[simp] theorem onCam_get (d : Dev) (f : CamSt → CamSt) (g : Fld) : (d.onCam f).get g = d.get g := rfl
@[simp] theorem onCam_ldB (d : Dev) (f : CamSt → CamSt) (a : Nat) : (d.onCam f).ldB a = d.ldB a := rfl

/-! ### onVis -/

@[simp] theorem onVis_c (d : Dev) (f : VisSt → VisSt) : (d.onVis f).c = d.c := rfl
@[simp] theorem onVis_regs (d : Dev) (f : VisSt → VisSt) : (d.onVis f).regs = d.regs := rfl
@[simp] theorem onVis_act (d : Dev) (f : VisSt → VisSt) : (d.onVis f).act = d.act := rfl
@[simp] theorem onVis_mem (d : Dev) (f : VisSt → VisSt) : (d.onVis f).mem = d.mem := rfl
@[simp] theorem onVis_flash (d : Dev) (f : VisSt → VisSt) : (d.onVis f).flash = d.flash := rfl
@[simp] theorem onVis_flashCs1 (d : Dev) (f : VisSt → VisSt) : (d.onVis f).flashCs1 = d.flashCs1 := rfl
@[simp] theorem onVis_hiCap (d : Dev) (f : VisSt → VisSt) : (d.onVis f).hiCap = d.hiCap := rfl
@[simp] theorem onVis_reps (d : Dev) (f : VisSt → VisSt) : (d.onVis f).reps = d.reps := rfl
@[simp] theorem onVis_out (d : Dev) (f : VisSt → VisSt) : (d.onVis f).out = d.out := rfl
@[simp] theorem onVis_freeCtr (d : Dev) (f : VisSt → VisSt) : (d.onVis f).freeCtr = d.freeCtr := rfl
@[simp] theorem onVis_sys (d : Dev) (f : VisSt → VisSt) : (d.onVis f).sys = d.sys := rfl
@[simp] theorem onVis_cfg (d : Dev) (f : VisSt → VisSt) : (d.onVis f).cfg = d.cfg := rfl
@[simp] theorem onVis_sec (d : Dev) (f : VisSt → VisSt) : (d.onVis f).sec = d.sec := rfl
@[simp] theorem onVis_itk (d : Dev) (f : VisSt → VisSt) : (d.onVis f).itk = d.itk := rfl
@[simp] theorem onVis_pos (d : Dev) (f : VisSt → VisSt) : (d.onVis f).pos = d.pos := rfl
@[simp] theorem onVis_ras (d : Dev) (f : VisSt → VisSt) : (d.onVis f).ras = d.ras := rfl
@[simp] theorem onVis_nzm (d : Dev) (f : VisSt → VisSt) : (d.onVis f).nzm = d.nzm := rfl
@[simp] theorem onVis_fir (d : Dev) (f : VisSt → VisSt) : (d.onVis f).fir = d.fir := rfl
@[simp] theorem onVis_lmp (d : Dev) (f : VisSt → VisSt) : (d.onVis f).lmp = d.lmp := rfl
@[simp] theorem onVis_cam (d : Dev) (f : VisSt → VisSt) : (d.onVis f).cam = d.cam := rfl
@[simp] theorem onVis_vis (d : Dev) (f : VisSt → VisSt) : (d.onVis f).vis = f d.vis := rfl
@[simp] theorem onVis_ins (d : Dev) (f : VisSt → VisSt) : (d.onVis f).ins = d.ins := rfl
@[simp] theorem onVis_eth (d : Dev) (f : VisSt → VisSt) : (d.onVis f).eth = d.eth := rfl
@[simp] theorem onVis_ptp (d : Dev) (f : VisSt → VisSt) : (d.onVis f).ptp = d.ptp := rfl
@[simp] theorem onVis_twn (d : Dev) (f : VisSt → VisSt) : (d.onVis f).twn = d.twn := rfl
@[simp] theorem onVis_pgf (d : Dev) (f : VisSt → VisSt) : (d.onVis f).pgf = d.pgf := rfl
@[simp] theorem onVis_dmc (d : Dev) (f : VisSt → VisSt) : (d.onVis f).dmc = d.dmc := rfl
@[simp] theorem onVis_dma (d : Dev) (f : VisSt → VisSt) : (d.onVis f).dma = d.dma := rfl
@[simp] theorem onVis_mramBad (d : Dev) (f : VisSt → VisSt) : (d.onVis f).mramBad = d.mramBad := rfl
@[simp] theorem onVis_rd (d : Dev) (f : VisSt → VisSt) (a : Nat) : (d.onVis f).rd a = d.rd a := rfl
@[simp] theorem onVis_get (d : Dev) (f : VisSt → VisSt) (g : Fld) : (d.onVis f).get g = d.get g := rfl
@[simp] theorem onVis_ldB (d : Dev) (f : VisSt → VisSt) (a : Nat) : (d.onVis f).ldB a = d.ldB a := rfl

/-! ### onIns -/

@[simp] theorem onIns_c (d : Dev) (f : InsSt → InsSt) : (d.onIns f).c = d.c := rfl
@[simp] theorem onIns_regs (d : Dev) (f : InsSt → InsSt) : (d.onIns f).regs = d.regs := rfl
@[simp] theorem onIns_act (d : Dev) (f : InsSt → InsSt) : (d.onIns f).act = d.act := rfl
@[simp] theorem onIns_mem (d : Dev) (f : InsSt → InsSt) : (d.onIns f).mem = d.mem := rfl
@[simp] theorem onIns_flash (d : Dev) (f : InsSt → InsSt) : (d.onIns f).flash = d.flash := rfl
@[simp] theorem onIns_flashCs1 (d : Dev) (f : InsSt → InsSt) : (d.onIns f).flashCs1 = d.flashCs1 := rfl
@[simp] theorem onIns_hiCap (d : Dev) (f : InsSt → InsSt) : (d.onIns f).hiCap = d.hiCap := rfl
@[simp] theorem onIns_reps (d : Dev) (f : InsSt → InsSt) : (d.onIns f).reps = d.reps := rfl
@[simp] theorem onIns_out (d : Dev) (f : InsSt → InsSt) : (d.onIns f).out = d.out := rfl
@[simp] theorem onIns_freeCtr (d : Dev) (f : InsSt → InsSt) : (d.onIns f).freeCtr = d.freeCtr := rfl
@[simp] theorem onIns_sys (d : Dev) (f : InsSt → InsSt) : (d.onIns f).sys = d.sys := rfl
@[simp] theorem onIns_cfg (d : Dev) (f : InsSt → InsSt) : (d.onIns f).cfg = d.cfg := rfl
@[simp] theorem onIns_sec (d : Dev) (f : InsSt → InsSt) : (d.onIns f).sec = d.sec := rfl
@[simp] theorem onIns_itk (d : Dev) (f : InsSt → InsSt) : (d.onIns f).itk = d.itk := rfl
@[simp] theorem onIns_pos (d : Dev) (f : InsSt → InsSt) : (d.onIns f).pos = d.pos := rfl
@[simp] theorem onIns_ras (d : Dev) (f : InsSt → InsSt) : (d.onIns f).ras = d.ras := rfl
@[simp] theorem onIns_nzm (d : Dev) (f : InsSt → InsSt) : (d.onIns f).nzm = d.nzm := rfl
@[simp] theorem onIns_fir (d : Dev) (f : InsSt → InsSt) : (d.onIns f).fir = d.fir := rfl
@[simp] theorem onIns_lmp (d : Dev) (f : InsSt → InsSt) : (d.onIns f).lmp = d.lmp := rfl
@[simp] theorem onIns_cam (d : Dev) (f : InsSt → InsSt) : (d.onIns f).cam = d.cam := rfl
@[simp] theorem onIns_vis (d : Dev) (f : InsSt → InsSt) : (d.onIns f).vis = d.vis := rfl
@[simp] theorem onIns_ins (d : Dev) (f : InsSt → InsSt) : (d.onIns f).ins = f d.ins := rfl
@[simp] theorem onIns_eth (d : Dev) (f : InsSt → InsSt) : (d.onIns f).eth = d.eth := rfl
@[simp] theorem onIns_ptp (d : Dev) (f : InsSt → InsSt) : (d.onIns f).ptp = d.ptp := rfl
@[simp] theorem onIns_twn (d : Dev) (f : InsSt → InsSt) : (d.onIns f).twn = d.twn := rfl
@[simp] theorem onIns_pgf (d : Dev) (f : InsSt → InsSt) : (d.onIns f).pgf = d.pgf := rfl
@[simp] theorem onIns_dmc (d : Dev) (f : InsSt → InsSt) : (d.onIns f).dmc = d.dmc := rfl
@[simp] theorem onIns_dma (d : Dev) (f : InsSt → InsSt) : (d.onIns f).dma = d.dma := rfl
@[simp] theorem onIns_mramBad (d : Dev) (f : InsSt → InsSt) : (d.onIns f).mramBad = d.mramBad := rfl
@[simp] theorem onIns_rd (d : Dev) (f : InsSt → InsSt) (a : Nat) : (d.onIns f).rd a = d.rd a := rfl
@[simp] theorem onIns_get (d : Dev) (f : InsSt → InsSt) (g : Fld) : (d.onIns f).get g = d.get g := rfl
@[simp] theorem onIns_ldB (d : Dev) (f : InsSt → InsSt) (a : Nat) : (d.onIns f).ldB a = d.ldB a := rfl

/-! ### onPtp -/

@[simp] theorem onPtp_c (d : Dev) (f : PtpSt → PtpSt) : (d.onPtp f).c = d.c := rfl
@[simp] theorem onPtp_regs (d : Dev) (f : PtpSt → PtpSt) : (d.onPtp f).regs = d.regs := rfl
@[simp] theorem onPtp_act (d : Dev) (f : PtpSt → PtpSt) : (d.onPtp f).act = d.act := rfl
@[simp] theorem onPtp_mem (d : Dev) (f : PtpSt → PtpSt) : (d.onPtp f).mem = d.mem := rfl
@[simp] theorem onPtp_flash (d : Dev) (f : PtpSt → PtpSt) : (d.onPtp f).flash = d.flash := rfl
@[simp] theorem onPtp_flashCs1 (d : Dev) (f : PtpSt → PtpSt) : (d.onPtp f).flashCs1 = d.flashCs1 := rfl
@[simp] theorem onPtp_hiCap (d : Dev) (f : PtpSt → PtpSt) : (d.onPtp f).hiCap = d.hiCap := rfl
@[simp] theorem onPtp_reps (d : Dev) (f : PtpSt → PtpSt) : (d.onPtp f).reps = d.reps := rfl
@[simp] theorem onPtp_out (d : Dev) (f : PtpSt → PtpSt) : (d.onPtp f).out = d.out := rfl
@[simp] theorem onPtp_freeCtr (d : Dev) (f : PtpSt → PtpSt) : (d.onPtp f).freeCtr = d.freeCtr := rfl
@[simp] theorem onPtp_sys (d : Dev) (f : PtpSt → PtpSt) : (d.onPtp f).sys = d.sys := rfl
@[simp] theorem onPtp_cfg (d : Dev) (f : PtpSt → PtpSt) : (d.onPtp f).cfg = d.cfg := rfl
@[simp] theorem onPtp_sec (d : Dev) (f : PtpSt → PtpSt) : (d.onPtp f).sec = d.sec := rfl
@[simp] theorem onPtp_itk (d : Dev) (f : PtpSt → PtpSt) : (d.onPtp f).itk = d.itk := rfl
@[simp] theorem onPtp_pos (d : Dev) (f : PtpSt → PtpSt) : (d.onPtp f).pos = d.pos := rfl
@[simp] theorem onPtp_ras (d : Dev) (f : PtpSt → PtpSt) : (d.onPtp f).ras = d.ras := rfl
@[simp] theorem onPtp_nzm (d : Dev) (f : PtpSt → PtpSt) : (d.onPtp f).nzm = d.nzm := rfl
@[simp] theorem onPtp_fir (d : Dev) (f : PtpSt → PtpSt) : (d.onPtp f).fir = d.fir := rfl
@[simp] theorem onPtp_lmp (d : Dev) (f : PtpSt → PtpSt) : (d.onPtp f).lmp = d.lmp := rfl
@[simp] theorem onPtp_cam (d : Dev) (f : PtpSt → PtpSt) : (d.onPtp f).cam = d.cam := rfl
@[simp] theorem onPtp_vis (d : Dev) (f : PtpSt → PtpSt) : (d.onPtp f).vis = d.vis := rfl
@[simp] theorem onPtp_ins (d : Dev) (f : PtpSt → PtpSt) : (d.onPtp f).ins = d.ins := rfl
@[simp] theorem onPtp_eth (d : Dev) (f : PtpSt → PtpSt) : (d.onPtp f).eth = d.eth := rfl
@[simp] theorem onPtp_ptp (d : Dev) (f : PtpSt → PtpSt) : (d.onPtp f).ptp = f d.ptp := rfl
@[simp] theorem onPtp_twn (d : Dev) (f : PtpSt → PtpSt) : (d.onPtp f).twn = d.twn := rfl
@[simp] theorem onPtp_pgf (d : Dev) (f : PtpSt → PtpSt) : (d.onPtp f).pgf = d.pgf := rfl
@[simp] theorem onPtp_dmc (d : Dev) (f : PtpSt → PtpSt) : (d.onPtp f).dmc = d.dmc := rfl
@[simp] theorem onPtp_dma (d : Dev) (f : PtpSt → PtpSt) : (d.onPtp f).dma = d.dma := rfl
@[simp] theorem onPtp_mramBad (d : Dev) (f : PtpSt → PtpSt) : (d.onPtp f).mramBad = d.mramBad := rfl
@[simp] theorem onPtp_rd (d : Dev) (f : PtpSt → PtpSt) (a : Nat) : (d.onPtp f).rd a = d.rd a := rfl
@[simp] theorem onPtp_get (d : Dev) (f : PtpSt → PtpSt) (g : Fld) : (d.onPtp f).get g = d.get g := rfl
@[simp] theorem onPtp_ldB (d : Dev) (f : PtpSt → PtpSt) (a : Nat) : (d.onPtp f).ldB a = d.ldB a := rfl

/-! ### onEth -/

@[simp] theorem onEth_c (d : Dev) (f : EthSt → EthSt) : (d.onEth f).c = d.c := rfl
@[simp] theorem onEth_regs (d : Dev) (f : EthSt → EthSt) : (d.onEth f).regs = d.regs := rfl
@[simp] theorem onEth_act (d : Dev) (f : EthSt → EthSt) : (d.onEth f).act = d.act := rfl
@[simp] theorem onEth_mem (d : Dev) (f : EthSt → EthSt) : (d.onEth f).mem = d.mem := rfl
@[simp] theorem onEth_flash (d : Dev) (f : EthSt → EthSt) : (d.onEth f).flash = d.flash := rfl
@[simp] theorem onEth_flashCs1 (d : Dev) (f : EthSt → EthSt) : (d.onEth f).flashCs1 = d.flashCs1 := rfl
@[simp] theorem onEth_hiCap (d : Dev) (f : EthSt → EthSt) : (d.onEth f).hiCap = d.hiCap := rfl
@[simp] theorem onEth_reps (d : Dev) (f : EthSt → EthSt) : (d.onEth f).reps = d.reps := rfl
@[simp] theorem onEth_out (d : Dev) (f : EthSt → EthSt) : (d.onEth f).out = d.out := rfl
@[simp] theorem onEth_freeCtr (d : Dev) (f : EthSt → EthSt) : (d.onEth f).freeCtr = d.freeCtr := rfl
@[simp] theorem onEth_sys (d : Dev) (f : EthSt → EthSt) : (d.onEth f).sys = d.sys := rfl
@[simp] theorem onEth_cfg (d : Dev) (f : EthSt → EthSt) : (d.onEth f).cfg = d.cfg := rfl
@[simp] theorem onEth_sec (d : Dev) (f : EthSt → EthSt) : (d.onEth f).sec = d.sec := rfl
@[simp] theorem onEth_itk (d : Dev) (f : EthSt → EthSt) : (d.onEth f).itk = d.itk := rfl
@[simp] theorem onEth_pos (d : Dev) (f : EthSt → EthSt) : (d.onEth f).pos = d.pos := rfl
@[simp] theorem onEth_ras (d : Dev) (f : EthSt → EthSt) : (d.onEth f).ras = d.ras := rfl
@[simp] theorem onEth_nzm (d : Dev) (f : EthSt → EthSt) : (d.onEth f).nzm = d.nzm := rfl
@[simp] theorem onEth_fir (d : Dev) (f : EthSt → EthSt) : (d.onEth f).fir = d.fir := rfl
@[simp] theorem onEth_lmp (d : Dev) (f : EthSt → EthSt) : (d.onEth f).lmp = d.lmp := rfl
@[simp] theorem onEth_cam (d : Dev) (f : EthSt → EthSt) : (d.onEth f).cam = d.cam := rfl
@[simp] theorem onEth_vis (d : Dev) (f : EthSt → EthSt) : (d.onEth f).vis = d.vis := rfl
@[simp] theorem onEth_ins (d : Dev) (f : EthSt → EthSt) : (d.onEth f).ins = d.ins := rfl
@[simp] theorem onEth_eth (d : Dev) (f : EthSt → EthSt) : (d.onEth f).eth = f d.eth := rfl
@[simp] theorem onEth_ptp (d : Dev) (f : EthSt → EthSt) : (d.onEth f).ptp = d.ptp := rfl
@[simp] theorem onEth_twn (d : Dev) (f : EthSt → EthSt) : (d.onEth f).twn = d.twn := rfl
@[simp] theorem onEth_pgf (d : Dev) (f : EthSt → EthSt) : (d.onEth f).pgf = d.pgf := rfl
@[simp] theorem onEth_dmc (d : Dev) (f : EthSt → EthSt) : (d.onEth f).dmc = d.dmc := rfl
@[simp] theorem onEth_dma (d : Dev) (f : EthSt → EthSt) : (d.onEth f).dma = d.dma := rfl
@[simp] theorem onEth_mramBad (d : Dev) (f : EthSt → EthSt) : (d.onEth f).mramBad = d.mramBad := rfl
@[simp] theorem onEth_rd (d : Dev) (f : EthSt → EthSt) (a : Nat) : (d.onEth f).rd a = d.rd a := rfl
@[simp] theorem onEth_get (d : Dev) (f : EthSt → EthSt) (g : Fld) : (d.onEth f).get g = d.get g := rfl
@[simp] theorem onEth_ldB (d : Dev) (f : EthSt → EthSt) (a : Nat) : (d.onEth f).ldB a = d.ldB a := rfl

/-! ### onDmc -/

@[simp] theorem onDmc_c (d : Dev) (f : DmcSt → DmcSt) : (d.onDmc f).c = d.c := rfl
@[simp] theorem onDmc_regs (d : Dev) (f : DmcSt → DmcSt) : (d.onDmc f).regs = d.regs := rfl
@[simp] theorem onDmc_act (d : Dev) (f : DmcSt → DmcSt) : (d.onDmc f).act = d.act := rfl
@[simp] theorem onDmc_mem (d : Dev) (f : DmcSt → DmcSt) : (d.onDmc f).mem = d.mem := rfl
@[simp] theorem onDmc_flash (d : Dev) (f : DmcSt → DmcSt) : (d.onDmc f).flash = d.flash := rfl
@[simp] theorem onDmc_flashCs1 (d : Dev) (f : DmcSt → DmcSt) : (d.onDmc f).flashCs1 = d.flashCs1 := rfl
@[simp] theorem onDmc_hiCap (d : Dev) (f : DmcSt → DmcSt) : (d.onDmc f).hiCap = d.hiCap := rfl
@[simp] theorem onDmc_reps (d : Dev) (f : DmcSt → DmcSt) : (d.onDmc f).reps = d.reps := rfl
@[simp] theorem onDmc_out (d : Dev) (f : DmcSt → DmcSt) : (d.onDmc f).out = d.out := rfl
@[simp] theorem onDmc_freeCtr (d : Dev) (f : DmcSt → DmcSt) : (d.onDmc f).freeCtr = d.freeCtr := rfl
@[simp] theorem onDmc_sys (d : Dev) (f : DmcSt → DmcSt) : (d.onDmc f).sys = d.sys := rfl
@[simp] theorem onDmc_cfg (d : Dev) (f : DmcSt → DmcSt) : (d.onDmc f).cfg = d.cfg := rfl
@[simp] theorem onDmc_sec (d : Dev) (f : DmcSt → DmcSt) : (d.onDmc f).sec = d.sec := rfl
@[simp] theorem onDmc_itk (d : Dev) (f : DmcSt → DmcSt) : (d.onDmc f).itk = d.itk := rfl
@[simp] theorem onDmc_pos (d : Dev) (f : DmcSt → DmcSt) : (d.onDmc f).pos = d.pos := rfl
@[simp] theorem onDmc_ras (d : Dev) (f : DmcSt → DmcSt) : (d.onDmc f).ras = d.ras := rfl
@[simp] theorem onDmc_nzm (d : Dev) (f : DmcSt → DmcSt) : (d.onDmc f).nzm = d.nzm := rfl
@[simp] theorem onDmc_fir (d : Dev) (f : DmcSt → DmcSt) : (d.onDmc f).fir = d.fir := rfl
@[simp] theorem onDmc_lmp (d : Dev) (f : DmcSt → DmcSt) : (d.onDmc f).lmp = d.lmp := rfl
@[simp] theorem onDmc_cam (d : Dev) (f : DmcSt → DmcSt) : (d.onDmc f).cam = d.cam := rfl
@[simp] theorem onDmc_vis (d : Dev) (f : DmcSt → DmcSt) : (d.onDmc f).vis = d.vis := rfl
@[simp] theorem onDmc_ins (d : Dev) (f : DmcSt → DmcSt) : (d.onDmc f).ins = d.ins := rfl
@[simp] theorem onDmc_eth (d : Dev) (f : DmcSt → DmcSt) : (d.onDmc f).eth = d.eth := rfl
@[simp] theorem onDmc_ptp (d : Dev) (f : DmcSt → DmcSt) : (d.onDmc f).ptp = d.ptp := rfl
@[simp] theorem onDmc_twn (d : Dev) (f : DmcSt → DmcSt) : (d.onDmc f).twn = d.twn := rfl
@[simp] theorem onDmc_pgf (d : Dev) (f : DmcSt → DmcSt) : (d.onDmc f).pgf = d.pgf := rfl
@[simp] theorem onDmc_dmc (d : Dev) (f : DmcSt → DmcSt) : (d.onDmc f).dmc = f d.dmc := rfl
@[simp] theorem onDmc_dma (d : Dev) (f : DmcSt → DmcSt) : (d.onDmc f).dma = d.dma := rfl
@[simp] theorem onDmc_mramBad (d : Dev) (f : DmcSt → DmcSt) : (d.onDmc f).mramBad = d.mramBad := rfl
@[simp] theorem onDmc_rd (d : Dev) (f : DmcSt → DmcSt) (a : Nat) : (d.onDmc f).rd a = d.rd a := rfl
@[simp] theorem onDmc_get (d : Dev) (f : DmcSt → DmcSt) (g : Fld) : (d.onDmc f).get g = d.get g := rfl
@[simp] theorem onDmc_ldB (d : Dev) (f : DmcSt → DmcSt) (a : Nat) : (d.onDmc f).ldB a = d.ldB a := rfl

/-! ### onDma -/

@[simp] theorem onDma_c (d : Dev) (f : DmaSt → DmaSt) : (d.onDma f).c = d.c := rfl
@[simp] theorem onDma_regs (d : Dev) (f : DmaSt → DmaSt) : (d.onDma f).regs = d.regs := rfl
@[simp] theorem onDma_act (d : Dev) (f : DmaSt → DmaSt) : (d.onDma f).act = d.act := rfl
@[simp] theorem onDma_mem (d : Dev) (f : DmaSt → DmaSt) : (d.onDma f).mem = d.mem := rfl
@[simp] theorem onDma_flash (d : Dev) (f : DmaSt → DmaSt) : (d.onDma f).flash = d.flash := rfl
@[simp] theorem onDma_flashCs1 (d : Dev) (f : DmaSt → DmaSt) : (d.onDma f).flashCs1 = d.flashCs1 := rfl
@[simp] theorem onDma_hiCap (d : Dev) (f : DmaSt → DmaSt) : (d.onDma f).hiCap = d.hiCap := rfl
@[simp] theorem onDma_reps (d : Dev) (f : DmaSt → DmaSt) : (d.onDma f).reps = d.reps := rfl
@[simp] theorem onDma_out (d : Dev) (f : DmaSt → DmaSt) : (d.onDma f).out = d.out := rfl
@[simp] theorem onDma_freeCtr (d : Dev) (f : DmaSt → DmaSt) : (d.onDma f).freeCtr = d.freeCtr := rfl
@[simp] theorem onDma_sys (d : Dev) (f : DmaSt → DmaSt) : (d.onDma f).sys = d.sys := rfl
@[simp] theorem onDma_cfg (d : Dev) (f : DmaSt → DmaSt) : (d.onDma f).cfg = d.cfg := rfl
@[simp] theorem onDma_sec (d : Dev) (f : DmaSt → DmaSt) : (d.onDma f).sec = d.sec := rfl
@[simp] theorem onDma_itk (d : Dev) (f : DmaSt → DmaSt) : (d.onDma f).itk = d.itk := rfl
@[simp] theorem onDma_pos (d : Dev) (f : DmaSt → DmaSt) : (d.onDma f).pos = d.pos := rfl
@[simp] theorem onDma_ras (d : Dev) (f : DmaSt → DmaSt) : (d.onDma f).ras = d.ras := rfl
@[simp] theorem onDma_nzm (d : Dev) (f : DmaSt → DmaSt) : (d.onDma f).nzm = d.nzm := rfl
@[simp] theorem onDma_fir (d : Dev) (f : DmaSt → DmaSt) : (d.onDma f).fir = d.fir := rfl
@[simp] theorem onDma_lmp (d : Dev) (f : DmaSt → DmaSt) : (d.onDma f).lmp = d.lmp := rfl
@[simp] theorem onDma_cam (d : Dev) (f : DmaSt → DmaSt) : (d.onDma f).cam = d.cam := rfl
@[simp] theorem onDma_vis (d : Dev) (f : DmaSt → DmaSt) : (d.onDma f).vis = d.vis := rfl
@[simp] theorem onDma_ins (d : Dev) (f : DmaSt → DmaSt) : (d.onDma f).ins = d.ins := rfl
@[simp] theorem onDma_eth (d : Dev) (f : DmaSt → DmaSt) : (d.onDma f).eth = d.eth := rfl
@[simp] theorem onDma_ptp (d : Dev) (f : DmaSt → DmaSt) : (d.onDma f).ptp = d.ptp := rfl
@[simp] theorem onDma_twn (d : Dev) (f : DmaSt → DmaSt) : (d.onDma f).twn = d.twn := rfl
@[simp] theorem onDma_pgf (d : Dev) (f : DmaSt → DmaSt) : (d.onDma f).pgf = d.pgf := rfl
@[simp] theorem onDma_dmc (d : Dev) (f : DmaSt → DmaSt) : (d.onDma f).dmc = d.dmc := rfl
@[simp] theorem onDma_dma (d : Dev) (f : DmaSt → DmaSt) : (d.onDma f).dma = f d.dma := rfl
@[simp] theorem onDma_mramBad (d : Dev) (f : DmaSt → DmaSt) : (d.onDma f).mramBad = d.mramBad := rfl
@[simp] theorem onDma_rd (d : Dev) (f : DmaSt → DmaSt) (a : Nat) : (d.onDma f).rd a = d.rd a := rfl
@[simp] theorem onDma_get (d : Dev) (f : DmaSt → DmaSt) (g : Fld) : (d.onDma f).get g = d.get g := rfl
@[simp] theorem onDma_ldB (d : Dev) (f : DmaSt → DmaSt) (a : Nat) : (d.onDma f).ldB a = d.ldB a := rfl

/-! ### wr -/

@[simp] theorem wr_c (d : Dev) (a : Nat) (v : Word) : (d.wr a v).c = d.c := rfl
@[simp] theorem wr_regs (d : Dev) (a : Nat) (v : Word) : (d.wr a v).regs = spPut (regReset a) d.regs a v := rfl
@[simp] theorem wr_act (d : Dev) (a : Nat) (v : Word) : (d.wr a v).act = d.act := rfl
@[simp] theorem wr_mem (d : Dev) (a : Nat) (v : Word) : (d.wr a v).mem = d.mem := rfl
@[simp] theorem wr_flash (d : Dev) (a : Nat) (v : Word) : (d.wr a v).flash = d.flash := rfl
@[simp] theorem wr_flashCs1 (d : Dev) (a : Nat) (v : Word) : (d.wr a v).flashCs1 = d.flashCs1 := rfl
@[simp] theorem wr_hiCap (d : Dev) (a : Nat) (v : Word) : (d.wr a v).hiCap = d.hiCap := rfl
@[simp] theorem wr_reps (d : Dev) (a : Nat) (v : Word) : (d.wr a v).reps = d.reps := rfl
@[simp] theorem wr_out (d : Dev) (a : Nat) (v : Word) : (d.wr a v).out = d.out := rfl
@[simp] theorem wr_freeCtr (d : Dev) (a : Nat) (v : Word) : (d.wr a v).freeCtr = d.freeCtr := rfl
@[simp] theorem wr_sys (d : Dev) (a : Nat) (v : Word) : (d.wr a v).sys = d.sys := rfl
@[simp] theorem wr_cfg (d : Dev) (a : Nat) (v : Word) : (d.wr a v).cfg = d.cfg := rfl
@[simp] theorem wr_sec (d : Dev) (a : Nat) (v : Word) : (d.wr a v).sec = d.sec := rfl
@[simp] theorem wr_itk (d : Dev) (a : Nat) (v : Word) : (d.wr a v).itk = d.itk := rfl
@[simp] theorem wr_pos (d : Dev) (a : Nat) (v : Word) : (d.wr a v).pos = d.pos := rfl
@[simp] theorem wr_ras (d : Dev) (a : Nat) (v : Word) : (d.wr a v).ras = d.ras := rfl
@[simp] theorem wr_nzm (d : Dev) (a : Nat) (v : Word) : (d.wr a v).nzm = d.nzm := rfl
@[simp] theorem wr_fir (d : Dev) (a : Nat) (v : Word) : (d.wr a v).fir = d.fir := rfl
@[simp] theorem wr_lmp (d : Dev) (a : Nat) (v : Word) : (d.wr a v).lmp = d.lmp := rfl
@[simp] theorem wr_cam (d : Dev) (a : Nat) (v : Word) : (d.wr a v).cam = d.cam := rfl
@[simp] theorem wr_vis (d : Dev) (a : Nat) (v : Word) : (d.wr a v).vis = d.vis := rfl
@[simp] theorem wr_ins (d : Dev) (a : Nat) (v : Word) : (d.wr a v).ins = d.ins := rfl
@[simp] theorem wr_eth (d : Dev) (a : Nat) (v : Word) : (d.wr a v).eth = d.eth := rfl
@[simp] theorem wr_ptp (d : Dev) (a : Nat) (v : Word) : (d.wr a v).ptp = d.ptp := rfl
@[simp] theorem wr_twn (d : Dev) (a : Nat) (v : Word) : (d.wr a v).twn = d.twn := rfl
@[simp] theorem wr_pgf (d : Dev) (a : Nat) (v : Word) : (d.wr a v).pgf = d.pgf := rfl
@[simp] theorem wr_dmc (d : Dev) (a : Nat) (v : Word) : (d.wr a v).dmc = d.dmc := rfl
@[simp] theorem wr_dma (d : Dev) (a : Nat) (v : Word) : (d.wr a v).dma = d.dma := rfl
@[simp] theorem wr_mramBad (d : Dev) (a : Nat) (v : Word) : (d.wr a v).mramBad = d.mramBad := rfl
@[simp] theorem wr_ldB (d : Dev) (a : Nat) (v : Word) (b : Nat) : (d.wr a v).ldB b = d.ldB b := rfl

/-! ### wrN -/

@[simp] theorem wrN_c (d : Dev) (a v : Nat) : (d.wrN a v).c = d.c := rfl
@[simp] theorem wrN_act (d : Dev) (a v : Nat) : (d.wrN a v).act = d.act := rfl
@[simp] theorem wrN_mem (d : Dev) (a v : Nat) : (d.wrN a v).mem = d.mem := rfl
@[simp] theorem wrN_flash (d : Dev) (a v : Nat) : (d.wrN a v).flash = d.flash := rfl
@[simp] theorem wrN_flashCs1 (d : Dev) (a v : Nat) : (d.wrN a v).flashCs1 = d.flashCs1 := rfl
@[simp] theorem wrN_hiCap (d : Dev) (a v : Nat) : (d.wrN a v).hiCap = d.hiCap := rfl
@[simp] theorem wrN_reps (d : Dev) (a v : Nat) : (d.wrN a v).reps = d.reps := rfl
@[simp] theorem wrN_out (d : Dev) (a v : Nat) : (d.wrN a v).out = d.out := rfl
@[simp] theorem wrN_freeCtr (d : Dev) (a v : Nat) : (d.wrN a v).freeCtr = d.freeCtr := rfl
@[simp] theorem wrN_sys (d : Dev) (a v : Nat) : (d.wrN a v).sys = d.sys := rfl
@[simp] theorem wrN_cfg (d : Dev) (a v : Nat) : (d.wrN a v).cfg = d.cfg := rfl
@[simp] theorem wrN_sec (d : Dev) (a v : Nat) : (d.wrN a v).sec = d.sec := rfl
@[simp] theorem wrN_itk (d : Dev) (a v : Nat) : (d.wrN a v).itk = d.itk := rfl
@[simp] theorem wrN_pos (d : Dev) (a v : Nat) : (d.wrN a v).pos = d.pos := rfl
@[simp] theorem wrN_ras (d : Dev) (a v : Nat) : (d.wrN a v).ras = d.ras := rfl
@[simp] theorem wrN_nzm (d : Dev) (a v : Nat) : (d.wrN a v).nzm = d.nzm := rfl
@[simp] theorem wrN_fir (d : Dev) (a v : Nat) : (d.wrN a v).fir = d.fir := rfl
@[simp] theorem wrN_lmp (d : Dev) (a v : Nat) : (d.wrN a v).lmp = d.lmp := rfl
@[simp] theorem wrN_cam (d : Dev) (a v : Nat) : (d.wrN a v).cam = d.cam := rfl
@[simp] theorem wrN_vis (d : Dev) (a v : Nat) : (d.wrN a v).vis = d.vis := rfl
@[simp] theorem wrN_ins (d : Dev) (a v : Nat) : (d.wrN a v).ins = d.ins := rfl
@[simp] theorem wrN_eth (d : Dev) (a v : Nat) : (d.wrN a v).eth = d.eth := rfl
@[simp] theorem wrN_ptp (d : Dev) (a v : Nat) : (d.wrN a v).ptp = d.ptp := rfl
@[simp] theorem wrN_twn (d : Dev) (a v : Nat) : (d.wrN a v).twn = d.twn := rfl
@[simp] theorem wrN_pgf (d : Dev) (a v : Nat) : (d.wrN a v).pgf = d.pgf := rfl
@[simp] theorem wrN_dmc (d : Dev) (a v : Nat) : (d.wrN a v).dmc = d.dmc := rfl
@[simp] theorem wrN_dma (d : Dev) (a v : Nat) : (d.wrN a v).dma = d.dma := rfl
@[simp] theorem wrN_mramBad (d : Dev) (a v : Nat) : (d.wrN a v).mramBad = d.mramBad := rfl
@[simp] theorem wrN_ldB (d : Dev) (a v : Nat) (b : Nat) : (d.wrN a v).ldB b = d.ldB b := rfl

/-! ### put -/

@[simp] theorem put_c (d : Dev) (f : Fld) (v : Nat) : (d.put f v).c = d.c := rfl
@[simp] theorem put_act (d : Dev) (f : Fld) (v : Nat) : (d.put f v).act = d.act := rfl
@[simp] theorem put_mem (d : Dev) (f : Fld) (v : Nat) : (d.put f v).mem = d.mem := rfl
@[simp] theorem put_flash (d : Dev) (f : Fld) (v : Nat) : (d.put f v).flash = d.flash := rfl
@[simp] theorem put_flashCs1 (d : Dev) (f : Fld) (v : Nat) : (d.put f v).flashCs1 = d.flashCs1 := rfl
@[simp] theorem put_hiCap (d : Dev) (f : Fld) (v : Nat) : (d.put f v).hiCap = d.hiCap := rfl
@[simp] theorem put_reps (d : Dev) (f : Fld) (v : Nat) : (d.put f v).reps = d.reps := rfl
@[simp] theorem put_out (d : Dev) (f : Fld) (v : Nat) : (d.put f v).out = d.out := rfl
@[simp] theorem put_freeCtr (d : Dev) (f : Fld) (v : Nat) : (d.put f v).freeCtr = d.freeCtr := rfl
@[simp] theorem put_sys (d : Dev) (f : Fld) (v : Nat) : (d.put f v).sys = d.sys := rfl
@[simp] theorem put_cfg (d : Dev) (f : Fld) (v : Nat) : (d.put f v).cfg = d.cfg := rfl
@[simp] theorem put_sec (d : Dev) (f : Fld) (v : Nat) : (d.put f v).sec = d.sec := rfl
@[simp] theorem put_itk (d : Dev) (f : Fld) (v : Nat) : (d.put f v).itk = d.itk := rfl
@[simp] theorem put_pos (d : Dev) (f : Fld) (v : Nat) : (d.put f v).pos = d.pos := rfl
@[simp] theorem put_ras (d : Dev) (f : Fld) (v : Nat) : (d.put f v).ras = d.ras := rfl
@[simp] theorem put_nzm (d : Dev) (f : Fld) (v : Nat) : (d.put f v).nzm = d.nzm := rfl
@[simp] theorem put_fir (d : Dev) (f : Fld) (v : Nat) : (d.put f v).fir = d.fir := rfl
@[simp] theorem put_lmp (d : Dev) (f : Fld) (v : Nat) : (d.put f v).lmp = d.lmp := rfl
@[simp] theorem put_cam (d : Dev) (f : Fld) (v : Nat) : (d.put f v).cam = d.cam := rfl
@[simp] theorem put_vis (d : Dev) (f : Fld) (v : Nat) : (d.put f v).vis = d.vis := rfl
@[simp] theorem put_ins (d : Dev) (f : Fld) (v : Nat) : (d.put f v).ins = d.ins := rfl
@[simp] theorem put_eth (d : Dev) (f : Fld) (v : Nat) : (d.put f v).eth = d.eth := rfl
@[simp] theorem put_ptp (d : Dev) (f : Fld) (v : Nat) : (d.put f v).ptp = d.ptp := rfl
@[simp] theorem put_twn (d : Dev) (f : Fld) (v : Nat) : (d.put f v).twn = d.twn := rfl
@[simp] theorem put_pgf (d : Dev) (f : Fld) (v : Nat) : (d.put f v).pgf = d.pgf := rfl
@[simp] theorem put_dmc (d : Dev) (f : Fld) (v : Nat) : (d.put f v).dmc = d.dmc := rfl
@[simp] theorem put_dma (d : Dev) (f : Fld) (v : Nat) : (d.put f v).dma = d.dma := rfl
@[simp] theorem put_mramBad (d : Dev) (f : Fld) (v : Nat) : (d.put f v).mramBad = d.mramBad := rfl
@[simp] theorem put_ldB (d : Dev) (f : Fld) (v : Nat) (b : Nat) : (d.put f v).ldB b = d.ldB b := rfl

/-! ### stB -/

@[simp] theorem stB_c (d : Dev) (a : Nat) (v : Byte) : (d.stB a v).c = d.c := rfl
@[simp] theorem stB_regs (d : Dev) (a : Nat) (v : Byte) : (d.stB a v).regs = d.regs := rfl
@[simp] theorem stB_act (d : Dev) (a : Nat) (v : Byte) : (d.stB a v).act = d.act := rfl
@[simp] theorem stB_mem (d : Dev) (a : Nat) (v : Byte) : (d.stB a v).mem = spPut memDefault d.mem a v := rfl
@[simp] theorem stB_flash (d : Dev) (a : Nat) (v : Byte) : (d.stB a v).flash = d.flash := rfl
@[simp] theorem stB_flashCs1 (d : Dev) (a : Nat) (v : Byte) : (d.stB a v).flashCs1 = d.flashCs1 := rfl
@[simp] theorem stB_hiCap (d : Dev) (a : Nat) (v : Byte) : (d.stB a v).hiCap = d.hiCap := rfl
@[simp] theorem stB_reps (d : Dev) (a : Nat) (v : Byte) : (d.stB a v).reps = d.reps := rfl
@[simp] theorem stB_out (d : Dev) (a : Nat) (v : Byte) : (d.stB a v).out = d.out := rfl
@[simp] theorem stB_freeCtr (d : Dev) (a : Nat) (v : Byte) : (d.stB a v).freeCtr = d.freeCtr := rfl
@[simp] theorem stB_sys (d : Dev) (a : Nat) (v : Byte) : (d.stB a v).sys = d.sys := rfl
@[simp] theorem stB_cfg (d : Dev) (a : Nat) (v : Byte) : (d.stB a v).cfg = d.cfg := rfl
@[simp] theorem stB_sec (d : Dev) (a : Nat) (v : Byte) : (d.stB a v).sec = d.sec := rfl
@[simp] theorem stB_itk (d : Dev) (a : Nat) (v : Byte) : (d.stB a v).itk = d.itk := rfl
@[simp] theorem stB_pos (d : Dev) (a : Nat) (v : Byte) : (d.stB a v).pos = d.pos := rfl
@[simp] theorem stB_ras (d : Dev) (a : Nat) (v : Byte) : (d.stB a v).ras = d.ras := rfl
@[simp] theorem stB_nzm (d : Dev) (a : Nat) (v : Byte) : (d.stB a v).nzm = d.nzm := rfl
@[simp] theorem stB_fir (d : Dev) (a : Nat) (v : Byte) : (d.stB a v).fir = d.fir := rfl
@[simp] theorem stB_lmp (d : Dev) (a : Nat) (v : Byte) : (d.stB a v).lmp = d.lmp := rfl
@[simp] theorem stB_cam (d : Dev) (a : Nat) (v : Byte) : (d.stB a v).cam = d.cam := rfl
@[simp] theorem stB_vis (d : Dev) (a : Nat) (v : Byte) : (d.stB a v).vis = d.vis := rfl
@[simp] theorem stB_ins (d : Dev) (a : Nat) (v : Byte) : (d.stB a v).ins = d.ins := rfl
@[simp] theorem stB_eth (d : Dev) (a : Nat) (v : Byte) : (d.stB a v).eth = d.eth := rfl
@[simp] theorem stB_ptp (d : Dev) (a : Nat) (v : Byte) : (d.stB a v).ptp = d.ptp := rfl
@[simp] theorem stB_twn (d : Dev) (a : Nat) (v : Byte) : (d.stB a v).twn = d.twn := rfl
@[simp] theorem stB_pgf (d : Dev) (a : Nat) (v : Byte) : (d.stB a v).pgf = d.pgf := rfl
@[simp] theorem stB_dmc (d : Dev) (a : Nat) (v : Byte) : (d.stB a v).dmc = d.dmc := rfl
@[simp] theorem stB_dma (d : Dev) (a : Nat) (v : Byte) : (d.stB a v).dma = d.dma := rfl
@[simp] theorem stB_mramBad (d : Dev) (a : Nat) (v : Byte) : (d.stB a v).mramBad = d.mramBad := rfl
@[simp] theorem stB_rd (d : Dev) (a : Nat) (v : Byte) (b : Nat) : (d.stB a v).rd b = d.rd b := rfl
@[simp] theorem stB_get (d : Dev) (a : Nat) (v : Byte) (g : Fld) : (d.stB a v).get g = d.get g := rfl

/-! ### emit -/

@[simp] theorem emit_c (d : Dev) (x : Out) : (d.emit x).c = d.c := rfl
@[simp] theorem emit_regs (d : Dev) (x : Out) : (d.emit x).regs = d.regs := rfl
@[simp] theorem emit_act (d : Dev) (x : Out) : (d.emit x).act = d.act := rfl
@[simp] theorem emit_mem (d : Dev) (x : Out) : (d.emit x).mem = d.mem := rfl
@[simp] theorem emit_flash (d : Dev) (x : Out) : (d.emit x).flash = d.flash := rfl
@[simp] theorem emit_flashCs1 (d : Dev) (x : Out) : (d.emit x).flashCs1 = d.flashCs1 := rfl
@[simp] theorem emit_hiCap (d : Dev) (x : Out) : (d.emit x).hiCap = d.hiCap := rfl
@[simp] theorem emit_reps (d : Dev) (x : Out) : (d.emit x).reps = d.reps := rfl
@[simp] theorem emit_out (d : Dev) (x : Out) : (d.emit x).out = x :: d.out := rfl
@[simp] theorem emit_freeCtr (d : Dev) (x : Out) : (d.emit x).freeCtr = d.freeCtr := rfl
@[simp] theorem emit_sys (d : Dev) (x : Out) : (d.emit x).sys = d.sys := rfl
@[simp] theorem emit_cfg (d : Dev) (x : Out) : (d.emit x).cfg = d.cfg := rfl
@[simp] theorem emit_sec (d : Dev) (x : Out) : (d.emit x).sec = d.sec := rfl
@[simp] theorem emit_itk (d : Dev) (x : Out) : (d.emit x).itk = d.itk := rfl
@[simp] theorem emit_pos (d : Dev) (x : Out) : (d.emit x).pos = d.pos := rfl
@[simp] theorem emit_ras (d : Dev) (x : Out) : (d.emit x).ras = d.ras := rfl
@[simp] theorem emit_nzm (d : Dev) (x : Out) : (d.emit x).nzm = d.nzm := rfl
@[simp] theorem emit_fir (d : Dev) (x : Out) : (d.emit x).fir = d.fir := rfl
@[simp] theorem emit_lmp (d : Dev) (x : Out) : (d.emit x).lmp = d.lmp := rfl
@[simp] theorem emit_cam (d : Dev) (x : Out) : (d.emit x).cam = d.cam := rfl
@[simp] theorem emit_vis (d : Dev) (x : Out) : (d.emit x).vis = d.vis := rfl
@[simp] theorem emit_ins (d : Dev) (x : Out) : (d.emit x).ins = d.ins := rfl
@[simp] theorem emit_eth (d : Dev) (x : Out) : (d.emit x).eth = d.eth := rfl
@[simp] theorem emit_ptp (d : Dev) (x : Out) : (d.emit x).ptp = d.ptp := rfl
@[simp] theorem emit_twn (d : Dev) (x : Out) : (d.emit x).twn = d.twn := rfl
@[simp] theorem emit_pgf (d : Dev) (x : Out) : (d.emit x).pgf = d.pgf := rfl
@[simp] theorem emit_dmc (d : Dev) (x : Out) : (d.emit x).dmc = d.dmc := rfl
@[simp] theorem emit_dma (d : Dev) (x : Out) : (d.emit x).dma = d.dma := rfl
@[simp] theorem emit_mramBad (d : Dev) (x : Out) : (d.emit x).mramBad = d.mramBad := rfl
@[simp] theorem emit_rd (d : Dev) (x : Out) (b : Nat) : (d.emit x).rd b = d.rd b := rfl
@[simp] theorem emit_get (d : Dev) (x : Out) (g : Fld) : (d.emit x).get g = d.get g := rfl
@[simp] theorem emit_ldB (d : Dev) (x : Out) (b : Nat) : (d.emit x).ldB b = d.ldB b := rfl

/-! ### atTime -/

@[simp] theorem atTime_c (d : Dev) (t : Nat) : (d.atTime t).c = max d.c t % 2 ^ 64 := rfl
@[simp] theorem atTime_regs (d : Dev) (t : Nat) : (d.atTime t).regs = d.regs := rfl
@[simp] theorem atTime_act (d : Dev) (t : Nat) : (d.atTime t).act = d.act := rfl
@[simp] theorem atTime_mem (d : Dev) (t : Nat) : (d.atTime t).mem = d.mem := rfl
@[simp] theorem atTime_flash (d : Dev) (t : Nat) : (d.atTime t).flash = d.flash := rfl
@[simp] theorem atTime_flashCs1 (d : Dev) (t : Nat) : (d.atTime t).flashCs1 = d.flashCs1 := rfl
@[simp] theorem atTime_hiCap (d : Dev) (t : Nat) : (d.atTime t).hiCap = d.hiCap := rfl
@[simp] theorem atTime_reps (d : Dev) (t : Nat) : (d.atTime t).reps = d.reps := rfl
@[simp] theorem atTime_out (d : Dev) (t : Nat) : (d.atTime t).out = d.out := rfl
@[simp] theorem atTime_freeCtr (d : Dev) (t : Nat) : (d.atTime t).freeCtr = d.freeCtr := rfl
@[simp] theorem atTime_sys (d : Dev) (t : Nat) : (d.atTime t).sys = d.sys := rfl
@[simp] theorem atTime_cfg (d : Dev) (t : Nat) : (d.atTime t).cfg = d.cfg := rfl
@[simp] theorem atTime_sec (d : Dev) (t : Nat) : (d.atTime t).sec = d.sec := rfl
@[simp] theorem atTime_itk (d : Dev) (t : Nat) : (d.atTime t).itk = d.itk := rfl
@[simp] theorem atTime_pos (d : Dev) (t : Nat) : (d.atTime t).pos = d.pos := rfl
@[simp] theorem atTime_ras (d : Dev) (t : Nat) : (d.atTime t).ras = d.ras := rfl
@[simp] theorem atTime_nzm (d : Dev) (t : Nat) : (d.atTime t).nzm = d.nzm := rfl
@[simp] theorem atTime_fir (d : Dev) (t : Nat) : (d.atTime t).fir = d.fir := rfl
@[simp] theorem atTime_lmp (d : Dev) (t : Nat) : (d.atTime t).lmp = d.lmp := rfl
@[simp] theorem atTime_cam (d : Dev) (t : Nat) : (d.atTime t).cam = d.cam := rfl
@[simp] theorem atTime_vis (d : Dev) (t : Nat) : (d.atTime t).vis = d.vis := rfl
@[simp] theorem atTime_ins (d : Dev) (t : Nat) : (d.atTime t).ins = d.ins := rfl
@[simp] theorem atTime_eth (d : Dev) (t : Nat) : (d.atTime t).eth = d.eth := rfl
@[simp] theorem atTime_ptp (d : Dev) (t : Nat) : (d.atTime t).ptp = d.ptp := rfl
@[simp] theorem atTime_twn (d : Dev) (t : Nat) : (d.atTime t).twn = d.twn := rfl
@[simp] theorem atTime_pgf (d : Dev) (t : Nat) : (d.atTime t).pgf = d.pgf := rfl
@[simp] theorem atTime_dmc (d : Dev) (t : Nat) : (d.atTime t).dmc = d.dmc := rfl
@[simp] theorem atTime_dma (d : Dev) (t : Nat) : (d.atTime t).dma = d.dma := rfl
@[simp] theorem atTime_mramBad (d : Dev) (t : Nat) : (d.atTime t).mramBad = d.mramBad := rfl
@[simp] theorem atTime_rd (d : Dev) (t : Nat) (b : Nat) : (d.atTime t).rd b = d.rd b := rfl
@[simp] theorem atTime_get (d : Dev) (t : Nat) (g : Fld) : (d.atTime t).get g = d.get g := rfl
@[simp] theorem atTime_ldB (d : Dev) (t : Nat) (b : Nat) : (d.atTime t).ldB b = d.ldB b := rfl

/-! ### copyAct -/

@[simp] theorem copyAct_c (d : Dev) (a : Nat) : (d.copyAct a).c = d.c := rfl
@[simp] theorem copyAct_regs (d : Dev) (a : Nat) : (d.copyAct a).regs = d.regs := rfl
@[simp] theorem copyAct_act (d : Dev) (a : Nat) : (d.copyAct a).act = spPut (regReset a) d.act a (d.rd a) := rfl
@[simp] theorem copyAct_mem (d : Dev) (a : Nat) : (d.copyAct a).mem = d.mem := rfl
@[simp] theorem copyAct_flash (d : Dev) (a : Nat) : (d.copyAct a).flash = d.flash := rfl
@[simp] theorem copyAct_flashCs1 (d : Dev) (a : Nat) : (d.copyAct a).flashCs1 = d.flashCs1 := rfl
@[simp] theorem copyAct_hiCap (d : Dev) (a : Nat) : (d.copyAct a).hiCap = d.hiCap := rfl
@[simp] theorem copyAct_reps (d : Dev) (a : Nat) : (d.copyAct a).reps = d.reps := rfl
@[simp] theorem copyAct_out (d : Dev) (a : Nat) : (d.copyAct a).out = d.out := rfl
@[simp] theorem copyAct_freeCtr (d : Dev) (a : Nat) : (d.copyAct a).freeCtr = d.freeCtr := rfl
@[simp] theorem copyAct_sys (d : Dev) (a : Nat) : (d.copyAct a).sys = d.sys := rfl
@[simp] theorem copyAct_cfg (d : Dev) (a : Nat) : (d.copyAct a).cfg = d.cfg := rfl
@[simp] theorem copyAct_sec (d : Dev) (a : Nat) : (d.copyAct a).sec = d.sec := rfl
@[simp] theorem copyAct_itk (d : Dev) (a : Nat) : (d.copyAct a).itk = d.itk := rfl
@[simp] theorem copyAct_pos (d : Dev) (a : Nat) : (d.copyAct a).pos = d.pos := rfl
@[simp] theorem copyAct_ras (d : Dev) (a : Nat) : (d.copyAct a).ras = d.ras := rfl
@[simp] theorem copyAct_nzm (d : Dev) (a : Nat) : (d.copyAct a).nzm = d.nzm := rfl
@[simp] theorem copyAct_fir (d : Dev) (a : Nat) : (d.copyAct a).fir = d.fir := rfl
@[simp] theorem copyAct_lmp (d : Dev) (a : Nat) : (d.copyAct a).lmp = d.lmp := rfl
@[simp] theorem copyAct_cam (d : Dev) (a : Nat) : (d.copyAct a).cam = d.cam := rfl
@[simp] theorem copyAct_vis (d : Dev) (a : Nat) : (d.copyAct a).vis = d.vis := rfl
@[simp] theorem copyAct_ins (d : Dev) (a : Nat) : (d.copyAct a).ins = d.ins := rfl
@[simp] theorem copyAct_eth (d : Dev) (a : Nat) : (d.copyAct a).eth = d.eth := rfl
@[simp] theorem copyAct_ptp (d : Dev) (a : Nat) : (d.copyAct a).ptp = d.ptp := rfl
@[simp] theorem copyAct_twn (d : Dev) (a : Nat) : (d.copyAct a).twn = d.twn := rfl
@[simp] theorem copyAct_pgf (d : Dev) (a : Nat) : (d.copyAct a).pgf = d.pgf := rfl
@[simp] theorem copyAct_dmc (d : Dev) (a : Nat) : (d.copyAct a).dmc = d.dmc := rfl
@[simp] theorem copyAct_dma (d : Dev) (a : Nat) : (d.copyAct a).dma = d.dma := rfl
@[simp] theorem copyAct_mramBad (d : Dev) (a : Nat) : (d.copyAct a).mramBad = d.mramBad := rfl
@[simp] theorem copyAct_rd (d : Dev) (a : Nat) (b : Nat) : (d.copyAct a).rd b = d.rd b := rfl
@[simp] theorem copyAct_get (d : Dev) (a : Nat) (g : Fld) : (d.copyAct a).get g = d.get g := rfl
@[simp] theorem copyAct_ldB (d : Dev) (a : Nat) (b : Nat) : (d.copyAct a).ldB b = d.ldB b := rfl

/-! ### fresh -/

@[simp] theorem fresh_c (d : Dev) (w : Nat) : (d.fresh w).2.c = d.c := rfl
@[simp] theorem fresh_regs (d : Dev) (w : Nat) : (d.fresh w).2.regs = d.regs := rfl
@[simp] theorem fresh_act (d : Dev) (w : Nat) : (d.fresh w).2.act = d.act := rfl
@[simp] theorem fresh_mem (d : Dev) (w : Nat) : (d.fresh w).2.mem = d.mem := rfl
@[simp] theorem fresh_flash (d : Dev) (w : Nat) : (d.fresh w).2.flash = d.flash := rfl
@[simp] theorem fresh_flashCs1 (d : Dev) (w : Nat) : (d.fresh w).2.flashCs1 = d.flashCs1 := rfl
@[simp] theorem fresh_hiCap (d : Dev) (w : Nat) : (d.fresh w).2.hiCap = d.hiCap := rfl
@[simp] theorem fresh_reps (d : Dev) (w : Nat) : (d.fresh w).2.reps = d.reps := rfl
@[simp] theorem fresh_out (d : Dev) (w : Nat) : (d.fresh w).2.out = d.out := rfl
@[simp] theorem fresh_freeCtr (d : Dev) (w : Nat) : (d.fresh w).2.freeCtr = d.freeCtr + 1 := rfl
@[simp] theorem fresh_sys (d : Dev) (w : Nat) : (d.fresh w).2.sys = d.sys := rfl
@[simp] theorem fresh_cfg (d : Dev) (w : Nat) : (d.fresh w).2.cfg = d.cfg := rfl
@[simp] theorem fresh_sec (d : Dev) (w : Nat) : (d.fresh w).2.sec = d.sec := rfl
@[simp] theorem fresh_itk (d : Dev) (w : Nat) : (d.fresh w).2.itk = d.itk := rfl
@[simp] theorem fresh_pos (d : Dev) (w : Nat) : (d.fresh w).2.pos = d.pos := rfl
@[simp] theorem fresh_ras (d : Dev) (w : Nat) : (d.fresh w).2.ras = d.ras := rfl
@[simp] theorem fresh_nzm (d : Dev) (w : Nat) : (d.fresh w).2.nzm = d.nzm := rfl
@[simp] theorem fresh_fir (d : Dev) (w : Nat) : (d.fresh w).2.fir = d.fir := rfl
@[simp] theorem fresh_lmp (d : Dev) (w : Nat) : (d.fresh w).2.lmp = d.lmp := rfl
@[simp] theorem fresh_cam (d : Dev) (w : Nat) : (d.fresh w).2.cam = d.cam := rfl
@[simp] theorem fresh_vis (d : Dev) (w : Nat) : (d.fresh w).2.vis = d.vis := rfl
@[simp] theorem fresh_ins (d : Dev) (w : Nat) : (d.fresh w).2.ins = d.ins := rfl
@[simp] theorem fresh_eth (d : Dev) (w : Nat) : (d.fresh w).2.eth = d.eth := rfl
@[simp] theorem fresh_ptp (d : Dev) (w : Nat) : (d.fresh w).2.ptp = d.ptp := rfl
@[simp] theorem fresh_twn (d : Dev) (w : Nat) : (d.fresh w).2.twn = d.twn := rfl
@[simp] theorem fresh_pgf (d : Dev) (w : Nat) : (d.fresh w).2.pgf = d.pgf := rfl
@[simp] theorem fresh_dmc (d : Dev) (w : Nat) : (d.fresh w).2.dmc = d.dmc := rfl
@[simp] theorem fresh_dma (d : Dev) (w : Nat) : (d.fresh w).2.dma = d.dma := rfl
@[simp] theorem fresh_mramBad (d : Dev) (w : Nat) : (d.fresh w).2.mramBad = d.mramBad := rfl
@[simp] theorem fresh_rd (d : Dev) (w : Nat) (b : Nat) : (d.fresh w).2.rd b = d.rd b := rfl
@[simp] theorem fresh_get (d : Dev) (w : Nat) (g : Fld) : (d.fresh w).2.get g = d.get g := rfl
@[simp] theorem fresh_ldB (d : Dev) (w : Nat) (b : Nat) : (d.fresh w).2.ldB b = d.ldB b := rfl

/-! ### report -/

@[simp] theorem report_c (d : Dev) (n : Nat) (x : Option Nat) : (d.report n x).c = d.c := by cases x <;> rfl
@[simp] theorem report_regs (d : Dev) (n : Nat) (x : Option Nat) : (d.report n x).regs = d.regs := by cases x <;> rfl
@[simp] theorem report_act (d : Dev) (n : Nat) (x : Option Nat) : (d.report n x).act = d.act := by cases x <;> rfl
@[simp] theorem report_mem (d : Dev) (n : Nat) (x : Option Nat) : (d.report n x).mem = d.mem := by cases x <;> rfl
@[simp] theorem report_flash (d : Dev) (n : Nat) (x : Option Nat) : (d.report n x).flash = d.flash := by cases x <;> rfl
@[simp] theorem report_flashCs1 (d : Dev) (n : Nat) (x : Option Nat) : (d.report n x).flashCs1 = d.flashCs1 := by cases x <;> rfl
@[simp] theorem report_hiCap (d : Dev) (n : Nat) (x : Option Nat) : (d.report n x).hiCap = d.hiCap := by cases x <;> rfl
@[simp] theorem report_out (d : Dev) (n : Nat) (x : Option Nat) : (d.report n x).out = d.out := by cases x <;> rfl
@[simp] theorem report_sys (d : Dev) (n : Nat) (x : Option Nat) : (d.report n x).sys = d.sys := by cases x <;> rfl
@[simp] theorem report_cfg (d : Dev) (n : Nat) (x : Option Nat) : (d.report n x).cfg = d.cfg := by cases x <;> rfl
@[simp] theorem report_sec (d : Dev) (n : Nat) (x : Option Nat) : (d.report n x).sec = d.sec := by cases x <;> rfl
@[simp] theorem report_itk (d : Dev) (n : Nat) (x : Option Nat) : (d.report n x).itk = d.itk := by cases x <;> rfl
@[simp] theorem report_pos (d : Dev) (n : Nat) (x : Option Nat) : (d.report n x).pos = d.pos := by cases x <;> rfl
@[simp] theorem report_ras (d : Dev) (n : Nat) (x : Option Nat) : (d.report n x).ras = d.ras := by cases x <;> rfl
@[simp] theorem report_nzm (d : Dev) (n : Nat) (x : Option Nat) : (d.report n x).nzm = d.nzm := by cases x <;> rfl
@[simp] theorem report_fir (d : Dev) (n : Nat) (x : Option Nat) : (d.report n x).fir = d.fir := by cases x <;> rfl
@[simp] theorem report_lmp (d : Dev) (n : Nat) (x : Option Nat) : (d.report n x).lmp = d.lmp := by cases x <;> rfl
@[simp] theorem report_cam (d : Dev) (n : Nat) (x : Option Nat) : (d.report n x).cam = d.cam := by cases x <;> rfl
@[simp] theorem report_vis (d : Dev) (n : Nat) (x : Option Nat) : (d.report n x).vis = d.vis := by cases x <;> rfl
@[simp] theorem report_ins (d : Dev) (n : Nat) (x : Option Nat) : (d.report n x).ins = d.ins := by cases x <;> rfl
@[simp] theorem report_eth (d : Dev) (n : Nat) (x : Option Nat) : (d.report n x).eth = d.eth := by cases x <;> rfl
@[simp] theorem report_ptp (d : Dev) (n : Nat) (x : Option Nat) : (d.report n x).ptp = d.ptp := by cases x <;> rfl
@[simp] theorem report_twn (d : Dev) (n : Nat) (x : Option Nat) : (d.report n x).twn = d.twn := by cases x <;> rfl
@[simp] theorem report_pgf (d : Dev) (n : Nat) (x : Option Nat) : (d.report n x).pgf = d.pgf := by cases x <;> rfl
@[simp] theorem report_dmc (d : Dev) (n : Nat) (x : Option Nat) : (d.report n x).dmc = d.dmc := by cases x <;> rfl
@[simp] theorem report_dma (d : Dev) (n : Nat) (x : Option Nat) : (d.report n x).dma = d.dma := by cases x <;> rfl
@[simp] theorem report_mramBad (d : Dev) (n : Nat) (x : Option Nat) : (d.report n x).mramBad = d.mramBad := by cases x <;> rfl
@[simp] theorem report_rd (d : Dev) (n : Nat) (x : Option Nat) (a : Nat) : (d.report n x).rd a = d.rd a := by cases x <;> rfl
@[simp] theorem report_get (d : Dev) (n : Nat) (x : Option Nat) (g : Fld) : (d.report n x).get g = d.get g := by cases x <;> rfl
@[simp] theorem report_ldB (d : Dev) (n : Nat) (x : Option Nat) (a : Nat) : (d.report n x).ldB a = d.ldB a := by cases x <;> rfl

/-- A report joins those that wait for the collector. -/
theorem report_reps (d : Dev) (n : Nat) (x : Option Nat) :
    ∃ v, (d.report n x).reps = d.reps ++ [{ src := n, detail := v }] := by cases x <;> exact ⟨_, rfl⟩

@[simp] theorem report_srcs (d : Dev) (n : Nat) (x : Option Nat) : (d.report n x).reps.map (·.src) = d.reps.map (·.src) ++ [n] := by
  cases x <;> simp [Dev.report, Dev.fresh]

/-! ### when, each -/

@[simp] theorem when_true (d : Dev) (f : Dev → Dev) : d.when true f = f d := rfl
@[simp] theorem when_false (d : Dev) (f : Dev → Dev) : d.when false f = d := rfl
@[simp] theorem each_nil {α : Type} (d : Dev) (f : Dev → α → Dev) : d.each [] f = d := rfl
@[simp] theorem each_cons {α : Type} (d : Dev) (x : α) (l : List α) (f : Dev → α → Dev) : d.each (x :: l) f = (f d x).each l f := rfl

/-- What every round of a loop keeps, the loop keeps. -/
theorem each_keeps {α β : Type} (d : Dev) (l : List α) (f : Dev → α → Dev) (g : Dev → β) (h : ∀ d x, g (f d x) = g d) :
    g (d.each l f) = g d := by
  induction l generalizing d with
  | nil => rfl
  | cons x l ih => rw [each_cons, ih, h]

end Sys2Proof.Machine
end

