-- ==== Sys2Proof/Laws/Fields.lean ====
section
/-! SUPPORT. Registers and fields: what a read gives after a write of the same place, of another field of the same register, and of
another register. -/

namespace Sys2Proof.Machine

theorem bits_lt (x lo n : Nat) : bits x lo n < 2 ^ n := Nat.mod_lt _ (Nat.two_pow_pos n)

theorem setBits_lt (x lo n v w : Nat) (hx : x < 2 ^ w) (hw : lo + n ≤ w) : setBits x lo n v < 2 ^ w := by
  have h1 : x % 2 ^ lo < 2 ^ lo := Nat.mod_lt _ (Nat.two_pow_pos lo)
  have h2 : v % 2 ^ n < 2 ^ n := Nat.mod_lt _ (Nat.two_pow_pos n)
  have e : 2 ^ w = 2 ^ (lo + n) * 2 ^ (w - (lo + n)) := by rw [← Nat.pow_add]; congr 1; omega
  have h3 : x >>> (lo + n) < 2 ^ (w - (lo + n)) := by
    rw [Nat.shiftRight_eq_div_pow]; exact Nat.div_lt_of_lt_mul (by rw [← e]; exact hx)
  have h4 : x % 2 ^ lo + v % 2 ^ n * 2 ^ lo < 2 ^ (lo + n) := by
    rw [Nat.pow_add]
    calc x % 2 ^ lo + v % 2 ^ n * 2 ^ lo < 2 ^ lo + v % 2 ^ n * 2 ^ lo := by omega
      _ = (v % 2 ^ n + 1) * 2 ^ lo := by rw [Nat.add_mul]; omega
      _ ≤ 2 ^ n * 2 ^ lo := Nat.mul_le_mul_right _ h2
      _ = 2 ^ lo * 2 ^ n := Nat.mul_comm _ _
  unfold setBits
  calc _ < 2 ^ (lo + n) + x >>> (lo + n) * 2 ^ (lo + n) := by omega
    _ = (x >>> (lo + n) + 1) * 2 ^ (lo + n) := by rw [Nat.add_mul]; omega
    _ ≤ 2 ^ (w - (lo + n)) * 2 ^ (lo + n) := Nat.mul_le_mul_right _ h3
    _ = 2 ^ w := by rw [e, Nat.mul_comm]

theorem testBit_setBits (x lo n v i : Nat) :
    (setBits x lo n v).testBit i = if lo ≤ i ∧ i < lo + n then v.testBit (i - lo) else x.testBit i := by
  have h1 : x % 2 ^ lo < 2 ^ lo := Nat.mod_lt _ (Nat.two_pow_pos lo)
  have h2 : v % 2 ^ n < 2 ^ n := Nat.mod_lt _ (Nat.two_pow_pos n)
  have h4 : x % 2 ^ lo + v % 2 ^ n * 2 ^ lo < 2 ^ (lo + n) := by
    rw [Nat.pow_add]
    calc x % 2 ^ lo + v % 2 ^ n * 2 ^ lo < 2 ^ lo + v % 2 ^ n * 2 ^ lo := by omega
      _ = (v % 2 ^ n + 1) * 2 ^ lo := by rw [Nat.add_mul]; omega
      _ ≤ 2 ^ n * 2 ^ lo := Nat.mul_le_mul_right _ h2
      _ = 2 ^ lo * 2 ^ n := Nat.mul_comm _ _
  have e1 : setBits x lo n v = 2 ^ (lo + n) * (x >>> (lo + n)) + (2 ^ lo * (v % 2 ^ n) + x % 2 ^ lo) := by
    unfold setBits; rw [Nat.mul_comm (2 ^ (lo + n)), Nat.mul_comm (2 ^ lo)]; omega
  have h4' : 2 ^ lo * (v % 2 ^ n) + x % 2 ^ lo < 2 ^ (lo + n) := by rw [Nat.mul_comm]; omega
  rw [e1, Nat.testBit_two_pow_mul_add _ h4', Nat.testBit_two_pow_mul_add _ h1]
  by_cases ha : i < lo
  · have hb : i < lo + n := by omega
    have hc : ¬ lo ≤ i := by omega
    simp [ha, hb, hc, Nat.testBit_mod_two_pow]
  · by_cases hb : i < lo + n
    · have hc : lo ≤ i := by omega
      have hd : i - lo < n := by omega
      simp [ha, hb, hc, hd, Nat.testBit_mod_two_pow]
    · have hd : lo + n + (i - (lo + n)) = i := by omega
      simp [hb, Nat.testBit_shiftRight, hd]

theorem testBit_bits (x lo n i : Nat) : (bits x lo n).testBit i = (decide (i < n) && x.testBit (lo + i)) := by
  simp [bits, Nat.testBit_mod_two_pow, Nat.testBit_shiftRight]

/-- A field reads what was put into it. -/
theorem bits_setBits_same (x lo n v : Nat) : bits (setBits x lo n v) lo n = v % 2 ^ n := by
  apply Nat.eq_of_testBit_eq
  intro i
  rw [testBit_bits, testBit_setBits, Nat.testBit_mod_two_pow]
  by_cases h : i < n
  · simp [h]
  · simp [h]

/-- A field keeps its value when another one of the same register is put. -/
theorem bits_setBits_apart (x lo n v lo' n' : Nat) (h : lo' + n' ≤ lo ∨ lo + n ≤ lo') :
    bits (setBits x lo n v) lo' n' = bits x lo' n' := by
  apply Nat.eq_of_testBit_eq
  intro i
  rw [testBit_bits, testBit_bits, testBit_setBits]
  by_cases hi : i < n'
  · have : ¬ (lo ≤ lo' + i ∧ lo' + i < lo + n) := by omega
    simp [this]
  · simp [hi]

/-! ### Registers -/

@[simp] theorem rd_wr_same (d : Dev) (a : Nat) (v : Word) : (d.wr a v).rd a = v := spGet_spPut_same _ _ _ _

theorem rd_wr_ne (d : Dev) (a b : Nat) (v : Word) (h : b ≠ a) : (d.wr a v).rd b = d.rd b := spGet_spPut_ne _ _ _ _ _ _ h

@[simp] theorem rd_wrN_same (d : Dev) (a v : Nat) : (d.wrN a v).rd a = BitVec.ofNat 32 v := rd_wr_same _ _ _

theorem rd_wrN_ne (d : Dev) (a b v : Nat) (h : b ≠ a) : (d.wrN a v).rd b = d.rd b := rd_wr_ne _ _ _ _ h

theorem rd_put_ne (d : Dev) (f : Fld) (b v : Nat) (h : b ≠ f.addr) : (d.put f v).rd b = d.rd b := rd_wr_ne _ _ _ _ h

theorem get_wr_ne (d : Dev) (a : Nat) (v : Word) (g : Fld) (h : g.addr ≠ a) : (d.wr a v).get g = d.get g := by
  simp [Dev.get, rd_wr_ne d a g.addr v h]

theorem get_wrN_ne (d : Dev) (a v : Nat) (g : Fld) (h : g.addr ≠ a) : (d.wrN a v).get g = d.get g := get_wr_ne _ _ _ _ h

theorem get_put_ne (d : Dev) (f g : Fld) (v : Nat) (h : g.addr ≠ f.addr) : (d.put f v).get g = d.get g := get_wr_ne _ _ _ _ h

theorem toNat_put (d : Dev) (f : Fld) (v : Nat) (h : f.lo + f.width ≤ 32) :
    ((d.put f v).rd f.addr).toNat = setBits (d.rd f.addr).toNat f.lo f.width v := by
  simp only [Dev.put, rd_wr_same, BitVec.toNat_ofNat]
  exact Nat.mod_eq_of_lt (setBits_lt _ _ _ _ 32 (d.rd f.addr).isLt h)

/-- A field reads what was put into it, up to its width. -/
theorem get_put_same (d : Dev) (f : Fld) (v : Nat) (h : f.lo + f.width ≤ 32) : (d.put f v).get f = v % 2 ^ f.width := by
  unfold Dev.get; rw [toNat_put d f v h, bits_setBits_same]

/-- A field of the same register that does not meet the one put keeps its value. -/
theorem get_put_apart (d : Dev) (f g : Fld) (v : Nat) (h : f.lo + f.width ≤ 32) (ha : g.addr = f.addr)
    (hg : g.lo + g.width ≤ f.lo ∨ f.lo + f.width ≤ g.lo) : (d.put f v).get g = d.get g := by
  unfold Dev.get; rw [ha, toNat_put d f v h, bits_setBits_apart _ _ _ _ _ _ hg]

theorem get_wrN_same (d : Dev) (a v lo n : Nat) : (d.wrN a v).get ⟨a, lo, n⟩ = bits (v % 2 ^ 32) lo n := by
  simp [Dev.get, BitVec.toNat_ofNat]

theorem get_lt (d : Dev) (f : Fld) : d.get f < 2 ^ f.width := bits_lt _ _ _

end Sys2Proof.Machine
end

