-- ==== Sys2Proof/Laws/Step.lean ====
section
/-! SUPPORT. The step and the wrapper of every meaning: how a command ends, when the collector does nothing, and what a frame
gives. -/

namespace Sys2Proof.Machine

/-- A command with the effect `f` ends with `f` of the device. -/
theorem ends_of_upd {i : Instr} {s : State} {f : Dev → Dev} {P : Dev → Prop} (h : exec i s = s.upd f) (p : P (f s.dev)) :
    Ends i s P := ⟨f s.dev, h, p⟩

/-- With no report waiting the collector does nothing. -/
theorem settle_quiet (d : Dev) (h : d.reps = []) : d.settle = d := by simp [Dev.settle, Dev.settleN, h]

/-- Where the items are the same the margins stand. -/
theorem margins_same (d old : Dev) (h : d.itk.items = old.itk.items) : d.margins old = d := by simp [Dev.margins, h]

/-- Nothing changes without an update. -/
theorem Frame.refl (d : Dev) (as : List Nat) : Frame d d as := ⟨fun _ _ => rfl, fun _ => rfl⟩

theorem Frame.trans {d e f : Dev} {as : List Nat} (h : Frame d e as) (k : Frame e f as) : Frame d f as :=
  ⟨fun a n => (k.regs a n).trans (h.regs a n), fun a => (k.mem a).trans (h.mem a)⟩

theorem Frame.mono {d e : Dev} {as bs : List Nat} (h : Frame d e as) (k : ∀ a ∈ as, a ∈ bs) : Frame d e bs :=
  ⟨fun a n => h.regs a fun m => n (k a m), h.mem⟩

/-- A register at a listed address is written. -/
theorem frame_wr (d : Dev) (a : Nat) (v : Word) (as : List Nat) (h : a ∈ as) : Frame d (d.wr a v) as :=
  ⟨fun _ n => rd_wr_ne _ _ _ _ fun e => n (e ▸ h), fun _ => rfl⟩

theorem frame_wrN (d : Dev) (a v : Nat) (as : List Nat) (h : a ∈ as) : Frame d (d.wrN a v) as := frame_wr _ _ _ _ h

/-- A field of a register at a listed address is written. -/
theorem frame_put (d : Dev) (f : Fld) (v : Nat) (as : List Nat) (h : f.addr ∈ as) : Frame d (d.put f v) as := frame_wr _ _ _ _ h

/-- A report changes no register and no memory. -/
theorem frame_report (d : Dev) (n : Nat) (x : Option Nat) (as : List Nat) : Frame d (d.report n x) as :=
  ⟨fun a _ => report_rd d n x a, fun a => report_ldB d n x a⟩

end Sys2Proof.Machine
end

