-- ==== Sys2Proof/WellFormed.lean ====
section
/-! DEFINITION. Which commands are well formed: every operand is a value that its carrier has. A carrier is a register access
(R24, R33), a message, a block or a frame with the widths that the spec gives its fields, or a time of the free-running
counter (R3). Operands whose type holds just those values need no check; measured figures (a voltage, a temperature, a count of
errors) have no width in the spec. -/

namespace Sys2Proof

/-- A value of `w` bits. -/
def fits (w v : Nat) : Bool := decide (v < 2 ^ w)

/-- A signed value of `w` bits. -/
def fitsInt (w : Nat) (v : Int) : Bool := decide (-(2 ^ (w - 1) : Nat) ≤ v ∧ v < (2 ^ (w - 1) : Nat))

/-- Values of `w` bits each. -/
def allFit (w : Nat) (l : List Nat) : Bool := l.all (fits w)

/-- Just `n` bytes. -/
def len (n : Nat) (l : List Byte) : Bool := l.length == n

/-- At most `n` bytes. -/
def atMost (n : Nat) (l : List Byte) : Bool := decide (l.length ≤ n)

/-- A requester: the four harts, the trusted core, DMA, VJP, JTAG and the loader (R21). -/
def okReq (r : Nat) : Bool := decide (r < 9)

/-- The size of one access in bytes: a power of two up to the 32 bytes of a DMA beat. -/
def okWidth (w : Nat) : Bool := [1, 2, 4, 8, 16, 32].contains w

/-- The header of a VJP message has the widths of R98, its body is a multiple of 8 bytes, its tag has 16 bytes, and it is at
most 8,960 bytes long. -/
def VjpMsg.wellFormed (m : VjpMsg) : Bool :=
  fits 2 m.flags && fits 3 m.slot && fits 32 m.sid && fits 32 m.seq && fits 32 m.ack && fits 32 m.sack && fits 8 m.type &&
    m.body.length % 8 == 0 && atMost 8912 m.body && len 16 m.tag

/-- The header of a PTP message: an 80-bit port identity and a signed 64-bit correctionField (R431). -/
def PtpHdr.wellFormed (h : PtpHdr) : Bool := fits 8 h.dom && fits 80 h.sender && fits 16 h.seq && fitsInt 64 h.corr

/-- What an Announce carries (R430). -/
def PtpAnn.wellFormed (a : PtpAnn) : Bool :=
  fits 8 a.p1 && fits 8 a.cls && fits 8 a.acc && fits 16 a.var && fits 8 a.p2 && fits 64 a.gm && fits 16 a.steps && fitsInt 16 a.utc

/-- The fields of a fabric header (R399). -/
def FabPkt.wellFormed (p : FabPkt) : Bool :=
  fits 11 p.dst && fits 11 p.src && fits 5 p.hops && fits 3 p.cls && fits 8 p.ptype && fits 16 p.len

/-- A fabric packet as it arrives: the widths of its PSTART (R398). -/
def FabRx.wellFormed (r : FabRx) : Bool := fits 12 r.lseq && r.pkt.wellFormed && fits 64 r.t

/-- An INPUT: KIND (2 bytes), UNIT (1), COUNT (4) and up to 256 payload bytes (R376). -/
def TwInput.wellFormed (x : TwInput) : Bool := fits 16 x.kind && fits 8 x.unit && fits 32 x.count && atMost 256 x.data

/-- A COPY: REGION (1 byte), OFFSET (4), COUNT (4) and up to 4,096 data bytes (R376). -/
def TwCopy.wellFormed (c : TwCopy) : Bool := fits 8 c.region && fits 32 c.offset && fits 32 c.count && atMost 4096 c.data

/-- A command whose operands are values that their carriers have. -/
def Instr.wellFormed : Instr → Bool
  | .registerWrite req addr width value => okReq req && fits 40 addr && okWidth width && fits 32 value
  | .loReadCapture req addr width => okReq req && fits 40 addr && okWidth width
  | .rejclr req _ value => okReq req && fits 32 value
  | .interruptClaim _ => true
  | .machineTimerExpiry _ => true
  | .clockCheckWindow _ => true
  | .refclkLoss => true
  | .powerOnReset _ _ _ => true
  | .rstNAssert => true
  | .rstNRelease => true
  | .trustedWatchdogExpiry => true
  | .hartWatchdogExpiry => true
  | .sysHwdKick req value => okReq req && fits 32 value
  | .sysTwdKick req value => okReq req && fits 32 value
  | .softwareReset req value => okReq req && fits 32 value
  | .ctlReset _ => true
  | .safBootComplete _ => true
  | .slotCheck _ => true
  | .registerListPoll _ => true
  | .configDone => true
  | .trainingComplete _ => true
  | .selftestComplete _ => true
  | .startLimitExceeded _ => true
  | .journalRecovery _ => true
  | .updateEraseComplete _ => true
  | .flashWriteComplete _ => true
  | .updateCheckComplete => true
  | .cfgClaimGo req value => okReq req && fits 32 value
  | .info _ => true
  | .devpub _ => true
  | .keyList _ => true
  | .jnlRead _ => true
  | .fltSetsev _ => true
  | .fltInject _ => true
  | .updOpen _ => true
  | .updData _ => true
  | .updClose _ => true
  | .safeEnter _ => true
  | .fuseProgKeyhash _ => true
  | .fuseProgSlotRevoke _ => true
  | .fuseProgDebugKill _ => true
  | .fuseProgRootKill _ => true
  | .fuseProgZkeyRevoke _ => true
  | .mailboxUnknown _ => true
  | .tamperAlarm _ => true
  | .meshSample _ => true
  | .voltageGlitch => true
  | .clockGlitch => true
  | .secTempAlarm => true
  | .secErase req value => okReq req && fits 32 value
  | .macOperation _ _ _ => true
  | .extest _ => true
  | .samplePreload _ => true
  | .clamp => true
  | .highz => true
  | .devid => true
  | .unlock => true
  | .unlockToken rights slot pub sig => fits 32 rights && fits 8 slot && len 96 pub && len 96 sig
  | .dbgApp words => allFit 32 words
  | .dbgReg _ addr width value => fits 40 addr && okWidth width && fits 32 value
  | .bypass => true
  | .vjpMalformed _ _ _ data => atMost 65527 data
  | .vjpOpen _ _ msg => msg.wellFormed
  | .close _ _ msg => msg.wellFormed
  | .ackonly _ _ msg => msg.wellFormed
  | .submit _ _ msg => msg.wellFormed
  | .accept => true
  | .vjpData _ _ msg => msg.wellFormed
  | .cancel _ _ msg => msg.wellFormed
  | .finalAck _ _ msg => msg.wellFormed
  | .query _ _ msg => msg.wellFormed
  | .zoneBase _ _ msg => msg.wellFormed
  | .regRead _ _ msg => msg.wellFormed
  | .regWrite _ _ msg => msg.wellFormed
  | .vjpUnknownType _ _ msg => msg.wellFormed
  | .ackTimer _ => true
  | .retransmitTimer _ => true
  | .sessionIdle _ => true
  | .queuedMessageSend _ => true
  | .pageFree _ => true
  | .itemStaged id => fits 64 id
  | .itemBind id => fits 64 id
  | .finalSend id => fits 64 id
  | .refusalHoldExpiry link id => fits 16 link && fits 64 id
  | .itkCntclr req value => okReq req && fits 32 value
  | .inputRingFetch _ _ _ => true
  | .decoderInputReady _ _ => true
  | .decoderStallEnd _ _ => true
  | .brdDjobGo req => okReq req
  | .djobComplete => true
  | .brcGo req => okReq req
  | .brcBlockVerify _ _ => true
  | .brcRingRoom => true
  | .brcOutsize req value => okReq req && fits 32 value
  | .assembleLine _ _ _ => true
  | .rasStatclr req value => okReq req && fits 32 value
  | .rasErrClear req => okReq req
  | .impItemRender _ => true
  | .macResult _ => true
  | .fieldStoreRoom _ => true
  | .impErrClear req => okReq req
  | .nzmStatewr req nozzle _ => okReq req && fits 18 nozzle
  | .nozzleStateApply _ => true
  | .probeDelayExpiry _ => true
  | .rakeSweep _ _ => true
  | .densityReport _ _ lowSeq => fits 32 lowSeq
  | .tempStaleTimeout _ => true
  | .pb4Run => true
  | .pb4Analysis failed ratios => allFit 18 failed && (ratios.all fun x => fits 18 x.1)
  | .pb4AnalysisTimeout => true
  | .calPb4req req _ heads => okReq req && fits 32 heads
  | .encoderCount _ _ _ t => fits 64 t
  | .zEdge _ t => fits 64 t
  | .encoderStill _ t => fits 64 t
  | .compareArm req _ _ => okReq req
  | .compareDisarm req _ => okReq req
  | .compareMatch _ t => fits 64 t
  | .comparePulseEnd _ => true
  | .printGoEdge _ _ _ t => fits 64 t
  | .rejectPulseStart _ t => fits 64 t
  | .rejectPulseEnd _ t => fits 64 t
  | .emuOutputStep _ t => fits 64 t
  | .sluiceEvent _ _ => true
  | .fireInstant _ t => fits 64 t
  | .firCommit req _ => okReq req
  | .firStatclr req value => okReq req && fits 32 value
  | .frameStart _ t _ => fits 64 t
  | .fireBlockSend _ _ => true
  | .idleBlock _ => true
  | .idleUp _ _ _ _ _ _ => true
  | .helloUp _ _ _ heads bufev fixns turnns => fits 8 heads && fits 7 bufev && fits 12 fixns && fits 9 turnns
  | .echoUp _ _ tag t => fits 16 tag && fits 64 t
  | .firedUp _ _ _ _ _ => true
  | .tempUp _ _ _ temp vsup flags => fitsInt 16 temp && fits 15 vsup && fits 5 flags
  | .nakUp _ _ _ _ offset => fits 15 offset
  | .cmdackUp _ _ _ opc status ctag arg => fits 4 opc && fits 8 status && fits 8 ctag && fits 16 arg
  | .faultUp _ _ _ code arg => fits 8 code && fits 16 arg
  | .firedUpTimeout _ => true
  | .hlkNop req _ _ _ arg => okReq req && fits 16 arg
  | .spit req _ _ _ arg => okReq req && fits 16 arg
  | .waveset req _ _ _ arg => okReq req && fits 16 arg
  | .heater req _ _ _ arg => okReq req && fits 16 arg
  | .headreset req _ _ _ arg => okReq req && fits 16 arg
  | .boardDefinedCommand req _ _ _ _ arg => okReq req && fits 16 arg
  | .hlkCmdTimeout => true
  | .laneSeriesStart _ => true
  | .laneLock _ => true
  | .helloTimer _ => true
  | .echoTimer _ t => fits 64 t
  | .echoWindowEnd _ => true
  | .laneAbort _ _ => true
  | .laneBackoffEnd _ => true
  | .laneDown _ => true
  | .retrain req _ => okReq req
  | .errclr req _ => okReq req
  | .lanePllLoss _ => true
  | .dfeTapLimit _ => true
  | .prbsError _ _ => true
  | .losChange _ _ => true
  | .eyeMonitorRefresh _ _ _ => true
  | .srdPd req _ _ => okReq req
  | .srdPrbs req _ _ => okReq req
  | .srdLoop req _ _ => okReq req
  | .lanePowerUpComplete _ => true
  | .headTempStale _ => true
  | .marginRecompute _ => true
  | .speedReqUpdate => true
  | .speedFloorTimeout => true
  | .sluStatclr req value => okReq req && fits 32 value
  | .csiFrameStart _ _ => true
  | .csiFrameEnd _ _ => true
  | .csiLine _ _ _ payload _ _ => atMost 65535 payload
  | .csiGenericShort _ _ => true
  | .csiHeaderError _ => true
  | .csiFrameTimeout _ => true
  | .deskew _ => true
  | .tileLine _ _ _ _ px => allFit 16 px
  | .tileLineTimeout _ => true
  | .tidleUp _ _ _ fixns => fits 12 fixns
  | .thelloUp _ _ _ tiles => fits 32 tiles
  | .tackUp _ _ _ status => fits 8 status
  | .tfaultUp _ _ _ code arg => fits 8 code && fits 16 arg
  | .tackTimeout _ => true
  | .tlaneAttemptStart _ _ => true
  | .tlaneDown _ => true
  | .trgArm req _ _ => okReq req
  | .trgStop req _ => okReq req
  | .triggerDue _ t => fits 64 t
  | .camTrgCommit req _ => okReq req
  | .lineGrant _ => true
  | .camFdsize req value => okReq req && fits 32 value
  | .camStatclr req value => okReq req && fits 32 value
  | .visTbldata req value => okReq req && fits 32 value
  | .archiveBand _ => true
  | .expectedFold _ => true
  | .inspectionWindow _ => true
  | .insStatclr req value => okReq req && fits 32 value
  | .lampFrame _ sts _ => allFit 64 sts
  | .lampStrobe _ t _ => fits 64 t
  | .lampStrobeEnd _ t => fits 64 t
  | .diagPeriodEnd _ _ _ => true
  | .diagLatchHoldEnd _ => true
  | .chainIdent _ => true
  | .lmpCommit req _ => okReq req
  | .safeNopTimer => true
  | .twidle ep role => fits 32 ep && fits 3 role
  | .twnHello role side last ep seq tag gen => fits 8 role && fits 8 side && fits 8 last && fits 32 ep && fits 32 seq && fits 32 tag && fits 64 gen
  | .twnHealth health encs => fits 32 health && (encs.all fun x => fitsInt 64 x.1 && fitsInt 64 x.2)
  | .jrec _ rec => len 48 rec
  | .jfin _ final => fits 64 final
  | .jret _ => true
  | .jack _ status => fits 8 status
  | .twnInput x => x.wellFormed
  | .twnSig _ count sig => fits 32 count && fits 32 sig
  | .twnPage body => decide (16 ≤ body.length)
  | .twnCopy c => c.wellFormed
  | .twnDiag _ count _ => fits 32 count
  | .resign _ counts => (counts.length == 64) && allFit 32 counts
  | .fence ep => fits 32 ep
  | .mack _ => true
  | .mnak _ => true
  | .messageResendTimer _ => true
  | .sidebandFrame frame => fits 64 frame
  | .sidebandSend => true
  | .aliveLost => true
  | .aliveRegained => true
  | .twinLinkSilent => true
  | .formwaitExpiry => true
  | .sigTimeout _ count => fits 32 count
  | .diagnosisComplete _ _ => true
  | .replicationTimeout => true
  | .standbyLinkTimeout => true
  | .twnHelloSend => true
  | .twnHealthSend => true
  | .memoryScrub _ => true
  | .mramTest pattern => fits 64 pattern
  | .macSelfTest _ => true
  | .twnInfo _ => true
  | .twnSwap _ => true
  | .twnRejoin _ => true
  | .twnResign _ => true
  | .twnForce _ => true
  | .pgfHello _ rx => rx.wellFormed
  | .pgfAuth _ rx => rx.wellFormed
  | .rootadv _ rx => rx.wellFormed
  | .tsync _ rx => rx.wellFormed
  | .pdreq _ rx => rx.wellFormed
  | .pdresp _ rx => rx.wellFormed
  | .addrreq _ rx => rx.wellFormed
  | .addrgrant _ rx => rx.wellFormed
  | .topo _ rx => rx.wellFormed
  | .toporeq _ rx => rx.wellFormed
  | .route _ rx => rx.wellFormed
  | .refuse _ rx => rx.wellFormed
  | .epoch _ rx => rx.wellFormed
  | .pgfVjp _ rx => rx.wellFormed
  | .pgfVjpdata _ rx => rx.wellFormed
  | .fcred _ _ _ _ _ => true
  | .fnak _ _ _ => true
  | .pgfPacketSend _ t => fits 64 t
  | .pgfReplayTimeout _ => true
  | .fcredTimer _ => true
  | .rootadvTimer => true
  | .rootadvAgeOut _ => true
  | .addrreqTimer => true
  | .addressFree _ => true
  | .topoTimer => true
  | .routeCompute => true
  | .routePartDiscard => true
  | .refuseRepeat refid => fits 32 refid
  | .epochBroadcastTimer => true
  | .tsyncTimer => true
  | .pdreqTimer => true
  | .pgfPortAttempt _ => true
  | .pgfPortAbort _ _ => true
  | .pgfLaneAlign _ _ => true
  | .pgfPortDown _ _ => true
  | .pgfRetrain req ports => okReq req && fits 4 ports
  | .pgfStatclr req value => okReq req && fits 32 value
  | .ethLinkChange _ _ => true
  | .pause _ _ => true
  | .arpRequest _ mac sip ip => fits 48 mac && fits 32 sip && fits 32 ip
  | .neighbourSolicitation _ mac sip target => fits 48 mac && fits 128 sip && fits 128 target
  | .echoRequest _ v6 mac sip dst data => fits 48 mac && fits (if v6 then 128 else 32) sip && fits (if v6 then 128 else 32) dst && atMost 65535 data
  | .swrxFrame _ frame _ pcs _ => decide (14 ≤ frame.length) && fits 64 pcs
  | .ethRxDrop _ _ => true
  | .ethTxkick req _ => okReq req
  | .txFrameDone _ pcs _ => fits 64 pcs
  | .timedLaunch _ t => fits 64 t
  | .ethTxtsPop req => okReq req
  | .ethRingSize req _ _ value => okReq req && fits 32 value
  | .ethCounterClr req _ => okReq req
  | .announce _ h a => h.wellFormed && a.wellFormed
  | .ptpSync _ h _ t1 pcs => h.wellFormed && fits 78 t1 && fits 64 pcs
  | .followUp _ h t1 => h.wellFormed && fits 78 t1
  | .delayReq _ h pcs => h.wellFormed && fits 64 pcs
  | .delayResp _ h req t4 => h.wellFormed && fits 80 req && fits 78 t4
  | .pdelayReq _ h pcs tx => h.wellFormed && fits 64 pcs && fits 64 tx
  | .pdelayResp _ h req _ t2 pcs => h.wellFormed && fits 80 req && fits 78 t2 && fits 64 pcs
  | .pdelayRespFollowUp _ h req t3 => h.wellFormed && fits 80 req && fits 78 t3
  | .managementMessage _ => true
  | .ptpSendTimer _ _ tx => fits 64 tx
  | .syncTimeout _ => true
  | .announceReceiptTimeout _ => true
  | .holdoverExpiry => true
  | .ptpSnap req => okReq req
  | .ptpRate req value => okReq req && fits 32 value
  | .ptpStep req value => okReq req && fits 32 value
  | .dramRequest _ addr _ _ => fits 40 addr
  | .refresh _ _ _ _ => true
  | .mr4Poll codes => (codes.length == 8) && allFit 8 codes
  | .selfRefreshEntry _ => true
  | .dramRetrainCheck _ _ => true
  | .dramRetrainDone _ => true
  | .dmcFreq req value => okReq req && fits 32 value
  | .freqChangeDone _ => true
  | .dramScrub _ => true
  | .ceRateWindow => true
  | .dmcStatclr req value => okReq req && fits 32 value
  | .dmcUeaddrClear req => okReq req
  | .dmaKick req _ => okReq req
  | .dmaDescriptorFetch _ => true
  | .dmaWriteback => true
  | .dmaBusError _ _ => true
  | .dmaReset req => okReq req
  | .dmaRingSize req _ value => okReq req && fits 32 value
  | .faultReport reports _ => reports.all fun x => fits 8 x.1 && fits 32 x.2
  | .safeJournalComplete => true
  | .fltInj req value => okReq req && fits 32 value
  | .fltFwraise req value => okReq req && fits 32 value
  | .fltPendClear req _ value => okReq req && fits 32 value
  | .fltSafectlExit req value => okReq req && fits 32 value
  | .fltHistclr req value => okReq req && fits 32 value
  | .severityCheck _ _ => true
  | .harvest _ => true
  | .harvestComplete => true
  | .harvestTimeout => true
  | .feedOutOfRange _ _ => true
  | .feedSwitchOpen _ => true
  | .oringFault _ => true
  | .regulatorFault _ => true
  | .powerFailWarning => true
  | .dieTempThreshold _ _ => true
  | .dieSensorMismatch _ => true
  | .safeNLow => true
  | .safeNShort => true
  | .railChange _ => true
  | .gpioEdge _ _ => true
  | .feedRestored _ _ => true
  | .supplyLoss => true
  | .safeNRelease => true
  | .alarmInputInactive _ => true

end Sys2Proof
end

