-- ==== Sys2Proof/Tests/Slice0.lean ====
section
/-! SUPPORT. Tests. The first part runs one step on a small state and compares a field with a worked example, a table or a rule of
the spec, named at the test; the second shows that the checks of WellFormed refuse; the third gives, for each statement that has
hypotheses, a state and operands that meet them together. -/

namespace Sys2Proof.Tests
open Sys2Proof.Machine

set_option maxRecDepth 20000
set_option Elab.async false

/-- The device after reset in READY, with these registers written and these fields set. -/
def ready (rs : List (Nat × Nat)) (fs : List (Fld × Nat)) : Dev :=
  let d := rs.foldl (fun d x => d.wrN x.1 x.2) (State.reset.dev.put F.SYS_STATE_STATE stReady)
  fs.foldl (fun d x => d.put x.1 x.2) d

/-- The reset state with another device. -/
def st (d : Dev) : State := { State.reset with dev := d }

/-- The device after one step with the command in front. -/
def after (i : Instr) (d : Dev) : Dev :=
  match step { st d with pending := [i] } with
  | .next t => t.dev
  | _ => d

/-! ### Worked examples and tables of the spec -/

/-- The step of an empty queue (entry 1). -/
theorem test_idle : step State.reset = .next (st { State.reset.dev with c := 1 }) := rfl

/-- R37: FIR_ID, SYS_ID and PIN_ID as the text under the header table gives them. -/
theorem test_block_ids : (State.reset.dev.rd (blockBase 15)).toNat = 0xB80B040F ∧ (State.reset.dev.rd (blockBase 0)).toNat = 0xB80B0000 ∧
    (State.reset.dev.rd (blockBase 28)).toNat = 0xB80B001C := by decide +kernel

/-- R46, R49: after power-on the cause is POR and the state is SAF_BOOT. -/
theorem test_power_on : (after (.powerOnReset true false true) (ready [] [])).st? = stBoot ∧
    ((after (.powerOnReset true false true) (ready [] [])).rd R.SYS_RSTCAUSE).toNat = 1 := by decide +kernel

/-- R35, R38: hart 2 writes an offset of FIR that has no register: VALID, REQ 2, OFFSET and BAD_VALUE in the layout of R37. -/
theorem test_rej : ((after (.registerWrite 2 (blockBase 15 + 0xFFC) 4 0) (ready [] [])).rd (blockBase 15 + 4)).toNat = 0x820FFC01 ∧
    ((after (.registerWrite 2 (blockBase 15 + 0xFFC) 4 0) (ready [] [])).rd (blockBase 15 + 8)).toNat = 1 := by decide +kernel

/-- R24: a misaligned access is recorded at the offset rounded down. -/
theorem test_rej_misaligned : ((after (.registerWrite 0 (R.FIR_STATCLR + 2) 4 0) (ready [] [])).rd (blockBase 15 + 4)).toNat =
    2 ^ 31 + (R.FIR_STATCLR % 0x10000) * 2 ^ 8 + 1 := by decide +kernel

/-- R38: CLR_REJ and CLR_CNT. -/
theorem test_rejclr : ((after (.rejclr 0 15 3) (ready [(blockBase 15 + 4, 0x820C4001), (blockBase 15 + 8, 3)] [])).rd (blockBase 15 + 4)).toNat = 0 := by
  decide +kernel

/-- R44: a kick with another value is rejected. -/
theorem test_kick : (after (.sysHwdKick 0 0xA5C4) (ready [] [])).out.head? = some (.reg 0 R.SYS_HWD_KICK sBadValue 0) := by decide +kernel

/-- R86: the worked example of the mailbox: source 120 to ITEM, response word 0x2007_0000. -/
theorem test_setsev : ((after (.fltSetsev 2) (ready [(R.MBX_REQ_W 2 0, 0x00070120), (R.MBX_REQ_W 2 1, 0x278), (R.MBX_TPEND, 4)]
      [(F.SEC_MBX_ALLOW_GROUP, 2)])).rd (R.MBX_RSP_W 2 0)).toNat = 0x20070000 ∧
    (after (.fltSetsev 2) (ready [(R.MBX_REQ_W 2 0, 0x00070120), (R.MBX_REQ_W 2 1, 0x278), (R.MBX_TPEND, 4)]
      [(F.SEC_MBX_ALLOW_GROUP, 2)])).sev 120 = 2 := by decide +kernel

/-- R87: the same request with its group not allowed is DENIED: 0x2007_0007. -/
theorem test_setsev_denied : ((after (.fltSetsev 2) (ready [(R.MBX_REQ_W 2 0, 0x00070120), (R.MBX_REQ_W 2 1, 0x278), (R.MBX_TPEND, 4),
      (R.SEC_MBX_ALLOW, 0)] [])).rd (R.MBX_RSP_W 2 0)).toNat = 0x20070007 := by decide +kernel

/-- R121: the worked example of the journal: slot 1,234. -/
theorem test_slot_address : slotAddr 1234 = 0x03013480 ∧ useAddr 1234 = 0x033A0098 := by decide

/-- FIPS 180-4: the first four bytes of SHA-256 of "abc". -/
theorem test_sha256 : (sha256 [0x61, 0x62, 0x63]).take 4 = [0xBA, 0x78, 0x16, 0xBF] := by decide +kernel

/-- The 20 bytes of the header and the 9 bytes of payload of the worked example of "The brine compressed raster format". -/
def exampleHdr : List Byte := [0x42, 0x52, 1, 0, 0, 4, 0, 0, 0, 0, 8, 0, 4, 0, 0, 0, 9, 0, 0, 0]
def exampleBits : List Byte := [0x2F, 0x34, 0x02, 0x20, 0x05, 0x6F, 0x07, 0xFF, 0xC0]

/-- R149: the worked example decodes to the samples of its table. -/
theorem test_brine : (match parseBlk exampleHdr with
    | some b => (decodeBlock b exampleBits).1.map fun x => x.1
    | none => []) = [[0, 0, 0, 0, 5, 5, 5, 5], [0, 0, 0, 0, 5, 5, 5, 5], [7, 0, 0, 0, 0, 5, 5, 5], [0, 0, 0, 0, 0, 0, 0, 0]] := by decide +kernel

/-- R136: its CHECK. -/
theorem test_adler : adler32 (exampleHdr ++ exampleBits) = 0x1B18036E := by decide +kernel

/-- R151 and R163: the bounds of the examples. -/
theorem test_bounds : brineBound 4096 64 4 = 131088 ∧ brineBound 32768 256 4 = 4194368 ∧ brineBound 8 4 4 = 17 := by decide

/-- R227: the worked example of the rake: R 15,401 gives 4. -/
theorem test_rake : rakeDelta 128 1 15401 = 4 := by decide +kernel

/-- R234: one count in MODE 0 of an encoder that is in use. -/
theorem test_count : (after (.encoderCount 0 true false 5) (ready [] [(F.CFG_STATUS_DONE, 1), (F.POS_ENC_CFG_ENABLE 0, 1)])).pos.encs.map (fun x => x.raw) =
    [1, 0, 0, 0] := by decide +kernel

/-- R461: the worked example of the collector: records of 98, then 64 with INJ_COLLIDE, and FLT_FIRST. -/
theorem test_collect : ((after (.faultReport [(64, 0), (122, 0), (98, 0)] none) (ready [] [(F.FLT_SRC_CFG_SEV 64, 2), (F.FLT_SRC_CFG_SEV 122, 2),
      (F.FLT_SRC_CFG_SEV 98, 3)])).rd R.FLT_FIRST).toNat = 0x80000362 := by decide +kernel

/-- R426: the worked example of device time at C = 1,010,000,000,000. -/
theorem test_time : (({ ready [(R.PTP_RATE, 13743895)] [] with ptp := { State.reset.dev.ptp with t0 := 1931246400000000000, c0 := 1000000000000 } } : Dev).timeAt
    1010000000000) = 1931246410000124999 := by decide +kernel

/-- R449: the worked example of DMC_FREQ: SP 2 in READY while a channel is retrained completes with STATE PENDING. -/
theorem test_freq : (after (.dmcFreq 0 2) (ready [] [(F.DMC_CFG_FSPEN, 4), (F.DMC_FSP_RATE, 0x400), (F.DMC_TRAINSTAT_RUN, 32)])).get F.DMC_FREQSTAT_STATE = 1 := by
  decide +kernel

/-- R357: the word of a NOP has the CRC of its 56 bits; CRC-8 with polynomial 0x07 of 0x31 to 0x37 alone is computed by hand
from the rule as 0 for a word of zeros. -/
theorem test_lamp_crc : wordCrc 0 = 0 ∧ wordCrc (1 * 2 ^ 8) = 0x07 := by decide +kernel

/-- R377: a frame with a wrong marker is ignored. -/
theorem test_sideband : after (.sidebandFrame 0) (ready [] [(F.TWN_CFG_PAIR, 1)]) = ready [] [(F.TWN_CFG_PAIR, 1)] := by decide +kernel

/-- Head 9 on lane 3 at 16 Gb/s, with an event whose EVSEQ is 0x2C and whose command leaves at 4.844 ns. -/
def fireReady : Dev := (ready [] [(F.CFG_STATUS_DONE, 1), (F.RAS_HEAD_CFG_VALID 9, 1), (F.HLK_HEAD_MAP_LANES 9, 1), (F.HLK_LANE_STAT_STATE 3, 3), (F.SRD_LANE_CFG_RATE 3, 5)]).onFir fun t =>
  { t with heads := upd t.heads 9 fun h => { h with pan := [⟨0, 0, [], [], 0x2C, 0, 0, false, false, 0, [(3, 1)], [], some 4844⟩] } }

/-- The worked example under R283: at 16 Gb/s LAT is 46 ns, the FIRE goes out in the slot at 49.5 ns with DLY 86 and EVSEQ 0x2C. -/
theorem test_fire : (after (.fireBlockSend 9 49500) fireReady).out.head? = some (.hlk 3 0x66 [0x580561]) := by decide +kernel

/-- R435, R428: a snapshot of a requester holds C and the device time. -/
theorem test_snap : spGet (0, 0) (after (.ptpSnap 3) ({ ready [] [] with c := 77 })).ptp.snaps 3 = (77, 77) := by decide +kernel

/-! ### WellFormed refuses -/

theorem test_wf_addr : Instr.wellFormed (.registerWrite 0 (2 ^ 40) 4 0) = false := by decide
theorem test_wf_width : Instr.wellFormed (.registerWrite 0 0 3 0) = false := by decide
theorem test_wf_value : Instr.wellFormed (.registerWrite 0 0 4 (2 ^ 32)) = false := by decide
theorem test_wf_requester : Instr.wellFormed (.ptpSnap 9) = false := by decide
theorem test_wf_time : Instr.wellFormed (.zEdge 0 (2 ^ 64)) = false := by decide
/-- A QUERY with a body and a tag. -/
def wfMsg (b : List Byte) (n : Nat) : VjpMsg :=
  let t := List.replicate n 0
  ⟨0, 0, 1, 0, 0, 0, 0x14, b, t⟩

theorem test_wf_tag : Instr.wellFormed (.query 0 false (wfMsg [] 15)) = false := by decide
theorem test_wf_body : Instr.wellFormed (.query 0 false (wfMsg [0] 16)) = false := by decide
theorem test_wf_message : Instr.wellFormed (.query 0 false (wfMsg [] 16)) = true := by decide
theorem test_wf_corr : Instr.wellFormed (.ptpSync 0 { dom := 0, sender := 1, seq := 0, corr := 2 ^ 63 } true 0 0) = false := by decide
theorem test_wf_ann : Instr.wellFormed (.announce 0 { dom := 0, sender := 1, seq := 0, corr := 0 }
    { p1 := 256, cls := 0, acc := 0, var := 0, p2 := 0, gm := 0, steps := 0, utc := 37, utcValid := true }) = false := by decide
/-- A packet with an LSEQ and a DST. -/
def wfRx (lseq dst : Nat) : FabRx := ⟨lseq, 3, true, true, false, ⟨dst, 0, false, 0, 0, 4, 16, []⟩, 0⟩

theorem test_wf_packet : Instr.wellFormed (.tsync 0 (wfRx 0 2048)) = false := by decide
theorem test_wf_lseq : Instr.wellFormed (.tsync 0 (wfRx 4096 0)) = false := by decide
theorem test_wf_rx : Instr.wellFormed (.tsync 3 (wfRx 4095 2047)) = true := by decide
theorem test_wf_input : Instr.wellFormed (.twnInput { kind := 2 ^ 16, unit := 0, count := 0, args := [], data := [] }) = false := by decide
theorem test_wf_copy : Instr.wellFormed (.twnCopy { region := 256, offset := 0, count := 0, args := [], data := [] }) = false := by decide
theorem test_wf_record : Instr.wellFormed (.jrec 0 []) = false := by decide
theorem test_wf_counts : Instr.wellFormed (.resign 0 [1]) = false := by decide
theorem test_wf_temp : Instr.wellFormed (.tempUp 0 true 0 32768 0 0) = false := by decide
theorem test_wf_good : Instr.wellFormed (.registerWrite 0 (2 ^ 40 - 1) 4 (2 ^ 32 - 1)) = true := by decide

/-! ### Witnesses: registers -/

/-- Every offset of the block that the pair of statements is about: a register, and an offset that has none. -/
theorem witness_register_write : blockOf R.RAS_STATCLR ≠ none ∧ (ready [] []).sys.off = false ∧
    (ready [] []).islandDown ((blockOf R.RAS_STATCLR).getD 0) = false ∧ State.reset.dev.islandDown ((blockOf R.RAS_STATCLR).getD 0) = true ∧
    ((ready [] []).busW 0 R.RAS_STATCLR 2 0).1 = sBadValue := by decide +kernel

theorem witness_undefined_offset : blockOf (blockBase 15 + 0xFFC) = some 15 ∧ rowAt (blockBase 15 + 0xFFC) = none ∧
    isHeader (blockBase 15 + 0xFFC) = false ∧ (blockBase 15 + 0xFFC) % 4 = 0 ∧ (ready [] []).islandDown 15 = false ∧
    (ready [] []).reaches 0 15 (blockBase 15 + 0xFFC) true = true ∧ (ready [] []).reaches 0 15 (blockBase 15 + 0xFFC) false = true ∧
    bitB ((ready [] []).rd (blockBase 15 + 4)).toNat 31 = false := by decide +kernel

theorem witness_lo_read : ((ready [] []).readReg 0 14 (R.POS_ENC_COUNTLO 3) 4).1 = sOk ∧ (ready [] []).islandDown 14 = false ∧
    (ready [] []).reaches 0 14 (R.POS_ENC_COUNTHI 3) false = true ∧ blockOf (R.POS_ENC_COUNTLO 3) = some 14 := by decide +kernel

/-- FLT_SRCn_CFG has an LCK field beside TRS ones: the trusted core's write passes with ISEV as it is, and is LOCKED with another. -/
theorem witness_locked : let d := ready [] [(F.CFG_STATUS_DONE, 1)]
    let a := R.FLT_SRC_CFG 255
    let ok (r : RegRow) : Bool := r.fields.any (fun f => f.acc == .lck && f.lo == 8 && f.hi == 10) && d.writeRight 4 2 a r.fields == sOk &&
      0x100 &&& fieldBits r.fields (fun _ => true) == 0x100 && bits 0x100 8 3 != bits (d.rd a).toNat 8 3 &&
      (d.regCheck 4 2 a (d.rd a).toNat r).1 == sOk
    d.configDone = true ∧ (rowAt a).any ok = true := by decide +kernel

/-- A hart's writes, at the extremes of the harts' numbers. -/
theorem witness_hart_writes : HartWrites (ready [] []) 0 ∧ HartWrites (ready [] [(F.SYS_STATE_STATE, stSafe)]) 3 := by decide +kernel

theorem witness_system_writes : Granted (ready [] []) 0 (blockBase 28 + 0xC) 3 ∧ Granted (ready [] []) 0 R.SYS_HWD_KICK 0xA5C3 ∧
    Granted (ready [] []) reqTrusted R.SYS_TWD_KICK 0x3CA5 ∧ Granted (ready [] []) reqTrusted R.SYS_RSTCTL 0x5EB00001 ∧
    Granted (ready [] []) reqTrusted R.SYS_RSTCTL 0x5EB00002 ∧ Granted (ready [] []) reqTrusted R.SEC_ERASE 0x3E5A0001 ∧
    Granted (ready [] []) reqTrusted R.SEC_ERASE 0x3E5A0002 ∧ Granted (ready [] []) 0 R.ITK_CNTCLR 15 ∧
    Granted (ready [] [(F.CFG_CLAIM_RES_CLASS, 2), (F.CFG_CLAIM_RES_NUM, 1)]) 0 R.CFG_CLAIM_GO 1 := by
  unfold Granted; decide +kernel

theorem witness_fault_writes : Granted (ready [] []) reqTrusted R.FLT_INJ (44 + 256) ∧ Granted (ready [] []) 0 R.FLT_FWRAISE 31 ∧
    Granted (ready [] []) 0 (R.FLT_PEND 7) 1 ∧ Granted (ready [(R.FLT_PEND 6, 16)] []) 0 (R.FLT_PEND 6) 16 ∧ Granted (ready [] []) 0 R.FLT_HISTCLR 7 ∧
    Granted (ready [] [(F.SYS_STATE_STATE, stSafe), (F.FLT_SAFESTAT_FROM, stReady), (F.FLT_SAFESTAT_JOURNAL, 1)]) 0 R.FLT_SAFECTL 0x5AFE0001 ∧
    (srcInfo 0).isSome = true ∧ (srcInfo 255).isSome = false := by unfold Granted; decide +kernel

/-- A claim of feature 1 on every compare unit. -/
def cmpClaim (d : Dev) : Dev := { d with cfg := { d.cfg with claims := [{ cls := 2, feature := 1, first := 0, num := 16, image := true }] } }

/-- A compare unit that can be armed; its position, 5, has not been passed at 0, and 0 has. -/
def cmpReady (c pos : Nat) : Dev := cmpClaim (ready [(R.POS_CMP_POSLO c, pos)]
  [(F.ITK_ZONE_CFG_ENABLE 0, 1), (F.POS_CMP_CFG_FEATURE c, 1), (F.POS_CMP_CFG_ACTION c, 1), (F.POS_CMP_WIDTH_VALUE c, 40)])

/-- A page of one band, and a decompressor job over it. -/
def djobReady : Dev :=
  (ready [(R.BRD_DJOB_DSTHI, 16)] [(F.DMC_CFG_INTF, 1), (F.DMC_CFG_DENS, 1), (F.BRD_DJOB_PAGE_PAGE, 5), (F.BRD_DJOB_STRIDE_STRIDE, 64)]).onItk fun t =>
    { t with pages := [{ page := 5, hdr := some { planes := 1, depth := 1, lines := 8, bw := 64, bh := 8, blocks := 0, widths := [0] } }] }

def brcReady : Dev := ready [(R.BRC_OUTSIZE, 65536), (R.BRC_SRCHI, 16)] [(F.DMC_CFG_INTF, 1), (F.DMC_CFG_DENS, 1), (F.BRC_STRIDE_STRIDE, 64),
  (F.BRC_WIDTH_VALUE, 100), (F.BRC_LINES_VALUE, 5), (F.BRC_BLK_BW, 64), (F.BRC_BLK_BHM1, 7), (F.BRC_BLK_DEPTH, 1)]

theorem witness_print_path_writes : Granted djobReady 0 R.BRD_DJOB_GO 1 ∧ Granted brcReady 0 R.BRC_GO 1 ∧ Granted (ready [] []) 0 R.BRC_OUTSIZE 64 ∧
    Granted (ready [] []) 0 R.RAS_STATCLR 511 ∧ Granted (ready [] []) 0 R.RAS_ERR 0x80000000 ∧ Granted (ready [] []) 0 R.IMP_ERR 0x80000000 ∧
    Granted (ready [] [(F.RAS_HEAD_CFG_VALID 0, 1)]) 0 R.NZM_STATEWR 0 ∧ Granted (ready [] [(F.RAS_HEAD_CFG_VALID 0, 1)]) 0 R.NZM_STATEWR (2 ^ 18) ∧
    Granted (ready [] [(F.CAL_CFG_MODE, 2)]) 0 R.CAL_PB4REQHI 1 ∧ Granted (ready [] [(F.CAL_CFG_MODE, 2)]) 0 R.CAL_PB4REQLO 1 := by
  unfold Granted; decide +kernel

theorem witness_position_writes : Granted (cmpReady 15 5) 0 (R.POS_CMP_ARM 15) 1 ∧ Granted (cmpReady 0 0) 0 (R.POS_CMP_ARM 0) 3 ∧
    passed ((cmpReady 0 0).zonePos 0) 0 = true ∧ passed ((cmpReady 15 5).zonePos 0) 5 = false ∧ Granted (ready [] []) 0 (R.POS_CMP_ARM 15) 4 ∧
    Granted (ready [] []) 0 (R.FIR_HG_COMMIT 7) 1 ∧ (ready [] []).trimsApart 7 = false ∧ Granted (ready [] []) 0 R.FIR_STATCLR 511 ∧
    Granted (ready [] []) 0 R.SLU_STATCLR 1023 := by unfold Granted; decide +kernel

/-- Head 0 on an UP lane. -/
def headReady : Dev := ready [] [(F.CFG_STATUS_DONE, 1), (F.RAS_HEAD_CFG_VALID 0, 1), (F.HLK_HEAD_MAP_LANES 0, 1), (F.HLK_LANE_STAT_STATE 0, 3)]

theorem witness_head_writes : Granted headReady 0 R.HLK_CMD 0 ∧ Granted (headReady.busWrite 0 R.HLK_CMD 4 0) 0 R.HLK_CMDGO 1 ∧
    Granted headReady 0 R.HLK_CMD (12288 + 2048 + 2 ^ 16) ∧ Granted (headReady.busWrite 0 R.HLK_CMD 4 (12288 + 2048 + 2 ^ 16)) 0 R.HLK_CMDGO 1 ∧
    Granted headReady 0 (R.HLK_LANE_CTL 0) 1 ∧ Granted (ready [] []) 0 (R.HLK_LANE_CTL 23) 2 ∧
    Granted (ready [] []) 0 (R.SRD_LANE_CTL 41) (setBits ((ready [] []).rd (R.SRD_LANE_CTL 41)).toNat 0 1 1) ∧
    Granted (ready [] []) 0 (R.SRD_LANE_CTL 41) (setBits ((ready [] []).rd (R.SRD_LANE_CTL 41)).toNat 4 2 3) ∧
    Granted (ready [] []) 0 (R.SRD_LANE_CTL 0) (setBits ((ready [] []).rd (R.SRD_LANE_CTL 0)).toNat 8 2 2) := by
  unfold Granted; decide +kernel

theorem witness_capture_writes : Granted (ready [] [(F.CAM_TRG_CFG_ENABLE 3, 1)]) 0 (R.CAM_TRG_ARM 3) 3 ∧
    Granted (ready [] [(F.CAM_TRG_CFG_ENABLE 0, 1), (F.CAM_TRG_CFG_START 0, 1)]) 0 (R.CAM_TRG_ARM 0) 1 ∧ Granted (ready [] []) 0 (R.CAM_TRG_ARM 3) 4 ∧
    Granted (ready [] []) 0 (R.CAM_TRG_COMMIT 3) 1 ∧ Granted (ready [] []) 0 R.CAM_FDSIZE 16 ∧ Granted (ready [] []) 0 R.CAM_FDSIZE 65536 ∧
    Granted (ready [] []) 0 R.CAM_STATCLR 0xFFFF01FF ∧ Granted (ready [] []) reqLoader R.VIS_TBLDATA 0 ∧ Granted (ready [] []) 0 R.INS_STATCLR 15 ∧
    Granted (ready [] []) 0 (R.LMP_CH_COMMIT 3) 1 := by unfold Granted; decide +kernel

theorem witness_link_writes : Granted (ready [] [(F.CFG_STATUS_DONE, 1), (F.PGF_CFG_ENABLE, 1), (F.PGF_PORT_CFG_ENABLE 3, 1)]) 0 R.PGF_CTL 8 ∧
    Granted (ready [] []) 0 R.PGF_STATCLR 127 ∧ Granted (ready [] [(F.ETH_PORT_TXSIZE_ENTRIES 3, 16)]) 0 (R.ETH_PORT_TXKICK 3) 1 ∧
    Granted ((ready [] []).onEth fun t => { t with txts := [(1, 2, 3)] }) 0 R.ETH_TXTS_POP 1 ∧ Granted (ready [] []) 0 (R.ETH_PORT_RXSIZE 3) 4096 ∧
    Granted (ready [] []) 0 (R.ETH_PORT_TXSIZE 0) 16 ∧ Granted (ready [] []) 0 (R.ETH_PORT_CLR 3) 1 ∧ Granted (ready [] []) 0 R.PTP_SNAP 1 ∧
    Granted (ready [] [(F.PTP_CFG_SERVO, 0)]) 0 R.PTP_RATE 549755814 ∧ Granted (ready [] [(F.PTP_CFG_SERVO, 0)]) 0 R.PTP_STEP (2 ^ 32 - 1) := by
  unfold Granted; decide +kernel

theorem witness_memory_writes : Granted (ready [] [(F.DMC_CFG_FSPEN, 8), (F.DMC_FSP_RATE, 0x1000)]) 0 R.DMC_FREQ 3 ∧ Granted (ready [] []) 0 R.DMC_STATCLR 7 ∧
    Granted (ready [] []) 0 R.DMC_UEADDRHI 0x80000000 ∧ Granted (ready [] []) 0 R.DMA_CTL 1 ∧
    Granted (ready [] [(F.DMA_CH_CFG_ENABLE 15, 1), (F.DMA_CH_SIZE_ENTRIES 15, 16)]) 0 (R.DMA_CH_KICK 15) 1 ∧
    Granted (ready [(R.DMA_CH_BASELO 15, 0x04000000)] []) 0 (R.DMA_CH_SIZE 15) 16 ∧
    Granted (ready [(R.DMA_CH_BASELO 0, 0x04000000)] []) 0 (R.DMA_CH_SIZE 0) 4096 := by unfold Granted; decide +kernel

/-! ### Witnesses: the mailbox -/

/-- Channel `n` with a request: opcode, argument count and one argument, every group allowed. -/
def asks (n op len arg : Nat) : Dev := ready [(R.MBX_REQ_W n 0, op + len * 2 ^ 8), (R.MBX_REQ_W n 1, arg), (R.MBX_TPEND, 2 ^ n), (R.SEC_MBX_ALLOW, 0xFF)] []

theorem witness_mailbox_reads : Asks (asks 0 0x01 0 0) 0 { op := 0x01, len := 0, group := 7, states := .onward } ∧
    Asks (asks 3 0x02 1 1) 3 { op := 0x02, len := 1, group := 7, states := .onward } ∧
    Asks (asks 1 0x03 1 7) 1 { op := 0x03, len := 1, group := 7, states := .onward } ∧
    Asks (asks 2 0x10 2 1) 2 { op := 0x10, len := 2, group := 0, states := .onward } ∧
    Asks (asks 0 0x80 0 0) 0 { op := 0x80, len := 0, group := 7, states := .onward } := by decide +kernel

theorem witness_mailbox_acts : Asks (asks 0 0x20 1 0x278) 0 { op := 0x20, len := 1, group := 1, states := .onward } ∧
    Asks (asks 3 0x21 1 44) 3 { op := 0x21, len := 1, group := 2, states := .onward } ∧
    Asks (asks 1 0x50 0 0) 1 { op := 0x50, len := 0, group := 5, states := .firing } ∧
    Asks (asks 2 0x81 0 0) 2 { op := 0x81, len := 0, group := 5, states := .firing } ∧
    Asks (asks 0 0x82 0 0) 0 { op := 0x82, len := 0, group := 5, states := .onward } ∧
    Asks (asks 0 0x83 0 0) 0 { op := 0x83, len := 0, group := 5, states := .onward } ∧
    Asks (asks 0 0x84 1 0x7A1F0C3D) 0 { op := 0x84, len := 1, group := 5, states := .onward } := by decide +kernel

theorem witness_image_updates : Asks (asks 0 0x30 4 1) 0 { op := 0x30, len := 4, group := 3, states := .onward } ∧
    Asks (asks 3 0x31 3 0) 3 { op := 0x31, len := 3, group := 3, states := .onward } ∧
    Asks (asks 1 0x32 0 0) 1 { op := 0x32, len := 0, group := 3, states := .onward } := by decide +kernel

/-- FUSE_PROG with the first and the last target of each row. -/
theorem witness_fuses : ∀ t ∈ [0, 3, 4, 7, 8, 9, 10, 11], Asks (asks 0 0x60 3 t) 0 { op := 0x60, len := 3, group := 6, states := .ready } ∧
    (asks 0 0x60 3 t).arg 0 0 = t := by decide +kernel

/-- A request with another argument count, with its group not allowed, and in a state that its row does not allow (R87). -/
theorem witness_refusals : (asks 0 0x20 0 0).mbxTurn = some 0 ∧ (asks 0 0x20 0 0).reqHead 0 / 2 ^ 8 % 2 ^ 8 ≠ 1 ∧
    ((asks 0 0x20 1 0).put F.SEC_MBX_ALLOW_GROUP 0).bit F.SEC_MBX_ALLOW_GROUP 1 = false ∧
    ((asks 0 0x50 0 0).put F.SYS_STATE_STATE stSafe).mbxAllows .firing = false ∧ (asks 0 0x02 0 0).reqHead 0 % 2 ^ 8 ∈ mbxOpcodes ∧
    (asks 0 0x7F 0 0).reqHead 0 % 2 ^ 8 ∉ mbxOpcodes := by decide +kernel

/-! ### Witnesses: sessions -/

/-- A message for slot 7 with the tag that the key `[]` gives it. -/
def msg (type seq sid : Nat) (body : List Byte) : VjpMsg :=
  { flags := 0, slot := 7, sid := sid, seq := seq, ack := 0, sack := 0, type := type, body := body,
    tag := (hmacSha256 [] (vjpBytes 0 7 sid seq 0 0 type body)).take 16 }

theorem msg_tag (type seq sid : Nat) (body : List Byte) : vjpTagOk [] (msg type seq sid body) = true := by
  simp only [vjpTagOk, msg, beq_self_eq_true]

/-- Slot 7 open with SID 5, with every right and every zone. -/
def open7 : Dev := (ready [(R.ITK_NETCFG, 0x3F0000), (R.ITK_SESS_SID 7, 5), (R.ITK_SESS_CFG2 7, 0xFFFFFFFF)]
  [(F.CFG_STATUS_DONE, 1), (F.ITK_SESS_STAT_STATE 7, 1), (F.ITK_SESS_CFG_ENABLE 7, 1), (F.ITK_SESS_CFG_ZONES 7, 0xFFFF), (F.ITK_SESS_CFG_KEYSLOT 7, 2)])

theorem msg_in_turn (type : Nat) (body : List Byte) (h : type < 256) (h1 : type ≠ 1) (hb : body.length % 8 = 0) (hl : body.length ≤ 8912)
    (ht : (msg type 1 5 body).tag.length = 16) : InTurn open7 3 true (msg type 1 5 body) := by
  refine ⟨by decide +kernel, ?_, ?_, ?_, ?_, ?_, ?_, ?_, ?_⟩
  · simp only [vjpFmtOk, ht]; simp [msg, h, hb, hl, h1]
  · show open7.sessState 7 = 1; decide +kernel
  · show (5 : Nat) = open7.get (F.ITK_SESS_SID_SID 7); decide +kernel
  · exact (show (open7.sess 7).key = [] by decide +kernel) ▸ msg_tag type 1 5 body
  · show (1 : Nat) = (open7.sess 7).ack; decide +kernel
  · show (open7.sess 7).held = []; decide +kernel
  · show (open7.sess 7).unacked.length < 256; decide +kernel
  · show (open7.sess 7).waiting = []; decide +kernel

/-- CLOSE and an unknown type. -/
theorem witness_sessions : InTurn open7 3 true (msg 3 1 5 []) ∧ InTurn open7 3 true (msg 0xFF 1 5 []) :=
  ⟨msg_in_turn 3 [] (by decide) (by decide) (by decide) (by decide) (by decide +kernel),
   msg_in_turn 0xFF [] (by decide) (by decide) (by decide) (by decide) (by decide +kernel)⟩

/-- OPEN, with a key of KIND 4 for ITK in the key store. -/
theorem witness_open : let d : Dev := { open7 with sec := { open7.sec with keys := [⟨2, 4, 2, []⟩] } }
    d.netLets 3 true = true ∧ vjpFmtOk (msg 1 0 0 (List.replicate 24 0)) = true ∧ d.running = true ∧
    (d.sec.keys.find? fun k => k.slot == d.get (F.ITK_SESS_CFG_KEYSLOT 7) && k.kind == 4 && bitB k.use 1) = some ⟨2, 4, 2, []⟩ ∧
    d.get (F.ITK_SESS_CFG_ENABLE 7) = 1 ∧ vjpTagOk [] (msg 1 0 0 (List.replicate 24 0)) = true :=
  ⟨by decide +kernel, by decide +kernel, by decide +kernel, by decide +kernel, by decide +kernel, msg_tag _ _ _ _⟩

theorem witness_ackonly : open7.netLets 3 true = true ∧ vjpFmtOk (msg 4 1 5 []) = true ∧ open7.sessState 7 = 1 ∧
    vjpTagOk (open7.sess 7).key (msg 4 1 5 []) = true ∧ 7 < open7.itk.sess.length :=
  ⟨by decide +kernel, by decide +kernel, by decide +kernel, (show (open7.sess 7).key = [] by decide +kernel) ▸ msg_tag _ _ _ _, by decide +kernel⟩

/-- The requests about items, and register access: each type with a body of its length; rights and zones are those of `open7`. -/
theorem witness_requests : ∀ p ∈ [(0x10, 64), (0x11, 24), (0x12, 8), (0x13, 16), (0x14, 8), (0x15, 8), (0x18, 8), (0x19, 16)],
    InTurn open7 3 true (msg p.1 1 5 (List.replicate p.2 0)) := by
  intro p hp
  refine msg_in_turn p.1 _ ?_ ?_ ?_ ?_ ?_
  all_goals revert p; decide +kernel

theorem witness_rights : (∀ k : Fin 4, open7.bit (F.ITK_SESS_CFG2_RIGHTS 7) k = true) ∧ (∀ z : Fin 16, open7.sessZone 7 z = true) ∧
    open7.itk.receiving = none ∧ open7.itk.submitQ = [] ∧ open7.decides = true ∧ open7.replicates = false ∧ MramGood open7 := by decide +kernel

/-! ### Witnesses: starts, invariants -/

/-- On-die records applied in LOADING, a configuration that passes the checks of the end of loading, or breaks none. -/
def loaded : Dev := ({ ready [(R.DMC_CFG, 0x10001)] [(F.SYS_STATE_STATE, stLoading)] with cfg := { onDieDone := true } } : Dev)

theorem witness_config_done : loaded.st? = stLoading ∧ loaded.cfg.onDieDone = true ∧ loaded.configStatus = sOk ∧
    loaded.srcSettle.1 = sOk ∧ (loaded.impSettle fun _ => true).1 = sOk := by decide +kernel

theorem witness_harvest : let d : Dev := { ready [] [(F.FLT_CFG_FATALPOL, 1)] with sys := { State.reset.dev.sys with harvestPhase := 1 } }
    d.sys.harvestPhase = 1 ∧ d.sys.harvestTwd = false ∧ d.get F.FLT_CFG_FATALPOL = 1 ∧
    (ready [] [(F.FLT_CFG_FATALPOL, 0)]).get F.FLT_CFG_FATALPOL = 0 := by decide +kernel

theorem witness_alarms : State.reset.dev.get (F.SEC_ALARM_CFG_ENABLE 0) = 0 ∧ State.reset.dev.get (F.SEC_ALARM_CFG_ENABLE 3) = 1 ∧
    State.reset.dev.get (F.SEC_ALARM_CFG_ERASE 3) = 2 := by decide +kernel

/-- The reset state is in form; a state with a byte of memory and a register written is. -/
theorem witness_form : InForm State.reset ∧ InForm (st ((ready [(R.PTP_RATE, 5)] []).stB 0x04000000 7)) :=
  ⟨⟨by decide, by decide, by decide, by decide, by decide⟩, ⟨by decide +kernel, by decide +kernel, by decide +kernel, by decide +kernel, by decide +kernel⟩⟩

/-! ### Witnesses: the branch in which a command has its effect, for the statements whose only premises stand inside -/

/-- One command of the statement that a quiet ending is asked of. -/
theorem witness_quiet : Ends .bypass State.reset fun e => e.reps = [] ∧ e.itk.items = State.reset.dev.itk.items :=
  ends_of_upd rfl (by decide)

theorem witness_selftest : let d := ready [] [(F.SYS_STATE_STATE, stSelftest)]
    d.st? = stSelftest ∧ d.get F.JNL_STATUS_RECOVERED = 0 ∧ (d.put F.JNL_STATUS_RECOVERED 1).get F.JNL_STATUS_RECOVERED = 1 ∧
    1 ≤ d.st? ∧ d.sys.off = false ∧ (ready [] [(F.SYS_HWD_CFG_TIMEOUT, 1)]).get F.SYS_HWD_CFG_TIMEOUT ≠ 0 := by decide +kernel

theorem witness_boot : State.reset.dev.st? = stBoot ∧ State.reset.dev.sys.rstN = true ∧ State.reset.dev.sys.romBad = false ∧
    (ready [] [(F.SYS_STATE_STATE, stImage)]).st? = stImage ∧ (ready [] [(F.SYS_STATE_STATE, stTraining)]).st? = stTraining ∧
    (ready [] [(F.SYS_STATE_STATE, stTraining)]).attemptsEnded = true := by decide +kernel

/-- An item of zone 15 that is ACCEPTED. -/
def anItem : Item := ⟨9, 1, 15, 0, 0, 8, false, 0, 0, 5, 0, [], 7, 0, isAccepted, 0, 0, 0, false, [], false, false, false, false, false, none, false, false, false,
  [], false, false, 0, 0, [], 0⟩

/-- The device that holds it, and its page of one band. -/
def withItem (f : Item → Item) (d : Dev) : Dev := d.onItk fun t => { t with items := [f anItem], pages := djobReady.itk.pages }

/-- Slot 7 with an acknowledgement due, a message unacknowledged and one that waits. -/
def busy7 : Dev := open7.onItk fun t => { t with sess := upd t.sess 7 fun x => { x with ackDue := true, unacked := [⟨1, 0x80, []⟩], waiting := [⟨2, 0x80, []⟩] } }

theorem witness_session_timers : let d := busy7
    d.sessState 7 = 1 ∧ (d.sess 7).ackDue = true ∧ (d.sess 7).unacked ≠ [] ∧ (d.sess 7).waiting ≠ [] ∧ (d.sess 7).unacked.length < 256 ∧
    ((withItem id open7).findItem 9).isSome = true ∧ ((withItem id open7).page? 5).isSome = true ∧
    (withItem (fun i => { i with state := isPrinted }) (ready [] [(F.CFG_STATUS_DONE, 1)])).itk.items.any (fun i => i.live) = false := by decide +kernel

theorem witness_staging : let d := withItem (fun i => { i with rendered := true }) (ready [] [(F.CFG_STATUS_DONE, 1)])
    (d.findItem 9).any (fun i => i.state == isAccepted && i.rendered && i.blocks == 0) = true ∧ d.running = true ∧ d.decides = true ∧
    (withItem (fun i => { i with state := isStaged, trig := 1 }) (ready [] [])).bindTurn { anItem with state := isStaged, trig := 1 } = true ∧
    (ready [] [(F.POS_PG_CFG_ENABLE 3, 1), (F.POS_PG_CFG_EDGE 3, 1)]).get (F.POS_PG_CFG_ENABLE 3) = 1 ∧
    bitB ((ready [] [(F.POS_PG_CFG_ENABLE 3, 1), (F.POS_PG_CFG_EDGE 3, 1)]).get (F.POS_PG_CFG_EDGE 3)) 0 = true := by decide +kernel

theorem witness_decoders : (ready [] [(F.BRD_DJOB_STAT_STATE, 1)]).get F.BRD_DJOB_STAT_STATE = 1 ∧
    (nth (({ ready [] [] with ras := { State.reset.dev.ras with stopped := upd State.reset.dev.ras.stopped 7 fun _ => true } } : Dev)).ras.stopped 7 false) = true ∧
    ((ready [] []).hgHeads 7).all (ready [] []).panRoom = true ∧ (ready [] [(F.BRC_STAT_STATE, 1)]).get F.BRC_STAT_STATE = 1 ∧
    (ready [] [(F.BRC_STAT_STATE, 2)]).get F.BRC_STAT_STATE = 2 := by decide +kernel

theorem witness_rendering : let d := (withItem id (ready [] [])).onRas fun t => { t with impWork := some (9, 1), impTag := true }
    d.impItem.isSome = true ∧ d.ras.impTag = true ∧ (d.findItem 9).isSome = true := by decide +kernel

theorem witness_nozzles : let d := ready [(R.CAL_PB4REQHI, 1)] [(F.CAL_CFG_MODE, 2), (F.RAS_HEAD_CFG_VALID 32, 1)]
    d.headOk 32 = true ∧ d.pbDue 32 = true ∧ d.running = true ∧ d.nzm.patterns = [] ∧ d.decides = true ∧
    (ready [] [(F.CAL_CFG_MODE, 1)]).get F.CAL_CFG_MODE = 1 ∧ (ready [] []).nozState 262143 = 0 ∧
    100 ≤ ({ d with c := 200000000 } : Dev).tempAge 32 := by decide +kernel

/-- An event with one nozzle, entered on head 63 before any frame of it was sent. -/
def anEvent : PanEv := ⟨0, 15, [], [(0, 1)], 0x2C, 0, 0, false, false, 0, [], [], none⟩

/-- Head 63, alone on lane 21, which is UP, with these events in its pan. -/
def head63 (pan : List PanEv) : Dev := (ready [] [(F.CFG_STATUS_DONE, 1), (F.RAS_HEAD_CFG_VALID 63, 1), (F.HLK_HEAD_MAP_LANES 63, 1), (F.HLK_LANE_STAT_STATE 21, 3), (F.HLK_LANE_STAT_BUFEV 21, 2),
  (F.SRD_LANE_CFG_RATE 21, 5)]).onFir fun t => { t with heads := upd t.heads 63 fun h => { h with pan := pan } }

theorem witness_firing : let d := head63 [anEvent]
    d.running = true ∧ (d.head 63).pan = [anEvent] ∧ d.headOk 63 = true ∧ d.laneUp 21 = true ∧ d.decides = true ∧
    (ready [] [(F.SLU_SPD_CFG_ENABLE, 1)]).get F.SLU_SPD_CFG_ENABLE = 1 := by decide +kernel

theorem witness_events : let d := (head63 []).onFir fun t => { t with heads := upd t.heads 63 fun h => { h with queue := [⟨9, 15, 0, 0, 0, 0, [(0, 1, 0)], true, 0⟩] } }
    d.running = true ∧ (d.head 63).queue ≠ [] ∧ (d.head 63).pan.length < (d.put (F.FIR_HG_CFG_HIWM 7) 8).getAct (F.FIR_HG_CFG_HIWM 7) ∧
    (d.head 63).pan.length < 64 := by decide +kernel

theorem witness_frames : let d := head63 [anEvent]
    d.laneUp 21 = true ∧ d.running = true ∧ d.cands 21 0 ≠ [] ∧ (d.headLanes 63).head? = some 21 ∧
    ((head63 [{ anEvent with left := some 4844 }]).head 63).pan.any (fun v => v.left.isSome) = true ∧
    (d.put (F.HLK_LANE_STAT_STATE 0) 1).get (F.HLK_LANE_STAT_STATE 0) = 1 := by decide +kernel

theorem witness_upstream : let d := (head63 []).onFir fun t => { t with cmdTag := 255, cmdWait := [63], lanes := upd t.lanes 23 fun x => { x with step := 2 } }
    (d.put F.HLK_CMDSTAT_STATE 1).get F.HLK_CMDSTAT_STATE = 1 ∧ 63 ∈ d.fir.cmdWait ∧ d.fir.cmdTag = 255 ∧ (d.lane 23).step = 2 ∧ d.hgReady 7 = true := by decide +kernel

/-- Lane 23 in TRAINING at a step. -/
def training (k n : Nat) : Dev := (ready [] [(F.CFG_STATUS_DONE, 1), (F.RAS_HEAD_CFG_VALID 56, 1), (F.HLK_HEAD_MAP_LANES 56, 4), (F.HLK_LANE_STAT_STATE 23, 1)]).onFir fun t =>
  { t with lanes := upd t.lanes 23 fun x => { x with step := k, echoes := (List.range n).map fun j => (j, j) } }

theorem witness_bring_up : (training 1 0).get (F.HLK_LANE_STAT_STATE 23) = 1 ∧ ((training 1 0).lane 23).step = 1 ∧ ((training 3 16).lane 23).step = 3 ∧
    ((training 3 16).lane 23).echoes.length = 16 ∧ 23 ∈ (training 1 0).hgLanes 7 ∧ (training 1 0).configDone = true ∧
    ((training 1 0).put (F.HLK_LANE_STAT_STATE 23) 0).get (F.HLK_LANE_STAT_STATE 23) = 0 ∧ ((training 1 0).put (F.HLK_LANE_STAT_STATE 23) 2).get (F.HLK_LANE_STAT_STATE 23) = 2 ∧
    ((training 1 0).put (F.HLK_LANE_STAT_STATE 23) 3).laneUp 23 = true ∧
    (ready [] [(F.SRD_LANE_CTL_PRBS 41, 1), (F.SRD_LANE_CFG_RATE 41, 1)]).get (F.SRD_LANE_CTL_PRBS 41) ≠ 0 ∧
    (ready [] [(F.SRD_LANE_CTL_PD 41, 0), (F.SRD_LANE_CFG_RATE 41, 1)]).laneRate 41 ≠ 0 := by decide +kernel

theorem witness_camera : let d := (ready [] [(F.CFG_STATUS_DONE, 1), (F.CAM_PORT_CFG_ENABLE 3, 1), (F.CAM_SRC_CFG_ENABLE 15, 1), (F.CAM_SRC_CFG_PORT 15, 3), (F.CAM_SRC_CFG_VC 15, 15),
      (F.CAM_SRC_CFG_DT 15, 0x2A), (F.CAM_SRC_GEOM_LINES 15, 2), (F.CAM_SRC_GEOM_WIDTHM1 15, 7), (F.CAM_SRC_BUF_NSEG 15, 1)]).onCam fun t =>
        { t with srcs := upd t.srcs 15 fun x => { x with frames := [⟨0, 0, 0, 0, 0, 0, 0, 0, 0, [], false, 0⟩] } }
    d.capturing = true ∧ d.csiSrcs 3 15 = [15] ∧ d.srcDt 15 = 0x2A ∧ d.openFrame 15 = some 0 ∧ (d.frame? 15 0).any (fun f => f.placed < d.srcLines 15) = true ∧
    (d.src 15).buf.length < d.srcCap 15 ∧ d.srcTile 15 = false := by decide +kernel

theorem witness_tiles : let d := (ready [] [(F.CFG_STATUS_DONE, 1), (F.CAM_SRC_CFG_ENABLE 15, 1), (F.CAM_SRC_CFG_KIND 15, 1), (F.CAM_TILE_CFG_ENABLE 31, 1), (F.CAM_TILE_CFG_SRC 31, 15),
      (F.CAM_TILE_CFG_LANE 31, 3), (F.SRD_LANE_CFG_RATE 39, 1)])
    d.laneTiles 3 = [31] ∧ d.configDone = true ∧ d.get (F.SRD_LANE_CFG_RATE 39) ≠ 0 ∧ d.get (F.CAM_TLANE_STAT_STATE 3) = 0 ∧
    (d.put (F.CAM_TLANE_STAT_STATE 3) 1).get (F.CAM_TLANE_STAT_STATE 3) = 1 ∧ (d.put (F.CAM_TLANE_STAT_STATE 3) 3).get (F.CAM_TLANE_STAT_STATE 3) = 3 ∧
    31 ∈ nth (d.onCam fun t => { t with acks := upd t.acks 3 fun _ => [31] }).cam.acks 3 [] ∧
    (d.put (F.CAM_TRG_STAT_RUNNING 3) 1).get (F.CAM_TRG_STAT_RUNNING 3) = 1 ∧ d.capturing = true := by decide +kernel

/-- A source's line in its buffer is one that may be granted; bands wait at output 3. -/
theorem witness_vision : let d := (((ready [] [(F.CFG_STATUS_DONE, 1), (F.CAM_SRC_CFG_ENABLE 15, 1), (F.CAM_SRC_GEOM_WIDTHM1 15, 7)]).onCam fun t =>
      { t with srcs := upd t.srcs 15 fun x => { x with buf := [⟨0, 0, 0, 0, 0, [1, 2, 3, 4, 5, 6, 7, 8]⟩] } }))
    (d.src 15).buf ≠ [] ∧ d.capturing = true := by decide +kernel

theorem witness_lamps : (ready [] [(F.LMP_CH_STAT_STATE 3, 1)]).get (F.LMP_CH_STAT_STATE 3) = 1 ∧ ((ready [] []).lch 3).ident = 0 ∧
    (ready [] [(F.LMP_CH_STAT_STATE 3, 2)]).get (F.LMP_CH_STAT_STATE 3) = 2 ∧
    (({ ready [] [] with lmp := { State.reset.dev.lmp with chains := upd State.reset.dev.lmp.chains 3 fun x => { x with strobes := [(0, 5)], lat := some (0, 5) } } } : Dev).lch 3).strobes = [(0, 5)] := by
  decide +kernel

theorem witness_ethernet : let d := (ready [] [(F.ETH_PORT_STAT_STATE 3, 2), (F.ETH_PORT_CFG_SWRX 3, 1)]).onEth fun t =>
      { t with ports := upd t.ports 3 fun x => { x with sending := true, waiting := true } }
    d.ethUp 3 = true ∧ (d.eport 3).sending = true ∧ (d.eport 3).waiting = true ∧ (d.txTime 3 : Int) ≤ d.timeAt d.c ∧ d.get (F.ETH_PORT_CFG_SWRX 3) = 1 := by decide +kernel

/-- Port 3 of a 1588 profile as a SLAVE of master 0x70001. -/
def slave3 (prof : Nat) : Dev :=
  let d := ready [] [(F.CFG_STATUS_DONE, 1), (F.ETH_PORT_STAT_STATE 3, 2), (F.PTP_CFG_PROFILE, prof), (F.PTP_CFG_PORTS, 8), (F.PTP_CFG_DOMAIN, 0), (F.PTP_PORT_STAT_PSTATE 3, ptpSlave)]
  let ps := upd d.ptp.ports 3 fun x => { x with req := some (4, 0), last := some (0, 0), resp := some (4, 0, 0, 0) }
  { d with ptp := { d.ptp with foreign := [⟨3, 0x70001, ⟨128, 6, 0x21, 0, 128, 7, 0, 37, true⟩, [0, 0]⟩], ports := ps } }

theorem witness_ptp : let h : PtpHdr := ⟨0, 0x70001, 4, 0⟩
    (slave3 1).ptpOn 3 = true ∧ (slave3 1).ptpTakes 3 h = true ∧ (slave3 1).pstate 3 = ptpSlave ∧ (slave3 1).fromParent 3 h = true ∧ ((slave3 1).pport 3).req = some (4, 0) ∧
    (slave3 2).ptpTakes 3 h = true ∧ (slave3 2).peerDelay = true ∧ ((slave3 1).put F.PTP_STATE_STATE tsHoldover).tstate = tsHoldover := by decide +kernel

/-- Port 3 of the fabric in a state. -/
def fab3 (k : Nat) : Dev := ready [] [(F.CFG_STATUS_DONE, 1), (F.PGF_CFG_ENABLE, 1), (F.PGF_PORT_CFG_ENABLE 3, 1), (F.PGF_PORT_STAT_STATE 3, k)]

theorem witness_fabric_links : (fab3 fpBackoff).fportOn 3 = true ∧ (fab3 fpBackoff).fstate 3 = fpBackoff ∧ (fab3 fpTraining).fstate 3 = fpTraining ∧ (fab3 fpOne).fstate 3 = fpOne ∧
    (fab3 3).fportUp 3 = true ∧ ((fab3 3).onPgf fun t => { t with ports := upd t.ports 3 fun x => { x with got := true } }).pgf.ports.any (fun x => x.got) = true := by decide +kernel

/-- A fabric message of a type that is the expected next packet of a port, its CRC good. -/
theorem witness_fabric_packets : (fab3 3).fportUp 3 = true ∧ (fab3 3).isRoot = false ∧ ((fab3 3).put F.PGF_STAT_ROOT 1).isRoot = true ∧
    ((fab3 3).put (F.PGF_LGRP_LINKA 7) 65535).ownLink 65535 = true ∧ ((fab3 3).onPgf fun t => { t with parent := some 3 }).pgf.parent = some 3 := by decide +kernel

theorem witness_fabric_timers : let d := (fab3 3).onPgf fun t => { t with dirty := true, parent := some 3, refRepeat := [(0, 0, 0, 7, 0)], parts := [(1, 2, [], 0)] }
    d.pgf.dirty = true ∧ (d.put F.PGF_STAT_ROOT 1).isRoot = true ∧ d.pgf.granted = false ∧ d.isRoot = false ∧ d.fportUp 3 = true ∧
    (d.pgf.refRepeat.find? fun r => r.2.2.2.1 == 7).isSome = true := by decide +kernel

theorem witness_dram : let d := ready [] [(F.DMC_CFG_INTF, 1), (F.DMC_CFG_DENS, 1), (F.DMC_PWR_SRIDLE, 1), (F.DMC_CFG_ECC, 1), (F.DMC_SCRUB_HOURS, 1)]
    d.inDram dramBase 1 = true ∧ d.get F.DMC_PWR_SRIDLE ≠ 0 ∧ d.st? ≠ stPrinting ∧ 0 ∈ d.dmcChans ∧ d.get F.DMC_TRAINSTAT_RUN = 0 ∧ d.get F.DMC_SCRUB_HOURS ≠ 0 ∧ d.get F.DMC_CFG_ECC = 1 ∧
    (d.put F.DMC_FREQSTAT_STATE 2).get F.DMC_FREQSTAT_STATE = 2 := by decide +kernel

/-- A chain's descriptor, at the smallest and at the largest length. -/
theorem witness_dma : ∀ n ∈ [1, 16777216], ({ ready [] [] with dma := ⟨some ⟨15, 0x04000000, 0x04001000, 0x04002000, n, 0, (0, 0)⟩, none⟩ } : Dev).dma.run.any (fun x => x.len == n) = true ∧
    (ready [] []).get F.DMA_STAT_STOPPED = 0 ∧ ¬(n = 0 ∨ 16777216 < n) := by decide +kernel

/-- A chip of a pair in a role. -/
def pair (role : Nat) (fs : List (Fld × Nat)) : Dev := ready [] ([(F.CFG_STATUS_DONE, 1), (F.TWN_CFG_PAIR, 1), (F.TWN_STAT_ROLE, role)] ++ fs)

theorem witness_twin_timers : (pair roleStandby []).role = roleStandby ∧ (pair roleStandby []).twn.silent = true ∧ (pair roleFenced []).twn.starting = true ∧
    (pair roleFenced []).get F.TWN_STAT_LINKUP = 0 ∧ (pair roleFenced []).get F.TWN_STAT_PALIVE = 0 ∧ (pair roleFenced []).running = true ∧
    (pair roleFenced [(F.TWN_STAT_PALIVE, 1)]).get F.TWN_STAT_PALIVE = 1 ∧ (pair roleActive []).get F.TWN_STAT_ALONE = 0 ∧
    ({ pair roleActive [] with twn := { State.reset.dev.twn with silent := false, jackWait := [3] } } : Dev).twn.jackWait ≠ [] := by decide +kernel

theorem witness_twin_roles : (pair roleActive [(F.TWN_STAT_PROLE, roleStandby)]).get F.TWN_STAT_PROLE = roleStandby ∧ (pair roleSyncing []).role = roleSyncing ∧ (pair roleStandby []).decides = false ∧
    (pair roleActive []).decides = true ∧ ((pair roleSyncing []).head 63).queue = [] ∧
    ({ pair roleActive [] with twn := { State.reset.dev.twn with diag := some ⟨63, 1, none, none⟩, own := [(63, 1, 5)] } } : Dev).twn.diag.any (fun g => g.own.isNone) = true := by decide +kernel

theorem witness_replication : (pair roleStandby []).get F.TWN_CFG_PAIR = 1 ∧ (pair roleSyncing []).get F.TWN_STAT_SYNCSTEP < 2 ∧ (pair roleStandby []).get F.TWN_CFG_DATAPATH = 0 ∧
    ((withItem id (pair roleStandby [])).itk.items.find? fun i => i.slot == 0).isSome = true := by decide +kernel

end Sys2Proof.Tests
end

section
/-! The reset state. -/

namespace Sys2Proof.Machine

/-- Settles O59: every store of the reset state is empty, and an empty store is in canonical form. -/
theorem formAtReset : Obligations.FormAtReset := by
  have hform : InForm State.reset := ⟨rfl, rfl, rfl, rfl, by decide⟩
  have hboot : State.reset.dev.st? = stBoot := by decide
  have hsess (n : Nat) (hn : n < 8) : State.reset.dev.sessState n = 0 := by
    have hall : ∀ n < 8, State.reset.dev.sessState n = 0 := by decide
    exact hall n hn
  exact ⟨hform, rfl, rfl, hboot, rfl, rfl, rfl, hsess⟩

end Sys2Proof.Machine
end

section
/-! The fields of a register as masks, what a write stores field by field (R4, R501), and that LCK fields are closed after
CONFIG_DONE. -/

namespace Sys2Proof.Machine

/-! ### The fields of a register row -/

/-- Bit `i` belongs to the field. -/
def FieldRow.covers (f : FieldRow) (i : Nat) : Bool := f.lo ≤ i && i ≤ f.hi

/-- The field's width in bits. -/
def FieldRow.width (f : FieldRow) : Nat := f.hi + 1 - f.lo

/-- Every field is a run of bits within 32, and no two of them share a bit. -/
def fieldsApart : List FieldRow → Bool
  | [] => true
  | f :: l => f.lo ≤ f.hi && f.hi < 32 && l.all (fun g => f.hi < g.lo || g.hi < f.lo) && fieldsApart l

theorem regMapOf_fieldsApart : ∀ b < 29, ∀ r ∈ regMapOf b, fieldsApart r.fields = true := by decide +kernel

theorem blockOf_lt {a b : Nat} (h : blockOf a = some b) : b < 29 := by
  unfold blockOf at h
  split at h
  · cases h; omega
  · split at h
    · cases h; omega
    · cases h

/-- The register tables give the fields of a register apart from each other (R5). -/
theorem rowAt_fieldsApart {a : Nat} {r : RegRow} (h : rowAt a = some r) : fieldsApart r.fields = true := by
  unfold rowAt at h
  cases hb : blockOf a with
  | none => rw [hb] at h; cases h
  | some b =>
    rw [hb] at h
    exact regMapOf_fieldsApart b (blockOf_lt hb) r (List.mem_of_find?_eq_some h)

theorem fieldsApart_cons {f : FieldRow} {l : List FieldRow} (h : fieldsApart (f :: l) = true) :
    f.lo ≤ f.hi ∧ f.hi < 32 ∧ (∀ g ∈ l, f.hi < g.lo ∨ g.hi < f.lo) ∧ fieldsApart l = true := by
  simpa [fieldsApart, and_assoc] using h

theorem fieldsApart_mem {l : List FieldRow} (h : fieldsApart l = true) {f : FieldRow} (hf : f ∈ l) : f.lo ≤ f.hi ∧ f.hi < 32 := by
  induction l with
  | nil => cases hf
  | cons g l ih =>
    obtain ⟨hlo, hhi, -, hl⟩ := fieldsApart_cons h
    rcases List.mem_cons.mp hf with rfl | hf
    · exact ⟨hlo, hhi⟩
    · exact ih hl hf

/-- A bit belongs to one field at most. -/
theorem eq_of_covers {l : List FieldRow} (h : fieldsApart l = true) {f g : FieldRow} (hf : f ∈ l) (hg : g ∈ l) {i : Nat}
    (hfi : f.covers i = true) (hgi : g.covers i = true) : g = f := by
  induction l with
  | nil => cases hf
  | cons k l ih =>
    obtain ⟨-, -, hk, hl⟩ := fieldsApart_cons h
    simp only [FieldRow.covers, Bool.and_eq_true, decide_eq_true_eq] at hfi hgi
    rcases List.mem_cons.mp hf with hfk | hfl <;> rcases List.mem_cons.mp hg with hgk | hgl
    · rw [hfk, hgk]
    · have := hk g hgl; subst hfk; omega
    · have := hk f hfl; subst hgk; omega
    · exact ih hl hfl hgl

/-! ### Masks -/

theorem testBit_mask (f : FieldRow) (h : f.lo ≤ f.hi) (i : Nat) : f.mask.testBit i = f.covers i := by
  have e : f.mask = 2 ^ f.lo * (2 ^ f.width - 1) := by
    rw [FieldRow.mask, Nat.mul_sub, ← Nat.pow_add, FieldRow.width, Nat.mul_one]
    congr 2; omega
  rw [e, Nat.testBit_two_pow_mul, Nat.testBit_two_pow_sub_one, FieldRow.covers, FieldRow.width]
  by_cases hi : f.lo ≤ i
  · have : i - f.lo < f.hi + 1 - f.lo ↔ i ≤ f.hi := by omega
    simp [hi, this]
  · simp [hi]

theorem testBit_foldl_mask (l : List FieldRow) (h : ∀ f ∈ l, f.lo ≤ f.hi) (m i : Nat) :
    (l.foldl (fun m f => m ||| f.mask) m).testBit i = (m.testBit i || l.any fun f => f.covers i) := by
  induction l generalizing m with
  | nil => simp
  | cons f l ih =>
    rw [List.foldl_cons, ih (fun g hg => h g (List.mem_cons_of_mem f hg)), Nat.testBit_or,
      testBit_mask f (h f List.mem_cons_self), List.any_cons, Bool.or_assoc]

/-- A bit is in the mask of the fields that meet `p` where one of them covers it. -/
theorem testBit_fieldBits {l : List FieldRow} (h : fieldsApart l = true) (p : FieldRow → Bool) (i : Nat) :
    (fieldBits l p).testBit i = l.any fun f => p f && f.covers i := by
  rw [fieldBits, testBit_foldl_mask _ fun f hf => (fieldsApart_mem h (List.mem_filter.mp hf).1).1]
  simp [List.any_filter]

/-- Within a field the mask of the fields that meet `p` is set just where that field meets it. -/
theorem testBit_fieldBits_mem {l : List FieldRow} (h : fieldsApart l = true) (p : FieldRow → Bool) {f : FieldRow} (hf : f ∈ l)
    {i : Nat} (hi : f.covers i = true) : (fieldBits l p).testBit i = p f := by
  rw [testBit_fieldBits h]
  cases hp : p f with
  | true => exact List.any_eq_true.mpr ⟨f, hf, by simp [hp, hi]⟩
  | false =>
    refine List.any_eq_false.mpr fun g hg hgi => ?_
    rw [Bool.and_eq_true] at hgi
    rw [eq_of_covers h hf hg hi hgi.2, hp] at hgi
    cases hgi.1

theorem testBit_fieldBits_mono {l : List FieldRow} (h : fieldsApart l = true) {p q : FieldRow → Bool} (hpq : ∀ f, p f = true → q f = true)
    {i : Nat} (hi : (fieldBits l p).testBit i = true) : (fieldBits l q).testBit i = true := by
  rw [testBit_fieldBits h, List.any_eq_true] at hi ⊢
  obtain ⟨f, hf, hi⟩ := hi
  rw [Bool.and_eq_true] at hi
  exact ⟨f, hf, by rw [hpq f hi.1, hi.2]; rfl⟩

theorem testBit_fieldBits_lt {l : List FieldRow} (h : fieldsApart l = true) {p : FieldRow → Bool} {i : Nat}
    (hi : (fieldBits l p).testBit i = true) : i < 32 := by
  rw [testBit_fieldBits h, List.any_eq_true] at hi
  obtain ⟨f, hf, hi⟩ := hi
  have := (fieldsApart_mem h hf).2
  simp only [FieldRow.covers, Bool.and_eq_true, decide_eq_true_eq] at hi
  omega

theorem le_of_testBit {a b : Nat} (h : ∀ i, b.testBit i = true → a.testBit i = true) : b ≤ a := by
  have hb : b &&& a = b := Nat.eq_of_testBit_eq fun i => by
    rw [Nat.testBit_and]
    cases hi : b.testBit i with
    | false => rfl
    | true => rw [h i hi]; rfl
  exact hb ▸ Nat.and_le_right

/-- Taking away a mask that lies within another one clears its bits. -/
theorem testBit_sub_of_subset {a b : Nat} (h : ∀ i, b.testBit i = true → a.testBit i = true) (i : Nat) :
    (a - b).testBit i = (a.testBit i && !b.testBit i) := by
  have hbit : b % 2 = 1 → a % 2 = 1 := by simpa [Nat.testBit_zero] using h 0
  have hle := le_of_testBit h
  induction i generalizing a b with
  | zero =>
    have hmod : (a - b) % 2 = a % 2 - b % 2 := by omega
    rw [Nat.testBit_zero, Nat.testBit_zero, Nat.testBit_zero, hmod]
    rcases Nat.mod_two_eq_zero_or_one a with ha | ha <;> rcases Nat.mod_two_eq_zero_or_one b with hb | hb <;> simp_all
  | succ i ih =>
    have hdiv : (a - b) / 2 = a / 2 - b / 2 := by omega
    have h2 : ∀ j, (b / 2).testBit j = true → (a / 2).testBit j = true := fun j hj => by
      rw [← Nat.testBit_succ] at hj ⊢; exact h _ hj
    rw [Nat.testBit_succ, Nat.testBit_succ, Nat.testBit_succ, hdiv]
    exact ih h2 (by simpa [Nat.testBit_zero] using h2 0) (le_of_testBit h2)

/-! ### What a write stores -/

/-- The value that a write of `v` over `old` leaves in one field. -/
def FieldRow.stored (f : FieldRow) (old v : Nat) : Nat :=
  let o := bits old f.lo (f.hi + 1 - f.lo)
  let n := bits v f.lo (f.hi + 1 - f.lo)
  match f.acc with
  | .rw | .rws | .lck | .trs => n
  | .w1c => o - (o &&& n)
  | .w1s => o ||| n
  | _ => o

theorem storedValue_eq (l : List FieldRow) (old v : Nat) :
    storedValue l old v = l.foldl (fun x f => setBits x f.lo (f.hi + 1 - f.lo) (f.stored old v)) old := rfl

theorem bits_foldl_setBits_apart (l : List FieldRow) (hl : fieldsApart l = true) (w : FieldRow → Nat) (f : FieldRow) (hf : f.lo ≤ f.hi)
    (h : ∀ g ∈ l, f.hi < g.lo ∨ g.hi < f.lo) (x : Nat) :
    bits (l.foldl (fun x g => setBits x g.lo (g.hi + 1 - g.lo) (w g)) x) f.lo (f.hi + 1 - f.lo) = bits x f.lo (f.hi + 1 - f.lo) := by
  induction l generalizing x with
  | nil => rfl
  | cons g l ih =>
    obtain ⟨hlo, -, -, hl'⟩ := fieldsApart_cons hl
    rw [List.foldl_cons, ih hl' fun k hk => h k (List.mem_cons_of_mem g hk)]
    have := h g List.mem_cons_self
    exact bits_setBits_apart _ _ _ _ _ _ (by omega)

theorem bits_foldl_setBits_mem (l : List FieldRow) (hl : fieldsApart l = true) (w : FieldRow → Nat) (f : FieldRow) (hf : f ∈ l) (x : Nat) :
    bits (l.foldl (fun x g => setBits x g.lo (g.hi + 1 - g.lo) (w g)) x) f.lo (f.hi + 1 - f.lo) = w f % 2 ^ (f.hi + 1 - f.lo) := by
  induction l generalizing x with
  | nil => cases hf
  | cons g l ih =>
    obtain ⟨hlo, -, hg, hl'⟩ := fieldsApart_cons hl
    rw [List.foldl_cons]
    rcases List.mem_cons.mp hf with rfl | hf
    · rw [bits_foldl_setBits_apart l hl' w f hlo hg, bits_setBits_same]
    · exact ih hl' hf _

/-- An LCK field stores the bits that the passed write has for it. -/
theorem bits_storedValue_lck {l : List FieldRow} (hl : fieldsApart l = true) {f : FieldRow} (hf : f ∈ l) (hacc : f.acc = .lck) (old v : Nat) :
    bits (storedValue l old v) f.lo (f.hi + 1 - f.lo) = bits v f.lo (f.hi + 1 - f.lo) := by
  rw [storedValue_eq, bits_foldl_setBits_mem l hl _ f hf]
  simp only [FieldRow.stored, hacc]
  exact Nat.mod_eq_of_lt (bits_lt _ _ _)

/-! ### LCK fields after CONFIG_DONE -/

/-- Where two numbers differ in a field, they differ in a bit of it. -/
theorem exists_testBit_of_bits_ne {f : FieldRow} {x y : Nat} (h : bits x f.lo (f.hi + 1 - f.lo) ≠ bits y f.lo (f.hi + 1 - f.lo)) :
    ∃ i, f.covers i = true ∧ x.testBit i ≠ y.testBit i := by
  by_contra hall
  push Not at hall
  refine h (Nat.eq_of_testBit_eq fun j => ?_)
  rw [testBit_bits, testBit_bits]
  by_cases hj : j < f.hi + 1 - f.lo
  · rw [hall (f.lo + j) (by simp only [FieldRow.covers, Bool.and_eq_true, decide_eq_true_eq]; omega)]
  · simp [hj]

theorem bits_congr {f : FieldRow} {x y : Nat} (h : ∀ i, f.covers i = true → x.testBit i = y.testBit i) :
    bits x f.lo (f.hi + 1 - f.lo) = bits y f.lo (f.hi + 1 - f.lo) := by
  by_contra hne
  obtain ⟨i, hi, hxy⟩ := exists_testBit_of_bits_ne hne
  exact hxy (h i hi)

/-- After CONFIG_DONE an LCK field is open to no requester (R4). -/
theorem openTo_lck {d : Dev} (hd : d.configDone = true) (req : Nat) {f : FieldRow} (hacc : f.acc = .lck) : d.openTo req f = false := by
  simp [Dev.openTo, hacc, hd]

/-- The write that the checks pass on, and what they look at: a bit of a field that is not open keeps its old value. -/
theorem testBit_regCheck_new (d : Dev) (req b a v : Nat) {r : RegRow} (hr : fieldsApart r.fields = true) {f : FieldRow} (hf : f ∈ r.fields)
    (hopen : d.openTo req f = false) {i : Nat} (hi : f.covers i = true) :
    (d.regCheck req b a v r).2.new.testBit i = (d.rd a).toNat.testBit i := by
  have hmask : (fieldBits r.fields (d.openTo req)).testBit i = false := (testBit_fieldBits_mem hr _ hf hi).trans hopen
  have hrest : (2 ^ 32 - 1 - fieldBits r.fields (d.openTo req)).testBit i = true := by
    rw [testBit_sub_of_subset fun j hj => by
      rw [Nat.testBit_two_pow_sub_one, decide_eq_true_eq]; exact testBit_fieldBits_lt hr hj]
    have := (fieldsApart_mem hr hf).2
    simp only [FieldRow.covers, Bool.and_eq_true, decide_eq_true_eq] at hi
    rw [hmask, Nat.testBit_two_pow_sub_one, decide_eq_true (by omega)]; rfl
  simp only [Dev.regCheck, Nat.testBit_or, Nat.testBit_and, hmask, hrest, Bool.and_false, Bool.false_or, Bool.and_true]

/-- The bits that a write may not change. -/
def Dev.closedBits (d : Dev) (req : Nat) (l : List FieldRow) : Nat :=
  let mask := fieldBits l (d.openTo req)
  let ro := fieldBits l fun f => f.acc == .ro || f.acc == .trsRo
  fieldBits l (fun _ => true) - mask - (ro - (ro &&& mask))

/-- The bits of an LCK field that is not open are closed. -/
theorem testBit_closedBits_lck (d : Dev) (req : Nat) {l : List FieldRow} (hl : fieldsApart l = true) {f : FieldRow} (hf : f ∈ l)
    (hacc : f.acc = .lck) (hopen : d.openTo req f = false) {i : Nat} (hi : f.covers i = true) :
    (d.closedBits req l).testBit i = true := by
  have hro (j : Nat) := testBit_sub_of_subset (a := fieldBits l fun f => f.acc == .ro || f.acc == .trsRo)
    (b := (fieldBits l fun f => f.acc == .ro || f.acc == .trsRo) &&& fieldBits l (d.openTo req))
    (fun j hj => by rw [Nat.testBit_and, Bool.and_eq_true] at hj; exact hj.1) j
  have hopenBits (j : Nat) := testBit_sub_of_subset (a := fieldBits l fun _ => true) (b := fieldBits l (d.openTo req))
    (fun j hj => testBit_fieldBits_mono hl (fun _ _ => rfl) hj) j
  rw [Dev.closedBits, testBit_sub_of_subset, hopenBits, hro, testBit_fieldBits_mem hl _ hf hi, testBit_fieldBits_mem hl _ hf hi,
    testBit_fieldBits_mem hl _ hf hi, hopen, hacc]
  · rfl
  · intro j hj
    rw [hro, Nat.testBit_and, Bool.and_eq_true] at hj
    obtain ⟨hroj, hnot⟩ := hj
    rw [hroj] at hnot
    rw [hopenBits, testBit_fieldBits_mono hl (fun _ _ => rfl) hroj]
    simpa using hnot

/-- The changed LCK bits of a write. -/
def lckChanged (l : List FieldRow) (old v : Nat) : Nat :=
  fieldBits (l.filter fun f => f.acc == .lck) fun f => bits old f.lo (f.hi + 1 - f.lo) != bits v f.lo (f.hi + 1 - f.lo)

/-- The checks 2 to 6 of R501, in their order. -/
theorem regCheck_status (d : Dev) (req b a v : Nat) (r : RegRow) :
    (d.regCheck req b a v r).1 = firstFail [
      (d.writeRight req b a r.fields != sOk, d.writeRight req b a r.fields),
      (v &&& fieldBits r.fields (fun _ => true) != v, sBadValue),
      (v &&& d.closedBits req r.fields != (d.rd a).toNat &&& d.closedBits req r.fields,
        if d.configDone && lckChanged r.fields (d.rd a).toNat v &&& d.closedBits req r.fields != 0 then sLocked else sDenied),
      (blockCheck d b (d.regCheck req b a v r).2 != sOk, blockCheck d b (d.regCheck req b a v r).2),
      (d.mirrorBars req b r.base r.fields, sBadState)] := rfl

theorem testBit_lckChanged {l : List FieldRow} (hl : fieldsApart l = true) {f : FieldRow} (hf : f ∈ l) (hacc : f.acc = .lck) {old v : Nat}
    (hne : bits v f.lo (f.hi + 1 - f.lo) ≠ bits old f.lo (f.hi + 1 - f.lo)) {i : Nat} (hi : f.covers i = true) :
    (lckChanged l old v).testBit i = true := by
  have e : lckChanged l old v =
      fieldBits l fun f => (bits old f.lo (f.hi + 1 - f.lo) != bits v f.lo (f.hi + 1 - f.lo)) && f.acc == .lck := by
    rw [lckChanged, fieldBits, fieldBits, List.filter_filter]
  rw [e, testBit_fieldBits_mem hl _ hf hi, hacc]
  simpa using hne.symm

/-- A passed write leaves every LCK field as it was. -/
theorem stored_lck_unchanged (d : Dev) (req b a v : Nat) (r : RegRow) (f : FieldRow) (hd : d.configDone = true) (hr : rowAt a = some r)
    (hf : f ∈ r.fields) (hacc : f.acc = .lck) :
    bits (storedValue r.fields (d.rd a).toNat (d.regCheck req b a v r).2.new) f.lo (f.hi + 1 - f.lo) =
      bits (d.rd a).toNat f.lo (f.hi + 1 - f.lo) := by
  have hl := rowAt_fieldsApart hr
  rw [bits_storedValue_lck hl hf hacc]
  exact bits_congr fun i hi => testBit_regCheck_new d req b a v hl hf (openTo_lck hd req hacc) hi

/-- A write that would change an LCK field, and passes the checks before, is LOCKED. -/
theorem regCheck_locked (d : Dev) (req b a v : Nat) (r : RegRow) (f : FieldRow) (hd : d.configDone = true) (hr : rowAt a = some r)
    (hf : f ∈ r.fields) (hacc : f.acc = .lck) (hne : bits v f.lo (f.hi + 1 - f.lo) ≠ bits (d.rd a).toNat f.lo (f.hi + 1 - f.lo))
    (hright : d.writeRight req b a r.fields = sOk) (hv : v &&& fieldBits r.fields (fun _ => true) = v) :
    (d.regCheck req b a v r).1 = sLocked := by
  have hl := rowAt_fieldsApart hr
  obtain ⟨i, hi, hbit⟩ := exists_testBit_of_bits_ne hne
  have hclosed := testBit_closedBits_lck d req hl hf hacc (openTo_lck hd req hacc) hi
  have hdiffer : v &&& d.closedBits req r.fields ≠ (d.rd a).toNat &&& d.closedBits req r.fields := fun he => hbit <| by
    simpa [Nat.testBit_and, hclosed] using congrArg (Nat.testBit · i) he
  have hlck : lckChanged r.fields (d.rd a).toNat v &&& d.closedBits req r.fields ≠ 0 := fun he => by
    simpa [Nat.testBit_and, hclosed, testBit_lckChanged hl hf hacc hne hi] using congrArg (Nat.testBit · i) he
  rw [regCheck_status, hright, hv]
  simp [firstFail, hdiffer, hlck, hd]

/-- Settles O11: LCK fields are not open after CONFIG_DONE, so what is stored keeps them, and a write that changes one meets the
check of closed bits. -/
theorem lockedAfterConfigDone : Obligations.LockedAfterConfigDone :=
  ⟨fun d req b a v r f hd hr hf hacc _ => stored_lck_unchanged d req b a v r f hd hr hf hacc,
    fun d req b a v r f hd hr hf hacc => regCheck_locked d req b a v r f hd hr hf hacc⟩

end Sys2Proof.Machine
end

section
/-! The forced takeover at the end of the epoch's range. TWN_EPOCH is a 32-bit count (R378), so a chip that has learned the
epoch 0xFFFFFFFF has no next one: the epoch that the model writes is taken modulo 2^32. -/

namespace Sys2Proof.Machine

/-- A FENCED chip of a pair in READY, with a silent link and no ALIVE, whose partner has shown the last epoch there is; channel 0 of
the mailbox asks for TWN_FORCE, with its key. -/
def forceAtLastEpoch : Dev :=
  ((((((((({} : Dev).put F.SYS_STATE_STATE stReady).put F.TWN_CFG_PAIR 1).put F.TWN_STAT_ROLE roleFenced).wrN R.TWN_PEPOCH
    0xFFFFFFFF).setBit F.SEC_MBX_ALLOW_GROUP 5).wrN (R.MBX_REQ_W 0 0) 0x184).wrN (R.MBX_REQ_W 0 1) 0x7A1F0C3D).setBit F.MBX_TPEND_PEND 0)

theorem forceAtLastEpoch_asks : Asks forceAtLastEpoch 0 { op := 0x84, len := 1, group := 5, states := .onward } := by decide +kernel

theorem forceAtLastEpoch_key : forceAtLastEpoch.arg 0 0 = 0x7A1F0C3D := by decide +kernel

theorem forceAtLastEpoch_allowed : forceAtLastEpoch.paired = true ∧ forceAtLastEpoch.role = roleFenced ∧
    forceAtLastEpoch.twn.silent = true ∧ forceAtLastEpoch.get F.TWN_STAT_PALIVE = 0 := by decide +kernel

theorem forceAtLastEpoch_next :
    1 + (forceAtLastEpoch.get F.TWN_PEPOCH_EPOCH :: forceAtLastEpoch.epochsSeen).foldl max forceAtLastEpoch.epoch = 2 ^ 32 := by decide +kernel

/-- What TWN_FORCE on channel 0 does to the device, before the collector. -/
def forceEffect (d : Dev) : Dev :=
  d.mbxServe 0 { op := 0x84, len := 1, group := 5, states := .onward } fun d =>
    if d.arg 0 0 ≠ 0x7A1F0C3D then mbxStatus sBadValue d else mbxStatus (d.twnRequest 4).1 (d.twnRequest 4).2

theorem exec_twnForce (s : State) : exec (.twnForce 0) s = s.upd forceEffect := rfl

/-- The model carries the command out, and the epoch that it leaves is 0. -/
theorem forceEffect_forceAtLastEpoch :
    (forceEffect forceAtLastEpoch).role = roleActive ∧ (forceEffect forceAtLastEpoch).epoch = 0 := by decide +kernel

theorem epoch_lt (d : Dev) : d.epoch < 2 ^ 32 := (d.rd R.TWN_EPOCH).isLt

/-- Refutes O21: the clause on TWN_FORCE gives the epoch after it as one more than the greatest epoch known, which is 2^32 on a chip
that knows of 0xFFFFFFFF, where a 32-bit epoch cannot be 2^32. -/
theorem not_mailboxActs : ¬ Obligations.MailboxActs := by
  unfold Obligations.MailboxActs
  rintro ⟨-, -, -, -, -, -, hforce, -⟩
  obtain ⟨e, -, he⟩ := hforce { dev := forceAtLastEpoch } 0
  have hserved := he forceAtLastEpoch_asks
  split at hserved
  · next hkey => exact hkey forceAtLastEpoch_key
  · split at hserved
    · obtain ⟨-, -, hepoch, -⟩ := hserved
      exact absurd (hepoch.trans forceAtLastEpoch_next) (epoch_lt e).ne
    · next hdenied => exact hdenied forceAtLastEpoch_allowed

end Sys2Proof.Machine
end

section
/-! The form of the stores: memory, flash, registers and active sets in canonical form, and C a 64-bit number (R3, R25).

Five lemmas carry the content: `wr`, `copyAct`, `stB`, `atTime` and `rest` say that each way of changing a device keeps the form.
Every other operation of the model gets one lemma of its own name, so that a proof has the shape of its operation: a chain
`h.put.report` for updates one after the other, `.ite`, `.when` and `.each` for its branches and loops. -/

namespace Sys2Proof.Machine

/-- The stores of a device are in form. -/
structure Dev.Form (d : Dev) : Prop where
  mem : d.mem.wf = true
  flash : d.flash.flashWf = true
  regs : d.regs.wf = true
  act : d.act.wf = true
  time : d.c < 2 ^ 64

theorem inForm_iff (s : State) : InForm s ↔ s.dev.Form :=
  ⟨fun h => ⟨h.mem, h.flash, h.regs, h.act, h.time⟩, fun h => ⟨h.mem, h.flash, h.regs, h.act, h.time⟩⟩

namespace Dev.Form

variable {d e : Dev}

/-! ### Branches and loops -/

protected theorem ite {c : Prop} {_ : Decidable c} (hd : d.Form) (he : e.Form) : Dev.Form (if c then d else e) := by
  split
  · exact hd
  · exact he

protected theorem when {b : Bool} {f : Dev → Dev} (h : d.Form)
    (hf : ∀ {d}, d.Form → (f d).Form) : (d.when b f).Form := .ite (hf h) h

protected theorem foldl {α : Type} {f : Dev → α → Dev} {l : List α} (h : d.Form) (hf : ∀ {d x}, d.Form → (f d x).Form) :
    (l.foldl f d).Form := by
  induction l generalizing d with
  | nil => exact h
  | cons x l ih => exact ih (hf h)

protected theorem each {α : Type} {f : Dev → α → Dev} {l : List α} (h : d.Form) (hf : ∀ {d x}, d.Form → (f d x).Form) :
    (d.each l f).Form := h.foldl hf

protected theorem ite_snd {α : Type} {c : Prop} {_ : Decidable c} {p q : α × Dev} (hp : p.2.Form) (hq : q.2.Form) :
    (if c then p else q).2.Form := by
  split
  · exact hp
  · exact hq

protected theorem ite_fst {α : Type} {c : Prop} {_ : Decidable c} {p q : Dev × α} (hp : p.1.Form) (hq : q.1.Form) :
    (if c then p else q).1.Form := by
  split
  · exact hp
  · exact hq

protected theorem mk_snd {α : Type} {a : α} (h : d.Form) : (a, d).2.Form := h

protected theorem mk_fst {α : Type} {a : α} (h : d.Form) : (d, a).1.Form := h

/-- The device that `let (_, d1) := …` names is in form as the whole answer is. -/
protected theorem of_snd {α : Type} {p : α × Dev} {a : α} (h : p.2.Form) (e : p = (a, d)) : d.Form := by
  subst e
  exact h

protected theorem of_fst {α : Type} {p : Dev × α} {a : α} (h : p.1.Form) (e : p = (d, a)) : d.Form := by
  subst e
  exact h

protected theorem foldl_fst {α β : Type} {f : Dev × β → α → Dev × β} {l : List α} {p : Dev × β} (h : p.1.Form)
    (hf : ∀ {p x}, p.1.Form → (f p x).1.Form) : (l.foldl f p).1.Form := by
  induction l generalizing p with
  | nil => exact h
  | cons x l ih => exact ih (hf h)

/-! ### The stores -/

protected theorem wr {a : Nat} {v : Word} (h : d.Form) : (d.wr a v).Form := { h with regs := wr_wf d a v h.regs }

protected theorem copyAct {a : Nat} (h : d.Form) : (d.copyAct a).Form := { h with act := copyAct_wf d a h.act }

protected theorem stB {a : Nat} {v : Byte} (h : d.Form) : (d.stB a v).Form := { h with mem := stB_wf d a v h.mem }

protected theorem atTime {t : Nat} (h : d.Form) : (d.atTime t).Form := { h with time := Nat.mod_lt _ (by decide) }

/-- Whatever else changes, a device with the same stores and the same C is in form. -/
protected theorem rest (h : d.Form) {flashCs1 hiCap reps out freeCtr sys cfg sec itk pos ras nzm fir lmp cam vis ins eth ptp twn pgf dmc dma
    mramBad} : Dev.Form { d with
      flashCs1 := flashCs1, hiCap := hiCap, reps := reps, out := out, freeCtr := freeCtr, sys := sys, cfg := cfg, sec := sec, itk := itk,
      pos := pos, ras := ras, nzm := nzm, fir := fir, lmp := lmp, cam := cam, vis := vis, ins := ins, eth := eth, ptp := ptp, twn := twn,
      pgf := pgf, dmc := dmc, dma := dma, mramBad := mramBad } := ⟨h.mem, h.flash, h.regs, h.act, h.time⟩

/-! ### Registers and fields (Machine/Ops.lean) -/

protected theorem put {f v} (h : d.Form) : (d.put f v).Form := h.wr

protected theorem wrN {a v} (h : d.Form) : (d.wrN a v).Form := h.wr

protected theorem setBit {f i} (h : d.Form) : (d.setBit f i).Form := h.put

protected theorem clrBit {f i} (h : d.Form) : (d.clrBit f i).Form := .ite h.put h

protected theorem addSat {f n} (h : d.Form) : (d.addSat f n).Form := h.put

protected theorem incSat {f} (h : d.Form) : (d.incSat f).Form := h.addSat

protected theorem incWrap {f} (h : d.Form) : (d.incWrap f).Form := h.put

protected theorem put64 {lo hi v} (h : d.Form) : (d.put64 lo hi v).Form := h.wrN.wrN

protected theorem onSys {f} (h : d.Form) : (d.onSys f).Form := h.rest

protected theorem onCfg {f} (h : d.Form) : (d.onCfg f).Form := h.rest

protected theorem onSec {f} (h : d.Form) : (d.onSec f).Form := h.rest

protected theorem onItk {f} (h : d.Form) : (d.onItk f).Form := h.rest

protected theorem onPos {f} (h : d.Form) : (d.onPos f).Form := h.rest

protected theorem onTwn {f} (h : d.Form) : (d.onTwn f).Form := h.rest

protected theorem onPgf {f} (h : d.Form) : (d.onPgf f).Form := h.rest

protected theorem onRas {f} (h : d.Form) : (d.onRas f).Form := h.rest

protected theorem onNzm {f} (h : d.Form) : (d.onNzm f).Form := h.rest

protected theorem onFir {f} (h : d.Form) : (d.onFir f).Form := h.rest

protected theorem onLmp {f} (h : d.Form) : (d.onLmp f).Form := h.rest

protected theorem onCam {f} (h : d.Form) : (d.onCam f).Form := h.rest

protected theorem onVis {f} (h : d.Form) : (d.onVis f).Form := h.rest

protected theorem onIns {f} (h : d.Form) : (d.onIns f).Form := h.rest

protected theorem onPtp {f} (h : d.Form) : (d.onPtp f).Form := h.rest

protected theorem onEth {f} (h : d.Form) : (d.onEth f).Form := h.rest

protected theorem onDmc {f} (h : d.Form) : (d.onDmc f).Form := h.rest

protected theorem onDma {f} (h : d.Form) : (d.onDma f).Form := h.rest

protected theorem stBs {a l} (h : d.Form) : (d.stBs a l).Form := by
  induction l generalizing d a with
  | nil => exact h
  | cons b l ih => exact ih h.stB

protected theorem st {a n v} (h : d.Form) : (d.st a n v).Form := h.stBs

protected theorem flWr {a l} (h : d.Form) : (d.flWr a l).Form := by
  induction l generalizing d a with
  | nil => exact h
  | cons b l ih => exact ih { h with flash := spPut_wf (fun _ => flashDefault) d.flash 0 a b (Nat.zero_le a) h.flash }

protected theorem emit {o} (h : d.Form) : (d.emit o).Form := h.rest

protected theorem fresh {w} (h : d.Form) : (d.fresh w).2.Form := .mk_snd h.rest

protected theorem report {src detail} (h : d.Form) : (d.report src detail).Form := by
  unfold Dev.report
  exact .rest (by split; exacts [h, h.fresh])

protected theorem enter {s} (h : d.Form) : (d.enter s).Form := .ite h h.put.put.put

protected theorem reject {req a status} (h : d.Form) : (d.reject req a status).Form := by
  unfold Dev.reject
  split
  · exact h
  · exact .wrN <| .ite h h.wrN

protected theorem answer {req a status value} (h : d.Form) : (d.answer req a status value).Form := h.emit

/-! ### Fabric ports (Machine/Fabric.lean) -/

protected theorem onFport {p f} (h : d.Form) : (d.onFport p f).Form := h.onPgf

protected theorem fabQueue {p k} (h : d.Form) : (d.fabQueue p k).Form := .when h fun h => h.onFport

protected theorem fabDrop {f} (h : d.Form) : (d.fabDrop f).Form := by
  unfold Dev.fabDrop
  exact .when h.incSat.onPgf fun h => h.put.report

protected theorem fabForward {p k} (h : d.Form) : (d.fabForward p k).Form := .ite h.fabDrop h.fabQueue

protected theorem fabBroadcast {ptype payload} (h : d.Form) : (d.fabBroadcast ptype payload).Form := by
  unfold Dev.fabBroadcast
  exact .each h fun h => h.fabQueue

protected theorem fabSendUp {ptype payload} (h : d.Form) : (d.fabSendUp ptype payload).Form := by
  unfold Dev.fabSendUp
  split
  · exact h
  · exact h.fabQueue

protected theorem fabUnicast {cls ptype dst payload} (h : d.Form) : (d.fabUnicast cls ptype dst payload).Form := by
  unfold Dev.fabUnicast
  exact .ite h.fabQueue h.fabDrop

protected theorem fabLink {p ptype payload} (h : d.Form) : (d.fabLink p ptype payload).Form := by
  unfold Dev.fabLink
  exact h.onFport

protected theorem fabRefuse {link id reason refId} (h : d.Form) :
    (d.fabRefuse link id reason refId).Form := h.fabBroadcast

protected theorem fabEpoch (h : d.Form) : d.fabEpoch.Form := by
  unfold Dev.fabEpoch
  exact .when h fun h => h.fabBroadcast

/-! ### Journal and items (Machine/Journal.lean) -/

protected theorem mwr {a v} (h : d.Form) : (d.mwr a v).1.Form := by
  refine .ite_fst h <| .ite_fst ?_ <| .mk_fst h.st
  split
  next heq => exact .mk_fst (h.fresh.of_snd heq).st.put

protected theorem jwr {a v} (h : d.Form) : (d.jwr a v).1.Form := by
  unfold Dev.jwr
  exact .mk_fst <| .when h.mwr fun h => h.report

protected theorem mwrs {l} (h : d.Form) : (d.mwrs l).1.Form := .foldl_fst h fun h => h.jwr

protected theorem putMark {z m zseq} (h : d.Form) : (d.putMark z m zseq).Form := h.jwr

protected theorem setLastZseq {z v} (h : d.Form) : (d.setLastZseq z v).Form := h.put64

protected theorem setUse {s b} (h : d.Form) : (d.setUse s b).1.Form := .ite_fst h <| .mk_fst h.jwr.put

protected theorem lowCheck (h : d.Form) : d.lowCheck.Form := .when h fun h => h.put

protected theorem quarantine {s} (h : d.Form) : (d.quarantine s).Form := .ite h h.onItk.put.put

protected theorem writeRecord {s i pair} (h : d.Form) : (d.writeRecord s i pair).1.Form := by
  unfold Dev.writeRecord
  exact .mk_fst <| .lowCheck <| .put64 <| .mwrs <| .ite_fst h.mwrs.setUse.jwr <| .mk_fst h.mwrs.setUse

protected theorem updItem {id f} (h : d.Form) : (d.updItem id f).Form := h.onItk

protected theorem syncLive {z} (h : d.Form) : (d.syncLive z).Form := h.put

protected theorem syncPrinting (h : d.Form) : d.syncPrinting.Form := by
  unfold Dev.syncPrinting
  exact .ite h.enter.onDmc <| .ite h.enter h

protected theorem twSend {type body} (h : d.Form) : (d.twSend type body).Form := by
  unfold Dev.twSend
  exact h.onTwn.emit

protected theorem twInput {kind unit count args} (h : d.Form) :
    (d.twInput kind unit count args).Form := .when h fun h => h.twSend

protected theorem rejPulse {o z} (h : d.Form) : (d.rejPulse o z).Form := by
  unfold Dev.rejPulse
  exact h.onPos

protected theorem rejRequest1 {o z p} (h : d.Form) : (d.rejRequest1 o z p).Form := by
  unfold Dev.rejRequest1
  exact .ite h.incWrap <| .ite h.incWrap.rejPulse.incSat.put.report <| .ite h.incWrap.onPos.put h.incWrap.onPos.put.put.report

protected theorem rejAt {z p} (h : d.Form) : (d.rejAt z p).Form := by
  unfold Dev.rejAt
  exact .when (.when h fun h => h.rejRequest1) fun h => h.rejRequest1

protected theorem rejRequest {z p} (h : d.Form) : (d.rejRequest z p).Form := .ite h.twInput.rejAt h

protected theorem rejItem {i} (h : d.Form) : (d.rejItem i).Form := h.rejRequest

protected theorem sendRefusal {link id reason} (h : d.Form) : (d.sendRefusal link id reason).Form :=
  .ite h <| .ite h.put.report.incWrap.onPgf.fabRefuse h.put.report

protected theorem writeFinal {slot w} (h : d.Form) : (d.writeFinal slot w).1.Form := by
  unfold Dev.writeFinal
  exact .ite_fst h.mwr.mwr.mwr h.mwr

protected theorem finaliseHere {id state reason bound rejected} (h : d.Form) :
    (d.finaliseHere id state reason bound rejected).Form := by
  unfold Dev.finaliseHere
  split
  · exact h
  · exact .ite h <|
      .ite h.writeFinal.updItem.report <|
      .syncPrinting <|
      .onItk <| .when (.when (.when h.writeFinal.updItem.syncLive fun h => h.sendRefusal) fun h => h.rejItem) fun h => h.twSend.onTwn

protected theorem finalise {id state reason bound rejected} (h : d.Form) :
    (d.finalise id state reason bound rejected).Form :=
  .ite h.finaliseHere h

protected theorem wire {n type seq flags body} (h : d.Form) : (d.wire n type seq flags body).Form := by
  unfold Dev.wire
  exact .ite h.emit h.fabUnicast

protected theorem updSess {n f} (h : d.Form) : (d.updSess n f).Form := h.onItk

protected theorem sendSeq {n type body} (h : d.Form) :
    (d.sendSeq n type body).Form := .ite h <| .ite h.updSess.put.wire h.updSess

protected theorem result {n reqSeq reqType status state reason item x} (h : d.Form) :
    (d.result n reqSeq reqType status state reason item x).Form :=
  h.sendSeq

protected theorem event {code zone a0 a1} (h : d.Form) :
    (d.event code zone a0 a1).Form := .each h fun h => .when h fun h => h.sendSeq

protected theorem sendFinal {i} (h : d.Form) : (d.sendFinal i).Form := by
  unfold Dev.sendFinal
  split
  · exact h
  · exact .ite h h.updItem.sendSeq

protected theorem retire {id} (h : d.Form) : (d.retire id).Form := by
  unfold Dev.retire
  split
  · exact h
  · exact h.setUse.onItk

/-! ### Faults, severities and SAFE (Machine/Fault.lean) -/

protected theorem setRole {r} (h : d.Form) :
    (d.setRole r).Form := .ite h <| .fabEpoch <| .put <| .when h.put.put fun h => h.mwr

protected theorem setEpoch {e} (h : d.Form) : (d.setEpoch e).Form := h.mwr.wrN.put.fabEpoch

protected theorem fence (h : d.Form) : d.fence.Form := .ite h h.setRole.report

protected theorem learnEpoch {w e} (h : d.Form) : (d.learnEpoch w e).Form := by
  unfold Dev.learnEpoch
  exact .when h fun h => h.put.fence

protected theorem resign {cause counts} (h : d.Form) : (d.resign cause counts).Form := by
  unfold Dev.resign
  exact h.twSend.onTwn.setRole.put.report

protected theorem loseRecord (h : d.Form) : d.loseRecord.Form := by
  unfold Dev.loseRecord
  exact .when h.incSat.put.onSys fun h => h.setBit

protected theorem captureDetail {src} (h : d.Form) : (d.captureDetail src).Form := .each h fun h => h.wr

protected theorem writeRec {r0} (h : d.Form) : (d.writeRec r0).Form :=
  .ite h.loseRecord <|
  .when (.put <| .onSys <| .when (.put <| .put <| .put <| .each (.when h fun h => h.captureDetail) fun h => h.wrN) fun h => h.wrN)
    fun h => h.put.put.onSys

protected theorem refuseLinked (h : d.Form) : d.refuseLinked.Form := .each h fun h => h.sendRefusal

protected theorem syncStop (h : d.Form) : d.syncStop.Form := by
  unfold Dev.syncStop
  exact .ite h.put.put.refuseLinked h.put

protected theorem speed {duty src cause} (h : d.Form) : (d.speed duty src cause).Form := h.put.put.put

protected theorem speedSafe (h : d.Form) : d.speedSafe.Form := h.speed

protected theorem lampSafe (h : d.Form) : d.lampSafe.Form := .each h fun h => .when h fun h => .when h.put.put.onLmp fun h => h.emit

protected theorem safeSteps {cause src finals} (h : d.Form) : (d.safeSteps cause src finals).Form := by
  unfold Dev.safeSteps
  exact
    .when (.refuseLinked <| .lampSafe <| .each (.speedSafe <| .each h.enter.wrN.put.put fun h => h.onPos.put) fun h => h.put)
      fun h => .onItk <| .each h fun h => h.finalise

protected theorem enterSafe {cause src} (h : d.Form) : (d.enterSafe cause src).Form :=
  .ite h <| .ite h.resign.safeSteps h.twInput.safeSteps

protected theorem react {r} (h : d.Form) : (d.react r).Form := by
  unfold Dev.react
  exact .ite (.when h fun h => h.event) <| .when (.enterSafe <| .when h fun h => h.event) fun h => h.onSys

protected theorem collect (h : d.Form) : d.collect.Form := by
  unfold Dev.collect
  exact
    .syncStop <|
    .each (.each (.each (.each (.each (.each h.rest fun h => .when h fun h => h.setBit) fun h => h.writeRec) fun h => h.loseRecord)
            fun h => .when h fun h => h.onTwn)
         fun h => .when h fun h => h.put)
      fun h => h.react

protected theorem settleN {n} (h : d.Form) : (Dev.settleN n d).Form := by
  induction n generalizing d with
  | zero => exact h
  | succ n ih => exact .ite h (ih h.collect)

protected theorem settle (h : d.Form) : d.settle.Form := h.settleN

/-- A device reset keeps the bytes of memory and flash, or filters memory, and starts every other store anew. -/
protected theorem deviceReset {causeBit memLost} (h : d.Form) : (d.deviceReset causeBit memLost).Form := by
  have hmem : (if memLost then d.mem.filter fun c => mramBase ≤ c.1 && c.1 < sramBase else d.mem : Mem).wf = true := by
    split
    · exact spWf_filter _ _ _ _ h.mem
    · exact h.mem
  have h0 : Dev.Form { mem := if memLost then d.mem.filter fun c => mramBase ≤ c.1 && c.1 < sramBase else d.mem, flash := d.flash } :=
    ⟨hmem, h.flash, rfl, rfl, Nat.two_pow_pos 64⟩
  exact .wrN <| .put64 <| .put <| .put <| .put <| .wrN <| .wrN <| .wrN <| .each h0.rest.rest.onSec.onSys.wrN fun h => h.wrN

protected theorem syncMargin {z} (h : d.Form) : (d.syncMargin z).Form := by
  unfold Dev.syncMargin
  exact .ite h.wrN <| .ite h.wrN <| .ite (.ite h.wrN h.wrN.onFir.event.put.incSat.report) h.wrN.onFir

protected theorem margins {old} (h : d.Form) : (d.margins old).Form := .ite h <| .each h fun h => h.syncMargin

/-! ### Geometry (Machine/Geom.lean) -/

protected theorem loadGeo {b} (h : d.Form) : (d.loadGeo b).Form := by
  unfold Dev.loadGeo
  split
  exact .each (.each (.each h.put.put.put fun h => h.wrN.wrN.wrN) fun h => h.wrN.wrN.wrN.setBit) fun h => h.wrN.wrN.wrN

protected theorem geoRecord {b} (h : d.Form) : (d.geoRecord b).2.Form := .ite_snd h <| .ite_snd (.mk_snd h.loadGeo) h

/-! ### Lateness (Machine/Late.lean) -/

protected theorem onHead {h' f} (h : d.Form) : (d.onHead h' f).Form := h.onFir

protected theorem syncLevel {n} (h : d.Form) : (d.syncLevel n).Form := by
  unfold Dev.syncLevel
  split
  · exact h
  · exact h.put

protected theorem syncOpen {n} (h : d.Form) : (d.syncOpen n).Form := by
  unfold Dev.syncOpen
  exact h.put.put

protected theorem closeBlocks {id} (h : d.Form) : (d.closeBlocks id).Form := by
  unfold Dev.closeBlocks
  exact .each h.onRas fun h => h.syncOpen

protected theorem zeroLines {id pan} (h : d.Form) : (d.zeroLines id pan).Form := h.onFir.closeBlocks

protected theorem endItem {id state reason} (h : d.Form) : (d.endItem id state reason).Form := by
  unfold Dev.endItem
  split
  · exact h
  · exact .ite h <| .ite h.finalise h.finalise.updItem.rejItem

protected theorem abandon {id reason pan} (h : d.Form) : (d.abandon id reason pan).Form := by
  unfold Dev.abandon
  split
  · exact h
  · exact h.updItem.zeroLines.endItem

protected theorem rasErr {n kind ids} (h : d.Form) : (d.rasErr n kind ids).Form := .ite h h.wrN.put64

protected theorem lateLine {n ls src kind} (h : d.Form) : (d.lateLine n ls src kind).Form := by
  unfold Dev.lateLine
  exact .report <| .put <| .incSat <| .each h.rasErr fun h => h.abandon

protected theorem leadCheck {n old} (h : d.Form) : (d.leadCheck n old).Form := by
  unfold Dev.leadCheck
  exact .when h.put fun h => .when h.put fun h => .report <| .each h fun h => h.updItem

protected theorem rasStatClr {v} (h : d.Form) : (d.rasStatClr v).Form := by
  unfold Dev.rasStatClr
  exact .each (.when h fun h => h.wrN) fun h => .when h fun h => h.put.put

/-! ### Position and compares (Machine/Pos.lean) -/

protected theorem onEnc {e f} (h : d.Form) : (d.onEnc e f).Form := h.onPos

protected theorem raiseH {e p} (h : d.Form) : (d.raiseH e p).Form := h.onEnc

protected theorem emuFollow {k} (h : d.Form) :
    (d.emuFollow k).Form := .ite h <| .when h.onPos.put fun h => h.addSat.put.report

protected theorem posAt {t} (h : d.Form) : (d.posAt t).Form := by
  unfold Dev.posAt
  exact .each (.each h.atTime fun h => .when h fun h => h.raiseH) fun h => h.emuFollow

protected theorem encDir {e} (h : d.Form) : (d.encDir e).Form := by
  unfold Dev.encDir
  exact .ite (.ite h.put.put.onEnc h.onEnc) <| .ite h.put.put.onEnc h.onEnc

protected theorem encCount {e up t} (h : d.Form) : (d.encCount e up t).Form := by
  unfold Dev.encCount
  exact .each (.when h.onEnc.put.put.encDir.raiseH fun h => h.report) fun h => h.emuFollow

protected theorem driveCmp {c l} (h : d.Form) : (d.driveCmp c l).Form := by
  unfold Dev.driveCmp
  extract_lets
  split
  · exact h.onPos.emit
  · exact h.onPos

protected theorem onGen {k f} (h : d.Form) : (d.onGen k f).Form := h.onCam

protected theorem startGen {k t0 late} (h : d.Form) : (d.startGen k t0 late).Form := by
  unfold Dev.startGen
  exact .when (.put <| .put <| .put <| .put <| .onGen <| .when h fun h => h.onIns) fun h => h.put

protected theorem cmpMatch {c late} (h : d.Form) : (d.cmpMatch c late).Form := by
  unfold Dev.cmpMatch
  exact
    .ite (.put <|
     .ite h.put.put.put.driveCmp <|
     .ite h.put.put.put.driveCmp <|
     .ite (.each h.put.put.put
        fun h => h.startGen) h.put.put.put) <|
    .addSat <|
    .onPos <| .ite h.put.put.put.driveCmp <| .ite h.put.put.put.driveCmp <| .ite (.each h.put.put.put fun h => h.startGen) h.put.put.put

protected theorem armCmp {c} (h : d.Form) : (d.armCmp c).Form := by
  unfold Dev.armCmp
  exact .when h.put.onPos fun h => h.cmpMatch

protected theorem onRej {o f} (h : d.Form) : (d.onRej o f).Form := h.onPos

protected theorem rejSettle {o} (h : d.Form) : (d.rejSettle o).Form := by
  unfold Dev.rejSettle
  exact .ite (.when h.put.onRej fun h => h.emit) h

protected theorem posApply {w} (h : d.Form) : (posApply d w).Form := .ite (.ite h.armCmp <| .when h fun h => h.put) h

/-! ### Nozzle maps (Machine/Nzm.lean) -/

protected theorem syncCounts {h'} (h : d.Form) : (d.syncCounts h').Form := by
  unfold Dev.syncCounts
  exact .ite (.ite h.put.put h.put.put.onNzm.put.report) h.put.put.onNzm

protected theorem setNoz {n v} (h : d.Form) : (d.setNoz n v).Form := by
  unfold Dev.setNoz
  extract_lets
  split
  · exact h.onNzm.syncCounts
  · exact h.onNzm

protected theorem declared {n} (h : d.Form) : (d.declared n).Form := h.put.report

protected theorem startWait {n} (h : d.Form) : (d.startWait n).Form := by
  unfold Dev.startWait
  exact h.onNzm

protected theorem endWait {n} (h : d.Form) : (d.endWait n).Form := h.onNzm

protected theorem probeFail {n} (h : d.Form) : (d.probeFail n).Form := by
  unfold Dev.probeFail
  exact h.onNzm.setNoz.startWait

protected theorem applyChange {n k} (h : d.Form) : (d.applyChange n k).Form := by
  unfold Dev.applyChange
  exact
    .ite (.ite h.setNoz.declared.startWait <|
     .ite h.probeFail <|
     .ite h.incSat h) <|
    .ite (.ite h h.setNoz.endWait) <|
    .ite (.ite h h.setNoz.onNzm) <| .ite (.ite h.setNoz h) <| .ite (.ite h.setNoz.endWait.put h) <| .ite h.probeFail h

protected theorem addChange {n k} (h : d.Form) : (d.addChange n k).Form := h.onNzm

protected theorem takeChange {n k} (h : d.Form) : (d.takeChange n k).Form := .ite h.twInput.addChange h

protected theorem stateWr {v} (h : d.Form) : (d.stateWr v).Form := h.addChange

protected theorem lineBoundary {n} (h : d.Form) : (d.lineBoundary n).Form := by
  unfold Dev.lineBoundary
  exact .each h.onNzm fun h => h.applyChange

protected theorem syncSettling (h : d.Form) : d.syncSettling.Form := by
  unfold Dev.syncSettling
  exact h.put

protected theorem satCheck {h'} (h : d.Form) : (d.satCheck h').Form := by
  unfold Dev.satCheck
  exact .when h fun h => h.onNzm.put.report

protected theorem swapBank {n} (h : d.Form) : (d.swapBank n).Form := by
  unfold Dev.swapBank
  exact .incWrap <| .put <| .each h fun h => h.onNzm

protected theorem stepPoint {n id k} (h : d.Form) : (d.stepPoint n id k).Form :=
  .ite (.when h fun h => h.twInput.swapBank) <| .when h fun h => h.onTwn.swapBank

protected theorem correct {h' i delta} (h : d.Form) : (d.correct h' i delta).Form := by
  unfold Dev.correct
  exact .ite h h.onNzm.onNzm.incSat.syncSettling

protected theorem takeDensity {n r lowSeq} (h : d.Form) : (d.takeDensity n r lowSeq).Form := by
  unfold Dev.takeDensity
  split
  · exact h
  · exact .ite h.incSat h.correct

protected theorem densityReport {n r lowSeq} (h : d.Form) :
    (d.densityReport n r lowSeq).Form := .ite h.twInput.takeDensity h

protected theorem bindPattern {z hs} (h : d.Form) : (d.bindPattern z hs).Form := by
  unfold Dev.bindPattern
  exact h.twInput.onNzm.onItk.put

protected theorem stateRecord {named b} (h : d.Form) : (d.stateRecord named b).2.Form := by
  unfold Dev.stateRecord
  exact .ite_snd h <| .mk_snd <| .each h fun h => h.onNzm

protected theorem fillBanks (h : d.Form) : d.fillBanks.Form := .each h fun h => .each h fun h => h.onNzm

protected theorem nzmApply {w} (h : d.Form) : (nzmApply d w).Form := .ite h.stateWr h

/-! ### Brine engines (Machine/Brd.lean) -/

protected theorem onOpen {n k f} (h : d.Form) : (d.onOpen n k f).Form := h.onRas

protected theorem brdBreach {n kind blk id} (h : d.Form) : (d.brdBreach n kind blk id).Form := by
  unfold Dev.brdBreach
  exact .report <| .put <| .abandon <| .when h fun h => h.wrN.wrN

protected theorem openBand {n r z id pg h' band} (h : d.Form) : (d.openBand n r z id pg h' band).1.Form := by
  unfold Dev.openBand
  exact .mk_fst h.onRas.syncOpen

protected theorem starve {n r z} (h : d.Form) : (d.starve n r z).Form := by
  unfold Dev.starve
  exact .when h.onRas fun h => h.incSat.report

protected theorem useBytes {n us r z} (h : d.Form) : (d.useBytes n us r z).Form := by
  unfold Dev.useBytes
  exact h.onRas

protected theorem onceFault {id b} {f : Dev → Dev} (h : d.Form)
    (hf : ∀ {d}, d.Form → (f d).Form) : (d.onceFault id b f).Form := by
  unfold Dev.onceFault
  split
  · exact h
  · exact .ite h (hf h.updItem)

protected theorem pushLine {id z r y p pos last m} (h : d.Form) : (d.pushLine id z r y p pos last m).Form := by
  unfold Dev.pushLine
  exact
    .when (.when (.each (.each (.each h fun h => h.onHead) fun h => h.incWrap) fun h => h.incSat)
         fun h => .onceFault h fun h => h.put.report)
      fun h => h.updItem

protected theorem beforeLine {i hgs} (h : d.Form) : (d.beforeLine i hgs).Form :=
  .each h fun h => .when (.when h.lineBoundary fun h => h.stepPoint) fun h => h.updItem

protected theorem layLine {i r k h' ls} (h : d.Form) : (d.layLine i r k h' ls).Form := by
  unfold Dev.layLine
  split
  exact .updItem <| .pushLine <| .beforeLine <| .when h fun h => .when h fun h => .onceFault h fun h => h.incSat.put.report

protected theorem assembleItem {i r} (h : d.Form) : (d.assembleItem i r).Form := by
  unfold Dev.assembleItem
  extract_lets k hgs
  split
  split
  · exact h.layLine
  · next hdr _ =>
    refine .ite h.layLine <| .ite h.layLine ?_
    extract_lets opened
    have hopened : opened.Form := .each h fun {d n} h => .ite h <| by
      split
      · next heq => exact (h.openBand.of_fst heq).brdBreach
      · next heq => exact h.openBand.of_fst heq
    split
    · exact hopened
    · refine .ite hopened.layLine ?_
      split
      · exact hopened.brdBreach.layLine
      · exact hopened.starve
      · exact .layLine <| .when (.each hopened fun h => h.useBytes) fun h => .each h fun h => h.onRas.syncOpen

protected theorem assemblePattern {p r} (h : d.Form) : (d.assemblePattern p r).Form := by
  unfold Dev.assemblePattern
  exact h.pushLine.onNzm

protected theorem stopFull {hs} (h : d.Form) : (d.stopFull hs).Form := .each h fun h => h.onRas

protected theorem lineError {r z err i} (h : d.Form) : (d.lineError r z err i).Form := by
  unfold Dev.lineError
  extract_lets
  split
  exact .ite h.put.lateLine <| .ite h.put.lateLine h.put.lateLine

protected theorem djobEnd {code} (h : d.Form) : (d.djobEnd code).Form := by
  unfold Dev.djobEnd
  exact .when h.put.put.put fun h => h.report

protected theorem stSample {a x depth v} (h : d.Form) : (d.stSample a x depth v).Form := by
  unfold Dev.stSample
  exact h.stB

protected theorem djobBand {pg p h' dst st band} (h : d.Form) : (d.djobBand pg p h' dst st band).1.Form := by
  unfold Dev.djobBand
  exact .mk_fst <| .each h fun h => .each h.stBs fun h => .each h fun h => h.stSample

protected theorem djobBands {pg p h' dst st l} (h : d.Form) : (d.djobBands pg p h' dst st l).1.Form := by
  induction l generalizing d with
  | nil => exact h
  | cons b l ih =>
    have hband := h.djobBand (pg := pg) (p := p) (h' := h') (dst := dst) (st := st) (band := b)
    unfold Dev.djobBands
    split
    · next heq => rw [heq] at hband; exact ih hband
    · next heq => rw [heq] at hband; exact hband

protected theorem djobStop {hgs} (h : d.Form) : (d.djobStop hgs).Form := .when h fun h => h.djobEnd

protected theorem brcSync (h : d.Form) : d.brcSync.Form := by
  unfold Dev.brcSync
  extract_lets
  split
  · exact h.put.put
  · exact .ite h.put.put h.put.put.put

protected theorem brcPush {j} (h : d.Form) : (d.brcPush j).Form := by
  unfold Dev.brcPush
  exact .ite h.onRas.brcSync h.onRas.put

protected theorem ringWrite {l} (h : d.Form) : (d.ringWrite l).Form := by
  induction l generalizing d with
  | nil => exact h
  | cons b l ih => exact ih h.stB.put

protected theorem brcEnd {code} (h : d.Form) : (d.brcEnd code).Form := by
  unfold Dev.brcEnd
  exact h.onRas.put.wrN.put.brcSync

protected theorem brdApply {w} (h : d.Form) : (brdApply d w).Form :=
  .ite (.when h
     fun h => h.put.put) <|
  .ite (.when h
     fun h => h.brcPush) <|
  .ite h.wrN.wrN <| .ite h.rasStatClr <| .ite (.when h fun h => h.wrN.wrN.wrN) <| .ite (.when h fun h => h.wrN.wrN) h

/-! ### Pair commands (Machine/Pair.lean) -/

protected theorem diverge {h' count items} (h : d.Form) : (d.diverge h' count items).Form := by
  unfold Dev.diverge
  exact .ite h.incSat.put.onTwn h.incSat.put.onTwn.onTwn.put.report

protected theorem sigCompare {h' count} (h : d.Form) : (d.sigCompare h' count).Form := by
  unfold Dev.sigCompare
  extract_lets
  split
  · exact .ite h.incWrap.onTwn.onTwn h.incWrap.onTwn.diverge
  · exact h

protected theorem signEvent {h' e} (h : d.Form) : (d.signEvent h' e).Form := .ite h h.twSend.onTwn.sigCompare

protected theorem cutInput {n} (h : d.Form) : (d.cutInput n).Form := h.twInput

/-! ### Firing (Machine/Fir.lean) -/

protected theorem syncHg {n} (h : d.Form) : (d.syncHg n).Form := by
  unfold Dev.syncHg
  exact .when h.put.put.put fun h => .each h.onItk fun h => h.onHead

protected theorem thinEvent {h' f ids l} (h : d.Form) : (d.thinEvent h' f ids l).1.Form := by
  unfold Dev.thinEvent
  extract_lets
  split
  exact .mk_fst <|
  .when (.when h.onHead.put.put fun h => .each h.incSat.addSat fun h => .onceFault h fun h => h.put.report) fun h => h.incSat.put.report

protected theorem handOver {n} (h : d.Form) : (d.handOver n).Form :=
  .when h fun h => .put <| .incWrap <| .put <| .each h fun h => h.copyAct

protected theorem refuseItem {n id reason} (h : d.Form) : (d.refuseItem n id reason).Form := by
  unfold Dev.refuseItem
  exact .closeBlocks <| .onFir <| .endItem <| .when h fun h => h.incSat.put

protected theorem enterItem {n id} (h : d.Form) : (d.enterItem n id).Form := by
  unfold Dev.enterItem
  split
  · exact h
  · exact .when h.updItem fun h => h.jwr.updItem.syncPrinting

protected theorem countLine {n h' l} (h : d.Form) : (d.countLine n h' l).Form := by
  unfold Dev.countLine
  exact .when h fun h => h.incWrap

protected theorem sluError {h' ls acc} (h : d.Form) : (d.sluError h' ls acc).Form := by
  unfold Dev.sluError
  exact .lateLine <| .put <| by split <;> exact h.onHead

protected theorem letIn {h' f ls rest err} (h : d.Form) : (d.letIn h' f ls rest err).Form := by
  unfold Dev.letIn
  extract_lets n d0
  have h0 : d0.Form := by
    unfold d0
    split
    · exact h.sluError
    · exact h
  split
  next heq =>
    exact .signEvent <| .syncLevel <| .each (.each (h0.thinEvent.of_fst heq).onHead.onFir fun h => h.enterItem) fun h => h.countLine

protected theorem sluice {h' err} (h : d.Form) : (d.sluice h' err).Form := by
  unfold Dev.sluice
  refine .ite h ?_
  split
  · exact h
  · extract_lets
    split
    · exact h.refuseItem
    · split
      · exact .letIn <| .when h fun h => h.cutInput.handOver
      · exact h.letIn

protected theorem verdictItem {id inspected bad} (h : d.Form) : (d.verdictItem id inspected bad).Form := by
  unfold Dev.verdictItem
  split
  · exact h
  · exact .ite h <| .ite (.finalise <| .when (.when h.put.incSat fun h => h.report) fun h => h.report) <| .ite h.finalise h.finalise

protected theorem fireItem {id} (h : d.Form) : (d.fireItem id).Form := by
  unfold Dev.fireItem
  split
  · exact h
  · exact .ite h <|
      .ite h.putMark.updItem.syncPrinting.verdictItem <| .ite h.putMark.updItem.syncPrinting.verdictItem h.putMark.updItem.syncPrinting

protected theorem lastFired {h' ls} (h : d.Form) : (d.lastFired h' ls).Form :=
  .each h
    fun h => by
      extract_lets
      split
      · exact h.updItem
      · exact .when h.updItem fun h => h.fireItem

protected theorem passRecord {h' e tc} (h : d.Form) :
    (d.passRecord h' e tc).Form := .ite h.onFir h.onFir.incSat.put.report

protected theorem squeeze {h' e lag} (h : d.Form) : (d.squeeze h' e lag).Form := by
  unfold Dev.squeeze
  exact .when h.incSat.put.report.put fun h => .each h fun h => .onceFault h fun h => h.put.report

protected theorem fireEvent {h' t k e} (h : d.Form) : (d.fireEvent h' t k e).Form := by
  unfold Dev.fireEvent
  exact .leadCheck <| .syncLevel <| .lastFired <| .passRecord <| .put <| .incWrap <| .onHead <| .when h fun h => h.squeeze

protected theorem syncHeat {n} (h : d.Form) : (d.syncHeat n).Form := by
  unfold Dev.syncHeat
  exact .ite (.ite h.put h.put.put.put.report) <| .ite h.put h.put.put

protected theorem setLevel {h' lv} (h : d.Form) : (d.setLevel h' lv).Form := by
  unfold Dev.setLevel
  exact .syncHeat <| .when (.when h.put fun h => h.put) fun h => h.report

protected theorem updLevel {h'} (h : d.Form) : (d.updLevel h').Form := by
  unfold Dev.updLevel
  exact h.setLevel

protected theorem markStale {h'} (h : d.Form) : (d.markStale h').Form := by
  unfold Dev.markStale
  exact h.put.put.syncHeat

protected theorem firApply {w} (h : d.Form) : (firApply d w).Form :=
  .ite (.when h
     fun h => h.put) <|
  .ite (.each (.when h fun h => h.wrN)
     fun h =>
       .when h
         fun h => h.wrN.wrN) <|
  .ite (.when (.when (.each h fun h => .when h fun h => h.wrN.wrN.wrN.wrN) fun h => .each h fun h => h.put)
     fun h => .each h fun h => h.wrN) h

/-! ### Binding (Machine/Bind.lean) -/

protected theorem blocksCheck {id} (h : d.Form) : (d.blocksCheck id).Form := by
  unfold Dev.blocksCheck
  split
  · exact h
  · split
    · exact h
    · exact .when h fun h => h.finalise

protected theorem stgMark {z} (h : d.Form) : (d.stgMark z).Form := by
  unfold Dev.stgMark
  extract_lets
  split
  · exact h
  · exact .when h fun h => h.putMark

protected theorem givePos {i fp} (h : d.Form) : (d.givePos i fp).Form := by
  unfold Dev.givePos
  exact h.updItem.twInput.onItk

protected theorem bindAt {i fp passed'} (h : d.Form) : (d.bindAt i fp passed').Form := by
  unfold Dev.bindAt
  exact
    .ite h.givePos.endItem.incSat <| .ite h.givePos.endItem <| by
      split
      · exact .endItem <| .put <| .each h.givePos fun h => h.incSat
      · exact h.givePos.finalise
      · exact .ite h.givePos.finalise <| .ite h.givePos.endItem h.givePos.updItem.putMark.djobStop

protected theorem idleEdge {input t} (h : d.Form) :
    (d.idleEdge input t).Form := .each h fun h => .when h.incSat fun h => h.rejRequest

protected theorem takeEdge {input t} (h : d.Form) : (d.takeEdge input t).Form := by
  unfold Dev.takeEdge
  exact .ite h <| .ite h.idleEdge <| .each h fun h => by split; exacts [h, h.onItk.bindAt]

/-! ### DMA (Machine/Dma.lean) -/

protected theorem dmaBack {x result code count} (h : d.Form) : (d.dmaBack x result code count).Form := by
  unfold Dev.dmaBack
  exact .when (.when h.st.st.put fun h => h.setBit.put) fun h => h.put.put

protected theorem dmaStop {c} (h : d.Form) : (d.dmaStop c).Form := h.put.put.report

protected theorem dmaBusy (h : d.Form) : d.dmaBusy.Form := h.put

protected theorem dmaGoOn (h : d.Form) : d.dmaGoOn.Form := by
  unfold Dev.dmaGoOn
  exact .dmaBusy <| by split; exacts [h.onDma.put, h.onDma]

protected theorem freeBytes {n} (h : d.Form) : (d.freeBytes n).2.Form := .mk_snd h.rest

protected theorem dmaData {x n} (h : d.Form) : (d.dmaData x n).2.Form := .ite_snd h <| .ite_snd h <| .mk_snd h.freeBytes

protected theorem dmaStopAll (h : d.Form) : d.dmaStopAll.Form := by
  unfold Dev.dmaStopAll
  exact .report <| .put <| .put <| .each h fun h => h.put

protected theorem dmaApply {w} (h : d.Form) : (dmaApply d w).Form := by
  unfold dmaApply
  exact .ite (.when h fun h => .each h.put fun h => .when h fun h => h.put) <| .ite (.when h fun h => h.put) <| .ite h.put <| .ite h.put h

/-! ### Memory controllers (Machine/Dmc.lean) -/

protected theorem dmcError {addr err} (h : d.Form) : (d.dmcError addr err).Form :=
  .ite h <| .ite h.incSat.onDmc <| .ite (.report <| .when h.incSat.put fun h => h.wrN.wrN) h

protected theorem freqEnd {code} (h : d.Form) : (d.freqEnd code).Form := h.put.put.put.onDmc

protected theorem dmcApply {w} (h : d.Form) : (dmcApply d w).Form :=
  .ite h.onDmc.put <| .ite (.when (.when (.when h fun h => h.wrN) fun h => h.wrN) fun h => h.wrN) <| .ite (.when h fun h => h.wrN.wrN) h

/-! ### Cameras (Machine/Cam.lean) -/

protected theorem onSrc {s f} (h : d.Form) : (d.onSrc s f).Form := h.onCam

protected theorem onFrame {s num f} (h : d.Form) : (d.onFrame s num f).Form := h.onSrc

protected theorem syncBuf {s} (h : d.Form) : (d.syncBuf s).Form := by
  unfold Dev.syncBuf
  exact h.put.put

protected theorem discardFrame {s num m} (h : d.Form) : (d.discardFrame s num m).Form := by
  unfold Dev.discardFrame
  exact .syncBuf <| .when h.onFrame.onSrc fun h => h.onIns

protected theorem dropFrame {s num ecc} (h : d.Form) : (d.dropFrame s num ecc).Form := by
  unfold Dev.dropFrame
  exact .when (.when h.discardFrame fun h => h.incSat.put.report) fun h => h.report

protected theorem pushCamLine {s l} (h : d.Form) :
    (d.pushCamLine s l).Form := .ite h <| .ite h.dropFrame h.onSrc.syncBuf

protected theorem closeFrame {s num} (h : d.Form) : (d.closeFrame s num).Form := by
  unfold Dev.closeFrame
  split
  · exact h
  · exact .when (.when (.when (.when (.when (.put <| .ite h.onSrc.put <| .ite h.onSrc.put.incSat.put.report h.onSrc.put.stBs.put)
                    fun h => h.put.report)
                 fun h => h.put.incSat.report)
              fun h => h.incSat)
           fun h => h.incSat)
        fun h => h.onIns

protected theorem placeLine {s num flags px} (h : d.Form) : (d.placeLine s num flags px).Form := by
  unfold Dev.placeLine
  split
  · exact h
  · exact h.onFrame.pushCamLine

protected theorem fillRest {n s num} (h : d.Form) : (Dev.fillRest n d s num).Form := by
  induction n generalizing d with
  | zero => exact h
  | succ n ih => exact .ite (ih h.placeLine) h

protected theorem endFrame {s num flags} (h : d.Form) : (d.endFrame s num flags).Form := by
  unfold Dev.endFrame
  split
  · exact h
  · exact h.fillRest.onFrame.closeFrame

protected theorem beginFrame {s} (h : d.Form) : (d.beginFrame s).Form := by
  unfold Dev.beginFrame
  exact h.onSrc

protected theorem closeTile {s o} (h : d.Form) : (d.closeTile s o).Form := by
  unfold Dev.closeTile
  exact .when h.onSrc.onFrame.pushCamLine fun h => h.closeFrame

protected theorem tlSend {l type body} (h : d.Form) : (d.tlSend l type body).Form := h.emit

protected theorem tlState {l st} (h : d.Form) : (d.tlState l st).Form := h.put.put

protected theorem tlTrain {l} (h : d.Form) : (d.tlTrain l).Form := by
  unfold Dev.tlTrain
  exact h.tlState.onCam.tlSend.tlSend

protected theorem tlAbort {l why} (h : d.Form) : (d.tlAbort l why).Form := h.tlState.put.onCam

protected theorem tlBlock {l good} {f : Dev → Dev} (h : d.Form)
    (hf : ∀ {d}, d.Form → (f d).Form) : (d.tlBlock l good f).Form :=
  .ite (hf h) h.incSat

protected theorem trgHandOver {k} (h : d.Form) : (d.trgHandOver k).Form :=
  .when h fun h => .when (.incWrap <| .put <| .each h fun h => h.copyAct) fun h => h.onGen

protected theorem strobeEvent {c start stop} (h : d.Form) : (d.strobeEvent c start stop).Form := h.onLmp

protected theorem trigSource {k s r first skip} (h : d.Form) : (d.trigSource k s r first skip).Form := by
  unfold Dev.trigSource
  exact .ite (.onSrc <| .when (.when h fun h => h.onSrc) fun h => h.onFrame) <| .ite h.onSrc <| by split <;> exact h.onSrc

protected theorem skipSource {s} (h : d.Form) : (d.skipSource s).Form :=
  .ite (by split; exacts [h.onFrame, h]) <| by split <;> exact h.onSrc

protected theorem issueTrig {k t} (h : d.Form) : (d.issueTrig k t).Form := by
  unfold Dev.issueTrig
  exact
    .when (.incWrap <|
       .onGen <|
       .each (.when (.each (.when (.when h fun h => h.trgHandOver) fun h => by split; exacts [h.emit.emit, h]) fun h => h.tlSend)
            fun h => .each h fun h => h.strobeEvent)
         fun h => h.trigSource)
      fun h => h.put

protected theorem trgArm {k} (h : d.Form) : (d.trgArm k).Form := by
  unfold Dev.trgArm
  exact .ite h.trgHandOver.put.put <| .ite h.trgHandOver.startGen h.trgHandOver.startGen

protected theorem trgStop {k} (h : d.Form) : (d.trgStop k).Form := .ite h.put <| .ite (.ite h.put h.onGen) h

protected theorem camStatClr {v} (h : d.Form) : (d.camStatClr v).Form := by
  unfold Dev.camStatClr
  exact
    .each (.each (.when (.each h fun h => .when h fun h => h.wrN.wrN.put) fun h => h.wrN) fun h => .when h fun h => h.wrN)
      fun h => .when h fun h => h.wrN.put

protected theorem camApply {w} (h : d.Form) : (camApply d w).Form := by
  unfold camApply
  exact .ite (.ite h.trgArm <| .when h fun h => h.trgStop) <| .ite (.when h fun h => h.put) <| .ite h.wrN.wrN <| .ite h.camStatClr h

/-! ### Vision (Machine/Vis.lean) -/

protected theorem mergeStage {s l} (h : d.Form) : (d.mergeStage s l).2.Form :=
  .ite_snd h <| .ite_snd (.mk_snd h.onVis) <| by split; exacts [h, .mk_snd h.onVis]

protected theorem demosaic {s l} (h : d.Form) : (d.demosaic s l).2.Form := .ite_snd h <| .mk_snd h.onVis

protected theorem outLost {o} (h : d.Form) : (d.outLost o).Form := h.incSat.put.report

protected theorem ringPut {o bs} (h : d.Form) : (d.ringPut o bs).1.Form := by
  unfold Dev.ringPut
  exact .ite_fst (.mk_fst h.outLost) <| .mk_fst h.stBs.put

protected theorem arcPut {o bs} (h : d.Form) : (d.arcPut o bs).Form := by
  unfold Dev.arcPut
  extract_lets
  split
  next heq => exact .ite (h.ringPut.of_fst heq) (h.ringPut.of_fst heq).onVis

protected theorem outLine {o s l sums n} (h : d.Form) : (d.outLine o s l sums n).Form := by
  unfold Dev.outLine
  exact .ite (.arcPut <| .when h fun h => h.onIns) <| .when (.when h fun h => h.onIns) fun h => h.ringPut

protected theorem outTake {o s l} (h : d.Form) : (d.outTake o s l).Form := by
  unfold Dev.outTake
  extract_lets cx xd yd cols b
  obtain ⟨f, sums, n⟩ := b
  exact .ite h.onVis.outLine h.onVis

protected theorem visLine {s l} (h : d.Form) : (d.visLine s l).Form := by
  unfold Dev.visLine
  split
  · next heq => exact h.mergeStage.of_snd heq
  · next heq =>
    split
    next heq' => exact .each ((h.mergeStage.of_snd heq).demosaic.of_snd heq') fun h => .each h fun h => h.outTake

protected theorem visApply {w} (h : d.Form) : (visApply d w).Form := .when h fun h => h.onVis.put

/-! ### Inspection (Machine/Ins.lean) -/

protected theorem voidItem {i} (h : d.Form) : (d.voidItem i).Form := .ite h <| .when h.updItem fun h => h.verdictItem

protected theorem voidItems {k m} (h : d.Form) : (d.voidItems k m).Form := by
  unfold Dev.voidItems
  exact .each h fun h => .voidItem <| .onceFault h fun h => h.report

protected theorem voidLine {k g m} (h : d.Form) : (d.voidLine k g m).Form := by
  unfold Dev.voidLine
  exact .voidItems <| .when h.put fun h => h.onIns

protected theorem putDesc {m flags} (h : d.Form) : (d.putDesc m flags).Form := by
  unfold Dev.putDesc
  exact h.stBs

protected theorem completeLine {k g m} (h : d.Form) : (d.completeLine k g m).Form := by
  unfold Dev.completeLine
  exact .onIns <| .when (.when h fun h => h.voidLine) fun h => h.stBs.putDesc

protected theorem completeAll (h : d.Form) : d.completeAll.Form := by
  unfold Dev.completeAll
  split
  · exact h
  · exact .ite h <| .each h fun h => .each h fun h => h.completeLine

protected theorem foldLine {k h' sel ecc l} (h : d.Form) : (d.foldLine k h' sel ecc l).Form := by
  unfold Dev.foldLine
  exact .ite (.when h fun h => h.voidLine) <| .onIns <| .when h fun h => h.voidLine

protected theorem leastShift {f} (h : d.Form) : (d.leastShift f).2.Form := by
  unfold Dev.leastShift
  refine .ite_snd ?_ h
  split
  next heq => exact h.fresh.of_snd heq

protected theorem register {w} (h : d.Form) : (d.register w).1.Form := by
  unfold Dev.register
  extract_lets
  split
  next heq =>
  split
  next heq' =>
  have h2 := (h.leastShift.of_snd heq).leastShift.of_snd heq'
  exact .ite_fst (.mk_fst h2.put.put.put.report) <| .mk_fst h2.put.put.onIns.put.put

protected theorem nearest {noz x} (h : d.Form) : (d.nearest noz x).2.Form := by
  unfold Dev.nearest
  extract_lets dist best
  cases best with
  | none => exact h
  | some c =>
    refine .ite_snd h ?_
    split
    next heq => exact h.fresh.of_snd heq

protected theorem declare {e} (h : d.Form) : (d.declare e).1.Form := .foldl_fst h fun {p c} h => by
  have hnear := h.nearest (noz := e.noz) (x := c)
  split
  next heq =>
  rw [heq] at hnear
  split
  · exact hnear
  · exact .ite_fst hnear hnear.takeChange.incSat.put

protected theorem passProbes {e out} (h : d.Form) : (d.passProbes e out).Form := by
  unfold Dev.passProbes
  exact .each h fun h => h.takeChange

protected theorem sendReports {room l} (h : d.Form) : (d.sendReports room l).Form := by
  unfold Dev.sendReports
  exact .when (.when h fun h => .each h fun h => h.densityReport) fun h => h.addSat.put

protected theorem countDefects {old k w} (h : d.Form) : (d.countDefects old k w).Form := by
  unfold Dev.countDefects
  exact .each h fun h => .each h fun h => h.updItem

protected theorem gradeItem {k i} (h : d.Form) : (d.gradeItem k i).Form :=
  .each h
    fun h => by
      split
      · exact h.wrN.put.put
      · exact .when h.wrN.put.put.put.put.put.put fun h => h.put.updItem

protected theorem completeItems {k w} (h : d.Form) : (d.completeItems k w).Form := by
  unfold Dev.completeItems
  refine .each h fun h => ?_
  extract_lets d1 d2 d3
  have h1 : d1.Form := .when h fun h => h.voidItem
  have h2 : d2.Form := by
    unfold d2
    split
    · exact .when h1 fun h => h.gradeItem
    · exact h1
  have h3 : d3.Form := h2.updItem
  split
  · exact .when h3 fun h => h.verdictItem
  · exact h3

protected theorem voidWindow {k m0 n} (h : d.Form) : (d.voidWindow k m0 n).Form := by
  unfold Dev.voidWindow
  extract_lets
  split
  · exact h.incSat.put
  · exact .each h.incSat.put fun h => h.voidItem

protected theorem goodWindow {k w old room} (h : d.Form) : (d.goodWindow k w old room).Form :=
  .countDefects <| .sendReports <| .foldl_fst h fun h => h.declare.passProbes

protected theorem insApply {w} (h : d.Form) :
    (insApply d w).Form := .when h fun h => .each h fun h => .when h fun h => h.wrN

/-! ### Head links (Machine/Hlk.lean) -/

protected theorem onLane {l f} (h : d.Form) : (d.onLane l f).Form := h.onFir

protected theorem hlkSend {l ty body} (h : d.Form) : (d.hlkSend l ty body).Form := h.emit

protected theorem sendFrame {l c e} (h : d.Form) : (d.sendFrame l c e).Form := by
  unfold Dev.sendFrame
  split
  exact h.hlkSend.onLane.onHead

protected theorem laneErr {l} (h : d.Form) : (d.laneErr l).Form := by
  unfold Dev.laneErr
  exact .when h.onLane fun h => h.put

protected theorem upstream {l good} {f : Dev → Dev} (h : d.Form)
    (hf : ∀ {d}, d.Form → (f d).Form) : (d.upstream l good f).Form :=
  .ite h.incSat.laneErr (hf h)

protected theorem missEvent {h' ls} (h : d.Form) : (d.missEvent h' ls).Form := by
  unfold Dev.missEvent
  exact .ite h h.incSat.put.lateLine

protected theorem cmdGo (h : d.Form) : d.cmdGo.Form := by
  unfold Dev.cmdGo
  exact .wrN <| .onFir <| .each h fun h => h.hlkSend

protected theorem laneState {l st} (h : d.Form) : (d.laneState l st).Form := h.put.put.syncHg

protected theorem laneAttempt {l k} (h : d.Form) : (d.laneAttempt l k).Form := by
  unfold Dev.laneAttempt
  exact h.put.onLane.laneState

protected theorem laneSeries {l} (h : d.Form) : (d.laneSeries l).Form := .when h fun h => h.laneAttempt

protected theorem linkFault {l} (h : d.Form) : (d.linkFault l).Form := h.report

protected theorem laneAbort {l why} (h : d.Form) : (d.laneAbort l why).Form := by
  unfold Dev.laneAbort
  exact .ite h.put.onLane.laneState.put.linkFault h.put.onLane.onLane.laneState

protected theorem laneDown {l} (h : d.Form) :
    (d.laneDown l).Form := .when h fun h => .each h.laneAttempt fun h => h.onHead

protected theorem syncPower {l} (h : d.Form) : (d.syncPower l).Form := .ite h h.put.put.put.put

protected theorem hlkApply {w} (h : d.Form) : (hlkApply d w).Form :=
  .ite (.when h
     fun h => h.cmdGo) <| .ite (.when (.when h fun h => h.wrN) fun h => h.laneSeries) <| .ite h.wrN.syncPower <| .ite h.syncPower h

/-! ### Lamps (Machine/Lmp.lean) -/

protected theorem onLch {c f} (h : d.Form) : (d.onLch c f).Form := h.onLmp

protected theorem onBoard {c b f} (h : d.Form) : (d.onBoard c b f).Form := h.onLmp

protected theorem onStr {ix f} (h : d.Form) : (d.onStr ix f).Form := h.onLmp

protected theorem accrue {ix} (h : d.Form) : (d.accrue ix).Form := by
  unfold Dev.accrue
  exact h.onStr

protected theorem pulse {ix ns} (h : d.Form) : (d.pulse ix ns).Form := h.onStr

protected theorem setString {ix mode idac duty fade w} (h : d.Form) :
    (d.setString ix mode idac duty fade w).Form := h.accrue.onStr

protected theorem applyBoard {c b} (h : d.Form) : (d.applyBoard c b).Form :=
  .each h fun h => by split; exacts [h, .when h fun h => h.setString]

protected theorem chainDown {c} (h : d.Form) : (d.chainDown c).Form := by
  unfold Dev.chainDown
  exact .onLmp <| .onLch <| .when h.put.put.put.report fun h => h.put

protected theorem bringUp {c sts} (h : d.Form) : (d.bringUp c sts).Form := by
  unfold Dev.bringUp
  exact .ite h <| .onLch <| .onLmp <| .put <| .put <| .each h fun h => h.onBoard

protected theorem boardTemp {c b t} (h : d.Form) : (d.boardTemp c b t).Form := by
  unfold Dev.boardTemp
  extract_lets
  split
  exact .when (.when (.when h.onBoard fun h => h.onLch) fun h => h.put.report) fun h => h.put.report

protected theorem searchPulse {ix cands half} (h : d.Form) : (d.searchPulse ix cands half).Form := by
  unfold Dev.searchPulse
  exact h.onStr.onLch

protected theorem shuntLed {ix led} (h : d.Form) : (d.shuntLed ix led).Form := by
  unfold Dev.shuntLed
  exact h.onStr.onLch.put.report

protected theorem searchNext {ix x} (h : d.Form) : (d.searchNext ix x).Form := by
  unfold Dev.searchNext
  split
  · exact h.onStr
  · exact h.shuntLed
  · exact h.searchPulse

protected theorem searchStep {ix conducts} (h : d.Form) : (d.searchStep ix conducts).Form := by
  unfold Dev.searchStep
  split
  · exact h
  · exact .ite h.onStr h.searchNext
  · exact h.searchNext

protected theorem strOpen {ix} (h : d.Form) : (d.strOpen ix).Form := by
  unfold Dev.strOpen
  exact .when (.ite h h.onStr.put.report) fun h => h.searchPulse

protected theorem strStatus {ix opn shrt probe} (h : d.Form) : (d.strStatus ix opn shrt probe).Form := by
  unfold Dev.strStatus
  exact .onStr <| .when (.ite (.ite h.onStr.searchStep h.onStr) <| .ite h.onStr.strOpen h.onStr.onStr) fun h => h.put.report

protected theorem boardStatus {c b st sent} (h : d.Form) : (d.boardStatus c b st sent).Form :=
  .ite (.when h.incSat.onBoard
     fun h => h.chainDown) <|
  .ite (.chainDown <|
   .when h.onBoard
     fun h => h.incSat) <|
  .each (.boardTemp <| .onBoard <| .when (.when (.when h.onBoard fun h => h.incSat) fun h => h.onLch) fun h => h.put.report)
    fun h => h.strStatus

protected theorem beginSet {c armed} (h : d.Form) : (d.beginSet c armed).Form := by
  unfold Dev.beginSet
  exact h.onLmp.onLmp.onLch.put

protected theorem stageFrom {c f} (h : d.Form) : (d.stageFrom c f).Form := h.onLmp

protected theorem nextSet {c} (h : d.Form) : (d.nextSet c).Form := by
  unfold Dev.nextSet
  exact .ite h <| .ite h.stageFrom.beginSet <| .ite h.stageFrom.put.beginSet <| .ite h.stageFrom.beginSet h

protected theorem compose {c} (h : d.Form) : (d.compose c).Form := by
  unfold Dev.compose
  exact .ite h.nextSet.onLch h.nextSet.onLch

protected theorem latch {c} (h : d.Form) : (d.latch c).Form := by
  unfold Dev.latch
  exact .when (.each h fun h => .ite h.applyBoard <| .ite h.pulse h) fun h => .when h.onLmp.onLch.put.put fun h => h.incWrap

protected theorem safeFrame {c} (h : d.Form) : (d.safeFrame c).Form := by
  unfold Dev.safeFrame
  exact
    .when h.onLch
      fun h =>
        .each h
          fun h => by
            split
            exact h.setString

protected theorem lampRecord {b} (h : d.Form) : (d.lampRecord b).2.Form := by
  unfold Dev.lampRecord
  exact .ite_snd h <| .mk_snd h.onLmp

protected theorem lampStart (h : d.Form) : d.lampStart.Form := .each h fun h => h.onLmp.onLch.put

protected theorem lampBack (h : d.Form) : d.lampBack.Form := by
  unfold Dev.lampBack
  exact .each h.onLmp fun h => .put <| .onLch <| .when h fun h => h.put

protected theorem lmpApply {w} (h : d.Form) : (lmpApply d w).Form := .ite h.onStr <| .when h fun h => h.put

/-! ### Twin (Machine/Twn.lean) -/

protected theorem twnStart (h : d.Form) : d.twnStart.Form := by
  unfold Dev.twnStart
  exact .put <| .put <| .put <| .when h fun h => h.report

protected theorem healthCheck (h : d.Form) : d.healthCheck.Form := .when h fun h => h.fence

protected theorem peerHealth {v} (h : d.Form) : (d.peerHealth v).Form := by
  unfold Dev.peerHealth
  exact .onTwn <| .put <| .when h fun h => h.put

protected theorem goAlone (h : d.Form) : d.goAlone.Form := h.put.put.onTwn

protected theorem becomeActive {e} (h : d.Form) : (d.becomeActive e).Form := h.setEpoch.setRole.goAlone.onTwn

protected theorem syncFail (h : d.Form) : d.syncFail.Form := .when h fun h => h.report.fence

protected theorem startSync (h : d.Form) : d.startSync.Form := h.setRole.put.onTwn

protected theorem resetFiring {ids} (h : d.Form) : (d.resetFiring ids).Form := .each h fun h => h.endItem

protected theorem pendingVerdicts (h : d.Form) : d.pendingVerdicts.Form := .each h fun h => .ite h.verdictItem <| .ite h.verdictItem h

protected theorem takeover {cause ids} (h : d.Form) : (d.takeover cause ids).Form := by
  unfold Dev.takeover
  exact h.becomeActive.wrN.incSat.put64.put.report.resetFiring.pendingVerdicts

protected theorem partnerLost (h : d.Form) : d.partnerLost.Form := .ite h <| .ite h.takeover <| .when h fun h => h.goAlone

protected theorem sendCopy (h : d.Form) : d.sendCopy.Form := by
  unfold Dev.sendCopy
  exact
    .twSend <|
    .twSend <|
    .twSend <|
    .twSend <|
    .twSend <|
    .each (.twSend <| .twSend <| .twSend <| .each h.twSend.twSend.twSend.twSend.twSend.twSend fun h => h.twSend.twSend) fun h => h.twSend

protected theorem peerRole {r e} (h : d.Form) : (d.peerRole r e).Form := by
  unfold Dev.peerRole
  exact .ite h.put.wrN.learnEpoch <| .ite h.put.wrN.learnEpoch.put.sendCopy <| .ite h.put.wrN.learnEpoch.goAlone h.put.wrN.learnEpoch

protected theorem autoRejoin (h : d.Form) : d.autoRejoin.Form := by
  unfold Dev.autoRejoin
  exact .when h fun h => h.startSync

protected theorem twHeard (h : d.Form) : d.twHeard.Form := .ite h.onTwn.put h

protected theorem twRecv {f : Dev → Dev} (h : d.Form) (hf : ∀ {d}, d.Form → (f d).Form) : (d.twRecv f).Form :=
  .ite h (hf h.twHeard.emit.onTwn)

protected theorem formPair {h' first} (h : d.Form) : (d.formPair h' first).Form :=
  .ite (.when h fun h => h.report) <| .ite h.startSync <| .ite (.ite h.becomeActive h.startSync) h

protected theorem diagOutcome (h : d.Form) : d.diagOutcome.Form := by
  unfold Dev.diagOutcome
  split
  · exact h
  · split
    · exact .ite (.ite h.onTwn.put.resign <|
         .when h.onTwn.put.onTwn
           fun h => h.report) <| .ite (.ite h.onTwn.put <| .fence <| .when h.onTwn.put.onTwn fun h => h.report) h.onTwn.put
    · exact h

protected theorem twResend {mseq} (h : d.Form) : (d.twResend mseq).Form := by
  unfold Dev.twResend
  split
  · exact h.emit
  · exact h

protected theorem testResult {f failed} (h : d.Form) : (d.testResult f failed).Form := h.put.healthCheck

protected theorem twnRequest {cmd} (h : d.Form) : (d.twnRequest cmd).2.Form := by
  unfold Dev.twnRequest
  exact
    .ite_snd h <|
    .ite_snd (.ite_snd (.mk_snd h.resign) h) <|
    .ite_snd (.ite_snd h <|
     .ite_snd h <|
     .mk_snd h.startSync) <|
    .ite_snd (.ite_snd (.mk_snd h.fence) <|
     .ite_snd (.mk_snd h.resign) h) <| .ite_snd (.mk_snd h.becomeActive.wrN.incSat.put64.put.report) h

protected theorem twnApply {w} (h : d.Form) : (twnApply d w).Form := .ite h.twnRequest h

/-! ### Fault registers (Machine/Flt.lean) -/

protected theorem safeExit (h : d.Form) : d.safeExit.Form := by
  unfold Dev.safeExit
  exact .syncPrinting <| .lampBack <| .onSys <| .onPos <| .each h.enter.put.put fun h => h.put

protected theorem fltApply {w} (h : d.Form) : (fltApply d w).Form :=
  .ite (.syncStop <|
   .when h
     fun h => h.setBit) <|
  .ite h.syncStop <|
  .ite h.rest <|
  .ite h.report <|
  .ite (.when h
     fun h => h.safeExit) <|
  .ite (.when (.when (.when (.when h fun h => h.wrN) fun h => .each h.wrN fun h => h.wrN) fun h => h.put.put.put) fun h => h.onSys) h

/-! ### Imprinter (Machine/Imp.lean) -/

protected theorem fontRecord {body} (h : d.Form) : (d.fontRecord body).2.Form := by
  unfold Dev.fontRecord
  exact .ite_snd h <| .ite_snd h <| .mk_snd h.stBs.onRas

protected theorem putRasters {a l} (h : d.Form) : (d.putRasters a l).1.Form := by
  induction l generalizing d a with
  | nil => exact h
  | cons f l ih => exact ih (.foldl h fun h => h.stBs)

protected theorem impPurge (h : d.Form) : d.impPurge.Form := by
  unfold Dev.impPurge
  exact .ite h.onRas h.onRas

protected theorem impDone {id} (h : d.Form) : (d.impDone id).Form := h.onRas

protected theorem impFail {i t kind} (h : d.Form) : (d.impFail i t kind).Form := by
  unfold Dev.impFail
  exact .report <| .impDone <| .finalise <| .put <| .incSat <| .when h fun h => h.wrN.put64

protected theorem composeEffects {i plan} (h : d.Form) : (d.composeEffects i plan).Form := by
  unfold Dev.composeEffects
  exact
    .when (.each h
         fun h => by
           split
           · split
             · exact h
             · exact .when h.put64 fun h => .onceFault h fun h => h.put.report
           · exact h)
      fun h => h.put.report

protected theorem impFinish {i h' T err} (h : d.Form) : (d.impFinish i h' T err).Form := by
  unfold Dev.impFinish
  extract_lets
  split
  · exact h.impFail
  · exact .ite h.impFail.report <|
      .ite h.impFail.report <| .ite h.impFail <| by
        split
        · exact .ite h h.onRas.put.report
        · exact h.putRasters.updItem.addSat.impDone

protected theorem impBegin {i h' T err} (h : d.Form) : (d.impBegin i h' T err).Form := by
  unfold Dev.impBegin
  exact .ite h.twInput.onRas.composeEffects.impFinish h.twInput.onRas.composeEffects.onRas

protected theorem impNoFields {page} (h : d.Form) : (d.impNoFields page).Form := .ite h <| .each h fun h => h.updItem

protected theorem tplDisable {t} (h : d.Form) : (d.tplDisable t).Form := .each h.put fun h => .ite h.clrBit h.clrBit

protected theorem impApply {w} (h : d.Form) : (impApply d w).Form := .ite (.when h fun h => h.wrN.wrN.wrN) h

/-! ### Ethernet (Machine/Eth.lean) -/

protected theorem onEport {p f} (h : d.Form) : (d.onEport p f).Form := h.onEth

protected theorem ethGood {p} (h : d.Form) : (d.ethGood p).Form := h.incWrap

protected theorem ethSend {p kind body} (h : d.Form) : (d.ethSend p kind body).Form := h.emit.incWrap

protected theorem syncTxts (h : d.Form) : d.syncTxts.Form := by
  unfold Dev.syncTxts
  exact h.put.put.wrN.wrN.wrN.wrN

protected theorem pushTxts {id p ts} (h : d.Form) : (d.pushTxts id p ts).1.Form :=
  .ite_fst (.mk_fst h.onEth.syncTxts.put) <| .mk_fst h.incSat.put.report

protected theorem txBack {p status late} (h : d.Form) : (d.txBack p status late).Form := by
  unfold Dev.txBack
  exact h.st.st.put.put.onEport

protected theorem txLate {p} (h : d.Form) : (d.txLate p).Form := h.txBack.put.report

protected theorem txLook {n p} (h : d.Form) : (Dev.txLook n d p).Form := by
  induction n generalizing d with
  | zero => exact h
  | succ n ih =>
    exact .ite h <| .ite h.onEport <| .ite h.onEport <| .ite (ih h.txBack) <|
      .ite (.ite (ih h.txLate) <| .ite h.onEport h.onEport) h.onEport

protected theorem txGo {p} (h : d.Form) : (d.txGo p).Form := .when h fun h => h.txLook

protected theorem txKick {p} (h : d.Form) : (d.txKick p).Form := h.onEport.txGo

protected theorem launch {p late} (h : d.Form) : (d.launch p late).Form := h.onEport

protected theorem launchStepped (h : d.Form) : d.launchStepped.Form := .each h fun h => .when h fun h => h.launch

protected theorem rxRing {p frame vlan pcs err} (h : d.Form) : (d.rxRing p frame vlan pcs err).Form := by
  unfold Dev.rxRing
  exact .ite h.incSat <| .put <| .put <| .stBs <| .st <| .st <| .st <| .st <| .when h fun h => h.stBs

protected theorem ethState {p st} (h : d.Form) : (d.ethState p st).Form := by
  unfold Dev.ethState
  exact .ite h <| .when (.when h.put.put fun h => h.report) fun h => h.txLate.txGo

protected theorem ethStart (h : d.Form) : d.ethStart.Form := .each h fun h => h.put

protected theorem ethApply {w} (h : d.Form) : (ethApply d w).Form := by
  unfold ethApply
  exact
    .ite (.when h
       fun h => h.onEth.syncTxts) <|
    .ite (.when h fun h => h.txKick) <| .ite h.put.onEport <| .ite h.put <| .ite (.when h fun h => .each h fun h => h.wrN) h

/-! ### Time (Machine/Ptp.lean) -/

protected theorem onPport {p f} (h : d.Form) : (d.onPport p f).Form := h.onPtp

protected theorem setRate {r} (h : d.Form) : (d.setRate r).Form := by
  unfold Dev.setRate
  exact h.onPtp.wrN

protected theorem stepTime {by'} (h : d.Form) : (d.stepTime by').Form := by
  unfold Dev.stepTime
  exact h.onPtp.incSat.put.report.launchStepped

protected theorem enterTime {n} (h : d.Form) : (d.enterTime n).Form :=
  .ite h <| .ite (.report <| .when h.put.put.onPtp fun h => h.setRate) <| .ite h.put.put.report <| .ite h.put.put.onPtp h.put.put

protected theorem servo {o delta} (h : d.Form) : (d.servo o delta).Form := by
  unfold Dev.servo
  exact .when h.onPtp.setRate fun h => h.put.report

protected theorem setSource {src} (h : d.Form) : (d.setSource src).Form :=
  .ite h <| .when (.put <| .put64 <| .put <| .put <| .onPtp <| .when h fun h => h.enterTime) fun h => h.enterTime

protected theorem takeOffset {o} (h : d.Form) : (d.takeOffset o).Form := by
  unfold Dev.takeOffset
  exact
    .ite h.wrN.put.setSource.setSource <|
    .when (.onPtp <|
       .ite (.onPtp <| by split; exacts [.mk_snd h.wrN.put, h.wrN.put.fresh]) <|
       .ite (.onPtp <|
        .stepTime <|
        .onPtp <| by split; exacts [.mk_snd h.wrN.put, h.wrN.put.fresh]) <|
       .servo <| .onPtp <| by split; exacts [.mk_snd h.wrN.put, h.wrN.put.fresh])
      fun h => h.enterTime

protected theorem setPstate {p n} (h : d.Form) : (d.setPstate p n).Form := .ite h h.put.onPport

protected theorem syncUtc (h : d.Form) : d.syncUtc.Form := by
  unfold Dev.syncUtc
  extract_lets a
  cases a with
  | none => exact h.wrN
  | some f => exact .ite h.wrN h.wrN

protected theorem chooseSource (h : d.Form) : d.chooseSource.Form := by
  unfold Dev.chooseSource
  exact h.setSource.syncUtc

protected theorem bmca (h : d.Form) : d.bmca.Form := by
  unfold Dev.bmca
  exact .chooseSource <| .each h fun h => h.setPstate

protected theorem ptpStart (h : d.Form) : d.ptpStart.Form := .syncUtc <| .each h fun h => h.put

protected theorem takeSync {p t1 t2 corr} (h : d.Form) : (d.takeSync p t1 t2 corr).Form := by
  unfold Dev.takeSync
  exact .ite h.onPport.takeOffset h.onPport

protected theorem setDelay {p twice} (h : d.Form) : (d.setDelay p twice).Form := h.wrN

protected theorem loseMaster {p} (h : d.Form) : (d.loseMaster p).Form := by
  unfold Dev.loseMaster
  exact h.onPtp.bmca

protected theorem fabricOffset {o} (h : d.Form) : (d.fabricOffset o).Form := by
  unfold Dev.fabricOffset
  exact .when h.onPtp.chooseSource fun h => h.takeOffset

protected theorem fabricLost (h : d.Form) : d.fabricLost.Form := .when h fun h => h.onPtp.chooseSource

protected theorem snap {req} (h : d.Form) : (d.snap req).Form := by
  unfold Dev.snap
  exact h.onPtp

protected theorem ptpApply {w} (h : d.Form) : (ptpApply d w).Form :=
  .ite (.when h fun h => h.snap) <| .ite h.wrN.setRate <| .ite h.stepTime h

/-! ### Page fabric (Machine/Pgf.lean) -/

protected theorem takeTopo {t} (h : d.Form) : (d.takeTopo t).Form := by
  unfold Dev.takeTopo
  exact h.onPgf

protected theorem sendTopo (h : d.Form) : d.sendTopo.Form := .ite h <| .ite h.takeTopo h.fabSendUp

protected theorem sendAdv {p} (h : d.Form) : (d.sendAdv p).Form := by
  unfold Dev.sendAdv
  exact h.fabLink

protected theorem sendAdvs (h : d.Form) : d.sendAdvs.Form := .each h fun h => h.sendAdv

protected theorem syncMembers (h : d.Form) : d.syncMembers.Form := by
  unfold Dev.syncMembers
  exact h.wrN

protected theorem syncTree (h : d.Form) : d.syncTree.Form := .each h fun h => h.put

protected theorem takeAddr {a} (h : d.Form) : (d.takeAddr a).Form := by
  unfold Dev.takeAddr
  exact .sendTopo <| .when h.put.put.onPgf fun h => h.put

protected theorem sendGrant {uid addr status} (h : d.Form) : (d.sendGrant uid addr status).Form := h.fabBroadcast

protected theorem grantAddr {uid want kind fixed} (h : d.Form) : (d.grantAddr uid want kind fixed).Form := by
  unfold Dev.grantAddr
  exact h.onPgf.syncMembers.sendGrant

protected theorem becomeRoot (h : d.Form) : d.becomeRoot.Form := by
  unfold Dev.becomeRoot
  exact h.onPgf.grantAddr.takeAddr.put.fabBroadcast

protected theorem chooseRoot (h : d.Form) : d.chooseRoot.Form :=
  .ite h <|
  .ite h.syncTree <|
  .syncMembers <|
  .when (.when (.sendAdvs <|
        .syncTree <| .onPgf <| .when (.when (.each h.onPgf.put.put fun h => h.wrN) fun h => h.put.report) fun h => h.fabricLost)
       fun h => h.becomeRoot)
    fun h => h.onPgf

protected theorem setFstate {p n} (h : d.Form) : (d.setFstate p n).Form := .ite h h.put.put

protected theorem fattempt {p} (h : d.Form) : (d.fattempt p).Form := by
  unfold Dev.fattempt
  exact h.fresh.onFport.setFstate

protected theorem fdiscard {p} (h : d.Form) : (d.fdiscard p).Form := by
  unfold Dev.fdiscard
  exact h.addSat.onFport

protected theorem fleave {p st} (h : d.Form) : (d.fleave p st).Form := by
  unfold Dev.fleave
  exact .when h.fdiscard.setFstate.put fun h => h.report.chooseRoot.sendTopo

protected theorem fdown {p} (h : d.Form) : (d.fdown p).Form := h.fleave.fattempt

protected theorem fabort {p why} (h : d.Form) : (d.fabort p why).Form := by
  unfold Dev.fabort
  exact .when h.fdiscard.put.setFstate fun h => h.put.report

protected theorem fup {p} (h : d.Form) : (d.fup p).Form := by
  unfold Dev.fup
  exact h.onFport.setFstate.chooseRoot.sendAdv.sendTopo

protected theorem pgfKeyLost (h : d.Form) : d.pgfKeyLost.Form := .ite h <| .when (.each h fun h => h.fleave) fun h => h.put.report

protected theorem fresend {p ls} (h : d.Form) : (d.fresend p ls).Form := by
  unfold Dev.fresend
  exact .ite h.put.fdown h.onFport

protected theorem putPkt {p lseq k} (h : d.Form) : (d.putPkt p lseq k).Form := h.emit

protected theorem frefuse {p} (h : d.Form) : (d.frefuse p).Form := by
  unfold Dev.frefuse
  exact .ite h h.emit.onFport

protected theorem pgfRx {p rx ty} {f : Dev → Dev} (h : d.Form)
    (hf : ∀ {d}, d.Form → (f d).Form) : (d.pgfRx p rx ty f).Form := by
  unfold Dev.pgfRx
  extract_lets at' x pkt k good counted n taken heard outs own out
  have hat : at'.Form := h.atTime
  have hcounted : counted.Form := .when (.when hat fun h => h.incSat) fun h => h.put.report
  have htaken : taken.Form := hcounted.onFport
  have hheard : heard.Form := .when htaken fun h => h.put
  refine .ite hat <| .ite hcounted.frefuse ?_
  split
  · exact htaken.incSat
  · exact .ite htaken.incSat <| .ite (hf htaken) <| .ite htaken <|
      .ite (.ite (hf hheard) <| by split; exacts [hheard.fabForward, hheard]) <|
      .ite (hf (.each htaken fun h => h.fabForward)) <|
      .ite (hf htaken) <| .ite htaken.fabForward htaken.fabDrop

protected theorem takeTable {gen t} (h : d.Form) : (d.takeTable gen t).Form := by
  unfold Dev.takeTable
  exact h.onPgf.put.wrN.put

protected theorem takeRefusal {link id} (h : d.Form) : (d.takeRefusal link id).Form := by
  unfold Dev.takeRefusal
  extract_lets
  split
  · exact .ite h.put.report.finalise h.put.report.incSat
  · exact .ite h.put.report.incSat h.put.report.onItk

protected theorem pgfStart (h : d.Form) : d.pgfStart.Form := by
  unfold Dev.pgfStart
  exact .chooseRoot <| .each h.fresh.onPgf fun h => h.fattempt

protected theorem pgfApply {w} (h : d.Form) : (pgfApply d w).Form :=
  .ite (.each h
     fun h => h.fdown) <| .ite (.when (.when (.when (.each h fun h => h.wrN.wrN) fun h => h.wrN) fun h => h.wrN) fun h => h.wrN) h

/-! ### Security (Machine/Sec.lean) -/

protected theorem endSession {n} (h : d.Form) : (d.endSession n).Form := by
  unfold Dev.endSession
  exact h.onItk.updSess.put.put.put.put

protected theorem syncKeys (h : d.Form) : d.syncKeys.Form := h.put

protected theorem writeMarker {level} (h : d.Form) : (d.writeMarker level).Form := by
  unfold Dev.writeMarker
  exact h.mwr.mwr.put

protected theorem erase {level} (h : d.Form) : (d.erase level).Form := by
  unfold Dev.erase
  exact .put <| .writeMarker <| .when (.each h.onSec.syncKeys fun h => .when h fun h => h.endSession) fun h => h.pgfKeyLost

protected theorem blowRootKill (h : d.Form) : d.blowRootKill.Form := h.onSec.put

protected theorem blowDebugKill (h : d.Form) : d.blowDebugKill.Form := by
  unfold Dev.blowDebugKill
  exact h.onSec.put.put

protected theorem alarm {n} (h : d.Form) : (d.alarm n).Form :=
  .ite h <| .when (.when h.setBit.put.report fun h => h.erase) fun h => h.blowRootKill

protected theorem syncAlarm (h : d.Form) : d.syncAlarm.Form := h.put

protected theorem alarmOn {n} (h : d.Form) : (d.alarmOn n).Form := h.onSec.alarm.syncAlarm

protected theorem jtagBypass (h : d.Form) : d.jtagBypass.Form := h.onSys.emit

protected theorem boundary {code} (h : d.Form) : (d.boundary code).Form := by
  unfold Dev.boundary
  exact .emit <| .onSys <| .ite h h.enterSafe.onSys

protected theorem secApply {w} (h : d.Form) : (secApply d w).Form := .ite h.erase <| .when h fun h => h.syncAlarm

/-! ### Images (Machine/Image.lean) -/

protected theorem logEvent {cls code feature} (h : d.Form) : (d.logEvent cls code feature).Form := by
  unfold Dev.logEvent
  exact .onCfg <| .incSat <| .when h fun h => h.wrN

protected theorem disable {f conflict} (h : d.Form) : (d.disable f conflict).Form := h.onCfg

protected theorem takeClaims {lenient l lost} (h : d.Form) : (d.takeClaims lenient l lost).2.Form := by
  induction l generalizing d lost with
  | nil => exact h
  | cons o l ih =>
    cases o with
    | none => exact h
    | some c =>
      unfold Dev.takeClaims
      exact .ite_snd (ih h) <| .ite_snd (.ite_snd h <| ih h.disable.logEvent) <| ih h.onCfg

protected theorem claimsRecord {lenient b} (h : d.Form) : (d.claimsRecord lenient b).2.Form := by
  unfold Dev.claimsRecord
  exact .ite_snd h h.onCfg.takeClaims

protected theorem wordsTo {a b} (h : d.Form) : (d.wordsTo a b).Form := .each h fun h => h.wrN

protected theorem blendRecord {b} (h : d.Form) : (d.blendRecord b).2.Form := by
  unfold Dev.blendRecord
  extract_lets
  split
  · exact h
  · exact .ite_snd h <| .mk_snd <| .each h fun h => h.wordsTo.setBit

protected theorem feedRecord {b} (h : d.Form) : (d.feedRecord b).2.Form := by
  unfold Dev.feedRecord
  split
  · exact h
  · exact .ite_snd h <| .mk_snd <| .each h fun h => h.wordsTo.setBit

protected theorem transferRecord {b} (h : d.Form) : (d.transferRecord b).2.Form := by
  unfold Dev.transferRecord
  split
  · exact h
  · exact .ite_snd h <| .mk_snd <| .onCfg <| .each h fun h => h.wordsTo

protected theorem tempRecord {b} (h : d.Form) : (d.tempRecord b).2.Form := by
  unfold Dev.tempRecord
  exact .ite_snd h <| .ite_snd h <| .mk_snd h.stBs.onNzm

protected theorem fwRecord {type b} (h : d.Form) : (d.fwRecord type b).2.Form := by
  unfold Dev.fwRecord
  exact .ite_snd h <| .mk_snd <| .when h.stBs.onCfg fun h => h.onSys

protected theorem trustedRecord {b} (h : d.Form) : (d.trustedRecord b).2.Form := by
  unfold Dev.trustedRecord
  exact .ite_snd h <| .ite_snd h <| .mk_snd h.stBs.onCfg

protected theorem keyRecord {type b} (h : d.Form) : (d.keyRecord type b).2.Form := by
  unfold Dev.keyRecord
  exact
    .ite_snd h <| .ite_snd h <| by
      extract_lets
      split
      · exact .mk_snd h.alarm
      · exact .mk_snd h.onSec.syncKeys

protected theorem ctlReset (h : d.Form) : d.ctlReset.Form := by
  have h1 : Dev.Form { d with regs := d.regs.filter fun r => r.1 < 0x0C000000 } := { h with regs := spWf_filter _ _ _ _ h.regs }
  unfold Dev.ctlReset
  exact h1.onSys.put.report

protected theorem ctlReload (h : d.Form) : d.ctlReload.Form := by
  unfold Dev.ctlReload
  exact .ite (.onSys <| .each h.onSys fun h => h.stBs) h.onSys.report

/-! ### System (Machine/Sys.lean) -/

protected theorem claimIrq {ctx} (h : d.Form) : (d.claimIrq ctx).Form := by
  unfold Dev.claimIrq
  exact .emit <| .when h fun h => h.onSys

protected theorem pwrStat {v} (h : d.Form) : (d.pwrStat v).Form := .ite h h.wrN.put

protected theorem feedHealth (h : d.Form) : d.feedHealth.Form := h.put

/-! ### Bus (Machine/Bus.lean) -/

protected theorem claimGo {feature} (h : d.Form) : (d.claimGo feature).Form := by
  unfold Dev.claimGo
  exact .ite h.onCfg h.onCfg

protected theorem sysApply {w} (h : d.Form) : (sysApply d w).Form := by
  unfold sysApply
  exact .ite h.onSys <| .ite h.onSys <| .ite (.ite h.deviceReset h.ctlReset) h

protected theorem mbxApply {w} (h : d.Form) : (mbxApply d w).Form := by
  unfold mbxApply
  split
  · exact .ite (.when h.put fun h => h.put.setBit) h
  · exact h

protected theorem itkApply {w} (h : d.Form) : (itkApply d w).Form :=
  .ite (.when (.when (.when (.when h fun h => h.wrN) fun h => h.wrN) fun h => h.wrN) fun h => h.wrN) h

protected theorem blockApply {b w} (h : d.Form) : (blockApply d b w).Form := by
  unfold blockApply
  split
  · exact h.sysApply
  · exact .ite h.claimGo h
  · exact h.secApply
  · exact h.fltApply
  · exact h.twnApply
  · exact h.mbxApply
  · exact h.itkApply
  · exact h.brdApply
  · exact h.brdApply
  · exact h.brdApply
  · exact h.impApply
  · exact h.nzmApply
  · exact h.nzmApply
  · exact h.posApply
  · exact h.firApply
  · exact h.firApply
  · exact h.hlkApply
  · exact h.hlkApply
  · exact h.camApply
  · exact h.visApply
  · exact h.insApply
  · exact h.lmpApply
  · exact h.pgfApply
  · exact h.ethApply
  · exact h.ptpApply
  · exact h.dmcApply
  · exact h.dmaApply
  · exact h

protected theorem regStore {b v r w} (h : d.Form) : (d.regStore b v r w).Form := by
  unfold Dev.regStore
  exact .blockApply <| .wrN <| .when h fun h => h.twInput

protected theorem headerWrite {req b a v} (h : d.Form) : (d.headerWrite req b a v).2.Form := by
  unfold Dev.headerWrite
  exact .ite_snd h <| .ite_snd h <| .mk_snd <| .when (.when h fun h => h.wrN) fun h => h.wrN

protected theorem writeReg {req b a width v} (h : d.Form) : (d.writeReg req b a width v).2.Form :=
  .ite_snd h <| .ite_snd h.headerWrite <| by
    split
    · exact h
    · exact .ite_snd (.mk_snd h.regStore) <| .mk_snd <| .when h fun h => h.put

protected theorem ctlWrite {a v} (h : d.Form) : (d.ctlWrite a v).Form :=
  .ite h.onSys <| .ite h.onSys <| .ite h.wrN <| .ite h.wrN <| .ite h.wrN h

protected theorem ctlRead {a} (h : d.Form) : (d.ctlRead a).2.Form :=
  .ite_snd h <| .ite_snd h <| .ite_snd h <| by split; exacts [.mk_snd h.claimIrq, .ite_snd h h]

protected theorem busW {req a width v} (h : d.Form) : (d.busW req a width v).2.Form := by
  unfold Dev.busW
  split
  · exact .ite_snd h <| .ite_snd h.writeReg <| .mk_snd h.writeReg.reject
  · exact .ite_snd (.ite_snd h <| .ite_snd h <| .mk_snd h.ctlWrite) h

protected theorem busWrite {req a width v} (h : d.Form) : (d.busWrite req a width v).Form := by
  unfold Dev.busWrite
  exact h.busW.answer

protected theorem capture {req b a} (h : d.Form) : (d.capture req b a).Form := by
  unfold Dev.capture
  split
  · exact h
  · split
    · exact h
    · split
      · exact h
      · exact h.rest

protected theorem busR {req a width} (h : d.Form) : (d.busR req a width).2.2.Form := by
  unfold Dev.busR
  split
  · split
    · exact h
    · extract_lets
      split
      · exact h.capture
      · exact h.reject
  · split
    · split
      · exact h
      · split
        · exact h
        · exact h.ctlRead
    · exact h

protected theorem regWrite {req a v} (h : d.Form) : (d.regWrite req a v).Form := .ite h h.busWrite

protected theorem headCmd {req hg head opc arg all} (h : d.Form) :
    (d.headCmd req hg head opc arg all).Form := h.regWrite.regWrite

/-! ### Item intake (Machine/Itk.lean) -/

protected theorem fmtDrop (h : d.Form) : d.fmtDrop.Form := h.incSat

protected theorem authDrop (h : d.Form) : d.authDrop.Form := by
  unfold Dev.authDrop
  exact .when h.incSat.put.onItk fun h => h.report

protected theorem flushEvents {n} (h : d.Form) : (d.flushEvents n).Form := by
  unfold Dev.flushEvents
  exact .ite h <| .onItk <| .each h fun h => h.sendSeq

protected theorem openSess {via m} (h : d.Form) : (d.openSess via m).Form := by
  unfold Dev.openSess
  exact
    .ite h.fmtDrop <| by
      split
      · exact h.authDrop
      · exact .ite h.authDrop <|
          .ite h.fmtDrop <| .flushEvents <| .wire <| .put <| .put <| .put <| .updSess <| .when h.fresh.fresh fun h => h.endSession

protected theorem ackOnly {n} (h : d.Form) : (d.ackOnly n).Form := by
  unfold Dev.ackOnly
  exact h.updSess.wire

protected theorem takeAck {n ack sack} (h : d.Form) : (d.takeAck n ack sack).Form := by
  unfold Dev.takeAck
  exact .ite h.updSess.put <| .when h fun h => h.updSess

protected theorem resultTo {who type status state reason item x} (h : d.Form) :
    (d.resultTo who type status state reason item x).Form :=
  .when h fun h => h.result

protected theorem ensurePage {p} (h : d.Form) : (d.ensurePage p).Form := by
  unfold Dev.ensurePage
  exact .when h fun h => h.onItk

protected theorem onPage {p f} (h : d.Form) : (d.onPage p f).Form := h.onItk

protected theorem putBlk {p b} (h : d.Form) : (d.putBlk p b).Form := h.onPage

protected theorem dropBlk {p idx} (h : d.Form) : (d.dropBlk p idx).Form := h.onPage

protected theorem deferred {p h'} (h : d.Form) : (d.deferred p h').Form := by
  unfold Dev.deferred
  exact .each h fun h => h.dropBlk.resultTo

protected theorem blockDone {p b} (h : d.Form) : (d.blockDone p b).2.Form := by
  unfold Dev.blockDone
  exact
    .ite_snd (by
       split
       · exact .ite_snd (.mk_snd <| .each h.putBlk.onPage.deferred fun h => h.blocksCheck) <| .mk_snd h.dropBlk
       · exact .mk_snd h.dropBlk) <| by
      split
      · exact .mk_snd h.dropBlk
      · exact .ite_snd (.mk_snd h.putBlk) <| .mk_snd h.dropBlk

protected theorem takeData {who b} (h : d.Form) : (d.takeData who b).2.Form := by
  unfold Dev.takeData
  exact
    .ite_snd h <| .ite_snd h <| by
      split
      · exact .mk_snd <| .when h.put fun h => h.report
      · exact .ite_snd h.ensurePage.stBs.putBlk.onPage.blockDone <| .mk_snd h.ensurePage.stBs.putBlk.onPage

protected theorem resupply {b id} (h : d.Form) : (d.resupply b id).Form := by
  unfold Dev.resupply
  exact h.updItem.ensurePage.twInput.blocksCheck

protected theorem submitWrite {who b slot} (h : d.Form) : (d.submitWrite who b slot).Form := by
  unfold Dev.submitWrite
  exact
    .ite h.writeRecord.onItk.quarantine.resultTo <| .when h.writeRecord.onItk.setLastZseq.ensurePage.onItk fun h => h.twSend.twInput.onTwn

protected theorem submitTail {who b} (h : d.Form) : (d.submitTail who b).Form := by
  unfold Dev.submitTail
  extract_lets
  split
  · exact .resultTo <| .when h fun h => h.resupply
  · exact .ite h.resultTo <| by
        split
        · exact h.put.report.resultTo
        · exact .ite h.put.resultTo <| .ite h.resultTo <| .ite h.resultTo h.submitWrite

protected theorem submitHead {n m} (h : d.Form) : (d.submitHead n m).Form := by
  unfold Dev.submitHead
  exact .ite h.resultTo <| .ite h.resultTo <| .ite h.resultTo <| .ite h.resultTo <| .ite h.resultTo <| .ite h.onItk h.submitTail

protected theorem submitNext {k} (h : d.Form) : (Dev.submitNext k d).Form := by
  induction k generalizing d with
  | zero => exact h
  | succ k ih =>
    unfold Dev.submitNext
    split
    · exact ih h.onItk.submitTail
    · exact h

protected theorem accept {r} (h : d.Form) : (d.accept r).Form := by
  unfold Dev.accept
  exact .submitNext <| .onItk <| .when h.onItk.syncLive.resultTo.blocksCheck fun h => h.finalise

protected theorem cancelReq {n m} (h : d.Form) : (d.cancelReq n m).Form := by
  unfold Dev.cancelReq
  exact
    .ite h.result <| by
      split
      · exact h.result
      · exact .ite h.result <| .ite h.result h.finalise.onItk.result

protected theorem queryReq {n m} (h : d.Form) : (d.queryReq n m).Form := by
  unfold Dev.queryReq
  exact .ite h.result <| by split; exacts [h.result, .ite h.result h.result]

protected theorem finalAckReq {n m} (h : d.Form) : (d.finalAckReq n m).Form := by
  unfold Dev.finalAckReq
  exact .ite h.result <| .ite h.result <| .result <| .when (.each h fun h => h.retire) fun h => h.twSend

protected theorem zoneBaseReq {n m} (h : d.Form) : (d.zoneBaseReq n m).Form := by
  unfold Dev.zoneBaseReq
  exact .ite h.result <| .ite h.result <| .ite h.result <| .ite h.result <| .ite h.jwr.setLastZseq.twInput.result h.jwr.result

protected theorem regReadReq {n m} (h : d.Form) : (d.regReadReq n m).Form := by
  unfold Dev.regReadReq
  exact .ite h.result h.busR.result

protected theorem regWriteReq {n m} (h : d.Form) : (d.regWriteReq n m).Form := by
  unfold Dev.regWriteReq
  exact .ite h.result h.busW.result

protected theorem dataReq {n m} (h : d.Form) : (d.dataReq n m).Form := by
  unfold Dev.dataReq
  exact .ite h.result <| .ite h.result <| .ite (.when h.takeData fun h => h.twSend) h.takeData.result

protected theorem vjpProcess {n m} (h : d.Form) : (d.vjpProcess n m).Form := by
  unfold Dev.vjpProcess
  exact
    .ite h.submitHead <|
    .ite (.ite h.dataReq h.result) <| .ite h.finalAckReq <| by
      split
      · exact h.result
      · exact .ite h.result <| .ite h.result <| by
            split
            · exact h.endSession
            · exact h.cancelReq
            · exact h.queryReq
            · exact h.zoneBaseReq
            · exact h.regReadReq
            · exact h.regWriteReq

protected theorem takeOne {n m} (h : d.Form) : (d.takeOne n m).Form := h.updSess.vjpProcess

protected theorem takeHeld {k n} (h : d.Form) : (Dev.takeHeld k d n).Form := by
  induction k generalizing d with
  | zero => exact h
  | succ k ih =>
    unfold Dev.takeHeld
    split
    · exact h
    · exact .ite (ih h.takeOne) h

protected theorem vjpSequenced {n m} (h : d.Form) : (d.vjpSequenced n m).Form := by
  unfold Dev.vjpSequenced
  exact
    .ite (.when h.takeOne.takeHeld fun h => h.ackOnly) <| .ite (.when h.updSess fun h => h.ackOnly) <| .when h.incSat fun h => h.ackOnly

protected theorem vjpIn {via m} (h : d.Form) : (d.vjpIn via m).Form := by
  unfold Dev.vjpIn
  exact .ite h <| .ite h.fmtDrop <| .ite h.openSess <| .ite h.authDrop <| .ite h.updSess.takeAck h.updSess.takeAck.vjpSequenced

protected theorem vjpNet {port v6 m types} (h : d.Form) : (d.vjpNet port v6 m types).Form := .when h fun h => h.vjpIn

/-! ### Mailbox (Machine/Mailbox.lean) -/

protected theorem mbxDone {n status ws} (h : d.Form) : (d.mbxDone n status ws).Form := by
  unfold Dev.mbxDone
  exact .emit <| .setBit <| .put <| .put <| .each h.clrBit.wrN fun h => h.wrN

protected theorem mbxTake {n} (h : d.Form) : (d.mbxTake n).Form := h.onSys

protected theorem mbxServe {n r} {f : Dev → Option (Nat × List Nat) × Dev} (h : d.Form)
    (hf : ∀ {d}, d.Form → (f d).2.Form) :
    (d.mbxServe n r f).Form := by
  refine .ite h <| .ite h.mbxTake.mbxDone ?_
  extract_lets
  split
  · exact (hf h.mbxTake).mbxDone
  · exact hf h.mbxTake

protected theorem mbxStatus {st} (h : d.Form) : (mbxStatus st d).2.Form := h

protected theorem trustedWrite {a v} (h : d.Form) : (d.trustedWrite a v).2.Form := by
  unfold Dev.trustedWrite
  exact .mbxStatus <| .ite h.writeReg h

protected theorem updWrite {slot l} (h : d.Form) : (d.updWrite slot l).Form := .each h fun h => h.flWr

protected theorem updEnd {code} (h : d.Form) : (d.updEnd code).Form := by
  unfold Dev.updEnd
  exact h.onCfg.put.put.put

protected theorem updDead (h : d.Form) : d.updDead.Form := by
  unfold Dev.updDead
  exact h.fresh.updEnd.report

protected theorem slotShow {slot r} (h : d.Form) : (d.slotShow slot r).Form := by
  unfold Dev.slotShow
  exact h.wrN

protected theorem onFuses {f} (h : d.Form) : (d.onFuses f).Form := h.onSec

protected theorem fuseServe {n p} {f : Dev → Nat → Nat × Dev} (h : d.Form) (hf : ∀ {d t}, d.Form → (f d t).2.Form) :
    (d.fuseServe n p f).Form :=
  .when h fun h => .mbxServe h fun h => .ite_snd h.mbxStatus <| .ite_snd h.mbxStatus <| .ite_snd h.mbxStatus (hf h).mbxStatus

/-! ### Twin messages (Machine/TwnMsg.lean) -/

protected theorem applyInput {x} (h : d.Form) : (d.applyInput x).Form := by
  unfold Dev.applyInput
  extract_lets
  split
  · split
    · exact h.updItem.ensurePage.blocksCheck
    · exact h.updItem
  · split
    · exact h
    · exact h.updItem.putMark.onItk
  · exact h.put.put.setLevel
  · exact h.addChange
  · exact h.takeDensity
  · exact h.jwr.setLastZseq
  · exact h.onNzm.onItk
  · split
    · exact h
    · exact .ite h.writeReg h
  · exact .ite h <| .onTwn <| .each (.each h fun h => h.onHead) fun h => h.put64
  · exact h.rejAt
  · exact .ite h h.safeSteps
  · exact h.onTwn

protected theorem applyDue (h : d.Form) : d.applyDue.Form := by
  unfold Dev.applyDue
  exact .each h.onTwn fun h => h.applyInput

protected theorem followEnd (h : d.Form) : d.followEnd.Form := by
  unfold Dev.followEnd
  exact .when h fun h => h.setRole.put.onTwn

protected theorem sendJack {slot status} (h : d.Form) : (d.sendJack slot status).Form := h.twSend

protected theorem copyClear (h : d.Form) : d.copyClear.Form := by
  have h1 : Dev.Form { d with mem := d.mem.filter fun x => !(inJournal x.1), act := [] } :=
    { h with mem := spWf_filter _ _ _ _ h.mem, act := rfl }
  exact h1.onNzm.onFir.onPos.onItk.put

/-- COPY of the active registers puts each of them under its own default. -/
theorem foldl_act_wf {l : List (Nat × Nat)} {m : Regs} (h : m.wf = true) :
    Regs.wf (l.foldl (fun l x => spPut (regReset x.1) l x.1 (BitVec.ofNat 32 x.2)) m) = true := by
  induction l generalizing m with
  | nil => exact h
  | cons x l ih => exact ih (spPut_wf regReset m 0 x.1 _ (Nat.zero_le _) h)

protected theorem applyCopy {c} (h : d.Form) : (d.applyCopy c).Form := by
  unfold Dev.applyCopy
  split
  · exact .each h fun h => h.stB
  · exact h.onNzm
  · exact h.onNzm
  · exact h.onNzm
  · exact .each h fun h => h.put
  · exact h.onNzm
  · exact h.onHead
  · exact h.onHead
  · exact .each h fun h => h.wrN
  · exact { h with act := foldl_act_wf h.act }
  · exact .each h fun h => h.onHead
  · exact h.onPos
  · exact h.onLmp
  · exact h.onLmp
  · exact h.onNzm
  · exact h.onNzm
  · exact h

protected theorem copyEnd {e} (h : d.Form) : (d.copyEnd e).Form := by
  unfold Dev.copyEnd
  exact .followEnd <| .put <| .setEpoch <| .each h.onItk.onTwn.put.put64 fun h => h.setLastZseq.syncLive

/-! ### Loader (Machine/Loader.lean) -/

protected theorem slotHeader {s} (h : d.Form) : (d.slotHeader s).Form := by
  unfold Dev.slotHeader
  exact h.wrN

protected theorem configFail {st} (h : d.Form) : (d.configFail st).Form := h.wrN.enter.speed

protected theorem resetIslands (h : d.Form) : d.resetIslands.Form := by
  unfold Dev.resetIslands
  extract_lets keep d1 d2 d3
  have h1 : d1.Form := ⟨h.mem, h.flash, spWf_filter _ _ _ _ h.regs, rfl, h.time⟩
  exact h1.rest.onCfg.onCfg.put

protected theorem slotFail {s r} (h : d.Form) : (d.slotFail s r).Form := by
  unfold Dev.slotFail
  exact .ite h.resetIslands.slotShow.configFail h.resetIslands.slotShow.wrN.put.enter.speed.report

protected theorem writeBack {b x} (h : d.Form) : (d.writeBack b x).Form := by
  unfold Dev.writeBack
  split
  · exact h.regStore
  · exact h

protected theorem runList {b body ix l saved} (h : d.Form) : (d.runList b body ix l saved).2.Form := by
  induction l generalizing d saved with
  | nil => exact h
  | cons k l ih =>
    have undo {d : Dev} (h : d.Form) : (d.each saved fun d x => d.writeBack b x).Form := .each h fun h => h.writeBack
    unfold Dev.runList
    exact .ite_snd (.mk_snd (undo h)) <| .ite_snd (.ite_snd (ih h) (.mk_snd h.onCfg)) <|
      .ite_snd (.mk_snd (undo h.busW)) (ih h.busW)

protected theorem listRecord {b body ix} (h : d.Form) : (d.listRecord b body ix).2.Form := .ite_snd h h.runList

protected theorem recordOf {lenient ix e b} (h : d.Form) : (d.recordOf lenient ix e b).2.Form :=
  .ite_snd h.listRecord <|
  .ite_snd (.ite_snd (.mk_snd h.logEvent) h.keyRecord) <|
  .ite_snd h.claimsRecord <|
  .ite_snd h.geoRecord <|
  .ite_snd h.trustedRecord <|
  .ite_snd h.fwRecord <|
  .ite_snd (.ite_snd (.mk_snd h.stateRecord.onCfg) h.stateRecord) <|
  .ite_snd h.transferRecord <|
  .ite_snd h.tempRecord <| .ite_snd h.feedRecord <| .ite_snd h.blendRecord <| .ite_snd h.fontRecord h.lampRecord

protected theorem recordEnd {lenient e} {p : Nat × Dev} (h : p.2.Form) : (Dev.recordEnd lenient e p).2.Form :=
  .ite_snd h <| .mk_snd h.disable.logEvent

protected theorem loadEntry {lenient e ix} (h : d.Form) : (d.loadEntry lenient e ix).2.Form :=
  .ite_snd h <| .ite_snd (.ite_snd h <| .mk_snd h.logEvent) <| .ite_snd h <| .recordEnd <| .ite_snd h h.recordOf

protected theorem loadEntries {lenient l} (h : d.Form) : (Dev.loadEntries lenient l d).2.2.Form := by
  induction l generalizing d with
  | nil => exact h
  | cons x l ih =>
    unfold Dev.loadEntries
    extract_lets q
    split
    · exact ih h.loadEntry
    · exact h.loadEntry

protected theorem loadOnDie {l} (h : d.Form) : (d.loadOnDie l).Form := by
  unfold Dev.loadOnDie
  exact .ite h.loadEntries <| .ite h.loadEntries.slotFail h.loadEntries.onCfg

protected theorem clearMarker (h : d.Form) : d.clearMarker.Form := by
  unfold Dev.clearMarker
  exact .when h fun h => h.mwr.put

protected theorem impSettle {fonts} (h : d.Form) : (d.impSettle fonts).2.Form := by
  unfold Dev.impSettle
  exact .ite_snd h <| .ite_snd h <| .mk_snd <| .each (.each h fun h => h.put.logEvent) fun h => h.tplDisable.logEvent

protected theorem srcSettle (h : d.Form) : d.srcSettle.2.Form := by
  unfold Dev.srcSettle
  exact .ite_snd h <| .ite_snd h <| .mk_snd <| .each h fun h => h.put.logEvent

protected theorem firstSets (h : d.Form) : d.firstSets.Form := by
  unfold Dev.firstSets
  exact
    .each (.each (.each (.onLmp <| .each (.each h fun h => h.copyAct) fun h => h.copyAct) fun h => h.put) fun h => h.put) fun h => h.put

protected theorem goTraining (h : d.Form) : d.goTraining.Form := by
  unfold Dev.goTraining
  exact
    .each (.lampStart <|
       .pgfStart <|
       .ptpStart <|
       .ethStart <|
       .ite (.put <|
        .speedSafe <|
        .syncStop <|
        .enter <|
        .put <|
        .each h.firstSets fun h => h.put) <| .put <| .speedSafe <| .syncStop <| .enter <| .put <| .each h.firstSets fun h => h.put)
      fun h => h.onHead.markStale.syncCounts

protected theorem raiseFloor (h : d.Form) : d.raiseFloor.Form := by
  unfold Dev.raiseFloor
  exact h.mwr.mwr.mwr.put

protected theorem goReady (h : d.Form) : d.goReady.Form := by
  unfold Dev.goReady
  exact .when (.each (.speed <| .when h.fillBanks.enter.put.onSys.raiseFloor fun h => h.report) fun h => h.put) fun h => h.twnStart

/-! ### Harvest (Machine/Harvest.lean) -/

protected theorem mwrBytes {a l} (h : d.Form) : (d.mwrBytes a l).Form := .each h fun h => h.mwr

protected theorem hvSummary {src} (h : d.Form) : (d.hvSummary src).Form := by
  unfold Dev.hvSummary
  exact h.mwr.mwrBytes.mwrBytes.mwr.mwr

protected theorem hvDump {src} (h : d.Form) : (d.hvDump src).Form := by
  unfold Dev.hvDump
  exact .when (.each h.stBs.stBs fun h => .ite h.stBs <| .each h.stBs fun h => h.capture) fun h => h.stBs

protected theorem hvEnd {code} (h : d.Form) : (d.hvEnd code).Form := by
  unfold Dev.hvEnd
  exact
    .when (.ite (.deviceReset <|
        .onSys <|
        .put <|
        .wrN <|
        .mwr <|
        .mwr <|
        .ite h h.fresh.fresh) <|
       .ite (.deviceReset <|
        .onDmc <|
        .onSys <|
        .put <| .wrN <| .mwr <| .mwr <| .ite h h.fresh.fresh) <| .put <| .onSys <| .put <| .wrN <| .mwr <| .mwr <| .ite h h.fresh.fresh)
      fun h => h.report

/-! ### Recovery (Machine/Recovery.lean) -/

theorem recovSlot {r : Recov} {s : Nat} (h : r.dev.Form) : (r.slot s).dev.Form := by
  unfold Recov.slot
  extract_lets d d1 i fire final marked g j add r1
  have hadd {d j} (h : d.Form) : (add d j).Form := h.onItk
  split
  · dsimp only
    exact .onItk (.report (.quarantine h))
  · split
    · dsimp only
      exact (hadd h).onItk
    · next rewrite _ _ =>
      refine .when (.when (hadd ?_) fun h => h.report) fun h => h.report
      cases rewrite
      · exact h
      · exact h.writeFinal

theorem recovSlots {l : List Nat} {r : Recov} (h : r.dev.Form) : (l.foldl Recov.slot r).dev.Form := by
  induction l generalizing r with
  | nil => exact h
  | cons s l ih => exact ih (recovSlot h)

protected theorem recover (h : d.Form) : d.recover.Form := by
  unfold Dev.recover
  extract_lets w g0 badMarks used d0 r d1 d2 d3
  have h0 : d0.Form := .onItk <| .when h.put fun h => h.report
  have hr : r.dev.Form := recovSlots h0
  have h2 : d2.Form := .each hr.mwrs.put64 fun h => h.setLastZseq.syncLive
  exact h2.put.put.put.put.lowCheck

/-! ### Commands

A command whose proof takes more than a line has a lemma of its own; `exec_form` then names one proof per command. -/

/-- A command that is an effect on the device keeps the form as the effect does. -/
protected theorem upd {s t : State} {f : Dev → Dev} (ht : s.upd f = .next t) (h : s.dev.Form)
    (hf : ∀ {d}, d.Form → (f d).Form) : t.dev.Form := by
  cases ht
  exact (hf h).margins.settle

theorem execHartWatchdogExpiry_form {s t : State} (h : s.dev.Form)
    (ht : execHartWatchdogExpiry s = .next t) : t.dev.Form :=
  .upd ht h fun h => .when h fun h => .ite h.atTime.report.onSys.put <| .ite h.atTime.report.onSys.ctlReset h.atTime.report.onSys

theorem execSafBootComplete_form {ok} {s t : State} (h : s.dev.Form)
    (ht : execSafBootComplete ok s = .next t) : t.dev.Form :=
  .upd ht h fun h =>
    .ite h <|
    .ite h.onSys <|
    .ite (.configFail <|
     .onCfg <|
     .slotHeader <|
     .slotHeader <|
     .enter <|
     .put <|
     .wrN <|
     .when h.put
       fun h => h.report) <|
    .onCfg <| .slotHeader <| .slotHeader <| .enter <| .put <| .wrN <| .when h.put fun h => h.report

theorem execSlotCheck_form {same} {s t : State} (h : s.dev.Form) (ht : execSlotCheck same s = .next t) : t.dev.Form :=
  .upd ht h fun h =>
    .when h
      fun h => by
        split
        · exact h
        · exact .ite h.onCfg.put.put.slotFail h.onCfg.put.put.slotShow.put.put.put.put.onCfg.clearMarker.enter.loadOnDie

theorem execRegisterListPoll_form {timeout} {s t : State} (h : s.dev.Form)
    (ht : execRegisterListPoll timeout s = .next t) : t.dev.Form :=
  .upd ht h fun h => by
    split
    · exact h
    · exact .ite h <|
        .ite h <|
        .ite (.recordEnd <|
         .ite_snd h.onCfg.runList <|
         .mk_snd <|
         .each h.onCfg
           fun h => h.writeBack) <|
        .ite (.slotFail <|
         .recordEnd <|
         .ite_snd h.onCfg.runList <|
         .mk_snd <|
         .each h.onCfg
           fun h => h.writeBack) <|
        .loadOnDie <| .recordEnd <| .ite_snd h.onCfg.runList <| .mk_snd <| .each h.onCfg fun h => h.writeBack

theorem execTrainingComplete_form {failed} {s t : State} (h : s.dev.Form)
    (ht : execTrainingComplete failed s = .next t) : t.dev.Form :=
  .upd ht h fun h =>
    .when h
      fun h =>
        .ite h.put.put.report <|
        .ite h.put.put.loadEntries.slotFail <|
        .ite h.put.put.loadEntries.impSettle.slotFail h.put.put.loadEntries.impSettle.onSys.enter.put

theorem execJnlRead_form {n} {s t : State} (h : s.dev.Form) (ht : execJnlRead n s = .next t) : t.dev.Form :=
  .upd ht h fun h =>
    .mbxServe h fun h => .ite_snd h.mbxStatus <| by split; exacts [h.mbxStatus, .ite_snd h.quarantine.report.mbxStatus h]

theorem execUpdOpen_form {n} {s t : State} (h : s.dev.Form) (ht : execUpdOpen n s = .next t) : t.dev.Form :=
  .upd ht h fun h => .mbxServe h fun {d} h => by
    extract_lets slot len sq fl st base d1
    have h1 : d1.Form := { h with flash := spWf_filter _ _ _ _ h.flash }
    exact .ite_snd h.mbxStatus h1.onCfg.put.mbxStatus

theorem execUpdData_form {n} {s t : State} (h : s.dev.Form) (ht : execUpdData n s = .next t) : t.dev.Form :=
  .upd ht h fun h =>
    .mbxServe h
      fun h => by
        extract_lets
        split
        · exact h.mbxStatus
        · exact .ite_snd h.mbxStatus <| .ite_snd h.mbxStatus <| by
              split
              · exact h.mbxStatus
              · exact .ite_snd h.mbxStatus <| .ite_snd h.mbxStatus <| .mk_snd h.onCfg

theorem execUpdClose_form {n} {s t : State} (h : s.dev.Form) (ht : execUpdClose n s = .next t) : t.dev.Form :=
  .upd ht h fun h =>
    .mbxServe h
      fun h => by
        split
        · exact h.mbxStatus
        · exact .ite_snd h.mbxStatus <| .ite_snd h.mbxStatus h.updWrite.updWrite.onCfg.put.mbxStatus

theorem execQueuedMessageSend_form {n} {s t : State} (h : s.dev.Form)
    (ht : execQueuedMessageSend n s = .next t) : t.dev.Form :=
  .upd ht h fun h => by
    extract_lets
    split
    · exact h
    · exact .ite h h.updSess.put.wire

theorem execItemStaged_form {id} {s t : State} (h : s.dev.Form) (ht : execItemStaged id s = .next t) : t.dev.Form :=
  .upd ht h fun h => by
    split
    · exact h
    · split
      · exact h
      · exact .ite h <| .ite h.updItem.stgMark <| .finalise <| .put <| .each h fun h => h.incSat

theorem execItemBind_form {id} {s t : State} (h : s.dev.Form) (ht : execItemBind id s = .next t) : t.dev.Form :=
  .upd ht h fun h => by
    split
    · exact h
    · exact .ite h <| .ite h.bindAt <| .ite (.ite h.bindAt h.bindAt) h.bindAt

theorem execInputRingFetch_form {hg k ecc} {s t : State} (h : s.dev.Form)
    (ht : execInputRingFetch hg k ecc s = .next t) : t.dev.Form :=
  .upd ht h fun h => by
    extract_lets
    split
    · exact h
    · exact .ite h.brdBreach <| .ite h.onOpen h

theorem execDjobComplete_form {s t : State} (h : s.dev.Form) (ht : execDjobComplete s = .next t) : t.dev.Form :=
  .upd ht h fun h =>
    .ite h <| by
      split
      split
      · exact h.djobEnd
      · exact h.djobBands.djobEnd

theorem execBrcBlockVerify_form {coded fail} {s t : State} (h : s.dev.Form)
    (ht : execBrcBlockVerify coded fail s = .next t) : t.dev.Form :=
  .upd ht h fun h => by
    split
    · exact h
    · exact .ite h <| .ite h.brcEnd.report <| by
          extract_lets
          split
          exact .ite (.report <|
           .brcEnd <|
           .when h
             fun h => h.incSat.put.report) <|
          .ite (.brcEnd <|
           .onRas <|
           .ringWrite <|
           .when h
             fun h => h.incSat.put.report) <| .brcSync <| .onRas <| .ringWrite <| .when h fun h => h.incSat.put.report

theorem execAssembleLine_form {row zone err} {s t : State} (h : s.dev.Form)
    (ht : execAssembleLine row zone err s = .next t) : t.dev.Form :=
  .upd ht h fun h =>
    .ite h <| .ite h.stopFull <| by
      split
      · exact h.assemblePattern
      · exact .ite h.lineError.assembleItem h.assembleItem
      · exact h

theorem execImpItemRender_form {err} {s t : State} (h : s.dev.Form)
    (ht : execImpItemRender err s = .next t) : t.dev.Form :=
  .upd ht h fun h => by
    extract_lets
    split
    · split
      · exact h.impPurge
      · split
        · exact h.impPurge
        · exact .ite h.impPurge.impNoFields.impPurge <| by split; exacts [h.impPurge, h.impPurge.impBegin]
    · exact h.impPurge

theorem execMacResult_form {err} {s t : State} (h : s.dev.Form) (ht : execMacResult err s = .next t) : t.dev.Form :=
  .upd ht h fun h => by
    extract_lets d
    have hd : d.Form := h.impPurge
    split
    · exact hd
    · refine .ite hd ?_
      extract_lets left
      cases left with
      | nil => exact hd.impFinish
      | cons x r => exact .ite hd.impFail <| .ite hd.onRas.impFinish hd.onRas

theorem execFieldStoreRoom_form {err} {s t : State} (h : s.dev.Form)
    (ht : execFieldStoreRoom err s = .next t) : t.dev.Form :=
  .upd ht h fun h => by
    extract_lets
    split
    · exact h.impPurge
    · exact .ite h.impPurge.impFinish h.impPurge

theorem execRakeSweep_form {hg eccHead} {s t : State} (h : s.dev.Form)
    (ht : execRakeSweep hg eccHead s = .next t) : t.dev.Form :=
  .upd ht h fun h =>
    .syncSettling <|
    .put <|
    .put <|
    .each (by split; exacts [h.put.onNzm.put.report, h.put])
      fun h =>
        .ite (.each h fun h => h.onNzm) <| .satCheck <| .each (.when (.ite h.onNzm h) fun h => h.put) fun h => h.onNzm

theorem execPb4Analysis_form {failed ratios} {s t : State} (h : s.dev.Form)
    (ht : execPb4Analysis failed ratios s = .next t) : t.dev.Form :=
  .upd ht h fun h =>
    .ite h <|
    .put <|
    .put <|
    .onNzm <|
    .each (.each (.each (.each (.each h fun h => h.takeChange) fun h => h.takeChange)
            fun h => by split; exacts [h.correct, h])
         fun h => h.put)
      fun h => .ite h.clrBit h.clrBit

theorem execEncoderCount_form {enc a b t0} {s t : State} (h : s.dev.Form)
    (ht : execEncoderCount enc a b t0 s = .next t) : t.dev.Form :=
  .upd ht h fun h =>
    .ite h.posAt.onEnc <| by
      extract_lets
      split
      · exact h.posAt.onEnc
      · exact h.posAt.onEnc.encCount
      · exact h.posAt.onEnc.incSat.put.report

theorem execEncoderStill_form {enc t0} {s t : State} (h : s.dev.Form)
    (ht : execEncoderStill enc t0 s = .next t) : t.dev.Form :=
  .upd ht h fun h => by
    extract_lets
    split
    · exact h.posAt
    · exact .when h.posAt fun h => h.put.put.onEnc

theorem execPrintGoEdge_form {input rising full t0} {s t : State} (h : s.dev.Form)
    (ht : execPrintGoEdge input rising full t0 s = .next t) : t.dev.Form :=
  .upd ht h fun h =>
    .ite h.posAt <|
    .ite h.posAt.incWrap <|
    .ite h.posAt.incWrap.incSat <| .ite h.posAt.incWrap.onPos.incSat.put.report h.posAt.incWrap.onPos.takeEdge

theorem execRejectPulseStart_form {o t0} {s t : State} (h : s.dev.Form)
    (ht : execRejectPulseStart o t0 s = .next t) : t.dev.Form :=
  .upd ht h fun h => by
    extract_lets
    split
    · exact h.posAt
    · exact .ite h.posAt h.posAt.onRej.put.rejPulse.emit

theorem execFireInstant_form {h0 t0} {s t : State} (h : s.dev.Form)
    (ht : execFireInstant h0 t0 s = .next t) : t.dev.Form :=
  .upd ht h fun h =>
    .ite h.posAt <| by
      split
      · exact .ite h.posAt.fireEvent h.posAt
      · split
        · exact h.posAt
        · exact .when h.posAt fun h => .lateLine <| .each h fun h => h.onHead

theorem execFrameStart_form {lane t0 ecc} {s t : State} (h : s.dev.Form)
    (ht : execFrameStart lane t0 ecc s = .next t) : t.dev.Form :=
  .upd ht h fun h =>
    .ite h.posAt <| by
      split
      · exact h.posAt
      · split
        · exact h.posAt
        · extract_lets
          split
          · exact .ite h.posAt.onHead.put.lateLine h.posAt
          · exact .sendFrame <| .ite h.posAt.onHead.put.lateLine h.posAt

theorem execFireBlockSend_form {h0 slot} {s t : State} (h : s.dev.Form)
    (ht : execFireBlockSend h0 slot s = .next t) : t.dev.Form :=
  .upd ht h fun h => by
    extract_lets
    split
    · exact h.atTime
    · split
      · exact .syncLevel <| .when (.onHead <| .when h.atTime fun h => h.hlkSend) fun h => h.incSat.put.report
      · exact h.atTime

theorem execHelloUp_form {lane good ver heads bufev fixns turnns} {s t : State} (h : s.dev.Form)
    (ht : execHelloUp lane good ver heads bufev fixns turnns s = .next t) : t.dev.Form :=
  .upd ht h fun h =>
    .upstream h
      fun h =>
        .ite h <| .ite h.laneAbort <| .ite h.put.put.put.put.onLane h.put.put.put.put.put.onLane.laneState.put.linkFault

theorem execFiredUp_form {lane good head evseq status} {s t : State} (h : s.dev.Form)
    (ht : execFiredUp lane good head evseq status s = .next t) : t.dev.Form :=
  .upd ht h fun h =>
    .upstream h
      fun h => by
        extract_lets
        split
        · exact h
        · exact .ite h.onHead.put <| .ite h.onHead h.onHead.missEvent

theorem execEchoWindowEnd_form {lane} {s t : State} (h : s.dev.Form)
    (ht : execEchoWindowEnd lane s = .next t) : t.dev.Form :=
  .upd ht h fun h => .ite h <| by
    extract_lets
    split
    next heq =>
    have h1 := Dev.Form.of_snd (by split; exacts [h, h.fresh]) heq
    exact .laneState <| .each h1.put.hlkSend.onLane fun h => h.put.onHead.markStale

theorem execHeadTempStale_form {h0} {s t : State} (h : s.dev.Form)
    (ht : execHeadTempStale h0 s = .next t) : t.dev.Form :=
  .upd ht h fun h => .ite h <| by
    extract_lets t0
    cases t0 with
    | none => exact h
    | some t0 => exact h.atTime.markStale.put.report

theorem execCsiLine_form {port vc dt payload crcOk cor} {s t : State} (h : s.dev.Form)
    (ht : execCsiLine port vc dt payload crcOk cor s = .next t) : t.dev.Form :=
  .upd ht h fun h =>
    .ite h <| by
      extract_lets
      split
      · exact .when (.when h fun h => h.incSat) fun h => h.incSat
      · split
        · exact .when h fun h => h.incSat
        · exact .ite (.onFrame <|
             .onFrame <| .when h fun h => h.incSat) <| .placeLine <| .onFrame <| .when h fun h => h.incSat

theorem execTileLine_form {tile line shape lcrcOk px} {s t : State} (h : s.dev.Form)
    (ht : execTileLine tile line shape lcrcOk px s = .next t) : t.dev.Form :=
  .upd ht h fun h =>
    .ite h <| by
      split
      · exact h.incSat
      · exact .ite (.closeTile <| .onSrc <| .when h fun h => h.incSat) <| .onSrc <| .when h fun h => h.incSat

theorem execTriggerDue_form {k t0} {s t : State} (h : s.dev.Form) (ht : execTriggerDue k t0 s = .next t) : t.dev.Form :=
  .upd ht h fun h =>
    .ite h.posAt <|
    .ite (.report <| .put <| .incSat <| .when h.posAt.onGen fun h => .each h fun h => h.skipSource) h.posAt.issueTrig

theorem execLineGrant_form {err} {s t : State} (h : s.dev.Form) (ht : execLineGrant err s = .next t) : t.dev.Form :=
  .upd ht h fun h => by
    split
    · exact h
    · extract_lets
      split
      · exact h.onCam
      · exact .ite h.onCam.onSrc.syncBuf.dropFrame <|
          .ite h.onCam.onSrc.syncBuf.discardFrame.onVis.put.report h.onCam.onSrc.syncBuf.visLine

theorem execExpectedFold_form {ecc} {s t : State} (h : s.dev.Form)
    (ht : execExpectedFold ecc s = .next t) : t.dev.Form :=
  .upd ht h fun h => by
    extract_lets
    split
    · exact h.onFir
    · exact .completeAll <| by
          split
          · exact .each h.onFir fun h => .each h fun h => h.voidLine
          · exact .each (.when (.each h.onFir fun h => .each h fun h => h.voidLine) fun h => h.put.report)
                fun h => h.foldLine

theorem execInspectionWindow_form {room} {s t : State} (h : s.dev.Form)
    (ht : execInspectionWindow room s = .next t) : t.dev.Form :=
  .upd ht h fun h => by
    split
    · refine .ite h ?_
      extract_lets n mine d1
      have h1 : d1.Form := h.onIns.completeAll
      split
      · exact h1.voidWindow
      · split
        next heq =>
        have h2 := (Dev.Form.ite_fst (.mk_fst h1) h1.register).of_fst heq
        exact .ite (.ite h2.voidWindow h2.voidWindow.onIns.completeItems) h2.onIns.goodWindow.onIns.completeItems
    · exact h

theorem execLampFrame_form {c sts ecc} {s t : State} (h : s.dev.Form)
    (ht : execLampFrame c sts ecc s = .next t) : t.dev.Form :=
  .upd ht h fun h =>
    .ite (by split; exacts [h, h.onStr.put.report]) <|
    .ite (.safeFrame <| by split; exacts [h, h.onStr.put.report]) <|
    .when (.ite (.compose <|
        .onLch <|
        .ite (.latch <|
         .ite (.foldl (by split; exacts [h, h.onStr.put.report])
          fun h =>
            .ite h.boardStatus h) <|
         .ite (.bringUp <|
          .onLch <| by split; exacts [h, h.onStr.put.report]) <| by split; exacts [h, h.onStr.put.report]) <|
        .ite (.foldl (by split; exacts [h, h.onStr.put.report])
         fun h =>
           .ite h.boardStatus h) <|
        .ite (.bringUp <|
         .onLch <| by split; exacts [h, h.onStr.put.report]) <| by split; exacts [h, h.onStr.put.report]) <|
       .ite (.onLch <|
        .onLch <|
        .ite (.latch <|
         .ite (.foldl (by split; exacts [h, h.onStr.put.report])
          fun h =>
            .ite h.boardStatus h) <|
         .ite (.bringUp <|
          .onLch <| by split; exacts [h, h.onStr.put.report]) <| by split; exacts [h, h.onStr.put.report]) <|
        .ite (.foldl (by split; exacts [h, h.onStr.put.report])
         fun h =>
           .ite h.boardStatus h) <|
        .ite (.bringUp <|
         .onLch <| by split; exacts [h, h.onStr.put.report]) <| by split; exacts [h, h.onStr.put.report]) <|
       .ite (.onLch <|
        .onLch <|
        .ite (.latch <|
         .ite (.foldl (by split; exacts [h, h.onStr.put.report])
          fun h =>
            .ite h.boardStatus h) <|
         .ite (.bringUp <|
          .onLch <| by split; exacts [h, h.onStr.put.report]) <| by split; exacts [h, h.onStr.put.report]) <|
        .ite (.foldl (by split; exacts [h, h.onStr.put.report])
         fun h =>
           .ite h.boardStatus h) <|
        .ite (.bringUp <|
         .onLch <| by split; exacts [h, h.onStr.put.report]) <| by split; exacts [h, h.onStr.put.report]) <|
       .onLch <|
       .onLch <|
       .ite (.latch <|
        .ite (.foldl (by split; exacts [h, h.onStr.put.report])
         fun h =>
           .ite h.boardStatus h) <|
        .ite (.bringUp <|
         .onLch <| by split; exacts [h, h.onStr.put.report]) <| by split; exacts [h, h.onStr.put.report]) <|
       .ite (.foldl (by split; exacts [h, h.onStr.put.report])
        fun h =>
          .ite h.boardStatus h) <|
       .ite (.bringUp <| .onLch <| by split; exacts [h, h.onStr.put.report]) <| by split; exacts [h, h.onStr.put.report])
      fun h => h.emit

theorem execLampStrobe_form {c t0 late} {s t : State} (h : s.dev.Form)
    (ht : execLampStrobe c t0 late s = .next t) : t.dev.Form :=
  .upd ht h fun h => by
    split
    · exact h
    · exact .ite h <| .ite h.onLch <| by
          extract_lets
          split
          · exact .onLch <| .when h.onLch fun h => h.incSat
          · exact .when (.onLch <| .when h.onLch fun h => h.incSat) fun h => h.emit

theorem execLampStrobeEnd_form {c t0} {s t : State} (h : s.dev.Form)
    (ht : execLampStrobeEnd c t0 s = .next t) : t.dev.Form :=
  .upd ht h fun h => by
    split
    · exact h
    · exact .ite h <| .when (.each h.onLch fun h => h.pulse) fun h => h.emit

theorem execDiagPeriodEnd_form {c b k} {s t : State} (h : s.dev.Form)
    (ht : execDiagPeriodEnd c b k s = .next t) : t.dev.Form :=
  .upd ht h fun h => .ite h <| .ite h.onStr <| .ite (.when h.onStr fun h => h.onLch) <| .when h.onStr.onStr.put fun h => h.report

theorem execTwnHello_form {role side last epoch seq tag gen} {s t : State} (h : s.dev.Form)
    (ht : execTwnHello role side last epoch seq tag gen s = .next t) : t.dev.Form :=
  .upd ht h fun h =>
    .twRecv h
      fun h =>
        .ite (.formPair <|
         .peerRole <| .ite h.onTwn h.onTwn.put.put) <| .autoRejoin <| .peerRole <| .ite h.onTwn h.onTwn.put.put

theorem execJrec_form {slot rec} {s t : State} (h : s.dev.Form) (ht : execJrec slot rec s = .next t) : t.dev.Form :=
  .upd ht h fun h =>
    .twRecv h
      fun h =>
        .when h
          fun h =>
            .ite h.put64.writeRecord.quarantine.sendJack h.put64.writeRecord.setLastZseq.onItk.syncLive.ensurePage.sendJack

theorem execJfin_form {slot final} {s t : State} (h : s.dev.Form) (ht : execJfin slot final s = .next t) : t.dev.Form :=
  .upd ht h fun h =>
    .twRecv h
      fun h =>
        .when h
          fun h => by
            split
            · exact h.writeFinal.sendJack
            · exact .followEnd <|
                .sendJack <| .when (.when h.updItem.finaliseHere fun h => h.onFir.closeBlocks) fun h => h.onItk

theorem execJret_form {slots} {s t : State} (h : s.dev.Form) (ht : execJret slots s = .next t) : t.dev.Form :=
  .upd ht h fun h => .twRecv h fun h => .when h fun h => .followEnd <| .each h fun h => by split; exacts [h.retire, h.setUse]

theorem execTwnCopy_form {c} {s t : State} (h : s.dev.Form) (ht : execTwnCopy c s = .next t) : t.dev.Form :=
  .upd ht h fun h =>
    .twRecv h
      fun h =>
        .when h fun h => .ite (.copyEnd <| .when h fun h => h.copyClear) <| .applyCopy <| .when h fun h => h.copyClear

theorem execTwinLinkSilent_form {s t : State} (h : s.dev.Form) (ht : execTwinLinkSilent s = .next t) : t.dev.Form :=
  .upd ht h fun h =>
    .ite h <|
    .ite h.onTwn.put.put.report.fence <|
    .ite h.onTwn.put.put.report.partnerLost <| .when h.onTwn.put.put.report fun h => h.put

theorem execPgfHello_form {p rx} {s t : State} (h : s.dev.Form) (ht : execPgfHello p rx s = .next t) : t.dev.Form :=
  .upd ht h fun h =>
    .pgfRx h
      fun h =>
        .ite h <|
        .ite (.fabort <|
         .put <|
         .each h
           fun h => h.wrN) <|
        .ite (.fabort <|
         .put <|
         .each h
           fun h => h.wrN) <|
        .ite (.fabort <|
         .put <|
         .each h
           fun h => h.wrN) <|
        .ite (.fabLink <|
         .onFport <| .onFport <| .put <| .each h fun h => h.wrN) <| .fup <| .onFport <| .put <| .each h fun h => h.wrN

theorem execAddrgrant_form {p rx} {s t : State} (h : s.dev.Form) (ht : execAddrgrant p rx s = .next t) : t.dev.Form :=
  .upd ht h fun h =>
    .pgfRx h
      fun h =>
        .ite (.each (.when h fun h => h.put)
           fun h =>
             .when h
               fun h => h.put) <|
        .ite (.takeAddr <|
         .each (.when h fun h => h.put)
           fun h =>
             .when h
               fun h => h.put) <|
        .report <| .put <| .put <| .each (.when h fun h => h.put) fun h => .when h fun h => h.put

theorem execPgfPacketSend_form {p t0} {s t : State} (h : s.dev.Form)
    (ht : execPgfPacketSend p t0 s = .next t) : t.dev.Form :=
  .upd ht h fun h => by
    extract_lets
    split
    · split
      · exact h.atTime.onFport
      · exact h.atTime.onFport.incSat.putPkt
    · split
      · exact h.atTime
      · exact h.atTime.onFport.putPkt

theorem execRouteCompute_form {s t : State} (h : s.dev.Form) (ht : execRouteCompute s = .next t) : t.dev.Form :=
  .upd ht h fun h => .ite h <| .when (.each h.onPgf fun h => .ite h.takeTable <| .each h fun h => h.fabBroadcast) fun h => h.report

theorem execTxFrameDone_form {p pcs err} {s t : State} (h : s.dev.Form)
    (ht : execTxFrameDone p pcs err s = .next t) : t.dev.Form :=
  .upd ht h fun h =>
    .ite h.atTime.txGo <|
    .ite h.atTime.txGo.txBack.txGo <|
    .txGo <| .txBack <| .when (.ite_fst h.atTime.txGo.ethSend.pushTxts <| .mk_fst h.atTime.txGo.ethSend) fun h => h.st

theorem execPtpSync_form {p h0 twoStep t1 pcs} {s t : State} (h : s.dev.Form)
    (ht : execPtpSync p h0 twoStep t1 pcs s = .next t) : t.dev.Form :=
  .upd ht h fun h =>
    .ite (.when h.atTime
       fun h => h.ethGood) <|
    .ite (.onPport <|
     .onPport <|
     .incWrap <|
     .when h.atTime fun h => h.ethGood) <| .takeSync <| .onPport <| .incWrap <| .when h.atTime fun h => h.ethGood

theorem execFollowUp_form {p h0 t1} {s t : State} (h : s.dev.Form)
    (ht : execFollowUp p h0 t1 s = .next t) : t.dev.Form :=
  .upd ht h fun h =>
    .ite (.when h fun h => h.ethGood) <| by
      split
      · exact .when h fun h => h.ethGood
      · exact .ite (.takeSync <| .when h fun h => h.ethGood) <| .when h fun h => h.ethGood

theorem execDelayResp_form {p h0 req t4} {s t : State} (h : s.dev.Form)
    (ht : execDelayResp p h0 req t4 s = .next t) : t.dev.Form :=
  .upd ht h fun h =>
    .ite (.when h fun h => h.ethGood) <| by
      split
      · exact .ite (.onPport <| .setDelay <| .when h fun h => h.ethGood) <| .when h fun h => h.ethGood
      · exact .when h fun h => h.ethGood

theorem execPdelayResp_form {p h0 req twoStep t2 pcs} {s t : State} (h : s.dev.Form)
    (ht : execPdelayResp p h0 req twoStep t2 pcs s = .next t) : t.dev.Form :=
  .upd ht h fun h =>
    .ite (.when h.atTime fun h => h.ethGood) <| by
      split
      · exact .when h.atTime fun h => h.ethGood
      · exact .ite (.when h.atTime
             fun h => h.ethGood) <|
          .ite (.onPport <|
           .when h.atTime fun h => h.ethGood) <| .onPport <| .setDelay <| .when h.atTime fun h => h.ethGood

theorem execPdelayRespFollowUp_form {p h0 req t3} {s t : State} (h : s.dev.Form)
    (ht : execPdelayRespFollowUp p h0 req t3 s = .next t) : t.dev.Form :=
  .upd ht h fun h =>
    .ite (.when h fun h => h.ethGood) <| by
      split
      · exact .ite (.onPport <| .setDelay <| .when h fun h => h.ethGood) <| .when h fun h => h.ethGood
      · exact .when h fun h => h.ethGood

theorem execPtpSendTimer_form {p kind tx} {s t : State} (h : s.dev.Form)
    (ht : execPtpSendTimer p kind tx s = .next t) : t.dev.Form :=
  .upd ht h fun h =>
    .ite (.when h.atTime
       fun h => h.setPstate) <|
    .ite (.when (.when h.atTime fun h => h.setPstate)
       fun h =>
         .ite h.onPport.ethSend h.onPport.ethSend.ethSend) <|
    .ite (.when (.when h.atTime fun h => h.setPstate)
       fun h => h.ethSend.onPport) <| .when (.when h.atTime fun h => h.setPstate) fun h => h.ethSend.onPport

theorem execDramRetrainDone_form {fail} {s t : State} (h : s.dev.Form)
    (ht : execDramRetrainDone fail s = .next t) : t.dev.Form :=
  .upd ht h fun h =>
    .ite h <| by
      extract_lets
      split
      · exact .ite (.when h.put
             fun h => h.put.report) <|
          .ite (.freqEnd <| .when h.put fun h => h.put.report) <| .put <| .when h.put fun h => h.put.report
      · exact .when h.put fun h => h.put.report

theorem execFreqChangeDone_form {relock} {s t : State} (h : s.dev.Form)
    (ht : execFreqChangeDone relock s = .next t) : t.dev.Form :=
  .upd ht h fun h => by
    split
    · exact h
    · exact .ite h <| .ite h.put.freqEnd h.fresh.fresh.put.freqEnd.report

theorem execDmaDescriptorFetch_form {err} {s t : State} (h : s.dev.Form)
    (ht : execDmaDescriptorFetch err s = .next t) : t.dev.Form :=
  .upd ht h fun h =>
    .ite h <| by
      extract_lets
      split
      · exact .each h fun h => .when h fun h => h.put
      · exact .ite (.dmaStop <|
           .each h
             fun h =>
               .when h
                 fun h => h.put) <|
          .ite (.each h
             fun h =>
               .when h
                 fun h => h.put) <|
          .ite (.dmaStop <|
           .dmaBack <|
           .each h
             fun h =>
               .when h
                 fun h => h.put) <|
          .ite (.onDma <|
           .each h
             fun h => .when h fun h => h.put) <| .dmaBusy <| .put <| .onDma <| .each h fun h => .when h fun h => h.put

theorem execDmaWriteback_form {s t : State} (h : s.dev.Form) (ht : execDmaWriteback s = .next t) : t.dev.Form :=
  .upd ht h fun h => by
    split
    · exact h
    · exact .ite h.dmaData.stBs.dmaBack.dmaStop.dmaGoOn h.dmaData.stBs.dmaBack.dmaGoOn

theorem execDmaBusError_form {kind count} {s t : State} (h : s.dev.Form)
    (ht : execDmaBusError kind count s = .next t) : t.dev.Form :=
  .upd ht h fun h =>
    .ite (by split; exacts [h, h.dmaData.freeBytes.stBs.dmaBack.dmaStop.dmaGoOn]) <| by
      extract_lets
      split
      · exact .when (.when h fun h => h.put.report) fun h => h.dmaStopAll
      · exact .dmaStopAll <| .dmaBusy <| .onDma <| .dmaBack <| .stBs <| .freeBytes <| .when h fun h => h.put.report

theorem execFaultReport_form {reports damaged} {s t : State} (h : s.dev.Form)
    (ht : execFaultReport reports damaged s = .next t) : t.dev.Form :=
  .upd ht h fun h => by
    extract_lets
    split
    · exact .each h fun h => h.report
    · exact .report <| .each (.each h fun h => h.report) fun h => h.wrN

theorem execSeverityCheck_form {copies words} {s t : State} (h : s.dev.Form)
    (ht : execSeverityCheck copies words s = .next t) : t.dev.Form :=
  .upd ht h fun h =>
    .syncStop <| .when (.each (.each (.each h fun h => h.put) fun h => h.setBit) fun h => h.react) fun h => h.report

theorem execHarvest_form {err} {s t : State} (h : s.dev.Form) (ht : execHarvest err s = .next t) : t.dev.Form :=
  .upd ht h fun h => by
    split
    · exact h
    · exact .ite h <| .onSys <| .ite h.put.hvSummary <| .ite h.put.hvSummary.freeBytes.stBs h.put.hvSummary.hvDump

/-- Every command's effect on the device is made of the operations above. -/
theorem exec_form {i : Instr} {s t : State} (h : s.dev.Form) (ht : exec i s = .next t) : t.dev.Form := by
  unfold exec at ht
  cases i with
  | registerWrite => exact .upd ht h fun h => .ite h h.busWrite
  | loReadCapture => exact .upd ht h fun h => .ite h h.busR.answer
  | rejclr | sysHwdKick | sysTwdKick | softwareReset | cfgClaimGo | secErase | itkCntclr | brdDjobGo | brcGo
  | brcOutsize | rasStatclr | rasErrClear | impErrClear | nzmStatewr | calPb4req | compareArm | compareDisarm
  | firCommit | firStatclr | retrain | errclr | srdPd | srdPrbs | srdLoop | sluStatclr | trgArm | trgStop
  | camTrgCommit | camFdsize | camStatclr | visTbldata | insStatclr | lmpCommit | pgfRetrain | pgfStatclr | ethTxkick
  | ethTxtsPop | ethRingSize | ethCounterClr | ptpSnap | ptpRate | ptpStep | dmcFreq | dmcStatclr | dmcUeaddrClear
  | dmaKick | dmaReset | dmaRingSize | fltInj | fltFwraise | fltPendClear | fltSafectlExit | fltHistclr =>
    exact .upd ht h fun h => h.regWrite
  | interruptClaim => exact .upd ht h fun h => h.claimIrq
  | machineTimerExpiry => exact .upd ht h fun h => h.atTime.onSys
  | clockCheckWindow => exact .upd ht h fun h => .when h.put fun h => h.put.report
  | refclkLoss => exact .upd ht h fun h => h.onSys.report
  | powerOnReset => exact .upd ht h fun h => .ite h.deviceReset.onSys.wrN h
  | rstNAssert => exact .upd ht h fun h => .ite h.onSys h.deviceReset.onSys
  | rstNRelease | powerFailWarning => exact .upd ht h fun h => h.onSys
  | trustedWatchdogExpiry => exact .upd ht h fun h => .when h fun h => h.atTime.report
  | hartWatchdogExpiry => exact execHartWatchdogExpiry_form h ht
  | ctlReset => exact .upd ht h fun h => .when h fun h => .ite h.ctlReload.onSys h.report
  | safBootComplete => exact execSafBootComplete_form h ht
  | slotCheck => exact execSlotCheck_form h ht
  | registerListPoll => exact execRegisterListPoll_form h ht
  | configDone => exact .upd ht h fun h => .when h fun h => .ite h.slotFail h.srcSettle.impSettle.goTraining
  | trainingComplete => exact execTrainingComplete_form h ht
  | selftestComplete =>
    exact .upd ht h fun h => .when h fun h => by split; exacts [h.goReady, .ite h.report h.report.goReady]
  | startLimitExceeded | dieSensorMismatch => exact .upd ht h fun h => .when h fun h => h.report
  | journalRecovery => exact .upd ht h fun h => .when h fun h => h.recover.wrN
  | updateEraseComplete => exact .upd ht h fun h => .when h fun h => .ite h.onCfg h.updDead
  | flashWriteComplete =>
    exact .upd ht h fun h => by split; exacts [.ite h.updWrite.onCfg.mbxDone h.fresh.mbxDone.updDead, h]
  | updateCheckComplete =>
    exact .upd ht h fun h => by split; exacts [h, .ite h <| .when h.slotShow.updEnd fun h => h.report]
  | info | twnInfo => exact .upd ht h fun h => .mbxServe h fun h => h
  | devpub | keyList => exact .upd ht h fun h => .mbxServe h fun h => .ite_snd h.mbxStatus h
  | jnlRead => exact execJnlRead_form h ht
  | fltSetsev => exact .upd ht h fun h => .mbxServe h fun h => .ite_snd h.mbxStatus h.trustedWrite
  | fltInject => exact .upd ht h fun h => .mbxServe h fun h => h.trustedWrite
  | updOpen => exact execUpdOpen_form h ht
  | updData => exact execUpdData_form h ht
  | updClose => exact execUpdClose_form h ht
  | safeEnter => exact .upd ht h fun h => .mbxServe h fun h => h.enterSafe.mbxStatus
  | fuseProgKeyhash | fuseProgSlotRevoke | fuseProgZkeyRevoke =>
    exact .upd ht h fun h => .fuseServe h fun h => .ite_snd h <| .mk_snd h.onFuses
  | fuseProgDebugKill => exact .upd ht h fun h => .fuseServe h fun h => .mk_snd h.blowDebugKill
  | fuseProgRootKill => exact .upd ht h fun h => .fuseServe h fun h => .mk_snd h.blowRootKill
  | mailboxUnknown => exact .upd ht h fun h => .ite h h.mbxTake.mbxDone
  | tamperAlarm | secTempAlarm => exact .upd ht h fun h => h.alarmOn
  | meshSample => exact .upd ht h fun h => .when h.onSec fun h => h.alarmOn
  | voltageGlitch | clockGlitch => exact .upd ht h fun h => h.alarm
  | macOperation => exact .upd ht h fun h => h.emit
  | extest => exact .upd ht h fun h => h.onSec.boundary
  | samplePreload => exact .upd ht h fun h => h.onSec.onSys.emit
  | clamp | highz => exact .upd ht h fun h => h.boundary
  | devid => exact .upd ht h fun h => h.onSys.emit
  | unlock => exact .upd ht h fun h => .ite h.jtagBypass h.fresh.onSec.onSys.emit
  | unlockToken =>
    exact .upd ht h fun h => .ite h.jtagBypass <| .ite h.put.onSec.put <| .when h.put.onSec fun h => h.alarm
  | dbgApp => exact .upd ht h fun h => .ite h.jtagBypass h.onSys.emit
  | dbgReg =>
    exact .upd ht h fun h => .ite h.jtagBypass <| .ite (.ite h.st.answer h.answer) <| .ite h.busWrite h.busR.answer
  | bypass => exact .upd ht h fun h => h.jtagBypass
  | vjpMalformed => exact .upd ht h fun h => .when h fun h => h.fmtDrop
  | vjpOpen | close | ackonly | submit | vjpData | cancel | finalAck | query | zoneBase | regRead | regWrite
  | vjpUnknownType =>
    exact .upd ht h fun h => h.vjpNet
  | accept => exact .upd ht h fun h => by split; exacts [h, .ite h.accept h]
  | ackTimer => exact .upd ht h fun h => .when h fun h => h.ackOnly
  | retransmitTimer =>
    exact .upd ht h fun h => .ite h <| .ite h.atTime.endSession.put.report <| .each h.atTime.updSess fun h => h.wire
  | sessionIdle => exact .upd ht h fun h => .when h fun h => h.atTime.endSession
  | queuedMessageSend => exact execQueuedMessageSend_form h ht
  | pageFree => exact .upd ht h fun h => by split; exacts [h, .when h fun h => h.atTime.onItk]
  | itemStaged => exact execItemStaged_form h ht
  | itemBind => exact execItemBind_form h ht
  | finalSend => exact .upd ht h fun h => by split; exacts [h, .when h fun h => h.sendFinal]
  | refusalHoldExpiry => exact .upd ht h fun h => by split; exacts [h, h.atTime.onItk]
  | inputRingFetch => exact execInputRingFetch_form h ht
  | decoderInputReady => exact .upd ht h fun h => by split; exacts [h, .when h fun h => h.onOpen]
  | decoderStallEnd => exact .upd ht h fun h => .when h fun h => h.onRas.addSat
  | djobComplete => exact execDjobComplete_form h ht
  | brcBlockVerify => exact execBrcBlockVerify_form h ht
  | brcRingRoom => exact .upd ht h fun h => by split; exacts [h, .when h fun h => h.put]
  | assembleLine => exact execAssembleLine_form h ht
  | impItemRender => exact execImpItemRender_form h ht
  | macResult => exact execMacResult_form h ht
  | fieldStoreRoom => exact execFieldStoreRoom_form h ht
  | nozzleStateApply => exact .upd ht h fun h => h.lineBoundary
  | probeDelayExpiry => exact .upd ht h fun h => by split; exacts [h, .when h.atTime fun h => h.onNzm.takeChange]
  | rakeSweep => exact execRakeSweep_form h ht
  | densityReport => exact .upd ht h fun h => .when h fun h => h.densityReport
  | tempStaleTimeout => exact .upd ht h fun h => .when h fun h => h.put.report
  | pb4Run => exact .upd ht h fun h => .ite h <| .put <| .each h fun h => h.bindPattern
  | pb4Analysis => exact execPb4Analysis_form h ht
  | pb4AnalysisTimeout => exact .upd ht h fun h => .ite h h.onNzm.put.put.report
  | encoderCount => exact execEncoderCount_form h ht
  | zEdge => exact .upd ht h fun h => .when h.posAt fun h => h.put64.put
  | encoderStill => exact execEncoderStill_form h ht
  | compareMatch => exact .upd ht h fun h => .when h.posAt fun h => h.cmpMatch
  | comparePulseEnd => exact .upd ht h fun h => .when h fun h => h.driveCmp
  | printGoEdge => exact execPrintGoEdge_form h ht
  | rejectPulseStart => exact execRejectPulseStart_form h ht
  | rejectPulseEnd => exact .upd ht h fun h => .ite h.posAt h.posAt.onRej.rejSettle
  | emuOutputStep => exact .upd ht h fun h => .ite h.posAt h.posAt.onPos.wrN.put.emit.emit.emit
  | sluiceEvent => exact .upd ht h fun h => .ite h.applyDue.sluice <| .when h fun h => h.applyDue.sluice
  | fireInstant => exact execFireInstant_form h ht
  | frameStart => exact execFrameStart_form h ht
  | fireBlockSend => exact execFireBlockSend_form h ht
  | idleBlock | helloTimer => exact .upd ht h fun h => .when h fun h => h.hlkSend
  | idleUp => exact .upd ht h fun h => .upstream h fun h => .when h.wrN fun h => h.put.learnEpoch
  | helloUp => exact execHelloUp_form h ht
  | echoUp => exact .upd ht h fun h => .upstream h fun h => by split; exacts [h, .when h fun h => h.atTime.onLane]
  | firedUp => exact execFiredUp_form h ht
  | tempUp => exact .upd ht h fun h => .upstream h fun h => .ite h.onHead h.onHead.put.put.updLevel.twInput
  | nakUp => exact .upd ht h fun h => .upstream h fun h => h.incSat.laneErr.onHead
  | cmdackUp =>
    exact .upd ht h fun h => .upstream h fun h => .ite h <| .when (.when h.onFir fun h => h.put.put) fun h => h.put.put
  | faultUp => exact .upd ht h fun h => .upstream h fun h => .ite h.put h
  | firedUpTimeout => exact .upd ht h fun h => by split; exacts [h, h.atTime.onHead.missEvent]
  | hlkNop | spit | waveset | heater | headreset | boardDefinedCommand => exact .upd ht h fun h => h.headCmd
  | hlkCmdTimeout => exact .upd ht h fun h => .when h fun h => h.atTime.onFir.put.put.put
  | laneSeriesStart => exact .upd ht h fun h => .when h fun h => h.laneSeries
  | laneLock => exact .upd ht h fun h => .when h fun h => h.onLane.put.put.put
  | echoTimer => exact .upd ht h fun h => .when h fun h => h.atTime.onLane.hlkSend
  | echoWindowEnd => exact execEchoWindowEnd_form h ht
  | laneAbort => exact .upd ht h fun h => .when h fun h => h.laneAbort
  | laneBackoffEnd => exact .upd ht h fun h => .when h fun h => h.atTime.laneAttempt
  | laneDown => exact .upd ht h fun h => h.laneDown
  | lanePllLoss => exact .upd ht h fun h => .when h.put.put.put.report fun h => h.laneDown
  | dfeTapLimit | safeNShort => exact .upd ht h fun h => h.put.report
  | prbsError => exact .upd ht h fun h => .when h fun h => h.addSat.put
  | losChange | aliveRegained => exact .upd ht h fun h => .ite h h.put.put
  | eyeMonitorRefresh => exact .upd ht h fun h => h.put.put
  | lanePowerUpComplete => exact .upd ht h fun h => .when h fun h => h.put.put.put.put
  | headTempStale => exact execHeadTempStale_form h ht
  | marginRecompute => exact .upd ht h fun h => h.syncMargin
  | speedReqUpdate => exact .upd ht h fun h => .ite h <| .ite h.speed <| .onFir <| .when h.speed fun h => h.onFir
  | speedFloorTimeout => exact .upd ht h fun h => by split; exacts [h, h.atTime.report]
  | csiFrameStart => exact .upd ht h fun h => .each h fun h => .beginFrame <| by split; exacts [h.endFrame, h]
  | csiFrameEnd => exact .upd ht h fun h => .each h fun h => by split; exacts [h.endFrame, h]
  | csiLine => exact execCsiLine_form h ht
  | csiGenericShort => exact .upd ht h fun h => .when h fun h => h.incSat
  | csiHeaderError => exact .upd ht h fun h => .when h fun h => h.incSat.put.report
  | csiFrameTimeout => exact .upd ht h fun h => by split; exacts [.ite h h.atTime.endFrame, h]
  | deskew | dramRetrainCheck | safeJournalComplete => exact .upd ht h fun h => .when h fun h => h.put
  | tileLine => exact execTileLine_form h ht
  | tileLineTimeout => exact .upd ht h fun h => by split; exacts [h, h.atTime.closeTile]
  | tidleUp => exact .upd ht h fun h => .tlBlock h fun h => .when h fun h => h.put
  | thelloUp =>
    exact .upd ht h fun h => .tlBlock h fun h => .ite h <| .ite h.tlAbort <| .ite h.tlAbort <| .each h.onCam fun h => h.tlSend
  | tackUp =>
    exact .upd ht h fun h => .tlBlock h fun h => .ite h <| .ite h.tlAbort <| .ite h.onCam.tlSend.tlState h.onCam
  | tfaultUp => exact .upd ht h fun h => .tlBlock h fun h => h
  | tackTimeout => exact .upd ht h fun h => .when h fun h => h.tlAbort
  | tlaneAttemptStart => exact .upd ht h fun h => .ite h <| .ite h.tlTrain h.tlTrain.tlAbort
  | tlaneDown => exact .upd ht h fun h => .when h fun h => h.tlTrain.report
  | triggerDue => exact execTriggerDue_form h ht
  | lineGrant => exact execLineGrant_form h ht
  | archiveBand => exact .upd ht h fun h => by split; exacts [h, .ite h.onVis.brcPush h.onVis.incSat.put.report.put]
  | expectedFold => exact execExpectedFold_form h ht
  | inspectionWindow => exact execInspectionWindow_form h ht
  | lampFrame => exact execLampFrame_form h ht
  | lampStrobe => exact execLampStrobe_form h ht
  | lampStrobeEnd => exact execLampStrobeEnd_form h ht
  | diagPeriodEnd => exact execDiagPeriodEnd_form h ht
  | diagLatchHoldEnd => exact .upd ht h fun h => h.onLch
  | chainIdent => exact .upd ht h fun h => .when h fun h => h.onLch
  | safeNopTimer => exact .upd ht h fun h => .when h fun h => .each h fun h => h.emit
  | twidle => exact .upd ht h fun h => .when h fun h => h.twHeard.peerRole.autoRejoin
  | twnHello => exact execTwnHello_form h ht
  | twnHealth =>
    exact .upd ht h fun h => .twRecv h fun h => .when h.peerHealth.autoRejoin fun h => .each h fun h => h.diverge
  | jrec => exact execJrec_form h ht
  | jfin => exact execJfin_form h ht
  | jret => exact execJret_form h ht
  | jack => exact .upd ht h fun h => .twRecv h fun h => .when h fun h => h.onTwn.onItk
  | twnInput => exact .upd ht h fun h => .twRecv h fun h => .when h fun h => .ite h.applyInput h.onTwn
  | twnSig => exact .upd ht h fun h => .twRecv h fun h => .ite h.onHead <| .when h fun h => h.onTwn.sigCompare
  | twnPage => exact .upd ht h fun h => .twRecv h fun h => .when h fun h => h.takeData
  | twnCopy => exact execTwnCopy_form h ht
  | twnDiag => exact .upd ht h fun h => .twRecv h fun h => .diagOutcome <| .onTwn <| .when h fun h => h.diverge
  | resign => exact .upd ht h fun h => .twRecv h fun h => .ite h.syncFail <| .when h fun h => h.put.takeover
  | fence => exact .upd ht h fun h => .twRecv h fun h => .when h.learnEpoch fun h => h.fence
  | mack => exact .upd ht h fun h => .when h fun h => h.twHeard.onTwn
  | mnak => exact .upd ht h fun h => .when h fun h => h.twHeard.twResend
  | messageResendTimer => exact .upd ht h fun h => h.twResend
  | sidebandFrame => exact .upd ht h fun h => .ite h h.peerRole.peerHealth.autoRejoin
  | sidebandSend => exact .upd ht h fun h => .when h fun h => h.healthCheck.emit
  | aliveLost => exact .upd ht h fun h => .ite h <| .partnerLost <| .when h.put.put.onTwn fun h => h.report
  | twinLinkSilent => exact execTwinLinkSilent_form h ht
  | formwaitExpiry => exact .upd ht h fun h => .ite h <| .ite h.becomeActive h.onTwn
  | sigTimeout => exact .upd ht h fun h => .ite h h.onTwn.diverge
  | diagnosisComplete => exact .upd ht h fun h => by split; exacts [h, .ite h h.onTwn.twSend.diagOutcome]
  | replicationTimeout => exact .upd ht h fun h => .ite h h.twSend.goAlone.report
  | standbyLinkTimeout => exact .upd ht h fun h => .when h fun h => h.atTime.fence
  | twnHelloSend => exact .upd ht h fun h => .when h fun h => h.twSend
  | twnHealthSend => exact .upd ht h fun h => .when h fun h => h.healthCheck.twSend
  | memoryScrub | macSelfTest => exact .upd ht h fun h => h.testResult
  | mramTest => exact .upd ht h fun h => h.mwr.testResult
  | twnSwap | twnRejoin | twnResign => exact .upd ht h fun h => .mbxServe h fun h => h.twnRequest.mbxStatus
  | twnForce => exact .upd ht h fun h => .mbxServe h fun h => .ite_snd h.mbxStatus h.twnRequest.mbxStatus
  | pgfHello => exact execPgfHello_form h ht
  | pgfAuth => exact .upd ht h fun h => .pgfRx h fun h => by split; exacts [.ite h <| .ite h.fup h.fabort, h]
  | rootadv => exact .upd ht h fun h => .pgfRx h fun h => .when h fun h => h.onFport.chooseRoot
  | tsync => exact .upd ht h fun h => .pgfRx h fun h => .ite h <| .when h.onPgf fun h => h.fabricOffset
  | pdreq => exact .upd ht h fun h => .pgfRx h fun h => h.fabLink
  | pdresp => exact .upd ht h fun h => .pgfRx h fun h => by split; exacts [h, h.onFport]
  | addrreq => exact .upd ht h fun h => .pgfRx h fun h => h.grantAddr
  | addrgrant => exact execAddrgrant_form h ht
  | topo => exact .upd ht h fun h => .pgfRx h fun h => h.takeTopo
  | toporeq => exact .upd ht h fun h => .pgfRx h fun h => h.sendTopo
  | route => exact .upd ht h fun h => .pgfRx h fun h => .ite h <| .ite h.onPgf h.onPgf.takeTable
  | refuse =>
    exact .upd ht h fun h => .pgfRx h fun h => .ite h <| .ite h.incSat <| .ite h.incSat h.onPgf.incWrap.takeRefusal
  | epoch => exact .upd ht h fun h => .pgfRx h fun h => .when h.onPgf fun h => h.put.learnEpoch
  | pgfVjp | pgfVjpdata =>
    exact .upd ht h fun h => .pgfRx h fun h => .ite h.incSat <| by split; exacts [.when h fun h => h.fmtDrop, h.vjpIn]
  | fcred => exact .upd ht h fun h => .ite h <| .ite h.incSat h.onFport
  | fnak => exact .upd ht h fun h => .ite h <| .ite h.incSat h.fresend
  | pgfPacketSend => exact execPgfPacketSend_form h ht
  | pgfReplayTimeout => exact .upd ht h fun h => .when h fun h => h.fresend
  | fcredTimer => exact .upd ht h fun h => .when h fun h => .onFport <| .each h fun h => h.emit
  | rootadvTimer => exact .upd ht h fun h => h.sendAdvs
  | rootadvAgeOut => exact .upd ht h fun h => by split; exacts [h.atTime.chooseRoot, h]
  | addrreqTimer => exact .upd ht h fun h => .when h fun h => h.fabSendUp
  | addressFree => exact .upd ht h fun h => by split; exacts [h, h.atTime.onPgf.syncMembers]
  | topoTimer => exact .upd ht h fun h => h.sendTopo
  | routeCompute => exact execRouteCompute_form h ht
  | routePartDiscard => exact .upd ht h fun h => by split; exacts [h, h.atTime.onPgf]
  | refuseRepeat => exact .upd ht h fun h => by split; exacts [h, h.onPgf.fabRefuse]
  | epochBroadcastTimer => exact .upd ht h fun h => h.fabEpoch
  | tsyncTimer => exact .upd ht h fun h => .when h fun h => .each h fun h => h.fabLink
  | pdreqTimer => exact .upd ht h fun h => .each h fun h => h.fabLink
  | pgfPortAttempt => exact .upd ht h fun h => .when h fun h => h.fattempt
  | pgfPortAbort => exact .upd ht h fun h => .when h fun h => h.fabort
  | pgfLaneAlign => exact .upd ht h fun h => .ite h.onFport.fabLink <| .ite h.onFport.setFstate h
  | pgfPortDown => exact .upd ht h fun h => .ite h <| .ite h.onFport.setFstate h.fdown
  | ethLinkChange => exact .upd ht h fun h => .when h fun h => h.ethState
  | pause => exact .upd ht h fun h => .when h fun h => .when h.ethGood fun h => h.onEport
  | arpRequest | neighbourSolicitation | echoRequest =>
    exact .upd ht h fun h => .when h fun h => .when h.ethGood fun h => h.ethSend
  | swrxFrame => exact .upd ht h fun h => .ite h.atTime <| .ite h.atTime.incSat h.atTime.ethGood.rxRing
  | ethRxDrop =>
    exact .upd ht h fun h => .ite h <| .ite (.when h.incSat.onEport fun h => h.put.report) <| .ite h.incSat h.report
  | txFrameDone => exact execTxFrameDone_form h ht
  | timedLaunch => exact .upd ht h fun h => .when h.atTime.txGo fun h => h.launch
  | announce => exact .upd ht h fun h => .when h fun h => .when h.ethGood fun h => h.onPtp.bmca
  | ptpSync => exact execPtpSync_form h ht
  | followUp => exact execFollowUp_form h ht
  | delayReq => exact .upd ht h fun h => .when (.when h.atTime fun h => h.ethGood) fun h => h.ethSend
  | delayResp => exact execDelayResp_form h ht
  | pdelayReq =>
    exact .upd ht h fun h => .when (.when h.atTime fun h => h.ethGood) fun h => .ite h.ethSend h.ethSend.ethSend
  | pdelayResp => exact execPdelayResp_form h ht
  | pdelayRespFollowUp => exact execPdelayRespFollowUp_form h ht
  | managementMessage => exact .upd ht h fun h => .when h fun h => h.ethGood
  | ptpSendTimer => exact execPtpSendTimer_form h ht
  | syncTimeout => exact .upd ht h fun h => .when h fun h => h.atTime.loseMaster
  | announceReceiptTimeout => exact .upd ht h fun h => .when h fun h => .bmca <| .when h.onPtp fun h => h.put
  | holdoverExpiry => exact .upd ht h fun h => .when h fun h => h.atTime.enterTime
  | dramRequest =>
    exact .upd ht h fun h => .ite h <| .dmcError <| .when h.onDmc fun h => .when h.put fun h => h.incSat.put.report
  | refresh => exact .upd ht h fun h => h.onDmc
  | mr4Poll => exact .upd ht h fun h => .when h.onDmc.put fun h => h.put.report
  | selfRefreshEntry => exact .upd ht h fun h => .when h fun h => h.onDmc
  | dramRetrainDone => exact execDramRetrainDone_form h ht
  | freqChangeDone => exact execFreqChangeDone_form h ht
  | dramScrub => exact .upd ht h fun h => .when h fun h => h.dmcError.onDmc
  | ceRateWindow => exact .upd ht h fun h => .onDmc <| .when h fun h => h.put.report
  | dmaDescriptorFetch => exact execDmaDescriptorFetch_form h ht
  | dmaWriteback => exact execDmaWriteback_form h ht
  | dmaBusError => exact execDmaBusError_form h ht
  | faultReport => exact execFaultReport_form h ht
  | severityCheck => exact execSeverityCheck_form h ht
  | harvest => exact execHarvest_form h ht
  | harvestComplete => exact .upd ht h fun h => .when h fun h => h.hvEnd
  | harvestTimeout => exact .upd ht h fun h => .when h fun h => .ite h.atTime.hvEnd h.atTime.freeBytes.stBs.hvEnd
  | feedOutOfRange => exact .upd ht h fun h => .when h.put.pwrStat.feedHealth fun h => h.report
  | feedSwitchOpen | railChange => exact .upd ht h fun h => h.pwrStat
  | oringFault | regulatorFault => exact .upd ht h fun h => h.report
  | dieTempThreshold =>
    exact .upd ht h fun h => .when (.when (.when h.put.onSys fun h => h.report) fun h => h.report) fun h => h.report
  | safeNLow => exact .upd ht h fun h => .ite h.onSys.put.report h
  | gpioEdge => exact .upd ht h fun h => .ite (.when h.wrN fun h => h.wrN) h.wrN
  | feedRestored => exact .upd ht h fun h => h.put.pwrStat.feedHealth.onSys
  | supplyLoss => exact .upd ht h fun h => h.deviceReset.onSys.wrN
  | safeNRelease => exact .upd ht h fun h => .ite h h.onSys.put
  | alarmInputInactive => exact .upd ht h fun h => h.onSec.syncAlarm

/-- With nothing waiting, C counts in 64 bits (R3). -/
protected theorem tick {s : State} (h : s.dev.Form) :
    s.tick.dev.Form := { h with time := Nat.mod_lt _ (Nat.two_pow_pos 64) }

theorem step_form {s t : State} (h : s.dev.Form) (ht : step s = .next t) : t.dev.Form := by
  unfold step at ht
  split at ht
  · cases ht
    exact Dev.Form.tick h
  · next i rest _ => exact exec_form (s := s.popFront rest) h ht

end Dev.Form
/-- Settles O60: each store changes only by `spPut` under its own default or by a filter, and C only modulo 2^64. -/
theorem everyStepKeepsForm : Obligations.EveryStepKeepsForm := by
  unfold Obligations.EveryStepKeepsForm
  intro s t h ht
  exact (inForm_iff t).2 (Dev.Form.step_form ((inForm_iff s).1 h) ht)

end Sys2Proof.Machine
end

section
/-! Every command is an effect on the device, after which the collector runs (R19, R460). -/

namespace Sys2Proof.Machine

/-- Every arm of `exec` is one call of `State.upd`, which replaces the device alone. -/
theorem exec_completes (i : Instr) (s : State) : ∃ d, exec i s = .next { s with dev := d } := by
  cases i <;> exact ⟨_, rfl⟩

theorem step_idle (s : State) (h : s.pending = []) : step s = .next s.tick := by
  rw [step, h]

/-- Settles O58: a command replaces the device and leaves the queue, and the idle step is the tick of C. -/
theorem everyCommandCompletes : Obligations.EveryCommandCompletes :=
  ⟨exec_completes, step_idle⟩

end Sys2Proof.Machine
end

section
/-! The interrupt claim, the machine timer, the clock checks and the trusted watchdog (R15, R18, R42, R44). -/

namespace Sys2Proof.Machine

theorem ux_lt (n : Nat) (i : Int) : ux n i < 2 ^ n := by
  have hpos : (0 : Int) < ((2 ^ n : Nat) : Int) := by exact_mod_cast Nat.two_pow_pos n
  have := Int.emod_lt_of_pos i hpos
  have := Int.emod_nonneg i hpos.ne'
  unfold ux
  omega

/-- Where every line was withdrawn a claim answers 0 and takes nothing (R42). -/
theorem claimIrq_none (d : Dev) (ctx : Nat) (h : d.plicBest ctx = 0) : d.claimIrq ctx = d.emit (.claim ctx 0) := by
  simp [Dev.claimIrq, h]

theorem claimIrq_some (d : Dev) (ctx : Nat) (h : d.plicBest ctx ≠ 0) :
    d.claimIrq ctx = (d.onSys fun s => { s with claimed := d.plicBest ctx :: s.claimed }).emit (.claim ctx (d.plicBest ctx)) := by
  simp only [Dev.claimIrq, bne_iff_ne.mpr h, when_true]

theorem interruptClaim_ends (s : State) (ctx : Fin 8) : Ends (.interruptClaim ctx) s fun e =>
    let d := s.dev
    let id := d.plicBest ctx
    e = { d with out := e.out, sys := e.sys } ∧ e.out = .claim ctx id :: d.out ∧
    e.sys = { d.sys with claimed := if id = 0 then d.sys.claimed else id :: d.sys.claimed } := by
  refine ends_of_upd (f := fun d => d.claimIrq ctx) rfl ?_
  by_cases h : s.dev.plicBest ctx = 0
  · rw [claimIrq_none _ _ h]
    exact ⟨rfl, by rw [h]; rfl, by rw [if_pos h]; rfl⟩
  · rw [claimIrq_some _ _ h]
    exact ⟨rfl, rfl, by rw [if_neg h]; rfl⟩

/-- What the end of a clock check window does (R15). -/
def Dev.clockChecked (d : Dev) (ppm : Int) : Dev :=
  (d.put F.SYS_CLKCHK_PPM (ux 24 ppm)).when (20000 < ppm.natAbs) fun d => (d.put F.SYS_IRQ_STAT_CLKCHK 1).report 0

theorem clockChecked_within (d : Dev) {ppm : Int} (h : ¬ 20000 < ppm.natAbs) :
    d.clockChecked ppm = d.put F.SYS_CLKCHK_PPM (ux 24 ppm) := by simp [Dev.clockChecked, h]

theorem clockChecked_beyond (d : Dev) {ppm : Int} (h : 20000 < ppm.natAbs) :
    d.clockChecked ppm = ((d.put F.SYS_CLKCHK_PPM (ux 24 ppm)).put F.SYS_IRQ_STAT_CLKCHK 1).report 0 := by simp [Dev.clockChecked, h]

theorem get_clkchk (d : Dev) (ppm : Int) : (d.put F.SYS_CLKCHK_PPM (ux 24 ppm)).get F.SYS_CLKCHK_PPM = ux 24 ppm := by
  rw [get_put_same _ _ _ (by decide)]
  exact Nat.mod_eq_of_lt (ux_lt 24 ppm)

theorem clockCheckWindow_ends (s : State) (ppm : Int) : Ends (.clockCheckWindow ppm) s fun e =>
    let d := s.dev
    let bad := 20000 < ppm.natAbs
    Frame d e [R.SYS_CLKCHK, R.SYS_IRQ_STAT] ∧
    e = { d with regs := e.regs, reps := e.reps, freeCtr := e.freeCtr } ∧
    e.get F.SYS_CLKCHK_PPM = ux 24 ppm ∧
    (e.rd R.SYS_IRQ_STAT).toNat = (if bad then setBits (d.rd R.SYS_IRQ_STAT).toNat 3 1 1 else (d.rd R.SYS_IRQ_STAT).toNat) ∧
    Reports d e (if bad then [0] else []) := by
  refine ends_of_upd (f := fun d => d.clockChecked ppm) rfl ?_
  have hshown : Frame s.dev (s.dev.put F.SYS_CLKCHK_PPM (ux 24 ppm)) [R.SYS_CLKCHK, R.SYS_IRQ_STAT] := frame_put _ _ _ _ (by decide)
  have hstat : (s.dev.put F.SYS_CLKCHK_PPM (ux 24 ppm)).rd R.SYS_IRQ_STAT = s.dev.rd R.SYS_IRQ_STAT := rd_put_ne _ _ _ _ (by decide)
  by_cases hbad : 20000 < ppm.natAbs
  · rw [clockChecked_beyond _ hbad]
    refine ⟨(hshown.trans (frame_put _ _ _ _ (by decide))).trans (frame_report _ _ _ _), rfl, ?_, ?_, by simp [Reports, hbad]⟩
    · rw [report_get, get_put_ne _ _ _ _ (by decide), get_clkchk]
    · rw [report_rd, if_pos hbad]
      exact (toNat_put _ F.SYS_IRQ_STAT_CLKCHK 1 (by decide)).trans (by rw [show F.SYS_IRQ_STAT_CLKCHK.addr = R.SYS_IRQ_STAT from rfl, hstat]; rfl)
  · rw [clockChecked_within _ hbad]
    exact ⟨hshown, rfl, get_clkchk _ _, by rw [hstat, if_neg hbad], by simp [Reports, hbad]⟩

/-- The trusted watchdog runs from SELFTEST entry on (R44). -/
theorem trustedWatchdogExpiry_ends (s : State) : Ends .trustedWatchdogExpiry s fun e =>
    let d := s.dev
    let runs := d.st? = stSelftest ∨ d.running ∨ d.st? = stSafe
    e = { d with c := e.c, reps := e.reps, freeCtr := e.freeCtr } ∧
    e.c = (if runs then max d.c (d.sys.twdC + 100000000) % 2 ^ 64 else d.c) ∧
    Reports d e (if runs then [2] else []) := by
  refine ends_of_upd (f := fun d => d.when (d.st? = stSelftest || d.running || d.st? = stSafe) fun d =>
    (d.atTime (d.sys.twdC + 100000000)).report 2) rfl ?_
  by_cases hruns : s.dev.st? = stSelftest ∨ s.dev.running ∨ s.dev.st? = stSafe
  · have hb : (s.dev.st? = stSelftest || s.dev.running || s.dev.st? = stSafe) = true := by simpa [or_assoc] using hruns
    rw [hb, when_true]
    exact ⟨rfl, (if_pos hruns).symm, by simp [Reports, hruns]⟩
  · have hb : (s.dev.st? = stSelftest || s.dev.running || s.dev.st? = stSafe) = false := by simpa [and_assoc] using hruns
    rw [hb, when_false]
    exact ⟨rfl, (if_neg hruns).symm, by simp [Reports, hruns]⟩

/-- Settles O2, command by command. -/
theorem timersAndClocks : Obligations.TimersAndClocks := by
  refine ⟨interruptClaim_ends, fun s h => ?_, clockCheckWindow_ends, fun s => ?_, trustedWatchdogExpiry_ends⟩
  · exact ends_of_upd (f := fun d => (d.atTime (nth d.sys.mtimecmp h 0)).onSys fun t => { t with mtip := upd t.mtip h fun _ => true }) rfl
      ⟨rfl, rfl, rfl⟩
  · exact ends_of_upd (f := fun d => (d.onSys fun t => { t with refclk := false }).report 1) rfl ⟨rfl, rfl, by simp [Reports]⟩

end Sys2Proof.Machine
end

section
/-! Register accesses from the bus to the block (R19 to R24, R35 to R40, R501): what a rejection records, that every status is a
status code of R7, and what a write that fails a check leaves. -/

namespace Sys2Proof.Machine

/-! ### Block headers -/

/-- REJ and REJCNT lie in the header, where no register of the block does. -/
theorem blockBase_mod {b : Nat} : blockBase b % 0x10000 = 0 := by
  unfold blockBase
  split <;> omega

theorem rej_ne_cfgIrqStat (b : Nat) : R.CFG_IRQ_STAT ≠ blockBase b + 4 ∧ R.CFG_IRQ_STAT ≠ blockBase b + 8 := by
  have := blockBase_mod (b := b)
  have hstat : R.CFG_IRQ_STAT % 0x10000 = 0x3C := rfl
  omega

/-! ### What a rejection records (R38, R39) -/

/-- The value that a first rejection leaves in REJ. -/
def rejValue (req a status : Nat) : Nat := 2 ^ 31 + req % 16 * 2 ^ 24 + a % 0x10000 / 4 * 4 * 2 ^ 8 + status

theorem rejValue_lt (req a : Nat) {status : Nat} (h : status < 256) : rejValue req a status < 2 ^ 32 := by
  unfold rejValue
  omega

/-- The device with REJ taken, before the count. -/
def Dev.rejectFirst (d : Dev) (req a b status : Nat) : Dev :=
  if bitB (d.rd (blockBase b + 4)).toNat 31 then d else d.wrN (blockBase b + 4) (rejValue req a (status % 256))

theorem reject_eq (d : Dev) (req a status : Nat) {b : Nat} (hb : blockOf a = some b) :
    d.reject req a status = (d.rejectFirst req a b status).wrN (blockBase b + 8)
      (min (2 ^ 32 - 1) (((d.rejectFirst req a b status).rd (blockBase b + 8)).toNat + 1)) := by
  rw [Dev.reject, hb]
  rfl

theorem rejectFirst_regs (d : Dev) (req a b status : Nat) :
    d.rejectFirst req a b status = { d with regs := (d.rejectFirst req a b status).regs } := by
  unfold Dev.rejectFirst
  split <;> rfl

theorem rd_rejectFirst_ne (d : Dev) (req a b status : Nat) {x : Nat} (h : x ≠ blockBase b + 4) :
    (d.rejectFirst req a b status).rd x = d.rd x := by
  unfold Dev.rejectFirst
  split
  · rfl
  · exact rd_wrN_ne _ _ _ _ h

/-- A rejection touches registers only. -/
theorem reject_regs (d : Dev) (req a status : Nat) {b : Nat} (hb : blockOf a = some b) :
    d.reject req a status = { d with regs := (d.reject req a status).regs } := by
  rw [reject_eq d req a status hb, rejectFirst_regs]
  rfl

theorem frame_reject (d : Dev) (req a status : Nat) {b : Nat} (hb : blockOf a = some b) :
    Frame d (d.reject req a status) [blockBase b + 4, blockBase b + 8] := by
  rw [reject_eq d req a status hb]
  refine .trans ⟨fun x hx => rd_rejectFirst_ne _ _ _ _ _ fun hrej => hx (by simp [hrej]), fun x => ?_⟩ (frame_wrN _ _ _ _ (by simp))
  rw [rejectFirst_regs]
  rfl

/-- REJ keeps an earlier rejection, and otherwise takes this one. -/
theorem rd_reject_rej (d : Dev) (req a : Nat) {b status : Nat} (hb : blockOf a = some b) (hs : status < 256) :
    ((d.reject req a status).rd (blockBase b + 4)).toNat =
      if bitB (d.rd (blockBase b + 4)).toNat 31 then (d.rd (blockBase b + 4)).toNat else rejValue req a status := by
  rw [reject_eq d req a status hb, rd_wrN_ne _ _ _ _ (by omega), Dev.rejectFirst, Nat.mod_eq_of_lt hs]
  split
  · rfl
  · rw [rd_wrN_same, BitVec.toNat_ofNat, Nat.mod_eq_of_lt (rejValue_lt req a hs)]

/-- REJCNT counts, and stops at its largest value. -/
theorem rd_reject_cnt (d : Dev) (req a status : Nat) {b : Nat} (hb : blockOf a = some b) :
    ((d.reject req a status).rd (blockBase b + 8)).toNat = min (2 ^ 32 - 1) ((d.rd (blockBase b + 8)).toNat + 1) := by
  rw [reject_eq d req a status hb, rd_wrN_same, BitVec.toNat_ofNat, rd_rejectFirst_ne _ _ _ _ _ (by omega)]
  omega

/-! ### Every status is a status code (R7) -/

theorem firstFail_lt {l : List (Bool × Nat)} (h : ∀ x ∈ l, x.2 < 256) : firstFail l < 256 := by
  induction l with
  | nil => decide
  | cons x l ih =>
    unfold firstFail
    split
    · exact h x List.mem_cons_self
    · exact ih fun y hy => h y (List.mem_cons_of_mem x hy)

@[simp] theorem sBadValue_lt : sBadValue < 256 := by decide
@[simp] theorem sBadState_lt : sBadState < 256 := by decide
@[simp] theorem sLate_lt : sLate < 256 := by decide
@[simp] theorem sConflict_lt : sConflict < 256 := by decide
@[simp] theorem sNoRoom_lt : sNoRoom < 256 := by decide
@[simp] theorem sLocked_lt : sLocked < 256 := by decide
@[simp] theorem sDenied_lt : sDenied < 256 := by decide
@[simp] theorem sBusy_lt : sBusy < 256 := by decide
@[simp] theorem sOk_lt : sOk < 256 := by decide
@[simp] theorem sAbsent_lt : sAbsent < 256 := by decide

section
variable (d : Dev) (w : Wr)

theorem sysCheck_lt : sysCheck d w < 256 := firstFail_lt (by simp)

theorem cfgCheck_lt : cfgCheck d w < 256 := by
  unfold cfgCheck
  split
  · decide
  · exact firstFail_lt (by simp)

theorem secCheck_lt : secCheck d w < 256 := firstFail_lt (by simp)

theorem exitCheck_lt (v : Nat) : d.exitCheck v < 256 := firstFail_lt (by simp)

theorem fltCheck_lt : fltCheck d w < 256 := firstFail_lt (by simp [exitCheck_lt])

theorem twnRequest_lt (cmd : Nat) : (d.twnRequest cmd).1 < 256 := by
  unfold Dev.twnRequest
  split_ifs <;> simp

theorem twnCheck_lt : twnCheck d w < 256 := firstFail_lt (by simp [twnRequest_lt])

theorem mbxCheck_lt : mbxCheck d w < 256 := by
  unfold mbxCheck
  split <;> exact firstFail_lt (by simp)

theorem itkCheck_lt : itkCheck d w < 256 := firstFail_lt (by simp)

theorem djobCheck_lt : d.djobCheck < 256 := firstFail_lt (by simp)

theorem brcCheck_lt : d.brcCheck < 256 := firstFail_lt (by simp)

theorem brdCheck_lt : brdCheck d w < 256 := firstFail_lt (by simp [djobCheck_lt, brcCheck_lt])

theorem impCheck_lt : impCheck d w < 256 := firstFail_lt (by simp)

theorem stateWrCheck_lt (v : Nat) : d.stateWrCheck v < 256 := firstFail_lt (by simp)

theorem nzmCheck_lt : nzmCheck d w < 256 := firstFail_lt (by simp [stateWrCheck_lt])

theorem armCheck_lt (c : Nat) (lateOk : Bool) : d.armCheck c lateOk < 256 := firstFail_lt (by simp)

theorem posCheck_lt : posCheck d w < 256 := by
  unfold posCheck
  extract_lets armed
  split
  · exact firstFail_lt (by simp [armCheck_lt])
  · exact firstFail_lt (by simp)

theorem firCheck_lt : firCheck d w < 256 := firstFail_lt (by simp)

theorem cmdCheck_lt : d.cmdCheck < 256 := firstFail_lt (by simp)

theorem hlkCheck_lt : hlkCheck d w < 256 := firstFail_lt (by simp [cmdCheck_lt])

theorem trgArmCheck_lt (k : Nat) (lateOk : Bool) : d.trgArmCheck k lateOk < 256 := firstFail_lt (by simp)

theorem camCheck_lt : camCheck d w < 256 := by
  unfold camCheck
  split
  · exact firstFail_lt (by simp [trgArmCheck_lt])
  · exact firstFail_lt (by simp)

theorem visCheck_lt : visCheck d w < 256 := firstFail_lt (by simp)

theorem insCheck_lt : insCheck d w < 256 := firstFail_lt (by simp)

theorem lmpCheck_lt : lmpCheck d w < 256 := firstFail_lt (by simp)

theorem pgfCheck_lt : pgfCheck d w < 256 := firstFail_lt (by simp)

theorem ethCheck_lt : ethCheck d w < 256 := firstFail_lt (by simp)

theorem ptpCheck_lt : ptpCheck d w < 256 := firstFail_lt (by simp)

theorem freqCheck_lt (sp : Nat) (pending : Bool) : d.freqCheck sp pending < 256 := firstFail_lt (by simp)

theorem dmcCheck_lt : dmcCheck d w < 256 := firstFail_lt (by simp [freqCheck_lt])

theorem dmaCheck_lt : dmaCheck d w < 256 := firstFail_lt (by simp)

theorem pinCheck_lt : pinCheck d w < 256 := by
  unfold pinCheck
  split
  · decide
  · exact firstFail_lt (by simp)

theorem blockCheck_lt (b : Nat) : blockCheck d b w < 256 := by
  unfold blockCheck
  split
  · exact sysCheck_lt d w
  · exact cfgCheck_lt d w
  · exact firstFail_lt (by simp [secCheck_lt])
  · split <;> simp
  · exact fltCheck_lt d w
  · exact twnCheck_lt d w
  · exact mbxCheck_lt d w
  · exact itkCheck_lt d w
  iterate 3 exact brdCheck_lt d w
  · exact impCheck_lt d w
  iterate 2 exact nzmCheck_lt d w
  · exact posCheck_lt d w
  iterate 2 exact firCheck_lt d w
  iterate 2 exact hlkCheck_lt d w
  · exact camCheck_lt d w
  · exact visCheck_lt d w
  · exact insCheck_lt d w
  · exact lmpCheck_lt d w
  · exact pgfCheck_lt d w
  · exact ethCheck_lt d w
  · exact ptpCheck_lt d w
  · exact dmcCheck_lt d w
  · exact dmaCheck_lt d w
  · exact pinCheck_lt d w
  · exact sOk_lt
end

theorem writeRight_lt (d : Dev) (req b a : Nat) (l : List FieldRow) : d.writeRight req b a l < 256 := by
  unfold Dev.writeRight
  split_ifs <;> simp

theorem regCheck_lt (d : Dev) (req b a v : Nat) (r : RegRow) : (d.regCheck req b a v r).1 < 256 := by
  rw [regCheck_status]
  refine firstFail_lt ?_
  have hclosed (c : Prop) [Decidable c] : (if c then sLocked else sDenied) < 256 := by split <;> simp
  simp [writeRight_lt, blockCheck_lt, hclosed]

/-! ### A write that fails a check -/

/-- What a write that reaches its block may leave beside the record of its rejection: CLAIM_REJ, for a claim (R74). -/
def Dev.ClaimRejOnly (d e : Dev) : Prop := e = d ∨ e = d.put F.CFG_IRQ_STAT_CLAIM_REJ 1

/-- A write to a header that fails a check changes nothing. -/
theorem headerWrite_fails (d : Dev) (req b a v : Nat) (h : (d.headerWrite req b a v).1 ≠ sOk) :
    (d.headerWrite req b a v).2 = d ∧ (d.headerWrite req b a v).1 < 256 := by
  revert h
  unfold Dev.headerWrite
  extract_lets body
  split_ifs <;> simp

theorem writeReg_fails (d : Dev) (req b a width v : Nat) (h : (d.writeReg req b a width v).1 ≠ sOk) :
    d.ClaimRejOnly (d.writeReg req b a width v).2 ∧ (d.writeReg req b a width v).1 < 256 := by
  revert h
  unfold Dev.writeReg
  split
  · exact fun _ => ⟨.inl rfl, sBadValue_lt⟩
  · split
    · exact fun h => (headerWrite_fails d req b a v h).imp_left .inl
    · split
      · exact fun _ => ⟨.inl rfl, by split <;> simp⟩
      · next r _ =>
        extract_lets q
        split
        · exact fun h => absurd rfl h
        · refine fun _ => ⟨?_, regCheck_lt d req b a v r⟩
          cases r.base == R.CFG_CLAIM_GO
          · exact .inl rfl
          · exact .inr rfl

theorem busW_down (d : Dev) (req a width v : Nat) {b : Nat} (hb : blockOf a = some b) (h : d.islandDown b = true) :
    d.busW req a width v = (sAbsent, d) := by
  simp only [Dev.busW, hb, h, if_true]

theorem busW_up (d : Dev) (req a width v : Nat) {b : Nat} (hb : blockOf a = some b) (h : d.islandDown b = false) :
    d.busW req a width v =
      if (d.writeReg req b a width v).1 = sOk then d.writeReg req b a width v
      else ((d.writeReg req b a width v).1, (d.writeReg req b a width v).2.reject req a (d.writeReg req b a width v).1) := by
  simp only [Dev.busW, hb, h, Bool.false_eq_true, if_false]

theorem busW_up_status (d : Dev) (req a width v : Nat) {b : Nat} (hb : blockOf a = some b) (h : d.islandDown b = false) :
    (d.busW req a width v).1 = (d.writeReg req b a width v).1 := by
  rw [busW_up d req a width v hb h]
  split <;> rfl

/-- A write that fails is recorded in the REJ and REJCNT of its block. -/
theorem busW_fails (d : Dev) (req a width v : Nat) {b : Nat} (hb : blockOf a = some b) (h : d.islandDown b = false)
    (hs : (d.busW req a width v).1 ≠ sOk) :
    ∃ e, d.ClaimRejOnly e ∧ (d.busW req a width v).1 < 256 ∧
      (d.busW req a width v).2 = e.reject req a (d.busW req a width v).1 := by
  rw [busW_up_status d req a width v hb h] at hs ⊢
  obtain ⟨hclaim, hlt⟩ := writeReg_fails d req b a width v hs
  exact ⟨_, hclaim, hlt, by rw [busW_up d req a width v hb h, if_neg hs]⟩

theorem Dev.ClaimRejOnly.rd {d e : Dev} (h : d.ClaimRejOnly e) {x : Nat} (hx : x ≠ R.CFG_IRQ_STAT) : e.rd x = d.rd x := by
  obtain rfl | rfl := h
  · rfl
  · exact rd_put_ne _ _ _ _ hx

theorem Dev.ClaimRejOnly.regs {d e : Dev} (h : d.ClaimRejOnly e) : e = { d with regs := e.regs } := by
  obtain rfl | rfl := h <;> rfl

theorem Dev.ClaimRejOnly.frame {d e : Dev} (h : d.ClaimRejOnly e) {l : List Nat} (hl : R.CFG_IRQ_STAT ∈ l) : Frame d e l := by
  obtain rfl | rfl := h
  · exact .refl _ _
  · exact frame_put _ _ _ _ hl

theorem busW_misaligned (d : Dev) (req a width v : Nat) {b : Nat} (hb : blockOf a = some b) (h : d.islandDown b = false)
    (ha : width ≠ 4 ∨ a % 4 ≠ 0) : (d.busW req a width v).1 = sBadValue := by
  rw [busW_up_status d req a width v hb h, Dev.writeReg, if_pos (ha.elim .inl fun ha => .inr (.inl ha))]

/-- What stands of a write once it has been rejected by a block that runs: the record of it, and the answer. -/
theorem busWrite_rejected (d : Dev) (req a width v : Nat) {b : Nat} (hb : blockOf a = some b) (h : d.islandDown b = false)
    (hs : (d.busW req a width v).1 ≠ sOk) :
    let st := (d.busW req a width v).1
    let e := d.busWrite req a width v
    let rej := blockBase b + 4
    let cnt := blockBase b + 8
    Frame d e [rej, cnt, R.CFG_IRQ_STAT] ∧ e = { d with regs := e.regs, out := .reg req a st 0 :: d.out } ∧
    (e.rd rej).toNat = (if bitB (d.rd rej).toNat 31 then (d.rd rej).toNat else rejValue req a st) ∧
    (e.rd cnt).toNat = min (2 ^ 32 - 1) ((d.rd cnt).toNat + 1) := by
  obtain ⟨x, hx, hlt, he⟩ := busW_fails d req a width v hb h hs
  obtain ⟨hrej, hcnt⟩ := rej_ne_cfgIrqStat b
  have hrecord : Frame x (x.reject req a (d.busW req a width v).1) [blockBase b + 4, blockBase b + 8, R.CFG_IRQ_STAT] :=
    (frame_reject x req a _ hb).mono (by simp)
  have hout : d.busWrite req a width v = (x.reject req a (d.busW req a width v).1).answer req a (d.busW req a width v).1 0 := by
    rw [← he]
    rfl
  extract_lets st e rej cnt
  have hframe : Frame d e [rej, cnt, R.CFG_IRQ_STAT] := by
    rw [show e = _ from hout]
    exact (hx.frame (by simp)).trans ⟨hrecord.regs, hrecord.mem⟩
  refine ⟨hframe, ?_, ?_, ?_⟩
  · rw [show e = _ from hout, reject_regs x req a _ hb, hx.regs]
    rfl
  · rw [← hx.rd hrej.symm, ← rd_reject_rej x req a hb hlt, show e = _ from hout]
    rfl
  · rw [← hx.rd hcnt.symm, ← rd_reject_cnt x req a st hb, show e = _ from hout]
    rfl

/-- Settles O8. A rejection is recorded by `Dev.reject`, and a check that fails leaves at most CLAIM_REJ beside it. -/
theorem registerWriteOutcome : Obligations.RegisterWriteOutcome := by
  intro s req a w v b hb
  refine ends_of_upd (f := fun d => if d.sys.off then d else d.busWrite req a w v) rfl ?_
  extract_lets d st rej cnt
  split
  · rfl
  · refine ⟨rfl, fun ha hup => busW_misaligned d req a w v hb hup ha, fun hdown => ?_, fun hs hup => busWrite_rejected d req a w v hb hup hs⟩
    have habsent := busW_down d req a w v hb hdown
    exact ⟨congrArg Prod.fst habsent, by rw [Dev.busWrite, habsent]; rfl⟩

/-! ### Offsets with no register (R35) -/

theorem readReg_noRow (d : Dev) (req b a : Nat) (hr : rowAt a = none) (hh : isHeader a = false) (ha : a % 4 = 0) :
    d.readReg req b a 4 = (if d.reaches req b a false then sOk else sDenied, 0) := by
  cases h : d.reaches req b a false <;> simp [Dev.readReg, ha, hh, hr, h]

theorem writeReg_noRow (d : Dev) (req b a v : Nat) (hr : rowAt a = none) (hh : isHeader a = false) (ha : a % 4 = 0)
    (hv : v < 2 ^ 32) : d.writeReg req b a 4 v = (if d.reaches req b a true then sBadValue else sDenied, d) := by
  rw [Dev.writeReg, if_neg (by omega), if_neg (by simp [hh]), hr]

theorem busR_noRow (d : Dev) (req a : Nat) {b : Nat} (hb : blockOf a = some b) (hr : rowAt a = none) (hh : isHeader a = false)
    (ha : a % 4 = 0) (hup : d.islandDown b = false) :
    (d.busR req a 4).1 = (if d.reaches req b a false then sOk else sDenied) ∧ (d.busR req a 4).2.1 = 0 := by
  simp only [Dev.busR, hb, hup, Bool.false_eq_true, if_false, readReg_noRow d req b a hr hh ha]
  split_ifs <;> simp_all [sOk, sDenied]

/-- Settles O9: with no row at the offset a read has the value 0, and a write fails with BAD_VALUE and is recorded. -/
theorem undefinedOffset : Obligations.UndefinedOffset := by
  intro d req a b v hb hr hh ha hup hv
  obtain ⟨hstatus, hvalue⟩ := busR_noRow d req a hb hr hh ha hup
  refine ⟨hvalue, fun hreach => by rw [hstatus, if_pos hreach], fun hreach => ?_⟩
  have hw : d.writeReg req b a 4 v = (sBadValue, d) := by rw [writeReg_noRow d req b a v hr hh ha hv, if_pos hreach]
  have hbad : (d.busW req a 4 v).1 = sBadValue := by rw [busW_up_status d req a 4 v hb hup, hw]
  refine ⟨hbad, fun hfree => ?_⟩
  obtain ⟨-, -, hrej, -⟩ := busWrite_rejected d req a 4 v hb hup (by rw [hbad]; decide)
  rw [hfree, if_neg Bool.false_ne_true, hbad, rejValue] at hrej
  rw [show a % 0x10000 = a % 0x10000 / 4 * 4 by omega]
  exact hrej

end Sys2Proof.Machine
end

section
/-! Register writes that pass their checks (R501): the path of a granted write to its block, and the registers whose fields hold
nothing, where a write is a command. -/

namespace Sys2Proof.Machine

/-! ### Bits -/

theorem bits_or (x y lo n : Nat) : bits (x ||| y) lo n = bits x lo n ||| bits y lo n := by
  apply Nat.eq_of_testBit_eq
  intro i
  simp only [testBit_bits, Nat.testBit_or, Bool.and_or_distrib_left]

theorem bits_and (x y lo n : Nat) : bits (x &&& y) lo n = bits x lo n &&& bits y lo n := by
  apply Nat.eq_of_testBit_eq
  intro i
  simp only [testBit_bits, Nat.testBit_and]
  cases decide (i < n) <;> simp

/-- Bits outside a mask are 0 in a number that lies within it. -/
theorem bits_eq_zero_of_and {v m : Nat} (hv : v &&& m = v) {lo n : Nat} (hm : bits m lo n = 0) : bits v lo n = 0 := by
  rw [← hv, bits_and, hm, Nat.and_zero]

theorem bitB_eq_bits (x i : Nat) : bitB x i = (bits x i 1 == 1) := by
  simp only [bitB, bits, Nat.testBit_eq_decide_div_mod_eq, Nat.shiftRight_eq_div_pow]
  rfl

/-- Putting back what a field holds changes nothing. -/
theorem setBits_bits (x lo n : Nat) : setBits x lo n (bits x lo n) = x := by
  apply Nat.eq_of_testBit_eq
  intro i
  rw [testBit_setBits, testBit_bits]
  split
  · next h =>
    have hi : i - lo < n := by omega
    rw [decide_eq_true hi, Bool.true_and, Nat.add_sub_cancel' h.1]
  · rfl

/-! ### Frames -/

theorem Frame.each {α : Type} {as : List Nat} {f : Dev → α → Dev} (l : List α) (h : ∀ d, ∀ x ∈ l, Frame d (f d x) as) (d : Dev) :
    Frame d (d.each l f) as := by
  induction l generalizing d with
  | nil => exact .refl _ _
  | cons x l ih =>
    exact (h d x List.mem_cons_self).trans (ih (fun d y hy => h d y (List.mem_cons_of_mem x hy)) _)

theorem Frame.when {as : List Nat} {f : Dev → Dev} (b : Bool) (d : Dev) (h : Frame d (f d) as) : Frame d (d.when b f) as := by
  cases b
  · exact .refl _ _
  · exact h

/-- A register that is written with what it holds reads as before. -/
theorem rd_rewrite (d : Dev) (a x : Nat) : (d.wrN a (d.rd a).toNat).rd x = d.rd x := by
  by_cases h : x = a
  · rw [h, rd_wrN_same, BitVec.ofNat_toNat, BitVec.setWidth_eq]
  · exact rd_wrN_ne _ _ _ _ h

theorem get_rewrite (d : Dev) (a : Nat) (f : Fld) : (d.wrN a (d.rd a).toNat).get f = d.get f := by
  unfold Dev.get
  rw [rd_rewrite]

theorem frame_rewrite (d : Dev) (a : Nat) (as : List Nat) : Frame d (d.wrN a (d.rd a).toNat) as :=
  ⟨fun x _ => rd_rewrite d a x, fun _ => rfl⟩

/-! ### The checks of a granted write -/

/-- A list of checks that ends in OK has no failing check at its head, where that has a status of its own. -/
theorem firstFail_cons_ok {c : Bool} {s : Nat} {l : List (Bool × Nat)} (h : firstFail ((c, s) :: l) = sOk) (hs : c = true → s ≠ sOk) :
    c = false ∧ firstFail l = sOk := by
  cases c
  · exact ⟨rfl, h⟩
  · exact absurd h (hs rfl)

theorem rngBad_mem {l : List Rng} {w : Wr} (h : rngBad l w = false) {r : Rng} (hr : r ∈ l) (ha : r.f.addr = w.base)
    (ho : w.opens r.f = true) : r.min ≤ w.val r.f ∧ w.val r.f ≤ r.max := by
  have := List.any_eq_false.mp h r hr
  simpa [ha, ho] using this

section
variable {d : Dev} {req a v b : Nat}

/-- A granted write has reached its block, which runs, and it leaves what the block leaves, with the answer OK (R19). -/
theorem Granted.regWrite_eq (hg : Granted d req a v) (hb : blockOf a = some b) :
    (d.writeReg req b a 4 v).1 = sOk ∧ d.regWrite req a v = (d.writeReg req b a 4 v).2.answer req a sOk 0 := by
  obtain ⟨hon, hok⟩ := hg
  cases hup : d.islandDown b with
  | true =>
    rw [busW_down d req a 4 v hb hup] at hok
    exact absurd (show sAbsent = sOk from hok) (by decide)
  | false =>
    rw [busW_up_status d req a 4 v hb hup] at hok
    refine ⟨hok, ?_⟩
    rw [Dev.regWrite, hon, if_neg Bool.false_ne_true, Dev.busWrite, busW_up d req a 4 v hb hup, if_pos hok, hok]

/-- A write to a register's row that is OK has passed the row's checks. -/
theorem writeReg_row_ok {r : RegRow} (hr : rowAt a = some r) (hh : isHeader a = false) (h : (d.writeReg req b a 4 v).1 = sOk) :
    (d.regCheck req b a v r).1 = sOk ∧ (d.writeReg req b a 4 v).2 = d.regStore b v r (d.regCheck req b a v r).2 := by
  revert h
  unfold Dev.writeReg
  split
  · exact fun h => absurd (show sBadValue = sOk from h) (by decide)
  · simp only [hh, hr, Bool.false_eq_true, if_false]
    split
    · next hok => exact fun _ => ⟨hok, rfl⟩
    · next hbad => exact fun h => absurd h hbad

theorem regCheck_ok {r : RegRow} (h : (d.regCheck req b a v r).1 = sOk) :
    d.writeRight req b a r.fields = sOk ∧ v &&& fieldBits r.fields (fun _ => true) = v ∧
    blockCheck d b (d.regCheck req b a v r).2 = sOk := by
  rw [regCheck_status] at h
  obtain ⟨hright, h⟩ := firstFail_cons_ok h (by simp)
  obtain ⟨hfields, h⟩ := firstFail_cons_ok h fun _ => by decide
  obtain ⟨-, h⟩ := firstFail_cons_ok h fun _ => by split <;> decide
  obtain ⟨hblock, -⟩ := firstFail_cons_ok h (by simp)
  exact ⟨by simpa using hright, by simpa using hfields, by simpa using hblock⟩

/-! ### Rights -/

theorem exists_open_of_writeRight {l : List FieldRow} (h : d.writeRight req b a l = sOk) : ∃ f ∈ l, d.openTo req f = true := by
  unfold Dev.writeRight at h
  split at h
  · next hopen => simpa using (Bool.and_eq_true_iff.mp hopen).2
  · split at h <;> exact absurd h (by decide)

/-- A TRS field that is WO is open to the trusted core. -/
theorem openTo_trsWo {f : FieldRow} (hf : f.acc = .trsWo) : d.openTo req f = (req == reqTrusted) := by simp [Dev.openTo, hf]

theorem fieldBits_congr {l : List FieldRow} {p q : FieldRow → Bool} (h : ∀ f ∈ l, p f = q f) : fieldBits l p = fieldBits l q := by
  rw [fieldBits, fieldBits, List.filter_congr h]
end

/-! ### Registers that hold nothing -/

/-- `a` is a register of block `b` past its header, alone in its row, that no pair mirrors; its fields are `l`, whose bits are
`m`, and hold nothing (R4). -/
structure CommandReg (b a m : Nat) (l : List FieldRow) : Prop where
  block : blockOf a = some b
  body : isHeader a = false
  row : rowAt a = some ⟨a, [], l, 0⟩
  apart : mirrored b a l = false
  mask : fieldBits l (fun _ => true) = m
  holdsNothing : ∀ f ∈ l, f.acc = .wo ∨ f.acc = .trsWo

/-- The write that the checks of such a register see. -/
abbrev Dev.commandWr (d : Dev) (req b a v : Nat) (l : List FieldRow) : Wr := (d.regCheck req b a v ⟨a, [], l, 0⟩).2

theorem storedValue_holdsNothing {l : List FieldRow} (h : ∀ f ∈ l, f.acc = .wo ∨ f.acc = .trsWo) (old v : Nat) :
    storedValue l old v = old := by
  rw [storedValue_eq]
  induction l with
  | nil => rfl
  | cons f l ih =>
    have hf : f.stored old v = bits old f.lo (f.hi + 1 - f.lo) := by
      rcases h f List.mem_cons_self with hacc | hacc <;> simp [FieldRow.stored, hacc]
    rw [List.foldl_cons, hf, setBits_bits, ih fun g hg => h g (List.mem_cons_of_mem f hg)]

namespace CommandReg

variable {d : Dev} {req b a v m : Nat} {l : List FieldRow} (hc : CommandReg b a m l)
include hc

/-- A granted write of such a register: the register keeps what it holds, and the block's effect follows. -/
theorem granted (hg : Granted d req a v) :
    d.writeRight req b a l = sOk ∧ v &&& m = v ∧ blockCheck d b (d.commandWr req b a v l) = sOk ∧
    d.regWrite req a v = (blockApply (d.wrN a (d.rd a).toNat) b (d.commandWr req b a v l)).answer req a sOk 0 := by
  obtain ⟨hok, hleft⟩ := hg.regWrite_eq hc.block
  obtain ⟨hcheck, hstore⟩ := writeReg_row_ok hc.row hc.body hok
  obtain ⟨hright, hfields, hblock⟩ := regCheck_ok hcheck
  refine ⟨hright, hc.mask ▸ hfields, hblock, ?_⟩
  rw [hleft, hstore, Dev.regStore, hc.apart, when_false, storedValue_holdsNothing hc.holdsNothing]
  rfl

/-- A register with TRS fields alone takes a write of the trusted core only. -/
theorem trusted (hg : Granted d req a v) (ht : ∀ f ∈ l, f.acc = .trsWo) : req = reqTrusted := by
  obtain ⟨f, hf, hopen⟩ := exists_open_of_writeRight (hc.granted hg).1
  rw [openTo_trsWo (ht f hf)] at hopen
  exact beq_iff_eq.mp hopen

/-- To a requester to whom the fields are open, the mask of the write is the register's. -/
theorem commandWr_mask (ho : ∀ f ∈ l, d.openTo req f = true) : (d.commandWr req b a v l).mask = m :=
  (fieldBits_congr ho).trans hc.mask

theorem commandWr_new (ho : ∀ f ∈ l, d.openTo req f = true) :
    (d.commandWr req b a v l).new = v &&& m ||| ((d.rd a).toNat &&& (2 ^ 32 - 1 - m)) := by
  rw [← hc.commandWr_mask (d := d) (req := req) (v := v) ho]
  rfl

/-- Within the register's fields the checks see the value written. -/
theorem bits_commandWr_new (ho : ∀ f ∈ l, d.openTo req f = true) (hv : v &&& m = v) {lo n : Nat} (hm : bits (2 ^ 32 - 1 - m) lo n = 0) :
    bits (d.commandWr req b a v l).new lo n = bits v lo n := by
  rw [hc.commandWr_new ho, hv, bits_or, bits_and, hm, Nat.and_zero, Nat.or_zero]

/-- The legal range of a field holds of the value written. -/
theorem inRange (ho : ∀ f ∈ l, d.openTo req f = true) (hv : v &&& m = v) {rs : List Rng} (hbad : rngBad rs (d.commandWr req b a v l) = false)
    {lo n min max : Nat} (hr : ⟨⟨a, lo, n⟩, min, max⟩ ∈ rs) (hm : bits (2 ^ 32 - 1 - m) lo n = 0) (hopens : bits m lo n ≠ 0) :
    min ≤ bits v lo n ∧ bits v lo n ≤ max := by
  have hin := rngBad_mem hbad hr rfl (by simpa [Wr.opens, hc.commandWr_mask ho] using hopens)
  rw [Wr.val, hc.bits_commandWr_new ho hv hm] at hin
  exact hin

end CommandReg

end Sys2Proof.Machine
end

section
/-! What an erase leaves of trust (R90, R92): the key slots of its level go, and nothing that closes with them (sessions, fabric
ports, the erase marker) touches the rest of the key store or the fuses. -/

namespace Sys2Proof.Machine

variable (d : Dev)

/-! ### The shapes -/

theorem when_keeps {β : Type} (g : Dev → β) (b : Bool) (f : Dev → Dev) (h : ∀ d, g (f d) = g d) : g (d.when b f) = g d := by
  cases b
  · rfl
  · exact h d

@[simp] theorem when_sec {b : Bool} {f : Dev → Dev} (h : ∀ d, (f d).sec = d.sec) : (d.when b f).sec = d.sec :=
  when_keeps d Dev.sec b f h

@[simp] theorem each_sec {α : Type} {l : List α} {f : Dev → α → Dev} (h : ∀ d x, (f d x).sec = d.sec) : (d.each l f).sec = d.sec :=
  each_keeps d l f Dev.sec h

@[simp] theorem stBs_sec (l : List Byte) (a : Nat) : (d.stBs a l).sec = d.sec := by
  induction l generalizing d a with
  | nil => rfl
  | cons b l ih => rw [Dev.stBs, ih, stB_sec]

/-! ### The fabric (R404 to R411) -/

@[simp] theorem onFport_sec (p : Nat) (f : PgfPort → PgfPort) : (d.onFport p f).sec = d.sec := rfl

@[simp] theorem fabQueue_sec (p : Nat) (k : FabPkt) : (d.fabQueue p k).sec = d.sec := when_sec d fun _ => rfl

@[simp] theorem fabBroadcast_sec (ptype : Nat) (payload : List Byte) : (d.fabBroadcast ptype payload).sec = d.sec :=
  each_sec d fun _ _ => fabQueue_sec _ _ _

@[simp] theorem fabSendUp_sec (ptype : Nat) (payload : List Byte) : (d.fabSendUp ptype payload).sec = d.sec := by
  unfold Dev.fabSendUp
  split
  · rfl
  · exact fabQueue_sec _ _ _

@[simp] theorem sendAdvs_sec : d.sendAdvs.sec = d.sec := each_sec d fun _ _ => rfl

@[simp] theorem sendTopo_sec : d.sendTopo.sec = d.sec := by
  unfold Dev.sendTopo
  extract_lets ps b
  split_ifs
  · rfl
  · rfl
  · exact fabSendUp_sec _ _ _

@[simp] theorem syncMembers_sec : d.syncMembers.sec = d.sec := rfl

@[simp] theorem syncTree_sec : d.syncTree.sec = d.sec := each_sec d fun _ _ => rfl

@[simp] theorem takeAddr_sec (a : Nat) : (d.takeAddr a).sec = d.sec := by
  unfold Dev.takeAddr
  extract_lets changed d1
  rw [sendTopo_sec]
  exact when_sec d1 fun _ => rfl

@[simp] theorem grantAddr_sec (uid want kind : Nat) (fixed : Bool) : (d.grantAddr uid want kind fixed).sec = d.sec := by
  simp [Dev.grantAddr, Dev.sendGrant]

@[simp] theorem becomeRoot_sec : d.becomeRoot.sec = d.sec := by simp [Dev.becomeRoot]

/-! ### Time (R433 to R435) -/

@[simp] theorem enterTime_sec (n : Nat) : (d.enterTime n).sec = d.sec := by
  unfold Dev.enterTime
  extract_lets d1 c d2
  split_ifs
  · rfl
  · exact (report_sec _ _ _).trans (when_sec d2 fun _ => rfl)
  · exact report_sec _ _ _
  · rfl
  · rfl

@[simp] theorem setSource_sec (src : Option (Nat × Nat × Nat)) : (d.setSource src).sec = d.sec := by
  unfold Dev.setSource
  split
  · rfl
  · simp [Dev.put64]

@[simp] theorem syncUtc_sec : d.syncUtc.sec = d.sec := by
  unfold Dev.syncUtc
  extract_lets a
  clear_value a
  cases a with
  | none => rfl
  | some f => dsimp only; split <;> rfl

@[simp] theorem fabricLost_sec : d.fabricLost.sec = d.sec := when_sec d fun _ => by simp [Dev.chooseSource]

/-! ### Ports that leave UP, and the key that is lost (R404, R406) -/

@[simp] theorem chooseRoot_sec : d.chooseRoot.sec = d.sec := by
  unfold Dev.chooseRoot
  split
  · rfl
  · extract_lets advs best par dist parent was changed moved d1 root d2 d3 d4 d5 d6 d7 d8 d9
    split
    · exact syncTree_sec d
    · have h3 : d3.sec = d.sec := each_sec d2 fun _ _ => rfl
      have h4 : d4.sec = d3.sec := when_sec d3 fun _ => by simp
      have h5 : d5.sec = d4.sec := when_sec d4 fabricLost_sec
      have h7 : d7.sec = d5.sec := by simp [d7, d6]
      have h8 : d8.sec = d7.sec := when_sec d7 becomeRoot_sec
      have h9 : d9.sec = d8.sec := when_sec d8 fun _ => rfl
      rw [syncMembers_sec, h9, h8, h7, h5, h4, h3]

@[simp] theorem setFstate_sec (p n : Nat) : (d.setFstate p n).sec = d.sec := by
  unfold Dev.setFstate
  split <;> rfl

@[simp] theorem fleave_sec (p st : Nat) : (d.fleave p st).sec = d.sec := by simp [Dev.fleave, Dev.fdiscard, Dev.addSat]

@[simp] theorem pgfKeyLost_sec : d.pgfKeyLost.sec = d.sec := by
  unfold Dev.pgfKeyLost
  split
  · rfl
  · simp

/-! ### Sessions and the marker (R91, R102) -/

@[simp] theorem endSession_sec (n : Nat) : (d.endSession n).sec = d.sec := rfl

@[simp] theorem mwr_sec (a v : Nat) : (d.mwr a v).1.sec = d.sec := by
  unfold Dev.mwr
  split_ifs
  · rfl
  · simp [Dev.st]
  · exact stBs_sec _ _ _

@[simp] theorem writeMarker_sec (level : Nat) : (d.writeMarker level).sec = d.sec := by simp [Dev.writeMarker]

/-- An erase takes the key slots of its level from the key store, and nothing else of trust (R90). -/
theorem erase_sec (level : Nat) :
    (d.erase level).sec = { d.sec with keys := d.sec.keys.filter fun k => !(level == 2 || k.use % 2 == 1) } := by
  unfold Dev.erase
  extract_lets gone lost d1 d2 d3
  have h1 : d1.sec = { d.sec with keys := d.sec.keys.filter fun k => !(gone k) } := rfl
  have h2 : d2.sec = d1.sec := each_sec d1 fun _ _ => when_sec _ fun _ => endSession_sec _ _
  have h3 : d3.sec = d2.sec := when_sec d2 pgfKeyLost_sec
  rw [put_sec, writeMarker_sec, h3, h2, h1]

theorem get_erased (level : Nat) : (d.erase level).get F.SEC_IRQ_STAT_ERASED = 1 := get_put_same _ _ _ (by decide)

end Sys2Proof.Machine
end

section
/-! What a device reset leaves (R44): the registers that it writes, and what it keeps. -/

namespace Sys2Proof.Machine

/-- The device that a reset starts from: registers at their reset values, memory, flash, fuses and pins as they were. -/
def Dev.resetBase (d : Dev) (memLost : Bool) : Dev :=
  let d1 : Dev := { mem := if memLost then d.mem.filter fun c => mramBase ≤ c.1 && c.1 < sramBase else d.mem, flash := d.flash,
                    flashCs1 := d.flashCs1, mramBad := d.mramBad, out := d.out, freeCtr := d.freeCtr }
  (d1.onSec fun s => { s with fuses := d.sec.fuses, active := d.sec.active }).onSys fun s =>
    { s with rstN := d.sys.rstN, safeN := d.sys.safeN, refclk := d.sys.refclk }

/-- The registers that a device reset writes after the cause. -/
def resetRegs : List Nat :=
  (List.range 4).map R.SYS_UID ++
    [R.PIN_PWRSTAT, R.PIN_GPIO_IN, R.PIN_FIXIN, R.SEC_STATUS, R.JNL_GENLO, R.JNL_GENHI, R.FLT_HVSTAT]

theorem rd_resetBase (d : Dev) (memLost : Bool) (a : Nat) : (d.resetBase memLost).rd a = regReset a := rfl

theorem frame_deviceReset (d : Dev) (causeBit : Nat) (memLost : Bool) :
    Frame ((d.resetBase memLost).wrN R.SYS_RSTCAUSE (2 ^ causeBit)) (d.deviceReset causeBit memLost) resetRegs := by
  have huid : ∀ x : Dev, ∀ n ∈ List.range 4, Frame x (x.wrN (R.SYS_UID n) (d.sec.fuses.uid / 2 ^ (32 * n))) resetRegs :=
    fun x n hn => frame_wrN _ _ _ _ (List.mem_append_left _ (List.mem_map_of_mem hn))
  unfold Dev.deviceReset
  extract_lets _ _ _ _ _ _ d4 d5 d6 d7 d8 d9 _ _ d10 d11
  rw [show (d.resetBase memLost).wrN R.SYS_RSTCAUSE (2 ^ causeBit) = d4 from rfl]
  clear_value d4
  have huids : Frame d4 d5 resetRegs := Frame.each _ huid d4
  have hpwr : Frame d5 d6 resetRegs := frame_wrN _ _ _ _ (by decide)
  have hpins : Frame d6 d7 resetRegs :=
    (frame_wrN d6 R.PIN_GPIO_IN (d.rd R.PIN_GPIO_IN).toNat _ (by decide)).trans (frame_wrN _ _ _ _ (by decide))
  have hkill : Frame d7 d8 resetRegs := frame_put _ _ _ _ (by decide)
  have hroot : Frame d8 d9 resetRegs := frame_put _ _ _ _ (by decide)
  have herased : Frame d9 d10 resetRegs := frame_put _ _ _ _ (by decide)
  have hgen : Frame d10 d11 resetRegs :=
    (frame_wrN d10 R.JNL_GENLO (d.mrd dwGen) _ (by decide)).trans (frame_wrN _ _ _ _ (by decide))
  exact ((((((huids.trans hpwr).trans hpins).trans hkill).trans hroot).trans herased).trans hgen).trans
    (frame_wrN d11 _ _ _ (by decide))

theorem rd_rstcause_deviceReset (d : Dev) (causeBit : Nat) (memLost : Bool) :
    (d.deviceReset causeBit memLost).rd R.SYS_RSTCAUSE = BitVec.ofNat 32 (2 ^ causeBit) := by
  rw [(frame_deviceReset d causeBit memLost).regs _ (by decide), rd_wrN_same]

/-- A device reset leads to SAF_BOOT (R46). -/
theorem st_deviceReset (d : Dev) (causeBit : Nat) (memLost : Bool) : (d.deviceReset causeBit memLost).st? = stBoot := by
  have hstate : (d.deviceReset causeBit memLost).rd R.SYS_STATE = regReset R.SYS_STATE := by
    rw [(frame_deviceReset d causeBit memLost).regs _ (by decide), rd_wrN_ne _ _ _ _ (by decide), rd_resetBase]
  have hboot : bits (regReset R.SYS_STATE).toNat 0 4 = stBoot := by decide +kernel
  rw [← hboot, ← hstate]
  rfl

theorem ldB_deviceReset (d : Dev) (causeBit a : Nat) : (d.deviceReset causeBit false).ldB a = d.ldB a :=
  (frame_deviceReset d causeBit false).mem a

theorem deviceReset_parts (d : Dev) (causeBit : Nat) (memLost : Bool) :
    (d.deviceReset causeBit memLost).itk = {} ∧ (d.deviceReset causeBit memLost).cfg = {} ∧
    (d.deviceReset causeBit memLost).sec.fuses = d.sec.fuses ∧ (d.deviceReset causeBit memLost).flash = d.flash :=
  ⟨rfl, rfl, rfl, rfl⟩

end Sys2Proof.Machine
end

section
/-! The registers of SYS, CFG, SEC and ITK whose write is a command, and REJCLR (R38, R44, R45, R74, R90, R98). -/

namespace Sys2Proof.Machine

theorem commandReg_hwdKick : CommandReg 0 R.SYS_HWD_KICK 0xFFFF [⟨15, 0, .wo⟩] :=
  ⟨rfl, rfl, by decide +kernel, by decide, by decide, by simp⟩

theorem commandReg_twdKick : CommandReg 0 R.SYS_TWD_KICK 0xFFFF [⟨15, 0, .trsWo⟩] :=
  ⟨rfl, rfl, by decide +kernel, by decide, by decide, by simp⟩

theorem commandReg_rstctl : CommandReg 0 R.SYS_RSTCTL 0xFFFF0003 [⟨31, 16, .trsWo⟩, ⟨1, 0, .trsWo⟩] :=
  ⟨rfl, rfl, by decide +kernel, by decide, by decide, by simp⟩

theorem commandReg_claimGo : CommandReg 1 R.CFG_CLAIM_GO 0xFFFF [⟨15, 0, .wo⟩] :=
  ⟨rfl, rfl, by decide +kernel, by decide, by decide, by simp⟩

theorem commandReg_erase : CommandReg 2 R.SEC_ERASE 0xFFFF0003 [⟨31, 16, .trsWo⟩, ⟨1, 0, .trsWo⟩] :=
  ⟨rfl, rfl, by decide +kernel, by decide, by decide, by simp⟩

theorem commandReg_cntclr : CommandReg 7 R.ITK_CNTCLR 0xF [⟨3, 0, .wo⟩] :=
  ⟨rfl, rfl, by decide +kernel, by decide, by decide, by simp⟩

variable {d : Dev} {req v : Nat}

/-! ### The watchdogs (R44) -/

theorem rngBad_of_sysCheck {w : Wr} (h : sysCheck d w = sOk) : rngBad safRngs w = false :=
  (firstFail_cons_ok h fun _ => by decide).1

/-- A value within the low 16 bits is its field there. -/
theorem eq_of_code {code : Nat} (hv : v &&& 0xFFFF = v) (h : code ≤ bits v 0 16 ∧ bits v 0 16 ≤ code) : v = code := by
  have hlt : v ≤ 0xFFFF := hv ▸ Nat.and_le_right
  simp only [bits, Nat.shiftRight_zero] at h
  omega

theorem hwdKick_granted (hg : Granted d req R.SYS_HWD_KICK v) :
    v = 0xA5C3 ∧ d.regWrite req R.SYS_HWD_KICK v =
      ((d.wrN R.SYS_HWD_KICK (d.rd R.SYS_HWD_KICK).toNat).onSys fun t => { t with hwdFirst := false, hwdC := d.c }).answer
        req R.SYS_HWD_KICK sOk 0 := by
  have hc := commandReg_hwdKick
  obtain ⟨-, hv, hcheck, hleft⟩ := hc.granted hg
  have hcode := hc.inRange (by simp [Dev.openTo]) hv (rngBad_of_sysCheck hcheck) (lo := 0) (n := 16) (min := 0xA5C3) (max := 0xA5C3)
    (by decide) (by decide) (by decide)
  exact ⟨eq_of_code hv hcode, hleft⟩

theorem twdKick_granted (hg : Granted d req R.SYS_TWD_KICK v) :
    v = 0x3CA5 ∧ req = reqTrusted ∧ d.regWrite req R.SYS_TWD_KICK v =
      ((d.wrN R.SYS_TWD_KICK (d.rd R.SYS_TWD_KICK).toNat).onSys fun t => { t with twdC := d.c }).answer req R.SYS_TWD_KICK sOk 0 := by
  have hc := commandReg_twdKick
  obtain ⟨-, hv, hcheck, hleft⟩ := hc.granted hg
  obtain rfl := hc.trusted hg (by simp)
  have hcode := hc.inRange (by simp [Dev.openTo]) hv (rngBad_of_sysCheck hcheck) (lo := 0) (n := 16) (min := 0x3CA5) (max := 0x3CA5)
    (by decide) (by decide) (by decide)
  exact ⟨eq_of_code hv hcode, rfl, hleft⟩

/-! ### Keyed commands of the trusted core: SYS_RSTCTL and SEC_ERASE (R45, R90) -/

/-- A key in the upper half and a code of 1 or 2 in the lowest two bits, all other bits 0. -/
theorem eq_of_key {key : Nat} (hv : v &&& 0xFFFF0003 = v) (hkey : key ≤ bits v 16 16 ∧ bits v 16 16 ≤ key)
    (hcode : 1 ≤ bits v 0 2 ∧ bits v 0 2 ≤ 2) : v = key * 2 ^ 16 + 1 ∨ v = key * 2 ^ 16 + 2 := by
  have hlt : v ≤ 0xFFFF0003 := hv ▸ Nat.and_le_right
  have hrest : bits v 2 14 = 0 := bits_eq_zero_of_and hv (by decide)
  simp only [bits, Nat.shiftRight_eq_div_pow] at hkey hcode hrest
  omega

theorem rstctl_granted (hg : Granted d req R.SYS_RSTCTL v) :
    (v = 0x5EB00001 ∨ v = 0x5EB00002) ∧
    (v = 0x5EB00001 → d.regWrite req R.SYS_RSTCTL v =
      ((d.wrN R.SYS_RSTCTL (d.rd R.SYS_RSTCTL).toNat).deviceReset 3 false).answer req R.SYS_RSTCTL sOk 0) ∧
    (v = 0x5EB00002 → d.regWrite req R.SYS_RSTCTL v =
      (d.wrN R.SYS_RSTCTL (d.rd R.SYS_RSTCTL).toNat).ctlReset.answer req R.SYS_RSTCTL sOk 0) := by
  have hc := commandReg_rstctl
  obtain ⟨-, hv, hcheck, hleft⟩ := hc.granted hg
  obtain rfl := hc.trusted hg (by simp)
  have hopen : ∀ f ∈ [⟨31, 16, .trsWo⟩, (⟨1, 0, .trsWo⟩ : FieldRow)], d.openTo reqTrusted f = true := by simp [Dev.openTo]
  have hrng := rngBad_of_sysCheck hcheck
  have hkey := hc.inRange hopen hv hrng (lo := 16) (n := 16) (min := 0x5EB0) (max := 0x5EB0) (by decide) (by decide) (by decide)
  have hkind := hc.inRange hopen hv hrng (lo := 0) (n := 2) (min := 1) (max := 2) (by decide) (by decide) (by decide)
  have happly : blockApply (d.wrN R.SYS_RSTCTL (d.rd R.SYS_RSTCTL).toNat) 0
      (d.commandWr reqTrusted 0 R.SYS_RSTCTL v [⟨31, 16, .trsWo⟩, ⟨1, 0, .trsWo⟩]) =
      if bits v 0 2 = 1 then (d.wrN R.SYS_RSTCTL (d.rd R.SYS_RSTCTL).toNat).deviceReset 3 false
      else (d.wrN R.SYS_RSTCTL (d.rd R.SYS_RSTCTL).toNat).ctlReset := by
    rw [← hc.bits_commandWr_new (d := d) hopen hv (lo := 0) (n := 2) (by decide)]
    rfl
  rw [happly] at hleft
  refine ⟨eq_of_key hv hkey hkind, ?_, ?_⟩
  · rintro rfl
    exact hleft
  · rintro rfl
    exact hleft

/-- A CTL reset stops the harts, and clears the interrupt controller's registers, which lie past every block (R45). -/
theorem ctlReset_parts (d : Dev) :
    d.ctlReset.sys = { d.sys with hartsRun := false, claimed := [], ctlDue := true, hwdFirst := false } ∧
    d.ctlReset.get F.SYS_RSTCAUSE_CTL = 1 ∧ Reports d d.ctlReset [4] ∧ d.ctlReset.itk = d.itk ∧ d.ctlReset.fir = d.fir ∧
    ∀ a, d.ctlReset.ldB a = d.ldB a := by
  refine ⟨rfl, ?_, by simp [Reports, Dev.ctlReset], rfl, rfl, fun _ => rfl⟩
  rw [Dev.ctlReset, report_get, get_put_same _ _ _ (by decide)]
  rfl

theorem softwareReset_ends (s : State) (req v : Nat) : Ends (.softwareReset req v) s fun e =>
    let d := s.dev
    Granted d req R.SYS_RSTCTL v →
      (v = 0x5EB00001 ∨ v = 0x5EB00002) ∧
      (v = 0x5EB00001 → e.st? = stBoot ∧ (e.rd R.SYS_RSTCAUSE).toNat = 8 ∧ e.itk = {} ∧ e.cfg = {} ∧ (∀ x, e.ldB x = d.ldB x) ∧
        e.sec.fuses = d.sec.fuses ∧ e.flash = d.flash) ∧
      (v = 0x5EB00002 → e.sys = { d.sys with hartsRun := false, claimed := [], ctlDue := true, hwdFirst := false } ∧
        e.get F.SYS_RSTCAUSE_CTL = 1 ∧ Reports d e [4] ∧ e.itk = d.itk ∧ e.fir = d.fir ∧ ∀ x, e.ldB x = d.ldB x) := by
  refine ends_of_upd (f := fun d => d.regWrite req R.SYS_RSTCTL v) rfl fun hg => ?_
  obtain ⟨hv, hdevice, hctl⟩ := rstctl_granted hg
  refine ⟨hv, fun h1 => ?_, fun h2 => ?_⟩
  · rw [hdevice h1]
    have hst := st_deviceReset (s.dev.wrN R.SYS_RSTCTL (s.dev.rd R.SYS_RSTCTL).toNat) 3 false
    have hcause := rd_rstcause_deviceReset (s.dev.wrN R.SYS_RSTCTL (s.dev.rd R.SYS_RSTCTL).toNat) 3 false
    have hmem := ldB_deviceReset (s.dev.wrN R.SYS_RSTCTL (s.dev.rd R.SYS_RSTCTL).toNat) 3
    obtain ⟨hitk, hcfg, hfuses, hflash⟩ := deviceReset_parts (s.dev.wrN R.SYS_RSTCTL (s.dev.rd R.SYS_RSTCTL).toNat) 3 false
    generalize (s.dev.wrN R.SYS_RSTCTL (s.dev.rd R.SYS_RSTCTL).toNat).deviceReset 3 false = e at *
    exact ⟨hst, congrArg BitVec.toNat hcause, hitk, hcfg, hmem, hfuses, hflash⟩
  · rw [hctl h2]
    exact ctlReset_parts (s.dev.wrN R.SYS_RSTCTL (s.dev.rd R.SYS_RSTCTL).toNat)

theorem rngBad_of_secBlock {w : Wr} (h : blockCheck d 2 w = sOk) : rngBad safRngs w = false :=
  (firstFail_cons_ok h fun _ => by decide).1

theorem secErase_granted (hg : Granted d req R.SEC_ERASE v) :
    (v = 0x3E5A0001 ∨ v = 0x3E5A0002) ∧ req = reqTrusted ∧ d.regWrite req R.SEC_ERASE v =
      ((d.wrN R.SEC_ERASE (d.rd R.SEC_ERASE).toNat).erase (v % 4)).answer req R.SEC_ERASE sOk 0 := by
  have hc := commandReg_erase
  obtain ⟨-, hv, hcheck, hleft⟩ := hc.granted hg
  obtain rfl := hc.trusted hg (by simp)
  have hopen : ∀ f ∈ [⟨31, 16, .trsWo⟩, (⟨1, 0, .trsWo⟩ : FieldRow)], d.openTo reqTrusted f = true := by simp [Dev.openTo]
  have hrng := rngBad_of_secBlock hcheck
  have hkey := hc.inRange hopen hv hrng (lo := 16) (n := 16) (min := 0x3E5A) (max := 0x3E5A) (by decide) (by decide) (by decide)
  have hlevel := hc.inRange hopen hv hrng (lo := 0) (n := 2) (min := 1) (max := 2) (by decide) (by decide) (by decide)
  have happly : blockApply (d.wrN R.SEC_ERASE (d.rd R.SEC_ERASE).toNat) 2
      (d.commandWr reqTrusted 2 R.SEC_ERASE v [⟨31, 16, .trsWo⟩, ⟨1, 0, .trsWo⟩]) =
      (d.wrN R.SEC_ERASE (d.rd R.SEC_ERASE).toNat).erase (bits v 0 2) := by
    rw [← hc.bits_commandWr_new (d := d) hopen hv (lo := 0) (n := 2) (by decide)]
    rfl
  exact ⟨eq_of_key hv hkey hlevel, rfl, by rw [hleft, happly]; rfl⟩

/-! ### Claims at run time (R74) -/

/-- The checks of a claim that passes: the device runs, and a claim that is no release meets none of another feature. -/
theorem cfgCheck_claim {w : Wr} (hw : w.at R.CFG_CLAIM_GO = true) (h : cfgCheck d w = sOk) :
    (d.running = true ∨ d.st? = stSafe) ∧
    (d.get F.CFG_CLAIM_RES_RELEASE = 0 → ∀ x ∈ d.cfg.claims, claimsMeet x (d.goClaim (w.new % 2 ^ 16)) = true →
      x.feature = (d.goClaim (w.new % 2 ^ 16)).feature) := by
  rw [cfgCheck, hw, Bool.not_true, if_neg Bool.false_ne_true] at h
  obtain ⟨-, h⟩ := firstFail_cons_ok h fun _ => by decide
  obtain ⟨-, h⟩ := firstFail_cons_ok h fun _ => by decide
  obtain ⟨hconflict, h⟩ := firstFail_cons_ok h fun _ => by decide
  obtain ⟨-, h⟩ := firstFail_cons_ok h fun _ => by decide
  obtain ⟨hstate, -⟩ := firstFail_cons_ok h fun _ => by decide
  refine ⟨by simpa [or_iff_not_imp_left] using hstate, fun hclaim x hx => ?_⟩
  simp only [hclaim] at hconflict
  simpa using List.any_eq_false.mp hconflict x hx

theorem claimGo_eq (d : Dev) (feature : Nat) :
    d.claimGo feature = d.onCfg fun t =>
      { t with claims := (if d.get F.CFG_CLAIM_RES_RELEASE = 1 then releaseFrom (d.goClaim feature) t.claims
                          else t.claims ++ [d.goClaim feature]) } := by
  unfold Dev.claimGo
  by_cases h : d.get F.CFG_CLAIM_RES_RELEASE = 1
  · simp only [if_pos h]
  · simp only [if_neg h]

theorem goClaim_rewrite (d : Dev) (a feature : Nat) : (d.wrN a (d.rd a).toNat).goClaim feature = d.goClaim feature := by
  simp only [Dev.goClaim, get_rewrite]

theorem cfgClaimGo_ends (s : State) (req v : Nat) : Ends (.cfgClaimGo req v) s fun e =>
    let d := s.dev
    let c := d.goClaim (v % 2 ^ 16)
    Granted d req R.CFG_CLAIM_GO v →
      (d.running = true ∨ d.st? = stSafe) ∧ Frame d e [] ∧
      e = { d with regs := e.regs, cfg := e.cfg, out := .reg req R.CFG_CLAIM_GO sOk 0 :: d.out } ∧
      e.cfg = { d.cfg with claims := if d.get F.CFG_CLAIM_RES_RELEASE = 1 then releaseFrom c d.cfg.claims else d.cfg.claims ++ [c] } ∧
      (d.get F.CFG_CLAIM_RES_RELEASE = 0 → ∀ x ∈ d.cfg.claims, claimsMeet x c = true → x.feature = c.feature) := by
  refine ends_of_upd (f := fun d => d.regWrite req R.CFG_CLAIM_GO v) rfl fun hg => ?_
  have hc := commandReg_claimGo
  obtain ⟨-, hv, hcheck, hleft⟩ := hc.granted hg
  have hnew : (s.dev.commandWr req 1 R.CFG_CLAIM_GO v [⟨15, 0, .wo⟩]).new % 2 ^ 16 = v % 2 ^ 16 :=
    hc.bits_commandWr_new (d := s.dev) (by simp [Dev.openTo]) hv (lo := 0) (n := 16) (by decide)
  obtain ⟨hstate, hconflict⟩ := cfgCheck_claim rfl hcheck
  rw [hnew] at hconflict
  have happly : blockApply (s.dev.wrN R.CFG_CLAIM_GO (s.dev.rd R.CFG_CLAIM_GO).toNat) 1
      (s.dev.commandWr req 1 R.CFG_CLAIM_GO v [⟨15, 0, .wo⟩]) =
      (s.dev.wrN R.CFG_CLAIM_GO (s.dev.rd R.CFG_CLAIM_GO).toNat).claimGo (v % 2 ^ 16) := by
    rw [← hnew]
    rfl
  rw [hleft, happly, claimGo_eq, get_rewrite, goClaim_rewrite]
  exact ⟨hstate, ⟨fun x _ => rd_rewrite _ _ x, fun _ => rfl⟩, rfl, rfl, hconflict⟩

/-! ### ITK_CNTCLR (R98) -/

/-- A counter is cleared where its bit is set. -/
def Dev.clearIf (d : Dev) (b : Bool) (a : Nat) : Dev := d.when b fun d => d.wrN a 0

theorem frame_clearIf (d : Dev) (b : Bool) (a : Nat) (as : List Nat) (h : a ∈ as) : Frame d (d.clearIf b a) as :=
  Frame.when b d (frame_wrN _ _ _ _ h)

theorem rd_clearIf_same (d : Dev) (b : Bool) (a : Nat) : ((d.clearIf b a).rd a).toNat = if b then 0 else (d.rd a).toNat := by
  cases b
  · rfl
  · rw [Dev.clearIf, when_true, rd_wrN_same]
    rfl

theorem rd_clearIf_ne (d : Dev) (b : Bool) (a : Nat) {x : Nat} (h : x ≠ a) : (d.clearIf b a).rd x = d.rd x := by
  cases b
  · rfl
  · exact rd_wrN_ne _ _ _ _ h

theorem clearIf_regs (d : Dev) (b : Bool) (a : Nat) : d.clearIf b a = { d with regs := (d.clearIf b a).regs } := by
  cases b <;> rfl

/-- The four counters of ITK_CNTCLR, by their bits. -/
def Dev.cntClear (d : Dev) (v : Nat) : Dev :=
  (((d.clearIf (bitB v 0) R.ITK_DROP_FMT).clearIf (bitB v 1) R.ITK_DROP_AUTH).clearIf (bitB v 2) R.ITK_DROP_WIN).clearIf (bitB v 3)
    R.ITK_LINKCNT

theorem cntClear_regs (d : Dev) (v : Nat) : d.cntClear v = { d with regs := (d.cntClear v).regs } := by
  simp only [Dev.cntClear]
  rw [clearIf_regs, clearIf_regs, clearIf_regs, clearIf_regs d]

theorem rd_cntClear (d : Dev) (v : Nat) :
    ((d.cntClear v).rd R.ITK_DROP_FMT).toNat = (if bitB v 0 then 0 else (d.rd R.ITK_DROP_FMT).toNat) ∧
    ((d.cntClear v).rd R.ITK_DROP_AUTH).toNat = (if bitB v 1 then 0 else (d.rd R.ITK_DROP_AUTH).toNat) ∧
    ((d.cntClear v).rd R.ITK_DROP_WIN).toNat = (if bitB v 2 then 0 else (d.rd R.ITK_DROP_WIN).toNat) ∧
    ((d.cntClear v).rd R.ITK_LINKCNT).toNat = (if bitB v 3 then 0 else (d.rd R.ITK_LINKCNT).toNat) := by
  simp (disch := decide) only [Dev.cntClear, rd_clearIf_same, rd_clearIf_ne, and_self]

theorem itkCntclr_ends (s : State) (req v : Nat) : Ends (.itkCntclr req v) s fun e =>
    let d := s.dev
    Granted d req R.ITK_CNTCLR v →
      Frame d e [R.ITK_DROP_FMT, R.ITK_DROP_AUTH, R.ITK_DROP_WIN, R.ITK_LINKCNT] ∧
      e = { d with regs := e.regs, out := .reg req R.ITK_CNTCLR sOk 0 :: d.out } ∧
      (e.rd R.ITK_DROP_FMT).toNat = (if bitB v 0 then 0 else (d.rd R.ITK_DROP_FMT).toNat) ∧
      (e.rd R.ITK_DROP_AUTH).toNat = (if bitB v 1 then 0 else (d.rd R.ITK_DROP_AUTH).toNat) ∧
      (e.rd R.ITK_DROP_WIN).toNat = (if bitB v 2 then 0 else (d.rd R.ITK_DROP_WIN).toNat) ∧
      (e.rd R.ITK_LINKCNT).toNat = (if bitB v 3 then 0 else (d.rd R.ITK_LINKCNT).toNat) := by
  refine ends_of_upd (f := fun d => d.regWrite req R.ITK_CNTCLR v) rfl fun hg => ?_
  have hc := commandReg_cntclr
  obtain ⟨-, hv, -, hleft⟩ := hc.granted hg
  have hbit (i : Nat) (hi : bits (2 ^ 32 - 1 - 0xF) i 1 = 0) :
      bitB (s.dev.commandWr req 7 R.ITK_CNTCLR v [⟨3, 0, .wo⟩]).new i = bitB v i := by
    rw [bitB_eq_bits, bitB_eq_bits, hc.bits_commandWr_new (by simp [Dev.openTo]) hv hi]
  have happly : blockApply (s.dev.wrN R.ITK_CNTCLR (s.dev.rd R.ITK_CNTCLR).toNat) 7
      (s.dev.commandWr req 7 R.ITK_CNTCLR v [⟨3, 0, .wo⟩]) = (s.dev.wrN R.ITK_CNTCLR (s.dev.rd R.ITK_CNTCLR).toNat).cntClear v := by
    rw [Dev.cntClear, ← hbit 0 (by decide), ← hbit 1 (by decide), ← hbit 2 (by decide), ← hbit 3 (by decide)]
    rfl
  rw [hleft, happly]
  have hcnt := rd_cntClear (s.dev.wrN R.ITK_CNTCLR (s.dev.rd R.ITK_CNTCLR).toNat) v
  simp only [rd_rewrite] at hcnt
  refine ⟨?_, by rw [cntClear_regs]; rfl, hcnt⟩
  have hframe := (((((frame_rewrite s.dev R.ITK_CNTCLR [R.ITK_DROP_FMT, R.ITK_DROP_AUTH, R.ITK_DROP_WIN, R.ITK_LINKCNT]).trans
    (frame_clearIf _ (bitB v 0) R.ITK_DROP_FMT _ (by simp))).trans (frame_clearIf _ (bitB v 1) R.ITK_DROP_AUTH _ (by simp))).trans
    (frame_clearIf _ (bitB v 2) R.ITK_DROP_WIN _ (by simp))).trans (frame_clearIf _ (bitB v 3) R.ITK_LINKCNT _ (by simp)))
  exact ⟨hframe.regs, hframe.mem⟩

/-! ### REJCLR (R38) -/

theorem rejclr_place (b : Fin 29) : blockOf (blockBase b + 0xC) = some b.val ∧ isHeader (blockBase b + 0xC) = true := by
  revert b
  decide +kernel

theorem headerWrite_ok {b a : Nat} (h : (d.headerWrite req b a v).1 = sOk) :
    (d.headerWrite req b a v).2 = (d.clearIf (bitB v 0) (blockBase b + 4)).clearIf (bitB v 1) (blockBase b + 8) := by
  revert h
  unfold Dev.headerWrite
  extract_lets body
  split_ifs
  · exact fun h => absurd (show sDenied = sOk from h) (by decide)
  · exact fun h => absurd (show sBadValue = sOk from h) (by decide)
  · exact fun _ => rfl

theorem rejclr_granted {b : Fin 29} (hg : Granted d req (blockBase b + 0xC) v) :
    d.regWrite req (blockBase b + 0xC) v =
      ((d.clearIf (bitB v 0) (blockBase b + 4)).clearIf (bitB v 1) (blockBase b + 8)).answer req (blockBase b + 0xC) sOk 0 := by
  obtain ⟨hb, hh⟩ := rejclr_place b
  obtain ⟨hok, hleft⟩ := hg.regWrite_eq hb
  rw [hleft]
  revert hok
  unfold Dev.writeReg
  split
  · exact fun h => absurd (show sBadValue = sOk from h) (by decide)
  · exact fun hok => by rw [headerWrite_ok hok]

theorem rejclr_ends (s : State) (req : Nat) (b : Fin 29) (v : Nat) : Ends (.rejclr req b v) s fun e =>
    let d := s.dev
    let rej := blockBase b + 4
    let cnt := blockBase b + 8
    Granted d req (blockBase b + 0xC) v →
      Frame d e [rej, cnt] ∧ e = { d with regs := e.regs, out := .reg req (blockBase b + 0xC) sOk 0 :: d.out } ∧
      (e.rd rej).toNat = (if bitB v 0 then 0 else (d.rd rej).toNat) ∧ (e.rd cnt).toNat = (if bitB v 1 then 0 else (d.rd cnt).toNat) := by
  refine ends_of_upd (f := fun d => d.regWrite req (blockBase b + 0xC) v) rfl fun hg => ?_
  rw [rejclr_granted hg]
  have hframe : Frame s.dev ((s.dev.clearIf (bitB v 0) (blockBase b + 4)).clearIf (bitB v 1) (blockBase b + 8))
      [blockBase b + 4, blockBase b + 8] := (frame_clearIf _ _ _ _ (by simp)).trans (frame_clearIf _ _ _ _ (by simp))
  refine ⟨⟨hframe.regs, hframe.mem⟩, by rw [clearIf_regs, clearIf_regs s.dev]; rfl, ?_, ?_⟩
  · rw [← rd_clearIf_same, ← rd_clearIf_ne (s.dev.clearIf _ _) (bitB v 1) (blockBase b + 8) (by omega)]
    rfl
  · rw [← rd_clearIf_ne s.dev (bitB v 0) (blockBase b + 4) (by omega), ← rd_clearIf_same]
    rfl

/-- Settles O12, register by register. -/
theorem systemRegisterWrites : Obligations.SystemRegisterWrites := by
  refine ⟨rejclr_ends, fun s req v => ?_, fun s req v => ?_, softwareReset_ends, cfgClaimGo_ends, fun s req v => ?_, itkCntclr_ends⟩
  · refine ends_of_upd (f := fun d => d.regWrite req R.SYS_HWD_KICK v) rfl fun hg => ?_
    obtain ⟨hv, hleft⟩ := hwdKick_granted hg
    rw [hleft]
    exact ⟨hv, ⟨fun x _ => rd_rewrite _ _ x, fun _ => rfl⟩, rfl, rfl⟩
  · refine ends_of_upd (f := fun d => d.regWrite req R.SYS_TWD_KICK v) rfl fun hg => ?_
    obtain ⟨hv, hreq, hleft⟩ := twdKick_granted hg
    rw [hleft]
    exact ⟨hv, hreq, ⟨fun x _ => rd_rewrite _ _ x, fun _ => rfl⟩, rfl, rfl⟩
  · refine ends_of_upd (f := fun d => d.regWrite req R.SEC_ERASE v) rfl fun hg => ?_
    obtain ⟨hv, hreq, hleft⟩ := secErase_granted hg
    rw [hleft]
    have herased := get_erased (s.dev.wrN R.SEC_ERASE (s.dev.rd R.SEC_ERASE).toNat) (v % 4)
    have hsec := erase_sec (s.dev.wrN R.SEC_ERASE (s.dev.rd R.SEC_ERASE).toNat) (v % 4)
    generalize (s.dev.wrN R.SEC_ERASE (s.dev.rd R.SEC_ERASE).toNat).erase (v % 4) = e at *
    exact ⟨hv, hreq, herased, (congrArg SecSt.keys hsec :), (congrArg SecSt.fuses hsec :)⟩

end Sys2Proof.Machine
end

section
/-! The size of a DMA ring over reserved bits. DMA_CHc_SIZE has the field 12:0, and the check of its legal range (16 to 4,096)
looks at the whole word that the write would leave, with the bits that no field covers as they were. A device that has a reserved
bit set there therefore rejects every size, although no register write sets one: R5 makes that a BAD_VALUE. -/

namespace Sys2Proof.Machine

/-- A device in READY whose DMA channel 0 is off, its ring at the first byte of the shared SRAM, with the reserved bit 13 set in
DMA_CH0_SIZE. -/
def reservedRingSize : Dev :=
  ((({} : Dev).put F.SYS_STATE_STATE stReady).wrN (R.DMA_CH_BASELO 0) sramBase).wrN (R.DMA_CH_SIZE 0) 0x2000

theorem reservedRingSize_hartWrites : HartWrites reservedRingSize 0 := by decide +kernel

theorem reservedRingSize_off : reservedRingSize.get (F.DMA_CH_CFG_ENABLE 0) = 0 := by decide +kernel

theorem reservedRingSize_inSram : inSram ((reservedRingSize.rd (R.DMA_CH_BASELO 0)).toNat +
    2 ^ 32 * ((reservedRingSize.rd (R.DMA_CH_BASEHI 0)).toNat % 256)) (32 * 16) = true := by decide +kernel

/-- The model rejects the legal size 16. -/
theorem reservedRingSize_badValue : (reservedRingSize.busW 0 (R.DMA_CH_SIZE 0) 4 16).1 = sBadValue := by decide +kernel

/-- Refutes O56: its clause on DMA_CHc_SIZE asks nothing of the reserved bits of the register, and over one that is set the write of
a legal size to a channel that is off is BAD_VALUE. -/
theorem not_writesThatPass : ¬ Obligations.WritesThatPass := by
  unfold Obligations.WritesThatPass
  rintro ⟨-, -, -, -, -, hsize, -⟩
  obtain ⟨-, hok⟩ := hsize reservedRingSize 0 0 16 reservedRingSize_hartWrites (by decide) (by decide) reservedRingSize_off
    (Bool.or_eq_true_iff.mpr (.inl reservedRingSize_inSram))
  exact absurd (reservedRingSize_badValue.symm.trans hok) (by decide)

end Sys2Proof.Machine
end

section
/-! Sparse maps beyond one write: what a choice of keys keeps, and that a map in canonical form lists a key once. -/

namespace Sys2Proof.Machine

/-- Below the least key of a map in canonical form every value is the default. -/
theorem spGet_below {α : Type} [DecidableEq α] (dv : α) {dflt : Nat → α} {m : List (Nat × α)} {lo a : Nat}
    (hm : spWf dflt lo m = true) (ha : a < lo) : spGet dv m a = dv := by
  cases m with
  | nil => rfl
  | cons x r =>
    obtain ⟨b, w⟩ := x
    simp only [spWf, Bool.and_eq_true, decide_eq_true_eq] at hm
    rw [spGet, if_neg (by omega), if_pos (by omega)]

/-- Of a map in canonical form a choice of keys keeps the values at those keys, and no others. -/
theorem spGet_filter {α : Type} [DecidableEq α] (dv : α) {dflt : Nat → α} (p : Nat → Bool) {m : List (Nat × α)} {lo : Nat}
    (hm : spWf dflt lo m = true) (a : Nat) : spGet dv (m.filter fun x => p x.1) a = if p a then spGet dv m a else dv := by
  induction m generalizing lo with
  | nil => simp [spGet]
  | cons x r ih =>
    obtain ⟨b, w⟩ := x
    simp only [spWf, Bool.and_eq_true, decide_eq_true_eq] at hm
    have htail := ih hm.2
    by_cases hb : p b
    · rw [List.filter_cons_of_pos (p := fun x : Nat × α => p x.1) hb, spGet, spGet, htail]
      by_cases hab : a = b
      · simp [hab, hb]
      · simp only [hab, if_false]
        split <;> simp
    · rw [List.filter_cons_of_neg (p := fun x : Nat × α => p x.1) hb, htail, spGet]
      by_cases hab : a = b
      · simp [hab, hb]
      · by_cases hlt : a < b
        · simp [hab, hlt, spGet_below dv hm.2 (by omega : a < b + 1)]
        · simp [hab, hlt]

/-- A map in canonical form lists every key once. -/
theorem spWf_nodup {α : Type} [DecidableEq α] {dflt : Nat → α} {m : List (Nat × α)} {lo : Nat} (hm : spWf dflt lo m = true) :
    (∀ x ∈ m, lo ≤ x.1) ∧ (m.map Prod.fst).Nodup := by
  induction m generalizing lo with
  | nil => simp
  | cons x r ih =>
    obtain ⟨b, w⟩ := x
    simp only [spWf, Bool.and_eq_true, decide_eq_true_eq] at hm
    obtain ⟨⟨hlo, -⟩, hr⟩ := hm
    obtain ⟨hge, hnd⟩ := ih hr
    refine ⟨?_, ?_⟩
    · intro x hx
      rcases List.mem_cons.mp hx with rfl | hx
      · exact hlo
      · have := hge x hx
        omega
    · rw [List.map_cons, List.nodup_cons]
      refine ⟨fun hb => ?_, hnd⟩
      obtain ⟨y, hy, hyb⟩ := List.mem_map.mp hb
      have := hge y hy
      omega

end Sys2Proof.Machine
end

section
/-! The device resets (R44, R46, R480). -/

namespace Sys2Proof.Machine

/-- A byte of memory that a reset does not lose is one of MRAM. -/
theorem ldB_filter_mram {d e : Dev} (hm : d.mem.wf) (he : e.mem = d.mem.filter fun c => decide (mramBase ≤ c.1) && decide (c.1 < sramBase))
    (x : Nat) : e.ldB x = if mramBase ≤ x ∧ x < sramBase then d.ldB x else memDefault := by
  rw [Dev.ldB, he, spGet_filter memDefault (fun a => decide (mramBase ≤ a) && decide (a < sramBase)) hm]
  simp only [Bool.and_eq_true, decide_eq_true_eq]
  rfl

theorem mem_deviceReset_lost (d : Dev) (causeBit : Nat) :
    (d.deviceReset causeBit true).mem = d.mem.filter fun c => decide (mramBase ≤ c.1) && decide (c.1 < sramBase) := rfl

theorem reps_deviceReset (d : Dev) (causeBit : Nat) (memLost : Bool) : (d.deviceReset causeBit memLost).reps = [] := rfl

theorem off_deviceReset (d : Dev) (causeBit : Nat) (memLost : Bool) : (d.deviceReset causeBit memLost).sys.off = false := rfl

theorem st_onSys (d : Dev) (f : SysSt → SysSt) : (d.onSys f).st? = d.st? := rfl

theorem st_wrN_ne (d : Dev) (a v : Nat) (h : R.SYS_STATE ≠ a) : (d.wrN a v).st? = d.st? := get_wrN_ne d a v F.SYS_STATE_STATE h

/-- A feed is valid again (R44): REFCLK runs, and PIN_PWRSTAT shows feeds, switches, VIOM and rails. -/
def Dev.poweredOn (d : Dev) (vina vinb viom33 : Bool) : Dev :=
  let ok := (if vina then 1 else 0) + (if vinb then 2 else 0)
  (d.onSys fun t => { t with refclk := true }).wrN R.PIN_PWRSTAT (ok + 4 * ok + (if viom33 then 16 else 0) + 32)

theorem rd_poweredOn_ne (d : Dev) (a b v : Bool) {x : Nat} (h : x ≠ R.PIN_PWRSTAT) : (d.poweredOn a b v).rd x = d.rd x :=
  rd_wrN_ne _ _ _ _ h

theorem st_poweredOn (d : Dev) (a b v : Bool) : (d.poweredOn a b v).st? = d.st? := st_wrN_ne _ _ _ (by decide)

theorem get_vina_poweredOn (d : Dev) (a b v : Bool) : (d.poweredOn a b v).get F.PIN_PWRSTAT_VINA_OK = a.toNat :=
  (get_wrN_same _ _ _ _ _).trans (by cases a <;> cases b <;> cases v <;> rfl)

theorem get_vinb_poweredOn (d : Dev) (a b v : Bool) : (d.poweredOn a b v).get F.PIN_PWRSTAT_VINB_OK = b.toNat :=
  (get_wrN_same _ _ _ _ _).trans (by cases a <;> cases b <;> cases v <;> rfl)

theorem powerOnReset_ends (s : State) (a b v : Bool) : Ends (.powerOnReset a b v) s fun e =>
    let d := s.dev
    if a || b then
      e.st? = stBoot ∧ (e.rd R.SYS_RSTCAUSE).toNat = 1 ∧ e.sec.fuses = d.sec.fuses ∧ e.flash = d.flash ∧ e.reps = [] ∧
      e.mem = (d.mem.filter fun c => decide (mramBase ≤ c.1) && decide (c.1 < sramBase)) ∧
      (d.mem.wf → ∀ x, e.ldB x = if mramBase ≤ x ∧ x < sramBase then d.ldB x else memDefault) ∧
      e.itk = {} ∧ e.cfg = {} ∧ e.sys.off = false ∧ e.sys.refclk = true ∧
      e.get F.PIN_PWRSTAT_VINA_OK = a.toNat ∧ e.get F.PIN_PWRSTAT_VINB_OK = b.toNat
    else e = d := by
  refine ends_of_upd (f := fun d => if a || b then (d.deviceReset 0 true).poweredOn a b v else d) rfl ?_
  by_cases h : (a || b) = true
  · simp only [if_pos h]
    have hst := st_deviceReset s.dev 0 true
    have hcause := rd_rstcause_deviceReset s.dev 0 true
    obtain ⟨hitk, hcfg, hfuses, hflash⟩ := deviceReset_parts s.dev 0 true
    have hreps := reps_deviceReset s.dev 0 true
    have hoff := off_deviceReset s.dev 0 true
    have hmem := mem_deviceReset_lost s.dev 0
    generalize s.dev.deviceReset 0 true = e at *
    refine ⟨?_, ?_, hfuses, hflash, hreps, hmem, fun hm => ldB_filter_mram hm hmem, hitk, hcfg, hoff, rfl, ?_, ?_⟩
    · rw [st_poweredOn, hst]
    · rw [rd_poweredOn_ne _ _ _ _ (by decide), hcause]
      rfl
    · exact get_vina_poweredOn e a b v
    · exact get_vinb_poweredOn e a b v
  · simp only [if_neg h]

theorem rstNAssert_ends (s : State) : Ends .rstNAssert s fun e =>
    let d := s.dev
    e.sys.rstN = false ∧ (∀ x, e.ldB x = d.ldB x) ∧ e.sec.fuses = d.sec.fuses ∧ e.flash = d.flash ∧
    if d.sys.off then e = { d with sys := e.sys }
    else e.st? = stBoot ∧ (e.rd R.SYS_RSTCAUSE).toNat = 2 ∧ e.reps = [] ∧ e.itk = {} ∧ e.cfg = {} := by
  refine ends_of_upd (f := fun d =>
    if d.sys.off then d.onSys fun t => { t with rstN := false } else (d.deviceReset 1 false).onSys fun t => { t with rstN := false }) rfl ?_
  by_cases h : s.dev.sys.off = true
  · simp only [if_pos h]
    exact ⟨rfl, fun _ => rfl, rfl, rfl, rfl⟩
  · simp only [if_neg h]
    have hst := st_deviceReset s.dev 1 false
    have hcause := rd_rstcause_deviceReset s.dev 1 false
    obtain ⟨hitk, hcfg, hfuses, hflash⟩ := deviceReset_parts s.dev 1 false
    have hreps := reps_deviceReset s.dev 1 false
    have hmem := ldB_deviceReset s.dev 1
    generalize s.dev.deviceReset 1 false = e at *
    exact ⟨rfl, hmem, hfuses, hflash, hst, congrArg BitVec.toNat hcause, hreps, hitk, hcfg⟩

theorem supplyLoss_ends (s : State) : Ends .supplyLoss s fun e =>
    let d := s.dev
    e.sys.off = true ∧ e.st? = stBoot ∧ (e.rd R.SYS_RSTCAUSE).toNat = 1 ∧ e.sec.fuses = d.sec.fuses ∧ e.flash = d.flash ∧
    e.reps = [] ∧ e.itk = {} ∧ e.cfg = {} ∧ (e.rd R.PIN_PWRSTAT).toNat = 0 ∧
    e.mem = (d.mem.filter fun c => decide (mramBase ≤ c.1) && decide (c.1 < sramBase)) ∧
      (d.mem.wf → ∀ x, e.ldB x = if mramBase ≤ x ∧ x < sramBase then d.ldB x else memDefault) := by
  refine ends_of_upd (f := fun d => ((d.deviceReset 0 true).onSys fun t => { t with off := true }).wrN R.PIN_PWRSTAT 0) rfl ?_
  have hst := st_deviceReset s.dev 0 true
  have hcause := rd_rstcause_deviceReset s.dev 0 true
  obtain ⟨hitk, hcfg, hfuses, hflash⟩ := deviceReset_parts s.dev 0 true
  have hreps := reps_deviceReset s.dev 0 true
  have hmem := mem_deviceReset_lost s.dev 0
  generalize s.dev.deviceReset 0 true = e at *
  refine ⟨rfl, ?_, ?_, hfuses, hflash, hreps, hitk, hcfg, ?_, hmem, fun hm => ldB_filter_mram hm hmem⟩
  · rw [st_wrN_ne _ _ _ (by decide), st_onSys, hst]
  · rw [rd_wrN_ne _ _ _ _ (by decide), onSys_rd, hcause]
    rfl
  · rw [rd_wrN_same]
    rfl

/-- Settles O3, command by command. -/
theorem resetCommands : Obligations.ResetCommands :=
  ⟨powerOnReset_ends, rstNAssert_ends, fun _ =>
    ends_of_upd (f := fun d => d.onSys fun t => { t with rstN := true, startC := d.c }) rfl ⟨rfl, rfl⟩, supplyLoss_ends⟩

end Sys2Proof.Machine
end

section
/-! What a served mailbox request leaves (R85 to R87): the round robin past its channel, the answer's registers, and what the
opcode itself has done. -/

namespace Sys2Proof.Machine

/-! ### Bits of a field -/

theorem bit_setBit_same (d : Dev) (f : Fld) (i : Nat) (hf : f.lo + f.width ≤ 32) (hi : i < f.width) : (d.setBit f i).bit f i = true := by
  rw [Dev.bit, Dev.setBit, get_put_same _ _ _ hf, bitB, Nat.testBit_mod_two_pow, Nat.testBit_or]
  simp [hi]

theorem bit_clrBit_same (d : Dev) (f : Fld) (i : Nat) (hf : f.lo + f.width ≤ 32) : (d.clrBit f i).bit f i = false := by
  unfold Dev.clrBit
  split
  · next hset =>
    have hodd : d.get f / 2 ^ i % 2 = 1 := by simpa [Dev.bit, bitB, Nat.testBit_eq_decide_div_mod_eq] using hset
    have hsub : (d.get f - 2 ^ i) / 2 ^ i = d.get f / 2 ^ i - 1 := by
      simpa using Nat.sub_mul_div (d.get f) (2 ^ i) 1
    have heven : (d.get f - 2 ^ i) / 2 ^ i % 2 = 0 := by omega
    rw [Dev.bit, get_put_same _ _ _ hf, bitB, Nat.testBit_mod_two_pow, Nat.testBit_eq_decide_div_mod_eq, heven]
    simp
  · next hclear => simpa using hclear

/-- A field of a register outside the frame's list reads as before. -/
theorem Frame.get {d e : Dev} {as : List Nat} (h : Frame d e as) {f : Fld} (hf : f.addr ∉ as) : e.get f = d.get f := by
  unfold Dev.get
  rw [h.regs _ hf]

theorem frame_clrBit (d : Dev) (f : Fld) (i : Nat) (as : List Nat) (h : f.addr ∈ as) : Frame d (d.clrBit f i) as := by
  unfold Dev.clrBit
  split
  · exact frame_put _ _ _ _ h
  · exact .refl _ _

theorem clrBit_eq (d : Dev) (f : Fld) (i : Nat) : d.clrBit f i = { d with regs := (d.clrBit f i).regs } := by
  unfold Dev.clrBit
  split <;> rfl

/-! ### The answer on a channel -/

theorem lt_of_mem_mbxRegs {a n : Nat} (h : a ∈ mbxRegs n) : blockBase 6 ≤ a := by
  simp only [mbxRegs, List.mem_append, List.mem_cons, List.mem_map, List.mem_range, List.not_mem_nil, or_false] at h
  simp only [R.MBX_TPEND, R.MBX_IRQ_STAT, R.MBX_CTL, R.MBX_RSP_W] at h
  have hb : blockBase 6 = 0x02060000 := rfl
  rcases h with (h | h | h) | ⟨k, -, h⟩ <;> omega

/-- A register below the mailbox is none that an answer writes. -/
theorem notMem_mbxRegs {a n : Nat} (h : a < blockBase 6) : a ∉ mbxRegs n := fun hm => absurd (lt_of_mem_mbxRegs hm) (by omega)

/-- The request waits no longer, and the first response word is written. -/
def Dev.mbxWord (d : Dev) (n st : Nat) (ws : List Nat) : Dev :=
  (d.clrBit F.MBX_TPEND_PEND n).wrN (R.MBX_RSP_W n 0)
    (st + ws.length * 2 ^ 8 + d.reqHead n / 2 ^ 16 % 256 * 2 ^ 16 + d.reqHead n % 256 * 2 ^ 24)

/-- The request has ended: BUSY clear, DONE, and the channel's line. -/
def Dev.mbxEnd (d : Dev) (n : Nat) : Dev :=
  ((d.put (F.MBX_CTL_BUSY n) 0).put (F.MBX_CTL_DONE n) 1).setBit F.MBX_IRQ_STAT_DONE n

theorem mbxDone_nil (d : Dev) (n st : Nat) : d.mbxDone n st [] = ((d.mbxWord n st []).mbxEnd n).emit (.mbx n st []) := rfl

theorem frame_emit (d : Dev) (o : Out) (as : List Nat) : Frame d (d.emit o) as := ⟨fun a _ => emit_rd d o a, emit_ldB d o⟩

section
variable (d : Dev) (n st : Nat)

theorem frame_mbxWord (ws : List Nat) : Frame d (d.mbxWord n st ws) (mbxRegs n) :=
  (frame_clrBit _ _ _ _ (List.mem_append_left _ (by simp [F.MBX_TPEND_PEND]))).trans
    (frame_wrN _ _ _ _ (List.mem_append_right _ (List.mem_map_of_mem (by decide))))

theorem frame_mbxEnd : Frame d (d.mbxEnd n) (mbxRegs n) := by
  have hctl : R.MBX_CTL n ∈ mbxRegs n := List.mem_append_left _ (by simp)
  exact ((frame_put _ _ _ _ hctl).trans (frame_put _ _ _ _ hctl)).trans
    (frame_put _ _ _ _ (List.mem_append_left _ (by simp [F.MBX_IRQ_STAT_DONE])))

/-- An answer writes its channel's registers alone. -/
theorem frame_mbxDone : Frame d (d.mbxDone n st []) (mbxRegs n) := by
  rw [mbxDone_nil]
  exact ((frame_mbxWord d n st []).trans (frame_mbxEnd (d.mbxWord n st []) n)).trans (frame_emit _ _ _)

theorem mbxDone_eq : d.mbxDone n st [] = { d with regs := (d.mbxDone n st []).regs, out := .mbx n st [] :: d.out } := by
  rw [mbxDone_nil, Dev.mbxWord, clrBit_eq]
  rfl

@[simp] theorem mbxDone_sys : (d.mbxDone n st []).sys = d.sys := by rw [mbxDone_eq]
@[simp] theorem mbxDone_cfg : (d.mbxDone n st []).cfg = d.cfg := by rw [mbxDone_eq]
@[simp] theorem mbxDone_flash : (d.mbxDone n st []).flash = d.flash := by rw [mbxDone_eq]
@[simp] theorem mbxDone_reps : (d.mbxDone n st []).reps = d.reps := by rw [mbxDone_eq]
@[simp] theorem mbxDone_out : (d.mbxDone n st []).out = .mbx n st [] :: d.out := by rw [mbxDone_eq]

theorem ctl_ne_line : R.MBX_CTL n ≠ R.MBX_IRQ_STAT := by
  unfold R.MBX_CTL R.MBX_IRQ_STAT
  omega

theorem get_ctl_setLine (f : Fld) (hf : f.addr = R.MBX_CTL n) : (d.setBit F.MBX_IRQ_STAT_DONE n).get f = d.get f :=
  get_put_ne _ _ _ _ (by rw [hf]; exact ctl_ne_line n)

theorem get_done_mbxEnd : (d.mbxEnd n).get (F.MBX_CTL_DONE n) = 1 := by
  rw [Dev.mbxEnd, get_ctl_setLine _ _ _ rfl]
  exact get_put_same _ _ _ (by decide : 2 + 1 ≤ 32)

theorem get_busy_mbxEnd : (d.mbxEnd n).get (F.MBX_CTL_BUSY n) = 0 := by
  rw [Dev.mbxEnd, get_ctl_setLine _ _ _ rfl]
  exact (get_put_apart (d.put (F.MBX_CTL_BUSY n) 0) (F.MBX_CTL_DONE n) (F.MBX_CTL_BUSY n) 1 (by decide : 2 + 1 ≤ 32) rfl
    (.inl (by decide : 1 + 1 ≤ 2))).trans (get_put_same _ _ _ (by decide : 1 + 1 ≤ 32))

theorem mbxDone_done : (d.mbxDone n st []).get (F.MBX_CTL_DONE n) = 1 := by rw [mbxDone_nil, emit_get, get_done_mbxEnd]

theorem mbxDone_idle : (d.mbxDone n st []).get (F.MBX_CTL_BUSY n) = 0 := by rw [mbxDone_nil, emit_get, get_busy_mbxEnd]

theorem rd_word_mbxEnd : (d.mbxEnd n).rd (R.MBX_RSP_W n 0) = d.rd (R.MBX_RSP_W n 0) := by
  have hctl : R.MBX_RSP_W n 0 ≠ R.MBX_CTL n := by unfold R.MBX_RSP_W R.MBX_CTL; omega
  have hline : R.MBX_RSP_W n 0 ≠ R.MBX_IRQ_STAT := by unfold R.MBX_RSP_W R.MBX_IRQ_STAT; omega
  exact (rd_put_ne _ _ _ _ hline).trans ((rd_put_ne _ _ _ _ hctl).trans (rd_put_ne _ _ _ _ hctl))

theorem rd_pend_mbxEnd : (d.mbxEnd n).rd R.MBX_TPEND = d.rd R.MBX_TPEND := by
  have hctl : R.MBX_TPEND ≠ R.MBX_CTL n := by unfold R.MBX_TPEND R.MBX_CTL; omega
  exact (rd_put_ne _ _ _ _ (by decide)).trans ((rd_put_ne _ _ _ _ hctl).trans (rd_put_ne _ _ _ _ hctl))

end

/-- The request of a channel has been answered with a status alone (R85, R86). -/
theorem answered_mbxDone {d q : Dev} {n : Nat} (hn : n < 4) (st : Nat) (hreq : q.reqHead n = d.reqHead n)
    (hnext : q.sys.mbxNext = (n + 1) % 4) : Answered d (q.mbxDone n st []) n st [] := by
  refine ⟨by rw [mbxDone_out, List.head?_cons], ?_, fun k hk => absurd hk (Nat.not_lt_zero _), mbxDone_done _ _ _, mbxDone_idle _ _ _, ?_, ?_,
    by rw [mbxDone_sys, hnext]⟩
  · rw [mbxDone_nil, emit_rd, rd_word_mbxEnd, Dev.mbxWord, rd_wrN_same, BitVec.toNat_ofNat, hreq, show (256 : Nat) = 2 ^ 8 from rfl]
  · rw [mbxDone_nil, Dev.bit, emit_get]
    exact bit_setBit_same _ _ _ (by decide) hn
  · have hrsp : R.MBX_TPEND ≠ R.MBX_RSP_W n 0 := by unfold R.MBX_TPEND R.MBX_RSP_W; omega
    have hclear := bit_clrBit_same q F.MBX_TPEND_PEND n (by decide)
    unfold Dev.bit Dev.get at hclear ⊢
    rw [mbxDone_nil, emit_rd]
    simp only [F.MBX_TPEND_PEND] at hclear ⊢
    rw [rd_pend_mbxEnd, Dev.mbxWord, rd_wrN_ne _ _ _ _ hrsp]
    exact hclear

/-! ### Serving a request -/

theorem frame_mbxTake (d : Dev) (n : Nat) (as : List Nat) : Frame d (d.mbxTake n) as := ⟨fun a _ => onSys_rd d _ a, onSys_ldB d _⟩

@[simp] theorem mbxTake_cfg (d : Dev) (n : Nat) : (d.mbxTake n).cfg = d.cfg := rfl
@[simp] theorem mbxTake_arg (d : Dev) (n k m : Nat) : (d.mbxTake n).arg m k = d.arg m k := rfl
@[simp] theorem mbxTake_mbxBuf (d : Dev) (n a len : Nat) : (d.mbxTake n).mbxBuf a len = d.mbxBuf a len := rfl

theorem mbxCheck4_asks {d : Dev} {n : Nat} {r : MbxRow} (h : Asks d n r) : (d.mbxTake n).mbxCheck4 n r = sOk := by
  obtain ⟨-, -, hlen, hrsv, hgroup, hstate⟩ := h
  have hallows : (d.mbxTake n).mbxAllows r.states = true := hstate
  have hbits : (d.mbxTake n).bit F.SEC_MBX_ALLOW_GROUP r.group = d.bit F.SEC_MBX_ALLOW_GROUP r.group := rfl
  have hhead : (d.mbxTake n).reqHead n = d.reqHead n := rfl
  have hlen' : (d.reqHead n / 2 ^ 8 % 256 != r.len || d.reqHead n / 2 ^ 24 != 0) = false := by
    rw [hrsv, show d.reqHead n / 2 ^ 8 % 256 = r.len from hlen]
    simp
  have hgroup' : (r.group != 7 && !(d.bit F.SEC_MBX_ALLOW_GROUP r.group)) = false := by
    rcases hgroup with hg | hg <;> simp [hg]
  simp only [Dev.mbxCheck4, hhead, hbits, hlen', hgroup', hallows]
  rfl

/-- A request that passes checks 1 to 4 is answered with a status alone, where its opcode's own part says so. -/
theorem mbxServe_status {d q : Dev} {n st : Nat} {r : MbxRow} {f : Dev → Option (Nat × List Nat) × Dev} (h : Asks d n r)
    (hf : f (d.mbxTake n) = mbxStatus st q) : d.mbxServe n r f = q.mbxDone n st [] := by
  have hcheck := mbxCheck4_asks h
  obtain ⟨hturn, hop, -⟩ := h
  unfold Dev.mbxServe
  rw [if_neg (by simp only [hturn, ne_eq, not_true, false_or]; exact not_not.mpr hop)]
  simp only [hcheck, hf, ne_eq, not_true, if_false, mbxStatus]

/-- A request whose answer is still to come. -/
theorem mbxServe_waits {d q : Dev} {n : Nat} {r : MbxRow} {f : Dev → Option (Nat × List Nat) × Dev} (h : Asks d n r)
    (hf : f (d.mbxTake n) = (none, q)) : d.mbxServe n r f = q := by
  have hcheck := mbxCheck4_asks h
  obtain ⟨hturn, hop, -⟩ := h
  unfold Dev.mbxServe
  rw [if_neg (by simp only [hturn, ne_eq, not_true, false_or]; exact not_not.mpr hop)]
  simp only [hcheck, hf, ne_eq, not_true, if_false]

/-- A request that is answered with a status and has done nothing else (R87). -/
theorem declined_mbxDone (d : Dev) {n : Nat} (hn : n < 4) (st : Nat) : Declined d ((d.mbxTake n).mbxDone n st []) n st :=
  ⟨answered_mbxDone hn st rfl rfl, (frame_mbxTake d n _).trans (frame_mbxDone _ _ _), mbxDone_eq (d.mbxTake n) n st⟩

end Sys2Proof.Machine
end

section
/-! Image updates through the mailbox (R72, R73, R88). -/

namespace Sys2Proof.Machine

/-! ### The bytes of the flash -/

theorem flB_flWr_one_same (d : Dev) (a : Nat) (v : Byte) : (d.flWr a [v]).flB a = v := spGet_spPut_same _ _ _ _

theorem flB_flWr_one_ne (d : Dev) (a c : Nat) (v : Byte) (h : c ≠ a) : (d.flWr a [v]).flB c = d.flB c := spGet_spPut_ne _ _ _ _ _ _ h

theorem updWrite_cons (d : Dev) (slot : Nat) (x : Nat × Byte) (l : Mem) :
    d.updWrite slot (x :: l) = (d.flWr (d.slotBase slot + x.1) [x.2]).updWrite slot l := rfl

/-- Writing image bytes changes the flash alone. -/
theorem updWrite_eq (d : Dev) (slot : Nat) (l : Mem) : d.updWrite slot l = { d with flash := (d.updWrite slot l).flash } := by
  induction l generalizing d with
  | nil => rfl
  | cons x l ih =>
    rw [updWrite_cons, ih]
    rfl

theorem slotBase_updWrite (d : Dev) (slot : Nat) (l : Mem) : (d.updWrite slot l).slotBase slot = d.slotBase slot := by
  rw [updWrite_eq]
  rfl

/-- A byte whose offset is none of those written stays. -/
theorem flB_updWrite_out (d : Dev) (slot k : Nat) (l : Mem) (h : ∀ x ∈ l, x.1 ≠ k) :
    (d.updWrite slot l).flB (d.slotBase slot + k) = d.flB (d.slotBase slot + k) := by
  induction l generalizing d with
  | nil => rfl
  | cons x l ih =>
    have hk : x.1 ≠ k := h x List.mem_cons_self
    rw [updWrite_cons]
    refine (ih (d.flWr (d.slotBase slot + x.1) [x.2]) fun y hy => h y (List.mem_cons_of_mem x hy)).trans ?_
    exact flB_flWr_one_ne _ _ _ _ (show d.slotBase slot + k ≠ d.slotBase slot + x.1 by omega)

/-- Bytes whose offsets differ are all written. -/
theorem flB_updWrite_mem (d : Dev) (slot : Nat) {l : Mem} (hl : (l.map Prod.fst).Nodup) {x : Nat × Byte} (hx : x ∈ l) :
    (d.updWrite slot l).flB (d.slotBase slot + x.1) = x.2 := by
  induction l generalizing d with
  | nil => exact absurd hx List.not_mem_nil
  | cons y l ih =>
    rw [List.map_cons, List.nodup_cons] at hl
    obtain ⟨hnew, hl⟩ := hl
    rw [updWrite_cons]
    rcases List.mem_cons.mp hx with rfl | hx
    · refine (flB_updWrite_out (d.flWr (d.slotBase slot + x.1) [x.2]) slot x.1 l fun z hz he => ?_).trans (flB_flWr_one_same _ _ _)
      exact hnew (he ▸ List.mem_map_of_mem hz)
    · exact ih (d.flWr (d.slotBase slot + y.1) [y.2]) hl hx

theorem nodup_filter_of_flashWf {m : Mem} (hm : m.flashWf) (p : Host.Cell → Bool) : ((m.filter p).map Prod.fst).Nodup :=
  (spWf_nodup (spWf_filter _ p _ _ hm)).2

/-! ### UPD_OPEN (R73) -/

/-- Why an UPD_OPEN is refused (R73), OK where it is not. -/
def Dev.openStatus (d : Dev) (n : Nat) : Nat :=
  firstFail [(1 < d.arg n 0, sBadValue), (d.arg n 2 ≤ d.cfg.seq, sSequence), (d.arg n 2 < d.arg n 3, sBadValue),
    (0x4000000 < d.arg n 1, sNoRoom), (d.arg n 0 == d.cfg.slot, sDenied), (d.cfg.upd.isSome, sBusy)]

/-- The slot named is erased, and the update is open (R72). -/
def Dev.openUpdate (d : Dev) (n : Nat) : Dev :=
  let base := d.slotBase (d.arg n 0)
  let d1 : Dev := { d with flash := d.flash.filter fun x => !(base ≤ x.1 && x.1 < base + 0x4000000) }
  let d2 := d1.onCfg fun t =>
    { t with upd := some (d.arg n 0, d.arg n 1, d.arg n 2, d.arg n 3), updErased := false, updClosed := false, updData := none, updHeld := [] }
  d2.put F.CFG_UPDSTAT_STEP 1

/-- UPD_OPEN on channel `n`. -/
def Dev.serveOpen (d : Dev) (n : Nat) : Dev := d.mbxServe n { op := 0x30, len := 4, group := 3, states := .onward } fun d =>
  if d.openStatus n ≠ sOk then mbxStatus (d.openStatus n) d else mbxStatus sOk (d.openUpdate n)

theorem exec_updOpen (n : Fin 4) (s : State) : exec (.updOpen n) s = s.upd fun d => d.serveOpen n := rfl

section
variable {d : Dev} {n : Nat} (h : Asks d n { op := 0x30, len := 4, group := 3, states := .onward })
include h

theorem serveOpen_refused (hst : d.openStatus n ≠ sOk) : d.serveOpen n = (d.mbxTake n).mbxDone n (d.openStatus n) [] :=
  mbxServe_status h (if_pos hst)

theorem serveOpen_taken (hst : d.openStatus n = sOk) : d.serveOpen n = ((d.mbxTake n).openUpdate n).mbxDone n sOk [] :=
  mbxServe_status h (if_neg (not_not.mpr hst))

end

theorem frame_openUpdate (d : Dev) (n : Nat) : Frame d (d.openUpdate n) (R.CFG_UPDSTAT :: mbxRegs n) :=
  ⟨fun _ ha => rd_put_ne _ _ _ _ fun he => ha (he ▸ List.mem_cons_self), fun _ => rfl⟩

theorem flB_openUpdate (d : Dev) (n : Nat) (h : d.flash.flashWf) (x : Nat) : (d.openUpdate n).flB x =
    if d.slotBase (d.arg n 0) ≤ x ∧ x < d.slotBase (d.arg n 0) + 0x4000000 then 0xFF else d.flB x := by
  have hf := spGet_filter flashDefault
    (fun a => !(d.slotBase (d.arg n 0) ≤ a && a < d.slotBase (d.arg n 0) + 0x4000000)) (show spWf _ 0 d.flash = true from h) x
  refine hf.trans ?_
  by_cases hin : d.slotBase (d.arg n 0) ≤ x ∧ x < d.slotBase (d.arg n 0) + 0x4000000
  · simp [hin, flashDefault]
  · rw [if_neg hin, if_pos (by simpa only [Bool.not_eq_true', Bool.and_eq_false_iff, decide_eq_false_iff_not, ← not_and_or] using hin)]
    rfl

/-- A register below the mailbox is none of a request's. -/
theorem reqHead_put (d : Dev) (n : Nat) (f : Fld) (v : Nat) (h : f.addr < blockBase 6) : (d.put f v).reqHead n = d.reqHead n := by
  unfold Dev.reqHead
  rw [rd_put_ne]
  have hb : blockBase 6 = 0x02060000 := rfl
  unfold R.MBX_REQ_W
  omega

theorem updOpen_ends (s : State) (n : Fin 4) : Ends (.updOpen n) s fun e =>
    let d := s.dev
    let slot := d.arg n 0
    let sq := d.arg n 2
    Asks d n { op := 0x30, len := 4, group := 3, states := .onward } →
      if 1 < slot then Declined d e n sBadValue
      else if sq ≤ d.cfg.seq then Declined d e n sSequence
      else if sq < d.arg n 3 then Declined d e n sBadValue
      else if 0x4000000 < d.arg n 1 then Declined d e n sNoRoom
      else if slot = d.cfg.slot then Declined d e n sDenied
      else if d.cfg.upd.isSome then Declined d e n sBusy
      else
        Answered d e n sOk [] ∧ Frame d e (R.CFG_UPDSTAT :: mbxRegs n) ∧
        e = { d with regs := e.regs, sys := e.sys, out := e.out, cfg := e.cfg, flash := e.flash } ∧ e.get F.CFG_UPDSTAT_STEP = 1 ∧
        e.cfg = { d.cfg with upd := some (slot, d.arg n 1, sq, d.arg n 3), updErased := false, updClosed := false, updData := none,
                             updHeld := [] } ∧
        (d.flash.flashWf → ∀ x, e.flB x = if d.slotBase slot ≤ x ∧ x < d.slotBase slot + 0x4000000 then 0xFF else d.flB x) := by
  refine ends_of_upd (exec_updOpen n s) fun h => ?_
  have hrefused : ∀ st, s.dev.openStatus n = st → st ≠ sOk → Declined s.dev (s.dev.serveOpen n) n st := fun st hst hne => by
    rw [serveOpen_refused h (hst ▸ hne), hst]
    exact declined_mbxDone _ n.isLt _
  split_ifs with h1 h2 h3 h4 h5 h6
  · exact hrefused _ (by simp [Dev.openStatus, firstFail, h1]) (by decide)
  · exact hrefused _ (by simp [Dev.openStatus, firstFail, h1, h2]) (by decide)
  · exact hrefused _ (by simp [Dev.openStatus, firstFail, h1, h2, h3]) (by decide)
  · exact hrefused _ (by simp [Dev.openStatus, firstFail, h1, h2, h3, h4]) (by decide)
  · exact hrefused _ (by rw [h5] at h1; simp [Dev.openStatus, firstFail, h1, h2, h3, h4, h5]) (by decide)
  · exact hrefused _ (by simp [Dev.openStatus, firstFail, h1, h2, h3, h4, h5, h6]) (by decide)
  · rw [serveOpen_taken h (by simp [Dev.openStatus, firstFail, h1, h2, h3, h4, h5, h6])]
    have hopened : Frame s.dev ((s.dev.mbxTake n).openUpdate n) (R.CFG_UPDSTAT :: mbxRegs n) :=
      (frame_mbxTake _ _ _).trans (frame_openUpdate _ n)
    have hframe := hopened.trans ((frame_mbxDone ((s.dev.mbxTake n).openUpdate n) n sOk).mono fun a ha => List.mem_cons_of_mem _ ha)
    have hstep : (((s.dev.mbxTake n).openUpdate n).mbxDone n sOk []).get F.CFG_UPDSTAT_STEP = 1 := by
      rw [(frame_mbxDone _ n sOk).get (notMem_mbxRegs (by decide))]
      exact get_put_same _ F.CFG_UPDSTAT_STEP 1 (by decide)
    have hanswer : Answered s.dev _ n sOk [] :=
      answered_mbxDone (q := (s.dev.mbxTake n).openUpdate n) n.isLt sOk (reqHead_put _ _ _ _ (by decide)) rfl
    refine ⟨hanswer, hframe, ?_, hstep, mbxDone_cfg _ _ _, fun hf x => ?_⟩
    · rw [mbxDone_sys, mbxDone_out, mbxDone_cfg, mbxDone_flash]
      exact mbxDone_eq _ _ _
    · rw [Dev.flB, mbxDone_flash]
      exact flB_openUpdate (s.dev.mbxTake n) n hf x

/-! ### UPD_DATA (R72, R73) -/

/-- Bytes kept for UPD_CLOSE: `len` bytes of memory from `a` lie at the image's offset `o` (R72). -/
def Dev.heldWith (d : Dev) (o a len : Nat) : Mem :=
  (d.ldBs a len).zipIdx.foldl (fun m x => spPut flashDefault m (o + x.2) x.1) d.cfg.updHeld

theorem mbxTake_heldWith (d : Dev) (n o a len : Nat) : (d.mbxTake n).heldWith o a len = d.heldWith o a len := rfl

theorem spGet_foldl_spPut (l : List Byte) (j o k : Nat) (m : Mem) :
    spGet flashDefault ((l.zipIdx j).foldl (fun m x => spPut flashDefault m (o + x.2) x.1) m) k =
      if o + j ≤ k ∧ k < o + j + l.length then l.getD (k - (o + j)) flashDefault else spGet flashDefault m k := by
  induction l generalizing j m with
  | nil => simp
  | cons b l ih =>
    rw [List.zipIdx_cons, List.foldl_cons, ih, List.length_cons]
    by_cases hfirst : k = o + j
    · subst hfirst
      rw [if_neg (by omega), if_pos (by omega), spGet_spPut_same, Nat.sub_self, List.getD_cons_zero]
    · by_cases hin : o + j ≤ k ∧ k < o + j + (l.length + 1)
      · rw [if_pos (by omega), if_pos hin, show k - (o + j) = k - (o + (j + 1)) + 1 by omega, List.getD_cons_succ]
      · rw [if_neg (by omega), if_neg hin, spGet_spPut_ne _ _ _ _ _ _ hfirst]

theorem spGet_heldWith (d : Dev) (o a len k : Nat) : spGet flashDefault (d.heldWith o a len) k =
    if o ≤ k ∧ k < o + len then d.ldB (a + (k - o)) else spGet flashDefault d.cfg.updHeld k := by
  have hlen : (d.ldBs a len).length = len := by simp [Dev.ldBs]
  rw [Dev.heldWith, spGet_foldl_spPut, hlen, Nat.add_zero]
  split
  · next hk => simp [Dev.ldBs, List.getD_eq_getElem?_getD, show k - o < len by omega]
  · rfl

/-- What UPD_DATA answers on channel `n`, and does (R73). -/
def Dev.answerData (d : Dev) (n : Nat) : Option (Nat × List Nat) × Dev :=
  match d.cfg.upd with
  | none => mbxStatus sBadState d
  | some u =>
    if d.cfg.updClosed then mbxStatus sBadState d
    else if 0x100000 < d.arg n 2 then mbxStatus sBadValue d
    else match d.mbxBuf (d.arg n 1) (d.arg n 2) with
      | none => mbxStatus sDenied d
      | some a =>
        if u.2.1 < d.arg n 0 + d.arg n 2 then mbxStatus sBadValue d
        else if !d.cfg.updErased ∨ d.cfg.updData.isSome then mbxStatus sBusy d
        else (none, d.onCfg fun t => { t with updData := some n, updHeld := d.heldWith (d.arg n 0) a (d.arg n 2) })

/-- UPD_DATA on channel `n`. -/
def Dev.serveData (d : Dev) (n : Nat) : Dev :=
  d.mbxServe n { op := 0x31, len := 3, group := 3, states := .onward } fun d => d.answerData n

theorem exec_updData (n : Fin 4) (s : State) : exec (.updData n) s = s.upd fun d => d.serveData n := rfl

theorem updData_ends (s : State) (n : Fin 4) : Ends (.updData n) s fun e =>
    let d := s.dev
    let o := d.arg n 0
    let len := d.arg n 2
    Asks d n { op := 0x31, len := 3, group := 3, states := .onward } →
      match d.cfg.upd with
      | none => Declined d e n sBadState
      | some u =>
        if d.cfg.updClosed = true then Declined d e n sBadState
        else if 0x100000 < len then Declined d e n sBadValue
        else match d.mbxBuf (d.arg n 1) len with
          | none => Declined d e n sDenied
          | some a =>
            if u.2.1 < o + len then Declined d e n sBadValue
            else if d.cfg.updErased = false then Declined d e n sBusy
            else if d.cfg.updData = none then
              e = { d with sys := { d.sys with mbxNext := (n.val + 1) % 4 }, cfg := e.cfg } ∧
              e.cfg = { d.cfg with updData := some n.val, updHeld := e.cfg.updHeld } ∧
              (∀ k : Nat, d.cfg.updHeld.flashWf → spGet 0xFF e.cfg.updHeld k = if o ≤ k ∧ k < o + len then d.ldB (a + (k - o)) else spGet 0xFF d.cfg.updHeld k)
            else Declined d e n sBusy := by
  refine ends_of_upd (exec_updData n s) fun h => ?_
  have hrefused : ∀ st, (s.dev.mbxTake n).answerData n = mbxStatus st (s.dev.mbxTake n) → Declined s.dev (s.dev.serveData n) n st :=
    fun st hst => by
      rw [Dev.serveData, mbxServe_status h hst]
      exact declined_mbxDone _ n.isLt _
  split
  · next hu => exact hrefused _ (by simp [Dev.answerData, hu])
  next u hu =>
  split
  · next h1 => exact hrefused _ (by simp [Dev.answerData, hu, h1])
  next h1 =>
  split
  · next h2 => exact hrefused _ (by simp [Dev.answerData, hu, h1, h2])
  next h2 =>
  split
  · next hb => exact hrefused _ (by simp [Dev.answerData, hu, h1, h2, hb])
  next a hb =>
  split_ifs with h3 h4 h5
  · exact hrefused _ (by simp [Dev.answerData, hu, h1, h2, hb, h3])
  · exact hrefused _ (by simp [Dev.answerData, hu, h1, h2, hb, h3, h4])
  · have htaken : (s.dev.mbxTake n).answerData n = (none, (s.dev.mbxTake n).onCfg fun t =>
        { t with updData := some n, updHeld := s.dev.heldWith (s.dev.arg n 0) a (s.dev.arg n 2) }) := by
      simp [Dev.answerData, hu, h1, h2, hb, h3, h4, h5, mbxTake_heldWith]
    rw [Dev.serveData, mbxServe_waits h htaken]
    exact ⟨rfl, rfl, fun k _ => spGet_heldWith s.dev _ a _ k⟩
  · exact hrefused _ (by simp [Dev.answerData, hu, h1, h2, hb, h3, h4, Option.isSome_iff_ne_none.mpr h5])

/-! ### The end of an update (R73) -/

/-- The registers that the end of an update writes. -/
def updEndRegs : List Nat := [R.CFG_UPDSTAT, R.CFG_IRQ_STAT]

section
variable (d : Dev) (code : Nat)

theorem frame_updEnd : Frame d (d.updEnd code) updEndRegs :=
  ((Frame.mk (fun _ _ => rfl) fun _ => rfl : Frame d (d.onCfg _) updEndRegs).trans (frame_put _ F.CFG_UPDSTAT_STEP 3 _ (by decide))).trans
    ((frame_put _ F.CFG_UPDSTAT_CODE code _ (by decide)).trans (frame_put _ F.CFG_IRQ_STAT_UPD_DONE 1 _ (by decide)))

theorem get_step_updEnd : (d.updEnd code).get F.CFG_UPDSTAT_STEP = 3 := by
  rw [Dev.updEnd, get_put_ne _ _ _ _ (by decide), get_put_apart _ F.CFG_UPDSTAT_CODE F.CFG_UPDSTAT_STEP _ (by decide) rfl (by decide),
    get_put_same _ _ _ (by decide)]
  rfl

theorem get_code_updEnd : (d.updEnd code).get F.CFG_UPDSTAT_CODE = code % 2 ^ 8 := by
  rw [Dev.updEnd, get_put_ne _ _ _ _ (by decide), get_put_same _ _ _ (by decide)]
  rfl

theorem get_line_updEnd : (d.updEnd code).get F.CFG_IRQ_STAT_UPD_DONE = 1 := get_put_same _ _ _ (by decide)

/-- A flash that does not answer ends the update with a code of its own, and source 11 is raised. -/
theorem updDead_eq : ∃ code, d.updDead = ((d.fresh 8).2.updEnd code).report 11 := ⟨_, rfl⟩

end

theorem updateEraseComplete_ends (s : State) (answers : Bool) : Ends (.updateEraseComplete answers) s fun e =>
    let d := s.dev
    if d.cfg.upd = none ∨ d.cfg.updErased = true then e = d
    else if answers then e = { d with cfg := { d.cfg with updErased := true } }
    else
      e.cfg = { d.cfg with upd := none, updErased := false, updClosed := false, updData := none, updHeld := [] } ∧
      Frame d e [R.CFG_UPDSTAT, R.CFG_IRQ_STAT] ∧ e.get F.CFG_UPDSTAT_STEP = 3 ∧ e.get F.CFG_IRQ_STAT_UPD_DONE = 1 ∧ Reports d e [11] := by
  refine ends_of_upd (f := fun d => d.when (d.cfg.upd.isSome && !d.cfg.updErased) fun d =>
    if answers then d.onCfg fun t => { t with updErased := true } else d.updDead) rfl ?_
  by_cases hidle : s.dev.cfg.upd = none ∨ s.dev.cfg.updErased = true
  · have hb : (s.dev.cfg.upd.isSome && !s.dev.cfg.updErased) = false := by rcases hidle with h | h <;> simp [h]
    rw [hb, when_false]
    exact (if_pos hidle).mpr rfl
  · have hb : (s.dev.cfg.upd.isSome && !s.dev.cfg.updErased) = true := by
      rw [not_or] at hidle
      simp [Option.isSome_iff_ne_none.mpr hidle.1, hidle.2]
    rw [hb, when_true]
    simp only [if_neg hidle]
    cases answers with
    | true => rfl
    | false =>
      obtain ⟨code, hdead⟩ := updDead_eq s.dev
      rw [if_neg Bool.false_ne_true, if_neg Bool.false_ne_true, hdead]
      have hfresh : Frame s.dev (s.dev.fresh 8).2 updEndRegs := ⟨fun _ _ => rfl, fun _ => rfl⟩
      refine ⟨by rw [report_cfg]; rfl, (hfresh.trans (frame_updEnd _ _)).trans (frame_report _ _ _ _), ?_, ?_, ?_⟩
      · rw [report_get, get_step_updEnd]
      · rw [report_get, get_line_updEnd]
      · rw [Reports, report_srcs]
        rfl

/-! ### The end of a flash write (R72) -/

/-- The flash has written the bodies of an UPD_DATA: they are held no longer, and its channel is answered. -/
def Dev.dataWritten (d : Dev) (slot n : Nat) : Dev :=
  ((d.updWrite slot (d.cfg.updHeld.filter fun x => updBodies ≤ x.1)).onCfg fun t =>
    { t with updData := none, updHeld := t.updHeld.filter fun x => x.1 < updBodies }).mbxDone n sOk []

theorem dataWritten_ends (d : Dev) (slot n : Nat) :
    let e := d.dataWritten slot n
    e.out.head? = some (.mbx n sOk []) ∧ e.get (F.MBX_CTL_DONE n) = 1 ∧ e.get (F.MBX_CTL_BUSY n) = 0 ∧
    e.cfg = { d.cfg with updData := none, updHeld := d.cfg.updHeld.filter fun x => x.1 < updBodies } ∧
    e = { d with regs := e.regs, cfg := e.cfg, out := e.out, flash := e.flash } ∧ Frame d e (mbxRegs n) ∧
    ∀ x ∈ d.cfg.updHeld, updBodies ≤ x.1 → d.cfg.updHeld.flashWf → d.flash.flashWf → e.flB (d.slotBase slot + x.1) = x.2 := by
  have hflash : ∀ x ∈ d.cfg.updHeld, updBodies ≤ x.1 → d.cfg.updHeld.flashWf →
      (d.updWrite slot (d.cfg.updHeld.filter fun x => updBodies ≤ x.1)).flB (d.slotBase slot + x.1) = x.2 := fun x hx hb hwf =>
    flB_updWrite_mem d slot (nodup_filter_of_flashWf hwf _) (List.mem_filter.mpr ⟨hx, by simpa using hb⟩)
  obtain ⟨fl, hq⟩ : ∃ fl, d.updWrite slot (d.cfg.updHeld.filter fun x => updBodies ≤ x.1) = { d with flash := fl } :=
    ⟨_, updWrite_eq d slot _⟩
  unfold Dev.dataWritten
  rw [hq] at hflash ⊢
  refine ⟨by rw [mbxDone_out, List.head?_cons], mbxDone_done _ _ _, mbxDone_idle _ _ _, mbxDone_cfg _ _ _, ?_, ?_, ?_⟩
  · rw [mbxDone_cfg, mbxDone_out, mbxDone_flash]
    exact mbxDone_eq _ _ _
  · exact (Frame.mk (fun _ _ => rfl) (fun _ => rfl) : Frame d (Dev.onCfg { d with flash := fl } _) (mbxRegs n)).trans (frame_mbxDone _ _ _)
  · intro x hx hb hwf _
    rw [Dev.flB, mbxDone_flash]
    exact hflash x hx hb hwf

/-- The flash has not answered in an UPD_DATA: its channel is answered with a code of its own, and the update ends. -/
def Dev.dataDead (d : Dev) (n : Nat) : Dev := ((d.fresh 8).2.mbxDone n (d.fresh 8).1 []).updDead

theorem dataDead_ends (d : Dev) (n : Nat) :
    let e := d.dataDead n
    e.cfg.upd = none ∧ e.flash = d.flash ∧ e.get (F.MBX_CTL_DONE n) = 1 ∧ e.get F.CFG_UPDSTAT_STEP = 3 ∧ Reports d e [11] := by
  have hflash : ((d.fresh 8).2.mbxDone n (d.fresh 8).1 []).flash = d.flash := mbxDone_flash _ _ _
  have hreps : ((d.fresh 8).2.mbxDone n (d.fresh 8).1 []).reps = d.reps := mbxDone_reps _ _ _
  have hdone := mbxDone_done (d.fresh 8).2 n (d.fresh 8).1
  unfold Dev.dataDead
  generalize (d.fresh 8).2.mbxDone n (d.fresh 8).1 [] = q at *
  obtain ⟨code, hdead⟩ := updDead_eq q
  rw [hdead]
  have hctl : R.MBX_CTL n ∉ updEndRegs := by
    simp only [updEndRegs, R.MBX_CTL, R.CFG_UPDSTAT, R.CFG_IRQ_STAT, List.mem_cons, List.not_mem_nil, or_false]
    omega
  refine ⟨by rw [report_cfg]; rfl, by rw [report_flash]; exact hflash, ?_, by rw [report_get, get_step_updEnd], ?_⟩
  · rw [report_get, (frame_updEnd _ _).get hctl]
    exact hdone
  · rw [Reports, report_srcs, ← hreps]
    rfl

/-- FLASH_WRITE_COMPLETE. -/
def Dev.flashEnded (d : Dev) (answers : Bool) : Dev :=
  match d.cfg.upd, d.cfg.updData with
  | some u, some n => if answers then d.dataWritten u.1 n else d.dataDead n
  | _, _ => d

theorem flashEnded_data {d : Dev} {u : Nat × Nat × Nat × Nat} {n : Nat} (hu : d.cfg.upd = some u) (hn : d.cfg.updData = some n)
    (answers : Bool) : d.flashEnded answers = if answers then d.dataWritten u.1 n else d.dataDead n := by
  rw [Dev.flashEnded, hu, hn]

theorem flashEnded_none {d : Dev} (h : ∀ u n, d.cfg.upd = some u → d.cfg.updData = some n → False) (answers : Bool) :
    d.flashEnded answers = d := by
  unfold Dev.flashEnded
  split
  · next u n hu hn => exact (h u n hu hn).elim
  · rfl

theorem exec_flashWriteComplete (answers : Bool) (s : State) :
    exec (.flashWriteComplete answers) s = s.upd fun d => d.flashEnded answers := rfl

theorem flashWriteComplete_ends (s : State) (answers : Bool) : Ends (.flashWriteComplete answers) s fun e =>
    let d := s.dev
    match d.cfg.upd, d.cfg.updData with
    | some u, some n =>
      (answers = true → e.out.head? = some (.mbx n sOk []) ∧ e.get (F.MBX_CTL_DONE n) = 1 ∧ e.get (F.MBX_CTL_BUSY n) = 0 ∧
        e.cfg = { d.cfg with updData := none, updHeld := d.cfg.updHeld.filter fun x => x.1 < updBodies } ∧
        e = { d with regs := e.regs, cfg := e.cfg, out := e.out, flash := e.flash } ∧ Frame d e (mbxRegs n) ∧
        ∀ x ∈ d.cfg.updHeld, updBodies ≤ x.1 → d.cfg.updHeld.flashWf → d.flash.flashWf → e.flB (d.slotBase u.1 + x.1) = x.2) ∧
      (answers = false → e.cfg.upd = none ∧ e.flash = d.flash ∧ e.get (F.MBX_CTL_DONE n) = 1 ∧ e.get F.CFG_UPDSTAT_STEP = 3 ∧
        Reports d e [11])
    | _, _ => e = d := by
  refine ends_of_upd (exec_flashWriteComplete answers s) ?_
  intro d
  split
  · next u n hu hn =>
    rw [flashEnded_data hu hn]
    refine ⟨?_, ?_⟩
    · rintro rfl
      exact dataWritten_ends d u.1 n
    · rintro rfl
      exact dataDead_ends d n
  · next hnone => exact flashEnded_none hnone answers

/-! ### UPD_CLOSE (R72) -/

/-- The bytes held have been written: directory and signature, then the header. -/
def Dev.headWritten (d : Dev) (slot : Nat) : Dev :=
  (d.updWrite slot (d.cfg.updHeld.filter fun x => 0x100 ≤ x.1)).updWrite slot (d.cfg.updHeld.filter fun x => x.1 < 0x100)

/-- The update is closed, and its check follows. -/
def Dev.closeUpdate (d : Dev) (slot : Nat) : Dev :=
  ((d.headWritten slot).onCfg fun t => { t with updClosed := true, updHeld := [] }).put F.CFG_UPDSTAT_STEP 2

theorem headWritten_eq (d : Dev) (slot : Nat) : d.headWritten slot = { d with flash := (d.headWritten slot).flash } := by
  unfold Dev.headWritten
  rw [updWrite_eq, updWrite_eq d]

theorem flB_headWritten (d : Dev) (slot : Nat) (hwf : d.cfg.updHeld.flashWf) {x : Nat × Byte} (hx : x ∈ d.cfg.updHeld) :
    (d.headWritten slot).flB (d.slotBase slot + x.1) = x.2 := by
  have hbase := slotBase_updWrite d slot (d.cfg.updHeld.filter fun x => 0x100 ≤ x.1)
  have hdir := flB_updWrite_mem d slot (nodup_filter_of_flashWf hwf fun x => 0x100 ≤ x.1) (x := x)
  unfold Dev.headWritten
  generalize d.updWrite slot (d.cfg.updHeld.filter fun x => 0x100 ≤ x.1) = q at *
  rw [← hbase] at hdir ⊢
  by_cases hlow : x.1 < 0x100
  · exact flB_updWrite_mem q slot (nodup_filter_of_flashWf hwf _) (List.mem_filter.mpr ⟨hx, by simpa using hlow⟩)
  · rw [flB_updWrite_out q slot x.1]
    · exact hdir (List.mem_filter.mpr ⟨hx, by simpa using hlow⟩)
    · intro y hy he
      have hylow : y.1 < 0x100 := by simpa using (List.mem_filter.mp hy).2
      omega

theorem closeUpdate_parts (d : Dev) (slot : Nat) :
    d.closeUpdate slot = { d with regs := (d.closeUpdate slot).regs, cfg := (d.closeUpdate slot).cfg, flash := (d.headWritten slot).flash } ∧
    (d.closeUpdate slot).cfg = { d.cfg with updClosed := true, updHeld := [] } ∧
    Frame d (d.closeUpdate slot) [R.CFG_UPDSTAT] ∧ (d.closeUpdate slot).get F.CFG_UPDSTAT_STEP = 2 := by
  have hstep := get_put_same ((d.headWritten slot).onCfg fun t => { t with updClosed := true, updHeld := [] }) F.CFG_UPDSTAT_STEP 2 (by decide)
  unfold Dev.closeUpdate
  obtain ⟨fl, hq⟩ : ∃ fl, d.headWritten slot = { d with flash := fl } := ⟨_, headWritten_eq d slot⟩
  rw [hq] at hstep ⊢
  have hcfg : Frame d (Dev.onCfg { d with flash := fl } fun t => { t with updClosed := true, updHeld := [] }) [R.CFG_UPDSTAT] :=
    ⟨fun _ _ => rfl, fun _ => rfl⟩
  exact ⟨rfl, rfl, hcfg.trans (frame_put _ _ _ _ List.mem_cons_self), hstep⟩

theorem closeUpdate_answered (d : Dev) (slot : Nat) (n : Fin 4) :
    let e := ((d.mbxTake n).closeUpdate slot).mbxDone n sOk []
    Answered d e n sOk [] ∧ Frame d e (R.CFG_UPDSTAT :: mbxRegs n) ∧ e.get F.CFG_UPDSTAT_STEP = 2 ∧
    e = { d with regs := e.regs, sys := e.sys, out := e.out, cfg := e.cfg, flash := e.flash } ∧
    e.cfg = { d.cfg with updClosed := true, updHeld := [] } ∧
    ∀ x ∈ d.cfg.updHeld, d.cfg.updHeld.flashWf → d.flash.flashWf → e.flB (d.slotBase slot + x.1) = x.2 := by
  have hflash := fun hwf x hx => flB_headWritten (d.mbxTake n) slot hwf (x := x) hx
  obtain ⟨heq, hcfg, hframe, hstep⟩ := closeUpdate_parts (d.mbxTake n) slot
  have hreq := hframe.regs (R.MBX_REQ_W n 0) (by simp only [List.mem_singleton, R.MBX_REQ_W, R.CFG_UPDSTAT]; omega)
  have hfl : ((d.mbxTake n).closeUpdate slot).flash = ((d.mbxTake n).headWritten slot).flash := by rw [heq]
  have hsys : ((d.mbxTake n).closeUpdate slot).sys = (d.mbxTake n).sys := by rw [heq]
  generalize (d.mbxTake n).closeUpdate slot = q at *
  have hlisted : Frame d q (R.CFG_UPDSTAT :: mbxRegs n) :=
    ((frame_mbxTake d n _).trans hframe).mono fun a ha => List.mem_cons.mpr (.inl (List.mem_singleton.mp ha))
  refine ⟨answered_mbxDone n.isLt sOk (congrArg BitVec.toNat hreq) (by rw [hsys]; rfl),
    hlisted.trans ((frame_mbxDone q n sOk).mono fun a ha => List.mem_cons_of_mem _ ha), ?_, ?_, by rw [mbxDone_cfg, hcfg, mbxTake_cfg],
    fun x hx hwf _ => ?_⟩
  · rw [(frame_mbxDone _ _ _).get (notMem_mbxRegs (by decide)), hstep]
  · rw [mbxDone_sys, mbxDone_cfg, mbxDone_out, mbxDone_flash]
    refine (mbxDone_eq _ _ _).trans ?_
    rw [heq]
    rfl
  · rw [Dev.flB, mbxDone_flash, hfl]
    exact hflash hwf x hx

/-- What UPD_CLOSE answers, and does. -/
def Dev.answerClose (d : Dev) : Option (Nat × List Nat) × Dev :=
  match d.cfg.upd with
  | none => mbxStatus sBadState d
  | some u =>
    if d.cfg.updClosed then mbxStatus sBadState d
    else if !d.cfg.updErased ∨ d.cfg.updData.isSome then mbxStatus sBusy d
    else mbxStatus sOk (d.closeUpdate u.1)

/-- UPD_CLOSE on channel `n`. -/
def Dev.serveClose (d : Dev) (n : Nat) : Dev :=
  d.mbxServe n { op := 0x32, len := 0, group := 3, states := .onward } Dev.answerClose

theorem exec_updClose (n : Fin 4) (s : State) : exec (.updClose n) s = s.upd fun d => d.serveClose n := rfl

theorem updClose_ends (s : State) (n : Fin 4) : Ends (.updClose n) s fun e =>
    let d := s.dev
    Asks d n { op := 0x32, len := 0, group := 3, states := .onward } →
      match d.cfg.upd with
      | none => Declined d e n sBadState
      | some u =>
        if d.cfg.updClosed = true then Declined d e n sBadState
        else if d.cfg.updErased = false ∨ d.cfg.updData ≠ none then Declined d e n sBusy
        else
          Answered d e n sOk [] ∧ Frame d e (R.CFG_UPDSTAT :: mbxRegs n) ∧ e.get F.CFG_UPDSTAT_STEP = 2 ∧
          e = { d with regs := e.regs, sys := e.sys, out := e.out, cfg := e.cfg, flash := e.flash } ∧
          e.cfg = { d.cfg with updClosed := true, updHeld := [] } ∧
          ∀ x ∈ d.cfg.updHeld, d.cfg.updHeld.flashWf → d.flash.flashWf → e.flB (d.slotBase u.1 + x.1) = x.2 := by
  refine ends_of_upd (exec_updClose n s) fun h => ?_
  have hrefused : ∀ st, (s.dev.mbxTake n).answerClose = mbxStatus st (s.dev.mbxTake n) → Declined s.dev (s.dev.serveClose n) n st :=
    fun st hst => by
      rw [Dev.serveClose, mbxServe_status h hst]
      exact declined_mbxDone _ n.isLt _
  split
  · next hu => exact hrefused _ (by simp [Dev.answerClose, hu])
  next u hu =>
  split_ifs with h1 h2
  · exact hrefused _ (by simp [Dev.answerClose, hu, h1])
  · have hbusy : !s.dev.cfg.updErased ∨ s.dev.cfg.updData.isSome := by simpa [Option.isSome_iff_ne_none] using h2
    exact hrefused _ (by rw [Dev.answerClose, mbxTake_cfg, hu]; simp only [if_neg h1, if_pos hbusy])
  · have hfree : ¬(!s.dev.cfg.updErased ∨ s.dev.cfg.updData.isSome) := by simpa [Option.isSome_iff_ne_none] using h2
    have htaken : (s.dev.mbxTake n).answerClose = mbxStatus sOk ((s.dev.mbxTake n).closeUpdate u.1) := by
      rw [Dev.answerClose, mbxTake_cfg, hu]
      simp only [if_neg h1, if_neg hfree]
    rw [Dev.serveClose, mbxServe_status h htaken]
    exact closeUpdate_answered s.dev u.1 n

/-! ### The check of a slot that has been updated (R73) -/

/-- The register that shows a slot's check. -/
abbrev slotReg (slot : Nat) : Nat := if slot = 0 then R.CFG_SLOTA else R.CFG_SLOTB

theorem frame_slotShow (d : Dev) (slot : Nat) (r : Nat × Bool × Nat) : Frame d (d.slotShow slot r) [slotReg slot] :=
  frame_wrN _ _ _ _ List.mem_cons_self

theorem bits_add_mul (x y lo n : Nat) (h : n ≤ lo) : bits (x + y * 2 ^ lo) 0 n = bits x 0 n := by
  rw [bits, bits, Nat.shiftRight_zero, Nat.shiftRight_zero, show lo = n + (lo - n) by omega, Nat.pow_add, Nat.mul_comm (2 ^ n),
    ← Nat.mul_assoc, Nat.add_mul_mod_self_right]

/-- CODE of a slot's register is the status of its check. -/
theorem code_slotShow (d : Dev) (slot : Nat) (r : Nat × Bool × Nat) :
    bits ((d.slotShow slot r).rd (slotReg slot)).toNat 0 8 = r.1 % 2 ^ 8 := by
  have hcode : ∀ a b c : Nat, bits (r.1 + a * 2 ^ 8 + 2 ^ 9 + b * 2 ^ 11 + c * 2 ^ 16) 0 8 = r.1 % 2 ^ 8 := fun a b c => by
    rw [bits_add_mul _ _ _ _ (by decide), bits_add_mul _ _ _ _ (by decide), ← Nat.one_mul (2 ^ 9), bits_add_mul _ _ _ _ (by decide),
      bits_add_mul _ _ _ _ (by decide)]
    rfl
  have hword : ∀ v : Nat, bits (v % 2 ^ 32) 0 8 = bits v 0 8 := fun v => by
    rw [bits, bits, Nat.shiftRight_zero, Nat.shiftRight_zero]
    exact Nat.mod_mod_of_dvd v (by decide)
  unfold Dev.slotShow
  rw [rd_wrN_same, BitVec.toNat_ofNat, hword, bits_setBits_apart _ _ _ _ _ _ (.inl (by decide)), hcode]

/-- The check of slot `slot` has ended with the result `r`. -/
def Dev.updChecked (d : Dev) (slot : Nat) (r : Nat × Bool × Nat) : Dev :=
  ((d.slotShow slot r).updEnd r.1).when (r.1 != sOk) fun d => d.report 10

theorem updChecked_ends (d : Dev) (slot : Nat) (r : Nat × Bool × Nat) :
    let e := d.updChecked slot r
    Frame d e [R.CFG_SLOTA, R.CFG_SLOTB, R.CFG_UPDSTAT, R.CFG_IRQ_STAT] ∧ e.flash = d.flash ∧
    e.cfg = { d.cfg with upd := none, updErased := false, updClosed := false, updData := none, updHeld := [] } ∧
    e.get F.CFG_UPDSTAT_STEP = 3 ∧ e.get F.CFG_UPDSTAT_CODE = r.1 % 2 ^ 8 ∧ e.get F.CFG_IRQ_STAT_UPD_DONE = 1 ∧
    bits (e.rd (slotReg slot)).toNat 0 8 = r.1 % 2 ^ 8 ∧ Reports d e (if r.1 = sOk then [] else [10]) := by
  have hshow : Frame d (d.slotShow slot r) [R.CFG_SLOTA, R.CFG_SLOTB, R.CFG_UPDSTAT, R.CFG_IRQ_STAT] :=
    (frame_slotShow d slot r).mono fun a ha => by
      rw [List.mem_singleton.mp ha, slotReg]
      split <;> decide
  have hend := hshow.trans ((frame_updEnd (d.slotShow slot r) r.1).mono (bs := [R.CFG_SLOTA, R.CFG_SLOTB, R.CFG_UPDSTAT, R.CFG_IRQ_STAT])
    (by decide))
  have hcode : bits (((d.slotShow slot r).updEnd r.1).rd (slotReg slot)).toNat 0 8 = r.1 % 2 ^ 8 := by
    rw [(frame_updEnd _ _).regs _ (by rw [slotReg]; split <;> decide), code_slotShow]
  have hstep := get_step_updEnd (d.slotShow slot r) r.1
  have hshown := get_code_updEnd (d.slotShow slot r) r.1
  have hline := get_line_updEnd (d.slotShow slot r) r.1
  unfold Dev.updChecked
  by_cases hok : r.1 = sOk
  · rw [if_pos hok, show (r.1 != sOk) = false by simp [hok], when_false]
    exact ⟨hend, rfl, rfl, hstep, hshown, hline, hcode, (List.append_nil _).symm⟩
  · rw [if_neg hok, show (r.1 != sOk) = true by simp [hok], when_true]
    refine ⟨hend.trans (frame_report _ _ _ _), by rw [report_flash]; rfl, by rw [report_cfg]; rfl, ?_, ?_, ?_, ?_, ?_⟩
    · rw [report_get, hstep]
    · rw [report_get, hshown]
    · rw [report_get, hline]
    · rw [report_rd, hcode]
    · rw [Reports, report_srcs]
      rfl

/-- UPDATE_CHECK_COMPLETE. -/
def Dev.checkEnded (d : Dev) : Dev :=
  match d.cfg.upd with
  | none => d
  | some u => if !d.cfg.updClosed then d else d.updChecked u.1 (d.imageCheck u.1)

theorem checkEnded_none {d : Dev} (hu : d.cfg.upd = none) : d.checkEnded = d := by
  rw [Dev.checkEnded, hu]

theorem checkEnded_open {d : Dev} {u : Nat × Nat × Nat × Nat} (hu : d.cfg.upd = some u) (h : d.cfg.updClosed = false) : d.checkEnded = d := by
  rw [Dev.checkEnded, hu]
  simp [h]

theorem checkEnded_closed {d : Dev} {u : Nat × Nat × Nat × Nat} (hu : d.cfg.upd = some u) (h : ¬ d.cfg.updClosed = false) :
    d.checkEnded = d.updChecked u.1 (d.imageCheck u.1) := by
  rw [Dev.checkEnded, hu]
  simp [h]

theorem updateCheckComplete_ends (s : State) : Ends .updateCheckComplete s fun e =>
    let d := s.dev
    match d.cfg.upd with
    | none => e = d
    | some u =>
      if d.cfg.updClosed = false then e = d
      else
        let r := d.imageCheck u.1
        Frame d e [R.CFG_SLOTA, R.CFG_SLOTB, R.CFG_UPDSTAT, R.CFG_IRQ_STAT] ∧ e.flash = d.flash ∧
        e.cfg = { d.cfg with upd := none, updErased := false, updClosed := false, updData := none, updHeld := [] } ∧
        e.get F.CFG_UPDSTAT_STEP = 3 ∧ e.get F.CFG_UPDSTAT_CODE = r.1 % 2 ^ 8 ∧ e.get F.CFG_IRQ_STAT_UPD_DONE = 1 ∧
        bits (e.rd (if u.1 = 0 then R.CFG_SLOTA else R.CFG_SLOTB)).toNat 0 8 = r.1 % 2 ^ 8 ∧
        Reports d e (if r.1 = sOk then [] else [10]) := by
  refine ends_of_upd (f := Dev.checkEnded) rfl ?_
  intro d
  split
  · next hu => exact checkEnded_none hu
  · next u hu =>
    split
    · next hopen => exact checkEnded_open hu hopen
    · next hclosed =>
      rw [checkEnded_closed hu hclosed]
      exact updChecked_ends d u.1 (d.imageCheck u.1)

/-- Settles O23, command by command. -/
theorem imageUpdates : Obligations.ImageUpdates :=
  ⟨updOpen_ends, updateEraseComplete_ends, updData_ends, flashWriteComplete_ends, updClose_ends, updateCheckComplete_ends⟩

end Sys2Proof.Machine
end

section
/-! The start up to LOADING: SAF_BOOT, the choice of a slot, a failed candidate (R47, R53, R54, R69 to R71). -/

namespace Sys2Proof.Machine

/-! ### Device states and the speed request -/

/-- Nothing but registers may have changed. -/
def OnlyRegs (d e : Dev) : Prop := e = { d with regs := e.regs }

theorem OnlyRegs.trans {d e f : Dev} (h : OnlyRegs d e) (k : OnlyRegs e f) : OnlyRegs d f := by
  unfold OnlyRegs at *
  rw [k, h]

theorem onlyRegs_enter (d : Dev) (n : Nat) : OnlyRegs d (d.enter n) := by
  unfold Dev.enter
  split <;> rfl

theorem onlyRegs_slotHeader (d : Dev) (slot : Nat) : OnlyRegs d (d.slotHeader slot) := rfl

theorem onlyRegs_configFail (d : Dev) (code : Nat) : OnlyRegs d (d.configFail code) :=
  (onlyRegs_enter (d.wrN R.CFG_STATUS (code * 2 ^ 8)) stConfigFail).trans (rfl : OnlyRegs _ (Dev.speed _ 0 0 0))

theorem frame_enter (d : Dev) (n : Nat) : Frame d (d.enter n) [R.SYS_STATE, R.SYS_IRQ_STAT] := by
  unfold Dev.enter
  split
  · exact .refl _ _
  · exact ((frame_put _ F.SYS_STATE_PREV _ _ (by decide)).trans (frame_put _ F.SYS_STATE_STATE _ _ (by decide))).trans
      (frame_put _ F.SYS_IRQ_STAT_STATE _ _ (by decide))

theorem st_enter (d : Dev) (n : Nat) : (d.enter n).st? = if d.st? = n then n else n % 2 ^ 4 := by
  unfold Dev.enter
  split
  · next h => exact h
  · exact (get_put_ne _ _ _ _ (by decide)).trans (get_put_same _ _ _ (by decide))

theorem st_enter_of_lt (d : Dev) {n : Nat} (h : n < 2 ^ 4) : (d.enter n).st? = n := by
  rw [st_enter, Nat.mod_eq_of_lt h, ite_self]

theorem frame_speed (d : Dev) (duty src cause : Nat) : Frame d (d.speed duty src cause) [R.SLU_SPD_STAT] :=
  ((frame_put _ F.SLU_SPD_STAT_DUTY _ _ (by decide)).trans (frame_put _ F.SLU_SPD_STAT_SRC _ _ (by decide))).trans
    (frame_put _ F.SLU_SPD_STAT_CAUSE _ _ (by decide))

theorem st_speed (d : Dev) (duty src cause : Nat) : (d.speed duty src cause).st? = d.st? := (frame_speed d duty src cause).get (by decide)

theorem frame_slotHeader (d : Dev) (slot : Nat) : Frame d (d.slotHeader slot) [R.CFG_SLOTA, R.CFG_SLOTB] :=
  frame_wrN _ _ _ _ (by split <;> decide)

/-- The registers that CONFIG_FAIL writes. -/
abbrev configFailRegs : List Nat := [R.CFG_STATUS, R.SYS_STATE, R.SYS_IRQ_STAT, R.SLU_SPD_STAT]

theorem frame_configFail (d : Dev) (code : Nat) : Frame d (d.configFail code) configFailRegs :=
  ((frame_wrN _ _ _ _ (by decide)).trans ((frame_enter _ _).mono (by decide))).trans ((frame_speed _ _ _ _).mono (by decide))

theorem st_configFail (d : Dev) (code : Nat) : (d.configFail code).st? = stConfigFail :=
  (st_speed _ _ _ _).trans (st_enter_of_lt _ (by decide))

theorem code_configFail (d : Dev) (code : Nat) : (d.configFail code).get F.CFG_STATUS_FAILCODE = code % 2 ^ 8 := by
  have h : (d.configFail code).get F.CFG_STATUS_FAILCODE = (d.wrN R.CFG_STATUS (code * 2 ^ 8)).get F.CFG_STATUS_FAILCODE :=
    ((frame_speed _ 0 0 0).get (by decide)).trans ((frame_enter _ stConfigFail).get (by decide))
  rw [h]
  refine (get_wrN_same d R.CFG_STATUS (code * 2 ^ 8) 8 8).trans ?_
  rw [bits, Nat.shiftRight_eq_div_pow]
  omega

/-! ### What the checks of a slot read -/

/-- The checks of a slot read the flash, the fuses and the floor. -/
structure SameImage (d e : Dev) : Prop where
  flash : e.flash = d.flash
  cs1 : e.flashCs1 = d.flashCs1
  sec : e.sec = d.sec
  floor : e.get F.CFG_FLOOR_VALUE = d.get F.CFG_FLOOR_VALUE

section
variable {d e : Dev} (h : SameImage d e)
include h

theorem SameImage.slotBs : e.slotBs = d.slotBs := by
  funext s o n
  simp only [Dev.slotBs, Dev.slotBase, Dev.flBs, Dev.flB, h.flash, h.cs1]

theorem SameImage.hdr : e.hdr = d.hdr := by
  funext s o n
  rw [Dev.hdr, Dev.hdr, h.slotBs]

theorem SameImage.hdrStatus (s : Nat) : e.hdrStatus s = d.hdrStatus s := by
  simp only [Dev.hdrStatus, h.hdr, h.sec, h.floor]

theorem SameImage.candidates : e.candidates = d.candidates := by
  simp only [Dev.candidates, h.hdrStatus, h.hdr]

theorem SameImage.directory (s : Nat) : e.directory s = d.directory s := by
  have hent : e.dirEnt s = d.dirEnt s := by
    funext k
    simp only [Dev.dirEnt, h.slotBs]
  simp only [Dev.directory, Dev.dirCount, h.hdr, hent]

theorem SameImage.imageCheck (s : Nat) : e.imageCheck s = d.imageCheck s := by
  have hsig : e.sigOk s = d.sigOk s := by
    simp only [Dev.sigOk, Dev.slotSigns, Dev.keyHash, Dev.dirCount, h.slotBs, h.hdr, h.sec]
  have hent : e.entOk s = d.entOk s := by
    funext x
    rw [Dev.entOk, Dev.entOk, Dev.dirCount, Dev.dirCount, h.hdr]
  have hdig : ∀ x, e.digestOk s x = d.digestOk s x := fun x => by
    simp only [Dev.digestOk, Dev.body, h.slotBs]
  have hdir : e.dirOk s = d.dirOk s := by
    rw [Dev.dirOk, Dev.dirOk, h.directory, hent]
  rw [Dev.imageCheck, Dev.imageCheck, h.hdrStatus, hsig, hdir, h.directory, funext hdig]

end

/-! ### SAF_BOOT -/

/-- The floor and the epoch of MRAM are in force, and the headers of both slots have been read. -/
def Dev.bootRead (d : Dev) : Dev :=
  let floor := compVal (d.mrd dwFloor)
  let epoch := (compVal (d.mrd dwEpoch)).getD 0
  let d1 := (d.put F.CFG_FLOOR_VALUE (floor.getD 0)).when floor.isNone fun d => d.report 10
  ((((d1.wrN R.TWN_EPOCH epoch).put F.HLK_EPOCH_EPOCH epoch).enter stImage).slotHeader 0).slotHeader 1

/-- SAF_BOOT_COMPLETE with good ROM and fuses. -/
def Dev.booted (d : Dev) : Dev :=
  let d4 := d.bootRead.onCfg fun t => { t with cands := d.bootRead.candidates }
  if d.bootRead.candidates = [] then d4.configFail (d4.hdrStatus 1) else d4

/-- SAF_BOOT_COMPLETE. -/
def Dev.bootEnded (d : Dev) (ok : Bool) : Dev :=
  if d.st? ≠ stBoot ∨ d.sys.off ∨ !d.sys.rstN ∨ d.sys.romBad then d
  else if !ok then d.onSys fun t => { t with romBad := true }
  else d.booted

/-- The floor register takes the floor of MRAM, 0 for a damaged word. -/
def Dev.floorRead (d : Dev) : Dev := d.put F.CFG_FLOOR_VALUE ((compVal (d.mrd dwFloor)).getD 0)

/-- The registers that are written between the floor and the candidates. -/
abbrev bootRegs : List Nat := [R.TWN_EPOCH, R.HLK_EPOCH, R.SYS_STATE, R.SYS_IRQ_STAT, R.CFG_SLOTA, R.CFG_SLOTB]

theorem bootRead_spec (d : Dev) :
    d.bootRead = { d with regs := d.bootRead.regs, reps := d.bootRead.reps, freeCtr := d.bootRead.freeCtr } ∧
    Frame d.floorRead d.bootRead bootRegs ∧ d.bootRead.st? = stImage ∧
    (d.bootRead.rd R.TWN_EPOCH).toNat = (compVal (d.mrd dwEpoch)).getD 0 % 2 ^ 32 ∧
    Reports d d.bootRead (if (compVal (d.mrd dwFloor)).isNone then [10] else []) := by
  obtain ⟨d1, hd1⟩ : ∃ d1, d1 = d.floorRead.when (compVal (d.mrd dwFloor)).isNone fun d => d.report 10 := ⟨_, rfl⟩
  obtain ⟨d2, hd2⟩ : ∃ d2, d2 = (d1.wrN R.TWN_EPOCH ((compVal (d.mrd dwEpoch)).getD 0)).put F.HLK_EPOCH_EPOCH
      ((compVal (d.mrd dwEpoch)).getD 0) := ⟨_, rfl⟩
  have heq : d.bootRead = ((d2.enter stImage).slotHeader 0).slotHeader 1 := by rw [hd2, hd1]; rfl
  have hfloor : d1 = { d with regs := d1.regs, reps := d1.reps, freeCtr := d1.freeCtr } ∧ Frame d.floorRead d1 bootRegs ∧
      Reports d d1 (if (compVal (d.mrd dwFloor)).isNone then [10] else []) := by
    rw [hd1]
    cases (compVal (d.mrd dwFloor)).isNone
    · exact ⟨rfl, .refl _ _, (List.append_nil _).symm⟩
    · rw [when_true]
      exact ⟨rfl, frame_report _ _ _ _, report_srcs _ _ _⟩
  obtain ⟨hshape, hframe, hreps⟩ := hfloor
  have honly : OnlyRegs d2 d.bootRead := by
    rw [heq]
    exact (onlyRegs_enter _ _).trans ((onlyRegs_slotHeader _ _).trans (onlyRegs_slotHeader _ _))
  have honly1 : OnlyRegs d1 d.bootRead := (show OnlyRegs d1 d2 by rw [hd2]; rfl).trans honly
  have hlater : Frame d2 d.bootRead [R.SYS_STATE, R.SYS_IRQ_STAT, R.CFG_SLOTA, R.CFG_SLOTB] := by
    rw [heq]
    exact ((frame_enter _ _).mono (by decide)).trans (((frame_slotHeader _ _).mono (by decide)).trans ((frame_slotHeader _ _).mono (by decide)))
  have hepoch : Frame d1 d2 bootRegs := by
    rw [hd2]
    exact (frame_wrN _ _ _ _ (by decide)).trans (frame_put _ F.HLK_EPOCH_EPOCH _ _ (by decide))
  refine ⟨?_, hframe.trans (hepoch.trans (hlater.mono (by decide))), ?_, ?_, ?_⟩
  · unfold OnlyRegs at honly1
    rw [honly1, hshape]
  · rw [heq]
    exact ((frame_slotHeader _ _).get (by decide)).trans (((frame_slotHeader _ _).get (by decide)).trans (st_enter_of_lt _ (by decide)))
  · rw [hlater.regs _ (by decide), hd2, rd_put_ne _ _ _ _ (by decide), rd_wrN_same, BitVec.toNat_ofNat]
  · rw [Reports, honly1]
    exact hreps

theorem sameImage_bootRead (d : Dev) : SameImage d.floorRead d.bootRead := by
  obtain ⟨hshape, hframe, -⟩ := bootRead_spec d
  exact ⟨by rw [hshape]; rfl, by rw [hshape]; rfl, by rw [hshape]; rfl, hframe.get (by decide)⟩

theorem booted_ends (d : Dev) :
    let e := d.booted
    e = { d with regs := e.regs, cfg := e.cfg, reps := e.reps, freeCtr := e.freeCtr } ∧ (∀ a, e.ldB a = d.ldB a) ∧
    e.cfg = { d.cfg with cands := d.floorRead.candidates } ∧ e.st? = (if d.floorRead.candidates = [] then stConfigFail else stImage) ∧
    e.get F.CFG_FLOOR_VALUE = (compVal (d.mrd dwFloor)).getD 0 % 2 ^ 32 ∧
    (e.rd R.TWN_EPOCH).toNat = (compVal (d.mrd dwEpoch)).getD 0 % 2 ^ 32 ∧
    Reports d e (if (compVal (d.mrd dwFloor)).isNone then [10] else []) := by
  obtain ⟨hshape, hframe, hst, hepoch, hreps⟩ := bootRead_spec d
  have hcands := (sameImage_bootRead d).candidates
  have hfloor : d.bootRead.get F.CFG_FLOOR_VALUE = (compVal (d.mrd dwFloor)).getD 0 % 2 ^ 32 :=
    (hframe.get (by decide)).trans (get_put_same _ _ _ (by decide))
  obtain ⟨d4, hd4⟩ : ∃ d4, d4 = d.bootRead.onCfg fun t => { t with cands := d.floorRead.candidates } := ⟨_, rfl⟩
  have hshape4 : d4 = { d with regs := d4.regs, cfg := d4.cfg, reps := d4.reps, freeCtr := d4.freeCtr } := by rw [hd4, hshape]; rfl
  have hcfg4 : d4.cfg = { d.cfg with cands := d.floorRead.candidates } := by rw [hd4, hshape]; rfl
  have hbooted : d.booted = if d.floorRead.candidates = [] then d4.configFail (d4.hdrStatus 1) else d4 := by
    rw [hd4, ← hcands]
    rfl
  have hmem : ∀ {e : Dev}, OnlyRegs d4 e → e = { d with regs := e.regs, cfg := e.cfg, reps := e.reps, freeCtr := e.freeCtr } ∧
      (∀ a, e.ldB a = d.ldB a) ∧ e.cfg = { d.cfg with cands := d.floorRead.candidates } ∧
      Reports d e (if (compVal (d.mrd dwFloor)).isNone then [10] else []) := fun {e} he => by
    unfold OnlyRegs at he
    rw [hshape4] at he
    refine ⟨by rw [he], fun a => by rw [he]; rfl, by rw [he]; exact hcfg4, ?_⟩
    rw [he, Reports, hd4, onCfg_reps]
    exact hreps
  intro e
  by_cases hnone : d.floorRead.candidates = []
  · have he : e = d4.configFail (d4.hdrStatus 1) := hbooted.trans (if_pos hnone)
    obtain ⟨h1, h2, h3, h4⟩ := hmem (onlyRegs_configFail d4 (d4.hdrStatus 1))
    have hfail := frame_configFail d4 (d4.hdrStatus 1)
    rw [he, if_pos hnone]
    refine ⟨h1, h2, h3, st_configFail _ _, (hfail.get (by decide)).trans ?_, ?_, h4⟩
    · rw [hd4, onCfg_get]
      exact hfloor
    · rw [hfail.regs _ (by decide), hd4, onCfg_rd]
      exact hepoch
  · have he : e = d4 := hbooted.trans (if_neg hnone)
    obtain ⟨h1, h2, h3, h4⟩ := hmem (e := d4) rfl
    rw [he, if_neg hnone]
    refine ⟨h1, h2, h3, ?_, ?_, ?_, h4⟩
    · rw [hd4, Dev.st?, onCfg_get]
      exact hst
    · rw [hd4, onCfg_get]
      exact hfloor
    · rw [hd4, onCfg_rd]
      exact hepoch

section
variable {d : Dev} {ok : Bool}

theorem bootEnded_stays (ok : Bool) (h : d.st? ≠ stBoot ∨ d.sys.off = true ∨ d.sys.rstN = false ∨ d.sys.romBad = true) : d.bootEnded ok = d := by
  rw [Dev.bootEnded, if_pos (by simpa using h)]

theorem bootEnded_bad (h : ¬ (d.st? ≠ stBoot ∨ d.sys.off = true ∨ d.sys.rstN = false ∨ d.sys.romBad = true)) (hok : ok = false) :
    d.bootEnded ok = { d with sys := { d.sys with romBad := true } } := by
  rw [Dev.bootEnded, if_neg (by simpa using h), hok]
  rfl

theorem bootEnded_good (h : ¬ (d.st? ≠ stBoot ∨ d.sys.off = true ∨ d.sys.rstN = false ∨ d.sys.romBad = true)) (hok : ¬ ok = false) :
    d.bootEnded ok = d.booted := by
  rw [Dev.bootEnded, if_neg (by simpa using h), if_neg (by simpa using hok)]

end

theorem safBootComplete_ends (s : State) (ok : Bool) : Ends (.safBootComplete ok) s fun e =>
    let d := s.dev
    let fl := compVal (d.mrd dwFloor)
    let d1 := d.put F.CFG_FLOOR_VALUE (fl.getD 0)
    if d.st? ≠ stBoot ∨ d.sys.off = true ∨ d.sys.rstN = false ∨ d.sys.romBad = true then e = d
    else if ok = false then e = { d with sys := { d.sys with romBad := true } }
    else
      e = { d with regs := e.regs, cfg := e.cfg, reps := e.reps, freeCtr := e.freeCtr } ∧ (∀ a, e.ldB a = d.ldB a) ∧
      e.cfg = { d.cfg with cands := d1.candidates } ∧ e.st? = (if d1.candidates = [] then stConfigFail else stImage) ∧
      e.get F.CFG_FLOOR_VALUE = fl.getD 0 % 2 ^ 32 ∧ (e.rd R.TWN_EPOCH).toNat = (compVal (d.mrd dwEpoch)).getD 0 % 2 ^ 32 ∧
      Reports d e (if fl.isNone then [10] else []) := by
  refine ends_of_upd (f := fun d => d.bootEnded ok) rfl ?_
  generalize s.dev = d
  intro d' fl d1
  split
  · next h => exact bootEnded_stays ok h
  · next h =>
    split
    · next hok => exact bootEnded_bad h hok
    · next hok =>
      rw [bootEnded_good h hok]
      exact booted_ends d

/-! ### The choice of a slot -/

theorem candidates_eq (d : Dev) :
    d.candidates = (if d.hdrStatus 0 = sOk ∧ d.hdrStatus 1 = sOk then (if d.hdr 0 0x0C 4 < d.hdr 1 0x0C 4 then [1, 0] else [0, 1])
      else if d.hdrStatus 0 = sOk then [0] else if d.hdrStatus 1 = sOk then [1] else []) := by
  unfold Dev.candidates
  by_cases h0 : d.hdrStatus 0 = sOk
  · by_cases h1 : d.hdrStatus 1 = sOk
    · simp [h0, h1]
    · simp [h0, h1]
  · by_cases h1 : d.hdrStatus 1 = sOk
    · simp [h0, h1]
    · simp [h0, h1]

/-! ### A failed candidate -/

/-- The next candidate follows in IMAGE_CHECK. -/
def Dev.nextCandidate (d : Dev) : Dev := (((d.wrN R.CFG_STATUS 0).put F.CFG_STATUS_OTHERFAIL 1).enter stImage).speed 0 0 0

theorem onlyRegs_nextCandidate (d : Dev) : OnlyRegs d d.nextCandidate :=
  (onlyRegs_enter ((d.wrN R.CFG_STATUS 0).put F.CFG_STATUS_OTHERFAIL 1) stImage).trans (rfl : OnlyRegs _ (Dev.speed _ 0 0 0))

theorem frame_nextCandidate (d : Dev) : Frame d d.nextCandidate configFailRegs :=
  ((frame_wrN _ _ _ _ (by decide)).trans (frame_put _ F.CFG_STATUS_OTHERFAIL _ _ (by decide))).trans
    (((frame_enter _ _).mono (by decide)).trans ((frame_speed _ _ _ _).mono (by decide)))

theorem st_nextCandidate (d : Dev) : d.nextCandidate.st? = stImage := (st_speed _ _ _ _).trans (st_enter_of_lt _ (by decide))

theorem otherfail_nextCandidate (d : Dev) : d.nextCandidate.get F.CFG_STATUS_OTHERFAIL = 1 :=
  ((frame_speed _ _ _ _).get (by decide)).trans (((frame_enter _ _).get (by decide)).trans (get_put_same _ _ _ (by decide)))

theorem slotFail_none {d : Dev} (h : d.cfg.cands = []) (slot : Nat) (r : Nat × Bool × Nat) :
    d.slotFail slot r = (d.resetIslands.slotShow slot r).configFail r.1 := if_pos h

theorem slotFail_next {d : Dev} (h : d.cfg.cands ≠ []) (slot : Nat) (r : Nat × Bool × Nat) :
    d.slotFail slot r = (d.resetIslands.slotShow slot r).nextCandidate.report 8 := if_neg h

/-- What the reset of the islands and the slot's record leave, whatever registers change after them. -/
theorem slotFail_parts {d e : Dev} {slot : Nat} {r : Nat × Bool × Nat} (h : OnlyRegs (d.resetIslands.slotShow slot r) e) :
    e.cfg.cands = d.cfg.cands ∧ e.cfg.claims = [] ∧ e.itk = {} ∧ (∀ a, e.ldB a = d.ldB a) ∧ e.reps = d.reps := by
  unfold OnlyRegs at h
  rw [h]
  exact ⟨rfl, rfl, rfl, fun _ => rfl, rfl⟩

theorem slotFail_ends (d : Dev) (slot : Nat) (r : Nat × Bool × Nat) :
    let e := d.slotFail slot r
    bits (e.rd (slotReg slot)).toNat 0 8 = r.1 % 2 ^ 8 ∧
    e.cfg.cands = d.cfg.cands ∧ e.cfg.claims = [] ∧ e.itk = {} ∧ (∀ a, e.ldB a = d.ldB a) ∧
    if d.cfg.cands = [] then e.st? = stConfigFail ∧ bits (e.rd R.CFG_STATUS).toNat 8 8 = r.1 % 2 ^ 8 ∧ e.reps = d.reps
    else e.st? = stImage ∧ e.get F.CFG_STATUS_OTHERFAIL = 1 ∧ Reports d e [8] := by
  have hslot : slotReg slot ∉ configFailRegs := by rw [slotReg]; split <;> decide
  have hcode := code_slotShow d.resetIslands slot r
  intro e
  by_cases h : d.cfg.cands = []
  · have he : e = (d.resetIslands.slotShow slot r).configFail r.1 := slotFail_none h slot r
    obtain ⟨hcands, hclaims, hitk, hmem, hreps⟩ := slotFail_parts (onlyRegs_configFail (d.resetIslands.slotShow slot r) r.1)
    rw [if_pos h, he]
    refine ⟨?_, hcands, hclaims, hitk, hmem, st_configFail _ _, code_configFail _ _, hreps⟩
    rw [(frame_configFail _ _).regs _ hslot, hcode]
  · have he : e = (d.resetIslands.slotShow slot r).nextCandidate.report 8 := slotFail_next h slot r
    obtain ⟨hcands, hclaims, hitk, hmem, hreps⟩ := slotFail_parts (onlyRegs_nextCandidate (d.resetIslands.slotShow slot r))
    rw [if_neg h, he, Dev.st?, Reports, report_cfg, report_itk, report_get, report_get, report_srcs, report_rd, hreps]
    refine ⟨?_, hcands, hclaims, hitk, fun a => (report_ldB _ _ _ _).trans (hmem a), st_nextCandidate _, otherfail_nextCandidate _, rfl⟩
    rw [(frame_nextCandidate _).regs _ hslot, hcode]

/-! ### SLOT_CHECK -/

/-- The candidate `sl` is read in the mode of R54. -/
def Dev.slotRead (d : Dev) (sl : Nat) (rest : List Nat) (same : Bool) : Dev :=
  ((d.onCfg fun t => { t with cands := rest }).put F.CFG_XSPI_MODE (d.xspiOf sl same).1).put F.CFG_XSPI_MHZ (d.xspiOf sl same).2.1

/-- A slot that has passed is shown, and LOADING begins. -/
def Dev.slotPassed (d : Dev) (sl : Nat) (fallback : Bool) : Dev :=
  let h := d.hdr sl
  let len := bitB (h 8 4) 0
  let d2 := d.slotShow sl (d.imageCheck sl)
  let d3 := ((d2.put F.CFG_STATUS_LENIENT len.toNat).put F.CFG_STATUS_SLOT sl).put F.CFG_STATUS_QUADFB fallback.toNat
  let d4 := (d3.put F.CFG_SEQ_VALUE (h 0x0C 4)).onCfg fun t =>
    { t with slot := sl, seq := h 0x0C 4, floor := h 0x10 4, keySlot := h 0x38 1, lenient := len }
  d4.clearMarker.enter stLoading

/-- The candidate that has been read is checked, and loaded or recorded as failed. -/
def Dev.slotTried (d : Dev) (sl : Nat) (fallback : Bool) : Dev :=
  if (d.imageCheck sl).1 ≠ sOk then d.slotFail sl (d.imageCheck sl)
  else (d.slotPassed sl fallback).loadOnDie ((d.slotPassed sl fallback).entriesOf false)

/-- SLOT_CHECK. -/
def Dev.slotChecked (d : Dev) (same : Bool) : Dev :=
  d.when (d.st? == stImage) fun d =>
    match d.cfg.cands with
    | [] => d
    | sl :: rest => (d.slotRead sl rest same).slotTried sl (d.xspiOf sl same).2.2

theorem exec_slotCheck (s : State) (same : Bool) : exec (.slotCheck same) s = s.upd fun d => d.slotChecked same := rfl

theorem sameImage_slotRead (d : Dev) (sl : Nat) (rest : List Nat) (same : Bool) : SameImage d (d.slotRead sl rest same) :=
  ⟨rfl, rfl, rfl, (get_put_ne _ _ _ _ (by decide)).trans (get_put_ne _ _ _ _ (by decide))⟩

theorem stBs_regs (l : List Byte) (d : Dev) (a : Nat) : (d.stBs a l).regs = d.regs := by
  induction l generalizing d a with
  | nil => rfl
  | cons b r ih => exact ih _ _

theorem stBs_cfg (l : List Byte) (d : Dev) (a : Nat) : (d.stBs a l).cfg = d.cfg := by
  induction l generalizing d a with
  | nil => rfl
  | cons b r ih => exact ih _ _

theorem mwr_cfg (d : Dev) (a v : Nat) : (d.mwr a v).1.cfg = d.cfg := by
  unfold Dev.mwr
  split_ifs
  · rfl
  · exact stBs_cfg _ _ _
  · exact stBs_cfg _ _ _

theorem mwr_rd (d : Dev) (a v : Nat) {x : Nat} (h : x ≠ R.JNL_IRQ_STAT) : (d.mwr a v).1.rd x = d.rd x := by
  unfold Dev.mwr
  split_ifs
  · rfl
  · refine (rd_put_ne _ F.JNL_IRQ_STAT_MRAMERR _ _ h).trans ?_
    rw [Dev.rd, Dev.rd, Dev.st, stBs_regs]
    rfl
  · rw [Dev.rd, Dev.rd, Dev.st, stBs_regs]

theorem clearMarker_cfg (d : Dev) : d.clearMarker.cfg = d.cfg := when_keeps d Dev.cfg _ _ fun d => mwr_cfg d _ _

/-- Clearing the marker writes a word of MRAM and two status registers. -/
theorem clearMarker_rd (d : Dev) {x : Nat} (hj : x ≠ R.JNL_IRQ_STAT) (hs : x ≠ R.SEC_STATUS) : d.clearMarker.rd x = d.rd x :=
  when_keeps d (fun d => d.rd x) _ _ fun d => (rd_put_ne _ F.SEC_STATUS_ERASED _ _ hs).trans (mwr_rd d _ _ hj)

theorem slotPassed_spec (d : Dev) (sl : Nat) (fallback : Bool) :
    let x := d.slotPassed sl fallback
    x.st? = stLoading ∧ x.get F.CFG_SEQ_VALUE = d.hdr sl 0x0C 4 % 2 ^ 32 ∧
    x.get F.CFG_STATUS_LENIENT = (bitB (d.hdr sl 8 4) 0).toNat ∧ x.get F.CFG_STATUS_SLOT = sl % 2 ∧
    x.cfg = { d.cfg with slot := sl, seq := d.hdr sl 0x0C 4, floor := d.hdr sl 0x10 4, keySlot := d.hdr sl 0x38 1,
                         lenient := bitB (d.hdr sl 8 4) 0 } := by
  obtain ⟨d2, hd2⟩ : ∃ d2, d2 = d.slotShow sl (d.imageCheck sl) := ⟨_, rfl⟩
  obtain ⟨d3, hd3⟩ : ∃ d3, d3 = ((d2.put F.CFG_STATUS_LENIENT (bitB (d.hdr sl 8 4) 0).toNat).put F.CFG_STATUS_SLOT sl).put
    F.CFG_STATUS_QUADFB fallback.toNat := ⟨_, rfl⟩
  obtain ⟨d4, hd4⟩ : ∃ d4, d4 = (d3.put F.CFG_SEQ_VALUE (d.hdr sl 0x0C 4)).onCfg fun t =>
    { t with slot := sl, seq := d.hdr sl 0x0C 4, floor := d.hdr sl 0x10 4, keySlot := d.hdr sl 0x38 1, lenient := bitB (d.hdr sl 8 4) 0 } :=
    ⟨_, rfl⟩
  have hx : d.slotPassed sl fallback = d4.clearMarker.enter stLoading := by rw [hd4, hd3, hd2]; rfl
  have hkeep : ∀ {f : Fld}, f.addr ∉ [R.SYS_STATE, R.SYS_IRQ_STAT] → f.addr ≠ R.JNL_IRQ_STAT → f.addr ≠ R.SEC_STATUS →
      (d4.clearMarker.enter stLoading).get f = d4.get f := fun {f} hf hj hs =>
    ((frame_enter _ _).get hf).trans (by rw [Dev.get, Dev.get, clearMarker_rd _ hj hs])
  have hstatus : ∀ {f : Fld}, f.addr = R.CFG_STATUS → d4.get f = d3.get f := fun {f} hf => by
    rw [hd4, onCfg_get, get_put_ne _ _ _ _ (by rw [hf]; decide)]
  rw [hx]
  refine ⟨st_enter_of_lt _ (by decide), ?_, ?_, ?_, ?_⟩
  · rw [hkeep (by decide) (by decide) (by decide), hd4, onCfg_get, get_put_same _ _ _ (by decide)]
    rfl
  · rw [hkeep (by decide) (by decide) (by decide), hstatus rfl, hd3,
      get_put_apart _ F.CFG_STATUS_QUADFB F.CFG_STATUS_LENIENT _ (by decide) rfl (by decide),
      get_put_apart _ F.CFG_STATUS_SLOT F.CFG_STATUS_LENIENT _ (by decide) rfl (by decide), get_put_same _ _ _ (by decide)]
    cases bitB (d.hdr sl 8 4) 0 <;> rfl
  · rw [hkeep (by decide) (by decide) (by decide), hstatus rfl, hd3,
      get_put_apart _ F.CFG_STATUS_QUADFB F.CFG_STATUS_SLOT _ (by decide) rfl (by decide), get_put_same _ _ _ (by decide)]
    rfl
  · have honly := onlyRegs_enter d4.clearMarker stLoading
    unfold OnlyRegs at honly
    rw [honly]
    show d4.clearMarker.cfg = _
    rw [clearMarker_cfg, hd4, hd3, hd2]
    rfl

theorem slotTried_failed {d : Dev} {sl : Nat} (h : (d.imageCheck sl).1 ≠ sOk) (fallback : Bool) :
    d.slotTried sl fallback = d.slotFail sl (d.imageCheck sl) := if_pos h

theorem slotTried_passed {d : Dev} {sl : Nat} (h : (d.imageCheck sl).1 = sOk) (fallback : Bool) :
    d.slotTried sl fallback = (d.slotPassed sl fallback).loadOnDie ((d.slotPassed sl fallback).entriesOf false) := if_neg (not_not.mpr h)

theorem slotChecked_stays {d : Dev} (same : Bool) (h : d.st? ≠ stImage) : d.slotChecked same = d := by
  rw [Dev.slotChecked, beq_false_of_ne h, when_false]

theorem slotChecked_none {d : Dev} (same : Bool) (hc : d.cfg.cands = []) : d.slotChecked same = d := by
  unfold Dev.slotChecked Dev.when
  simp only [hc, ite_self]

theorem slotChecked_first {d : Dev} (same : Bool) {sl : Nat} {rest : List Nat} (h : ¬ d.st? ≠ stImage) (hc : d.cfg.cands = sl :: rest) :
    d.slotChecked same = (d.slotRead sl rest same).slotTried sl (d.xspiOf sl same).2.2 := by
  rw [Dev.slotChecked, not_not.mp h, beq_self_eq_true, when_true, hc]

theorem slotCheck_ends (s : State) (same : Bool) : Ends (.slotCheck same) s fun e =>
    let d := s.dev
    if d.st? ≠ stImage then e = d
    else match d.cfg.cands with
      | [] => e = d
      | sl :: rest =>
        let r := d.imageCheck sl
        if r.1 = sOk then
          ∃ x : Dev, e = x.loadOnDie (x.entriesOf false) ∧ x.st? = stLoading ∧ x.get F.CFG_SEQ_VALUE = d.hdr sl 0x0C 4 % 2 ^ 32 ∧
            x.get F.CFG_STATUS_LENIENT = (bitB (d.hdr sl 8 4) 0).toNat ∧ x.get F.CFG_STATUS_SLOT = sl % 2 ∧
            x.cfg = { d.cfg with cands := rest, slot := sl, seq := d.hdr sl 0x0C 4, floor := d.hdr sl 0x10 4,
                                 keySlot := d.hdr sl 0x38 1, lenient := bitB (d.hdr sl 8 4) 0 }
        else
          bits (e.rd (if sl = 0 then R.CFG_SLOTA else R.CFG_SLOTB)).toNat 0 8 = r.1 % 2 ^ 8 ∧
          e.cfg.cands = rest ∧ e.cfg.claims = [] ∧ e.itk = {} ∧ (∀ a, e.ldB a = d.ldB a) ∧
          if rest = [] then e.st? = stConfigFail ∧ bits (e.rd R.CFG_STATUS).toNat 8 8 = r.1 % 2 ^ 8 ∧ e.reps = d.reps
          else e.st? = stImage ∧ e.get F.CFG_STATUS_OTHERFAIL = 1 ∧ Reports d e [8] := by
  refine ends_of_upd (exec_slotCheck s same) ?_
  generalize s.dev = d
  intro d'
  split
  · next h => exact slotChecked_stays same h
  · next h =>
    split
    · next hc => exact slotChecked_none same hc
    · next sl rest hc =>
      rw [slotChecked_first same h hc]
      obtain ⟨d1, hd1⟩ : ∃ d1, d1 = d.slotRead sl rest same := ⟨_, rfl⟩
      have himg : SameImage d d1 := hd1 ▸ sameImage_slotRead d sl rest same
      have hcands : d1.cfg.cands = rest := by rw [hd1]; rfl
      have hcheck := himg.imageCheck sl
      rw [← hd1]
      intro r
      split
      · next hok =>
        rw [slotTried_passed (hcheck.symm ▸ hok)]
        have hx := slotPassed_spec d1 sl (d.xspiOf sl same).2.2
        rw [himg.hdr] at hx
        obtain ⟨hst, hseq, hlen, hslot, hcfg⟩ := hx
        exact ⟨_, rfl, hst, hseq, hlen, hslot, hcfg.trans (by rw [hd1]; rfl)⟩
      · next hbad =>
        rw [slotTried_failed (hcheck.symm ▸ hbad), hcheck]
        have hfail := slotFail_ends d1 sl (d.imageCheck sl)
        rw [hcands] at hfail
        obtain ⟨hcode, hcs, hclaims, hitk, hmem, hlast⟩ := hfail
        have hmem1 : ∀ a, d1.ldB a = d.ldB a := fun a => by rw [hd1]; rfl
        have hreps1 : d1.reps = d.reps := by rw [hd1]; rfl
        rw [hreps1, Reports, hreps1] at hlast
        exact ⟨hcode, hcs, hclaims, hitk, fun a => (hmem a).trans (hmem1 a), hlast⟩

/-- Settles O14: the start from SAF_BOOT, the candidates' order, and the check of the first candidate. -/
theorem bootAndSlots : Obligations.BootAndSlots := ⟨safBootComplete_ends, candidates_eq, slotCheck_ends⟩

end Sys2Proof.Machine
end

section
/-! The hand-over at CONFIG_DONE (R63): what TRAINING begins with, and that nothing it starts touches it. -/

namespace Sys2Proof.Machine

/-! ### What the hand-over has fixed

The device state and status, the severities, and the ACTIVE_SEQ of FIR, CAM and LMP stand where no start of another unit writes: in
SYS, CFG, the sources of FLT, the blocks of FIR and CAM, and the ACTIVE_SEQ of the lamp chains. -/

/-- The register at `a` is one that the hand-over has fixed, or lies in a block of such. -/
def handedOver (a : Nat) : Bool :=
  a == R.SYS_STATE || a == R.CFG_STATUS || (decide (R.FLT_SRC_CFG 0 ≤ a) && decide (a < R.FLT_SRC_CFG 256)) ||
  (decide (blockBase 15 ≤ a) && decide (a < blockBase 16)) || (decide (blockBase 18 ≤ a) && decide (a < blockBase 19)) ||
  (decide (blockBase 21 ≤ a) && decide (a < blockBase 22) && a % 0x40 == 0x1C)

theorem handedOver_iff (a : Nat) : handedOver a = true ↔
    a = 0x02000010 ∨ a = 0x02010010 ∨ (0x02040400 ≤ a ∧ a < 0x02040800) ∨ (0x08080000 ≤ a ∧ a < 0x08090000) ∨
    (0x080B0000 ≤ a ∧ a < 0x080C0000) ∨ (0x080E0000 ≤ a ∧ a < 0x080F0000 ∧ a % 0x40 = 0x1C) := by
  simp only [handedOver, Bool.or_eq_true, Bool.and_eq_true, decide_eq_true_eq, beq_iff_eq, or_assoc, and_assoc]
  rfl

/-- The registers of PGF, ETH and PTP lie above. -/
theorem handedOver_above {a : Nat} (h : 0x080F0000 ≤ a) : ¬ handedOver a = true := by
  rw [handedOver_iff]
  omega

theorem handedOver_nzm (h : Nat) (hh : h < 64) : ¬ handedOver (R.NZM_HEAD_STAT h) = true := by
  rw [handedOver_iff, R.NZM_HEAD_STAT]
  omega

theorem handedOver_sluHead (h : Nat) (hh : h < 64) : ¬ handedOver (R.SLU_HEAD_STAT h) = true := by
  rw [handedOver_iff, R.SLU_HEAD_STAT]
  omega

theorem handedOver_sluGroup (n : Nat) (hn : n < 8) : ¬ handedOver (R.SLU_HG_STAT n) = true := by
  rw [handedOver_iff, R.SLU_HG_STAT]
  omega

theorem handedOver_lampStat (c : Nat) (hc : c < 4) : ¬ handedOver (R.LMP_CH_STAT c) = true := by
  rw [handedOver_iff, R.LMP_CH_STAT]
  omega

/-- The step from `d` to `e` leaves what the hand-over has fixed: those registers, the active sets, and memory. -/
structure HandOverKept (d e : Dev) : Prop where
  regs : ∀ a, handedOver a = true → e.rd a = d.rd a
  act : e.act = d.act
  mem : e.mem = d.mem

namespace HandOverKept

variable {d e : Dev}

theorem refl (d : Dev) : HandOverKept d d := ⟨fun _ _ => rfl, rfl, rfl⟩

theorem trans {f : Dev} (h : HandOverKept d e) (k : HandOverKept e f) : HandOverKept d f :=
  ⟨fun a ha => (k.regs a ha).trans (h.regs a ha), k.act.trans h.act, k.mem.trans h.mem⟩

/-- A part of the device beside registers, active sets and memory has changed. -/
theorem part {f : Dev} (k : HandOverKept d e) (hr : f.regs = e.regs) (ha : f.act = e.act) (hm : f.mem = e.mem) : HandOverKept d f :=
  ⟨fun a h => by rw [Dev.rd, hr]; exact k.regs a h, ha.trans k.act, hm.trans k.mem⟩

theorem wrN (k : HandOverKept d e) {a : Nat} (h : ¬ handedOver a = true) (v : Nat) : HandOverKept d (e.wrN a v) :=
  k.trans ⟨fun _ hb => rd_wrN_ne _ _ _ _ fun hba => h (hba ▸ hb), rfl, rfl⟩

theorem put (k : HandOverKept d e) {f : Fld} (h : ¬ handedOver f.addr = true) (v : Nat) : HandOverKept d (e.put f v) :=
  k.trans ⟨fun _ hb => rd_put_ne _ _ _ _ fun hba => h (hba ▸ hb), rfl, rfl⟩

theorem report (k : HandOverKept d e) (n : Nat) (x : Option Nat) : HandOverKept d (e.report n x) :=
  k.part (report_regs _ _ _) (report_act _ _ _) (report_mem _ _ _)

theorem when (k : HandOverKept d e) {b : Bool} {f : Dev → Dev} (h : ∀ d, HandOverKept d (f d)) : HandOverKept d (e.when b f) := by
  cases b
  · exact k
  · exact k.trans (h e)

theorem each {α : Type} (k : HandOverKept d e) {l : List α} {f : Dev → α → Dev} (h : ∀ d, ∀ x ∈ l, HandOverKept d (f d x)) :
    HandOverKept d (e.each l f) := by
  induction l generalizing e with
  | nil => exact k
  | cons x l ih => exact ih (k.trans (h e x List.mem_cons_self)) fun d y hy => h d y (List.mem_cons_of_mem x hy)

theorem get (k : HandOverKept d e) {f : Fld} (h : handedOver f.addr = true) : e.get f = d.get f := by
  rw [Dev.get, Dev.get, k.regs _ h]

/-! ### The fabric (R404 to R411) -/

theorem onPgf (k : HandOverKept d e) (f : PgfSt → PgfSt) : HandOverKept d (e.onPgf f) := k.part rfl rfl rfl

theorem onPtp (k : HandOverKept d e) (f : PtpSt → PtpSt) : HandOverKept d (e.onPtp f) := k.part rfl rfl rfl

theorem onNzm (k : HandOverKept d e) (f : NzmSt → NzmSt) : HandOverKept d (e.onNzm f) := k.part rfl rfl rfl

theorem onFport (k : HandOverKept d e) (p : Nat) (f : PgfPort → PgfPort) : HandOverKept d (e.onFport p f) := k.part rfl rfl rfl

theorem fabQueue (k : HandOverKept d e) (p : Nat) (x : FabPkt) : HandOverKept d (e.fabQueue p x) := k.when fun d => (refl d).onFport _ _

theorem fabBroadcast (k : HandOverKept d e) (ptype : Nat) (payload : List Byte) : HandOverKept d (e.fabBroadcast ptype payload) :=
  k.each fun d _ _ => (refl d).fabQueue _ _

theorem fabSendUp (k : HandOverKept d e) (ptype : Nat) (payload : List Byte) : HandOverKept d (e.fabSendUp ptype payload) := by
  unfold Dev.fabSendUp
  split
  · exact k
  · exact k.fabQueue _ _

theorem sendAdvs (k : HandOverKept d e) : HandOverKept d e.sendAdvs := k.each fun d _ _ => (refl d).onFport _ _

theorem takeTopo (k : HandOverKept d e) (t : Topo) : HandOverKept d (e.takeTopo t) := k.part rfl rfl rfl

theorem sendTopo (k : HandOverKept d e) : HandOverKept d e.sendTopo := by
  unfold Dev.sendTopo
  extract_lets ps b
  split_ifs
  · exact k
  · exact k.takeTopo _
  · exact k.fabSendUp _ _

theorem syncMembers (k : HandOverKept d e) : HandOverKept d e.syncMembers := k.wrN (by decide) _

theorem syncTree (k : HandOverKept d e) : HandOverKept d e.syncTree :=
  k.each fun d p _ => (refl d).put (f := F.PGF_PORT_STAT_TREE p) (handedOver_above (by simp only [F.PGF_PORT_STAT_TREE, R.PGF_PORT_STAT]; omega)) _

theorem takeAddr (k : HandOverKept d e) (a : Nat) : HandOverKept d (e.takeAddr a) :=
  ((((k.put (f := F.PGF_STAT_ADDR) (by decide) _).put (f := F.PGF_STAT_ADDRVALID) (by decide) _).onPgf _).when fun d =>
    (refl d).put (f := F.PGF_IRQ_STAT_ADDR) (by decide) _).sendTopo

theorem grantAddr (k : HandOverKept d e) (uid want kind : Nat) (fixed : Bool) : HandOverKept d (e.grantAddr uid want kind fixed) :=
  (k.onPgf _).syncMembers.fabBroadcast _ _

theorem becomeRoot (k : HandOverKept d e) : HandOverKept d e.becomeRoot :=
  ((((k.onPgf _).grantAddr _ _ _ _).takeAddr _).put (f := F.PGF_STAT_ROOTADDR) (by decide) _).fabBroadcast _ _

theorem setFstate (k : HandOverKept d e) (p n : Nat) : HandOverKept d (e.setFstate p n) := by
  unfold Dev.setFstate
  split
  · exact k
  · exact (k.put (f := F.PGF_PORT_STAT_STATE p) (handedOver_above (by simp only [F.PGF_PORT_STAT_STATE, R.PGF_PORT_STAT]; omega)) _).put
      (f := F.PGF_IRQ_STAT_PORT) (by decide) _

theorem fattempt (k : HandOverKept d e) (p : Nat) : HandOverKept d (e.fattempt p) :=
  ((k.part rfl rfl rfl : HandOverKept d (e.fresh 128).2).onFport _ _).setFstate _ _

/-! ### Time (R433 to R435) -/

theorem setRate (k : HandOverKept d e) (r : Int) : HandOverKept d (e.setRate r) := (k.onPtp _).wrN (by decide) _

theorem enterTime (k : HandOverKept d e) (n : Nat) : HandOverKept d (e.enterTime n) := by
  have h1 := (k.put (f := F.PTP_STATE_STATE) (by decide) n).put (f := F.PTP_IRQ_STAT_STATE) (by decide) 1
  unfold Dev.enterTime
  extract_lets d1 c d2
  split_ifs
  · exact k
  · exact ((h1.onPtp _).when fun d => (refl d).setRate _).report _ _
  · exact h1.report _ _
  · exact h1.onPtp _
  · exact h1

theorem setSource (k : HandOverKept d e) (src : Option (Nat × Nat × Nat)) : HandOverKept d (e.setSource src) := by
  unfold Dev.setSource
  split
  · exact k
  · extract_lets x d0 d1 d2 d3
    have h0 : HandOverKept d d0 := k.when fun d => (refl d).enterTime _
    have h2 : HandOverKept d d2 := (((((h0.onPtp _).put (f := F.PTP_STATE_SRC) (by decide) _).put (f := F.PTP_STATE_PORT) (by decide) _).wrN
      (by decide) _).wrN (by decide) _)
    exact (h2.put (f := F.PTP_IRQ_STAT_PARENT) (by decide) _).when fun d => (refl d).enterTime _

theorem syncUtc (k : HandOverKept d e) : HandOverKept d e.syncUtc := by
  have hutc : ∀ v, HandOverKept d (e.wrN R.PTP_UTC v) := k.wrN (by decide)
  unfold Dev.syncUtc
  extract_lets a
  clear_value a
  cases a with
  | none => exact hutc _
  | some f =>
    dsimp only
    split
    · exact hutc _
    · exact hutc _

theorem fabricLost (k : HandOverKept d e) : HandOverKept d e.fabricLost := k.when fun d => (((refl d).onPtp _).setSource _).syncUtc

theorem chooseRoot (k : HandOverKept d e) : HandOverKept d e.chooseRoot := by
  unfold Dev.chooseRoot
  split
  · exact k
  · extract_lets advs best par dist parent was changed moved d1 root d2 d3 d4 d5 d6 d7 d8 d9
    split
    · exact k.syncTree
    · have h2 : HandOverKept d d2 := ((k.onPgf _).put (f := F.PGF_STAT_ROOT) (by decide) _).put (f := F.PGF_STAT_DIST) (by decide) _
      have h3 : HandOverKept d d3 := h2.each fun d n _ => (refl d).wrN (handedOver_above (by rw [R.PGF_ROOTUID]; omega)) _
      have h4 : HandOverKept d d4 := h3.when fun d => ((refl d).put (f := F.PGF_IRQ_STAT_ROOT) (by decide) _).report _ _
      have h5 : HandOverKept d d5 := h4.when fun d => (refl d).fabricLost
      have h7 : HandOverKept d d7 := (h5.onPgf _).syncTree.sendAdvs
      have h8 : HandOverKept d d8 := h7.when fun d => (refl d).becomeRoot
      exact (h8.when fun d => (refl d).onPgf _).syncMembers

theorem pgfStart (k : HandOverKept d e) : HandOverKept d e.pgfStart :=
  (((k.part rfl rfl rfl : HandOverKept d (e.fresh 32).2).onPgf _).each fun d _ _ => (refl d).fattempt _).chooseRoot

/-! ### The other units -/

theorem sendRefusal (k : HandOverKept d e) (link id reason : Nat) : HandOverKept d (e.sendRefusal link id reason) := by
  unfold Dev.sendRefusal
  split
  · exact k
  · extract_lets d1 d2 rep d3
    have h1 : HandOverKept d d1 := (k.put (f := F.ITK_IRQ_STAT_LINKREF) (by decide) _).report _ _
    split
    · exact ((h1.put (f := F.PGF_REFCNT_SENT) (by decide) _).onPgf _).fabBroadcast _ _
    · exact h1

theorem syncStop (k : HandOverKept d e) : HandOverKept d e.syncStop := by
  have hstop : ∀ v, HandOverKept d (e.put F.FLT_STAT_STOP v) := k.put (by decide)
  unfold Dev.syncStop
  extract_lets now
  split
  · exact ((hstop _).put (f := F.FLT_IRQ_STAT_STOP) (by decide) _).each fun d _ _ => (refl d).sendRefusal _ _ _
  · exact hstop _

theorem speed (k : HandOverKept d e) (duty src cause : Nat) : HandOverKept d (e.speed duty src cause) :=
  ((k.put (f := F.SLU_SPD_STAT_DUTY) (by decide) _).put (f := F.SLU_SPD_STAT_SRC) (by decide) _).put (f := F.SLU_SPD_STAT_CAUSE) (by decide) _

theorem ethStart (k : HandOverKept d e) : HandOverKept d e.ethStart :=
  k.each fun d p _ => (refl d).put (f := F.ETH_PORT_STAT_STATE p) (handedOver_above (by simp only [F.ETH_PORT_STAT_STATE, R.ETH_PORT_STAT]; omega)) _

theorem ptpStart (k : HandOverKept d e) : HandOverKept d e.ptpStart :=
  (k.each fun d p _ => (refl d).put (f := F.PTP_PORT_STAT_PSTATE p)
    (handedOver_above (by simp only [F.PTP_PORT_STAT_PSTATE, R.PTP_PORT_STAT]; omega)) _).syncUtc

theorem lampStart (k : HandOverKept d e) : HandOverKept d e.lampStart :=
  k.each fun d c hc => (((refl d).part rfl rfl rfl : HandOverKept d ((d.onLmp _).onLch c _))).put (f := F.LMP_CH_STAT_STATE c)
    (handedOver_lampStat c (List.mem_range.mp (List.mem_of_mem_filter hc))) _

theorem syncHeat (k : HandOverKept d e) {n : Nat} (hn : n < 8) : HandOverKept d (e.syncHeat n) := by
  have hlevel := k.put (f := F.SLU_HG_STAT_LEVEL n) (handedOver_sluGroup n hn)
  have hheld : ∀ {e : Dev}, HandOverKept d e → ∀ v, HandOverKept d (e.put (F.SLU_HG_STAT_HELD n) v) := fun k =>
    k.put (handedOver_sluGroup n hn)
  unfold Dev.syncHeat
  extract_lets lv stale d1
  split_ifs
  · exact hlevel _
  · exact ((hheld (hlevel _) _).put (f := F.SLU_IRQ_STAT_HARD) (by decide) _).report _ _
  · exact hlevel _
  · exact hheld (hlevel _) _

theorem markStale (k : HandOverKept d e) {h : Nat} (hh : h < 64) : HandOverKept d (e.markStale h) :=
  ((k.put (f := F.SLU_HEAD_STAT_STALE h) (handedOver_sluHead h hh) _).put (f := F.SLU_HEAD_STAT_LEVEL h) (handedOver_sluHead h hh) _).syncHeat
    (by omega)

theorem syncCounts (k : HandOverKept d e) {h : Nat} (hh : h < 64) : HandOverKept d (e.syncCounts h) := by
  unfold Dev.syncCounts
  extract_lets o mx d1 full
  have h1 : HandOverKept d d1 := (k.put (f := F.NZM_HEAD_STAT_OUTCNT h) (handedOver_nzm h hh) _).put (f := F.NZM_HEAD_STAT_DISCNT h)
    (handedOver_nzm h hh) _
  split_ifs
  · exact h1
  · exact ((h1.onNzm _).put (f := F.NZM_IRQ_STAT_MAXOUT) (by decide) _).report _ _
  · exact h1.onNzm _

end HandOverKept

/-! ### Loops that set one place per round -/

/-- What each round of a loop establishes for its element, and every round keeps, holds of every element at the end. -/
theorem each_sets {α : Type} {l : List α} {f : Dev → α → Dev} {Q : Dev → Prop} {P : α → Dev → Prop} {d : Dev} (hd : Q d)
    (hinv : ∀ d x, Q d → Q (f d x)) (hset : ∀ d x, Q d → P x (f d x)) (hkeep : ∀ d x y, P y d → Q d → P y (f d x)) :
    ∀ x ∈ l, P x (d.each l f) := by
  have hstand : ∀ (l : List α) (d : Dev) (y : α), Q d → P y d → P y (d.each l f) := fun l => by
    induction l with
    | nil => exact fun d y _ hy => hy
    | cons x l ih => exact fun d y hq hy => ih _ _ (hinv d x hq) (hkeep d x y hy hq)
  induction l generalizing d with
  | nil => exact fun x hx => absurd hx List.not_mem_nil
  | cons x l ih =>
    intro y hy
    rcases List.mem_cons.mp hy with rfl | hy
    · exact hstand l _ _ (hinv d y hd) (hset d y hd)
    · exact ih (hinv d x hd) y hy

/-- A loop that puts `v` into a field of its own per round leaves `v` in each. -/
theorem get_each_put {fld : Nat → Fld} (v : Nat) (hw : ∀ i, (fld i).lo + (fld i).width ≤ 32) (ha : ∀ i j, i ≠ j → (fld i).addr ≠ (fld j).addr)
    (d : Dev) {l : List Nat} {i : Nat} (hi : i ∈ l) : (d.each l fun d i => d.put (fld i) v).get (fld i) = v % 2 ^ (fld i).width :=
  each_sets (Q := fun _ => True) (P := fun i d => d.get (fld i) = v % 2 ^ (fld i).width) trivial (fun _ _ _ => trivial)
    (fun d x _ => get_put_same d (fld x) v (hw x))
    (fun d x y hy _ => by
      by_cases h : y = x
      · exact h ▸ get_put_same d (fld x) v (hw x)
      · exact (get_put_ne d (fld x) (fld y) v (ha y x h)).trans hy) i hi

/-! ### The active sets (R63) -/

theorem regs_copies (d : Dev) (l : List Nat) : (d.each l Dev.copyAct).regs = d.regs := each_keeps d l _ Dev.regs fun _ _ => rfl

theorem mem_copies (d : Dev) (l : List Nat) : (d.each l Dev.copyAct).mem = d.mem := each_keeps d l _ Dev.mem fun _ _ => rfl

theorem act_copyAct {d e : Dev} (h : e.regs = d.regs) (a : Nat) : spGet (regReset a) (e.copyAct a).act a = d.rd a := by
  rw [Dev.rd, ← h]
  exact spGet_spPut_same _ _ _ _

/-- The registers that have been copied stand in the active set. -/
theorem act_copies (d : Dev) {l : List Nat} : ∀ a ∈ l, spGet (regReset a) (d.each l Dev.copyAct).act a = d.rd a :=
  each_sets (Q := fun e => e.regs = d.regs) (P := fun a e => spGet (regReset a) e.act a = d.rd a) rfl (fun _ _ h => h)
    (fun _ a h => act_copyAct h a)
    (fun _ a b hb h => by
      by_cases hab : b = a
      · exact hab ▸ act_copyAct h a
      · exact (spGet_spPut_ne _ _ _ _ _ _ hab).trans hb)

/-- A copy of further registers leaves what stands in the active set, where that is the register's value. -/
theorem act_copies_more (d : Dev) {l : List Nat} {a : Nat} (m : List Nat) (ha : a ∈ l) :
    spGet (regReset a) ((d.each l Dev.copyAct).each m Dev.copyAct).act a = d.rd a := by
  have happend : (d.each l Dev.copyAct).each m Dev.copyAct = d.each (l ++ m) Dev.copyAct := (List.foldl_append ..).symm
  rw [happend]
  exact act_copies d a (List.mem_append_left m ha)

/-- The active sets of FIR, CAM and LMP are in force. -/
def Dev.setsCopied (d : Dev) : Dev :=
  ((d.each ((List.range 8).map firSet).flatten Dev.copyAct).each ((List.range 4).map trgSet).flatten Dev.copyAct).onLmp fun t =>
    { t with strs := t.strs.map fun y => { y with acL := y.shL, acF := y.shF } }

theorem rd_setsCopied (d : Dev) (a : Nat) : d.setsCopied.rd a = d.rd a := by
  rw [Dev.setsCopied, onLmp_rd, Dev.rd, regs_copies, regs_copies]
  rfl

theorem mem_setsCopied (d : Dev) : d.setsCopied.mem = d.mem := by
  rw [Dev.setsCopied, onLmp_mem, mem_copies, mem_copies]

theorem act_setsCopied (d : Dev) {n a : Nat} (hn : n < 8) (ha : a ∈ firSet n) : spGet (regReset a) d.setsCopied.act a = d.rd a := by
  rw [Dev.setsCopied, onLmp_act]
  exact act_copies_more d _ (List.mem_flatten.mpr ⟨_, List.mem_map_of_mem (List.mem_range.mpr hn), ha⟩)

/-- Every ACTIVE_SEQ of FIR, of CAM and of LMP is 1. -/
def Dev.seqsOne (d : Dev) : Dev :=
  ((d.each (List.range 8) fun d n => d.put (F.FIR_HG_ACTIVE_SEQ_SEQ n) 1).each (List.range 4) fun d k =>
    d.put (F.CAM_TRG_ACTIVE_SEQ_SEQ k) 1).each (List.range 4) fun d c => d.put (F.LMP_CH_ACTIVE_SEQ_SEQ c) 1

theorem firstSets_eq (d : Dev) : d.firstSets = d.setsCopied.seqsOne := rfl

theorem seqsOne_keeps {β : Type} (d : Dev) (g : Dev → β) (hfir : ∀ d n, g (d.put (F.FIR_HG_ACTIVE_SEQ_SEQ n) 1) = g d)
    (hcam : ∀ d k, g (d.put (F.CAM_TRG_ACTIVE_SEQ_SEQ k) 1) = g d) (hlmp : ∀ d c, g (d.put (F.LMP_CH_ACTIVE_SEQ_SEQ c) 1) = g d) :
    g d.seqsOne = g d := by
  rw [Dev.seqsOne, each_keeps _ _ _ g hlmp, each_keeps _ _ _ g hcam, each_keeps _ _ _ g hfir]

theorem seqsOne_rd (d : Dev) {a : Nat} (h : a < 0x08000000) : d.seqsOne.rd a = d.rd a :=
  seqsOne_keeps d (fun d => d.rd a)
    (fun d n => rd_put_ne _ (F.FIR_HG_ACTIVE_SEQ_SEQ n) _ _ (by simp only [F.FIR_HG_ACTIVE_SEQ_SEQ, R.FIR_HG_ACTIVE_SEQ]; omega))
    (fun d k => rd_put_ne _ (F.CAM_TRG_ACTIVE_SEQ_SEQ k) _ _ (by simp only [F.CAM_TRG_ACTIVE_SEQ_SEQ, R.CAM_TRG_ACTIVE_SEQ]; omega))
    (fun d c => rd_put_ne _ (F.LMP_CH_ACTIVE_SEQ_SEQ c) _ _ (by simp only [F.LMP_CH_ACTIVE_SEQ_SEQ, R.LMP_CH_ACTIVE_SEQ]; omega))

theorem get_fir_seqsOne (d : Dev) {n : Nat} (hn : n < 8) : d.seqsOne.get (F.FIR_HG_ACTIVE_SEQ_SEQ n) = 1 := by
  rw [Dev.seqsOne, each_keeps _ _ _ (fun d => d.get (F.FIR_HG_ACTIVE_SEQ_SEQ n)) fun d c => get_put_ne _ _ _ _ (by
      simp only [F.FIR_HG_ACTIVE_SEQ_SEQ, F.LMP_CH_ACTIVE_SEQ_SEQ, R.FIR_HG_ACTIVE_SEQ, R.LMP_CH_ACTIVE_SEQ]; omega),
    each_keeps _ _ _ (fun d => d.get (F.FIR_HG_ACTIVE_SEQ_SEQ n)) fun d k => get_put_ne _ _ _ _ (by
      simp only [F.FIR_HG_ACTIVE_SEQ_SEQ, F.CAM_TRG_ACTIVE_SEQ_SEQ, R.FIR_HG_ACTIVE_SEQ, R.CAM_TRG_ACTIVE_SEQ]; omega)]
  exact get_each_put (fld := F.FIR_HG_ACTIVE_SEQ_SEQ) 1 (fun _ => Nat.le_refl 32)
    (fun i j h => by simp only [F.FIR_HG_ACTIVE_SEQ_SEQ, R.FIR_HG_ACTIVE_SEQ]; omega) _ (List.mem_range.mpr hn)

theorem get_cam_seqsOne (d : Dev) {k : Nat} (hk : k < 4) : d.seqsOne.get (F.CAM_TRG_ACTIVE_SEQ_SEQ k) = 1 := by
  rw [Dev.seqsOne, each_keeps _ _ _ (fun d => d.get (F.CAM_TRG_ACTIVE_SEQ_SEQ k)) fun d c => get_put_ne _ _ _ _ (by
      simp only [F.CAM_TRG_ACTIVE_SEQ_SEQ, F.LMP_CH_ACTIVE_SEQ_SEQ, R.CAM_TRG_ACTIVE_SEQ, R.LMP_CH_ACTIVE_SEQ]; omega)]
  exact get_each_put (fld := F.CAM_TRG_ACTIVE_SEQ_SEQ) 1 (fun _ => Nat.le_refl 32)
    (fun i j h => by simp only [F.CAM_TRG_ACTIVE_SEQ_SEQ, R.CAM_TRG_ACTIVE_SEQ]; omega) _ (List.mem_range.mpr hk)

theorem get_lmp_seqsOne (d : Dev) {c : Nat} (hc : c < 4) : d.seqsOne.get (F.LMP_CH_ACTIVE_SEQ_SEQ c) = 1 :=
  get_each_put (fld := F.LMP_CH_ACTIVE_SEQ_SEQ) 1 (fun _ => Nat.le_refl 32)
    (fun i j h => by simp only [F.LMP_CH_ACTIVE_SEQ_SEQ, R.LMP_CH_ACTIVE_SEQ]; omega) _ (List.mem_range.mpr hc)

/-! ### The severities (R63) -/

/-- Every source takes the severity of the image. -/
def Dev.sevsTaken (d : Dev) : Dev := d.each (List.range 256) fun d i => d.put (F.FLT_SRC_CFG_SEV i) (d.get (F.FLT_SRC_CFG_ISEV i))

theorem isev_put_sev (d : Dev) (i j v : Nat) : (d.put (F.FLT_SRC_CFG_SEV i) v).get (F.FLT_SRC_CFG_ISEV j) = d.get (F.FLT_SRC_CFG_ISEV j) := by
  by_cases h : i = j
  · subst h
    exact get_put_apart _ (F.FLT_SRC_CFG_SEV i) (F.FLT_SRC_CFG_ISEV i) _ (show 0 + 3 ≤ 32 by decide) rfl (.inr (show 0 + 3 ≤ 8 by decide))
  · exact get_put_ne _ _ _ _ (by simp only [F.FLT_SRC_CFG_SEV, F.FLT_SRC_CFG_ISEV, R.FLT_SRC_CFG]; omega)

theorem sev_sevsTaken (d : Dev) {i : Nat} (hi : i < 256) : d.sevsTaken.sev i = d.get (F.FLT_SRC_CFG_ISEV i) := by
  have hset : ∀ (e : Dev) (x : Nat), (∀ j, e.get (F.FLT_SRC_CFG_ISEV j) = d.get (F.FLT_SRC_CFG_ISEV j)) →
      (e.put (F.FLT_SRC_CFG_SEV x) (e.get (F.FLT_SRC_CFG_ISEV x))).sev x = d.get (F.FLT_SRC_CFG_ISEV x) := fun e x h => by
    rw [Dev.sev, get_put_same _ _ _ (show 0 + 3 ≤ 32 by decide), h]
    exact Nat.mod_eq_of_lt (get_lt d (F.FLT_SRC_CFG_ISEV x))
  refine each_sets (Q := fun e => ∀ j, e.get (F.FLT_SRC_CFG_ISEV j) = d.get (F.FLT_SRC_CFG_ISEV j))
    (P := fun i e => e.sev i = d.get (F.FLT_SRC_CFG_ISEV i)) (fun _ => rfl) (fun e x h j => (isev_put_sev e x j _).trans (h j)) hset ?_ i
    (List.mem_range.mpr hi)
  intro e x y hy hq
  by_cases h : y = x
  · exact h ▸ hset e x hq
  · exact (get_put_ne _ _ _ _ (by simp only [F.FLT_SRC_CFG_SEV, R.FLT_SRC_CFG]; omega)).trans hy

theorem frame_sevsTaken (d : Dev) : Frame d d.sevsTaken ((List.range 256).map R.FLT_SRC_CFG) :=
  Frame.each _ (fun _ i hi => frame_put _ (F.FLT_SRC_CFG_SEV i) _ _ (List.mem_map_of_mem (f := R.FLT_SRC_CFG) hi)) d

theorem sevsTaken_get (d : Dev) {f : Fld} (h : 0x08000000 ≤ f.addr) : d.sevsTaken.get f = d.get f :=
  (frame_sevsTaken d).get fun hm => by
    obtain ⟨i, hi, ha⟩ := List.mem_map.mp hm
    have hlt := List.mem_range.mp hi
    rw [R.FLT_SRC_CFG] at ha
    omega

theorem act_sevsTaken (d : Dev) : d.sevsTaken.act = d.act := each_keeps d _ _ Dev.act fun _ _ => rfl

theorem mem_sevsTaken (d : Dev) : d.sevsTaken.mem = d.mem := each_keeps d _ _ Dev.mem fun _ _ => rfl

/-! ### CONFIG_DONE -/

/-- The hand-over: the active sets and the severities are in force, DONE is set, and TRAINING is entered. -/
def Dev.trainingBegun (d : Dev) : Dev := (d.firstSets.sevsTaken.put F.CFG_STATUS_DONE 1).enter stTraining

theorem OnlyRegs.act {d e : Dev} (h : OnlyRegs d e) : e.act = d.act := by
  unfold OnlyRegs at h
  rw [h]

theorem OnlyRegs.mem {d e : Dev} (h : OnlyRegs d e) : e.mem = d.mem := by
  unfold OnlyRegs at h
  rw [h]

theorem onlyRegs_put (d : Dev) (f : Fld) (v : Nat) : OnlyRegs d (d.put f v) := rfl

theorem onlyRegs_trainingBegun (d : Dev) : OnlyRegs d.firstSets.sevsTaken d.trainingBegun :=
  (onlyRegs_put _ _ _).trans (onlyRegs_enter _ _)

theorem goTraining_kept (d : Dev) : HandOverKept d.trainingBegun d.goTraining := by
  unfold Dev.goTraining
  extract_lets c d1 d2 d3 d4
  have h2 : HandOverKept d.trainingBegun d2 := (HandOverKept.refl d.trainingBegun).syncStop.speed _ _ _
  have h3 : HandOverKept d.trainingBegun d3 := by
    unfold d3
    split
    · exact h2.put (f := F.TWN_STAT_ROLE) (by decide) _
    · exact h2.put (f := F.HLK_EPOCH_ACT) (by decide) _
  have h4 : HandOverKept d.trainingBegun d4 := h3.ethStart.ptpStart.pgfStart.lampStart
  refine h4.each fun d h hh => ?_
  have hlt : h < 64 := List.mem_range.mp (List.mem_of_mem_filter hh)
  exact (((HandOverKept.refl d).part rfl rfl rfl : HandOverKept d (d.onHead h _)).markStale hlt).syncCounts hlt

theorem frame_trainingBegun (d : Dev) : Frame d.firstSets.sevsTaken d.trainingBegun [R.CFG_STATUS, R.SYS_STATE, R.SYS_IRQ_STAT] :=
  (frame_put _ F.CFG_STATUS_DONE 1 _ (by decide)).trans ((frame_enter _ _).mono (by decide))

theorem done_trainingBegun (d : Dev) : d.trainingBegun.get F.CFG_STATUS_DONE = 1 :=
  ((frame_enter _ _).get (by decide)).trans (get_put_same _ _ _ (by decide))

theorem sev_trainingBegun (d : Dev) {i : Nat} (hi : i < 256) : d.trainingBegun.sev i = d.get (F.FLT_SRC_CFG_ISEV i) := by
  have haddr : (F.FLT_SRC_CFG_SEV i).addr ∉ [R.CFG_STATUS, R.SYS_STATE, R.SYS_IRQ_STAT] := fun hm => by
    have hle : (F.FLT_SRC_CFG_SEV i).addr ≤ R.CFG_STATUS := (show ∀ a ∈ [R.CFG_STATUS, R.SYS_STATE, R.SYS_IRQ_STAT], a ≤ R.CFG_STATUS by decide) _ hm
    simp only [F.FLT_SRC_CFG_SEV, R.FLT_SRC_CFG, R.CFG_STATUS] at hle
    omega
  have hisev : d.firstSets.get (F.FLT_SRC_CFG_ISEV i) = d.get (F.FLT_SRC_CFG_ISEV i) := by
    rw [firstSets_eq, Dev.get, seqsOne_rd _ (by simp only [F.FLT_SRC_CFG_ISEV, R.FLT_SRC_CFG]; omega), rd_setsCopied]
    rfl
  rw [Dev.sev, (frame_trainingBegun d).get haddr]
  exact (sev_sevsTaken _ hi).trans hisev

/-- A register of the image units above the sources reads as the first sets have left it. -/
theorem get_trainingBegun (d : Dev) {f : Fld} (h : 0x08000000 ≤ f.addr) : d.trainingBegun.get f = d.setsCopied.seqsOne.get f := by
  have haddr : f.addr ∉ [R.CFG_STATUS, R.SYS_STATE, R.SYS_IRQ_STAT] := fun hm => by
    have hle : f.addr ≤ R.CFG_STATUS := (show ∀ a ∈ [R.CFG_STATUS, R.SYS_STATE, R.SYS_IRQ_STAT], a ≤ R.CFG_STATUS by decide) _ hm
    rw [R.CFG_STATUS] at hle
    omega
  rw [(frame_trainingBegun d).get haddr, sevsTaken_get _ h, firstSets_eq]

theorem st_trainingBegun (d : Dev) : d.trainingBegun.st? = stTraining := st_enter_of_lt _ (by decide)

theorem act_trainingBegun (d : Dev) : d.trainingBegun.act = d.setsCopied.act := by
  rw [(onlyRegs_trainingBegun d).act, act_sevsTaken, firstSets_eq]
  exact seqsOne_keeps _ Dev.act (fun _ _ => rfl) (fun _ _ => rfl) fun _ _ => rfl

theorem mem_trainingBegun (d : Dev) : d.trainingBegun.mem = d.mem := by
  rw [(onlyRegs_trainingBegun d).mem, mem_sevsTaken, firstSets_eq, ← mem_setsCopied d]
  exact seqsOne_keeps _ Dev.mem (fun _ _ => rfl) (fun _ _ => rfl) fun _ _ => rfl

theorem goTraining_ends (d : Dev) :
    let e := d.goTraining
    e.st? = stTraining ∧ e.configDone = true ∧ (∀ i : Fin 256, e.sev i = d.get (F.FLT_SRC_CFG_ISEV i)) ∧
    (∀ n : Fin 8, e.get (F.FIR_HG_ACTIVE_SEQ_SEQ n) = 1 ∧ ∀ a ∈ firSet n, spGet (regReset a) e.act a = d.rd a) ∧
    (∀ k : Fin 4, e.get (F.CAM_TRG_ACTIVE_SEQ_SEQ k) = 1) ∧ (∀ c : Fin 4, e.get (F.LMP_CH_ACTIVE_SEQ_SEQ c) = 1) ∧
    ∀ a, e.ldB a = d.ldB a := by
  have hkept := goTraining_kept d
  intro e
  refine ⟨?_, ?_, fun i => ?_, fun n => ⟨?_, fun a ha => ?_⟩, fun k => ?_, fun c => ?_, fun a => ?_⟩
  · exact (hkept.get (by decide)).trans (st_trainingBegun d)
  · exact decide_eq_true ((hkept.get (by decide)).trans (done_trainingBegun d))
  · refine (hkept.get ?_).trans (sev_trainingBegun d i.isLt)
    simp only [handedOver_iff, F.FLT_SRC_CFG_SEV, R.FLT_SRC_CFG]
    omega
  · refine (hkept.get ?_).trans ((get_trainingBegun d ?_).trans (get_fir_seqsOne _ n.isLt))
    · simp only [handedOver_iff, F.FIR_HG_ACTIVE_SEQ_SEQ, R.FIR_HG_ACTIVE_SEQ]
      omega
    · simp only [F.FIR_HG_ACTIVE_SEQ_SEQ, R.FIR_HG_ACTIVE_SEQ]
      omega
  · rw [hkept.act, act_trainingBegun, act_setsCopied d n.isLt ha]
  · refine (hkept.get ?_).trans ((get_trainingBegun d ?_).trans (get_cam_seqsOne _ k.isLt))
    · simp only [handedOver_iff, F.CAM_TRG_ACTIVE_SEQ_SEQ, R.CAM_TRG_ACTIVE_SEQ]
      omega
    · simp only [F.CAM_TRG_ACTIVE_SEQ_SEQ, R.CAM_TRG_ACTIVE_SEQ]
      omega
  · refine (hkept.get ?_).trans ((get_trainingBegun d ?_).trans (get_lmp_seqsOne _ c.isLt))
    · simp only [handedOver_iff, F.LMP_CH_ACTIVE_SEQ_SEQ, R.LMP_CH_ACTIVE_SEQ]
      omega
    · simp only [F.LMP_CH_ACTIVE_SEQ_SEQ, R.LMP_CH_ACTIVE_SEQ]
      omega
  · rw [Dev.ldB, Dev.ldB, hkept.mem, mem_trainingBegun]

/-- A command that waits for the state `n` and for `b` does nothing without them. -/
theorem when_closed {d : Dev} {n : Nat} {b : Bool} (h : d.st? ≠ n ∨ b = false) (f : Dev → Dev) : d.when (d.st? == n && b) f = d := by
  have hoff : (d.st? == n && b) = false := by
    rcases h with h | h
    · rw [beq_false_of_ne h, Bool.false_and]
    · rw [h, Bool.and_false]
  rw [hoff, when_false]

theorem when_open {d : Dev} {n : Nat} {b : Bool} (h : ¬ (d.st? ≠ n ∨ b = false)) (f : Dev → Dev) : d.when (d.st? == n && b) f = f d := by
  obtain ⟨hst, hb⟩ := not_or.mp h
  have hon : (d.st? == n && b) = true := by
    rw [not_not.mp hst, beq_self_eq_true, Bool.true_and]
    exact eq_true_of_ne_false hb
  rw [hon, when_true]

/-- CONFIG_DONE's checks, and what follows them. -/
def Dev.configEnded (d : Dev) : Dev :=
  let st := d.configStatus
  let q := d.srcSettle
  let r := q.2.impSettle fun _ => true
  let bad := firstFail [(st != sOk, st), (q.1 != sOk, q.1), (r.1 != sOk, r.1)]
  if bad ≠ sOk then d.slotFail d.cfg.slot (bad, false, 0) else r.2.goTraining

theorem exec_configDone (s : State) :
    exec .configDone s = s.upd fun d => d.when (d.st? == stLoading && d.cfg.onDieDone) Dev.configEnded := rfl

theorem configEnded_failed {d : Dev} (h : d.configStatus ≠ sOk) : d.configEnded = d.slotFail d.cfg.slot (d.configStatus, false, 0) := by
  have hbad : ∀ l, firstFail ((d.configStatus != sOk, d.configStatus) :: l) = d.configStatus := fun l => by
    rw [show (d.configStatus != sOk) = true from bne_iff_ne.mpr h]
    rfl
  unfold Dev.configEnded
  dsimp only
  rw [hbad]
  exact if_pos h

theorem configEnded_passed {d : Dev} (hst : d.configStatus = sOk) (hsrc : d.srcSettle = (sOk, d)) (himp : d.impSettle (fun _ => true) = (sOk, d)) :
    d.configEnded = d.goTraining := by
  unfold Dev.configEnded
  rw [hst, hsrc]
  dsimp only
  rw [himp]
  rfl

theorem configDone_ends (s : State) : Ends .configDone s fun e =>
    let d := s.dev
    if d.st? ≠ stLoading ∨ d.cfg.onDieDone = false then e = d
    else
      (d.configStatus ≠ sOk → e = d.slotFail d.cfg.slot (d.configStatus, false, 0)) ∧
      (d.configStatus = sOk → d.srcSettle = (sOk, d) → d.impSettle (fun _ => true) = (sOk, d) →
        e.st? = stTraining ∧ e.configDone = true ∧ (∀ i : Fin 256, e.sev i = d.get (F.FLT_SRC_CFG_ISEV i)) ∧
        (∀ n : Fin 8, e.get (F.FIR_HG_ACTIVE_SEQ_SEQ n) = 1 ∧ ∀ a ∈ firSet n, spGet (regReset a) e.act a = d.rd a) ∧
        (∀ k : Fin 4, e.get (F.CAM_TRG_ACTIVE_SEQ_SEQ k) = 1) ∧ (∀ c : Fin 4, e.get (F.LMP_CH_ACTIVE_SEQ_SEQ c) = 1) ∧
        ∀ a, e.ldB a = d.ldB a) := by
  refine ends_of_upd (exec_configDone s) ?_
  generalize s.dev = d
  intro d'
  split
  · next h => exact when_closed h _
  · next h =>
    rw [when_open h]
    refine ⟨configEnded_failed, fun hok hsrc himp => ?_⟩
    rw [configEnded_passed hok hsrc himp]
    exact goTraining_ends d

end Sys2Proof.Machine
end

section
/-! Register lists, the end of a record, and the end of TRAINING (R47, R60, R61, R67). -/

namespace Sys2Proof.Machine

/-! ### Records (R59, R67) -/

theorem loadEntry_skipped {d : Dev} {len : Bool} {en : DirEnt} {ix : Nat} (hf : en.feature ≠ 0) (hd : en.feature ∈ d.cfg.disabled) :
    d.loadEntry len en ix = (sOk, d) := if_pos ⟨hf, List.contains_iff_mem.mpr hd⟩

theorem loadEntry_unknown {d : Dev} {len : Bool} {en : DirEnt} {ix : Nat} (hf : en.feature = 0 ∨ en.feature ∉ d.cfg.disabled)
    (ht : typeKnown en.type = false) :
    d.loadEntry len en ix =
      if len = false ∨ bitB en.flags 0 = true then (sUnsupported, d) else (sOk, d.logEvent 0 sUnsupported en.feature) := by
  have hskip : ¬ (en.feature ≠ 0 ∧ d.cfg.disabled.contains en.feature = true) := fun h =>
    hf.elim h.1 fun hn => hn (List.contains_iff_mem.mp h.2)
  unfold Dev.loadEntry
  rw [if_neg hskip, if_pos (by rw [ht]; rfl)]
  simp only [Bool.not_eq_true']

theorem logEvent_cfg (d : Dev) (cls code feature : Nat) : (d.logEvent cls code feature).cfg = { d.cfg with logged := true } := by
  unfold Dev.logEvent
  extract_lets n d1
  have h1 : d1.cfg = d.cfg := when_keeps d Dev.cfg _ _ fun _ => rfl
  have h2 : (d1.incSat F.CFG_LOGCNT_COUNT).cfg = d.cfg := h1
  rw [onCfg_cfg, h2]

theorem recordEnd_fails {len : Bool} {en : DirEnt} {r : Nat × Dev} (h : len = false ∨ en.required = true) : Dev.recordEnd len en r = r :=
  if_pos (.inr (.inr (h.imp (fun h => by rw [h]; rfl) id)))

theorem recordEnd_ends {len : Bool} {en : DirEnt} {r : Nat × Dev} (h : r.1 = sOk ∨ r.1 = sWaits) : Dev.recordEnd len en r = r :=
  if_pos (h.imp id .inl)

theorem recordEnd_disables {en : DirEnt} {c : Nat} {d : Dev} (hok : c ≠ sOk) (hw : c ≠ sWaits) (hr : en.required = false) :
    (Dev.recordEnd true en (c, d)).1 = sOk ∧ en.feature ∈ (Dev.recordEnd true en (c, d)).2.cfg.disabled := by
  have h : Dev.recordEnd true en (c, d) = (sOk, (d.disable en.feature false).logEvent 0 c en.feature) :=
    if_neg (by simp [hok, hw, hr])
  rw [h]
  exact ⟨rfl, by rw [logEvent_cfg]; exact List.mem_cons_self⟩

/-! ### A POLL (R60) -/

/-- The list of entry `ix` of the directory waits at its entry `k`, which is read once more. -/
def Dev.listPolled (d : Dev) (ix k : Nat) (saved : List (Nat × Word)) (timeout : Bool) : Dev :=
  let e := d.dirEnt d.cfg.slot ix
  let b := e.type - 0x1000
  let body := d.body d.cfg.slot e
  let x := listEnt b body k
  let rest := (d.entriesOf false).filter fun y => ix < y.2
  let d1 := d.onCfg fun t => { t with polls := none }
  let hit := d.loaderRead b x.addr &&& x.mask == x.value
  if !hit ∧ !timeout then d
  else
    let r := if hit then d1.runList b body ix ((List.range (listCount body)).filter fun j => k < j) saved
      else (sTimeout, d1.each saved fun d y => d.writeBack b y)
    let q := Dev.recordEnd d.cfg.lenient e r
    if q.1 = sWaits then q.2
    else if q.1 ≠ sOk then q.2.slotFail d.cfg.slot (q.1, false, ix)
    else q.2.loadOnDie rest

/-- REGISTER_LIST_POLL. -/
def Dev.pollEnded (d : Dev) (timeout : Bool) : Dev :=
  match d.cfg.polls with
  | none => d
  | some (ix, k, saved) => if d.st? ≠ stLoading then d else d.listPolled ix k saved timeout

theorem exec_registerListPoll (s : State) (timeout : Bool) : exec (.registerListPoll timeout) s = s.upd fun d => d.pollEnded timeout := rfl

theorem pollEnded_none {d : Dev} (h : d.cfg.polls = none) (timeout : Bool) : d.pollEnded timeout = d := by
  rw [Dev.pollEnded, h]

theorem pollEnded_some {d : Dev} {ix k : Nat} {saved : List (Nat × Word)} (h : d.cfg.polls = some (ix, k, saved)) (timeout : Bool) :
    d.pollEnded timeout = if d.st? ≠ stLoading then d else d.listPolled ix k saved timeout := by
  rw [Dev.pollEnded, h]

section
variable {d : Dev} {ix k : Nat} {saved : List (Nat × Word)}

/-- The register that the POLL reads meets VALUE under MASK. -/
abbrev PollMet (d : Dev) (ix k : Nat) : Prop :=
  let en := d.dirEnt d.cfg.slot ix
  let b := en.type - 0x1000
  let x := listEnt b (d.body d.cfg.slot en) k
  d.loaderRead b x.addr &&& x.mask = x.value

theorem listPolled_waits (h : ¬ PollMet d ix k) : d.listPolled ix k saved false = d := by
  unfold Dev.listPolled
  extract_lets e b body x rest d1 hit
  have hhit : hit = false := beq_false_of_ne h
  rw [hhit]
  rfl

theorem listPolled_timedOut (h : ¬ PollMet d ix k) (hreq : d.cfg.lenient = false ∨ (d.dirEnt d.cfg.slot ix).required = true) :
    d.listPolled ix k saved true =
      ((d.onCfg fun t => { t with polls := none }).each saved fun d' y =>
        d'.writeBack ((d.dirEnt d.cfg.slot ix).type - 0x1000) y).slotFail d.cfg.slot (sTimeout, false, ix) := by
  unfold Dev.listPolled
  extract_lets e b body x rest d1 hit r q
  have hhit : hit = false := beq_false_of_ne h
  have hr : r = (sTimeout, d1.each saved fun d y => d.writeBack b y) := by
    unfold r
    rw [hhit]
    rfl
  have hq : q = r := recordEnd_fails hreq
  rw [hq, hr, hhit]
  rfl

theorem listPolled_ended (h : PollMet d ix k)
    (hlast : listCount (d.body d.cfg.slot (d.dirEnt d.cfg.slot ix)) ≤ k + 1) (timeout : Bool) :
    d.listPolled ix k saved timeout =
      (d.onCfg fun t => { t with polls := none }).loadOnDie ((d.entriesOf false).filter fun y => ix < y.2) := by
  have hnone : ((List.range (listCount (d.body d.cfg.slot (d.dirEnt d.cfg.slot ix)))).filter fun j => k < j) = [] :=
    List.filter_eq_nil_iff.mpr fun j hj => by
      have := List.mem_range.mp hj
      simp only [decide_eq_true_eq]
      omega
  unfold Dev.listPolled
  extract_lets e b body x rest d1 hit r q
  have hhit : hit = true := beq_iff_eq.mpr h
  have hr : r = (sOk, d1) := by
    unfold r
    rw [hhit, if_pos rfl, hnone]
    rfl
  have hq : q = r := recordEnd_ends (.inl (by rw [hr]))
  rw [hq, hr, hhit]
  rfl

end

theorem registerListPoll_ends (s : State) (timeout : Bool) : Ends (.registerListPoll timeout) s fun e =>
    let d := s.dev
    match d.cfg.polls with
    | none => e = d
    | some (ix, k, sv) =>
      let en := d.dirEnt d.cfg.slot ix
      let b := en.type - 0x1000
      let x := listEnt b (d.body d.cfg.slot en) k
      let hit := d.loaderRead b x.addr &&& x.mask = x.value
      let d1 : Dev := { d with cfg := { d.cfg with polls := none } }
      let rest := (d.entriesOf false).filter fun y => ix < y.2
      if d.st? ≠ stLoading then e = d
      else
        (¬ hit → timeout = false → e = d) ∧
        (¬ hit → timeout = true → d.cfg.lenient = false ∨ en.required = true →
          e = (d1.each sv fun d y => d.writeBack b y).slotFail d.cfg.slot (sTimeout, false, ix)) ∧
        (hit → listCount (d.body d.cfg.slot en) ≤ k + 1 → e = d1.loadOnDie rest) := by
  refine ends_of_upd (exec_registerListPoll s timeout) ?_
  generalize s.dev = d
  intro d'
  split
  · next hp => exact pollEnded_none hp timeout
  · next ix k sv hp =>
    rw [pollEnded_some hp]
    intro en b x hit d1 rest
    split
    · rfl
    · refine ⟨fun hmiss ht => ?_, fun hmiss ht hreq => ?_, fun hmet hlast => ?_⟩
      · rw [ht]
        exact listPolled_waits hmiss
      · rw [ht]
        exact listPolled_timedOut hmiss hreq
      · exact listPolled_ended hmet hlast timeout

/-! ### The end of TRAINING (R47) -/

/-- The channels `f` have failed training, the others of those enabled have passed. -/
def Dev.trainShown (d : Dev) (f : Nat) : Dev := (d.put F.DMC_TRAINSTAT_FAIL f).put F.DMC_TRAINSTAT_DONE (d.chanMask - f)

/-- TRAINING has ended with the channels `f` failed: the DRAM records, the fonts, and SELFTEST. -/
def Dev.trainingEnded (d : Dev) (f : Nat) : Dev :=
  let d1 := d.trainShown f
  if f ≠ 0 then d1.report 168
  else
    let r := Dev.loadEntries d.cfg.lenient (d1.entriesOf true) d1
    let q := r.2.2.impSettle r.2.2.hasFont
    if r.1 ≠ sOk then r.2.2.slotFail d.cfg.slot (r.1, false, r.2.1)
    else if q.1 ≠ sOk then q.2.slotFail d.cfg.slot (q.1, false, 0)
    else
      let c := d.c
      let d2 := q.2.onSys fun t => { t with twdC := c }
      (d2.enter stSelftest).put (if d.cfg.slot = 0 then F.CFG_SLOTA_LOADED else F.CFG_SLOTB_LOADED) 1

theorem exec_trainingComplete (s : State) (x : Fin 256) : exec (.trainingComplete x) s =
    s.upd fun d => d.when (d.st? == stTraining && d.attemptsEnded) fun d => d.trainingEnded (x.val &&& d.chanMask) := rfl

theorem frame_trainShown (d : Dev) (f : Nat) : Frame d (d.trainShown f) [R.DMC_TRAINSTAT] :=
  (frame_put _ F.DMC_TRAINSTAT_FAIL _ _ (by decide)).trans (frame_put _ F.DMC_TRAINSTAT_DONE _ _ (by decide))

theorem trainingEnded_failed (d : Dev) {f : Nat} (hf : f ≠ 0) :
    let e := d.trainingEnded f
    Frame d e [R.DMC_TRAINSTAT] ∧ e = { d with regs := e.regs, reps := e.reps, freeCtr := e.freeCtr } ∧
    e.get F.DMC_TRAINSTAT_FAIL = f % 2 ^ 8 ∧ Reports d e [168] := by
  have he : d.trainingEnded f = (d.trainShown f).report 168 := if_pos hf
  rw [he]
  refine ⟨(frame_trainShown d f).trans (frame_report _ _ _ _), rfl, ?_, report_srcs _ _ _⟩
  rw [report_get, Dev.trainShown, get_put_apart _ F.DMC_TRAINSTAT_DONE F.DMC_TRAINSTAT_FAIL _ (by decide) rfl (by decide)]
  exact get_put_same _ _ _ (by decide)

/-- The LOADED bit of the running slot. -/
abbrev loadedFld (slot : Nat) : Fld := if slot = 0 then F.CFG_SLOTA_LOADED else F.CFG_SLOTB_LOADED

theorem loadedFld_addr (slot : Nat) : (loadedFld slot).addr = R.CFG_SLOTA ∨ (loadedFld slot).addr = R.CFG_SLOTB := by
  rw [loadedFld]
  split
  · exact .inl rfl
  · exact .inr rfl

theorem loadedFld_bits (slot : Nat) : (loadedFld slot).lo + (loadedFld slot).width ≤ 32 ∧ (loadedFld slot).width = 1 := by
  rw [loadedFld]
  split <;> decide

/-- SELFTEST begins. -/
def Dev.selftestBegun (d : Dev) (c slot : Nat) : Dev := ((d.onSys fun t => { t with twdC := c }).enter stSelftest).put (loadedFld slot) 1

theorem trainingEnded_passed {d : Dev} (hrec : (d.trainShown 0).entriesOf true = [])
    (himp : (d.trainShown 0).impSettle (d.trainShown 0).hasFont = (sOk, d.trainShown 0)) :
    d.trainingEnded 0 = (d.trainShown 0).selftestBegun d.c d.cfg.slot := by
  unfold Dev.trainingEnded
  extract_lets d1 r q c d2
  have hr : r = (sOk, 0, d1) := by
    unfold r
    rw [hrec]
    rfl
  have hq : q = (sOk, d1) := by
    unfold q
    rw [hr]
    exact himp
  have hd2 : d2 = d1.onSys fun t => { t with twdC := d.c } := by
    unfold d2
    rw [hq]
  rw [if_neg (not_not.mpr rfl), hr, hq, hd2]
  rfl

theorem selftestBegun_spec (d : Dev) (c slot : Nat) :
    let e := d.selftestBegun c slot
    Frame d e [R.SYS_STATE, R.SYS_IRQ_STAT, R.CFG_SLOTA, R.CFG_SLOTB] ∧ OnlyRegs (d.onSys fun t => { t with twdC := c }) e ∧
    e.st? = stSelftest ∧ e.get (loadedFld slot) = 1 := by
  have haddr := loadedFld_addr slot
  obtain ⟨hlo, hw⟩ := loadedFld_bits slot
  have hmem : (loadedFld slot).addr ∈ [R.SYS_STATE, R.SYS_IRQ_STAT, R.CFG_SLOTA, R.CFG_SLOTB] := by
    rcases haddr with h | h
    · rw [h]; decide
    · rw [h]; decide
  have hst : R.SYS_STATE ≠ (loadedFld slot).addr := by
    rcases haddr with h | h
    · rw [h]; decide
    · rw [h]; decide
  have hsys : Frame d (d.onSys fun t => { t with twdC := c }) [R.SYS_STATE, R.SYS_IRQ_STAT, R.CFG_SLOTA, R.CFG_SLOTB] :=
    ⟨fun a _ => onSys_rd d _ a, onSys_ldB d _⟩
  refine ⟨hsys.trans (((frame_enter _ _).mono (by decide)).trans (frame_put _ _ _ _ hmem)), (onlyRegs_enter _ _).trans (onlyRegs_put _ _ _), ?_, ?_⟩
  · exact (get_put_ne _ _ _ _ hst).trans (st_enter_of_lt _ (by decide))
  · exact (get_put_same _ _ _ hlo).trans (by rw [hw]; rfl)

theorem trainingEnded_passed_spec {d : Dev} (hrec : (d.trainShown 0).entriesOf true = [])
    (himp : (d.trainShown 0).impSettle (d.trainShown 0).hasFont = (sOk, d.trainShown 0)) :
    let e := d.trainingEnded 0
    Frame d e [R.DMC_TRAINSTAT, R.SYS_STATE, R.SYS_IRQ_STAT, R.CFG_SLOTA, R.CFG_SLOTB] ∧
    e = { d with regs := e.regs, sys := e.sys } ∧ e.sys = { d.sys with twdC := d.c } ∧ e.st? = stSelftest ∧
    e.get (loadedFld d.cfg.slot) = 1 ∧ e.get F.DMC_TRAINSTAT_DONE = d.chanMask % 2 ^ 8 := by
  obtain ⟨hframe, honly, hst, hloaded⟩ := selftestBegun_spec (d.trainShown 0) d.c d.cfg.slot
  rw [trainingEnded_passed hrec himp]
  unfold OnlyRegs at honly
  refine ⟨((frame_trainShown d 0).mono (by decide)).trans (hframe.mono (by decide)), by rw [honly]; rfl, by rw [honly]; rfl, hst, hloaded, ?_⟩
  rw [hframe.get (by decide)]
  exact (get_put_same _ _ _ (by decide)).trans (by rw [Nat.sub_zero]; rfl)

theorem trainingComplete_ends (s : State) (x : Fin 256) : Ends (.trainingComplete x) s fun e =>
    let d := s.dev
    let f := x.val &&& d.chanMask
    let d1 := (d.put F.DMC_TRAINSTAT_FAIL f).put F.DMC_TRAINSTAT_DONE (d.chanMask - f)
    if d.st? ≠ stTraining ∨ d.attemptsEnded = false then e = d
    else
      (f ≠ 0 → Frame d e [R.DMC_TRAINSTAT] ∧ e = { d with regs := e.regs, reps := e.reps, freeCtr := e.freeCtr } ∧
        e.get F.DMC_TRAINSTAT_FAIL = f % 2 ^ 8 ∧ Reports d e [168]) ∧
      (f = 0 → d1.entriesOf true = [] → d1.impSettle d1.hasFont = (sOk, d1) →
        Frame d e [R.DMC_TRAINSTAT, R.SYS_STATE, R.SYS_IRQ_STAT, R.CFG_SLOTA, R.CFG_SLOTB] ∧
        e = { d with regs := e.regs, sys := e.sys } ∧ e.sys = { d.sys with twdC := d.c } ∧ e.st? = stSelftest ∧
        e.get (if d.cfg.slot = 0 then F.CFG_SLOTA_LOADED else F.CFG_SLOTB_LOADED) = 1 ∧ e.get F.DMC_TRAINSTAT_DONE = d.chanMask % 2 ^ 8) := by
  refine ends_of_upd (exec_trainingComplete s x) ?_
  generalize s.dev = d
  intro d' f d1
  have hd1 : d1 = d.trainShown f := rfl
  clear_value d1
  split
  · next h => exact when_closed h _
  · next h =>
    rw [when_open h]
    refine ⟨fun hf => trainingEnded_failed d hf, fun hf hrec himp => ?_⟩
    have hf0 : x.val &&& d.chanMask = 0 := hf
    rw [hd1, hf] at hrec himp
    rw [hf0]
    exact trainingEnded_passed_spec hrec himp

/-- Settles O15: the POLL of a register list, what ends a record, CONFIG_DONE, and the end of TRAINING. -/
theorem loadingAndHandOver : Obligations.LoadingAndHandOver :=
  ⟨registerListPoll_ends, fun _ _ _ _ => ⟨loadEntry_skipped, loadEntry_unknown⟩,
    fun _ _ _ hok hw => ⟨recordEnd_fails (.inl rfl), fun hr => recordEnd_fails (.inr hr), recordEnd_disables hok hw⟩,
    configDone_ends, trainingComplete_ends⟩

end Sys2Proof.Machine
end

section
/-! Checks 1 to 4 of a mailbox request (R87). -/

namespace Sys2Proof.Machine

/-- What checks 1 to 4 of R87 refuse of a request of the row `r` that has the turn on channel `n`. -/
abbrev Refuses (d e : Dev) (n : Nat) (r : MbxRow) : Prop :=
  let h := d.reqHead n
  (h / 2 ^ 8 % 2 ^ 8 ≠ r.len ∨ h / 2 ^ 24 ≠ 0 → Declined d e n sBadValue) ∧
  (h / 2 ^ 8 % 2 ^ 8 = r.len → h / 2 ^ 24 = 0 → r.group ≠ 7 → d.bit F.SEC_MBX_ALLOW_GROUP r.group = false →
    Declined d e n sDenied) ∧
  (h / 2 ^ 8 % 2 ^ 8 = r.len → h / 2 ^ 24 = 0 → (r.group = 7 ∨ d.bit F.SEC_MBX_ALLOW_GROUP r.group = true) →
    d.mbxAllows r.states = false → Declined d e n sBadState)

/-- A request that has not the turn, or is for another opcode, waits. -/
theorem mbxServe_other {d : Dev} {n : Nat} {r : MbxRow} (f : Dev → Option (Nat × List Nat) × Dev)
    (h : d.mbxTurn ≠ some n ∨ d.reqHead n % 2 ^ 8 ≠ r.op) : d.mbxServe n r f = d := if_pos h

section
variable {d : Dev} {n : Nat} {r : MbxRow}

theorem mbxCheck4_badValue (h : d.reqHead n / 2 ^ 8 % 2 ^ 8 ≠ r.len ∨ d.reqHead n / 2 ^ 24 ≠ 0) : d.mbxCheck4 n r = sBadValue := by
  have hbad : (d.reqHead n / 2 ^ 8 % 256 != r.len || d.reqHead n / 2 ^ 24 != 0) = true := by simpa using h
  simp only [Dev.mbxCheck4, hbad]
  rfl

theorem mbxCheck4_passesHead (hlen : d.reqHead n / 2 ^ 8 % 2 ^ 8 = r.len) (hrsv : d.reqHead n / 2 ^ 24 = 0) :
    d.mbxCheck4 n r = firstFail [(r.group != 7 && !(d.bit F.SEC_MBX_ALLOW_GROUP r.group), sDenied), (!(d.mbxAllows r.states), sBadState)] := by
  have hgood : (d.reqHead n / 2 ^ 8 % 256 != r.len || d.reqHead n / 2 ^ 24 != 0) = false := by
    rw [hrsv, show d.reqHead n / 2 ^ 8 % 256 = r.len from hlen]
    simp
  simp only [Dev.mbxCheck4, hgood]
  rfl

theorem mbxCheck4_denied (hlen : d.reqHead n / 2 ^ 8 % 2 ^ 8 = r.len) (hrsv : d.reqHead n / 2 ^ 24 = 0) (h7 : r.group ≠ 7)
    (hgroup : d.bit F.SEC_MBX_ALLOW_GROUP r.group = false) : d.mbxCheck4 n r = sDenied := by
  have hbad : (r.group != 7 && !(d.bit F.SEC_MBX_ALLOW_GROUP r.group)) = true := by simp [h7, hgroup]
  rw [mbxCheck4_passesHead hlen hrsv, hbad]
  rfl

theorem mbxCheck4_badState (hlen : d.reqHead n / 2 ^ 8 % 2 ^ 8 = r.len) (hrsv : d.reqHead n / 2 ^ 24 = 0)
    (hgroup : r.group = 7 ∨ d.bit F.SEC_MBX_ALLOW_GROUP r.group = true) (hstate : d.mbxAllows r.states = false) :
    d.mbxCheck4 n r = sBadState := by
  have hgood : (r.group != 7 && !(d.bit F.SEC_MBX_ALLOW_GROUP r.group)) = false := by
    rcases hgroup with hg | hg
    · simp [hg]
    · simp [hg]
  rw [mbxCheck4_passesHead hlen hrsv, hgood, hstate]
  rfl

/-- A request in its turn that fails checks 1 to 4 is answered with their status, whatever its opcode does. -/
theorem mbxServe_declined (hn : n < 4) (f : Dev → Option (Nat × List Nat) × Dev) (hturn : d.mbxTurn = some n) (hop : d.reqHead n % 2 ^ 8 = r.op)
    {st : Nat} (hcheck : d.mbxCheck4 n r = st) (hst : st ≠ sOk) : Declined d (d.mbxServe n r f) n st := by
  have hserve : d.mbxServe n r f = (d.mbxTake n).mbxDone n st [] := by
    have hcheck' : (d.mbxTake n).mbxCheck4 n r = st := hcheck
    unfold Dev.mbxServe
    rw [if_neg (by simp only [hturn, ne_eq, not_true, false_or]; exact not_not.mpr hop)]
    simp only [hcheck', ne_eq, hst, not_false_iff, if_true]
  rw [hserve]
  exact declined_mbxDone d hn st

theorem mbxServe_refuses (hn : n < 4) (f : Dev → Option (Nat × List Nat) × Dev) (hturn : d.mbxTurn = some n) (hop : d.reqHead n % 2 ^ 8 = r.op) :
    Refuses d (d.mbxServe n r f) n r :=
  ⟨fun h => mbxServe_declined hn f hturn hop (mbxCheck4_badValue h) (by decide),
    fun hlen hrsv h7 hg => mbxServe_declined hn f hturn hop (mbxCheck4_denied hlen hrsv h7 hg) (by decide),
    fun hlen hrsv hg hs => mbxServe_declined hn f hturn hop (mbxCheck4_badState hlen hrsv hg hs) (by decide)⟩

end

/-- What checks 1 to 4 leave of a command of the row `r`, where FUSE_PROG's two rows ask for their target in `k8` and `k9`. -/
abbrev Checked (d e : Dev) (n : Nat) (r : MbxRow) (k8 k9 : Prop) : Prop :=
  (d.mbxTurn ≠ some n ∨ d.reqHead n % 2 ^ 8 ≠ r.op → e = d) ∧
  (d.mbxTurn = some n → d.reqHead n % 2 ^ 8 = r.op → k8 → k9 → Refuses d e n r)

section
variable {i : Instr} {s : State} {n : Fin 4} {k8 k9 : Prop}

theorem ends_served {r : MbxRow} {f : Dev → Option (Nat × List Nat) × Dev} (hexec : exec i s = s.upd fun d => d.mbxServe n r f) :
    Ends i s fun e => Checked s.dev e n r k8 k9 :=
  ends_of_upd hexec ⟨mbxServe_other f, fun hturn hop _ _ => mbxServe_refuses n.isLt f hturn hop⟩

/-- The row of FUSE_PROG (R88). -/
abbrev fuseRow : MbxRow := { op := 0x60, len := 3, group := 6, states := .ready }

/-- A FUSE_PROG command serves the requests whose target is its own. -/
theorem ends_fuseServed {p : Nat → Bool} {f : Dev → Nat → Nat × Dev} (hexec : exec i s = s.upd fun d => d.fuseServe n p f)
    (hown : k8 → k9 → p (s.dev.arg n 0) = true) : Ends i s fun e => Checked s.dev e n fuseRow k8 k9 := by
  refine ends_of_upd hexec ⟨fun h => ?_, fun hturn hop h8 h9 => ?_⟩
  · unfold Dev.fuseServe Dev.when
    split
    · exact mbxServe_other _ h
    · rfl
  · rw [Dev.fuseServe, hown h8 h9, when_true]
    exact mbxServe_refuses n.isLt _ hturn hop

end

theorem exec_fuseProgDebugKill (s : State) (n : Fin 4) : exec (.fuseProgDebugKill n) s =
    s.upd fun d => d.fuseServe n (fun t => t == 8) fun d _ => (sOk, d.blowDebugKill) := rfl

theorem exec_fuseProgRootKill (s : State) (n : Fin 4) : exec (.fuseProgRootKill n) s =
    s.upd fun d => d.fuseServe n (fun t => t == 9) fun d _ => (sOk, d.blowRootKill) := rfl

/-- Settles O22: every opcode's request is served by `Dev.mbxServe` with its own row. -/
theorem mailboxRefusals : Obligations.MailboxRefusals := by
  intro s n
  rw [← List.forall_iff_forall_mem]
  exact ⟨ends_served rfl, ends_served rfl, ends_served rfl, ends_served rfl, ends_served rfl, ends_served rfl, ends_served rfl, ends_served rfl,
    ends_served rfl, ends_served rfl, ends_fuseServed (exec_fuseProgDebugKill s n) fun h8 _ => beq_iff_eq.mpr (h8 rfl),
    ends_fuseServed (exec_fuseProgRootKill s n) fun _ h9 => beq_iff_eq.mpr (h9 rfl), ends_served rfl, ends_served rfl, ends_served rfl,
    ends_served rfl, ends_served rfl⟩

end Sys2Proof.Machine
end

section
/-! The mailbox's answers with words, and the opcodes that read (R86, R88, R125, R394). -/

namespace Sys2Proof.Machine

/-! ### An answer with words (R86) -/

/-- The words of an answer stand in the response words from the second on. -/
def Dev.mbxWords (d : Dev) (n : Nat) (ws : List Nat) : Dev := d.each ws.zipIdx fun d x => d.wrN (R.MBX_RSP_W n (x.2 + 1)) x.1

theorem mbxDone_words (d : Dev) (n st : Nat) (ws : List Nat) :
    d.mbxDone n st ws = (((d.mbxWord n st ws).mbxWords n ws).mbxEnd n).emit (.mbx n st ws) := rfl

/-- Words that are written from response word `k` on leave every other register. -/
theorem rd_each_words_ne (n a : Nat) (ws : List Nat) {d : Dev} {k : Nat} (h : ∀ j, k ≤ j → j < k + ws.length → a ≠ R.MBX_RSP_W n (j + 1)) :
    (d.each (ws.zipIdx k) fun d x => d.wrN (R.MBX_RSP_W n (x.2 + 1)) x.1).rd a = d.rd a := by
  induction ws generalizing d k with
  | nil => rfl
  | cons w ws ih =>
    rw [List.zipIdx_cons, each_cons, ih fun j hj hlt => h j (by omega) (by rw [List.length_cons]; omega)]
    exact rd_wrN_ne _ _ _ _ (h k le_rfl (by rw [List.length_cons]; omega))

theorem rd_mbxWords_ne (d : Dev) (n : Nat) {ws : List Nat} {a : Nat} (h : ∀ j < ws.length, a ≠ R.MBX_RSP_W n (j + 1)) :
    (d.mbxWords n ws).rd a = d.rd a :=
  rd_each_words_ne n a ws fun j _ hj => h j (by omega)

theorem rspWord_inj {n j k : Nat} (h : j ≠ k) : R.MBX_RSP_W n j ≠ R.MBX_RSP_W n k := by
  unfold R.MBX_RSP_W
  omega

/-- Words that are written from response word `k` on each stand in their place. -/
theorem rd_each_words (n : Nat) (ws : List Nat) {d : Dev} {k j : Nat} (hj : j < ws.length) :
    (d.each (ws.zipIdx k) fun d x => d.wrN (R.MBX_RSP_W n (x.2 + 1)) x.1).rd (R.MBX_RSP_W n (k + j + 1)) = BitVec.ofNat 32 (nth ws j 0) := by
  induction ws generalizing d k j with
  | nil => exact absurd hj (Nat.not_lt_zero _)
  | cons w ws ih =>
    rw [List.zipIdx_cons, each_cons]
    cases j with
    | zero =>
      rw [rd_each_words_ne n _ ws fun i hi _ => rspWord_inj (by omega)]
      exact rd_wrN_same _ _ _
    | succ j =>
      rw [show k + (j + 1) + 1 = k + 1 + j + 1 by omega, ih (Nat.lt_of_succ_lt_succ hj)]
      rfl

theorem rd_mbxWords (d : Dev) (n : Nat) {ws : List Nat} {k : Nat} (hk : k < ws.length) :
    (d.mbxWords n ws).rd (R.MBX_RSP_W n (k + 1)) = BitVec.ofNat 32 (nth ws k 0) := by
  have h := rd_each_words (d := d) (k := 0) n ws hk
  rwa [Nat.zero_add] at h

theorem mbxWords_eq (d : Dev) (n : Nat) (ws : List Nat) : d.mbxWords n ws = { d with regs := (d.mbxWords n ws).regs } := by
  unfold Dev.mbxWords
  generalize ws.zipIdx = l
  induction l generalizing d with
  | nil => rfl
  | cons x l ih => rw [each_cons, ih]; rfl

theorem rd_rsp_mbxEnd (d : Dev) (n : Nat) {k : Nat} (hk : k < 16) : (d.mbxEnd n).rd (R.MBX_RSP_W n k) = d.rd (R.MBX_RSP_W n k) := by
  have hctl : R.MBX_RSP_W n k ≠ R.MBX_CTL n := by unfold R.MBX_RSP_W R.MBX_CTL; omega
  have hline : R.MBX_RSP_W n k ≠ R.MBX_IRQ_STAT := by unfold R.MBX_RSP_W R.MBX_IRQ_STAT; omega
  exact (rd_put_ne _ _ _ _ hline).trans ((rd_put_ne _ _ _ _ hctl).trans (rd_put_ne _ _ _ _ hctl))

section
variable (d : Dev) (n st : Nat) (ws : List Nat)

theorem mbxDone_words_eq : d.mbxDone n st ws = { d with regs := (d.mbxDone n st ws).regs, out := .mbx n st ws :: d.out } := by
  rw [mbxDone_words, mbxWords_eq, Dev.mbxWord, clrBit_eq]
  rfl

/-- An answer of up to 15 words writes its channel's registers alone. -/
theorem frame_mbxDone_words (h : ws.length ≤ 15) : Frame d (d.mbxDone n st ws) (mbxRegs n) := by
  have hwords : Frame (d.mbxWord n st ws) ((d.mbxWord n st ws).mbxWords n ws) (mbxRegs n) := by
    refine ⟨fun a ha => rd_mbxWords_ne _ _ fun j hj haj => ha ?_, fun a => ?_⟩
    · rw [haj]
      exact List.mem_append_right _ (List.mem_map_of_mem (List.mem_range.mpr (by omega)))
    · rw [mbxWords_eq]
      rfl
  rw [mbxDone_words]
  exact (((frame_mbxWord d n st ws).trans hwords).trans (frame_mbxEnd _ n)).trans (frame_emit _ _ _)

theorem mbxDone_words_done : (d.mbxDone n st ws).get (F.MBX_CTL_DONE n) = 1 := by rw [mbxDone_words, emit_get, get_done_mbxEnd]

theorem mbxDone_words_idle : (d.mbxDone n st ws).get (F.MBX_CTL_BUSY n) = 0 := by rw [mbxDone_words, emit_get, get_busy_mbxEnd]

end

/-- The request of a channel has been answered with a status and words (R85, R86). -/
theorem answered_mbxDone_words {d q : Dev} {n : Nat} (hn : n < 4) (st : Nat) {ws : List Nat} (hreq : q.reqHead n = d.reqHead n)
    (hnext : q.sys.mbxNext = (n + 1) % 4) : Answered d (q.mbxDone n st ws) n st ws := by
  refine ⟨by rw [mbxDone_words_eq]; rfl, ?_, fun k hk => ?_, mbxDone_words_done _ _ _ _, mbxDone_words_idle _ _ _ _, ?_, ?_,
    by rw [mbxDone_words_eq]; exact hnext⟩
  · rw [mbxDone_words, emit_rd, rd_word_mbxEnd, rd_mbxWords_ne _ _ fun j _ => rspWord_inj (Nat.succ_ne_zero j).symm, Dev.mbxWord, rd_wrN_same,
      BitVec.toNat_ofNat, hreq, show (256 : Nat) = 2 ^ 8 from rfl]
  · rw [mbxDone_words, emit_rd, rd_rsp_mbxEnd _ _ (Nat.succ_lt_succ k.isLt), rd_mbxWords _ _ hk, BitVec.toNat_ofNat]
  · rw [mbxDone_words, Dev.bit, emit_get]
    exact bit_setBit_same _ _ _ (by decide) hn
  · have hrsp : ∀ j, R.MBX_TPEND ≠ R.MBX_RSP_W n j := fun j => by unfold R.MBX_TPEND R.MBX_RSP_W; omega
    have hclear := bit_clrBit_same q F.MBX_TPEND_PEND n (by decide)
    have hrd : (q.mbxDone n st ws).rd R.MBX_TPEND = (q.clrBit F.MBX_TPEND_PEND n).rd R.MBX_TPEND := by
      rw [mbxDone_words, emit_rd, rd_pend_mbxEnd, rd_mbxWords_ne _ _ fun j _ => hrsp _, Dev.mbxWord, rd_wrN_ne _ _ _ _ (hrsp 0)]
    rw [Dev.bit, Dev.get, show F.MBX_TPEND_PEND.addr = R.MBX_TPEND from rfl, hrd]
    exact hclear

/-- A request that passes checks 1 to 4 is answered as its opcode's own part says. -/
theorem mbxServe_answers {d q : Dev} {n st : Nat} {ws : List Nat} {r : MbxRow} {f : Dev → Option (Nat × List Nat) × Dev} (h : Asks d n r)
    (hf : f (d.mbxTake n) = (some (st, ws), q)) : d.mbxServe n r f = q.mbxDone n st ws := by
  have hcheck := mbxCheck4_asks h
  obtain ⟨hturn, hop, -⟩ := h
  unfold Dev.mbxServe
  rw [if_neg (by simp only [hturn, ne_eq, not_true, false_or]; exact not_not.mpr hop)]
  simp only [hcheck, hf, ne_eq, not_true, if_false]

/-- The request of channel `n` has been answered with OK and the words `ws`, and nothing else has changed. -/
abbrev ReadOut (d e : Dev) (n : Nat) (ws : List Nat) : Prop :=
  Answered d e n sOk ws ∧ Frame d e (mbxRegs n) ∧ e = { d with regs := e.regs, sys := e.sys, out := e.out }

theorem readOut_mbxDone (d : Dev) {n : Nat} (hn : n < 4) {ws : List Nat} (h : ws.length ≤ 15) :
    ReadOut d ((d.mbxTake n).mbxDone n sOk ws) n ws :=
  ⟨answered_mbxDone_words hn sOk rfl rfl, (frame_mbxTake d n _).trans (frame_mbxDone_words _ _ _ _ h), by rw [mbxDone_words_eq]; rfl⟩

section
variable {d : Dev} {n : Nat} {r : MbxRow} {f : Dev → Option (Nat × List Nat) × Dev} (h : Asks d n r) (hn : n < 4)
include h hn

/-- A request whose opcode reads some words and does nothing else. -/
theorem mbxServe_reads {ws : List Nat} (hf : f (d.mbxTake n) = (some (sOk, ws), d.mbxTake n)) (hlen : ws.length ≤ 15) :
    ReadOut d (d.mbxServe n r f) n ws := by
  rw [mbxServe_answers h hf]
  exact readOut_mbxDone d hn hlen

/-- A request whose opcode refuses its arguments. -/
theorem mbxServe_refused {st : Nat} (hf : f (d.mbxTake n) = mbxStatus st (d.mbxTake n)) : Declined d (d.mbxServe n r f) n st := by
  rw [mbxServe_status h hf]
  exact declined_mbxDone d hn st

end

/-! ### INFO, TWN_INFO, DEVPUB -/

theorem info_ends (s : State) (n : Fin 4) : Ends (.info n) s fun e =>
    let d := s.dev
    Asks d n { op := 0x01, len := 0, group := 7, states := .onward } →
      Answered d e n sOk [d.cfg.fwVersion, (d.rd R.SEC_STATUS).toNat, (d.rd R.CFG_SEQ).toNat, (d.rd R.CFG_FLOOR).toNat] ∧
      Frame d e (mbxRegs n) ∧ e = { d with regs := e.regs, sys := e.sys, out := e.out } :=
  ends_of_upd (f := fun d => d.mbxServe n _ _) rfl fun h => mbxServe_reads h n.isLt rfl (by simp)

theorem twnInfo_ends (s : State) (n : Fin 4) : Ends (.twnInfo n) s fun e =>
    let d := s.dev
    let v (a : Nat) : Nat := (twnView d a).getD (d.rd a).toNat
    Asks d n { op := 0x80, len := 0, group := 7, states := .onward } →
      Answered d e n sOk [v R.TWN_STAT, v R.TWN_EPOCH, v R.TWN_PEPOCH, v R.TWN_PHEALTH] ∧
      Frame d e (mbxRegs n) ∧ e = { d with regs := e.regs, sys := e.sys, out := e.out } :=
  ends_of_upd (f := fun d => d.mbxServe n _ _) rfl fun h => mbxServe_reads h n.isLt rfl (by simp)

/-- The word of Q that SEC_DEVPUB shows at `i` (R81). -/
theorem secView_devpub (d : Dev) (i : Nat) : (secView d (R.SEC_DEVPUB 0) [i]).getD 0 =
    if d.get F.SEC_STATUS_ROOT_KILL = 1 then 0 else beNat (((devPub d.sec.fuses.rootKey d.sec.fuses.uid).drop (4 * i)).take 4) := by
  unfold secView
  rw [if_neg (by decide), if_pos rfl]
  rfl

/-- What DEVPUB answers. -/
def answerDevpub (n : Nat) (d : Dev) : Option (Nat × List Nat) × Dev :=
  let half := d.arg n 0
  if 1 < half then mbxStatus sBadValue d
  else (some (sOk, (List.range 12).map fun k => (secView d (R.SEC_DEVPUB 0) [12 * half + k]).getD 0), d)

theorem devpub_ends (s : State) (n : Fin 4) : Ends (.devpub n) s fun e =>
    let d := s.dev
    let half := d.arg n 0
    Asks d n { op := 0x02, len := 1, group := 7, states := .onward } →
      if 1 < half then Declined d e n sBadValue
      else
        Frame d e (mbxRegs n) ∧ e = { d with regs := e.regs, sys := e.sys, out := e.out } ∧
        Answered d e n sOk ((List.range 12).map fun k => if d.get F.SEC_STATUS_ROOT_KILL = 1 then 0
          else beNat (((devPub d.sec.fuses.rootKey d.sec.fuses.uid).drop (4 * (12 * half + k))).take 4)) := by
  refine ends_of_upd (f := fun d => d.mbxServe n _ (answerDevpub n)) rfl fun h => ?_
  split
  · next hhalf => exact mbxServe_refused h n.isLt (if_pos hhalf)
  · next hhalf =>
    obtain ⟨hans, hframe, hrest⟩ := mbxServe_reads (f := answerDevpub n) h n.isLt (if_neg hhalf) (by simp)
    refine ⟨hframe, hrest, ?_⟩
    simp only [secView_devpub] at hans
    exact hans

/-! ### KEY_LIST -/

/-- The word whose bits, below `m`, are those of `p`. -/
def bitmap (p : Nat → Bool) (m : Nat) : Nat := (List.range m).foldl (fun x b => if p b then x + 2 ^ b else x) 0

theorem bitmap_succ (p : Nat → Bool) (m : Nat) : bitmap p (m + 1) = if p m then bitmap p m + 2 ^ m else bitmap p m := by
  simp only [bitmap, List.range_succ, List.foldl_append, List.foldl_cons, List.foldl_nil]

theorem bitmap_lt (p : Nat → Bool) (m : Nat) : bitmap p m < 2 ^ m := by
  induction m with
  | zero => exact Nat.one_pos
  | succ m ih =>
    rw [bitmap_succ, Nat.pow_succ]
    split
    · omega
    · omega

theorem testBit_bitmap (p : Nat → Bool) {m b : Nat} (hb : b < m) : (bitmap p m).testBit b = p b := by
  induction m with
  | zero => exact absurd hb (Nat.not_lt_zero b)
  | succ m ih =>
    have hlt := bitmap_lt p m
    rw [bitmap_succ]
    rcases Nat.lt_succ_iff_lt_or_eq.mp hb with hbm | rfl
    · split
      · rw [Nat.add_comm, Nat.testBit_two_pow_add_gt hbm, ih hbm]
      · exact ih hbm
    · split
      · next hp => rw [Nat.add_comm, Nat.testBit_two_pow_add_eq, Nat.testBit_lt_two_pow hlt, hp]; rfl
      · next hp => rw [Nat.testBit_lt_two_pow hlt, Bool.eq_false_iff.mpr hp]

/-- Slot `b` of the `a`th group of 32 key slots is loaded. -/
def Dev.keyLoaded (d : Dev) (a b : Nat) : Bool := d.sec.keys.any fun k => k.slot == 32 * a + b

/-- What KEY_LIST answers. -/
def answerKeys (n : Nat) (d : Dev) : Option (Nat × List Nat) × Dev :=
  if 7 < d.arg n 0 then mbxStatus sBadValue d else (some (sOk, [bitmap (d.keyLoaded (d.arg n 0)) 32]), d)

theorem exec_keyList (s : State) (n : Fin 4) : exec (.keyList n) s =
    s.upd fun d => d.mbxServe n { op := 0x03, len := 1, group := 7, states := .onward } (answerKeys n) := rfl

theorem keyList_ends (s : State) (n : Fin 4) : Ends (.keyList n) s fun e =>
    let d := s.dev
    let a := d.arg n 0
    Asks d n { op := 0x03, len := 1, group := 7, states := .onward } →
      if 7 < a then Declined d e n sBadValue
      else
        Frame d e (mbxRegs n) ∧ e = { d with regs := e.regs, sys := e.sys, out := e.out } ∧
        Answered d e n sOk [(e.rd (R.MBX_RSP_W n 1)).toNat] ∧
        ∀ b : Fin 32, bitB (e.rd (R.MBX_RSP_W n 1)).toNat b = d.sec.keys.any fun k => k.slot == 32 * a + b.val := by
  refine ends_of_upd (exec_keyList s n) fun h => ?_
  split
  · next ha => exact mbxServe_refused h n.isLt (if_pos ha)
  · next ha =>
    obtain ⟨hans, hframe, hrest⟩ := mbxServe_reads (f := answerKeys n) h n.isLt (if_neg ha) (by simp)
    have ⟨_, _, hwords, _⟩ := hans
    have hword := (hwords 0 Nat.one_pos).trans (Nat.mod_eq_of_lt (bitmap_lt _ 32))
    refine ⟨hframe, hrest, ?_, fun b => ?_⟩
    · rw [show R.MBX_RSP_W n 1 = R.MBX_RSP_W n ((0 : Fin 15).val + 1) from rfl, hword]
      exact hans
    · rw [show R.MBX_RSP_W n 1 = R.MBX_RSP_W n ((0 : Fin 15).val + 1) from rfl, hword]
      exact testBit_bitmap _ b.isLt

/-! ### JNL_READ (R125) -/

theorem quarantine_rd (d : Dev) (s : Nat) {a : Nat} (hs : a ≠ R.JNL_STATUS) (hq : a ≠ R.JNL_QUAR) : (d.quarantine s).rd a = d.rd a := by
  unfold Dev.quarantine
  split
  · rfl
  · exact (rd_put_ne _ _ _ _ hq).trans (rd_put_ne _ _ _ _ hs)

theorem quarantine_sys (d : Dev) (s : Nat) : (d.quarantine s).sys = d.sys := by
  unfold Dev.quarantine
  split
  · rfl
  · rfl

/-- A record that fails its CRC: its slot is quarantined, and source 25 reported. -/
def Dev.badRecord (d : Dev) (slot : Nat) : Dev := (d.quarantine slot).report 25

/-- What JNL_READ answers of an item that has a record. -/
def answerRecord (d : Dev) (i : Item) : Option (Nat × List Nat) × Dev :=
  let b := d.ldBs (slotAddr i.slot) 64
  if !(d.recOk i.slot) then mbxStatus sIntegrity (d.badRecord i.slot)
  else (some (sOk, (List.range 11).map (fun k => fieldLE b (4 * k) 4) ++ (List.range 4).map fun k => fieldLE b (0x30 + 4 * k) 4), d)

/-- What JNL_READ answers. -/
def answerJournal (n : Nat) (d : Dev) : Option (Nat × List Nat) × Dev :=
  let id := d.arg n 0 + 2 ^ 32 * d.arg n 1
  if id = 0 then mbxStatus sBadValue d
  else match d.findItem id with
    | none => mbxStatus sAbsent d
    | some i => answerRecord d i

theorem exec_jnlRead (s : State) (n : Fin 4) : exec (.jnlRead n) s =
    s.upd fun d => d.mbxServe n { op := 0x10, len := 2, group := 0, states := .onward } (answerJournal n) := rfl

/-- The item with the ID that a JNL_READ asks for. -/
abbrev Dev.asked (d : Dev) (n : Nat) : Option Item := d.findItem (d.arg n 0 + 2 ^ 32 * d.arg n 1)

theorem answerJournal_none {d : Dev} {n : Nat} (hid : ¬ d.arg n 0 + 2 ^ 32 * d.arg n 1 = 0) (h : d.asked n = none) :
    answerJournal n (d.mbxTake n) = mbxStatus sAbsent (d.mbxTake n) := by
  have h' : (d.mbxTake n).findItem (d.arg n 0 + 2 ^ 32 * d.arg n 1) = none := h
  simp only [answerJournal, mbxTake_arg, if_neg hid, h']

theorem answerJournal_some {d : Dev} {n : Nat} {i : Item} (hid : ¬ d.arg n 0 + 2 ^ 32 * d.arg n 1 = 0) (h : d.asked n = some i) :
    answerJournal n (d.mbxTake n) = answerRecord (d.mbxTake n) i := by
  have h' : (d.mbxTake n).findItem (d.arg n 0 + 2 ^ 32 * d.arg n 1) = some i := h
  simp only [answerJournal, mbxTake_arg, if_neg hid, h']

theorem badRecord_answered (d : Dev) {n : Nat} (hn : n < 4) (slot : Nat) :
    let e := ((d.mbxTake n).badRecord slot).mbxDone n sIntegrity []
    Answered d e n sIntegrity [] ∧ 25 ∈ e.reps.map fun x => x.src := by
  have hreq : ((d.mbxTake n).badRecord slot).reqHead n = d.reqHead n := by
    have hs : R.MBX_REQ_W n 0 ≠ R.JNL_STATUS := by unfold R.MBX_REQ_W R.JNL_STATUS; omega
    have hq : R.MBX_REQ_W n 0 ≠ R.JNL_QUAR := by unfold R.MBX_REQ_W R.JNL_QUAR; omega
    rw [Dev.reqHead, Dev.badRecord, report_rd, quarantine_rd _ _ hs hq]
    rfl
  refine ⟨answered_mbxDone hn _ hreq ?_, ?_⟩
  · rw [Dev.badRecord, report_sys, quarantine_sys]
    rfl
  · rw [mbxDone_reps, Dev.badRecord, report_srcs]
    simp

theorem jnlRead_ends (s : State) (n : Fin 4) : Ends (.jnlRead n) s fun e =>
    let d := s.dev
    let id := d.arg n 0 + 2 ^ 32 * d.arg n 1
    Asks d n { op := 0x10, len := 2, group := 0, states := .onward } →
      if id = 0 then Declined d e n sBadValue
      else match d.findItem id with
        | none => Declined d e n sAbsent
        | some i =>
          let r := d.ldBs (slotAddr i.slot) 64
          if d.recOk i.slot = false then Answered d e n sIntegrity [] ∧ 25 ∈ e.reps.map fun x => x.src
          else
            Frame d e (mbxRegs n) ∧ e = { d with regs := e.regs, sys := e.sys, out := e.out } ∧
            Answered d e n sOk ((List.range 11).map (fun k => fieldLE r (4 * k) 4) ++
              [fieldLE r 0x30 4, fieldLE r 0x34 4, fieldLE r 0x38 4, fieldLE r 0x3C 4]) := by
  refine ends_of_upd (exec_jnlRead s n) ?_
  generalize s.dev = d
  intro d' id h
  split
  · next hid => exact mbxServe_refused h n.isLt (if_pos hid)
  · next hid =>
    split
    · next hi => exact mbxServe_refused h n.isLt (answerJournal_none hid hi)
    · next i hi =>
      have hrec := answerJournal_some hid hi
      split
      · next hbad =>
        have hbad' : (!((d.mbxTake n).recOk i.slot)) = true := Bool.not_eq_true' _ ▸ hbad
        rw [mbxServe_status h (hrec.trans (if_pos hbad'))]
        exact badRecord_answered d n.isLt i.slot
      · next hgood =>
        have hgood' : ¬ (!((d.mbxTake n).recOk i.slot)) = true := fun hb => hgood (Bool.not_eq_true' _ ▸ hb)
        obtain ⟨hans, hframe, hrest⟩ := mbxServe_reads h n.isLt (hrec.trans (if_neg hgood')) (by simp)
        exact ⟨hframe, hrest, hans⟩

/-- Settles O20, opcode by opcode. -/
theorem mailboxReads : Obligations.MailboxReads := ⟨info_ends, devpub_ends, keyList_ends, jnlRead_ends, twnInfo_ends⟩

end Sys2Proof.Machine
end

section
/-! Fuse programming (R79, R80, R88, R95). -/

namespace Sys2Proof.Machine

/-! ### The arguments of FUSE_PROG -/

/-- What FUSE_PROG answers where the blowing of a target is `f`. -/
def answerFuse (n : Nat) (f : Dev → Nat → Nat × Dev) (d : Dev) : Option (Nat × List Nat) × Dev :=
  let t := d.arg n 0
  if 11 < t ∨ d.arg n 2 ≠ 0x0F05E0B1 then mbxStatus sBadValue d
  else if t < 4 ∧ (d.mbxBuf (d.arg n 1) 48).isNone then mbxStatus sDenied d
  else if d.cfg.upd.isSome then mbxStatus sBusy d
  else
    let r := f d t
    mbxStatus r.1 r.2

section
variable {d : Dev} {n : Nat} {p : Nat → Bool} {f : Dev → Nat → Nat × Dev}

theorem fuseServe_eq (hp : p (d.arg n 0) = true) : d.fuseServe n p f = d.mbxServe n fuseRow (answerFuse n f) := by
  rw [Dev.fuseServe, hp]
  rfl

theorem answerFuse_badValue (h : 11 < d.arg n 0 ∨ d.arg n 2 ≠ 0x0F05E0B1) :
    answerFuse n f (d.mbxTake n) = mbxStatus sBadValue (d.mbxTake n) := if_pos h

theorem answerFuse_denied (h : ¬ (11 < d.arg n 0 ∨ d.arg n 2 ≠ 0x0F05E0B1)) (ht : d.arg n 0 < 4) (hbuf : d.mbxBuf (d.arg n 1) 48 = none) :
    answerFuse n f (d.mbxTake n) = mbxStatus sDenied (d.mbxTake n) :=
  (if_neg h).trans (if_pos ⟨ht, by rw [mbxTake_arg, mbxTake_mbxBuf, hbuf]; rfl⟩)

/-- The buffer of a request is one that FUSE_PROG takes: it is asked for on targets 0 to 3 alone. -/
abbrev Dev.fuseBuf (d : Dev) (n : Nat) : Prop := ¬ (d.arg n 0 < 4 ∧ (d.mbxBuf (d.arg n 1) 48).isNone = true)

theorem answerFuse_busy (h : ¬ (11 < d.arg n 0 ∨ d.arg n 2 ≠ 0x0F05E0B1)) (hbuf : d.fuseBuf n) (hupd : d.cfg.upd.isSome = true) :
    answerFuse n f (d.mbxTake n) = mbxStatus sBusy (d.mbxTake n) :=
  (if_neg h).trans ((if_neg hbuf).trans (if_pos hupd))

theorem answerFuse_blows (h : ¬ (11 < d.arg n 0 ∨ d.arg n 2 ≠ 0x0F05E0B1)) (hbuf : d.fuseBuf n) (hupd : ¬ d.cfg.upd.isSome = true) :
    answerFuse n f (d.mbxTake n) = mbxStatus (f (d.mbxTake n) (d.arg n 0)).1 (f (d.mbxTake n) (d.arg n 0)).2 :=
  (if_neg h).trans ((if_neg hbuf).trans (if_neg hupd))

/-- A FUSE_PROG request for one of the targets 4 to 11, which take no buffer: the key argument, BUSY during an update, and then the
target's own rule, which leaves `Q`. -/
theorem fuseServe_bit (h : Asks d n fuseRow) (hn : n < 4) (hp : p (d.arg n 0) = true) (h4 : 4 ≤ d.arg n 0) (h11 : d.arg n 0 ≤ 11)
    {Q : Dev → Prop} (hQ : Q ((f (d.mbxTake n) (d.arg n 0)).2.mbxDone n (f (d.mbxTake n) (d.arg n 0)).1 [])) :
    let e := d.fuseServe n p f
    if d.arg n 2 ≠ 0x0F05E0B1 then Declined d e n sBadValue
    else if d.cfg.upd.isSome then Declined d e n sBusy
    else Q e := by
  have hbuf : d.fuseBuf n := fun hb => absurd hb.1 (by omega)
  intro e
  have he : e = d.mbxServe n fuseRow (answerFuse n f) := fuseServe_eq hp
  rw [he]
  split
  · next hkey => exact mbxServe_refused h hn (answerFuse_badValue (.inr hkey))
  · next hkey =>
    have hargs : ¬ (11 < d.arg n 0 ∨ d.arg n 2 ≠ 0x0F05E0B1) := not_or.mpr ⟨by omega, hkey⟩
    split
    · next hupd => exact mbxServe_refused h hn (answerFuse_busy hargs hbuf hupd)
    · next hupd =>
      rw [mbxServe_status h (answerFuse_blows hargs hbuf hupd)]
      exact hQ

end

/-! ### What the blowing of a fuse leaves -/

/-- Fuses have been blown as `g` says, and nothing but the answer has changed beside them. -/
abbrev FusesBlown (d e : Dev) (n : Nat) (g : Fuses → Fuses) : Prop :=
  Answered d e n sOk [] ∧ Frame d e (mbxRegs n) ∧ e = { d with regs := e.regs, sys := e.sys, out := e.out, sec := e.sec } ∧
  e.sec = { d.sec with fuses := g d.sec.fuses }

theorem onFuses_blown (d : Dev) {n : Nat} (hn : n < 4) (g : Fuses → Fuses) : FusesBlown d (((d.mbxTake n).onFuses g).mbxDone n sOk []) n g := by
  have hframe : Frame d ((d.mbxTake n).onFuses g) (mbxRegs n) := ⟨fun _ _ => rfl, fun _ => rfl⟩
  refine ⟨answered_mbxDone hn sOk rfl rfl, hframe.trans (frame_mbxDone _ _ _), ?_, ?_⟩
  · rw [mbxDone_eq]
    rfl
  · rw [mbxDone_eq]
    rfl

/-- A target that revokes something is refused where that is in use. -/
theorem fuseServe_revokes {d : Dev} {n : Nat} {p : Nat → Bool} {f : Dev → Nat → Nat × Dev} {g : Fuses → Fuses} {inUse : Prop}
    [Decidable inUse]
    (h : Asks d n fuseRow) (hn : n < 4) (hp : p (d.arg n 0) = true) (h4 : 4 ≤ d.arg n 0) (h11 : d.arg n 0 ≤ 11)
    (hrun : inUse → f (d.mbxTake n) (d.arg n 0) = (sBadState, d.mbxTake n))
    (hblow : ¬ inUse → f (d.mbxTake n) (d.arg n 0) = (sOk, (d.mbxTake n).onFuses g)) :
    let e := d.fuseServe n p f
    if d.arg n 2 ≠ 0x0F05E0B1 then Declined d e n sBadValue
    else if d.cfg.upd.isSome then Declined d e n sBusy
    else if inUse then Declined d e n sBadState else FusesBlown d e n g := by
  refine fuseServe_bit h hn hp h4 h11 (Q := fun e => if inUse then Declined d e n sBadState else FusesBlown d e n g) ?_
  split
  · next hin =>
    rw [hrun hin]
    exact declined_mbxDone d hn _
  · next hout =>
    rw [hblow hout]
    exact onFuses_blown d hn g

/-- A kill fuse has been blown, which shows in SEC_STATUS. -/
theorem kill_answered {d q : Dev} {n : Nat} (hn : n < 4) (hframe : Frame d q [R.SEC_STATUS]) (hsys : q.sys.mbxNext = (n + 1) % 4) :
    let e := q.mbxDone n sOk []
    Answered d e n sOk [] ∧ Frame d e (R.SEC_STATUS :: mbxRegs n) ∧ (∀ f : Fld, f.addr = R.SEC_STATUS → e.get f = q.get f) ∧
    e.sec = q.sec := by
  have hreq : q.reqHead n = d.reqHead n := by
    rw [Dev.reqHead, hframe.regs]
    · rfl
    · rw [List.mem_singleton]
      unfold R.MBX_REQ_W R.SEC_STATUS
      omega
  have hstatus : Frame d q (R.SEC_STATUS :: mbxRegs n) := hframe.mono fun a ha => List.mem_cons.mpr (.inl (List.mem_singleton.mp ha))
  have hanswer : Frame q (q.mbxDone n sOk []) (R.SEC_STATUS :: mbxRegs n) := (frame_mbxDone q n sOk).mono fun a ha => List.mem_cons_of_mem _ ha
  refine ⟨answered_mbxDone hn sOk hreq hsys, hstatus.trans hanswer,
    fun f hf => (frame_mbxDone q n sOk).get (hf ▸ notMem_mbxRegs (by decide)), ?_⟩
  rw [mbxDone_eq]

theorem frame_blowRootKill (d : Dev) : Frame d d.blowRootKill [R.SEC_STATUS] :=
  Frame.trans (e := d.onSec _) ⟨fun _ _ => rfl, fun _ => rfl⟩ (frame_put _ _ _ _ (by decide))

theorem get_root_blowRootKill (d : Dev) : d.blowRootKill.get F.SEC_STATUS_ROOT_KILL = 1 := get_put_same _ _ _ (by decide)

theorem frame_blowDebugKill (d : Dev) : Frame d d.blowDebugKill [R.SEC_STATUS] :=
  Frame.trans (e := d.onSec _) ⟨fun _ _ => rfl, fun _ => rfl⟩ ((frame_put _ _ _ _ (by decide)).trans (frame_put _ _ _ _ (by decide)))

theorem get_debug_blowDebugKill (d : Dev) : d.blowDebugKill.get F.SEC_STATUS_DEBUG_KILL = 1 :=
  (get_put_apart _ F.SEC_STATUS_UNLOCKED F.SEC_STATUS_DEBUG_KILL _ (by decide) rfl (by decide)).trans (get_put_same _ _ _ (by decide))

theorem get_unlocked_blowDebugKill (d : Dev) : d.blowDebugKill.get F.SEC_STATUS_UNLOCKED = 0 := get_put_same _ _ _ (by decide)

/-! ### The targets -/

/-- Targets 0 to 3: a key hash into an empty slot. -/
def blowKeyhash (n : Nat) (d : Dev) (t : Nat) : Nat × Dev :=
  if nth d.sec.fuses.keyHash t 0 ≠ 0 then (sConflict, d)
  else
    let h := beNat (d.ldBs ((d.mbxBuf (d.arg n 1) 48).getD 0) 48)
    (sOk, d.onFuses fun x => { x with keyHash := upd x.keyHash t fun _ => h })

theorem exec_fuseProgKeyhash (s : State) (n : Fin 4) : exec (.fuseProgKeyhash n) s =
    s.upd fun d => d.fuseServe n (fun t => t < 4 || 11 < t) (blowKeyhash n) := rfl

theorem fuseProgKeyhash_ends (s : State) (n : Fin 4) : Ends (.fuseProgKeyhash n) s fun e =>
    let d := s.dev
    let t := d.arg n 0
    Asks d n { op := 0x60, len := 3, group := 6, states := .ready } → t < 4 ∨ 11 < t →
      if 11 < t ∨ d.arg n 2 ≠ 0x0F05E0B1 then Declined d e n sBadValue
      else match d.mbxBuf (d.arg n 1) 48 with
        | none => Declined d e n sDenied
        | some a =>
          if d.cfg.upd.isSome then Declined d e n sBusy
          else if nth d.sec.fuses.keyHash t 0 ≠ 0 then Declined d e n sConflict
          else
            Answered d e n sOk [] ∧ Frame d e (mbxRegs n) ∧ e = { d with regs := e.regs, sys := e.sys, out := e.out, sec := e.sec } ∧
            e.sec = { d.sec with fuses := { d.sec.fuses with keyHash := upd d.sec.fuses.keyHash t fun _ => beNat (d.ldBs a 48) } } := by
  refine ends_of_upd (exec_fuseProgKeyhash s n) ?_
  generalize s.dev = d
  intro d' t h ht
  have hserve : d.fuseServe n (fun t => t < 4 || 11 < t) (blowKeyhash n) = d.mbxServe n fuseRow (answerFuse n (blowKeyhash n)) :=
    fuseServe_eq (by simpa using ht)
  rw [hserve]
  split
  · next hargs => exact mbxServe_refused h n.isLt (answerFuse_badValue hargs)
  · next hargs =>
    have ht4 : t < 4 := ht.resolve_right fun h11 => hargs (.inl h11)
    split
    · next hbuf => exact mbxServe_refused h n.isLt (answerFuse_denied hargs ht4 hbuf)
    · next a hbuf =>
      have htaken : d.fuseBuf n := fun hb => by
        rw [hbuf] at hb
        exact Bool.noConfusion hb.2
      split
      · next hupd => exact mbxServe_refused h n.isLt (answerFuse_busy hargs htaken hupd)
      · next hupd =>
        have hblows := answerFuse_blows (f := blowKeyhash n) hargs htaken hupd
        split
        · next hfull =>
          have hblow : blowKeyhash n (d.mbxTake n) (d.arg n 0) = (sConflict, d.mbxTake n) := if_pos hfull
          rw [hblow] at hblows
          exact mbxServe_refused h n.isLt hblows
        · next hempty =>
          have hblow : blowKeyhash n (d.mbxTake n) (d.arg n 0) =
              (sOk, (d.mbxTake n).onFuses fun x => { x with keyHash := upd x.keyHash t fun _ => beNat (d.ldBs a 48) }) := by
            have hempty' : ¬ nth (d.mbxTake n).sec.fuses.keyHash (d.arg n 0) 0 ≠ 0 := hempty
            have hbuf' : d.mbxBuf (d.arg n 1) 48 = some a := hbuf
            rw [blowKeyhash, if_neg hempty', mbxTake_arg, mbxTake_mbxBuf, hbuf']
            rfl
          rw [hblow] at hblows
          rw [mbxServe_status h hblows]
          exact onFuses_blown d n.isLt _

/-- Key slot `k` is revoked. -/
def Fuses.revokeSlot (k : Nat) (x : Fuses) : Fuses := { x with slotRevoke := upd x.slotRevoke k fun _ => true }

/-- Zelnath key `k` is revoked. -/
def Fuses.revokeZkey (k : Nat) (x : Fuses) : Fuses := { x with zkeyRevoke := upd x.zkeyRevoke k fun _ => true }

/-- Targets 4 to 7: a slot is revoked, but not the running image's. -/
def blowRevoke (d : Dev) (t : Nat) : Nat × Dev :=
  if t - 4 = d.cfg.keySlot then (sBadState, d) else (sOk, d.onFuses (Fuses.revokeSlot (t - 4)))

theorem exec_fuseProgSlotRevoke (s : State) (n : Fin 4) : exec (.fuseProgSlotRevoke n) s =
    s.upd fun d => d.fuseServe n (fun t => 4 ≤ t && t < 8) blowRevoke := rfl

theorem fuseProgSlotRevoke_ends (s : State) (n : Fin 4) : Ends (.fuseProgSlotRevoke n) s fun e =>
    let d := s.dev
    let t := d.arg n 0
    Asks d n { op := 0x60, len := 3, group := 6, states := .ready } → 4 ≤ t → t < 8 →
      if d.arg n 2 ≠ 0x0F05E0B1 then Declined d e n sBadValue
      else if d.cfg.upd.isSome then Declined d e n sBusy
      else if t = 4 + d.cfg.keySlot then Declined d e n sBadState
      else
        Answered d e n sOk [] ∧ Frame d e (mbxRegs n) ∧ e = { d with regs := e.regs, sys := e.sys, out := e.out, sec := e.sec } ∧
        e.sec = { d.sec with fuses := { d.sec.fuses with slotRevoke := upd d.sec.fuses.slotRevoke (t - 4) fun _ => true } } := by
  refine ends_of_upd (exec_fuseProgSlotRevoke s n) ?_
  generalize s.dev = d
  intro d' t h h4 h8
  refine fuseServe_revokes (g := Fuses.revokeSlot (t - 4)) (inUse := t = 4 + d.cfg.keySlot) h n.isLt
    ?_ h4 (by omega) (fun hrun => ?_) (fun hother => ?_)
  · simpa using ⟨h4, h8⟩
  · exact if_pos (show t - 4 = d.cfg.keySlot by omega)
  · exact if_neg (show ¬ t - 4 = d.cfg.keySlot by omega)

/-- DEBUG_KILL has been blown, which ends an unlock (R95). -/
abbrev DebugKillBlown (d e : Dev) (n : Nat) : Prop :=
  Answered d e n sOk [] ∧ Frame d e (R.SEC_STATUS :: mbxRegs n) ∧ e.debugKilled = true ∧ e.get F.SEC_STATUS_DEBUG_KILL = 1 ∧
  e.get F.SEC_STATUS_UNLOCKED = 0 ∧
  e.sec = { d.sec with rights := 0, fuses := { d.sec.fuses with debugKill := [true, true, true] } }

/-- ROOT_KILL has been blown. -/
abbrev RootKillBlown (d e : Dev) (n : Nat) : Prop :=
  Answered d e n sOk [] ∧ Frame d e (R.SEC_STATUS :: mbxRegs n) ∧ e.get F.SEC_STATUS_ROOT_KILL = 1 ∧
  e.sec = { d.sec with fuses := { d.sec.fuses with rootKill := [true, true, true] } }

theorem fuseProgDebugKill_ends (s : State) (n : Fin 4) : Ends (.fuseProgDebugKill n) s fun e =>
    let d := s.dev
    Asks d n { op := 0x60, len := 3, group := 6, states := .ready } → d.arg n 0 = 8 →
      if d.arg n 2 ≠ 0x0F05E0B1 then Declined d e n sBadValue
      else if d.cfg.upd.isSome then Declined d e n sBusy
      else
        Answered d e n sOk [] ∧ Frame d e (R.SEC_STATUS :: mbxRegs n) ∧ e.debugKilled = true ∧ e.get F.SEC_STATUS_DEBUG_KILL = 1 ∧
        e.get F.SEC_STATUS_UNLOCKED = 0 ∧
        e.sec = { d.sec with rights := 0, fuses := { d.sec.fuses with debugKill := [true, true, true] } } := by
  refine ends_of_upd (exec_fuseProgDebugKill s n) ?_
  generalize s.dev = d
  intro d' h h8
  refine fuseServe_bit (Q := fun e => DebugKillBlown d e n) h n.isLt ?_ (by omega) (by omega) ?_
  · exact beq_iff_eq.mpr h8
  obtain ⟨hans, hframe, hget, hsec⟩ := kill_answered (q := (d.mbxTake n).blowDebugKill) n.isLt
    ((frame_mbxTake d n _).trans (frame_blowDebugKill _)) rfl
  exact ⟨hans, hframe, by rw [Dev.debugKilled, hsec]; rfl, (hget _ rfl).trans (get_debug_blowDebugKill _),
    (hget _ rfl).trans (get_unlocked_blowDebugKill _), hsec⟩

theorem fuseProgRootKill_ends (s : State) (n : Fin 4) : Ends (.fuseProgRootKill n) s fun e =>
    let d := s.dev
    Asks d n { op := 0x60, len := 3, group := 6, states := .ready } → d.arg n 0 = 9 →
      if d.arg n 2 ≠ 0x0F05E0B1 then Declined d e n sBadValue
      else if d.cfg.upd.isSome then Declined d e n sBusy
      else
        Answered d e n sOk [] ∧ Frame d e (R.SEC_STATUS :: mbxRegs n) ∧ e.get F.SEC_STATUS_ROOT_KILL = 1 ∧
        e.sec = { d.sec with fuses := { d.sec.fuses with rootKill := [true, true, true] } } := by
  refine ends_of_upd (exec_fuseProgRootKill s n) ?_
  generalize s.dev = d
  intro d' h h9
  refine fuseServe_bit (Q := fun e => RootKillBlown d e n) h n.isLt ?_ (by omega) (by omega) ?_
  · exact beq_iff_eq.mpr h9
  obtain ⟨hans, hframe, hget, hsec⟩ := kill_answered (q := (d.mbxTake n).blowRootKill) n.isLt
    ((frame_mbxTake d n _).trans (frame_blowRootKill _)) rfl
  exact ⟨hans, hframe, (hget _ rfl).trans (get_root_blowRootKill _), hsec⟩

/-- Targets 10 and 11: a Zelnath key is revoked, but not the running trusted firmware's. -/
def blowZkey (d : Dev) (t : Nat) : Nat × Dev :=
  if t - 10 = d.cfg.zkey then (sBadState, d) else (sOk, d.onFuses (Fuses.revokeZkey (t - 10)))

theorem exec_fuseProgZkeyRevoke (s : State) (n : Fin 4) : exec (.fuseProgZkeyRevoke n) s =
    s.upd fun d => d.fuseServe n (fun t => t == 10 || t == 11) blowZkey := rfl

theorem fuseProgZkeyRevoke_ends (s : State) (n : Fin 4) : Ends (.fuseProgZkeyRevoke n) s fun e =>
    let d := s.dev
    let t := d.arg n 0
    Asks d n { op := 0x60, len := 3, group := 6, states := .ready } → t = 10 ∨ t = 11 →
      if d.arg n 2 ≠ 0x0F05E0B1 then Declined d e n sBadValue
      else if d.cfg.upd.isSome then Declined d e n sBusy
      else if t = 10 + d.cfg.zkey then Declined d e n sBadState
      else
        Answered d e n sOk [] ∧ Frame d e (mbxRegs n) ∧ e = { d with regs := e.regs, sys := e.sys, out := e.out, sec := e.sec } ∧
        e.sec = { d.sec with fuses := { d.sec.fuses with zkeyRevoke := upd d.sec.fuses.zkeyRevoke (t - 10) fun _ => true } } := by
  refine ends_of_upd (exec_fuseProgZkeyRevoke s n) ?_
  generalize s.dev = d
  intro d' t h ht
  refine fuseServe_revokes (g := Fuses.revokeZkey (t - 10)) (inUse := t = 10 + d.cfg.zkey) h n.isLt
    ?_ (by omega) (by omega) (fun hrun => ?_) (fun hother => ?_)
  · simpa using ht
  · exact if_pos (show t - 10 = d.cfg.zkey by omega)
  · exact if_neg (show ¬ t - 10 = d.cfg.zkey by omega)

/-- Settles O24, target by target. -/
theorem fuseProgramming : Obligations.FuseProgramming :=
  ⟨fuseProgKeyhash_ends, fuseProgSlotRevoke_ends, fuseProgDebugKill_ends, fuseProgRootKill_ends, fuseProgZkeyRevoke_ends⟩

end Sys2Proof.Machine
end

section
/-! Units of the NET island (R14): what they may change when they follow an erase. -/

namespace Sys2Proof.Machine

/-- The step from `d` to `e` is one of ITK, PGF and PTP: beside their own state it changes no register of an SAF block (those below
block 7), and reports only join those that wait. -/
structure NetOnly (d e : Dev) : Prop where
  rest : e = { d with regs := e.regs, reps := e.reps, freeCtr := e.freeCtr, itk := e.itk, pgf := e.pgf, ptp := e.ptp }
  regs : ∀ a, a < blockBase 7 → e.rd a = d.rd a
  reps : d.reps <+: e.reps

namespace NetOnly

variable {d e : Dev}

theorem refl (d : Dev) : NetOnly d d := ⟨rfl, fun _ _ => rfl, List.prefix_rfl⟩

theorem trans {f : Dev} (h : NetOnly d e) (k : NetOnly e f) : NetOnly d f :=
  ⟨by rw [k.rest, h.rest], fun a ha => (k.regs a ha).trans (h.regs a ha), h.reps.trans k.reps⟩

theorem wrN (k : NetOnly d e) {a : Nat} (h : blockBase 7 ≤ a) (v : Nat) : NetOnly d (e.wrN a v) :=
  k.trans ⟨rfl, fun _ hb => rd_wrN_ne _ _ _ _ (by omega), List.prefix_rfl⟩

theorem put (k : NetOnly d e) {f : Fld} (h : blockBase 7 ≤ f.addr) (v : Nat) : NetOnly d (e.put f v) :=
  k.trans ⟨rfl, fun _ hb => rd_put_ne _ _ _ _ (by omega), List.prefix_rfl⟩

theorem put64 (k : NetOnly d e) {lo hi : Nat} (hlo : blockBase 7 ≤ lo) (hhi : blockBase 7 ≤ hi) (v : Nat) : NetOnly d (e.put64 lo hi v) :=
  (k.wrN hlo _).wrN hhi _

theorem report (k : NetOnly d e) (n : Nat) (x : Option Nat) : NetOnly d (e.report n x) := by
  obtain ⟨v, hv⟩ := report_reps e n x
  refine k.trans ⟨?_, fun a _ => report_rd e n x a, hv ▸ List.prefix_append _ _⟩
  cases x <;> rfl

theorem when (k : NetOnly d e) {b : Bool} {f : Dev → Dev} (h : ∀ d, NetOnly d (f d)) : NetOnly d (e.when b f) := by
  cases b
  · exact k
  · exact k.trans (h e)

theorem each {α : Type} (k : NetOnly d e) {l : List α} {f : Dev → α → Dev} (h : ∀ d x, NetOnly d (f d x)) : NetOnly d (e.each l f) := by
  induction l generalizing e with
  | nil => exact k
  | cons x l ih => exact ih (k.trans (h e x))

theorem onItk (k : NetOnly d e) (f : ItkSt → ItkSt) : NetOnly d (e.onItk f) := k.trans ⟨rfl, fun _ _ => rfl, List.prefix_rfl⟩

theorem onPgf (k : NetOnly d e) (f : PgfSt → PgfSt) : NetOnly d (e.onPgf f) := k.trans ⟨rfl, fun _ _ => rfl, List.prefix_rfl⟩

theorem onPtp (k : NetOnly d e) (f : PtpSt → PtpSt) : NetOnly d (e.onPtp f) := k.trans ⟨rfl, fun _ _ => rfl, List.prefix_rfl⟩

/-! ### The fabric (R404 to R411) -/

theorem onFport (k : NetOnly d e) (p : Nat) (f : PgfPort → PgfPort) : NetOnly d (e.onFport p f) := k.onPgf _

theorem fabQueue (k : NetOnly d e) (p : Nat) (x : FabPkt) : NetOnly d (e.fabQueue p x) := k.when fun d => (refl d).onFport _ _

theorem fabBroadcast (k : NetOnly d e) (ptype : Nat) (payload : List Byte) : NetOnly d (e.fabBroadcast ptype payload) :=
  k.each fun d _ => (refl d).fabQueue _ _

theorem fabSendUp (k : NetOnly d e) (ptype : Nat) (payload : List Byte) : NetOnly d (e.fabSendUp ptype payload) := by
  unfold Dev.fabSendUp
  split
  · exact k
  · exact k.fabQueue _ _

theorem sendTopo (k : NetOnly d e) : NetOnly d e.sendTopo := by
  unfold Dev.sendTopo
  extract_lets ps b
  split_ifs
  · exact k
  · exact k.trans ⟨rfl, fun _ _ => rfl, List.prefix_rfl⟩
  · exact k.fabSendUp _ _

theorem syncMembers (k : NetOnly d e) : NetOnly d e.syncMembers := k.wrN (by decide) _

theorem port_addr (p : Nat) : blockBase 7 ≤ R.PGF_PORT_STAT p := by
  have hb : blockBase 7 = 0x08000000 := rfl
  unfold R.PGF_PORT_STAT
  omega

theorem syncTree (k : NetOnly d e) : NetOnly d e.syncTree := k.each fun d p => (refl d).put (f := F.PGF_PORT_STAT_TREE p) (port_addr p) _

theorem takeAddr (k : NetOnly d e) (a : Nat) : NetOnly d (e.takeAddr a) :=
  ((((k.put (f := F.PGF_STAT_ADDR) (by decide) _).put (f := F.PGF_STAT_ADDRVALID) (by decide) _).onPgf _).when fun d =>
    (refl d).put (f := F.PGF_IRQ_STAT_ADDR) (by decide) _).sendTopo

theorem becomeRoot (k : NetOnly d e) : NetOnly d e.becomeRoot :=
  (((((k.onPgf _).onPgf _).syncMembers.fabBroadcast _ _).takeAddr _).put (f := F.PGF_STAT_ROOTADDR) (by decide) _).fabBroadcast _ _

theorem setFstate (k : NetOnly d e) (p n : Nat) : NetOnly d (e.setFstate p n) := by
  unfold Dev.setFstate
  split
  · exact k
  · exact (k.put (f := F.PGF_PORT_STAT_STATE p) (port_addr p) _).put (f := F.PGF_IRQ_STAT_PORT) (by decide) _

/-! ### Time (R433 to R435) -/

theorem enterTime (k : NetOnly d e) (n : Nat) : NetOnly d (e.enterTime n) := by
  have h1 := (k.put (f := F.PTP_STATE_STATE) (by decide) n).put (f := F.PTP_IRQ_STAT_STATE) (by decide) 1
  unfold Dev.enterTime
  extract_lets d1 c d2
  split_ifs
  · exact k
  · exact ((h1.onPtp _).when fun d => ((refl d).onPtp _).wrN (by decide) _).report _ _
  · exact h1.report _ _
  · exact h1.onPtp _
  · exact h1

theorem setSource (k : NetOnly d e) (src : Option (Nat × Nat × Nat)) : NetOnly d (e.setSource src) := by
  unfold Dev.setSource
  split
  · exact k
  · extract_lets x d0 d1 d2 d3
    have h0 : NetOnly d d0 := k.when fun d => (refl d).enterTime _
    have h2 : NetOnly d d2 :=
      (((h0.onPtp _).put (f := F.PTP_STATE_SRC) (by decide) _).put (f := F.PTP_STATE_PORT) (by decide) _).put64 (by decide) (by decide) _
    exact (h2.put (f := F.PTP_IRQ_STAT_PARENT) (by decide) _).when fun d => (refl d).enterTime _

theorem syncUtc (k : NetOnly d e) : NetOnly d e.syncUtc := by
  have hutc : ∀ v, NetOnly d (e.wrN R.PTP_UTC v) := k.wrN (by decide)
  unfold Dev.syncUtc
  extract_lets a
  clear_value a
  cases a with
  | none => exact hutc _
  | some f =>
    dsimp only
    split
    · exact hutc _
    · exact hutc _

theorem fabricLost (k : NetOnly d e) : NetOnly d e.fabricLost := k.when fun d => (((refl d).onPtp _).setSource _).syncUtc

/-! ### Ports that leave UP, the key that is lost, and sessions that end (R92, R102, R404, R406) -/

theorem chooseRoot (k : NetOnly d e) : NetOnly d e.chooseRoot := by
  unfold Dev.chooseRoot
  split
  · exact k
  · extract_lets advs best par dist parent was changed moved d1 root d2 d3 d4 d5 d6 d7 d8 d9
    have huid : ∀ n, blockBase 7 ≤ R.PGF_ROOTUID n := fun n => by
      have hb : blockBase 7 = 0x08000000 := rfl
      unfold R.PGF_ROOTUID
      omega
    split
    · exact k.syncTree
    · have h2 : NetOnly d d2 := ((k.onPgf _).put (f := F.PGF_STAT_ROOT) (by decide) _).put (f := F.PGF_STAT_DIST) (by decide) _
      have h3 : NetOnly d d3 := h2.each fun d n => (refl d).wrN (huid n) _
      have h4 : NetOnly d d4 := h3.when fun d => ((refl d).put (f := F.PGF_IRQ_STAT_ROOT) (by decide) _).report _ _
      have h5 : NetOnly d d5 := h4.when fun d => (refl d).fabricLost
      have h7 : NetOnly d d7 := (h5.onPgf _).syncTree.each fun d _ => (refl d).onFport _ _
      have h8 : NetOnly d d8 := h7.when fun d => (refl d).becomeRoot
      exact (h8.when fun d => (refl d).onPgf _).syncMembers

theorem fleave (k : NetOnly d e) (p st : Nat) : NetOnly d (e.fleave p st) := by
  have hdrop : blockBase 7 ≤ R.PGF_PORT_DROP p := by
    have hb : blockBase 7 = 0x08000000 := rfl
    unfold R.PGF_PORT_DROP
    omega
  have hdiscard : NetOnly d (e.fdiscard p) := (k.put (f := F.PGF_PORT_DROP_COUNT p) hdrop _).onFport _ _
  exact ((hdiscard.setFstate p st).put (f := F.PGF_PORT_STAT_TREE p) (port_addr p) 0).when fun d =>
    (((refl d).report _ _).chooseRoot).sendTopo

theorem pgfKeyLost (k : NetOnly d e) : NetOnly d e.pgfKeyLost := by
  unfold Dev.pgfKeyLost
  split
  · exact k
  · extract_lets ps d1
    have h1 : NetOnly d d1 := k.each fun d p => (refl d).fleave _ _
    exact h1.when fun d => ((refl d).put (f := F.PGF_IRQ_STAT_AUTH) (by decide) _).report _ _

theorem endSession (k : NetOnly d e) (n : Nat) : NetOnly d (e.endSession n) := by
  have hb : blockBase 7 = 0x08000000 := rfl
  have hstat : blockBase 7 ≤ R.ITK_SESS_STAT n := by unfold R.ITK_SESS_STAT; omega
  have hsid : blockBase 7 ≤ R.ITK_SESS_SID n := by unfold R.ITK_SESS_SID; omega
  exact (((((k.onItk _).onItk _).put (f := F.ITK_SESS_STAT_STATE n) hstat _).put (f := F.ITK_SESS_STAT_UNACKED n) hstat _).put
    (f := F.ITK_SESS_SID_SID n) hsid _).put (f := F.ITK_IRQ_STAT_SESSION) (by decide) _

end NetOnly

end Sys2Proof.Machine
end

section
/-! The alarms (R89 to R91) and the MAC unit (R84). -/

namespace Sys2Proof.Machine

/-! ### What an erase leaves of SEC's registers (R90 to R92) -/

theorem stBs_reps (l : List Byte) (d : Dev) (a : Nat) : (d.stBs a l).reps = d.reps := by
  induction l generalizing d a with
  | nil => rfl
  | cons b l ih => rw [Dev.stBs, ih, stB_reps]

theorem mwr_reps (d : Dev) (a v : Nat) : (d.mwr a v).1.reps = d.reps := by
  unfold Dev.mwr
  split_ifs
  · rfl
  · exact stBs_reps _ _ _
  · exact stBs_reps _ _ _

/-- The slots of a level are cleared, and what needs one of them is closed; the marker is still to be written. -/
def Dev.keysErased (d : Dev) (level : Nat) : Dev :=
  let gone (k : Key) : Bool := level == 2 || k.use % 2 == 1
  let lost := (d.sec.keys.filter gone).map (·.slot)
  let d1 := (d.onSec fun t => { t with keys := t.keys.filter fun k => !(gone k) }).syncKeys
  let d2 := d1.each (List.range 8) fun d n =>
    d.when (d.sessState n == 1 && (level == 2 || lost.contains (d.get (F.ITK_SESS_CFG_KEYSLOT n)))) fun d => d.endSession n
  d2.when (level == 2 || lost.contains (d2.get F.PGF_CFG_KEYSLOT)) Dev.pgfKeyLost

section
variable (d : Dev) (level : Nat)

theorem erase_eq : d.erase level = ((d.keysErased level).writeMarker level).put F.SEC_IRQ_STAT_ERASED 1 := rfl

theorem keysErased_net : ∃ f, NetOnly (d.onSec f).syncKeys (d.keysErased level) := by
  unfold Dev.keysErased
  extract_lets gone lost d1 d2
  have h2 : NetOnly d1 d2 := (NetOnly.refl d1).each fun d n => (NetOnly.refl d).when fun d => (NetOnly.refl d).endSession n
  exact ⟨_, h2.when fun d => (NetOnly.refl d).pgfKeyLost⟩

/-- The registers of SEC and JNL that an erase writes. -/
abbrev eraseRegs : List Nat := [R.SEC_STATUS, R.SEC_IRQ_STAT, R.JNL_IRQ_STAT]

theorem rd_keysErased {a : Nat} (ha : a < blockBase 7) (hs : a ≠ R.SEC_STATUS) : (d.keysErased level).rd a = d.rd a := by
  obtain ⟨f, hnet⟩ := keysErased_net d level
  exact (hnet.regs a ha).trans (rd_put_ne _ _ _ _ hs)

theorem rd_writeMarker {a : Nat} (hs : a ≠ R.SEC_STATUS) (hj : a ≠ R.JNL_IRQ_STAT) : (d.writeMarker level).rd a = d.rd a :=
  (rd_put_ne _ _ _ _ hs).trans ((mwr_rd _ _ _ hj).trans (mwr_rd _ _ _ hj))

theorem rd_erase {a : Nat} (ha : a < blockBase 7) (hn : a ∉ eraseRegs) : (d.erase level).rd a = d.rd a := by
  simp only [List.mem_cons, List.not_mem_nil, or_false, not_or] at hn
  obtain ⟨hs, hi, hj⟩ := hn
  rw [erase_eq, rd_put_ne _ _ _ _ hi, rd_writeMarker _ _ hs hj, rd_keysErased _ _ ha hs]

theorem get_erase {f : Fld} (ha : f.addr < blockBase 7) (hn : f.addr ∉ eraseRegs) : (d.erase level).get f = d.get f := by
  unfold Dev.get
  rw [rd_erase d level ha hn]

/-- The other lines of SEC stand through an erase. -/
theorem get_erase_line {f : Fld} (ha : f.addr = R.SEC_IRQ_STAT) (hf : f.lo + f.width ≤ 1 ∨ 2 ≤ f.lo) : (d.erase level).get f = d.get f := by
  have hput := get_put_apart ((d.keysErased level).writeMarker level) F.SEC_IRQ_STAT_ERASED f 1 (by decide) ha hf
  rw [erase_eq, hput]
  unfold Dev.get
  rw [ha, rd_writeMarker _ _ (by decide) (by decide), rd_keysErased _ _ (by decide) (by decide)]

theorem get_erased_status : (d.erase level).get F.SEC_STATUS_ERASED = 1 :=
  (get_put_ne _ _ _ _ (by decide)).trans (get_put_same _ _ _ (by decide))

theorem erase_reps : d.reps <+: (d.erase level).reps := by
  obtain ⟨f, hnet⟩ := keysErased_net d level
  have hmarker : (d.erase level).reps = (d.keysErased level).reps := by
    rw [erase_eq, put_reps, Dev.writeMarker, put_reps, mwr_reps, mwr_reps]
  rw [hmarker]
  exact hnet.reps

end

/-! ### An alarm that fires (R89, R90) -/

/-- The alarm shows and is reported; its erase and its ROOT_KILL are still to follow. -/
def Dev.alarmShown (d : Dev) (n : Nat) : Dev := ((d.setBit F.SEC_ALARM_STAT_SRC n).put F.SEC_IRQ_STAT_ALARM 1).report (16 + n)

/-- The alarm's erase has followed. -/
def Dev.alarmErased (d : Dev) (n : Nat) : Dev :=
  (d.alarmShown n).when (d.get (F.SEC_ALARM_CFG_ERASE n) != 0) fun e => e.erase (d.get (F.SEC_ALARM_CFG_ERASE n))

section
variable (d : Dev) (n : Nat)

theorem alarmShown_get {f : Fld} (hs : f.addr ≠ R.SEC_ALARM_STAT) (hi : f.addr ≠ R.SEC_IRQ_STAT) : (d.alarmShown n).get f = d.get f :=
  (report_get _ _ _ _).trans ((get_put_ne _ _ _ _ hi).trans (get_put_ne _ _ _ _ hs))

/-- The configuration registers of the alarms lie apart from those that an alarm writes. -/
theorem alarmCfg_apart {n : Nat} (hn : n < 8) : R.SEC_ALARM_CFG n < blockBase 7 ∧ R.SEC_ALARM_CFG n ≠ R.SEC_ALARM_STAT ∧
    R.SEC_ALARM_CFG n ≠ R.SEC_IRQ_STAT ∧ R.SEC_ALARM_CFG n ∉ eraseRegs := by
  have hb : blockBase 7 = 0x08000000 := rfl
  simp only [eraseRegs, List.mem_cons, List.not_mem_nil, or_false, not_or]
  unfold R.SEC_ALARM_CFG R.SEC_ALARM_STAT R.SEC_STATUS R.SEC_IRQ_STAT R.JNL_IRQ_STAT
  omega

theorem alarmShown_line : (d.alarmShown n).get F.SEC_IRQ_STAT_ALARM = 1 := (report_get _ _ _ _).trans (get_put_same _ _ _ (by decide))

theorem alarmShown_bit (hn : n < 8) : (d.alarmShown n).bit F.SEC_ALARM_STAT_SRC n = true := by
  have hget : (d.alarmShown n).get F.SEC_ALARM_STAT_SRC = (d.setBit F.SEC_ALARM_STAT_SRC n).get F.SEC_ALARM_STAT_SRC :=
    (report_get _ _ _ _).trans (get_put_ne _ _ _ _ (by decide))
  rw [Dev.bit, hget]
  exact bit_setBit_same d F.SEC_ALARM_STAT_SRC n (by decide) hn

theorem alarmShown_sec : (d.alarmShown n).sec = d.sec := report_sec _ _ _

theorem alarmShown_mem : (d.alarmShown n).mem = d.mem := report_mem _ _ _

theorem alarmShown_srcs : Reports d (d.alarmShown n) [16 + n] := report_srcs _ _ _

/-- An alarm without an erase level erases nothing. -/
theorem alarmErased_cases : d.get (F.SEC_ALARM_CFG_ERASE n) = 0 ∧ d.alarmErased n = d.alarmShown n ∨
    d.get (F.SEC_ALARM_CFG_ERASE n) ≠ 0 ∧ d.alarmErased n = (d.alarmShown n).erase (d.get (F.SEC_ALARM_CFG_ERASE n)) := by
  unfold Dev.alarmErased
  by_cases h : d.get (F.SEC_ALARM_CFG_ERASE n) = 0
  · exact .inl ⟨h, by rw [h]; rfl⟩
  · exact .inr ⟨h, by rw [bne_iff_ne.mpr h]; rfl⟩

/-- The registers of SEC other than the status and the lines stand through the erase of an alarm. -/
theorem alarmErased_get {f : Fld} (ha : f.addr < blockBase 7) (hn : f.addr ∉ eraseRegs) : (d.alarmErased n).get f = (d.alarmShown n).get f := by
  rcases alarmErased_cases d n with ⟨-, he⟩ | ⟨-, he⟩
  · rw [he]
  · rw [he, get_erase _ _ ha hn]

theorem alarmErased_rootkill (hn : n < 8) : (d.alarmErased n).get (F.SEC_ALARM_CFG_ROOTKILL n) = d.get (F.SEC_ALARM_CFG_ROOTKILL n) := by
  obtain ⟨ha, hs, hi, he⟩ := alarmCfg_apart hn
  exact (alarmErased_get d n ha he).trans (alarmShown_get d n hs hi)

theorem alarmErased_bit (hn : n < 8) : (d.alarmErased n).bit F.SEC_ALARM_STAT_SRC n = true := by
  rw [Dev.bit, alarmErased_get d n (by decide) (by decide)]
  exact alarmShown_bit d n hn

theorem alarmErased_line : (d.alarmErased n).get F.SEC_IRQ_STAT_ALARM = 1 := by
  rcases alarmErased_cases d n with ⟨-, he⟩ | ⟨-, he⟩
  · rw [he, alarmShown_line]
  · rw [he, get_erase_line _ _ rfl (.inl (by decide)), alarmShown_line]

theorem alarmErased_srcs : 16 + n ∈ (d.alarmErased n).reps.map fun r => r.src := by
  have hshown : 16 + n ∈ (d.alarmShown n).reps.map fun r => r.src := by
    rw [alarmShown_srcs d n]
    simp
  have hgrows : (d.alarmShown n).reps <+: (d.alarmErased n).reps := by
    rcases alarmErased_cases d n with ⟨-, he⟩ | ⟨-, he⟩
    · rw [he]
    · rw [he]
      exact erase_reps _ _
  exact (hgrows.map _).subset hshown

/-- The keys that an erase of level `lv` leaves (R90). -/
def keysLeft (lv : Nat) (l : List Key) : List Key := l.filter fun k => lv = 0 || !(lv = 2 || k.use % 2 = 1)

theorem alarmErased_sec : (d.alarmErased n).sec = { d.sec with keys := keysLeft (d.get (F.SEC_ALARM_CFG_ERASE n)) d.sec.keys } := by
  rcases alarmErased_cases d n with ⟨h, he⟩ | ⟨h, he⟩
  · rw [he, alarmShown_sec, h, keysLeft]
    simp
  · rw [he, erase_sec, alarmShown_sec]
    refine congrArg (fun l => { d.sec with keys := l }) (List.filter_congr fun k _ => ?_)
    rw [decide_eq_false h, Bool.false_or]
    rfl

theorem alarm_off (h : d.get (F.SEC_ALARM_CFG_ENABLE n) = 0) : d.alarm n = d := if_pos h

theorem alarm_on (hn : n < 8) (h : d.get (F.SEC_ALARM_CFG_ENABLE n) ≠ 0) :
    d.alarm n = (d.alarmErased n).when (d.get (F.SEC_ALARM_CFG_ROOTKILL n) == 1) Dev.blowRootKill := by
  have hlv : (d.alarmShown n).get (F.SEC_ALARM_CFG_ERASE n) = d.get (F.SEC_ALARM_CFG_ERASE n) := by
    obtain ⟨-, hs, hi, -⟩ := alarmCfg_apart hn
    exact alarmShown_get d n hs hi
  have hkill := alarmErased_rootkill d n hn
  unfold Dev.alarm
  rw [if_neg h]
  rw [Dev.alarmErased, ← hlv] at hkill ⊢
  exact congrArg (fun b => Dev.when _ b Dev.blowRootKill) (congrArg (· == 1) hkill)

/-- What an enabled alarm leaves beside the fuses (R89, R90). -/
abbrev AlarmShows (d e : Dev) (n : Nat) : Prop :=
  let lv := d.get (F.SEC_ALARM_CFG_ERASE n)
  e.bit F.SEC_ALARM_STAT_SRC n = true ∧ e.get F.SEC_IRQ_STAT_ALARM = 1 ∧ 16 + n ∈ e.reps.map (fun r => r.src) ∧
  (lv = 0 → Reports d e [16 + n] ∧ e.mem = d.mem) ∧ (lv ≠ 0 → e.get F.SEC_IRQ_STAT_ERASED = 1 ∧ e.get F.SEC_STATUS_ERASED = 1) ∧
  e.sec.keys = keysLeft lv d.sec.keys

theorem alarmErased_shows (hn : n < 8) : AlarmShows d (d.alarmErased n) n := by
  refine ⟨alarmErased_bit d n hn, alarmErased_line d n, alarmErased_srcs d n, fun h => ?_, fun h => ?_, by rw [alarmErased_sec]⟩
  · obtain ⟨-, he⟩ := (alarmErased_cases d n).resolve_right fun hr => hr.1 h
    rw [he]
    exact ⟨alarmShown_srcs d n, alarmShown_mem d n⟩
  · obtain ⟨-, he⟩ := (alarmErased_cases d n).resolve_left fun hl => h hl.1
    rw [he]
    exact ⟨get_erased _ _, get_erased_status _ _⟩

end

/-- Nothing but bits of SEC_STATUS other than ERASED, and no key, changes from `d` to `e`. -/
structure StatusOnly (d e : Dev) : Prop where
  frame : Frame d e [R.SEC_STATUS]
  erased : e.get F.SEC_STATUS_ERASED = d.get F.SEC_STATUS_ERASED
  keys : e.sec.keys = d.sec.keys
  reps : e.reps = d.reps
  mem : e.mem = d.mem

theorem statusOnly_blowRootKill (d : Dev) : StatusOnly d d.blowRootKill :=
  ⟨frame_blowRootKill d, get_put_apart _ F.SEC_STATUS_ROOT_KILL F.SEC_STATUS_ERASED _ (by decide) rfl (by decide), rfl, rfl, rfl⟩

theorem statusOnly_syncAlarm (d : Dev) : StatusOnly d d.syncAlarm :=
  ⟨frame_put _ _ _ _ (by decide), get_put_apart _ F.SEC_STATUS_ALARM F.SEC_STATUS_ERASED _ (by decide) rfl (by decide), rfl, rfl, rfl⟩

section
variable {d e f : Dev} {n : Nat}

theorem AlarmShows.status (h : AlarmShows d e n) (k : StatusOnly e f) : AlarmShows d f n := by
  obtain ⟨hbit, hline, hsrc, hnone, hsome, hkeys⟩ := h
  refine ⟨?_, (k.frame.get (by decide)).trans hline, by rw [k.reps]; exact hsrc, fun hlv => ?_, fun hlv => ?_, k.keys.trans hkeys⟩
  · rw [Dev.bit, k.frame.get (by decide)]
    exact hbit
  · rw [Reports, k.reps, k.mem]
    exact hnone hlv
  · rw [k.frame.get (by decide), k.erased]
    exact hsome hlv

/-- A change of the other bits of SEC_STATUS touches nothing of an alarm. -/
theorem AlarmFires.status (h : AlarmFires d e n) (k : StatusOnly e f) (hfuses : f.sec.fuses = e.sec.fuses) : AlarmFires d f n := by
  obtain ⟨hoff, hon⟩ := h
  refine ⟨fun hen => ?_, fun hen => ?_⟩
  · rw [k.keys, hfuses, k.reps, k.mem]
    exact hoff hen
  · obtain ⟨hbit, hline, hsrc, hnone, hsome, hkeys, hblown⟩ := hon hen
    obtain ⟨hbit', hline', hsrc', hnone', hsome', hkeys'⟩ := AlarmShows.status ⟨hbit, hline, hsrc, hnone, hsome, hkeys⟩ k
    exact ⟨hbit', hline', hsrc', hnone', hsome', hkeys', hfuses.trans hblown⟩

end

/-- An alarm fires as R89 and R90 say. -/
theorem alarmFires_alarm (d : Dev) {n : Nat} (hn : n < 8) : AlarmFires d (d.alarm n) n := by
  refine ⟨fun h => ?_, fun h => ?_⟩
  · rw [alarm_off d n h]
    exact ⟨rfl, rfl, rfl, rfl⟩
  · have hshows := alarmErased_shows d n hn
    have hfuses : (d.alarmErased n).sec.fuses = d.sec.fuses := by rw [alarmErased_sec]
    rw [alarm_on d n hn (by omega)]
    by_cases hkill : d.get (F.SEC_ALARM_CFG_ROOTKILL n) = 1
    · obtain ⟨hbit, hline, hsrc, hnone, hsome, hkeys⟩ := hshows.status (statusOnly_blowRootKill _)
      rw [beq_iff_eq.mpr hkill, when_true, if_pos hkill, ← hfuses]
      exact ⟨hbit, hline, hsrc, hnone, hsome, hkeys, rfl⟩
    · obtain ⟨hbit, hline, hsrc, hnone, hsome, hkeys⟩ := hshows
      rw [beq_eq_false_iff_ne.mpr hkill, when_false, if_neg hkill]
      exact ⟨hbit, hline, hsrc, hnone, hsome, hkeys, hfuses⟩

/-- An alarm changes keys and fuses alone in the trust unit's own state. -/
theorem alarm_sec_keeps {β : Type} (d : Dev) {n : Nat} (hn : n < 8) (g : SecSt → β)
    (hg : ∀ t ks fs, g { t with keys := ks, fuses := fs } = g t) : g (d.alarm n).sec = g d.sec := by
  by_cases h : d.get (F.SEC_ALARM_CFG_ENABLE n) = 0
  · rw [alarm_off d n h]
  · have herased : g (d.alarmErased n).sec = g d.sec := by
      rw [alarmErased_sec]
      exact hg d.sec _ d.sec.fuses
    rw [alarm_on d n hn h]
    exact (when_keeps _ (fun d => g d.sec) _ Dev.blowRootKill fun d => hg d.sec d.sec.keys _).trans herased

theorem alarm_active (d : Dev) {n : Nat} (hn : n < 8) : (d.alarm n).sec.active = d.sec.active :=
  alarm_sec_keeps d hn SecSt.active fun _ _ _ => rfl

theorem alarm_meshBad (d : Dev) {n : Nat} (hn : n < 8) : (d.alarm n).sec.meshBad = d.sec.meshBad :=
  alarm_sec_keeps d hn SecSt.meshBad fun _ _ _ => rfl

/-- What is no key and no fuse may have changed before the alarm. -/
theorem AlarmFires.of_onSec {d e : Dev} {n : Nat} {f : SecSt → SecSt} (h : AlarmFires (d.onSec f) e n) (hkeys : (f d.sec).keys = d.sec.keys)
    (hfuses : (f d.sec).fuses = d.sec.fuses) : AlarmFires d e n := by
  simp only [AlarmFires, onSec_sec, hkeys, hfuses] at h
  exact h

/-! ### Alarm inputs (R89) -/

theorem syncAlarm_enable (d : Dev) (m : Nat) : d.syncAlarm.get (F.SEC_ALARM_CFG_ENABLE m) = d.get (F.SEC_ALARM_CFG_ENABLE m) :=
  get_put_ne _ _ _ _ (by simp only [F.SEC_ALARM_CFG_ENABLE, F.SEC_STATUS_ALARM, R.SEC_ALARM_CFG, R.SEC_STATUS]; omega)

/-- SEC_STATUS.ALARM shows whether an enabled input is active. -/
theorem get_alarm_syncAlarm (d : Dev) : d.syncAlarm.get F.SEC_STATUS_ALARM = 1 ↔
    ∃ m ∈ d.syncAlarm.sec.active, d.syncAlarm.get (F.SEC_ALARM_CFG_ENABLE m) = 1 := by
  have hget : d.syncAlarm.get F.SEC_STATUS_ALARM = _ := get_put_same _ _ _ (by decide)
  simp only [syncAlarm_enable, hget]
  change _ ↔ ∃ m ∈ d.sec.active, _
  split
  · next h => exact iff_of_true rfl (by simpa using h)
  · next h => exact iff_of_false (by decide) (by simpa using h)

/-- The inputs that are active once `n` is. -/
def withActive (n : Nat) (t : SecSt) : SecSt := { t with active := if t.active.contains n then t.active else n :: t.active }

theorem mem_withActive (n : Nat) (t : SecSt) : n ∈ (withActive n t).active := by
  unfold withActive
  split
  · next h => simpa using h
  · exact List.mem_cons_self

theorem mem_withActive_of_mem (n : Nat) {t : SecSt} {m : Nat} (h : m ∈ t.active) : m ∈ (withActive n t).active := by
  unfold withActive
  split
  · exact h
  · exact List.mem_cons_of_mem n h

theorem alarmOn_fires (d : Dev) {n : Nat} (hn : n < 8) : AlarmFires d (d.alarmOn n) n :=
  ((alarmFires_alarm (d.onSec (withActive n)) hn).status (statusOnly_syncAlarm _) rfl).of_onSec rfl rfl

theorem alarmOn_active (d : Dev) {n : Nat} (hn : n < 8) : (d.alarmOn n).sec.active = (withActive n d.sec).active :=
  alarm_active (d.onSec (withActive n)) hn

theorem alarmOn_meshBad (d : Dev) {n : Nat} (hn : n < 8) : (d.alarmOn n).sec.meshBad = d.sec.meshBad :=
  alarm_meshBad (d.onSec (withActive n)) hn

theorem tamperAlarm_ends (s : State) (n : Fin 2) : Ends (.tamperAlarm n) s fun e =>
    AlarmFires s.dev e n ∧ n.val ∈ e.sec.active ∧ (∀ m ∈ s.dev.sec.active, m ∈ e.sec.active) ∧
    (e.get F.SEC_STATUS_ALARM = 1 ↔ ∃ m ∈ e.sec.active, e.get (F.SEC_ALARM_CFG_ENABLE m) = 1) := by
  have hn : n.val < 8 := by omega
  refine ends_of_upd (f := fun d => d.alarmOn n) rfl ⟨alarmOn_fires _ hn, ?_, fun m hm => ?_, get_alarm_syncAlarm _⟩
  · rw [alarmOn_active _ hn]
    exact mem_withActive _ _
  · rw [alarmOn_active _ hn]
    exact mem_withActive_of_mem _ hm

/-- MESH_IN has been sampled. -/
def Dev.meshSampled (d : Dev) (ok : Bool) : Dev := d.onSec fun t => { t with meshBad := !ok }

/-- What MESH_SAMPLE does: the second mismatch in a row fires SEC_MESH. -/
def Dev.meshTaken (d : Dev) (ok : Bool) : Dev := (d.meshSampled ok).when (!ok && d.sec.meshBad) fun d => d.alarmOn 2

theorem meshTaken_first {d : Dev} {ok : Bool} (h : ok = true ∨ d.sec.meshBad = false) : d.meshTaken ok = d.meshSampled ok := by
  have hfirst : (!ok && d.sec.meshBad) = false := by
    rcases h with h | h
    · simp [h]
    · simp [h]
  rw [Dev.meshTaken, hfirst, when_false]

theorem meshTaken_second {d : Dev} (h : d.sec.meshBad = true) : d.meshTaken false = (d.meshSampled false).alarmOn 2 := by
  rw [Dev.meshTaken, h, Bool.not_false, Bool.and_self, when_true]

theorem meshSample_ends (s : State) (ok : Bool) : Ends (.meshSample ok) s fun e =>
    let d := s.dev
    (ok = true ∨ d.sec.meshBad = false → e = { d with sec := { d.sec with meshBad := !ok } }) ∧
    (ok = false → d.sec.meshBad = true → AlarmFires d e 2 ∧ 2 ∈ e.sec.active ∧ e.sec.meshBad = true) := by
  refine ends_of_upd (f := fun d => d.meshTaken ok) rfl ?_
  generalize s.dev = d
  refine ⟨fun h => ?_, fun hok hbad => ?_⟩
  · exact meshTaken_first h
  · have hn : 2 < 8 := by decide
    have hactive := alarmOn_active (d.meshSampled false) hn
    rw [hok, meshTaken_second hbad]
    exact ⟨(alarmOn_fires (d.meshSampled false) hn).of_onSec rfl rfl, hactive ▸ mem_withActive _ _, alarmOn_meshBad (d.meshSampled false) hn⟩

/-- An alarm that is not an input of a level: it fires, and the active inputs stand. -/
theorem alarm_ends (d : Dev) {n : Nat} (hn : n < 8) :
    AlarmFires d (d.alarm n) n ∧ (d.alarm n).sec.active = d.sec.active ∧ (d.get (F.SEC_ALARM_CFG_ENABLE n) = 0 → d.alarm n = d) :=
  ⟨alarmFires_alarm d hn, alarm_active d hn, alarm_off d n⟩

theorem secTempAlarm_ends (s : State) : Ends .secTempAlarm s fun e => AlarmFires s.dev e 5 ∧ 5 ∈ e.sec.active := by
  have hn : 5 < 8 := by decide
  refine ends_of_upd (f := fun d => d.alarmOn 5) rfl ⟨alarmOn_fires _ hn, ?_⟩
  rw [alarmOn_active _ hn]
  exact mem_withActive _ _

/-- Input `n` is active no longer. -/
def Dev.withoutActive (d : Dev) (n : Nat) : Dev := d.onSec fun t => { t with active := t.active.filter (· != n) }

theorem alarmInputInactive_ends (s : State) (n : Fin 8) : Ends (.alarmInputInactive n) s fun e =>
    let d := s.dev
    Frame d e [R.SEC_STATUS] ∧ e = { d with regs := e.regs, sec := e.sec } ∧
    e.sec = { d.sec with active := d.sec.active.filter fun m => m ≠ n.val } ∧
    (e.get F.SEC_STATUS_ALARM = 1 ↔ ∃ m ∈ e.sec.active, d.get (F.SEC_ALARM_CFG_ENABLE m) = 1) := by
  refine ends_of_upd (f := fun d => (d.withoutActive n).syncAlarm) rfl ?_
  generalize s.dev = d
  have hcfg : ∀ m, (d.withoutActive n).syncAlarm.get (F.SEC_ALARM_CFG_ENABLE m) = d.get (F.SEC_ALARM_CFG_ENABLE m) :=
    syncAlarm_enable (d.withoutActive n)
  have hshows := get_alarm_syncAlarm (d.withoutActive n)
  simp only [hcfg] at hshows
  refine ⟨Frame.trans (e := d.withoutActive n) ⟨fun _ _ => rfl, fun _ => rfl⟩ (statusOnly_syncAlarm _).frame, rfl, ?_, hshows⟩
  exact congrArg (fun l => { d.sec with active := l }) (List.filter_congr fun m _ => (decide_not (p := m = n.val)).symm)

/-! ### The MAC unit (R84) -/

theorem macOperation_ends (s : State) (use : Fin 3) (slot : Fin 256) (msg : List Byte) : Ends (.macOperation use slot msg) s fun e =>
    let d := s.dev
    let a := d.macAnswer use slot msg
    e = { d with out := .mac use a.1 a.2 :: d.out } ∧
    (d.keyAt slot = none → a = (sAbsent, [])) ∧
    (∀ k ∈ d.sec.keys, d.keyAt slot = some k → bitB k.use use = false → a = (sDenied, [])) ∧
    (∀ k ∈ d.sec.keys, d.keyAt slot = some k → bitB k.use use = true →
      a = (sOk, if k.kind = 2 ∨ k.kind = 3 then aesCmac k.key msg else hmacSha256 k.key msg)) := by
  refine ends_of_upd (f := fun d => d.emit (.mac use (d.macAnswer use slot msg).1 (d.macAnswer use slot msg).2)) rfl ?_
  generalize s.dev = d
  refine ⟨rfl, fun h => ?_, fun k _ h huse => ?_, fun k _ h huse => ?_⟩
  · simp only [Dev.macAnswer, h]
  · simp only [Dev.macAnswer, h, huse, Bool.not_false, if_true]
  · simp only [Dev.macAnswer, h, huse, Bool.not_true, Bool.false_eq_true, if_false]
    exact (apply_ite (Prod.mk sOk) _ _ _).symm

/-- Settles O18, input by input. -/
theorem alarmInputs : Obligations.AlarmInputs :=
  ⟨tamperAlarm_ends, meshSample_ends, fun s => ends_of_upd (f := fun d => d.alarm 3) rfl (alarm_ends s.dev (by decide)),
    fun s => ends_of_upd (f := fun d => d.alarm 4) rfl (alarm_ends s.dev (by decide)), secTempAlarm_ends, alarmInputInactive_ends,
    macOperation_ends⟩

end Sys2Proof.Machine
end

section
/-! DBG_REG on a claim register of the interrupt controller. A read of such a register claims (R42), and the claim's answer leaves the
block beside the answer to JTAG, so the trace of what leaves grows by two. -/

namespace Sys2Proof.Machine

/-- The state after reset, unlocked with REG rights. -/
def unlockedForReg : State := { dev := ({} : Dev).onSec fun t => { t with rights := 2 } }

/-- The claim register of context 0. -/
def claimReg0 : Nat := 0x0C200004

theorem unlockedForReg_open : ¬ (unlockedForReg.dev.debugKilled = true ∨ unlockedForReg.dev.sys.off = true) := by decide +kernel

theorem claimReg0_noMemory : (unlockedForReg.dev.jtagReg && (inSram claimReg0 4 || unlockedForReg.dev.inDram claimReg0 4)) = false := by
  decide +kernel

/-- How much has left the block after a step. -/
def outCount : Host.Outcome State Fault Refusal → Nat
  | .next t => t.dev.out.length
  | _ => 0

/-- The model reads the claim register: the claim's answer leaves, and then the answer to JTAG. -/
theorem outCount_claimRead : outCount (exec (.dbgReg false claimReg0 4 0) unlockedForReg) = 2 := by decide +kernel

/-- The device that the statement gives after the read. -/
def claimReadStated : Dev :=
  let d := unlockedForReg.dev
  { (d.busR 7 claimReg0 4).2.2 with out := .reg 7 claimReg0 (d.busR 7 claimReg0 4).1 (d.busR 7 claimReg0 4).2.1 :: d.out }

theorem outCount_claimReadStated :
    outCount (.next { unlockedForReg with dev := (claimReadStated.margins unlockedForReg.dev).settle }) = 1 := by decide +kernel

/-- Refutes O19: the clause on DBG_REG gives the answer to JTAG as all that leaves on a read, but a read of a claim register with REG
rights also sends the claim's answer. -/
theorem not_jtagInstructions : ¬ Obligations.JtagInstructions := by
  rintro ⟨-, -, -, -, -, -, -, -, hdbg, -⟩
  obtain ⟨e, hexec, he⟩ := hdbg unlockedForReg false claimReg0 4 0
  have hclauses := (if_neg unlockedForReg_open).mp he
  obtain ⟨-, -, -, hread⟩ := hclauses
  have hstated : e = claimReadStated := hread claimReg0_noMemory rfl
  have hcount := congrArg outCount hexec
  rw [outCount_claimRead, hstated, outCount_claimReadStated] at hcount
  exact absurd hcount (by decide)

end Sys2Proof.Machine
end

section
/-! What leaves on a session (R98, R103, R104): the bytes of a message and its body, what a message changes, and what a session that has
room answers at once. -/

namespace Sys2Proof.Machine

/-! ### Session slots -/

section
variable (d : Dev) (n k : Nat) (f : Sess → Sess)

theorem sess_updSess_ne {n k : Nat} (h : k ≠ n) : (d.updSess n f).sess k = d.sess k := by
  simp [Dev.sess, Dev.updSess, upd, nth, Ne.symm h]

theorem sess_updSess_same {n : Nat} (h : n < d.itk.sess.length) : (d.updSess n f).sess n = f (d.sess n) := by
  simp [Dev.sess, Dev.updSess, upd, nth, h]

theorem sess_updSess_past {n : Nat} (h : d.itk.sess.length ≤ n) : (d.updSess n f).sess n = {} := by
  simp [Dev.sess, Dev.updSess, upd, nth, h]

theorem sess_past {n : Nat} (h : d.itk.sess.length ≤ n) : d.sess n = {} := by simp [Dev.sess, nth, h]

end

theorem sess_of_itk {d e : Dev} (h : e.itk = d.itk) (n : Nat) : e.sess n = d.sess n := by rw [Dev.sess, h, Dev.sess]

/-- What the changed slot and the empty one satisfy, the slot satisfies after the change, in range or not. -/
theorem sess_updSess_of {d : Dev} {n : Nat} {f : Sess → Sess} (p : Sess → Prop) (hf : p (f (d.sess n))) (h0 : p {}) :
    p ((d.updSess n f).sess n) := by
  rcases Nat.lt_or_ge n d.itk.sess.length with h | h
  · rwa [sess_updSess_same d f h]
  · rwa [sess_updSess_past d f h]

/-- What the change leaves of a slot as it was, it leaves of the slot at `n`, in range or not. -/
theorem sess_updSess_keeps {β : Type} (g : Sess → β) (d : Dev) (n : Nat) {f : Sess → Sess} (hf : ∀ s, g (f s) = g s) :
    g ((d.updSess n f).sess n) = g (d.sess n) := by
  rcases Nat.lt_or_ge n d.itk.sess.length with h | h
  · rw [sess_updSess_same d f h, hf]
  · rw [sess_updSess_past d f h, sess_past d h]

@[simp] theorem updSess_out (d : Dev) (n : Nat) (f : Sess → Sess) : (d.updSess n f).out = d.out := rfl

@[simp] theorem updSess_slots (d : Dev) (n : Nat) (f : Sess → Sess) : (d.updSess n f).itk.sess.length = d.itk.sess.length :=
  List.length_modify ..

@[simp] theorem updSess_get (d : Dev) (n : Nat) (f : Sess → Sess) (g : Fld) : (d.updSess n f).get g = d.get g := rfl

@[simp] theorem updSess_sessState (d : Dev) (n k : Nat) (f : Sess → Sess) : (d.updSess n f).sessState k = d.sessState k := rfl

/-! ### The bytes of a message (R98, R99) -/

theorem length_leBytes (n x : Nat) : (leBytes n x).length = n := by
  induction n generalizing x with
  | zero => rfl
  | succ n ih => simp [leBytes, ih]

theorem length_hmacSha256 (key m : List Byte) : (hmacSha256 key m).length = 32 := by
  simp [hmacSha256, sha256, beBytes, length_leBytes]

/-- The header of a message takes 32 bytes. -/
theorem vjpBytes_eq (flags slot sid seq ack sack type : Nat) (body : List Byte) :
    ∃ h : List Byte, h.length = 32 ∧ vjpBytes flags slot sid seq ack sack type body = h ++ body :=
  ⟨_, by simp [length_leBytes], rfl⟩

/-- The body of a message on the wire stands between 32 bytes of header and 16 bytes of tag. -/
theorem body_vjpTagged (key : List Byte) (flags slot sid seq ack sack type : Nat) (body : List Byte) :
    let m := vjpTagged key (vjpBytes flags slot sid seq ack sack type body)
    (m.drop 32).take (m.length - 48) = body := by
  obtain ⟨h, hlen, hm⟩ := vjpBytes_eq flags slot sid seq ack sack type body
  simp only [vjpTagged, hm, List.append_assoc, List.length_append, List.length_take, length_hmacSha256, hlen]
  rw [List.drop_left' hlen, List.take_left' (by omega)]

/-! ### What has been sent -/

/-- A message of a session with this type and body has left after all that left before. -/
def Sent (d e : Dev) (n type : Nat) (body : List Byte) : Prop :=
  ∃ seq m, (m.drop 32).take (m.length - 48) = body ∧ .vjp n type seq m :: d.out <:+ e.out

theorem Sent.later {d e f : Dev} {n type : Nat} {body : List Byte} (h : Sent d e n type body) (k : e.out <:+ f.out) :
    Sent d f n type body := by
  obtain ⟨seq, m, hm, hs⟩ := h
  exact ⟨seq, m, hm, hs.trans k⟩

theorem Sent.mem_sentVjp {c d e : Dev} {n type : Nat} {body : List Byte} (h : Sent d e n type body) (k : c.out <:+ d.out) :
    (n, type, body) ∈ sentVjp c e := by
  obtain ⟨seq, m, hm, before, hbefore⟩ := h
  obtain ⟨mid, hmid⟩ := k
  have hout : e.out = (before ++ .vjp n type seq m :: mid) ++ c.out := by rw [← hbefore, ← hmid]; simp
  refine List.mem_filterMap.mpr ⟨.vjp n type seq m, ?_, by rw [← hm]⟩
  rw [hout, List.length_append, Nat.add_sub_cancel, List.take_left]
  simp

/-! ### Steps within a session -/

/-- The step from `d` to `e` is one of session `n` alone, and what leaves only joins what has left. -/
structure InSession (n : Nat) (d e : Dev) : Prop where
  only : SessionOnly d e n
  out : d.out <:+ e.out

namespace InSession

variable {n : Nat} {d e f : Dev}

theorem refl (n : Nat) (d : Dev) : InSession n d d := ⟨⟨.refl _ _, rfl, fun _ _ => rfl⟩, List.suffix_rfl⟩

theorem trans (h : InSession n d e) (k : InSession n e f) : InSession n d f := by
  obtain ⟨⟨hframe, heq, hsess⟩, hout⟩ := h
  obtain ⟨⟨kframe, keq, ksess⟩, kout⟩ := k
  exact ⟨⟨hframe.trans kframe, by rw [keq, heq], fun j hj => (ksess j hj).trans (hsess j hj)⟩, hout.trans kout⟩

theorem updSess (h : InSession n d e) (g : Sess → Sess) : InSession n d (e.updSess n g) :=
  h.trans ⟨⟨⟨fun _ _ => rfl, fun _ => rfl⟩, rfl, fun _ hk => sess_updSess_ne e g hk⟩, List.suffix_rfl⟩

theorem put (h : InSession n d e) {g : Fld} (hg : g.addr = R.ITK_SESS_STAT n) (v : Nat) : InSession n d (e.put g v) :=
  h.trans ⟨⟨frame_put _ _ _ _ (by simp [hg]), rfl, fun _ _ => rfl⟩, List.suffix_rfl⟩

theorem emit (h : InSession n d e) (o : Out) : InSession n d (e.emit o) :=
  h.trans ⟨⟨frame_emit _ _ _, rfl, fun _ _ => rfl⟩, List.suffix_cons _ _⟩

theorem when (h : InSession n d e) {b : Bool} {g : Dev → Dev} (hg : InSession n e (g e)) : InSession n d (e.when b g) := by
  cases b
  · exact h
  · exact h.trans hg

theorem get (h : InSession n d e) {g : Fld} (hg : g.addr ≠ R.ITK_SESS_STAT n) : e.get g = d.get g :=
  h.only.1.get (by simpa using hg)

theorem ldB (h : InSession n d e) (a : Nat) : e.ldB a = d.ldB a := h.only.1.mem a

theorem itk (h : InSession n d e) : e.itk = { d.itk with sess := e.itk.sess } := by
  obtain ⟨-, heq, -⟩ := h.only
  rw [heq]

end InSession

/-! ### Messages that leave (R103, R104) -/

/-- A message that goes over Ethernet. -/
theorem wire_ethernet {d : Dev} {n : Nat} (h : (d.sess n).via = 0xFFFF) (type seq flags : Nat) (body : List Byte) :
    ∃ m, (m.drop 32).take (m.length - 48) = body ∧ d.wire n type seq flags body = d.emit (.vjp n type seq m) :=
  ⟨_, body_vjpTagged .., if_pos h⟩

/-- What a slot keeps while it only sends: its key, what it has received, and the way its messages leave. -/
structure Sess.SameLink (s t : Sess) : Prop where
  key : t.key = s.key
  ack : t.ack = s.ack
  held : t.held = s.held
  via : t.via = s.via

theorem sameLink_updSess (d : Dev) (n : Nat) {f : Sess → Sess} (hf : ∀ s : Sess, s.SameLink (f s)) :
    (d.sess n).SameLink ((d.updSess n f).sess n) :=
  ⟨sess_updSess_keeps Sess.key d n fun s => (hf s).key, sess_updSess_keeps Sess.ack d n fun s => (hf s).ack,
    sess_updSess_keeps Sess.held d n fun s => (hf s).held, sess_updSess_keeps Sess.via d n fun s => (hf s).via⟩

/-- The number of messages unacknowledged shows beside the state, which stands. -/
theorem sessState_put_unacked (d : Dev) (n v : Nat) : (d.put (F.ITK_SESS_STAT_UNACKED n) v).sessState n = d.sessState n :=
  get_put_apart d _ _ v (by simp [F.ITK_SESS_STAT_UNACKED]) rfl (.inl (by simp [F.ITK_SESS_STAT_UNACKED, F.ITK_SESS_STAT_STATE]))

/-- What a sequenced message does: nothing on a session that is not open; it leaves where there is room and none waits; else it waits. -/
theorem sendSeq_cases (d : Dev) (n type : Nat) (body : List Byte) :
    (d.sessState n ≠ 1 ∧ d.sendSeq n type body = d) ∨
    ((d.sess n).unacked.length < 256 ∧ (d.sess n).waiting = [] ∧ ∃ f v seq, (∀ s : Sess, s.SameLink (f s)) ∧
      d.sendSeq n type body = ((d.updSess n f).put (F.ITK_SESS_STAT_UNACKED n) v).wire n type seq 0 body) ∨
    (¬ ((d.sess n).unacked.length < 256 ∧ (d.sess n).waiting = []) ∧ ∃ f, (∀ s : Sess, s.SameLink (f s)) ∧
      d.sendSeq n type body = d.updSess n f) := by
  unfold Dev.sendSeq
  split_ifs with hopen
  · exact .inl ⟨hopen, rfl⟩
  · extract_lets s m iv nx un tc d1
    split_ifs with hroom
    · exact .inr (.inl ⟨hroom.1, hroom.2, fun s => { s with txNext := nx, unacked := un, ackDue := false, interval := iv, timerC := tc },
        s.unacked.length + 1, m.seq, fun _ => ⟨rfl, rfl, rfl, rfl⟩, rfl⟩)
    · exact .inr (.inr ⟨hroom, fun s => { s with txNext := (s.txNext + 1) % 2 ^ 32, waiting := s.waiting ++ [m] },
        fun _ => ⟨rfl, rfl, rfl, rfl⟩, rfl⟩)

section
variable {d : Dev} {n : Nat} (type seq flags : Nat) (body : List Byte)

theorem wire_inSession (h : (d.sess n).via = 0xFFFF) : InSession n d (d.wire n type seq flags body) := by
  obtain ⟨m, -, hm⟩ := wire_ethernet h type seq flags body
  rw [hm]
  exact (InSession.refl n d).emit _

theorem wire_sess (h : (d.sess n).via = 0xFFFF) (k : Nat) : (d.wire n type seq flags body).sess k = d.sess k := by
  obtain ⟨m, -, hm⟩ := wire_ethernet h type seq flags body
  rw [hm]
  rfl

theorem wire_sessState (h : (d.sess n).via = 0xFFFF) (k : Nat) : (d.wire n type seq flags body).sessState k = d.sessState k := by
  obtain ⟨m, -, hm⟩ := wire_ethernet h type seq flags body
  rw [hm]
  rfl

theorem wire_sent (h : (d.sess n).via = 0xFFFF) : Sent d (d.wire n type seq flags body) n type body := by
  obtain ⟨m, hbody, hm⟩ := wire_ethernet h type seq flags body
  rw [hm]
  exact ⟨seq, m, hbody, List.suffix_rfl⟩

/-- Over Ethernet a sequenced message is a step within its session. -/
theorem sendSeq_inSession (h : (d.sess n).via = 0xFFFF) : InSession n d (d.sendSeq n type body) := by
  rcases sendSeq_cases d n type body with ⟨-, heq⟩ | ⟨-, -, f, v, seq, hf, heq⟩ | ⟨-, f, hf, heq⟩ <;> rw [heq]
  · exact .refl n d
  · exact (((InSession.refl n d).updSess f).put rfl v).trans (wire_inSession _ _ _ _ ((sameLink_updSess d n hf).via.trans h))
  · exact (InSession.refl n d).updSess f

theorem sendSeq_sameLink (h : (d.sess n).via = 0xFFFF) : (d.sess n).SameLink ((d.sendSeq n type body).sess n) := by
  rcases sendSeq_cases d n type body with ⟨-, heq⟩ | ⟨-, -, f, v, seq, hf, heq⟩ | ⟨-, f, hf, heq⟩ <;> rw [heq]
  · exact ⟨rfl, rfl, rfl, rfl⟩
  · have hlink := sameLink_updSess d n hf
    exact (wire_sess type seq 0 body (d := (d.updSess n f).put _ v) (hlink.via.trans h) n).symm ▸ hlink
  · exact sameLink_updSess d n hf

theorem sendSeq_sessState (h : (d.sess n).via = 0xFFFF) : (d.sendSeq n type body).sessState n = d.sessState n := by
  rcases sendSeq_cases d n type body with ⟨-, heq⟩ | ⟨-, -, f, v, seq, hf, heq⟩ | ⟨-, f, hf, heq⟩ <;> rw [heq]
  · exact (wire_sessState type seq 0 body (d := (d.updSess n f).put _ v) ((sameLink_updSess d n hf).via.trans h) n).trans
      (sessState_put_unacked _ n v)
  · rfl

end

/-- A session that is open over Ethernet and sends what it has to send at once. -/
structure CanAnswer (d : Dev) (n : Nat) : Prop where
  isOpen : d.sessState n = 1
  via : (d.sess n).via = 0xFFFF
  room : (d.sess n).unacked.length < 256
  idle : (d.sess n).waiting = []

theorem sendSeq_sent {d : Dev} {n : Nat} (h : CanAnswer d n) (type : Nat) (body : List Byte) :
    Sent d (d.sendSeq n type body) n type body := by
  rcases sendSeq_cases d n type body with ⟨hclosed, -⟩ | ⟨-, -, f, v, seq, hf, heq⟩ | ⟨hfull, -⟩
  · exact absurd h.isOpen hclosed
  · rw [heq]
    exact wire_sent (d := (d.updSess n f).put _ v) type seq 0 body ((sameLink_updSess d n hf).via.trans h.via)
  · exact absurd ⟨h.room, h.idle⟩ hfull

/-- An acknowledgement over Ethernet is a step within its session. -/
theorem ackOnly_inSession {d : Dev} {n : Nat} (h : (d.sess n).via = 0xFFFF) : InSession n d (d.ackOnly n) :=
  ((InSession.refl n d).updSess _).trans
    (wire_inSession _ _ _ _ ((sameLink_updSess d n (f := fun s => { s with ackDue := false }) fun _ => ⟨rfl, rfl, rfl, rfl⟩).via.trans h))

end Sys2Proof.Machine
end

section
/-! A message in its turn (R99, R103): the session before its request is processed, the request, and the acknowledgement that may
follow. -/

namespace Sys2Proof.Machine

/-! ### What the peer's ACK frees (R103, R104) -/

theorem takeAck_inSession (d : Dev) (n ack sack : Nat) : InSession n d (d.takeAck n ack sack) := by
  unfold Dev.takeAck
  extract_lets s un rto now d1
  split
  · exact ((InSession.refl n d).updSess _).put rfl _
  · exact (InSession.refl n d).when ((InSession.refl n d).updSess _)

theorem takeAck_out (d : Dev) (n ack sack : Nat) : (d.takeAck n ack sack).out = d.out := by
  unfold Dev.takeAck
  extract_lets s un rto now d1
  split
  · rfl
  · exact when_keeps d Dev.out _ _ fun _ => rfl

theorem takeAck_sessState (d : Dev) (n ack sack : Nat) : (d.takeAck n ack sack).sessState n = d.sessState n := by
  unfold Dev.takeAck
  extract_lets s un rto now d1
  split
  · exact sessState_put_unacked d1 n _
  · exact when_keeps d (fun d => d.sessState n) _ _ fun _ => rfl

/-- The slot after the peer's ACK and SACK: an advance of ACK frees what it passes, and restarts the timer (R103, R104). -/
def Sess.acked (s : Sess) (ack sack rto now : Nat) : Sess :=
  if later32 ack s.peerAck then
    { s with peerAck := ack, peerSack := sack, expiries := 0, interval := rto, timerC := now,
             unacked := s.unacked.filter fun x => !(later32 ack x.seq) }
  else if ack = s.peerAck then { s with peerSack := sack }
  else s

theorem takeAck_sess (d : Dev) {n : Nat} (ack sack : Nat) (h : n < d.itk.sess.length) :
    (d.takeAck n ack sack).sess n = (d.sess n).acked ack sack (d.get (F.ITK_SESS_CFG2_RTO n)) d.c := by
  unfold Dev.takeAck Sess.acked
  extract_lets s un rto now d1
  split
  · exact sess_updSess_same d _ h
  · split
    · next heq => rw [beq_iff_eq.mpr heq]; exact sess_updSess_same d _ h
    · next hne => rw [beq_false_of_ne hne]; rfl

/-- The slot has room, holds nothing back, and its messages leave over Ethernet. -/
structure Sess.Ready (s : Sess) : Prop where
  via : s.via = 0xFFFF
  held : s.held = []
  room : s.unacked.length < 256
  idle : s.waiting = []

theorem ready_empty : Sess.Ready {} := ⟨rfl, rfl, by decide, rfl⟩

theorem takeAck_ready {d : Dev} {n : Nat} (ack sack : Nat) (h : (d.sess n).Ready) : ((d.takeAck n ack sack).sess n).Ready := by
  obtain ⟨hvia, hheld, hroom, hidle⟩ := h
  unfold Dev.takeAck
  extract_lets s un rto now d1
  have hun : un.length < 256 := (List.length_filter_le _ _).trans_lt hroom
  split
  · exact sess_updSess_of Sess.Ready ⟨hvia, hheld, hun, hidle⟩ ready_empty
  · cases ack == s.peerAck
    · exact ⟨hvia, hheld, hroom, hidle⟩
    · exact sess_updSess_of Sess.Ready ⟨hvia, hheld, hroom, hidle⟩ ready_empty

theorem takeAck_sameLink (d : Dev) (n ack sack : Nat) : (d.sess n).SameLink ((d.takeAck n ack sack).sess n) := by
  unfold Dev.takeAck
  extract_lets s un rto now d1
  split
  · exact sameLink_updSess d n fun _ => ⟨rfl, rfl, rfl, rfl⟩
  · cases ack == s.peerAck
    · exact ⟨rfl, rfl, rfl, rfl⟩
    · exact sameLink_updSess d n fun _ => ⟨rfl, rfl, rfl, rfl⟩

/-! ### The device when a request is processed, and after it -/

/-- A message in session `n` has been found good: its transport and its time are kept, and its ACK and SACK taken (R99, R102 to R104). -/
def Dev.heard (d : Dev) (m : VjpMsg) : Dev :=
  (d.updSess m.slot fun s => { s with via := 0xFFFF, lastC := d.c }).takeAck m.slot m.ack m.sack

/-- The slot after ACK has passed the message with this SEQ (R103). -/
def Sess.passes (s : Sess) (seq : Nat) : Sess :=
  { s with ack := (s.ack + 1) % 2 ^ 32, held := s.held.filter fun h => h.1 != seq, ackDue := true }

theorem Sess.Ready.passes {s : Sess} (h : s.Ready) (seq : Nat) : (s.passes seq).Ready :=
  ⟨h.via, by rw [Sess.passes, h.held, List.filter_nil], h.room, h.idle⟩

/-- The message's turn has come: ACK passes it (R103). -/
def Dev.turn (d : Dev) (m : VjpMsg) : Dev := (d.heard m).updSess m.slot fun s => s.passes m.seq

/-- After the request: the messages held behind it, and the acknowledgement that its flags ask for (R103). -/
def Dev.turnEnd (d : Dev) (m : VjpMsg) : Dev :=
  (d.takeHeld 64 m.slot).when (bitB m.flags 1 && (d.takeHeld 64 m.slot).sessState m.slot == 1) fun d => d.ackOnly m.slot

variable {d : Dev} {p : Nat} {v6 : Bool} {m : VjpMsg}

theorem heard_inSession (d : Dev) (m : VjpMsg) : InSession m.slot d (d.heard m) :=
  ((InSession.refl _ d).updSess _).trans (takeAck_inSession _ _ _ _)

theorem heard_out (d : Dev) (m : VjpMsg) : (d.heard m).out = d.out := by rw [Dev.heard, takeAck_out, updSess_out]

theorem heard_sessState (d : Dev) (m : VjpMsg) : (d.heard m).sessState m.slot = d.sessState m.slot := by
  rw [Dev.heard, takeAck_sessState, updSess_sessState]

theorem heard_ack (d : Dev) (m : VjpMsg) : ((d.heard m).sess m.slot).ack = (d.sess m.slot).ack := by
  rw [Dev.heard, (takeAck_sameLink _ _ _ _).ack]
  exact sess_updSess_keeps Sess.ack d m.slot fun _ => rfl

theorem heard_ready (h : InTurn d p v6 m) : ((d.heard m).sess m.slot).Ready := by
  obtain ⟨-, -, -, -, -, -, hheld, hroom, hidle⟩ := h
  exact takeAck_ready m.ack m.sack (sess_updSess_of Sess.Ready ⟨rfl, hheld, hroom, hidle⟩ ready_empty)

theorem turn_inSession (d : Dev) (m : VjpMsg) : InSession m.slot d (d.turn m) := (heard_inSession d m).updSess _

theorem turn_out (d : Dev) (m : VjpMsg) : (d.turn m).out = d.out := by rw [Dev.turn, updSess_out, heard_out]

/-- A field of a register other than the session's status reads in the turn as before. -/
theorem turn_get (d : Dev) (m : VjpMsg) {f : Fld} (h : f.addr ≠ R.ITK_SESS_STAT m.slot) : (d.turn m).get f = d.get f :=
  (turn_inSession d m).get h

theorem turn_ready (h : InTurn d p v6 m) : ((d.turn m).sess m.slot).Ready := by
  rw [Dev.turn]
  exact sess_updSess_of Sess.Ready ((heard_ready h).passes m.seq) ready_empty

theorem turn_sessState (h : InTurn d p v6 m) : (d.turn m).sessState m.slot = 1 := by
  obtain ⟨-, -, hopen, -⟩ := h
  rw [Dev.turn, updSess_sessState, heard_sessState, hopen]

/-- A session that holds nothing back goes on to the acknowledgement. -/
theorem takeHeld_none {d : Dev} {n : Nat} (h : (d.sess n).held = []) (k : Nat) : d.takeHeld k n = d := by
  cases k with
  | zero => rfl
  | succ k => rw [Dev.takeHeld, h]; rfl

/-- What follows a request that leaves its session over Ethernet, holding nothing back, is a step within the session. -/
theorem turnEnd_inSession (hheld : (d.sess m.slot).held = []) (hvia : (d.sess m.slot).via = 0xFFFF) :
    InSession m.slot d (d.turnEnd m) := by
  rw [Dev.turnEnd, takeHeld_none hheld]
  exact (InSession.refl _ d).when (ackOnly_inSession hvia)

/-- A whole message of an open session is heard, and one that is sequenced is then taken as such (R99, R102, R103). -/
theorem vjpIn_heard (hnet : d.netLets p v6 = true) (hfmt : vjpFmtOk m = true) (hstate : d.sessState m.slot = 1)
    (hsid : m.sid = d.get (F.ITK_SESS_SID_SID m.slot)) (htag : vjpTagOk (d.sess m.slot).key m = true) (hopen : m.type ≠ 1) :
    d.vjpIn 0xFFFF m = if m.type = 4 then d.heard m else (d.heard m).vjpSequenced m.slot m := by
  have hup : d.itkUp = true := by
    simp only [Dev.netLets, Bool.and_eq_true] at hnet
    exact hnet.1.1
  simp only [Dev.vjpIn, hup, hfmt, hopen, hstate, ← hsid, htag]
  simp [Dev.heard]

/-- A message in its turn is processed, and its acknowledgement may follow. -/
theorem vjpNet_inTurn (h : InTurn d p v6 m) (hopen : m.type ≠ 1) (hack : m.type ≠ 4) {types : Nat → Bool} (ht : types m.type = true) :
    d.vjpNet p v6 m types = ((d.turn m).vjpProcess m.slot m).turnEnd m := by
  obtain ⟨hnet, hfmt, hstate, hsid, htag, hseq, -⟩ := h
  have hheard := vjpIn_heard hnet hfmt hstate hsid htag hopen
  have hnext : ((d.heard m).sess m.slot).ack = m.seq :=
    (heard_ack d m).trans hseq.symm
  have hgap : (m.seq + 2 ^ 32 - ((d.heard m).sess m.slot).ack) % 2 ^ 32 = 0 := by
    rw [hnext, Nat.add_sub_cancel_left, Nat.mod_self]
  rw [Dev.vjpNet, hnet, ht, Bool.and_self, when_true, hheard, if_neg hack, Dev.vjpSequenced]
  simp only [hgap, if_true]
  rfl

/-- The body of a RESULT (R109). -/
def resultBody (seq type st state reason item v : Nat) : List Byte :=
  leBytes 4 seq ++ leBytes 1 type ++ leBytes 1 st ++ leBytes 1 state ++ leBytes 1 reason ++ leBytes 8 item ++ leBytes 8 v ++ leBytes 8 0

theorem result_eq (d : Dev) (n seq type st state reason item v : Nat) :
    d.result n seq type st state reason item v = d.sendSeq n 0x20 (resultBody seq type st state reason item v) := rfl

/-- A RESULT of a session that can answer, and what follows it, are a step within the session, and the RESULT leaves. -/
theorem result_turnEnd {x : Dev} (hready : (x.sess m.slot).Ready) (hopen : x.sessState m.slot = 1) (hout : d.out <:+ x.out)
    (seq type st state reason item v : Nat) :
    InSession m.slot x ((x.result m.slot seq type st state reason item v).turnEnd m) ∧
    ResultSent d ((x.result m.slot seq type st state reason item v).turnEnd m) m.slot seq type st state reason item v := by
  obtain ⟨hvia, hheld, hroom, hidle⟩ := hready
  rw [result_eq]
  have hlink := sendSeq_sameLink 0x20 (resultBody seq type st state reason item v) hvia
  have hend := turnEnd_inSession (m := m) (hlink.held.trans hheld) (hlink.via.trans hvia)
  exact ⟨(sendSeq_inSession _ _ hvia).trans hend, ((sendSeq_sent ⟨hopen, hvia, hroom, hidle⟩ _ _).later hend.out).mem_sentVjp hout⟩

/-- A request in its turn whose answer is all that it leaves. -/
theorem answered (h : InTurn d p v6 m) (seq type st state reason item v : Nat) :
    let e := ((d.turn m).result m.slot seq type st state reason item v).turnEnd m
    SessionOnly d e m.slot ∧ ResultSent d e m.slot seq type st state reason item v := by
  obtain ⟨hin, hsent⟩ := result_turnEnd (turn_ready h) (turn_sessState h) (turn_inSession d m).out seq type st state reason item v
  exact ⟨((turn_inSession d m).trans hin).only, hsent⟩

end Sys2Proof.Machine
end

section
/-! DATA, REG_READ and REG_WRITE (R108, R118). -/

namespace Sys2Proof.Machine

/-! ### What a request finds in its turn -/

theorem InTurn.slot_lt {d : Dev} {p : Nat} {v6 : Bool} {m : VjpMsg} (h : InTurn d p v6 m) : m.slot < 8 := by
  obtain ⟨-, hfmt, -⟩ := h
  simp only [vjpFmtOk, Bool.and_eq_true, decide_eq_true_eq] at hfmt
  exact hfmt.1.1.1.1.1.2

section
variable (d : Dev) (m : VjpMsg)

theorem turn_itk : (d.turn m).itk = { d.itk with sess := (d.turn m).itk.sess } := (turn_inSession d m).itk

theorem turn_page? (pg : Nat) : (d.turn m).page? pg = d.page? pg := by rw [Dev.page?, turn_itk]; rfl

/-- A register below the sessions' ones, or above them, is none that a turn writes. -/
theorem turn_get_other {f : Fld} (h : f.addr < 0x08000100 ∨ 0x08000200 ≤ f.addr) (hm : m.slot < 8) : (d.turn m).get f = d.get f :=
  turn_get d m (by unfold R.ITK_SESS_STAT; omega)

theorem turn_bit_rights (i : Nat) : (d.turn m).bit (F.ITK_SESS_CFG2_RIGHTS m.slot) i = d.bit (F.ITK_SESS_CFG2_RIGHTS m.slot) i := by
  rw [Dev.bit, turn_get d m (by simp [F.ITK_SESS_CFG2_RIGHTS, R.ITK_SESS_CFG2, R.ITK_SESS_STAT]), Dev.bit]

end

/-! ### A read by requester 6 (R118, R502) -/

theorem capture_hiCap (d : Dev) (req b a : Nat) : d.capture req b a = { d with hiCap := (d.capture req b a).hiCap } := by
  unfold Dev.capture
  repeat' split
  all_goals rfl

/-- A claim answers, and marks at most its interrupt as claimed. -/
theorem claimIrq_keeps (d : Dev) (ctx : Nat) :
    (d.claimIrq ctx).regs = d.regs ∧ (d.claimIrq ctx).itk = d.itk ∧ (d.claimIrq ctx).out = .claim ctx (d.plicBest ctx) :: d.out := by
  unfold Dev.claimIrq
  extract_lets id d1
  have hd1 : d1 = d ∨ d1 = d.onSys fun s => { s with claimed := id :: s.claimed } := by
    cases hid : id != 0
    · exact .inl (by rw [show d1 = d.when (id != 0) _ from rfl, hid, when_false])
    · exact .inr (by rw [show d1 = d.when (id != 0) _ from rfl, hid, when_true])
  rcases hd1 with h | h <;> rw [h] <;> exact ⟨rfl, rfl, rfl⟩

theorem ctlRead_keeps (d : Dev) (a : Nat) :
    (d.ctlRead a).2.regs = d.regs ∧ (d.ctlRead a).2.itk = d.itk ∧ d.out <:+ (d.ctlRead a).2.out := by
  have hsame : d.regs = d.regs ∧ d.itk = d.itk ∧ d.out <:+ d.out := ⟨rfl, rfl, List.suffix_rfl⟩
  by_cases htimer : 0x0B004000 ≤ a ∧ a < 0x0B004020
  · rw [Dev.ctlRead, if_pos htimer]
    exact hsame
  · by_cases hlo : a = 0x0B00BFF8
    · rw [Dev.ctlRead, if_neg htimer, if_pos hlo]
      exact hsame
    · by_cases hhi : a = 0x0B00BFFC
      · rw [Dev.ctlRead, if_neg htimer, if_neg hlo, if_pos hhi]
        exact hsame
      · rw [Dev.ctlRead, if_neg htimer, if_neg hlo, if_neg hhi]
        split
        · next ctx _ =>
          obtain ⟨hregs, hitk, hout⟩ := claimIrq_keeps d ctx
          exact ⟨hregs, hitk, hout ▸ List.suffix_cons _ _⟩
        · split <;> exact hsame

/-- A read of a register leaves the sessions as they are. -/
theorem busR_sessions (d : Dev) (req a width : Nat) {n : Nat} (hn : n < 8) :
    (d.busR req a width).2.2.itk = d.itk ∧ (d.busR req a width).2.2.sessState n = d.sessState n ∧ d.out <:+ (d.busR req a width).2.2.out := by
  have hsame : d.itk = d.itk ∧ d.sessState n = d.sessState n ∧ d.out <:+ d.out := ⟨rfl, rfl, List.suffix_rfl⟩
  unfold Dev.busR
  split
  · next b hb =>
    split_ifs
    · exact hsame
    · extract_lets r
      split
      · dsimp only
        rw [capture_hiCap]
        exact hsame
      · have hreg : (F.ITK_SESS_STAT_STATE n).addr ∉ [blockBase b + 4, blockBase b + 8] := by
          have hmod := blockBase_mod (b := b)
          simp only [F.ITK_SESS_STAT_STATE, R.ITK_SESS_STAT, List.mem_cons, List.not_mem_nil, or_false]
          omega
        have heq := reject_regs d req a r.1 hb
        have hout : (d.reject req a r.1).out = d.out := by rw [heq]
        exact ⟨(congrArg Dev.itk heq :), (frame_reject d req a r.1 hb).get hreg, hout ▸ List.suffix_rfl⟩
  · split_ifs
    · exact hsame
    · exact hsame
    · obtain ⟨hregs, hitk, hout⟩ := ctlRead_keeps d a
      exact ⟨hitk, by rw [Dev.sessState, Dev.get, Dev.rd, hregs]; rfl, hout⟩
    · exact hsame

/-! ### The requests on registers -/

section
variable {d : Dev} {p : Nat} {v6 : Bool} {m : VjpMsg}

/-- The status of a request for a register, in the order of its checks (R106, R118). -/
theorem vjpProcess_regRead (x : Dev) (n : Nat) (ht : m.type = 0x18) :
    x.vjpProcess n m =
      if x.bit (F.ITK_SESS_CFG2_RIGHTS n) 2 = false then x.result n m.seq 0x18 sDenied 0 0 (fieldLE m.body 0 5) 0
      else if m.body.length ≠ 8 then x.result n m.seq 0x18 sBadValue 0 0 (fieldLE m.body 0 5) 0
      else x.regReadReq n m := by
  simp [Dev.vjpProcess, vjpKind, ht]

theorem vjpProcess_regWrite (x : Dev) (n : Nat) (ht : m.type = 0x19) :
    x.vjpProcess n m =
      if x.bit (F.ITK_SESS_CFG2_RIGHTS n) 3 = false then x.result n m.seq 0x19 sDenied 0 0 (fieldLE m.body 0 5) 0
      else if m.body.length ≠ 16 then x.result n m.seq 0x19 sBadValue 0 0 (fieldLE m.body 0 5) 0
      else x.regWriteReq n m := by
  simp [Dev.vjpProcess, vjpKind, ht]

theorem regRead_ends (s : State) (p : Fin 4) (v6 : Bool) (m : VjpMsg) : Ends (.regRead p v6 m) s fun e =>
    let d := s.dev
    let n := m.slot
    let a := fieldLE m.body 0 5
    InTurn d p v6 m → m.type = 0x18 →
      if d.bit (F.ITK_SESS_CFG2_RIGHTS n) 2 = false then SessionOnly d e n ∧ ResultSent d e n m.seq 0x18 sDenied 0 0 a 0
      else if m.body.length ≠ 8 then SessionOnly d e n ∧ ResultSent d e n m.seq 0x18 sBadValue 0 0 a 0
      else if zeroBytes m.body 5 3 = false then SessionOnly d e n ∧ ResultSent d e n m.seq 0x18 sBadValue 0 0 a 0
      else ∃ x : Dev, SessionOnly d x n ∧ SessionOnly (x.busR reqVjp a 4).2.2 e n ∧
        ResultSent d e n m.seq 0x18 (x.busR reqVjp a 4).1 0 0 a (x.busR reqVjp a 4).2.1 := by
  refine ends_of_upd (f := fun d => d.vjpNet p v6 m fun t => t == 0x18) rfl ?_
  intro d n a h ht
  have hin := turn_inSession d m
  rw [vjpNet_inTurn h (by omega) (by omega) (by rw [ht]; rfl), vjpProcess_regRead _ _ ht, turn_bit_rights]
  split_ifs with hright hlen hzero
  · exact answered h ..
  · exact answered h ..
  · rw [Dev.regReadReq, if_pos (by rw [hzero]; rfl)]
    exact answered h ..
  · refine ⟨d.turn m, hin.only, ?_⟩
    obtain ⟨hitk, hstate, hout⟩ := busR_sessions (d.turn m) reqVjp a 4 h.slot_lt
    have hready : (((d.turn m).busR reqVjp a 4).2.2.sess m.slot).Ready := by
      rw [sess_of_itk hitk]
      exact turn_ready h
    rw [Dev.regReadReq, if_neg (by simpa using hzero)]
    obtain ⟨hstep, hsent⟩ := result_turnEnd hready (hstate.trans (turn_sessState h)) (hin.out.trans hout) m.seq 0x18
      ((d.turn m).busR reqVjp a 4).1 0 0 a ((d.turn m).busR reqVjp a 4).2.1
    exact ⟨hstep.only, hsent⟩

theorem regWrite_ends (s : State) (p : Fin 4) (v6 : Bool) (m : VjpMsg) : Ends (.regWrite p v6 m) s fun e =>
    let d := s.dev
    let n := m.slot
    let a := fieldLE m.body 0 5
    let v := fieldLE m.body 8 4
    InTurn d p v6 m → m.type = 0x19 →
      if d.bit (F.ITK_SESS_CFG2_RIGHTS n) 3 = false then SessionOnly d e n ∧ ResultSent d e n m.seq 0x19 sDenied 0 0 a 0
      else if m.body.length ≠ 16 ∨ zeroBytes m.body 5 3 = false ∨ zeroBytes m.body 12 4 = false then
        SessionOnly d e n ∧ ResultSent d e n m.seq 0x19 sBadValue 0 0 a 0
      else ∃ x : Dev, SessionOnly d x n ∧
        ((x.busW reqVjp a 4 v).2.out = d.out → (x.busW reqVjp a 4 v).2.sessState n = 1 → (x.busW reqVjp a 4 v).2.sess n = x.sess n →
          SessionOnly (x.busW reqVjp a 4 v).2 e n ∧ ResultSent d e n m.seq 0x19 (x.busW reqVjp a 4 v).1 0 0 a 0) := by
  refine ends_of_upd (f := fun d => d.vjpNet p v6 m fun t => t == 0x19) rfl ?_
  intro d n a v h ht
  rw [vjpNet_inTurn h (by omega) (by omega) (by rw [ht]; rfl), vjpProcess_regWrite _ _ ht, turn_bit_rights]
  by_cases hright : d.bit (F.ITK_SESS_CFG2_RIGHTS n) 3 = false
  · rw [if_pos hright, if_pos hright]
    exact answered h ..
  · rw [if_neg hright, if_neg hright]
    by_cases hlen : m.body.length ≠ 16
    · rw [if_pos hlen, if_pos (.inl hlen)]
      exact answered h ..
    · rw [if_neg hlen]
      split_ifs with hbad
      · rw [Dev.regWriteReq, if_pos (by simpa [hlen] using hbad)]
        exact answered h ..
      · refine ⟨d.turn m, (turn_inSession d m).only, fun hout hopen hsess => ?_⟩
        rw [Dev.regWriteReq, if_neg (by simpa [hlen] using hbad)]
        have hkept : d.out <:+ ((d.turn m).busW reqVjp a 4 v).2.out := by rw [hout]
        obtain ⟨hstep, hsent⟩ := result_turnEnd (hsess ▸ turn_ready h) hopen hkept m.seq 0x19
          ((d.turn m).busW reqVjp a 4 v).1 0 0 a 0
        exact ⟨hstep.only, hsent⟩

end

end Sys2Proof.Machine
end

section
/-! DATA (R108): where its bytes go, and what it leaves in the page store. -/

namespace Sys2Proof.Machine

/-! ### The fields of a DATA -/

/-- Page, block index, OFFSET and TOTAL of a DATA body, and how many bytes it brings. -/
def dataPage (b : List Byte) : Nat := fieldLE b 0 4
def dataIx (b : List Byte) : Nat := fieldLE b 4 4
def dataPart (b : List Byte) : Nat := fieldLE b 8 4
def dataTotal (b : List Byte) : Nat := fieldLE b 12 4
def dataLen (b : List Byte) : Nat := min (b.length - 16) (dataTotal b - dataPart b)

/-- The block of the page store that a DATA names. -/
def Dev.dataOld (d : Dev) (b : List Byte) : Option Blk := (d.page? (dataPage b)).bind fun y => y.blks.find? fun z => z.idx == dataIx b

/-- The byte ranges of a block that have arrived with a DATA for it. -/
def dataGot (old : Option Blk) (b : List Byte) : List (Nat × Nat) := ((old.map fun z => z.got).getD []) ++ [(dataPart b, dataLen b)]

/-- The block with a DATA that does not complete it. -/
def dataBlk (old : Option Blk) (who : Nat × Nat × Nat) (b : List Byte) (base : Nat) : Blk :=
  { idx := dataIx b, total := dataTotal b, got := dataGot old b, base := base, complete := false, who := who }

/-- The place of a block that has one, else the room for it. -/
def placeOf (old : Option Blk) (room : Option Nat) : Option Nat :=
  match old with
  | some z => some z.base
  | none => room

/-- The fields of a DATA are out of range (R108). -/
def dataBad (old : Option Blk) (b : List Byte) : Prop :=
  65535 < dataPage b ∨ 65535 < dataIx b ∨ dataTotal b ≤ dataPart b ∨ (old.any fun z => z.total != dataTotal b) = true ∨
  dataTotal b - dataPart b + 8 ≤ b.length - 16

/-- The device that has found no room for a block. -/
def Dev.pagesFull (d : Dev) : Dev := (d.put F.ITK_IRQ_STAT_NOROOM 1).when (d.get F.ITK_PAGESIZE_MIB != 0) fun d => d.report 46

/-- The device with the bytes of a DATA stored at the place of their block. -/
def Dev.dataStored (d : Dev) (who : Nat × Nat × Nat) (b : List Byte) (base : Nat) : Dev :=
  (((d.ensurePage (dataPage b)).stBs (base + dataPart b) ((b.drop 16).take (dataLen b))).putBlk (dataPage b)
    (dataBlk (d.dataOld b) who b base)).onPage (dataPage b) fun x => { x with since := max x.since d.c }

section
variable {d : Dev} {b : List Byte} {old : Option Blk} (who : Nat × Nat × Nat) (hold : d.dataOld b = old)
include hold

theorem takeData_badValue (h : dataBad old b) : d.takeData who b = (sBadValue, d) := by
  subst hold
  exact if_pos h

theorem takeData_duplicate (h : ¬ dataBad old b) (hdone : (old.any fun z => z.complete) = true) :
    d.takeData who b = (sDuplicate, d) := by
  subst hold
  exact (if_neg h).trans (if_pos hdone)

variable (h : ¬ dataBad old b) (hopen : ¬ (old.any fun z => z.complete) = true)
include h hopen

theorem takeData_noRoom (hbase : placeOf old (d.storeRoom (dataTotal b)) = none) : d.takeData who b = (sNoRoom, d.pagesFull) := by
  cases old with
  | some z => exact absurd hbase (Option.some_ne_none _)
  | none =>
    have hold' : ((d.page? (fieldLE b 0 4)).bind fun y => y.blks.find? fun z => z.idx == fieldLE b 4 4) = none := hold
    have hroom : d.storeRoom (fieldLE b 12 4) = none := hbase
    rw [← hold] at h hopen
    refine (if_neg h).trans ((if_neg hopen).trans ?_)
    rw [hold', hroom]
    rfl

theorem takeData_stores {base : Nat} (hbase : placeOf old (d.storeRoom (dataTotal b)) = some base)
    (hmore : reachOf (dataGot old b) (dataGot old b).length 0 < dataTotal b) :
    d.takeData who b = (sOk, d.dataStored who b base) := by
  have hold' : ((d.page? (fieldLE b 0 4)).bind fun y => y.blks.find? fun z => z.idx == fieldLE b 4 4) = old := hold
  rw [← hold] at h hopen
  refine (if_neg h).trans ((if_neg hopen).trans ?_)
  unfold Dev.dataStored
  rw [hold', hold]
  cases old with
  | some z =>
    obtain rfl : z.base = base := Option.some.inj hbase
    exact if_neg (Nat.not_le.mpr hmore)
  | none =>
    have hroom : d.storeRoom (fieldLE b 12 4) = some base := hbase
    dsimp only
    rw [hroom]
    exact if_neg (Nat.not_le.mpr hmore)

end

/-! ### What stands in the page store after a DATA -/

theorem onPage_ldB (d : Dev) (pg : Nat) (f : Page → Page) (a : Nat) : (d.onPage pg f).ldB a = d.ldB a := rfl

theorem putBlk_ldB (d : Dev) (pg : Nat) (x : Blk) (a : Nat) : (d.putBlk pg x).ldB a = d.ldB a := rfl

theorem stBs_mem (d : Dev) (a : Nat) (l : List Byte) : d.stBs a l = { d with mem := (d.stBs a l).mem } := by
  induction l generalizing d a with
  | nil => rfl
  | cons x l ih => rw [Dev.stBs, ih]; rfl

theorem ensurePage_pages (d : Dev) (pg : Nat) :
    d.ensurePage pg = { d with itk := { d.itk with pages := (d.ensurePage pg).itk.pages } } := by
  unfold Dev.ensurePage
  cases (d.page? pg).isNone <;> rfl

/-- A page exists once a DATA has named it. -/
theorem exists_page_ensurePage (d : Dev) (pg : Nat) : ∃ y ∈ (d.ensurePage pg).itk.pages, y.page = pg := by
  unfold Dev.ensurePage
  cases hpg : d.page? pg with
  | none => exact ⟨_, List.mem_append_right _ (List.mem_singleton.mpr rfl), rfl⟩
  | some y => exact ⟨y, List.mem_of_find?_eq_some hpg, by simpa using List.find?_some hpg⟩

section
variable (d : Dev) (who : Nat × Nat × Nat) (b : List Byte) (base : Nat)

/-- A DATA that does not complete its block changes memory and the page store alone. -/
theorem dataStored_eq : d.dataStored who b base =
    { d with mem := (d.dataStored who b base).mem, itk := { d.itk with pages := (d.dataStored who b base).itk.pages } } := by
  unfold Dev.dataStored
  rw [stBs_mem, ensurePage_pages]
  rfl

theorem dataStored_sess (n : Nat) : (d.dataStored who b base).sess n = d.sess n := by
  rw [dataStored_eq]
  rfl

/-- Its bytes stand at the block's place plus OFFSET, and no other byte has changed (R108). -/
theorem dataStored_ldB (a : Nat) : (d.dataStored who b base).ldB a =
    if base + dataPart b ≤ a ∧ a < base + dataPart b + dataLen b then nth b (16 + (a - (base + dataPart b))) 0 else d.ldB a := by
  have hens : (d.ensurePage (dataPage b)).ldB a = d.ldB a := by rw [ensurePage_pages]; rfl
  have hle : dataLen b ≤ b.length - 16 := Nat.min_le_left _ _
  have hlen : ((b.drop 16).take (dataLen b)).length = dataLen b := by simp [hle]
  rw [Dev.dataStored, onPage_ldB, putBlk_ldB]
  split
  · next hin =>
    obtain ⟨k, hk⟩ := Nat.exists_eq_add_of_le hin.1
    subst hk
    have hk : k < dataLen b := by omega
    have hb : 16 + k < b.length := by omega
    rw [ldB_stBs_in _ _ _ k (by omega), Nat.add_sub_cancel_left]
    simp [nth, hb]
  · next hout => rw [ldB_stBs_out _ _ _ _ (by omega), hens]

/-- The block stands in its page. -/
theorem dataStored_blk : ∃ y ∈ (d.dataStored who b base).itk.pages, y.page = dataPage b ∧ dataBlk (d.dataOld b) who b base ∈ y.blks := by
  obtain ⟨y, hy, hpage⟩ := exists_page_ensurePage d (dataPage b)
  have hst : y ∈ ((d.ensurePage (dataPage b)).stBs (base + dataPart b) ((b.drop 16).take (dataLen b))).itk.pages := by
    rw [stBs_mem]
    exact hy
  refine ⟨_, List.mem_map_of_mem (List.mem_map_of_mem hst), ?_⟩
  simp [hpage]

end

theorem pagesFull_itk (d : Dev) : d.pagesFull.itk = d.itk := when_keeps _ Dev.itk _ _ fun d => report_itk d _ _

theorem pagesFull_out (d : Dev) : d.pagesFull.out = d.out := when_keeps _ Dev.out _ _ fun d => report_out d _ _

theorem pagesFull_get (d : Dev) (f : Fld) : d.pagesFull.get f = (d.put F.ITK_IRQ_STAT_NOROOM 1).get f :=
  when_keeps _ (fun d => d.get f) _ _ fun d => report_get d _ _ f

theorem pagesFull_ldB (d : Dev) (a : Nat) : d.pagesFull.ldB a = d.ldB a := when_keeps _ (fun d => d.ldB a) _ _ fun d => report_ldB d _ _ a

/-! ### The request -/

section
variable {m : VjpMsg}

theorem vjpProcess_data (x : Dev) (n : Nat) (ht : m.type = 0x11) :
    x.vjpProcess n m =
      if x.bit (F.ITK_SESS_CFG2_RIGHTS n) 0 = false then x.result n m.seq 0x11 sDenied 0 0 0 (dataPage m.body + dataIx m.body * 2 ^ 32)
      else x.dataReq n m := by
  simp only [Dev.vjpProcess, ht]
  cases x.bit (F.ITK_SESS_CFG2_RIGHTS n) 0 <;> rfl

section
variable (x : Dev) (n : Nat) {y : Dev} (hlen : ¬ m.body.length < 16) (hrole : ¬ (x.role = roleStandby ∨ x.role = roleSyncing))
include hlen hrole

/-- A DATA of a chip that does not follow its partner is refused with a status of its own (R108, R381). -/
theorem dataReq_refused {st : Nat} (ht : x.takeData (n, m.sid, m.seq) m.body = (st, y)) (hst : st ≠ sOk) :
    x.dataReq n m = y.result n m.seq 0x11 st 0 0 0 (dataPage m.body + dataIx m.body * 2 ^ 32) := by
  refine (if_neg hlen).trans ((if_neg fun h => hrole h.1).trans ?_)
  rw [ht]
  exact if_neg hst

/-- One that is taken is not answered, and goes on to the partner (R108, R381). -/
theorem dataReq_taken (ht : x.takeData (n, m.sid, m.seq) m.body = (sOk, y)) :
    x.dataReq n m = y.when (y.replicates && y.get F.TWN_CFG_DATAPATH == 0) fun d => d.twSend 0x22 (m.body.map (·.toNat)) := by
  refine (if_neg hlen).trans ((if_neg fun h => hrole h.1).trans ?_)
  rw [ht]
  exact if_pos rfl

end

section
variable (d : Dev)

theorem turn_role (hm : m.slot < 8) : (d.turn m).role = d.role := turn_get_other d m (f := F.TWN_STAT_ROLE) (.inl (by decide)) hm

theorem turn_dataOld (b : List Byte) : (d.turn m).dataOld b = d.dataOld b := by rw [Dev.dataOld, turn_page?, Dev.dataOld]

theorem turn_pages : (d.turn m).itk.pages = d.itk.pages := by rw [turn_itk]

theorem turn_storeRoom (hm : m.slot < 8) (total : Nat) : (d.turn m).storeRoom total = d.storeRoom total := by
  have hplace : (d.turn m).get F.ITK_PAGEBASE_MIB = d.get F.ITK_PAGEBASE_MIB := turn_get_other d m (.inl (by decide)) hm
  have hsize : (d.turn m).get F.ITK_PAGESIZE_MIB = d.get F.ITK_PAGESIZE_MIB := turn_get_other d m (.inl (by decide)) hm
  simp only [Dev.storeRoom, turn_pages, hplace, hsize]

end

/-- Line NOROOM is none of a session's registers. -/
theorem irqStat_ne_sessStat {n : Nat} (hn : n < 8) : R.ITK_IRQ_STAT ≠ R.ITK_SESS_STAT n := by
  unfold R.ITK_IRQ_STAT R.ITK_SESS_STAT
  omega

/-- A DATA that finds no room is answered, and line NOROOM rises; no byte of memory changes (R108). -/
theorem data_noRoom {d : Dev} {p : Nat} {v6 : Bool} (h : InTurn d p v6 m) (seq type v : Nat) :
    let e := ((d.turn m).pagesFull.result m.slot seq type sNoRoom 0 0 0 v).turnEnd m
    ResultSent d e m.slot seq type sNoRoom 0 0 0 v ∧ e.get F.ITK_IRQ_STAT_NOROOM = 1 ∧ ∀ a, e.ldB a = d.ldB a := by
  have hin := turn_inSession d m
  have hline := irqStat_ne_sessStat h.slot_lt
  have hready : ((d.turn m).pagesFull.sess m.slot).Ready := by
    rw [sess_of_itk (pagesFull_itk _)]
    exact turn_ready h
  have hopen : (d.turn m).pagesFull.sessState m.slot = 1 := by
    rw [Dev.sessState, pagesFull_get, get_put_ne _ _ _ _ hline.symm]
    exact turn_sessState h
  have hout : d.out <:+ (d.turn m).pagesFull.out := by
    rw [pagesFull_out]
    exact hin.out
  obtain ⟨hstep, hsent⟩ := result_turnEnd hready hopen hout seq type sNoRoom 0 0 0 v
  refine ⟨hsent, ?_, fun a => (hstep.ldB a).trans ((pagesFull_ldB _ a).trans (hin.ldB a))⟩
  rw [hstep.get hline, pagesFull_get]
  exact get_put_same _ _ _ (by decide)

/-- A DATA that does not complete its block leaves its bytes at the block's place, and the block in its page (R108). -/
theorem data_stored {d : Dev} {p : Nat} {v6 : Bool} (h : InTurn d p v6 m) (who : Nat × Nat × Nat) (b : List Byte) (base : Nat)
    (c : Bool) (l : List Nat) :
    let e := (((d.turn m).dataStored who b base).when c fun d => d.twSend 0x22 l).turnEnd m
    (∀ a, e.ldB a = if base + dataPart b ≤ a ∧ a < base + dataPart b + dataLen b then nth b (16 + (a - (base + dataPart b))) 0 else d.ldB a) ∧
    ∃ y ∈ e.itk.pages, y.page = dataPage b ∧ dataBlk (d.dataOld b) who b base ∈ y.blks := by
  obtain ⟨y, hy⟩ : ∃ y, y = ((d.turn m).dataStored who b base).when c fun d => d.twSend 0x22 l := ⟨_, rfl⟩
  have hitk : y.itk = ((d.turn m).dataStored who b base).itk := hy ▸ when_keeps _ Dev.itk _ _ fun _ => rfl
  have hsess : y.sess m.slot = (d.turn m).sess m.slot := (sess_of_itk hitk m.slot).trans (dataStored_sess ..)
  have hmem : ∀ a, y.ldB a = ((d.turn m).dataStored who b base).ldB a := fun a => hy ▸ when_keeps _ (fun d => d.ldB a) _ _ fun _ => rfl
  have hready : (y.sess m.slot).Ready := hsess ▸ turn_ready h
  have hend := turnEnd_inSession hready.held hready.via
  rw [← hy]
  refine ⟨fun a => ?_, ?_⟩
  · rw [hend.ldB, hmem, dataStored_ldB, (turn_inSession d m).ldB]
  · rw [hend.itk, hitk, ← turn_dataOld d (m := m)]
    exact dataStored_blk _ who b base

theorem vjpData_ends (s : State) (p : Fin 4) (v6 : Bool) (m : VjpMsg) : Ends (.vjpData p v6 m) s fun e =>
    let d := s.dev
    let n := m.slot
    let b := m.body
    let pg := fieldLE b 0 4
    let ix := fieldLE b 4 4
    let part := fieldLE b 8 4
    let total := fieldLE b 12 4
    let x := pg + ix * 2 ^ 32
    let len := min (b.length - 16) (total - part)
    let old := (d.page? pg).bind fun y => y.blks.find? fun z => z.idx == ix
    let got := ((old.map fun z => z.got).getD []) ++ [(part, len)]
    InTurn d p v6 m → m.type = 0x11 → ¬ (d.role = roleStandby ∨ d.role = roleSyncing) →
      if d.bit (F.ITK_SESS_CFG2_RIGHTS n) 0 = false then SessionOnly d e n ∧ ResultSent d e n m.seq 0x11 sDenied 0 0 0 x
      else if b.length < 16 then SessionOnly d e n ∧ ResultSent d e n m.seq 0x11 sBadValue 0 0 0 x
      else if 65535 < pg ∨ 65535 < ix ∨ total ≤ part ∨ (old.any fun z => z.total != total) = true ∨ total - part + 8 ≤ b.length - 16 then
        SessionOnly d e n ∧ ResultSent d e n m.seq 0x11 sBadValue 0 0 0 x
      else if (old.any fun z => z.complete) = true then SessionOnly d e n ∧ ResultSent d e n m.seq 0x11 sDuplicate 0 0 0 x
      else match (match old with
        | some z => some z.base
        | none => d.storeRoom total) with
        | none => ResultSent d e n m.seq 0x11 sNoRoom 0 0 0 x ∧ e.get F.ITK_IRQ_STAT_NOROOM = 1 ∧ (∀ a, e.ldB a = d.ldB a)
        | some base =>
          reachOf got got.length 0 < total →
            (∀ a, e.ldB a = if base + part ≤ a ∧ a < base + part + len then nth b (16 + (a - (base + part))) 0 else d.ldB a) ∧
            ∃ y ∈ e.itk.pages, y.page = pg ∧ { idx := ix, total := total, got := got, base := base, complete := false,
                                               who := (n, m.sid, m.seq) } ∈ y.blks := by
  refine ends_of_upd (f := fun d => d.vjpNet p v6 m fun t => t == 0x11) rfl ?_
  intro d n b pg ix part total x len old got h ht hrole
  have hn := h.slot_lt
  have hold : (d.turn m).dataOld b = old := turn_dataOld d b
  have hroom : (d.turn m).storeRoom (dataTotal b) = d.storeRoom total := turn_storeRoom d hn total
  have hrole' : ¬ ((d.turn m).role = roleStandby ∨ (d.turn m).role = roleSyncing) := by rwa [turn_role d hn]
  rw [vjpNet_inTurn h (by omega) (by omega) (by rw [ht]; rfl), vjpProcess_data _ _ ht, turn_bit_rights]
  by_cases hright : d.bit (F.ITK_SESS_CFG2_RIGHTS n) 0 = false
  · rw [if_pos hright, if_pos hright]
    exact answered h ..
  rw [if_neg hright, if_neg hright]
  by_cases hlen : b.length < 16
  · rw [if_pos hlen, Dev.dataReq, if_pos hlen]
    exact answered h ..
  rw [if_neg hlen]
  split_ifs with hbad hdone
  · rw [dataReq_refused _ n hlen hrole' (takeData_badValue _ hold hbad) (by decide)]
    exact answered h ..
  · rw [dataReq_refused _ n hlen hrole' (takeData_duplicate _ hold hbad hdone) (by decide)]
    exact answered h ..
  · split
    · next hbase =>
      have hplace : placeOf old ((d.turn m).storeRoom (dataTotal b)) = none := hroom ▸ hbase
      rw [dataReq_refused _ n hlen hrole' (takeData_noRoom _ hold hbad hdone hplace) (by decide)]
      exact data_noRoom h ..
    · next base hbase =>
      intro hmore
      have hplace : placeOf old ((d.turn m).storeRoom (dataTotal b)) = some base := hroom ▸ hbase
      rw [dataReq_taken _ n hlen hrole' (takeData_stores _ hold hbad hdone hplace hmore)]
      exact data_stored h ..

end

/-- Settles O28: a request in its turn leaves its own effect, its answer, and what its session keeps. -/
theorem dataAndRegisters : Obligations.DataAndRegisters := ⟨vjpData_ends, regRead_ends, regWrite_ends⟩

end Sys2Proof.Machine
end

section
/-! Datagrams, OPEN, CLOSE, ACKONLY and types that are not the host's to send (R97 to R106). -/

namespace Sys2Proof.Machine

/-! ### Counters and drops (R97 to R99) -/

/-- A register of one field reads as that field. -/
theorem toNat_rd_eq_get (d : Dev) (a : Nat) : (d.rd a).toNat = d.get ⟨a, 0, 32⟩ := by
  simp [Dev.get, bits, Nat.mod_eq_of_lt (d.rd a).isLt]

theorem incSat_regs (d : Dev) (f : Fld) : d.incSat f = { d with regs := (d.incSat f).regs } := rfl

theorem frame_incSat (d : Dev) (f : Fld) (as : List Nat) (h : f.addr ∈ as) : Frame d (d.incSat f) as := frame_put _ _ _ _ h

/-- A counter that takes a whole register stops at its largest value. -/
theorem toNat_incSat (d : Dev) (a : Nat) : ((d.incSat ⟨a, 0, 32⟩).rd a).toNat = min (2 ^ 32 - 1) ((d.rd a).toNat + 1) := by
  rw [toNat_rd_eq_get, toNat_rd_eq_get, Dev.incSat, Dev.addSat, get_put_same _ _ _ (by simp)]
  exact Nat.mod_eq_of_lt ((Nat.min_le_left _ _).trans_lt (by norm_num))

/-- A message dropped under R99 is counted, and line AUTHDROP rises. -/
theorem authDrop_counted (d : Dev) :
    Frame d d.authDrop [R.ITK_DROP_AUTH, R.ITK_IRQ_STAT] ∧ d.authDrop.get F.ITK_IRQ_STAT_AUTHDROP = 1 := by
  unfold Dev.authDrop
  extract_lets d1 now l d2
  have hcount : Frame d (d.incSat F.ITK_DROP_AUTH_COUNT) [R.ITK_DROP_AUTH, R.ITK_IRQ_STAT] :=
    frame_incSat d F.ITK_DROP_AUTH_COUNT _ (by simp [F.ITK_DROP_AUTH_COUNT])
  have hshown : Frame (d.incSat F.ITK_DROP_AUTH_COUNT) d1 [R.ITK_DROP_AUTH, R.ITK_IRQ_STAT] :=
    frame_put _ F.ITK_IRQ_STAT_AUTHDROP 1 _ (List.mem_cons_of_mem _ List.mem_cons_self)
  have hframe : Frame d d2 [R.ITK_DROP_AUTH, R.ITK_IRQ_STAT] := 
    (hcount.trans hshown).trans ⟨fun a _ => onItk_rd d1 _ a, onItk_ldB d1 _⟩
  have hline : d1.get F.ITK_IRQ_STAT_AUTHDROP = 1 := get_put_same (d.incSat F.ITK_DROP_AUTH_COUNT) F.ITK_IRQ_STAT_AUTHDROP 1 (by decide)
  exact ⟨hframe.trans (.when _ _ (frame_report _ _ _ _)),
    (when_keeps d2 (fun d => d.get F.ITK_IRQ_STAT_AUTHDROP) _ _ fun d => report_get d _ _ _).trans ((onItk_get d1 _ _).trans hline)⟩

theorem vjpMalformed_ends (s : State) (p : Fin 4) (v6 frag : Bool) (b : List Byte) : Ends (.vjpMalformed p v6 frag b) s fun e =>
    let d := s.dev
    if d.netLets p v6 = true ∧ (frag = true ∨ parseVjp b = none) then
      Frame d e [R.ITK_DROP_FMT] ∧ e = { d with regs := e.regs } ∧
      (e.rd R.ITK_DROP_FMT).toNat = min (2 ^ 32 - 1) ((d.rd R.ITK_DROP_FMT).toNat + 1)
    else e = d := by
  refine ends_of_upd (f := fun d => d.when (d.netLets p v6 && (frag || (parseVjp b).isNone)) Dev.fmtDrop) rfl ?_
  intro d
  split_ifs with h
  · have hb : (d.netLets p v6 && (frag || (parseVjp b).isNone)) = true := by simpa using h
    rw [hb, when_true]
    exact ⟨frame_incSat d F.ITK_DROP_FMT_COUNT _ (List.mem_singleton_self _), rfl, toNat_incSat d R.ITK_DROP_FMT⟩
  · have hb : (d.netLets p v6 && (frag || (parseVjp b).isNone)) = false :=
      Bool.eq_false_iff.mpr fun hb => h (by simpa using hb)
    rw [hb, when_false]

/-! ### The end of a session (R102) -/

theorem sid_ne_stat (n k : Nat) : R.ITK_SESS_SID n ≠ R.ITK_SESS_STAT k := by
  unfold R.ITK_SESS_SID R.ITK_SESS_STAT
  omega

theorem irqStat_lt_stat (n : Nat) : R.ITK_IRQ_STAT < R.ITK_SESS_STAT n := by
  unfold R.ITK_SESS_STAT R.ITK_IRQ_STAT
  omega

theorem irqStat_lt_sid (n : Nat) : R.ITK_IRQ_STAT < R.ITK_SESS_SID n := by
  unfold R.ITK_SESS_SID R.ITK_IRQ_STAT
  omega

section
variable (d : Dev) (n : Nat)

theorem endSession_out : (d.endSession n).out = d.out := rfl

theorem endSession_c : (d.endSession n).c = d.c := rfl

theorem endSession_reps : (d.endSession n).reps = d.reps := rfl

theorem endSession_frame : Frame d (d.endSession n) [R.ITK_SESS_STAT n, R.ITK_SESS_SID n, R.ITK_IRQ_STAT] := by
  have hslot : Frame d ((d.onItk fun t => { t with items := t.items.map fun i => if i.finalOn = some n then { i with finalOn := none } else i }).updSess
      n fun _ => {}) [R.ITK_SESS_STAT n, R.ITK_SESS_SID n, R.ITK_IRQ_STAT] := ⟨fun _ _ => rfl, fun _ => rfl⟩
  exact (((hslot.trans (frame_put _ (F.ITK_SESS_STAT_STATE n) _ _ (by simp [F.ITK_SESS_STAT_STATE]))).trans
    (frame_put _ (F.ITK_SESS_STAT_UNACKED n) _ _ (by simp [F.ITK_SESS_STAT_UNACKED]))).trans
    (frame_put _ (F.ITK_SESS_SID_SID n) _ _ (by simp [F.ITK_SESS_SID_SID]))).trans
    (frame_put _ F.ITK_IRQ_STAT_SESSION _ _ (by simp [F.ITK_IRQ_STAT_SESSION]))

theorem endSession_line : (d.endSession n).get F.ITK_IRQ_STAT_SESSION = 1 := get_put_same _ _ _ (by decide)

theorem endSession_sid : (d.endSession n).get (F.ITK_SESS_SID_SID n) = 0 :=
  (get_put_ne _ F.ITK_IRQ_STAT_SESSION (F.ITK_SESS_SID_SID n) 1 (irqStat_lt_sid n).ne').trans
    (get_put_same _ (F.ITK_SESS_SID_SID n) 0 (by simp [F.ITK_SESS_SID_SID]))

/-- The session's status is not written after it has been closed. -/
theorem endSession_stat {f : Fld} (hf : f.addr = R.ITK_SESS_STAT n) :
    ∃ e : Dev, (d.endSession n).get f = ((e.put (F.ITK_SESS_STAT_STATE n) 0).put (F.ITK_SESS_STAT_UNACKED n) 0).get f :=
  ⟨_, (get_put_ne _ F.ITK_IRQ_STAT_SESSION f 1 (hf ▸ (irqStat_lt_stat n).ne')).trans
    (get_put_ne _ (F.ITK_SESS_SID_SID n) f 0 (hf ▸ (sid_ne_stat n n).symm))⟩

theorem endSession_unacked : (d.endSession n).get (F.ITK_SESS_STAT_UNACKED n) = 0 := by
  obtain ⟨e, he⟩ := endSession_stat d n (f := F.ITK_SESS_STAT_UNACKED n) rfl
  exact he.trans (get_put_same _ (F.ITK_SESS_STAT_UNACKED n) 0 (by simp [F.ITK_SESS_STAT_UNACKED]))

theorem endSession_sessState : (d.endSession n).sessState n = 0 := by
  obtain ⟨e, he⟩ := endSession_stat d n (f := F.ITK_SESS_STAT_STATE n) rfl
  exact he.trans ((sessState_put_unacked _ n 0).trans (get_put_same _ (F.ITK_SESS_STAT_STATE n) 0 (by simp [F.ITK_SESS_STAT_STATE])))

theorem endSession_sess : (d.endSession n).sess n = {} := by
  have hitk : (d.endSession n).itk =
      ((d.onItk fun t => { t with items := t.items.map fun i => if i.finalOn = some n then { i with finalOn := none } else i }).updSess n
        fun _ => {}).itk := rfl
  rw [sess_of_itk hitk]
  exact sess_updSess_of (· = {}) rfl rfl

theorem endSession_slots : (d.endSession n).itk.sess.length = d.itk.sess.length := List.length_modify ..

end

theorem close_ends (s : State) (p : Fin 4) (v6 : Bool) (m : VjpMsg) : Ends (.close p v6 m) s fun e =>
    let d := s.dev
    let n := m.slot
    InTurn d p v6 m → m.type = 3 → m.body = [] →
      Frame d e [R.ITK_SESS_STAT n, R.ITK_SESS_SID n, R.ITK_IRQ_STAT] ∧ e.sessState n = 0 ∧ e.get (F.ITK_SESS_SID_SID n) = 0 ∧
      e.get (F.ITK_SESS_STAT_UNACKED n) = 0 ∧ e.get F.ITK_IRQ_STAT_SESSION = 1 ∧ e.sess n = {} ∧ e.out = d.out := by
  refine ends_of_upd (f := fun d => d.vjpNet p v6 m fun t => t == 0x03) rfl ?_
  intro d n h ht hbody
  have hclose : (d.turn m).vjpProcess n m = (d.turn m).endSession n := by simp [Dev.vjpProcess, vjpKind, ht, hbody]
  have hend : ((d.turn m).endSession n).turnEnd m = (d.turn m).endSession n := by
    rw [Dev.turnEnd, takeHeld_none (by rw [endSession_sess]), endSession_sessState]
    rw [show (bitB m.flags 1 && (0 : Nat) == 1) = false by simp, when_false]
  rw [vjpNet_inTurn h (by omega) (by omega) (by rw [ht]; rfl), hclose, hend]
  exact ⟨((turn_inSession d m).only.1.mono (by simp [n])).trans (endSession_frame _ n), endSession_sessState _ n, endSession_sid _ n,
    endSession_unacked _ n, endSession_line _ n, endSession_sess _ n, (endSession_out _ n).trans (turn_out d m)⟩

/-! ### ACKONLY, and types that are not the host's (R103, R106) -/

theorem vjpUnknownType_ends (s : State) (p : Fin 4) (v6 : Bool) (m : VjpMsg) : Ends (.vjpUnknownType p v6 m) s fun e =>
    let d := s.dev
    let n := m.slot
    InTurn d p v6 m → m.type ∉ [1, 3, 4, 0x10, 0x11, 0x12, 0x13, 0x14, 0x15, 0x18, 0x19] →
      SessionOnly d e n ∧ ResultSent d e n m.seq m.type sUnsupported 0 0 0 0 := by
  refine ends_of_upd (f := fun d => d.vjpNet p v6 m fun t => !([0x01, 0x04, 0x10, 0x11, 0x13].contains t) && (vjpKind t).isNone) rfl ?_
  intro d n h ht
  simp only [List.mem_cons, List.not_mem_nil, or_false, not_or] at ht
  obtain ⟨h1, h3, h4, h10, h11, h12, h13, h14, h15, h18, h19⟩ := ht
  have hkind : vjpKind m.type = none := by
    unfold vjpKind
    split <;> simp_all
  have hun : (d.turn m).vjpProcess n m = (d.turn m).result n m.seq m.type sUnsupported 0 0 0 0 := by
    simp [Dev.vjpProcess, hkind, h10, h11, h13]
  rw [vjpNet_inTurn h h1 h4 (by simp [hkind, h1, h4, h10, h11, h13]), hun]
  exact answered h ..

theorem ackonly_ends (s : State) (p : Fin 4) (v6 : Bool) (m : VjpMsg) : Ends (.ackonly p v6 m) s fun e =>
    let d := s.dev
    let n := m.slot
    let x := d.sess n
    let rto := d.get (F.ITK_SESS_CFG2_RTO n)
    d.netLets p v6 = true → m.type = 4 → vjpFmtOk m = true → d.sessState n = 1 → m.sid = d.get (F.ITK_SESS_SID_SID n) →
      vjpTagOk x.key m = true → n < d.itk.sess.length →
      Frame d e [R.ITK_SESS_STAT n] ∧ e = { d with regs := e.regs, itk := { d.itk with sess := e.itk.sess } } ∧
      (∀ k, k ≠ n → e.sess k = d.sess k) ∧
      e.sess n = if later32 m.ack x.peerAck then
          { x with via := 0xFFFF, lastC := d.c, peerAck := m.ack, peerSack := m.sack, expiries := 0, interval := rto, timerC := d.c,
                   unacked := x.unacked.filter fun q => !(later32 m.ack q.seq) }
        else if m.ack = x.peerAck then { x with via := 0xFFFF, lastC := d.c, peerSack := m.sack }
        else { x with via := 0xFFFF, lastC := d.c } := by
  refine ends_of_upd (f := fun d => d.vjpNet p v6 m fun t => t == 0x04) rfl ?_
  intro d n x rto hnet ht hfmt hopen hsid htag hn
  have hheard : d.vjpNet p v6 m (fun t => t == 0x04) = d.heard m := by
    rw [Dev.vjpNet, hnet, ht]
    exact (vjpIn_heard hnet hfmt hopen hsid htag (by omega)).trans (if_pos ht)
  obtain ⟨hframe, heq, hother⟩ := (heard_inSession d m).only
  rw [hheard]
  refine ⟨hframe, ?_, hother, ?_⟩
  · rw [← heard_out d m]
    exact heq
  · rw [Dev.heard, takeAck_sess _ _ _ (by rwa [updSess_slots]), sess_updSess_same d _ hn]
    rfl

/-! ### OPEN (R101) -/

/-- What a step leaves of session `n` as it was while messages of its own leave: its state, its slot's link, and every register but
the session's status. -/
structure LinkStands (n : Nat) (d e : Dev) : Prop where
  sessState : e.sessState n = d.sessState n
  link : (d.sess n).SameLink (e.sess n)
  get : ∀ f : Fld, f.addr ≠ R.ITK_SESS_STAT n → e.get f = d.get f
  out : d.out <:+ e.out

theorem sendSeq_linkStands {d : Dev} {n : Nat} (h : (d.sess n).via = 0xFFFF) (type : Nat) (body : List Byte) :
    LinkStands n d (d.sendSeq n type body) :=
  have hin := sendSeq_inSession type body h
  ⟨sendSeq_sessState type body h, sendSeq_sameLink type body h, fun _ hf => hin.get hf, hin.out⟩

theorem each_sendSeq_linkStands {α : Type} {n : Nat} (type : Nat) (body : α → List Byte) (l : List α) {d : Dev}
    (h : (d.sess n).via = 0xFFFF) : LinkStands n d (d.each l fun d x => d.sendSeq n type (body x)) := by
  induction l generalizing d with
  | nil => exact ⟨rfl, ⟨rfl, rfl, rfl, rfl⟩, fun _ _ => rfl, List.suffix_rfl⟩
  | cons x l ih =>
    obtain ⟨hstate, hlink, hget, hout⟩ := sendSeq_linkStands h type (body x)
    obtain ⟨kstate, klink, kget, kout⟩ := ih (hlink.via.trans h)
    exact ⟨kstate.trans hstate, ⟨klink.key.trans hlink.key, klink.ack.trans hlink.ack, klink.held.trans hlink.held, klink.via.trans hlink.via⟩,
      fun f hf => (kget f hf).trans (hget f hf), hout.trans kout⟩

/-- EVENTs of recovery that leave on a session leave its link as it was (R126). -/
theorem flushEvents_linkStands {d : Dev} {n : Nat} (h : (d.sess n).via = 0xFFFF) : LinkStands n d (d.flushEvents n) := by
  unfold Dev.flushEvents
  extract_lets mine d1
  split
  · exact ⟨rfl, ⟨rfl, rfl, rfl, rfl⟩, fun _ _ => rfl, List.suffix_rfl⟩
  · obtain ⟨hstate, hlink, hget, hout⟩ : LinkStands n d d1 :=
      each_sendSeq_linkStands 0x22 (fun e : Nat × Nat × Nat × Nat => eventBody e.1 e.2.1 e.2.2.1 e.2.2.2) _ h
    exact ⟨hstate, hlink, hget, hout⟩

/-- The device once OPEN has drawn its free values and ended the session that the slot held. -/
def Dev.openDrawn (d : Dev) (n : Nat) : Dev := ((d.fresh 128).2.fresh 32).2.when (d.sessState n == 1) fun d => d.endSession n

/-- NONCE_D, the SID and the session key that OPEN draws (R81, R101). -/
def Dev.openNonce (d : Dev) : List Byte := leBytes 16 (d.fresh 128).1

def Dev.openSid (d : Dev) : Nat := 1 + ((d.fresh 128).2.fresh 32).1 % (2 ^ 32 - 1)

def Dev.openKey (d : Dev) (k : Key) (m : VjpMsg) : List Byte :=
  kdf k.key (ascii "VJPSES") (m.body.take 16 ++ d.openNonce ++ leBytes 4 d.openSid) 256

/-- The device with the slot open, before OPEN_OK leaves. -/
def Dev.opened (d : Dev) (k : Key) (m : VjpMsg) : Dev :=
  ((((d.openDrawn m.slot).updSess m.slot fun _ => { key := d.openKey k m, via := 0xFFFF, lastC := d.c }).put
    (F.ITK_SESS_STAT_STATE m.slot) 1).put (F.ITK_SESS_SID_SID m.slot) d.openSid).put F.ITK_IRQ_STAT_SESSION 1

/-- An OPEN that passes its checks answers OPEN_OK under the session's own key, and EVENTs of recovery follow (R101, R126). -/
theorem openSess_opens (d : Dev) {m : VjpMsg} {k : Key} (hup : d.running = true ∨ d.st? = stSafe)
    (hk : (d.sec.keys.find? fun k => k.slot == d.get (F.ITK_SESS_CFG_KEYSLOT m.slot) && k.kind == 4 && bitB k.use 1) = some k)
    (hen : d.get (F.ITK_SESS_CFG_ENABLE m.slot) = 1) (htag : vjpTagOk k.key m = true) (hlen : m.body.length = 24)
    (hzero : zeroBytes m.body 16 8 = true) :
    d.openSess 0xFFFF m =
      ((d.opened k m).wire m.slot 2 0 0 (leBytes 1 sOk ++ leBytes 3 0 ++ leBytes 4 d.openSid ++ d.openNonce)).flushEvents m.slot := by
  unfold Dev.openSess
  extract_lets n
  rw [if_neg (by simpa [or_iff_not_imp_left] using hup), hk]
  dsimp only
  rw [if_neg (by simp [n, hen, htag]), if_neg (by simp [hlen, hzero])]
  rfl

/-- An OPEN whose key is not there, whose slot is off, or whose TAG does not hold is dropped (R99, R101). -/
theorem openSess_noKey (d : Dev) {m : VjpMsg} (hup : d.running = true ∨ d.st? = stSafe)
    (hk : (d.sec.keys.find? fun k => k.slot == d.get (F.ITK_SESS_CFG_KEYSLOT m.slot) && k.kind == 4 && bitB k.use 1) = none) :
    d.openSess 0xFFFF m = d.authDrop := by
  unfold Dev.openSess
  extract_lets n
  rw [if_neg (by simpa [or_iff_not_imp_left] using hup), hk]

theorem openSess_denied (d : Dev) {m : VjpMsg} {k : Key} (hup : d.running = true ∨ d.st? = stSafe)
    (hk : (d.sec.keys.find? fun k => k.slot == d.get (F.ITK_SESS_CFG_KEYSLOT m.slot) && k.kind == 4 && bitB k.use 1) = some k)
    (h : d.get (F.ITK_SESS_CFG_ENABLE m.slot) = 0 ∨ vjpTagOk k.key m = false) : d.openSess 0xFFFF m = d.authDrop := by
  unfold Dev.openSess
  extract_lets n
  rw [if_neg (by simpa [or_iff_not_imp_left] using hup), hk]
  dsimp only
  rw [if_pos (by simpa [n] using h)]

section
variable (d : Dev) (k : Key) (m : VjpMsg)

theorem openDrawn_out (n : Nat) : (d.openDrawn n).out = d.out := when_keeps _ Dev.out _ _ fun _ => rfl

theorem openDrawn_slots (n : Nat) : (d.openDrawn n).itk.sess.length = d.itk.sess.length :=
  when_keeps _ (fun d => d.itk.sess.length) _ _ fun d => endSession_slots d n

theorem openSid_lt : d.openSid < 2 ^ 32 := by
  have h : ((d.fresh 128).2.fresh 32).1 % (2 ^ 32 - 1) < 2 ^ 32 - 1 := Nat.mod_lt _ (by norm_num)
  unfold Dev.openSid
  omega

theorem opened_out : (d.opened k m).out = d.out := openDrawn_out d m.slot

theorem opened_line : (d.opened k m).get F.ITK_IRQ_STAT_SESSION = 1 := get_put_same _ F.ITK_IRQ_STAT_SESSION 1 (by decide)

theorem opened_sid : (d.opened k m).get (F.ITK_SESS_SID_SID m.slot) = d.openSid := by
  refine (get_put_ne _ F.ITK_IRQ_STAT_SESSION (F.ITK_SESS_SID_SID m.slot) 1 (irqStat_lt_sid _).ne').trans ?_
  rw [get_put_same _ _ _ (by simp [F.ITK_SESS_SID_SID])]
  exact Nat.mod_eq_of_lt (openSid_lt d)

theorem opened_sessState : (d.opened k m).sessState m.slot = 1 := by
  refine (get_put_ne _ F.ITK_IRQ_STAT_SESSION (F.ITK_SESS_STAT_STATE m.slot) 1 (irqStat_lt_stat _).ne').trans ?_
  refine (get_put_ne _ (F.ITK_SESS_SID_SID m.slot) (F.ITK_SESS_STAT_STATE m.slot) _ (sid_ne_stat _ _).symm).trans ?_
  exact get_put_same _ _ _ (by simp [F.ITK_SESS_STAT_STATE])

theorem opened_itk : (d.opened k m).itk =
    ((d.openDrawn m.slot).updSess m.slot fun _ => { key := d.openKey k m, via := 0xFFFF, lastC := d.c }).itk := rfl

theorem opened_via : ((d.opened k m).sess m.slot).via = 0xFFFF := by
  rw [sess_of_itk (opened_itk d k m)]
  exact sess_updSess_of (fun s => s.via = 0xFFFF) rfl rfl

theorem opened_sess (hn : m.slot < d.itk.sess.length) :
    (d.opened k m).sess m.slot = { key := d.openKey k m, via := 0xFFFF, lastC := d.c } := by
  rw [sess_of_itk (opened_itk d k m), sess_updSess_same _ _ (by rwa [openDrawn_slots])]

end

theorem vjpOpen_ends (s : State) (p : Fin 4) (v6 : Bool) (m : VjpMsg) : Ends (.vjpOpen p v6 m) s fun e =>
    let d := s.dev
    let n := m.slot
    let r0 := Config.freeValue d.freeCtr % 2 ^ 128
    let sid := 1 + Config.freeValue (d.freeCtr + 1) % 2 ^ 32 % (2 ^ 32 - 1)
    let nd := leBytes 16 r0
    d.netLets p v6 = true → m.type = 1 → vjpFmtOk m = true → (d.running = true ∨ d.st? = stSafe) →
      match d.sec.keys.find? fun k => k.slot == d.get (F.ITK_SESS_CFG_KEYSLOT n) && k.kind == 4 && bitB k.use 1 with
      | none => Frame d e [R.ITK_DROP_AUTH, R.ITK_IRQ_STAT] ∧ e.get F.ITK_IRQ_STAT_AUTHDROP = 1
      | some k =>
        (d.get (F.ITK_SESS_CFG_ENABLE n) = 0 ∨ vjpTagOk k.key m = false →
          Frame d e [R.ITK_DROP_AUTH, R.ITK_IRQ_STAT] ∧ e.get F.ITK_IRQ_STAT_AUTHDROP = 1) ∧
        (d.get (F.ITK_SESS_CFG_ENABLE n) = 1 → vjpTagOk k.key m = true → m.body.length = 24 → zeroBytes m.body 16 8 = true →
          e.sessState n = 1 ∧ e.get (F.ITK_SESS_SID_SID n) = sid ∧ e.get F.ITK_IRQ_STAT_SESSION = 1 ∧
          (n < d.itk.sess.length → (e.sess n).key = kdf k.key (ascii "VJPSES") (m.body.take 16 ++ nd ++ leBytes 4 sid) 256 ∧
            (e.sess n).ack = 1 ∧ (e.sess n).held = []) ∧
          (n, 2, leBytes 1 sOk ++ leBytes 3 0 ++ leBytes 4 sid ++ nd) ∈ sentVjp d e) := by
  refine ends_of_upd (f := fun d => d.vjpNet p v6 m fun t => t == 0x01) rfl ?_
  intro d n r0 sid nd hnet ht hfmt hup
  have hitk : d.itkUp = true := by
    simp only [Dev.netLets, Bool.and_eq_true] at hnet
    exact hnet.1.1
  have hopen : d.vjpNet p v6 m (fun t => t == 0x01) = d.openSess 0xFFFF m := by simp [Dev.vjpNet, Dev.vjpIn, hnet, ht, hitk, hfmt]
  rw [hopen]
  split
  · next hk =>
    rw [openSess_noKey d hup hk]
    exact authDrop_counted d
  · next k hk =>
    refine ⟨fun hbad => openSess_denied d hup hk hbad ▸ authDrop_counted d, fun hen htag hlen hzero => ?_⟩
    rw [openSess_opens d hup hk hen htag hlen hzero]
    have hvia := opened_via d k m
    have hbody : leBytes 1 sOk ++ leBytes 3 0 ++ leBytes 4 d.openSid ++ d.openNonce = leBytes 1 sOk ++ leBytes 3 0 ++ leBytes 4 sid ++ nd := rfl
    rw [hbody]
    generalize leBytes 1 sOk ++ leBytes 3 0 ++ leBytes 4 sid ++ nd = body
    obtain ⟨w, hw⟩ : ∃ w, w = (d.opened k m).wire n 2 0 0 body := ⟨_, rfl⟩
    have hsess : w.sess n = (d.opened k m).sess n := hw ▸ wire_sess 2 0 0 body hvia n
    have hwin : InSession n (d.opened k m) w := hw ▸ wire_inSession 2 0 0 body hvia
    have hsent : Sent (d.opened k m) w n 2 body := hw ▸ wire_sent 2 0 0 body hvia
    obtain ⟨hstate, hlink, hget, hout⟩ := flushEvents_linkStands (n := n) (hsess ▸ hvia : (w.sess n).via = 0xFFFF)
    rw [← hw]
    refine ⟨?_, ?_, ?_, fun hn => ?_, (hsent.later hout).mem_sentVjp (opened_out d k m ▸ List.suffix_rfl)⟩
    · rw [hstate, hw, wire_sessState _ _ _ _ hvia]
      exact opened_sessState d k m
    · rw [hget _ (sid_ne_stat n n), hwin.get (sid_ne_stat n n)]
      exact opened_sid d k m
    · rw [hget _ (irqStat_lt_stat n).ne, hwin.get (irqStat_lt_stat n).ne]
      exact opened_line d k m
    · rw [hlink.key, hlink.ack, hlink.held, hsess, opened_sess d k m hn]
      exact ⟨rfl, rfl, rfl⟩

/-- Settles O25, datagram by datagram. -/
theorem sessionMessages : Obligations.SessionMessages :=
  ⟨vjpMalformed_ends, vjpOpen_ends, close_ends, ackonly_ends, vjpUnknownType_ends⟩

end Sys2Proof.Machine
end

section
/-! What ITK does of itself (R102 to R104, R108, R116, R119): acknowledgements, retransmission, idle sessions, waiting messages, pages,
FINALs and kept refusals. -/

namespace Sys2Proof.Machine

/-! ### What a message changes, whatever carries it (R104, R412) -/

/-- The registers that a message over the fabric may change: the count of what is dropped for want of a route, and its line (R410). -/
def fabDropRegs : List Nat := [R.PGF_DROP, R.PGF_IRQ_STAT]

/-- A message has left the part over Ethernet or over the fabric: ITK, the clock and the other registers stand. -/
structure Carried (d e : Dev) : Prop where
  itk : e.itk = d.itk
  c : e.c = d.c
  frame : Frame d e fabDropRegs

theorem Carried.refl (d : Dev) : Carried d d := ⟨rfl, rfl, .refl _ _⟩

theorem Carried.trans {d e f : Dev} (h : Carried d e) (k : Carried e f) : Carried d f :=
  ⟨k.itk.trans h.itk, k.c.trans h.c, h.frame.trans k.frame⟩

theorem Carried.each {α : Type} (l : List α) {f : Dev → α → Dev} (h : ∀ d x, Carried d (f d x)) (d : Dev) : Carried d (d.each l f) := by
  induction l generalizing d with
  | nil => exact .refl d
  | cons x l ih => exact (h d x).trans (ih _)

theorem carried_fabDrop (d : Dev) : Carried d (d.fabDrop F.PGF_DROP_NOROUTE) := by
  have hcount : Carried d (d.incSat F.PGF_DROP_NOROUTE) :=
    ⟨rfl, rfl, frame_incSat d F.PGF_DROP_NOROUTE _ List.mem_cons_self⟩
  have hpgf (e : Dev) (f : PgfSt → PgfSt) : Carried e (e.onPgf f) := ⟨rfl, rfl, ⟨fun a _ => onPgf_rd e f a, onPgf_ldB e f⟩⟩
  have hline (e : Dev) : Carried e ((e.put F.PGF_IRQ_STAT_DROP 1).report 157) :=
    ⟨report_itk _ _ _, report_c _ _ _,
      (frame_put e F.PGF_IRQ_STAT_DROP 1 fabDropRegs (List.mem_cons_of_mem _ List.mem_cons_self)).trans (frame_report _ _ _ _)⟩
  unfold Dev.fabDrop
  extract_lets c same n c0 d1
  have hd1 : Carried d d1 := hcount.trans (hpgf _ _)
  cases n == 1001
  · exact hd1
  · exact hd1.trans (hline d1)

theorem carried_fabUnicast (d : Dev) (cls ptype dst : Nat) (payload : List Byte) : Carried d (d.fabUnicast cls ptype dst payload) := by
  unfold Dev.fabUnicast
  extract_lets e
  split
  · unfold Dev.fabQueue
    cases d.fportUp e
    · exact .refl d
    · exact ⟨rfl, rfl, ⟨fun a _ => onPgf_rd d _ a, onPgf_ldB d _⟩⟩
  · exact carried_fabDrop d

theorem carried_wire (d : Dev) (n type seq flags : Nat) (body : List Byte) : Carried d (d.wire n type seq flags body) := by
  unfold Dev.wire
  extract_lets s m
  split
  · exact ⟨rfl, rfl, frame_emit _ _ _⟩
  · exact carried_fabUnicast d _ _ _ _

/-- The registers of a session slot are not the fabric's. -/
theorem sessStat_not_fabDrop {n : Nat} (hn : n < 8) : R.ITK_SESS_STAT n ∉ fabDropRegs := by
  simp only [fabDropRegs, R.ITK_SESS_STAT, R.PGF_DROP, R.PGF_IRQ_STAT, List.mem_cons, List.not_mem_nil, or_false]
  omega

/-- Nothing has changed but that messages have left. -/
structure OnlySent (d e : Dev) : Prop where
  eq : e = { d with out := e.out }
  out : d.out <:+ e.out

theorem OnlySent.refl (d : Dev) : OnlySent d d := ⟨rfl, List.suffix_rfl⟩

theorem OnlySent.trans {d e f : Dev} (h : OnlySent d e) (k : OnlySent e f) : OnlySent d f :=
  ⟨by rw [k.eq, h.eq], h.out.trans k.out⟩

theorem OnlySent.itk {d e : Dev} (h : OnlySent d e) : e.itk = d.itk := by rw [h.eq]

theorem wire_onlySent {d : Dev} {n : Nat} (h : (d.sess n).via = 0xFFFF) (type seq flags : Nat) (body : List Byte) :
    OnlySent d (d.wire n type seq flags body) := by
  obtain ⟨m, -, hm⟩ := wire_ethernet h type seq flags body
  rw [hm]
  exact ⟨rfl, List.suffix_cons _ _⟩

/-- Messages of a session over Ethernet, one after the other: each has left (R104). -/
theorem each_wire_sent {n : Nat} (flags : Nat) (l : List TxMsg) {d : Dev} (h : (d.sess n).via = 0xFFFF) :
    OnlySent d (d.each l fun d q => d.wire n q.type q.seq flags q.body) ∧
      ∀ c : Dev, c.out <:+ d.out → ∀ q ∈ l, (n, q.type, q.body) ∈ sentVjp c (d.each l fun d q => d.wire n q.type q.seq flags q.body) := by
  induction l generalizing d with
  | nil => exact ⟨.refl d, fun _ _ q hq => absurd hq List.not_mem_nil⟩
  | cons x l ih =>
    have hx := wire_onlySent h x.type x.seq flags x.body
    obtain ⟨honly, hsent⟩ := ih (d := d.wire n x.type x.seq flags x.body) (by rwa [sess_of_itk hx.itk])
    refine ⟨hx.trans honly, fun c hc q hq => ?_⟩
    rcases List.mem_cons.mp hq with rfl | hq
    · exact ((wire_sent _ _ _ _ h).later honly.out).mem_sentVjp hc
    · exact hsent c (hc.trans hx.out) q hq

/-! ### The timers of a session (R102 to R104) -/

/-- The slot once an acknowledgement has left. -/
def Sess.answered (s : Sess) : Sess := { s with ackDue := false }

theorem ackOnly_eq (d : Dev) (n : Nat) : ∃ seq, d.ackOnly n = (d.updSess n Sess.answered).wire n 4 seq 0 [] := ⟨_, rfl⟩

theorem ackTimer_ends (s : State) (n : Fin 8) : Ends (.ackTimer n) s fun e =>
    let d := s.dev
    if d.sessState n = 1 ∧ (d.sess n).ackDue = true then
      (∀ a, e.ldB a = d.ldB a) ∧ e.itk.sess = upd d.itk.sess n (fun x => { x with ackDue := false }) ∧
      ((d.sess n).via = 0xFFFF → e = { d with itk := e.itk, out := e.out } ∧ (n.val, 4, []) ∈ sentVjp d e)
    else e = d := by
  refine ends_of_upd (f := fun d => d.when (d.sessState n == 1 && (d.sess n).ackDue) fun d => d.ackOnly n) rfl ?_
  intro d
  split_ifs with h
  · have hb : (d.sessState n == 1 && (d.sess n).ackDue) = true := by simpa using h
    obtain ⟨seq, heq⟩ := ackOnly_eq d n
    rw [hb, when_true, heq]
    have hcarried := carried_wire (d.updSess n Sess.answered) n 4 seq 0 []
    refine ⟨fun a => hcarried.frame.mem a, by rw [hcarried.itk]; rfl, fun hvia => ?_⟩
    have hvia1 : ((d.updSess n Sess.answered).sess n).via = 0xFFFF := (sess_updSess_keeps Sess.via d n (f := Sess.answered) fun _ => rfl).trans hvia
    obtain ⟨honly, -⟩ := wire_onlySent hvia1 4 seq 0 []
    refine ⟨?_, (wire_sent 4 seq 0 [] hvia1).mem_sentVjp List.suffix_rfl⟩
    rw [honly]
    rfl
  · have hb : (d.sessState n == 1 && (d.sess n).ackDue) = false := Bool.eq_false_iff.mpr fun hb => h (by simpa using hb)
    rw [hb, when_false]

/-- The peer's SACK shows a message as received (R98, R104). -/
def Sess.shows (x : Sess) (q : TxMsg) : Bool :=
  let i := (q.seq + 2 ^ 32 - x.peerAck - 1) % 2 ^ 32
  i < 32 && bitB x.peerSack i

/-- The slot after an expiry that does not lose the session, at time `now` (R104). -/
def Sess.backedOff (x : Sess) (now : Nat) (y : Sess) : Sess :=
  { y with expiries := y.expiries + 1, interval := min 64 (2 * x.interval), timerC := now, ackDue := false }

/-- The device once the tenth expiry in a row has lost a session (R104). -/
def Dev.loseSession (d : Dev) (n : Nat) : Dev := ((d.endSession n).put (F.ITK_SESS_STAT_STATE n) 2).report 44

/-- The device once an expiry has resent what the peer's SACK does not show (R104). -/
def Dev.resend (d : Dev) (n : Nat) (x : Sess) : Dev :=
  (d.updSess n (x.backedOff d.c)).each (x.unacked.filter fun q => !(x.shows q)) fun d q => d.wire n q.type q.seq 1 q.body

/-- RETRANSMIT_TIMER by its two outcomes. -/
def Dev.retransmit (d : Dev) (n : Nat) : Dev :=
  let x := d.sess n
  if d.sessState n ≠ 1 ∨ x.unacked = [] then d
  else
    let d1 := d.atTime (x.timerC + x.interval * 1000000)
    if 10 ≤ x.expiries + 1 then d1.loseSession n else d1.resend n x

theorem retransmit_idle {d : Dev} {n : Nat} (h : d.sessState n ≠ 1 ∨ (d.sess n).unacked = []) : d.retransmit n = d := if_pos h

theorem retransmit_lost {d : Dev} {n : Nat} (h : ¬ (d.sessState n ≠ 1 ∨ (d.sess n).unacked = [])) (hlost : 9 ≤ (d.sess n).expiries) :
    d.retransmit n = (d.atTime ((d.sess n).timerC + (d.sess n).interval * 1000000)).loseSession n :=
  (if_neg h).trans (if_pos (Nat.succ_le_succ hlost))

theorem retransmit_resent {d : Dev} {n : Nat} (h : ¬ (d.sessState n ≠ 1 ∨ (d.sess n).unacked = [])) (hheld : (d.sess n).expiries < 9) :
    d.retransmit n = (d.atTime ((d.sess n).timerC + (d.sess n).interval * 1000000)).resend n (d.sess n) :=
  (if_neg h).trans (if_neg (by omega))

theorem execRetransmitTimer_eq (n : Fin 8) (s : State) : exec (.retransmitTimer n) s = s.upd fun d => d.retransmit n := rfl

theorem loseSession_shown (d : Dev) (n : Nat) :
    (d.loseSession n).c = d.c ∧ (d.loseSession n).sessState n = 2 ∧ (d.loseSession n).get (F.ITK_SESS_SID_SID n) = 0 ∧
      (d.loseSession n).get F.ITK_IRQ_STAT_SESSION = 1 ∧ Reports d (d.loseSession n) [44] := by
  unfold Dev.loseSession
  refine ⟨report_c _ _ _, ?_, ?_, ?_, report_srcs _ _ _⟩
  · rw [Dev.sessState, report_get]
    exact get_put_same _ (F.ITK_SESS_STAT_STATE n) 2 (by simp [F.ITK_SESS_STAT_STATE])
  · rw [report_get, get_put_ne _ (F.ITK_SESS_STAT_STATE n) (F.ITK_SESS_SID_SID n) 2 (sid_ne_stat n n)]
    exact endSession_sid d n
  · rw [report_get, get_put_ne _ (F.ITK_SESS_STAT_STATE n) F.ITK_IRQ_STAT_SESSION 2 (irqStat_lt_stat n).ne]
    exact endSession_line d n

/-- Only the slot at `n` matters to a change of it. -/
theorem upd_congr {l : List Sess} {n : Nat} {f g : Sess → Sess} (h : f (nth l n {}) = g (nth l n {})) : upd l n f = upd l n g := by
  unfold upd
  refine List.ext_getElem? fun i => ?_
  rw [List.getElem?_modify, List.getElem?_modify]
  rcases eq_or_ne n i with rfl | hne
  · cases hl : l[n]? with
    | none => rfl
    | some y => simpa [nth, hl] using h
  · simp [hne]

theorem resend_carried (d : Dev) (n : Nat) (x : Sess) : Carried (d.updSess n (x.backedOff d.c)) (d.resend n x) := by
  have hsend (d : Dev) (q : TxMsg) : Carried d (d.wire n q.type q.seq 1 q.body) := carried_wire d n q.type q.seq 1 q.body
  exact .each _ hsend _

theorem resend_sent (d : Dev) (n : Nat) (hvia : (d.sess n).via = 0xFFFF) :
    d.resend n (d.sess n) = { d with itk := { d.itk with sess := (d.resend n (d.sess n)).itk.sess }, out := (d.resend n (d.sess n)).out } ∧
      ∀ q ∈ (d.sess n).unacked, (d.sess n).shows q = false → (n, q.type, q.body) ∈ sentVjp d (d.resend n (d.sess n)) := by
  obtain ⟨x, hx⟩ : ∃ x, x = d.sess n := ⟨_, rfl⟩
  rw [← hx]
  have hvia1 : ((d.updSess n (x.backedOff d.c)).sess n).via = 0xFFFF :=
    (sess_updSess_keeps Sess.via d n (f := x.backedOff d.c) fun _ => rfl).trans hvia
  obtain ⟨honly, hsent⟩ := each_wire_sent 1 (x.unacked.filter fun q => !(x.shows q)) hvia1
  refine ⟨?_, fun q hq hshown => hsent d List.suffix_rfl q (List.mem_filter.mpr ⟨hq, by simp [hshown]⟩)⟩
  have hout : d.resend n x = { d.updSess n (x.backedOff d.c) with out := (d.resend n x).out } := honly.eq
  rw [hout]
  rfl

theorem retransmitTimer_ends (s : State) (n : Fin 8) : Ends (.retransmitTimer n) s fun e =>
    let d := s.dev
    let x := d.sess n
    let shown (q : TxMsg) : Bool :=
      let i := (q.seq + 2 ^ 32 - x.peerAck - 1) % 2 ^ 32
      i < 32 && bitB x.peerSack i
    if d.sessState n ≠ 1 ∨ x.unacked = [] then e = d
    else
      e.c = max d.c (x.timerC + x.interval * 1000000) % 2 ^ 64 ∧
      (9 ≤ x.expiries → e.sessState n = 2 ∧ e.get (F.ITK_SESS_SID_SID n) = 0 ∧ e.get F.ITK_IRQ_STAT_SESSION = 1 ∧ Reports d e [44]) ∧
      (x.expiries < 9 → e.itk.sess = upd d.itk.sess n (fun y =>
          { y with expiries := x.expiries + 1, interval := min 64 (2 * x.interval), timerC := e.c, ackDue := false }) ∧
        (x.via = 0xFFFF → e = { d with c := e.c, itk := { d.itk with sess := e.itk.sess }, out := e.out } ∧
          ∀ q ∈ x.unacked, shown q = false → (n.val, q.type, q.body) ∈ sentVjp d e)) := by
  refine ends_of_upd (execRetransmitTimer_eq n s) ?_
  intro d x shown
  split_ifs with hidle
  · rw [retransmit_idle hidle]
  obtain ⟨d1, hd1⟩ : ∃ d1, d1 = d.atTime (x.timerC + x.interval * 1000000) := ⟨_, rfl⟩
  have hc : d1.c = max d.c (x.timerC + x.interval * 1000000) % 2 ^ 64 := by rw [hd1, atTime_c]
  rcases Nat.lt_or_ge x.expiries 9 with hheld | hlost
  · have hcarried := resend_carried d1 n x
    rw [retransmit_resent hidle hheld, ← hd1]
    refine ⟨hcarried.c.trans hc, fun h => absurd h (by omega), fun _ => ⟨?_, fun hvia => ?_⟩⟩
    · rw [hcarried.itk, hcarried.c, hd1]
      exact upd_congr rfl
    · have hx : d1.sess n = x := by
        rw [hd1]
        rfl
      obtain ⟨heq, hsent⟩ := resend_sent d1 n (by rw [hx]; exact hvia)
      rw [hx] at heq hsent
      have hout : d1.out = d.out := by rw [hd1, atTime_out]
      rw [sentVjp, ← hout]
      refine ⟨?_, hsent⟩
      rw [hcarried.c]
      exact heq.trans (by rw [hd1]; rfl)
  · obtain ⟨hlc, hstate, hsid, hline, hrep⟩ := loseSession_shown d1 n
    rw [retransmit_lost hidle hlost, ← hd1]
    exact ⟨hlc.trans hc, fun _ => ⟨hstate, hsid, hline, by rw [hd1] at hrep ⊢; exact hrep⟩, fun h => absurd h (by omega)⟩

theorem sessionIdle_ends (s : State) (n : Fin 8) : Ends (.sessionIdle n) s fun e =>
    let d := s.dev
    if d.sessState n = 1 then
      e.c = max d.c ((d.sess n).lastC + d.get (F.ITK_SESS_CFG2_IDLE n) * 100000000) % 2 ^ 64 ∧
      Frame d e [R.ITK_SESS_STAT n, R.ITK_SESS_SID n, R.ITK_IRQ_STAT] ∧ e.sessState n = 0 ∧ e.get (F.ITK_SESS_SID_SID n) = 0 ∧
      e.get F.ITK_IRQ_STAT_SESSION = 1 ∧ e.sess n = {} ∧ e.out = d.out
    else e = d := by
  refine ends_of_upd (f := fun d => d.when (d.sessState n == 1) fun d =>
    (d.atTime ((d.sess n).lastC + d.get (F.ITK_SESS_CFG2_IDLE n) * 100000000)).endSession n) rfl ?_
  intro d
  split_ifs with h
  · rw [beq_iff_eq.mpr h, when_true]
    obtain ⟨d1, hd1⟩ : ∃ d1, d1 = d.atTime ((d.sess n).lastC + d.get (F.ITK_SESS_CFG2_IDLE n) * 100000000) := ⟨_, rfl⟩
    have hframe : Frame d d1 [R.ITK_SESS_STAT n, R.ITK_SESS_SID n, R.ITK_IRQ_STAT] := by
      rw [hd1]
      exact ⟨fun a _ => atTime_rd _ _ a, atTime_ldB _ _⟩
    rw [← hd1]
    refine ⟨?_, hframe.trans (endSession_frame _ n), endSession_sessState _ n, endSession_sid _ n, endSession_line _ n,
      endSession_sess _ n, ?_⟩
    · rw [endSession_c, hd1, atTime_c]
    · rw [endSession_out, hd1, atTime_out]
  · rw [beq_false_of_ne h, when_false]

/-- The slot once its first waiting message has left (R104). -/
def Sess.unqueued (x : Sess) (m : TxMsg) (r : List TxMsg) (c : Nat) (y : Sess) : Sess :=
  { y with waiting := r, unacked := y.unacked ++ [m], ackDue := false, timerC := if x.unacked = [] then c else x.timerC }

/-- The device once the first waiting message of a session has left. -/
def Dev.unqueue (d : Dev) (n : Nat) (m : TxMsg) (r : List TxMsg) : Dev :=
  ((d.updSess n ((d.sess n).unqueued m r d.c)).put (F.ITK_SESS_STAT_UNACKED n) ((d.sess n).unacked.length + 1)).wire n m.type m.seq 0 m.body

/-- QUEUED_MESSAGE_SEND. -/
def Dev.sendQueued (d : Dev) (n : Nat) : Dev :=
  match (d.sess n).waiting with
  | [] => d
  | m :: r => if d.sessState n ≠ 1 ∨ 256 ≤ (d.sess n).unacked.length then d else d.unqueue n m r

section
variable {d : Dev} {n : Nat} {m : TxMsg} {r : List TxMsg}

theorem sendQueued_none (h : (d.sess n).waiting = []) : d.sendQueued n = d := by rw [Dev.sendQueued, h]

theorem sendQueued_first (h : (d.sess n).waiting = m :: r) (hroom : d.sessState n = 1 ∧ (d.sess n).unacked.length < 256) :
    d.sendQueued n = d.unqueue n m r := by
  rw [Dev.sendQueued, h]
  exact if_neg (by omega)

theorem sendQueued_shut (h : (d.sess n).waiting = m :: r) (hshut : ¬ (d.sessState n = 1 ∧ (d.sess n).unacked.length < 256)) :
    d.sendQueued n = d := by
  rw [Dev.sendQueued, h]
  exact if_pos (by omega)

end

theorem execQueuedMessageSend_eq (n : Fin 8) (s : State) : exec (.queuedMessageSend n) s = s.upd fun d => d.sendQueued n := rfl

theorem unqueue_unacked (d : Dev) {n : Nat} (hn : n < 8) (m : TxMsg) (r : List TxMsg) (hroom : (d.sess n).unacked.length < 256) :
    (d.unqueue n m r).get (F.ITK_SESS_STAT_UNACKED n) = (d.sess n).unacked.length + 1 := by
  unfold Dev.unqueue
  rw [(carried_wire _ _ _ _ _ _).frame.get (f := F.ITK_SESS_STAT_UNACKED n) (sessStat_not_fabDrop hn),
    get_put_same _ (F.ITK_SESS_STAT_UNACKED n) _ (by simp [F.ITK_SESS_STAT_UNACKED])]
  exact Nat.mod_eq_of_lt (show _ < 2 ^ 9 by omega)

theorem unqueue_sess (d : Dev) (n : Nat) (m : TxMsg) (r : List TxMsg) :
    (d.unqueue n m r).itk.sess = upd d.itk.sess n ((d.sess n).unqueued m r d.c) := by
  unfold Dev.unqueue
  rw [(carried_wire _ _ _ _ _ _).itk]
  rfl

theorem unqueue_sent (d : Dev) (n : Nat) (m : TxMsg) (r : List TxMsg) (hvia : (d.sess n).via = 0xFFFF) :
    Frame d (d.unqueue n m r) [R.ITK_SESS_STAT n] ∧ Sent d (d.unqueue n m r) n m.type m.body := by
  have hvia1 : ((d.updSess n ((d.sess n).unqueued m r d.c)).sess n).via = 0xFFFF :=
    (sess_updSess_keeps Sess.via d n (f := (d.sess n).unqueued m r d.c) fun _ => rfl).trans hvia
  obtain ⟨d1, hd1⟩ : ∃ d1, d1 = (d.updSess n ((d.sess n).unqueued m r d.c)).put (F.ITK_SESS_STAT_UNACKED n) ((d.sess n).unacked.length + 1) :=
    ⟨_, rfl⟩
  have hin : InSession n d d1 := hd1 ▸ ((InSession.refl n d).updSess _).put rfl _
  have hvia2 : (d1.sess n).via = 0xFFFF := by
    rw [hd1]
    exact hvia1
  have hout : d.out = d1.out := by
    rw [hd1]
    rfl
  unfold Dev.unqueue
  rw [← hd1]
  obtain ⟨hframe, -, -⟩ := (hin.trans (wire_inSession m.type m.seq 0 m.body hvia2)).only
  obtain ⟨seq, b, hbody, hs⟩ := wire_sent m.type m.seq 0 m.body hvia2
  exact ⟨hframe, seq, b, hbody, by rwa [hout]⟩

theorem queuedMessageSend_ends (s : State) (n : Fin 8) : Ends (.queuedMessageSend n) s fun e =>
    let d := s.dev
    let x := d.sess n
    match x.waiting with
    | [] => e = d
    | m :: r =>
      if d.sessState n = 1 ∧ x.unacked.length < 256 then
        e.get (F.ITK_SESS_STAT_UNACKED n) = x.unacked.length + 1 ∧
        e.itk.sess = upd d.itk.sess n (fun y => { y with
          waiting := r, unacked := y.unacked ++ [m], ackDue := false, timerC := if x.unacked = [] then d.c else x.timerC }) ∧
        (x.via = 0xFFFF → Frame d e [R.ITK_SESS_STAT n] ∧ (n.val, m.type, m.body) ∈ sentVjp d e)
      else e = d := by
  refine ends_of_upd (execQueuedMessageSend_eq n s) ?_
  intro d x
  split
  · next h => rw [sendQueued_none h]
  · next m r h =>
    by_cases hroom : d.sessState n = 1 ∧ x.unacked.length < 256
    · rw [if_pos hroom, sendQueued_first h hroom]
      refine ⟨unqueue_unacked d n.isLt m r hroom.2, unqueue_sess d n m r, fun hvia => ?_⟩
      obtain ⟨hframe, hsent⟩ := unqueue_sent d n m r hvia
      exact ⟨hframe, hsent.mem_sentVjp List.suffix_rfl⟩
    · rw [if_neg hroom, sendQueued_shut h hroom]

/-! ### Pages and kept refusals (R108, R119) -/

/-- PAGE_FREE. -/
def Dev.freePage (d : Dev) (pg : Nat) : Dev :=
  match d.page? pg with
  | none => d
  | some x =>
    d.when (!(d.itk.items.any (fun i => i.live && i.page == x.page) || d.itk.receiving.any fun r => r.item.page == x.page)) fun d =>
      (d.atTime (x.since + d.get F.ITK_PAGECFG_HOLD * 1000000)).onItk fun t => { t with pages := t.pages.filter fun y => y.page != x.page }

theorem execPageFree_eq (pg : Fin 65536) (s : State) : exec (.pageFree pg) s = s.upd fun d => d.freePage pg := rfl

theorem pageFree_ends (s : State) (pg : Fin 65536) : Ends (.pageFree pg) s fun e =>
    let d := s.dev
    match d.page? pg with
    | none => e = d
    | some x =>
      if (d.itk.items.any fun i => i.live && i.page == x.page) = true ∨ (d.itk.receiving.any fun r => r.item.page == x.page) = true then e = d
      else
        e = { d with c := e.c, itk := { d.itk with pages := d.itk.pages.filter fun y => y.page != x.page } } ∧
        e.c = max d.c (x.since + d.get F.ITK_PAGECFG_HOLD * 1000000) % 2 ^ 64 := by
  refine ends_of_upd (execPageFree_eq pg s) ?_
  intro d
  have hfree : s.dev.freePage pg = d.freePage pg := rfl
  rw [hfree]
  unfold Dev.freePage
  cases d.page? pg with
  | none => rfl
  | some x =>
    dsimp only
    split_ifs with hnamed
    · rw [(Bool.or_eq_true _ _).mpr hnamed]
      rfl
    · rw [Bool.eq_false_iff.mpr fun h => hnamed ((Bool.or_eq_true _ _).mp h)]
      exact ⟨rfl, rfl⟩

/-- REFUSAL_HOLD_EXPIRY. -/
def Dev.dropRefusal (d : Dev) (link id : Nat) : Dev :=
  match d.itk.refusals.find? fun x => x.1 == link && x.2.1 == id with
  | none => d
  | some r => (d.atTime (r.2.2 + 10000000000)).onItk fun t => { t with refusals := t.refusals.filter fun x => x != r }

theorem execRefusalHoldExpiry_eq (link id : Nat) (s : State) : exec (.refusalHoldExpiry link id) s = s.upd fun d => d.dropRefusal link id := rfl

theorem refusalHoldExpiry_ends (s : State) (link id : Nat) : Ends (.refusalHoldExpiry link id) s fun e =>
    let d := s.dev
    match d.itk.refusals.find? fun x => x.1 == link && x.2.1 == id with
    | none => e = d
    | some r => e = { d with c := e.c, itk := { d.itk with refusals := d.itk.refusals.filter fun x => x ≠ r } } ∧
        e.c = max d.c (r.2.2 + 10000000000) % 2 ^ 64 := by
  refine ends_of_upd (execRefusalHoldExpiry_eq link id s) ?_
  intro d
  have hdrop : s.dev.dropRefusal link id = d.dropRefusal link id := rfl
  rw [hdrop]
  unfold Dev.dropRefusal
  cases d.itk.refusals.find? fun x => x.1 == link && x.2.1 == id with
  | none => rfl
  | some r =>
    have hfilter : (d.itk.refusals.filter fun x => x ≠ r) = d.itk.refusals.filter fun x => x != r :=
      List.filter_congr fun x _ => by simp [bne, beq_eq_decide]
    dsimp only
    rw [hfilter]
    exact ⟨rfl, rfl⟩

/-! ### FINALs (R116) -/

theorem sendSeq_carried (d : Dev) (n type : Nat) (body : List Byte) :
    (∀ a, (d.sendSeq n type body).ldB a = d.ldB a) ∧ (d.sendSeq n type body).itk.items = d.itk.items := by
  rcases sendSeq_cases d n type body with ⟨-, heq⟩ | ⟨-, -, f, v, seq, -, heq⟩ | ⟨-, f, -, heq⟩ <;> rw [heq]
  · exact ⟨fun _ => rfl, rfl⟩
  · have hcarried := carried_wire ((d.updSess n f).put (F.ITK_SESS_STAT_UNACKED n) v) n type seq 0 body
    exact ⟨hcarried.frame.mem, by rw [hcarried.itk]; rfl⟩
  · exact ⟨fun _ => rfl, rfl⟩

/-- The device once a session has been chosen for an item's FINAL. -/
def Dev.finalSentOn (d : Dev) (i : Item) (n : Nat) : Dev := d.updItem i.id fun j => { j with finalOn := some n }

theorem sendFinal_none {d : Dev} {i : Item} (h : d.finalSess i.zone = none) : d.sendFinal i = d := by rw [Dev.sendFinal, h]

theorem sendFinal_some {d : Dev} {i : Item} {n : Nat} (h : d.finalSess i.zone = some n) (hfirst : i.finalOn = none) :
    d.sendFinal i = (d.finalSentOn i n).sendSeq n 0x21 (finalBody i) := by
  rw [Dev.sendFinal, h]
  exact if_neg (by simp [hfirst])

theorem finalDue_first {d : Dev} {i : Item} (h : d.finalDue i = true) : i.finalOn = none := by
  simp only [Dev.finalDue, Bool.and_eq_true, Option.isNone_iff_eq_none] at h
  obtain ⟨⟨⟨-, hfirst⟩, -⟩, -⟩ := h
  exact hfirst

theorem finalSentOn_items (d : Dev) (i : Item) (n : Nat) :
    ∀ j ∈ (d.finalSentOn i n).itk.items, j.id = i.id → j.finalOn = some n := by
  intro j hj hid
  obtain ⟨k, -, hk⟩ := List.mem_map.mp (show j ∈ d.itk.items.map _ from hj)
  split at hk <;> subst hk
  · rfl
  · next hne => exact absurd hid hne

/-- FINAL_SEND. -/
def Dev.sendDue (d : Dev) (id : Nat) : Dev :=
  match d.findItem id with
  | none => d
  | some i => d.when (d.finalDue i) fun d => d.sendFinal i

theorem execFinalSend_eq (id : Nat) (s : State) : exec (.finalSend id) s = s.upd fun d => d.sendDue id := rfl

theorem sendDue_none {d : Dev} {id : Nat} (h : d.findItem id = none) : d.sendDue id = d := by rw [Dev.sendDue, h]

theorem sendDue_waits {d : Dev} {id : Nat} {i : Item} (h : d.findItem id = some i) (hdue : d.finalDue i = false) : d.sendDue id = d := by
  rw [Dev.sendDue, h]
  dsimp only
  rw [hdue, when_false]

theorem sendDue_sends {d : Dev} {id : Nat} {i : Item} (h : d.findItem id = some i) (hdue : d.finalDue i = true) :
    d.sendDue id = d.sendFinal i := by
  rw [Dev.sendDue, h]
  dsimp only
  rw [hdue, when_true]

/-- A FINAL leaves at once on a session over Ethernet that has room. -/
theorem finalSentOn_sent {d : Dev} {n : Nat} (i : Item) (h : CanAnswer d n) :
    Frame d ((d.finalSentOn i n).sendSeq n 0x21 (finalBody i)) [R.ITK_SESS_STAT n] ∧
      (n, 0x21, finalBody i) ∈ sentVjp d ((d.finalSentOn i n).sendSeq n 0x21 (finalBody i)) := by
  have hcan : CanAnswer (d.finalSentOn i n) n := ⟨h.isOpen, h.via, h.room, h.idle⟩
  obtain ⟨⟨hframe, -, -⟩, -⟩ := sendSeq_inSession (d := d.finalSentOn i n) 0x21 (finalBody i) hcan.via
  exact ⟨⟨hframe.regs, hframe.mem⟩, (sendSeq_sent hcan 0x21 (finalBody i)).mem_sentVjp List.suffix_rfl⟩

theorem finalSess_open {d : Dev} {z n : Nat} (h : d.finalSess z = some n) : d.sessState n = 1 := by
  have hn := List.find?_some h
  simp only [Bool.and_eq_true, decide_eq_true_eq] at hn
  exact hn.1

theorem finalSend_ends (s : State) (id : Nat) : Ends (.finalSend id) s fun e =>
    let d := s.dev
    match d.findItem id with
    | none => e = d
    | some i =>
      if d.finalDue i = false then e = d
      else match (List.range 8).find? (fun n => d.sessState n = 1 && d.sessZone n i.zone) with
        | none => e = d
        | some n =>
          (∀ a, e.ldB a = d.ldB a) ∧ (∀ j ∈ e.itk.items, j.id = id → j.finalOn = some n) ∧
          ((d.sess n).via = 0xFFFF → (d.sess n).unacked.length < 256 → (d.sess n).waiting = [] →
            Frame d e [R.ITK_SESS_STAT n] ∧ (n, 0x21, finalBody i) ∈ sentVjp d e) := by
  refine ends_of_upd (execFinalSend_eq id s) ?_
  intro d
  have hdev : s.dev.sendDue id = d.sendDue id := rfl
  rw [hdev]
  cases hitem : d.findItem id with
  | none => exact sendDue_none hitem
  | some i =>
    have hid : i.id = id := by simpa using List.find?_some hitem
    dsimp only
    split_ifs with hdue
    · exact sendDue_waits hitem hdue
    · have hdue : d.finalDue i = true := by simpa using hdue
      rw [sendDue_sends hitem hdue]
      split
      · next hnone => exact sendFinal_none hnone
      · next n hsome =>
        rw [sendFinal_some hsome (finalDue_first hdue)]
        obtain ⟨hmem, hitems⟩ := sendSeq_carried (d.finalSentOn i n) n 0x21 (finalBody i)
        exact ⟨hmem, fun j hj hj' => finalSentOn_items d i n j (hitems ▸ hj) (hj'.trans hid.symm), fun hvia hroom hidle =>
          finalSentOn_sent i ⟨finalSess_open hsome, hvia, hroom, hidle⟩⟩

/-- Settles O26, event by event. -/
theorem sessionTimers : Obligations.SessionTimers :=
  ⟨ackTimer_ends, retransmitTimer_ends, sessionIdle_ends, queuedMessageSend_ends, pageFree_ends, finalSend_ends, refusalHoldExpiry_ends⟩

end Sys2Proof.Machine
end

section
/-! The items that the collector leaves as they are (R461, R472), and an ACCEPT whose item has the ID of one that is held. -/

namespace Sys2Proof.Machine

/-! ### Steps that leave the items (R12) -/

/-- The step from `d` to `e` changes no item. -/
structure ItemsKept (d e : Dev) : Prop where
  items : e.itk.items = d.itk.items

namespace ItemsKept

variable {d e : Dev}

theorem refl (d : Dev) : ItemsKept d d := ⟨rfl⟩

theorem trans {f : Dev} (h : ItemsKept d e) (k : ItemsKept e f) : ItemsKept d f := ⟨k.items.trans h.items⟩

theorem put (k : ItemsKept d e) (f : Fld) (v : Nat) : ItemsKept d (e.put f v) := ⟨k.items⟩

theorem wr (k : ItemsKept d e) (a : Nat) (v : Word) : ItemsKept d (e.wr a v) := ⟨k.items⟩

theorem wrN (k : ItemsKept d e) (a v : Nat) : ItemsKept d (e.wrN a v) := ⟨k.items⟩

theorem incSat (k : ItemsKept d e) (f : Fld) : ItemsKept d (e.incSat f) := ⟨k.items⟩

theorem incWrap (k : ItemsKept d e) (f : Fld) : ItemsKept d (e.incWrap f) := ⟨k.items⟩

theorem setBit (k : ItemsKept d e) (f : Fld) (i : Nat) : ItemsKept d (e.setBit f i) := ⟨k.items⟩

theorem emit (k : ItemsKept d e) (o : Out) : ItemsKept d (e.emit o) := ⟨k.items⟩

theorem st (k : ItemsKept d e) (a n x : Nat) : ItemsKept d (e.st a n x) := by
  refine k.trans ⟨?_⟩
  rw [Dev.st, stBs_mem]

theorem report (k : ItemsKept d e) (n : Nat) (x : Option Nat) : ItemsKept d (e.report n x) := k.trans ⟨by rw [report_itk]⟩

theorem when (k : ItemsKept d e) {b : Bool} {f : Dev → Dev} (h : ∀ d, ItemsKept d (f d)) : ItemsKept d (e.when b f) :=
  k.trans ⟨when_keeps e (fun d => d.itk.items) b f fun d => (h d).items⟩

theorem each {α : Type} (k : ItemsKept d e) {l : List α} {f : Dev → α → Dev} (h : ∀ d x, ItemsKept d (f d x)) : ItemsKept d (e.each l f) :=
  k.trans ⟨each_keeps e l f (fun d => d.itk.items) fun d x => (h d x).items⟩

theorem onSys (k : ItemsKept d e) (f : SysSt → SysSt) : ItemsKept d (e.onSys f) := ⟨k.items⟩

theorem onPos (k : ItemsKept d e) (f : PosSt → PosSt) : ItemsKept d (e.onPos f) := ⟨k.items⟩

theorem onFir (k : ItemsKept d e) (f : FirSt → FirSt) : ItemsKept d (e.onFir f) := ⟨k.items⟩

theorem onLmp (k : ItemsKept d e) (f : LmpSt → LmpSt) : ItemsKept d (e.onLmp f) := ⟨k.items⟩

theorem onTwn (k : ItemsKept d e) (f : TwnSt → TwnSt) : ItemsKept d (e.onTwn f) := ⟨k.items⟩

theorem onPgf (k : ItemsKept d e) (f : PgfSt → PgfSt) : ItemsKept d (e.onPgf f) := ⟨k.items⟩

/-! ### Messages -/

theorem event (k : ItemsKept d e) (code zone a0 a1 : Nat) : ItemsKept d (e.event code zone a0 a1) :=
  k.each fun d n => (refl d).when fun d => ⟨(sendSeq_carried d n 0x22 (eventBody code zone a0 a1)).2⟩

theorem twSend (k : ItemsKept d e) (type : Nat) (body : List Nat) : ItemsKept d (e.twSend type body) := ⟨k.items⟩

theorem twInput (k : ItemsKept d e) (kind unit count : Nat) (args : List Nat) : ItemsKept d (e.twInput kind unit count args) :=
  k.when fun d => (refl d).twSend _ _

theorem fabBroadcast (k : ItemsKept d e) (ptype : Nat) (payload : List Byte) : ItemsKept d (e.fabBroadcast ptype payload) :=
  k.each fun d _ => (refl d).when fun d => (refl d).onPgf _

theorem sendRefusal (k : ItemsKept d e) (link id reason : Nat) : ItemsKept d (e.sendRefusal link id reason) := by
  have h1 := (k.put F.ITK_IRQ_STAT_LINKREF 1).report 47 none
  unfold Dev.sendRefusal
  extract_lets d1 d2 rep d3
  split_ifs
  · exact k
  · exact ((h1.incWrap F.PGF_REFCNT_SENT).onPgf _).fabBroadcast _ _
  · exact h1

theorem refuseLinked (k : ItemsKept d e) : ItemsKept d e.refuseLinked := k.each fun d _ => (refl d).sendRefusal _ _ _

theorem mwr (k : ItemsKept d e) (a v : Nat) : ItemsKept d (e.mwr a v).1 := by
  have hfresh : ItemsKept d (e.fresh 64).2 := ⟨k.items⟩
  unfold Dev.mwr
  split_ifs
  · exact k
  · exact (hfresh.st a 8 _).put F.JNL_IRQ_STAT_MRAMERR 1
  · exact k.st a 8 v

/-! ### The margins (R309) -/

theorem syncMargin (k : ItemsKept d e) (z : Nat) : ItemsKept d (e.syncMargin z) := by
  unfold Dev.syncMargin
  extract_lets l m th d1 d2
  have h1 : ItemsKept d d1 := k.wrN _ _
  split_ifs
  · exact k.wrN _ _
  · exact h1
  · exact h1
  · exact ((((h1.onFir _).event 2 z m th).put F.SLU_IRQ_STAT_MARGIN 1).incSat (F.SLU_ZONE_LATECNT_LOW z)).report 123 none
  · exact h1.onFir _

theorem margins (k : ItemsKept d e) (old : Dev) : ItemsKept d (e.margins old) := by
  unfold Dev.margins
  split_ifs
  · exact k
  · exact k.each fun d z => (refl d).syncMargin z

/-! ### The records of the collector (R462, R463) -/

theorem loseRecord (k : ItemsKept d e) : ItemsKept d e.loseRecord := by
  unfold Dev.loseRecord
  extract_lets first d1 d2
  have h1 : ItemsKept d d1 := (k.incSat F.FLT_LOSTCNT_COUNT).put F.FLT_IRQ_STAT_LOST 1
  exact (h1.onSys _).when fun d => (refl d).setBit _ _

theorem captureDetail (k : ItemsKept d e) (src : Nat) : ItemsKept d (e.captureDetail src) := k.each fun d _ => (refl d).wr _ _

theorem writeRec (k : ItemsKept d e) (r : HistRec) : ItemsKept d (e.writeRec r) := by
  unfold Dev.writeRec
  split
  · exact k.loseRecord
  · extract_lets r' detail opens d0 n b d1 d2 d3 d4 left op d5 d6
    have h0 : ItemsKept d d0 := k.when fun d => (refl d).captureDetail _
    have h1 : ItemsKept d d1 := h0.each fun d _ => (refl d).wrN _ _
    have h4 : ItemsKept d d4 :=
      (((h1.put F.FLT_STAT_NEXT _).put F.FLT_STAT_LAST _).put F.FLT_STAT_COUNT _).when fun d => (refl d).wrN _ _
    exact ((h4.onSys _).put F.FLT_IRQ_STAT_RECORD 1).when fun d =>
      (((refl d).put F.FLT_STAT_FROZEN 1).put F.FLT_IRQ_STAT_LOST 1).onSys _

theorem syncStop (k : ItemsKept d e) : ItemsKept d e.syncStop := by
  unfold Dev.syncStop
  extract_lets now
  split_ifs
  · exact ((k.put F.FLT_STAT_STOP 1).put F.FLT_IRQ_STAT_STOP 1).refuseLinked
  · exact k.put F.FLT_STAT_STOP _
  · exact k.put F.FLT_STAT_STOP _

/-! ### The safe state (R389, R472) -/

theorem enter (k : ItemsKept d e) (n : Nat) : ItemsKept d (e.enter n) := by
  unfold Dev.enter
  split_ifs
  · exact k
  · exact ((k.put F.SYS_STATE_PREV _).put F.SYS_STATE_STATE n).put F.SYS_IRQ_STAT_STATE 1

theorem fabEpoch (k : ItemsKept d e) : ItemsKept d e.fabEpoch := by
  unfold Dev.fabEpoch
  extract_lets r
  exact k.when fun d => (refl d).fabBroadcast _ _

theorem setRole (k : ItemsKept d e) (r : Nat) : ItemsKept d (e.setRole r) := by
  unfold Dev.setRole
  extract_lets d1 d2
  have h1 : ItemsKept d d1 := (k.put F.TWN_STAT_ROLE r).put F.TWN_IRQ_STAT_ROLE 1
  have h2 : ItemsKept d d2 := h1.when fun d => (refl d).mwr _ _
  split
  · exact k
  · exact (h2.put F.HLK_EPOCH_ACT _).fabEpoch

theorem resign (k : ItemsKept d e) (cause : Nat) (counts : List Nat) : ItemsKept d (e.resign cause counts) := by
  unfold Dev.resign
  extract_lets d1 d2
  have h1 : ItemsKept d d1 := (k.twSend _ _).onTwn _
  exact ((h1.setRole _).put F.TWN_LASTTKO_CAUSE cause).report 38 none

theorem speedSafe (k : ItemsKept d e) : ItemsKept d e.speedSafe := ⟨k.items⟩

theorem lampSafe (k : ItemsKept d e) : ItemsKept d e.lampSafe := by
  refine k.each fun d c => (refl d).when fun d => ?_
  extract_lets d1 d2
  have h1 : ItemsKept d d1 := ((refl d).put (F.LMP_CH_STAT_STATE c) 3).put (F.LMP_CH_STAT_STAGING c) 0
  exact (h1.onLmp _).when fun d => (refl d).emit _

/-- The steps of the safe state before the items' final states. -/
theorem safeStepsBefore (k : ItemsKept d e) (cause src : Nat) : ItemsKept d (e.safeSteps cause src false) := by
  unfold Dev.safeSteps
  extract_lets old d0 d1 d2 d3 d4 d5 d6 d7
  have h2 : ItemsKept d d2 := (((k.enter stSafe).wrN R.FLT_SAFESTAT _).put F.FLT_STAT_SAFE 1).put F.FLT_IRQ_STAT_SAFE 1
  have h3 : ItemsKept d d3 := h2.each fun d o => ((refl d).onPos _).put (F.POS_REJ_STAT_PENDING o) 0
  have h5 : ItemsKept d d5 := h3.speedSafe.each fun d n => (refl d).put (F.FIR_HG_STAT_IDLESAFE n) 1
  have h7 : ItemsKept d d7 := h5.lampSafe.refuseLinked
  exact h7

end ItemsKept

/-! ### The collector where every item is ACCEPTED -/

/-- Every item is ACCEPTED: none is to be finalised or unbound by the safe state. -/
def Dev.allAccepted (d : Dev) : Prop := ∀ i ∈ d.itk.items, i.state = isAccepted

theorem ItemsKept.allAccepted {d e : Dev} (k : ItemsKept d e) (h : d.allAccepted) : e.allAccepted := by
  unfold Dev.allAccepted
  rwa [k.items]

theorem safeSteps_split (d : Dev) (cause src : Nat) : d.safeSteps cause src true =
    ((d.safeSteps cause src false).each ((d.safeSteps cause src false).itk.items.filter fun i => i.state == isFiring || i.state == isFired)
      fun d i => d.finalise i.id isInterrupted 0x0E true).onItk fun t => { t with items := t.items.map fun i =>
        if i.state = isScheduled then { i with state := isStaged } else i } := rfl

theorem safeSteps_items {d : Dev} (h : d.allAccepted) (cause src : Nat) (finals : Bool) : ItemsKept d (d.safeSteps cause src finals) := by
  have hbefore := (ItemsKept.refl d).safeStepsBefore cause src
  cases finals with
  | false => exact hbefore
  | true =>
    obtain ⟨x, hx⟩ : ∃ x, x = d.safeSteps cause src false := ⟨_, rfl⟩
    rw [← hx] at hbefore
    have hall := hbefore.allAccepted h
    have hnone : (x.itk.items.filter fun i => i.state == isFiring || i.state == isFired) = [] :=
      List.filter_eq_nil_iff.mpr fun i hi => by rw [hall i hi]; decide
    have hsame : (x.itk.items.map fun i => if i.state = isScheduled then { i with state := isStaged } else i) = x.itk.items :=
      (List.map_congr_left fun i hi => if_neg (by rw [hall i hi]; decide)).trans (List.map_id' _)
    rw [safeSteps_split, ← hx, hnone]
    exact hbefore.trans ⟨hsame⟩

theorem enterSafe_items {d : Dev} (h : d.allAccepted) (cause src : Nat) : ItemsKept d (d.enterSafe cause src) := by
  have hresign := (ItemsKept.refl d).resign 4 d.takeoverCounts
  have hinput := (ItemsKept.refl d).twInput 16 0xFF 0 [cause, src]
  unfold Dev.enterSafe
  split
  · exact .refl d
  · split
    · exact hresign.trans (safeSteps_items (hresign.allAccepted h) _ _ _)
    · exact hinput.trans (safeSteps_items (hinput.allAccepted h) _ _ _)

theorem react_items {d : Dev} (h : d.allAccepted) (r : HistRec) : ItemsKept d (d.react r) := by
  unfold Dev.react
  extract_lets d0 fatal hold d1 twd c t
  have h0 : ItemsKept d d0 := (ItemsKept.refl d).when fun d => (ItemsKept.refl d).event _ _ _ _
  have h1 : ItemsKept d d1 := h0.trans (enterSafe_items (h0.allAccepted h) _ _)
  split
  · exact h0
  · exact h1.when fun d => (ItemsKept.refl d).onSys _

/-- Steps that keep the items of a device where every item is ACCEPTED, one after the other. -/
theorem each_items {α : Type} {f : Dev → α → Dev} (hf : ∀ d : Dev, d.allAccepted → ∀ x, ItemsKept d (f d x)) (l : List α) {d : Dev}
    (h : d.allAccepted) : ItemsKept d (d.each l f) := by
  induction l generalizing d with
  | nil => exact .refl d
  | cons x l ih => exact (hf d h x).trans (ih ((hf d h x).allAccepted h))

theorem collect_items {d : Dev} (h : d.allAccepted) : ItemsKept d d.collect := by
  unfold Dev.collect
  extract_lets ms recs d0 d1 d2 d3 c d3b d4
  have h0 : ItemsKept d d0 := ⟨rfl⟩
  have h1 : ItemsKept d d1 := h0.each fun d r => (ItemsKept.refl d).when fun d => (ItemsKept.refl d).setBit _ _
  have h2 : ItemsKept d d2 := h1.each fun d r => (ItemsKept.refl d).writeRec r
  have h3 : ItemsKept d d3 := h2.each fun d _ => (ItemsKept.refl d).loseRecord
  have h3b : ItemsKept d d3b := h3.each fun d r => (ItemsKept.refl d).when fun d => (ItemsKept.refl d).onTwn _
  have h4 : ItemsKept d d4 := h3b.each fun d r => (ItemsKept.refl d).when fun d => (ItemsKept.refl d).put F.FLT_IRQ_STAT_REGERR 1
  exact (h4.trans (each_items (fun d hd r => react_items hd r) _ (h4.allAccepted h))).syncStop

theorem settleN_items (n : Nat) {d : Dev} (h : d.allAccepted) : ItemsKept d (d.settleN n) := by
  induction n generalizing d with
  | zero => exact .refl d
  | succ n ih =>
    unfold Dev.settleN
    split
    · exact .refl d
    · exact (collect_items h).trans (ih ((collect_items h).allAccepted h))

/-- What the margins and the collector do after a command leaves the items where every one is ACCEPTED. -/
theorem settle_margins_items {d : Dev} (h : d.allAccepted) (old : Dev) : ItemsKept d (d.margins old).settle := by
  have hmargins := (ItemsKept.refl d).margins old
  exact hmargins.trans (settleN_items 4 (hmargins.allAccepted h))

/-! ### An ACCEPT that finds another item of its ID (R112, R135) -/

/-- An ACCEPTED item of ID 9 with two blocks, of a page and in a record slot. -/
def itemNine (page slot : Nat) : Item :=
  { id := 9, zseq := 1, zone := 0, trig := 0, trigArg := 0, lines := 8, lateOk := false, link := 0, offset := 0, page := page, blocks := 2,
    fields := [], sess := 0, slot := slot, state := isAccepted }

/-- A SUBMIT of the same ID whose record has been written; its page has no stream header. -/
def sameIdReceiving : Receiving := { item := itemNine 6 1, who := (0, 0, 0), jacked := true }

/-- The header of a stream of three blocks. -/
def threeBlocks : StreamHdr := { planes := 1, depth := 1, lines := 8, bw := 8, bh := 8, blocks := 3, widths := [8] }

/-- The device after a reset that holds one item, whose page's header says three blocks, and is about to accept the other. -/
def sameIdState : State :=
  { State.reset with dev := State.reset.dev.onItk fun t =>
    { t with items := [itemNine 5 0], pages := [{ page := 5, hdr := some threeBlocks }], receiving := some sameIdReceiving } }

/-- ACCEPT of a record that is durable on both chips of a pair (R112). -/
theorem exec_accept {s : State} {r : Receiving} (h : s.dev.itk.receiving = some r) (hjack : r.jacked = true) :
    exec .accept s = .next { s with dev := ((s.dev.accept r).margins s.dev).settle } := by
  have hrun : exec .accept s = s.upd fun d =>
    match d.itk.receiving with
    | none => d
    | some r => if r.jacked || !d.replicates then d.accept r else d := rfl
  rw [hrun, State.upd, h]
  dsimp only
  rw [hjack]
  rfl

/-- The check of BLOCKS takes the item that was held for the one accepted, and both items of the ID become NOT_PRINTED. -/
theorem accept_sameId_notPrinted :
    (((sameIdState.dev.accept sameIdReceiving).margins sameIdState.dev).settle).itk.items.map (fun i => (i.state, i.reason)) =
      [(isNotPrinted, 0x0B), (isNotPrinted, 0x0B)] := by decide +kernel

/-- Refutes O27: the statement is about every state, and in one that holds an item with the ID of the SUBMIT being accepted, ACCEPT
checks BLOCKS of the item held before (R135) and finalises both, where the statement has the items left and the new one ACCEPTED. -/
theorem not_itemRequests : ¬ Obligations.ItemRequests := by
  rintro ⟨-, haccept, -⟩
  obtain ⟨e, hexec, hclause⟩ := haccept sameIdState
  obtain ⟨-, hitems, -⟩ : e.itk.receiving = none ∧ e.itk.items = [itemNine 5 0, itemNine 6 1] ∧ _ :=
    hclause rfl rfl rfl
  have hall : e.allAccepted := by
    unfold Dev.allAccepted
    rw [hitems]
    decide
  have hkept : (e.margins sameIdState.dev).settle.itk.items = [itemNine 5 0, itemNine 6 1] :=
    (settle_margins_items hall sameIdState.dev).items.trans hitems
  rw [exec_accept (r := sameIdReceiving) rfl rfl] at hexec
  injection hexec with hstate
  have hdev : ((sameIdState.dev.accept sameIdReceiving).margins sameIdState.dev).settle = (e.margins sameIdState.dev).settle :=
    congrArg State.dev hstate
  have hbad := accept_sameId_notPrinted
  rw [hdev, hkept] at hbad
  exact absurd hbad (by decide)

end Sys2Proof.Machine
end

section
/-! Register writes whose checks pass, for every row of the register map (R501): an element of an array, a register that holds its
fields, and one that a pair mirrors. -/

namespace Sys2Proof.Machine

variable {d e : Dev} {req a v b m : Nat} {r : RegRow}

/-! ### The row of the register -/

/-- `a` is a register of block `b` past its header, in the row `r`, and the bits `m` of it are open to every requester (R4). -/
structure OpenReg (b a m : Nat) (r : RegRow) : Prop where
  block : blockOf a = some b
  body : isHeader a = false
  row : rowAt a = some r
  mask : ∀ (d : Dev) (req : Nat), fieldBits r.fields (d.openTo req) = m

/-- The write that the checks of a row see. -/
abbrev Dev.rowWr (d : Dev) (req b a v : Nat) (r : RegRow) : Wr := (d.regCheck req b a v r).2

namespace OpenReg

variable (hr : OpenReg b a m r)
include hr

/-- A granted write passes the checks of its block, and leaves what is stored, with the answer OK. -/
theorem granted (hg : Granted d req a v) :
    blockCheck d b (d.rowWr req b a v r) = sOk ∧
    d.regWrite req a v = (d.regStore b v r (d.rowWr req b a v r)).answer req a sOk 0 := by
  obtain ⟨hok, hleft⟩ := hg.regWrite_eq hr.block
  obtain ⟨hcheck, hstore⟩ := writeReg_row_ok hr.row hr.body hok
  exact ⟨(regCheck_ok hcheck).2.2, by rw [hleft, hstore]⟩

/-- The value of a granted write lies within 32 bits (R24). -/
theorem lt_of_granted (hg : Granted d req a v) : v < 2 ^ 32 := by
  obtain ⟨hok, -⟩ := hg.regWrite_eq hr.block
  by_contra hv
  unfold Dev.writeReg at hok
  rw [if_pos (.inr (.inr (Nat.not_lt.mp hv)))] at hok
  exact absurd (show sBadValue = sOk from hok) (by decide)

/-- The checks see the value written in the open bits, and what the register holds in the others. -/
theorem new_masked : (d.rowWr req b a v r).new = v &&& m ||| ((d.rd a).toNat &&& (2 ^ 32 - 1 - m)) := by
  rw [← hr.mask d req]
  rfl

/-- Within the open bits the checks see the value written. -/
theorem bits_new {lo n : Nat} (hin : bits m lo n = 2 ^ n - 1) (hout : bits (2 ^ 32 - 1 - m) lo n = 0) :
    bits (d.rowWr req b a v r).new lo n = bits v lo n := by
  rw [hr.new_masked, bits_or, bits_and, bits_and, hin, hout, Nat.and_two_pow_sub_one_eq_mod, Nat.mod_eq_of_lt (bits_lt _ _ _), Nat.and_zero,
    Nat.or_zero]

/-- The checks see the whole value written to a register that is open throughout. -/
theorem new_eq (hm : m = 2 ^ 32 - 1) (hg : Granted d req a v) : (d.rowWr req b a v r).new = v := by
  rw [hr.new_masked, hm, Nat.and_two_pow_sub_one_eq_mod, Nat.mod_eq_of_lt (hr.lt_of_granted hg), Nat.sub_self, Nat.and_zero, Nat.or_zero]

theorem bitB_new {i : Nat} (hin : bits m i 1 = 1) (hout : bits (2 ^ 32 - 1 - m) i 1 = 0) :
    bitB (d.rowWr req b a v r).new i = bitB v i := by
  rw [bitB_eq_bits, bitB_eq_bits, hr.bits_new hin hout]

end OpenReg

/-! ### What is stored -/

/-- The device with a register written with what it holds. -/
abbrev Dev.rewrite (d : Dev) (a : Nat) : Dev := d.wrN a (d.rd a).toNat

/-- A field that takes the whole register holds the value put. -/
theorem setBits_whole {x v n : Nat} (hx : x < 2 ^ n) (hv : v < 2 ^ n) : setBits x 0 n v = v := by
  have hhigh : x >>> (0 + n) = 0 := by rw [Nat.zero_add, Nat.shiftRight_eq_div_pow, Nat.div_eq_of_lt hx]
  rw [setBits, hhigh, Nat.mod_eq_of_lt hv, Nat.pow_zero, Nat.mod_one, Nat.mul_one, Nat.zero_mul, Nat.zero_add, Nat.add_zero]

theorem bits_whole {x n : Nat} (hx : x < 2 ^ n) : bits x 0 n = x := by rw [bits, Nat.shiftRight_zero, Nat.mod_eq_of_lt hx]

theorem storedValue_rw {old v : Nat} (ho : old < 2 ^ 32) (hv : v < 2 ^ 32) : storedValue [⟨31, 0, .rw⟩] old v = v := by
  rw [storedValue_eq, List.foldl_cons, List.foldl_nil]
  exact (setBits_whole ho (bits_lt _ _ _)).trans (bits_whole hv)

theorem storedValue_w1s {old v : Nat} (ho : old < 2 ^ 32) (hv : v < 2 ^ 32) : storedValue [⟨31, 0, .w1s⟩] old v = old ||| v := by
  rw [storedValue_eq, List.foldl_cons, List.foldl_nil]
  have hst : FieldRow.stored ⟨31, 0, .w1s⟩ old v = old ||| v := congrArg₂ (· ||| ·) (bits_whole ho) (bits_whole hv)
  rw [hst]
  exact setBits_whole ho (Nat.or_lt_two_pow ho hv)

theorem regStore_unmirrored (h : mirrored b r.base r.fields = false) (w : Wr) :
    d.regStore b v r w = blockApply (d.wrN w.addr (storedValue r.fields w.old w.new)) b w := by
  rw [Dev.regStore, h, when_false]

/-- A write to a register that holds nothing leaves it as it was. -/
theorem regStore_holdsNothing (h : mirrored b r.base r.fields = false) (hl : ∀ f ∈ r.fields, f.acc = .wo ∨ f.acc = .trsWo) :
    d.regStore b v r (d.rowWr req b a v r) = blockApply (d.rewrite a) b (d.rowWr req b a v r) := by
  rw [regStore_unmirrored h, storedValue_holdsNothing hl]
  rfl

/-- A message of the twin link touches that link and what leaves the part, and nothing else. -/
theorem twInput_rest (d : Dev) (kind unit count : Nat) (args : List Nat) :
    ∃ t o, d.twInput kind unit count args = { d with twn := t, out := o } := by
  unfold Dev.twInput
  cases d.replicates
  · exact ⟨d.twn, d.out, rfl⟩
  · exact ⟨_, _, rfl⟩

/-- A write that a pair mirrors is stored after the partner has been told (R381). -/
theorem regStore_mirrored (h : mirrored b r.base r.fields = true) (w : Wr) :
    ∃ t o, d.regStore b v r w =
      blockApply (({ d with twn := t, out := o } : Dev).wrN w.addr (storedValue r.fields w.old w.new)) b w := by
  obtain ⟨t, o, ht⟩ := twInput_rest d 10 (w.ix.headD 0) (if b = 15 then (d.head (8 * w.ix.headD 0)).formed + 1 else 0) [w.addr, v]
  refine ⟨t, o, ?_⟩
  rw [← ht, Dev.regStore, h, when_true]

/-! ### What a write leaves -/

theorem get_answer (d : Dev) (req a st x : Nat) (f : Fld) : (d.answer req a st x).get f = d.get f := rfl

theorem rd_answer (d : Dev) (req a st x y : Nat) : (d.answer req a st x).rd y = d.rd y := rfl

theorem OnlyRegs.refl (d : Dev) : OnlyRegs d d := rfl

theorem OnlyRegs.wrN (h : OnlyRegs d e) (a v : Nat) : OnlyRegs d (e.wrN a v) := h.trans rfl

theorem OnlyRegs.put (h : OnlyRegs d e) (f : Fld) (v : Nat) : OnlyRegs d (e.put f v) := h.trans rfl

theorem OnlyRegs.rewrite (d : Dev) (a : Nat) : OnlyRegs d (d.rewrite a) := rfl

theorem OnlyRegs.when (h : OnlyRegs d e) {c : Bool} {f : Dev → Dev} (hf : ∀ d, OnlyRegs d (f d)) : OnlyRegs d (e.when c f) := by
  cases c
  · exact h
  · exact h.trans (hf e)

theorem OnlyRegs.each {α : Type} (h : OnlyRegs d e) {l : List α} {f : Dev → α → Dev} (hf : ∀ d x, OnlyRegs d (f d x)) :
    OnlyRegs d (e.each l f) := by
  induction l generalizing e with
  | nil => exact h
  | cons x l ih => exact ih (h.trans (hf e x))

/-- An answered write of registers alone. -/
theorem OnlyRegs.answer (h : OnlyRegs d e) :
    e.answer req a sOk 0 = { d with regs := (e.answer req a sOk 0).regs, out := (e.answer req a sOk 0).out } := by
  unfold OnlyRegs at h
  rw [h]
  rfl

theorem OnlyRegs.out_answer (h : OnlyRegs d e) : (e.answer req a sOk 0).out = .reg req a sOk 0 :: d.out :=
  (congrArg (fun x : Dev => (x.answer req a sOk 0).out) h :)

/-- An answered write of registers within a frame is a write as R501 has it. -/
theorem OnlyRegs.writeOk {l : List Nat} (h : OnlyRegs d e) (hf : Frame d e l) : WriteOk d (e.answer req a sOk 0) req a l :=
  ⟨⟨hf.regs, hf.mem⟩, rfl, (congrArg Dev.itk h :), (congrArg Dev.reps h :)⟩

end Sys2Proof.Machine
end

section
/-! Writes to BRD, BRC and RAS with a row of their own (R161, R163, R166, R190). -/

namespace Sys2Proof.Machine

variable {d e : Dev} {req v : Nat}

/-! ### The registers -/

theorem openReg_djobGo : OpenReg 8 R.BRD_DJOB_GO 1 ⟨R.BRD_DJOB_GO, [], [⟨0, 0, .wo⟩], 0⟩ :=
  ⟨rfl, rfl, by decide +kernel, fun _ _ => rfl⟩

theorem openReg_brcGo : OpenReg 9 R.BRC_GO 1 ⟨R.BRC_GO, [], [⟨0, 0, .wo⟩], 0⟩ :=
  ⟨rfl, rfl, by decide +kernel, fun _ _ => rfl⟩

theorem openReg_outsize : OpenReg 9 R.BRC_OUTSIZE 0xFFFFFFFF ⟨R.BRC_OUTSIZE, [], [⟨31, 0, .rw⟩], 0⟩ :=
  ⟨rfl, rfl, by decide +kernel, fun _ _ => rfl⟩

theorem openReg_rasStatclr : OpenReg 10 R.RAS_STATCLR 0x1FF ⟨R.RAS_STATCLR, [], [⟨8, 8, .wo⟩, ⟨7, 0, .wo⟩], 0⟩ :=
  ⟨rfl, rfl, by decide +kernel, fun _ _ => rfl⟩

theorem openReg_rasErr :
    OpenReg 10 R.RAS_ERR 0x80000000 ⟨R.RAS_ERR, [], [⟨31, 31, .w1c⟩, ⟨19, 16, .ro⟩, ⟨11, 8, .ro⟩, ⟨2, 0, .ro⟩], 0⟩ :=
  ⟨rfl, rfl, by decide +kernel, fun _ _ => rfl⟩

theorem openReg_impErr :
    OpenReg 11 R.IMP_ERR 0x80000000 ⟨R.IMP_ERR, [], [⟨31, 31, .w1c⟩, ⟨19, 16, .ro⟩, ⟨13, 8, .ro⟩, ⟨3, 0, .ro⟩], 0⟩ :=
  ⟨rfl, rfl, by decide +kernel, fun _ _ => rfl⟩

/-! ### The effect of each register -/

section
variable {w : Wr} {b : Nat}

theorem blockApply_brd (h : b = 8 ∨ b = 9 ∨ b = 10) : blockApply d b w = brdApply d w := by
  rcases h with rfl | rfl | rfl <;> rfl

theorem blockCheck_brd (h : b = 8 ∨ b = 9 ∨ b = 10) : blockCheck d b w = brdCheck d w := by
  rcases h with rfl | rfl | rfl <;> rfl

/-- The decompress job runs: STATE is 1, CODE is 0. -/
def Dev.djobStart (d : Dev) : Dev := (d.put F.BRD_DJOB_STAT_STATE 1).put F.BRD_DJOB_STAT_CODE 0

theorem blockApply_imp : blockApply d 11 w = impApply d w := rfl

theorem impApply_err (h : w.base = R.IMP_ERR) :
    impApply d w = d.when (bitB w.new 31) fun d => ((d.wrN R.IMP_ERR 0).wrN R.IMP_ERRITEMLO 0).wrN R.IMP_ERRITEMHI 0 := by
  rw [impApply, Wr.at, h]
  rfl

theorem brdApply_djobGo (h : w.base = R.BRD_DJOB_GO) :
    brdApply d w = d.when (bitB w.new 0) Dev.djobStart := by
  rw [brdApply, Wr.at, h]
  rfl

theorem brdApply_brcGo (h : w.base = R.BRC_GO) : brdApply d w = d.when (bitB w.new 0) fun d => d.brcPush d.brcJob := by
  rw [brdApply, Wr.at, Wr.at, h]
  rfl

theorem brdApply_outsize (h : w.base = R.BRC_OUTSIZE) : brdApply d w = (d.wrN R.BRC_OUTWR 0).wrN R.BRC_OUTRD 0 := by
  rw [brdApply, Wr.at, Wr.at, Wr.at, h]
  rfl

theorem brdApply_rasStatclr (h : w.base = R.RAS_STATCLR) : brdApply d w = d.rasStatClr w.new := by
  rw [brdApply, Wr.at, Wr.at, Wr.at, Wr.at, h]
  rfl

theorem brdApply_rasErr (h : w.base = R.RAS_ERR) :
    brdApply d w = d.when (bitB w.new 31) fun d => ((d.wrN R.RAS_ERR 0).wrN R.RAS_ERRITEMLO 0).wrN R.RAS_ERRITEMHI 0 := by
  rw [brdApply, Wr.at, Wr.at, Wr.at, Wr.at, Wr.at, h]
  rfl

end

/-! ### BRD_DJOB_GO -/

theorem djobStart_spec (d : Dev) :
    OnlyRegs d d.djobStart ∧ Frame d d.djobStart [R.BRD_DJOB_STAT] ∧ d.djobStart.get F.BRD_DJOB_STAT_STATE = 1 ∧
      d.djobStart.get F.BRD_DJOB_STAT_CODE = 0 :=
  ⟨rfl, (frame_put d F.BRD_DJOB_STAT_STATE 1 _ (List.mem_singleton_self _)).trans
      (frame_put _ F.BRD_DJOB_STAT_CODE 0 _ (List.mem_singleton_self _)),
    (get_put_apart _ F.BRD_DJOB_STAT_CODE F.BRD_DJOB_STAT_STATE 0 (by decide) rfl (by decide)).trans
      (get_put_same d F.BRD_DJOB_STAT_STATE 1 (by decide)),
    get_put_same _ F.BRD_DJOB_STAT_CODE 0 (by decide)⟩

theorem djobGo_granted (hg : Granted d req R.BRD_DJOB_GO 1) :
    d.regWrite req R.BRD_DJOB_GO 1 = (d.rewrite R.BRD_DJOB_GO).djobStart.answer req R.BRD_DJOB_GO sOk 0 := by
  have hr := openReg_djobGo
  have hgo : bitB (d.rowWr req 8 R.BRD_DJOB_GO 1 _).new 0 = true := hr.bitB_new (by decide) (by decide)
  rw [(hr.granted hg).2, regStore_holdsNothing (by decide) (by simp), blockApply_brd (.inl rfl), brdApply_djobGo rfl, hgo, when_true]

theorem brdDjobGo_ends (s : State) (req : Nat) : Ends (.brdDjobGo req) s fun e =>
    let d := s.dev
    Granted d req R.BRD_DJOB_GO 1 →
      WriteOk d e req R.BRD_DJOB_GO [R.BRD_DJOB_STAT] ∧ e.get F.BRD_DJOB_STAT_STATE = 1 ∧ e.get F.BRD_DJOB_STAT_CODE = 0 ∧
      e = { d with regs := e.regs, out := e.out } := by
  refine ends_of_upd (f := fun d => d.regWrite req R.BRD_DJOB_GO 1) rfl fun hg => ?_
  obtain ⟨hregs, hframe, hstate, hcode⟩ := djobStart_spec (s.dev.rewrite R.BRD_DJOB_GO)
  rw [djobGo_granted hg]
  generalize (s.dev.rewrite R.BRD_DJOB_GO).djobStart = e at *
  have hall := (OnlyRegs.rewrite s.dev R.BRD_DJOB_GO).trans hregs
  exact ⟨hall.writeOk ((frame_rewrite _ _ _).trans hframe), (get_answer _ _ _ _ _ _).trans hstate, (get_answer _ _ _ _ _ _).trans hcode,
    hall.answer⟩

/-! ### STATE and QUEUED of the compressor (R166) -/

/-- The registers that follow the compressor's queue. -/
abbrev brcRegs : List Nat := [R.BRC_STAT, R.BRC_IRQ_STAT]

theorem brcSync_empty (h : d.ras.jobs = []) : d.brcSync = (d.put F.BRC_STAT_QUEUED d.ras.jobs.length).put F.BRC_STAT_STATE 0 := by
  rw [Dev.brcSync, h]

theorem brcSync_cons {j : BrcJob} {l : List BrcJob} (h : d.ras.jobs = j :: l) :
    d.brcSync = if j.need ≤ d.ringFree then (d.put F.BRC_STAT_QUEUED d.ras.jobs.length).put F.BRC_STAT_STATE 1
      else ((d.put F.BRC_STAT_QUEUED d.ras.jobs.length).put F.BRC_STAT_STATE 2).put F.BRC_IRQ_STAT_WAIT 1 := by
  rw [Dev.brcSync, h]

/-- The compressor's state follows its queue: what every step that brings it up to date keeps. -/
theorem brcSync_keeps {P : Dev → Prop} (hp : P d) (hput : ∀ d f v, f ∈ [F.BRC_STAT_QUEUED, F.BRC_STAT_STATE, F.BRC_IRQ_STAT_WAIT] →
    P d → P (d.put f v)) : P d.brcSync := by
  have hq := hput d F.BRC_STAT_QUEUED d.ras.jobs.length (by simp) hp
  match h : d.ras.jobs with
  | [] =>
    rw [brcSync_empty h]
    exact hput _ _ _ (by simp) hq
  | j :: l =>
    rw [brcSync_cons h]
    split
    · exact hput _ _ _ (by simp) hq
    · exact hput _ _ _ (by simp) (hput _ _ _ (by simp) hq)

theorem onlyRegs_brcSync (d : Dev) : OnlyRegs d d.brcSync := brcSync_keeps (P := OnlyRegs d) (.refl d) fun _ f v _ h => h.put f v

theorem frame_brcSync (d : Dev) : Frame d d.brcSync brcRegs := by
  refine brcSync_keeps (P := fun e => Frame d e brcRegs) (.refl d _) fun d f v hf h => h.trans (frame_put d f v _ ?_)
  rcases List.mem_cons.mp hf with rfl | hf
  · decide
  · fin_cases hf <;> decide

/-- A field of the two registers beside QUEUED, STATE and WAIT stands. -/
theorem get_brcSync (d : Dev) {g : Fld} (hg : g = F.BRC_STAT_CODE ∨ g = F.BRC_IRQ_STAT_DONE) : d.brcSync.get g = d.get g := by
  refine brcSync_keeps (P := fun e => e.get g = d.get g) rfl fun e f v hf h => Eq.trans ?_ h
  simp only [List.mem_cons, List.not_mem_nil, or_false] at hf
  rcases hg with rfl | rfl <;> rcases hf with rfl | rfl | rfl
  · exact get_put_apart _ _ _ _ (by decide) rfl (by decide)
  · exact get_put_apart _ _ _ _ (by decide) rfl (by decide)
  · exact get_put_ne _ _ _ _ (by decide)
  · exact get_put_ne _ _ _ _ (by decide)
  · exact get_put_ne _ _ _ _ (by decide)
  · exact get_put_apart _ _ _ _ (by decide) rfl (by decide)

theorem queued_brcSync (d : Dev) : d.brcSync.get F.BRC_STAT_QUEUED = d.ras.jobs.length % 8 := by
  have hq := get_put_same d F.BRC_STAT_QUEUED d.ras.jobs.length (by decide)
  have hstate (e : Dev) (v : Nat) : (e.put F.BRC_STAT_STATE v).get F.BRC_STAT_QUEUED = e.get F.BRC_STAT_QUEUED :=
    get_put_apart _ _ _ _ (by decide) rfl (by decide)
  have hwait (e : Dev) (v : Nat) : (e.put F.BRC_IRQ_STAT_WAIT v).get F.BRC_STAT_QUEUED = e.get F.BRC_STAT_QUEUED :=
    get_put_ne _ _ _ _ (by decide)
  match h : d.ras.jobs with
  | [] => rw [brcSync_empty h, hstate, hq, h]; rfl
  | j :: l =>
    rw [brcSync_cons h]
    split
    · rw [hstate, hq, h]; rfl
    · rw [hwait, hstate, hq, h]; rfl

/-- The first job codes where the ring has room for its next block, else waits with line 1. -/
theorem state_brcSync {j : BrcJob} {l : List BrcJob} (h : d.ras.jobs = j :: l) :
    if j.need ≤ d.ringFree then d.brcSync.get F.BRC_STAT_STATE = 1
    else d.brcSync.get F.BRC_STAT_STATE = 2 ∧ d.brcSync.get F.BRC_IRQ_STAT_WAIT = 1 := by
  rw [brcSync_cons h]
  split
  · exact get_put_same _ F.BRC_STAT_STATE 1 (by decide)
  · exact ⟨(get_put_ne _ _ _ _ (by decide)).trans (get_put_same _ F.BRC_STAT_STATE 2 (by decide)),
      get_put_same _ F.BRC_IRQ_STAT_WAIT 1 (by decide)⟩

/-! ### BRC_GO -/

theorem brcGo_granted (hg : Granted d req R.BRC_GO 1) :
    d.regWrite req R.BRC_GO 1 = ((d.rewrite R.BRC_GO).brcPush (d.rewrite R.BRC_GO).brcJob).answer req R.BRC_GO sOk 0 := by
  have hr := openReg_brcGo
  have hgo : bitB (d.rowWr req 9 R.BRC_GO 1 _).new 0 = true := hr.bitB_new (by decide) (by decide)
  rw [(hr.granted hg).2, regStore_holdsNothing (by decide) (by simp), blockApply_brd (.inr (.inl rfl)), brdApply_brcGo rfl, hgo, when_true]

theorem brcJob_rewrite (d : Dev) (a : Nat) : (d.rewrite a).brcJob = d.brcJob := by
  simp only [Dev.brcJob, Dev.addr40, get_rewrite, rd_rewrite]

theorem ringFree_rewrite (d : Dev) (a : Nat) : (d.rewrite a).ringFree = d.ringFree := by
  simp only [Dev.ringFree, get_rewrite]

/-- A job that is pushed stands last, is counted, and begins where it is the first. -/
theorem brcPush_spec (d : Dev) (j : BrcJob) :
    Frame d (d.brcPush j) brcRegs ∧ d.brcPush j = { d with regs := (d.brcPush j).regs, ras := { d.ras with jobs := d.ras.jobs ++ [j] } } ∧
    (d.brcPush j).get F.BRC_STAT_QUEUED = (d.ras.jobs.length + 1) % 8 ∧
    (d.ras.jobs = [] → if j.need ≤ d.ringFree then (d.brcPush j).get F.BRC_STAT_STATE = 1
      else (d.brcPush j).get F.BRC_STAT_STATE = 2 ∧ (d.brcPush j).get F.BRC_IRQ_STAT_WAIT = 1) := by
  have hlen : (d.onRas fun t => { t with jobs := t.jobs ++ [j] }).ras.jobs.length = d.ras.jobs.length + 1 := by simp
  have hframe (e : Dev) (h : Frame (d.onRas fun t => { t with jobs := t.jobs ++ [j] }) e brcRegs) : Frame d e brcRegs := ⟨h.regs, h.mem⟩
  by_cases hfirst : d.ras.jobs = []
  · have hpush : d.brcPush j = (d.onRas fun t => { t with jobs := t.jobs ++ [j] }).brcSync := by rw [Dev.brcPush]; exact if_pos hfirst
    have hjobs : (d.onRas fun t => { t with jobs := t.jobs ++ [j] }).ras.jobs = j :: [] := by simp [hfirst]
    rw [hpush]
    exact ⟨hframe _ (frame_brcSync _), onlyRegs_brcSync _, by rw [queued_brcSync, hlen], fun _ => state_brcSync hjobs⟩
  · have hpush : d.brcPush j = (d.onRas fun t => { t with jobs := t.jobs ++ [j] }).put F.BRC_STAT_QUEUED
        (d.onRas fun t => { t with jobs := t.jobs ++ [j] }).ras.jobs.length := by rw [Dev.brcPush]; exact if_neg hfirst
    rw [hpush]
    exact ⟨hframe _ (frame_put _ _ _ _ (by decide)), rfl, by rw [get_put_same _ _ _ (by decide), hlen]; rfl, fun h => absurd h hfirst⟩

theorem brcGo_ends (s : State) (req : Nat) : Ends (.brcGo req) s fun e =>
    let d := s.dev
    Granted d req R.BRC_GO 1 →
      WriteOk d e req R.BRC_GO [R.BRC_STAT, R.BRC_IRQ_STAT] ∧ e.ras.jobs.dropLast = d.ras.jobs ∧ e.get F.BRC_STAT_QUEUED = (d.ras.jobs.length + 1) % 8 ∧
      (d.ras.jobs = [] → if (d.brcJob).need ≤ d.ringFree then e.get F.BRC_STAT_STATE = 1 else e.get F.BRC_STAT_STATE = 2 ∧ e.get F.BRC_IRQ_STAT_WAIT = 1) ∧
      match e.ras.jobs.getLast? with
      | some j => j.src = d.addr40 R.BRC_SRCLO R.BRC_SRCHI ∧ j.width = d.get F.BRC_WIDTH_VALUE ∧ j.lines = d.get F.BRC_LINES_VALUE ∧ j.planes = d.get F.BRC_PLANES_PLANESM1 + 1
      | none => False := by
  refine ends_of_upd (f := fun d => d.regWrite req R.BRC_GO 1) rfl fun hg => ?_
  rw [brcGo_granted hg, brcJob_rewrite]
  obtain ⟨hframe, hrest, hqueued, hstate⟩ := brcPush_spec (s.dev.rewrite R.BRC_GO) s.dev.brcJob
  rw [ringFree_rewrite] at hstate
  have hjobs : ((s.dev.rewrite R.BRC_GO).brcPush s.dev.brcJob).ras.jobs = s.dev.ras.jobs ++ [s.dev.brcJob] :=
    (congrArg (fun d : Dev => d.ras.jobs) hrest :)
  have hall := (frame_rewrite s.dev R.BRC_GO brcRegs).trans hframe
  have hitk := congrArg Dev.itk hrest
  have hreps := congrArg Dev.reps hrest
  generalize (s.dev.rewrite R.BRC_GO).brcPush s.dev.brcJob = e at *
  refine ⟨⟨⟨hall.regs, hall.mem⟩, rfl, hitk, hreps⟩, ?_, hqueued, hstate, ?_⟩
  · exact (congrArg List.dropLast hjobs).trans List.dropLast_concat
  · change match e.ras.jobs.getLast? with | some j => _ | none => False
    rw [hjobs, List.getLast?_concat]
    exact ⟨rfl, rfl, rfl, rfl⟩

/-! ### BRC_OUTSIZE -/

/-- A register takes `x`, and two that go with it are cleared. -/
def Dev.setThenClear (d : Dev) (a x lo hi : Nat) : Dev := ((d.wrN a x).wrN lo 0).wrN hi 0

theorem setThenClear_spec (d : Dev) {a lo hi : Nat} (x : Nat) (h1 : a ≠ lo) (h2 : a ≠ hi) (h3 : lo ≠ hi) :
    OnlyRegs d (d.setThenClear a x lo hi) ∧ Frame d (d.setThenClear a x lo hi) [a, lo, hi] ∧
    (d.setThenClear a x lo hi).rd a = BitVec.ofNat 32 x ∧ (d.setThenClear a x lo hi).rd lo = 0 ∧ (d.setThenClear a x lo hi).rd hi = 0 := by
  refine ⟨rfl, ((frame_wrN d a x _ (by simp)).trans (frame_wrN _ lo 0 _ (by simp))).trans (frame_wrN _ hi 0 _ (by simp)), ?_, ?_, ?_⟩
  · rw [Dev.setThenClear, rd_wrN_ne _ _ _ _ h2, rd_wrN_ne _ _ _ _ h1, rd_wrN_same]
  · rw [Dev.setThenClear, rd_wrN_ne _ _ _ _ h3, rd_wrN_same]
    rfl
  · rw [Dev.setThenClear, rd_wrN_same]
    rfl

/-- The size of the output ring that passes its checks: whole blocks of 64 bytes, no job, and an empty ring (R163). -/
theorem brdCheck_outsize {w : Wr} (hw : w.base = R.BRC_OUTSIZE) (h : brdCheck d w = sOk) :
    w.new % 64 = 0 ∧ d.ras.jobs = [] ∧ d.get F.BRC_OUTWR_COUNT = d.get F.BRC_OUTRD_COUNT := by
  have hat : w.at R.BRC_OUTSIZE = true := beq_iff_eq.mpr hw
  unfold brdCheck at h
  obtain ⟨-, h⟩ := firstFail_cons_ok h fun _ => by decide
  obtain ⟨hmul, h⟩ := firstFail_cons_ok h fun _ => by decide
  obtain ⟨-, h⟩ := firstFail_cons_ok h fun _ => by decide
  obtain ⟨-, h⟩ := firstFail_cons_ok h fun _ => by decide
  obtain ⟨-, h⟩ := firstFail_cons_ok h (by simp)
  obtain ⟨-, h⟩ := firstFail_cons_ok h (by simp)
  obtain ⟨-, h⟩ := firstFail_cons_ok h fun _ => by decide
  obtain ⟨hidle, -⟩ := firstFail_cons_ok h fun _ => by decide
  simpa [hat] using And.intro hmul hidle

theorem outsize_granted (hg : Granted d req R.BRC_OUTSIZE v) :
    v < 2 ^ 32 ∧ brdCheck d (d.rowWr req 9 R.BRC_OUTSIZE v ⟨R.BRC_OUTSIZE, [], [⟨31, 0, .rw⟩], 0⟩) = sOk ∧
    (d.rowWr req 9 R.BRC_OUTSIZE v ⟨R.BRC_OUTSIZE, [], [⟨31, 0, .rw⟩], 0⟩).new = v ∧
    d.regWrite req R.BRC_OUTSIZE v = (d.setThenClear R.BRC_OUTSIZE v R.BRC_OUTWR R.BRC_OUTRD).answer req R.BRC_OUTSIZE sOk 0 := by
  have hr := openReg_outsize
  have hlt := hr.lt_of_granted hg
  obtain ⟨hcheck, hleft⟩ := hr.granted hg
  have hnew := hr.new_eq rfl hg
  rw [blockCheck_brd (.inr (.inl rfl))] at hcheck
  refine ⟨hlt, hcheck, hnew, ?_⟩
  have hst : storedValue [⟨31, 0, .rw⟩] (d.rd R.BRC_OUTSIZE).toNat v = v := storedValue_rw (d.rd R.BRC_OUTSIZE).isLt hlt
  rw [hleft, regStore_unmirrored (by decide), blockApply_brd (.inr (.inl rfl)), brdApply_outsize rfl, hnew]
  exact congrArg (fun x => (d.setThenClear R.BRC_OUTSIZE x R.BRC_OUTWR R.BRC_OUTRD).answer req R.BRC_OUTSIZE sOk 0) hst

theorem brcOutsize_ends (s : State) (req v : Nat) : Ends (.brcOutsize req v) s fun e =>
    let d := s.dev
    Granted d req R.BRC_OUTSIZE v →
      v % 64 = 0 ∧ d.ras.jobs = [] ∧ d.rd R.BRC_OUTWR = d.rd R.BRC_OUTRD ∧ WriteOk d e req R.BRC_OUTSIZE [R.BRC_OUTSIZE, R.BRC_OUTWR, R.BRC_OUTRD] ∧
      (e.rd R.BRC_OUTSIZE).toNat = v ∧ e.rd R.BRC_OUTWR = 0 ∧ e.rd R.BRC_OUTRD = 0 := by
  refine ends_of_upd (f := fun d => d.regWrite req R.BRC_OUTSIZE v) rfl fun hg => ?_
  obtain ⟨hlt, hcheck, hnew, hleft⟩ := outsize_granted hg
  obtain ⟨hmul, hjobs, hempty⟩ := brdCheck_outsize rfl hcheck
  rw [hnew] at hmul
  rw [hleft]
  obtain ⟨hregs, hframe, hsize, hwr, hrd⟩ :=
    setThenClear_spec s.dev v (a := R.BRC_OUTSIZE) (lo := R.BRC_OUTWR) (hi := R.BRC_OUTRD) (by decide) (by decide) (by decide)
  generalize s.dev.setThenClear R.BRC_OUTSIZE v R.BRC_OUTWR R.BRC_OUTRD = e at *
  have hv : (e.rd R.BRC_OUTSIZE).toNat = v := by rw [hsize, BitVec.toNat_ofNat, Nat.mod_eq_of_lt hlt]
  refine ⟨hmul, hjobs, ?_, hregs.writeOk hframe, hv, hwr, hrd⟩
  rw [F.BRC_OUTWR_COUNT, F.BRC_OUTRD_COUNT, ← toNat_rd_eq_get, ← toNat_rd_eq_get] at hempty
  exact BitVec.eq_of_toNat_eq hempty

/-! ### RAS_STATCLR -/

theorem each_congr {α : Type} {l : List α} {f g : Dev → α → Dev} (h : ∀ d, ∀ x ∈ l, f d x = g d x) (d : Dev) :
    d.each l f = d.each l g := by
  induction l generalizing d with
  | nil => rfl
  | cons x l ih =>
    rw [each_cons, each_cons, h d x List.mem_cons_self]
    exact ih (fun d y hy => h d y (List.mem_cons_of_mem x hy)) _

/-- RAS_STATCLR looks at its nine bits. -/
theorem rasStatClr_congr (d : Dev) {x y : Nat} (h : ∀ i, i < 9 → bitB x i = bitB y i) : d.rasStatClr x = d.rasStatClr y := by
  rw [Dev.rasStatClr, Dev.rasStatClr, h 8 (by decide)]
  exact each_congr (fun d n hn => by rw [h n (by have := List.mem_range.mp hn; omega)]) _

/-- LATE and MINLEAD of head group `n` go to 0 and 64 where its bit is set. -/
def Dev.clearLead (d : Dev) (v n : Nat) : Dev :=
  d.when (bitB v n) fun d => (d.put (F.RAS_HG_STAT_LATE n) 0).put (F.RAS_HG_STAT_MINLEAD n) 64

theorem rasStatClr_eq (d : Dev) (v : Nat) :
    d.rasStatClr v = (d.clearIf (bitB v 8) R.RAS_CLIPCNT).each (List.range 8) fun d n => d.clearLead v n := rfl

theorem onlyRegs_clearIf (d : Dev) (c : Bool) (a : Nat) : OnlyRegs d (d.clearIf c a) := clearIf_regs d c a

theorem onlyRegs_clearLead (d : Dev) (v n : Nat) : OnlyRegs d (d.clearLead v n) := (OnlyRegs.refl d).when fun _ => rfl

theorem rd_clearLead_ne (d : Dev) (v n : Nat) {x : Nat} (h : x ≠ R.RAS_HG_STAT n) : (d.clearLead v n).rd x = d.rd x :=
  when_keeps d (fun d => d.rd x) _ _ fun d => (rd_put_ne _ (F.RAS_HG_STAT_MINLEAD n) x _ h).trans (rd_put_ne d (F.RAS_HG_STAT_LATE n) x _ h)

theorem get_clearLead_same (d : Dev) {v n : Nat} (h : bitB v n = true) :
    (d.clearLead v n).get (F.RAS_HG_STAT_LATE n) = 0 ∧ (d.clearLead v n).get (F.RAS_HG_STAT_MINLEAD n) = 64 := by
  rw [Dev.clearLead, h, when_true]
  exact ⟨(get_put_apart _ (F.RAS_HG_STAT_MINLEAD n) (F.RAS_HG_STAT_LATE n) 64 (by simp [F.RAS_HG_STAT_MINLEAD]) rfl
      (by simp [F.RAS_HG_STAT_LATE, F.RAS_HG_STAT_MINLEAD])).trans (get_put_same d (F.RAS_HG_STAT_LATE n) 0 (by simp [F.RAS_HG_STAT_LATE])),
    get_put_same _ (F.RAS_HG_STAT_MINLEAD n) 64 (by simp [F.RAS_HG_STAT_MINLEAD])⟩

theorem rasHgStat_ne {m n : Nat} (h : m ≠ n) : R.RAS_HG_STAT m ≠ R.RAS_HG_STAT n := by
  unfold R.RAS_HG_STAT
  omega

theorem rasStatClr_spec (d : Dev) (v : Nat) :
    OnlyRegs d (d.rasStatClr v) ∧ Frame d (d.rasStatClr v) (R.RAS_CLIPCNT :: (List.range 8).map R.RAS_HG_STAT) ∧
    ((d.rasStatClr v).rd R.RAS_CLIPCNT).toNat = (if bitB v 8 then 0 else (d.rd R.RAS_CLIPCNT).toNat) ∧
    ∀ n < 8, if bitB v n then (d.rasStatClr v).get (F.RAS_HG_STAT_LATE n) = 0 ∧ (d.rasStatClr v).get (F.RAS_HG_STAT_MINLEAD n) = 64
      else (d.rasStatClr v).rd (R.RAS_HG_STAT n) = d.rd (R.RAS_HG_STAT n) := by
  rw [rasStatClr_eq]
  refine ⟨(onlyRegs_clearIf _ _ _).each fun d n => onlyRegs_clearLead d v n, ?_, ?_, fun n hn => ?_⟩
  · refine (frame_clearIf _ _ _ _ List.mem_cons_self).trans (Frame.each _ (fun d n hn => ?_) _)
    refine ⟨fun a ha => rd_clearLead_ne d v n fun h => ha ?_, fun a => when_keeps d (fun d => d.ldB a) _ _ fun _ => rfl⟩
    exact h ▸ List.mem_cons_of_mem _ (List.mem_map_of_mem hn)
  · rw [each_keeps _ _ _ (fun d => d.rd R.RAS_CLIPCNT) fun d n => rd_clearLead_ne d v n (by unfold R.RAS_CLIPCNT R.RAS_HG_STAT; omega)]
    exact rd_clearIf_same _ _ _
  · split
    · next h =>
      refine each_sets (Q := fun _ => True)
        (P := fun n d => bitB v n = true → d.get (F.RAS_HG_STAT_LATE n) = 0 ∧ d.get (F.RAS_HG_STAT_MINLEAD n) = 64) trivial
        (fun _ _ _ => trivial) (fun d x _ hx => get_clearLead_same d hx) (fun d x y hy _ hb => ?_) n (List.mem_range.mpr hn) h
      by_cases hxy : y = x
      · exact hxy ▸ get_clearLead_same d (hxy ▸ hb)
      · simpa only [Dev.get, F.RAS_HG_STAT_LATE, F.RAS_HG_STAT_MINLEAD, rd_clearLead_ne d v x (rasHgStat_ne hxy)] using hy hb
    · next h =>
      rw [each_keeps _ _ _ (fun d => d.rd (R.RAS_HG_STAT n)) fun d m => ?_]
      · exact rd_clearIf_ne _ _ _ (by unfold R.RAS_CLIPCNT R.RAS_HG_STAT; omega)
      · by_cases hmn : n = m
        · rw [Dev.clearLead, ← hmn, Bool.eq_false_iff.mpr h, when_false]
        · exact rd_clearLead_ne d v m (rasHgStat_ne hmn)

theorem rasStatclr_granted (hg : Granted d req R.RAS_STATCLR v) :
    d.regWrite req R.RAS_STATCLR v = ((d.rewrite R.RAS_STATCLR).rasStatClr v).answer req R.RAS_STATCLR sOk 0 := by
  have hr := openReg_rasStatclr
  have hbit (i : Nat) (hi : i < 9) : bitB (d.rowWr req 10 R.RAS_STATCLR v _).new i = bitB v i :=
    hr.bitB_new (by interval_cases i <;> decide) (by interval_cases i <;> decide)
  rw [(hr.granted hg).2, regStore_holdsNothing (by decide) (by simp), blockApply_brd (.inr (.inr rfl)), brdApply_rasStatclr rfl,
    rasStatClr_congr _ hbit]

theorem rasStatclr_ends (s : State) (req v : Nat) : Ends (.rasStatclr req v) s fun e =>
    let d := s.dev
    Granted d req R.RAS_STATCLR v →
      WriteOk d e req R.RAS_STATCLR (R.RAS_CLIPCNT :: (List.range 8).map R.RAS_HG_STAT) ∧ e = { d with regs := e.regs, out := e.out } ∧
      (e.rd R.RAS_CLIPCNT).toNat = (if bitB v 8 then 0 else (d.rd R.RAS_CLIPCNT).toNat) ∧
      ∀ n : Fin 8, if bitB v n then e.get (F.RAS_HG_STAT_LATE n) = 0 ∧ e.get (F.RAS_HG_STAT_MINLEAD n) = 64 else e.rd (R.RAS_HG_STAT n) = d.rd (R.RAS_HG_STAT n) := by
  refine ends_of_upd (f := fun d => d.regWrite req R.RAS_STATCLR v) rfl fun hg => ?_
  rw [rasStatclr_granted hg]
  obtain ⟨hregs, hframe, hclip, hlead⟩ := rasStatClr_spec (s.dev.rewrite R.RAS_STATCLR) v
  simp only [rd_rewrite] at hclip hlead
  generalize (s.dev.rewrite R.RAS_STATCLR).rasStatClr v = e at *
  have hall := (OnlyRegs.rewrite s.dev R.RAS_STATCLR).trans hregs
  exact ⟨hall.writeOk ((frame_rewrite _ _ _).trans hframe), hall.answer, hclip, fun n => hlead n n.isLt⟩

/-! ### RAS_ERR and IMP_ERR -/

theorem rasErr_granted (hg : Granted d req R.RAS_ERR 0x80000000) :
    ∃ x, d.regWrite req R.RAS_ERR 0x80000000 =
      ((d.wrN R.RAS_ERR x).setThenClear R.RAS_ERR 0 R.RAS_ERRITEMLO R.RAS_ERRITEMHI).answer req R.RAS_ERR sOk 0 := by
  have hr := openReg_rasErr
  have hvalid : bitB (d.rowWr req 10 R.RAS_ERR 0x80000000 _).new 31 = true := hr.bitB_new (by decide) (by decide)
  rw [(hr.granted hg).2, regStore_unmirrored (by decide), blockApply_brd (.inr (.inr rfl)), brdApply_rasErr rfl, hvalid, when_true]
  exact ⟨_, rfl⟩

theorem impErr_granted (hg : Granted d req R.IMP_ERR 0x80000000) :
    ∃ x, d.regWrite req R.IMP_ERR 0x80000000 =
      ((d.wrN R.IMP_ERR x).setThenClear R.IMP_ERR 0 R.IMP_ERRITEMLO R.IMP_ERRITEMHI).answer req R.IMP_ERR sOk 0 := by
  have hr := openReg_impErr
  have hvalid : bitB (d.rowWr req 11 R.IMP_ERR 0x80000000 _).new 31 = true := hr.bitB_new (by decide) (by decide)
  rw [(hr.granted hg).2, regStore_unmirrored (by decide), blockApply_imp, impApply_err rfl, hvalid, when_true]
  exact ⟨_, rfl⟩

/-- A write that clears an error's registers, as R501 has it. -/
theorem errCleared {a lo hi x : Nat} (h1 : a ≠ lo) (h2 : a ≠ hi) (h3 : lo ≠ hi) (he : e = ((d.wrN a x).setThenClear a 0 lo hi).answer req a sOk 0) :
    WriteOk d e req a [a, lo, hi] ∧ e.rd a = 0 ∧ e.rd lo = 0 ∧ e.rd hi = 0 ∧ e = { d with regs := e.regs, out := e.out } := by
  obtain ⟨hregs, hframe, ha, hlo, hhi⟩ := setThenClear_spec (d.wrN a x) 0 h1 h2 h3
  subst he
  generalize (d.wrN a x).setThenClear a 0 lo hi = e at *
  have hall := ((OnlyRegs.refl d).wrN a x).trans hregs
  exact ⟨hall.writeOk ((frame_wrN d a x _ List.mem_cons_self).trans hframe), ha, hlo, hhi, hall.answer⟩

theorem rasErrClear_ends (s : State) (req : Nat) : Ends (.rasErrClear req) s fun e =>
    let d := s.dev
    Granted d req R.RAS_ERR 0x80000000 →
      WriteOk d e req R.RAS_ERR [R.RAS_ERR, R.RAS_ERRITEMLO, R.RAS_ERRITEMHI] ∧ e.rd R.RAS_ERR = 0 ∧ e.rd R.RAS_ERRITEMLO = 0 ∧ e.rd R.RAS_ERRITEMHI = 0 ∧
      e = { d with regs := e.regs, out := e.out } :=
  ends_of_upd (f := fun d => d.regWrite req R.RAS_ERR 0x80000000) rfl fun hg =>
    let ⟨_, he⟩ := rasErr_granted hg
    errCleared (by decide) (by decide) (by decide) he

theorem impErrClear_ends (s : State) (req : Nat) : Ends (.impErrClear req) s fun e =>
    let d := s.dev
    Granted d req R.IMP_ERR 0x80000000 →
      WriteOk d e req R.IMP_ERR [R.IMP_ERR, R.IMP_ERRITEMLO, R.IMP_ERRITEMHI] ∧ e.rd R.IMP_ERR = 0 ∧ e.rd R.IMP_ERRITEMLO = 0 ∧ e.rd R.IMP_ERRITEMHI = 0 ∧
      e = { d with regs := e.regs, out := e.out } :=
  ends_of_upd (f := fun d => d.regWrite req R.IMP_ERR 0x80000000) rfl fun hg =>
    let ⟨_, he⟩ := impErr_granted hg
    errCleared (by decide) (by decide) (by decide) he

end Sys2Proof.Machine
end

section
/-! Writes to NZM, CAL, FIR and SLU with a row of their own (R221, R229, R268). -/

namespace Sys2Proof.Machine

variable {d e : Dev} {req v : Nat}

/-! ### The registers -/

theorem openReg_nzmStatewr : OpenReg 12 R.NZM_STATEWR 0xFFFFF ⟨R.NZM_STATEWR, [], [⟨19, 18, .wo⟩, ⟨17, 0, .wo⟩], 0⟩ :=
  ⟨rfl, rfl, by decide +kernel, fun _ _ => rfl⟩

theorem openReg_calPb4req (hi : Bool) :
    let a := if hi then R.CAL_PB4REQHI else R.CAL_PB4REQLO
    OpenReg 13 a 0xFFFFFFFF ⟨a, [], [⟨31, 0, .w1s⟩], 0⟩ := by
  cases hi <;> exact ⟨rfl, rfl, by decide +kernel, fun _ _ => rfl⟩

theorem openReg_firCommit (n : Fin 8) : OpenReg 15 (R.FIR_HG_COMMIT n) 1 ⟨R.FIR_HG_COMMIT 0, [(0x100, 8)], [⟨0, 0, .wo⟩], 0⟩ :=
  ⟨by revert n; decide +kernel, by revert n; decide +kernel, by revert n; decide +kernel, fun _ _ => rfl⟩

theorem openReg_firStatclr : OpenReg 15 R.FIR_STATCLR 0x1FF ⟨R.FIR_STATCLR, [], [⟨8, 8, .wo⟩, ⟨7, 0, .wo⟩], 0⟩ :=
  ⟨rfl, rfl, by decide +kernel, fun _ _ => rfl⟩

theorem openReg_sluStatclr : OpenReg 17 R.SLU_STATCLR 0x3FF ⟨R.SLU_STATCLR, [], [⟨9, 9, .wo⟩, ⟨8, 8, .wo⟩, ⟨7, 0, .wo⟩], 0⟩ :=
  ⟨rfl, rfl, by decide +kernel, fun _ _ => rfl⟩

/-! ### The effect of each register -/

section
variable {w : Wr}

theorem blockApply_nzm {b : Nat} (h : b = 12 ∨ b = 13) : blockApply d b w = nzmApply d w := by
  rcases h with rfl | rfl <;> rfl

theorem blockCheck_nzm {b : Nat} (h : b = 12 ∨ b = 13) : blockCheck d b w = nzmCheck d w := by
  rcases h with rfl | rfl <;> rfl

theorem blockApply_fir {b : Nat} (h : b = 15 ∨ b = 17) : blockApply d b w = firApply d w := by
  rcases h with rfl | rfl <;> rfl

theorem blockCheck_fir {b : Nat} (h : b = 15 ∨ b = 17) : blockCheck d b w = firCheck d w := by
  rcases h with rfl | rfl <;> rfl

theorem nzmApply_statewr (h : w.base = R.NZM_STATEWR) : nzmApply d w = d.stateWr w.new := by
  rw [nzmApply, Wr.at, h]
  rfl

theorem nzmApply_other (h : w.base ≠ R.NZM_STATEWR) : nzmApply d w = d := by
  rw [nzmApply, Wr.at, beq_eq_false_iff_ne.mpr h]
  rfl

theorem firApply_commit (h : w.base = R.FIR_HG_COMMIT 0) :
    firApply d w = d.when (bitB w.new 0) fun d => d.put (F.FIR_HG_STAT_ARMED w.i) 1 := by
  rw [firApply, Wr.at, h]
  rfl

/-- Each element of `l` whose bit in `x` is set clears its registers. -/
def Dev.clearEach (d : Dev) (x : Nat) (l : List Nat) (regs : Nat → List Nat) : Dev :=
  d.each l fun d n => d.when (bitB x n) fun d => d.each (regs n) fun d a => d.wrN a 0

/-- What FIR_STATCLR clears of head group `n`. -/
abbrev firCleared (n : Nat) : List Nat := [R.FIR_HG_SQUEEZE n, R.FIR_HG_MAXLAG n]

/-- What SLU_STATCLR clears of head group `n`. -/
abbrev sluCleared (n : Nat) : List Nat := [R.SLU_HG_THINEV n, R.SLU_HG_STEPS n, R.SLU_HG_ROUNDS n, R.SLU_HG_HARDCNT n]

/-- MAXLOAD of every head goes to 0 where `b` holds. -/
def Dev.clearLoads (d : Dev) (b : Bool) : Dev := d.when b fun d => d.each (List.range 64) fun d h => d.put (F.SLU_HEAD_STAT_MAXLOAD h) 0

theorem firApply_firStatclr (h : w.base = R.FIR_STATCLR) :
    firApply d w = (d.clearIf (bitB w.new 8) R.FIR_RECDROP).clearEach w.new (List.range 8) firCleared := by
  rw [firApply, Wr.at, Wr.at, h]
  rfl

theorem firApply_sluStatclr (h : w.base = R.SLU_STATCLR) :
    firApply d w = ((d.clearEach w.new (List.range 8) sluCleared).clearLoads (bitB w.new 8)).clearEach w.new [9]
      fun _ => (List.range 16).map R.SLU_ZONE_LATECNT := by
  rw [firApply, Wr.at, Wr.at, Wr.at, h]
  rfl

end

/-! ### NZM_STATEWR -/

theorem running_or_safe (h : (!(d.running || d.st? = stSafe)) = false) : d.running = true ∨ d.st? = stSafe := by
  rwa [Bool.not_eq_false', Bool.or_eq_true, decide_eq_true_eq] at h

/-- A state change that passes its checks names a state OK or OUT and a nozzle that is there and not FAULTY (R222). -/
theorem stateWrCheck_ok {x : Nat} (h : d.stateWrCheck x = sOk) :
    bits x 18 2 < 2 ∧ (d.nozHead (bits x 0 18)).isSome = true ∧ (d.running = true ∨ d.st? = stSafe) ∧ d.nozState (bits x 0 18) ≠ 3 := by
  unfold Dev.stateWrCheck at h
  obtain ⟨hstate, h⟩ := firstFail_cons_ok h fun _ => by decide
  obtain ⟨hnoz, h⟩ := firstFail_cons_ok h fun _ => by decide
  obtain ⟨hrun, h⟩ := firstFail_cons_ok h fun _ => by decide
  obtain ⟨hfree, -⟩ := firstFail_cons_ok h fun _ => by decide
  exact ⟨Nat.lt_of_not_le (of_decide_eq_false hstate), by simpa [Option.isSome_iff_ne_none] using hnoz, running_or_safe hrun,
    by simpa using hfree⟩

theorem nzmCheck_statewr {w : Wr} (hw : w.base = R.NZM_STATEWR) (h : nzmCheck d w = sOk) : d.stateWrCheck w.new = sOk := by
  have hat : w.at R.NZM_STATEWR = true := beq_iff_eq.mpr hw
  unfold nzmCheck at h
  obtain ⟨-, h⟩ := firstFail_cons_ok h fun _ => by decide
  obtain ⟨-, h⟩ := firstFail_cons_ok h fun _ => by decide
  obtain ⟨-, h⟩ := firstFail_cons_ok h fun _ => by decide
  obtain ⟨hstate, -⟩ := firstFail_cons_ok h (by simp)
  simpa [hat] using hstate

/-- The change that a granted write names has passed its checks, and is queued once the partner has been told. -/
theorem nzmStatewr_granted (hg : Granted d req R.NZM_STATEWR v) :
    ∃ t o, d.stateWrCheck (d.rowWr req 12 R.NZM_STATEWR v ⟨R.NZM_STATEWR, [], [⟨19, 18, .wo⟩, ⟨17, 0, .wo⟩], 0⟩).new = sOk ∧
      d.regWrite req R.NZM_STATEWR v =
        ((({ d with twn := t, out := o } : Dev).rewrite R.NZM_STATEWR).stateWr
          (d.rowWr req 12 R.NZM_STATEWR v ⟨R.NZM_STATEWR, [], [⟨19, 18, .wo⟩, ⟨17, 0, .wo⟩], 0⟩).new).answer req R.NZM_STATEWR sOk 0 := by
  have hr := openReg_nzmStatewr
  obtain ⟨hcheck, hleft⟩ := hr.granted hg
  rw [blockCheck_nzm (.inl rfl)] at hcheck
  obtain ⟨t, o, hstore⟩ := regStore_mirrored (d := d) (b := 12) (v := v) (r := ⟨R.NZM_STATEWR, [], [⟨19, 18, .wo⟩, ⟨17, 0, .wo⟩], 0⟩) (by decide)
    (d.rowWr req 12 R.NZM_STATEWR v _)
  refine ⟨t, o, nzmCheck_statewr rfl hcheck, ?_⟩
  rw [hleft, hstore, blockApply_nzm (.inl rfl), nzmApply_statewr rfl, storedValue_holdsNothing (by simp)]
  rfl

theorem bits_pack18 (n : Nat) (k : Fin 4) :
    bits (n % 2 ^ 18 + k.val * 2 ^ 18) 0 18 = n % 2 ^ 18 ∧ bits (n % 2 ^ 18 + k.val * 2 ^ 18) 18 2 = k.val := by
  unfold bits
  rw [Nat.shiftRight_eq_div_pow, Nat.shiftRight_eq_div_pow]
  omega

theorem nzmStatewr_ends (s : State) (req n : Nat) (k : Fin 4) : Ends (.nzmStatewr req n k) s fun e =>
    let d := s.dev
    let m := n % 2 ^ 18
    Granted d req R.NZM_STATEWR (m + k.val * 2 ^ 18) →
      k.val ≤ 1 ∧ (d.nozHead m).isSome = true ∧ d.nozState m ≠ 3 ∧ (d.running = true ∨ d.st? = stSafe) ∧ WriteOk d e req R.NZM_STATEWR [] ∧
      e.nzm = { d.nzm with changes := d.nzm.changes ++ [(m, if k = 0 then 1 else 2)] } := by
  refine ends_of_upd (f := fun d => d.regWrite req R.NZM_STATEWR (n % 2 ^ 18 + k.val * 2 ^ 18)) rfl fun hg => ?_
  have hr := openReg_nzmStatewr
  obtain ⟨hnoz, hst⟩ := bits_pack18 n k
  obtain ⟨t, o, hcheck, hleft⟩ := nzmStatewr_granted hg
  obtain ⟨hk, hhead, hrun, hfree⟩ := stateWrCheck_ok hcheck
  rw [hr.bits_new (by decide) (by decide), hst] at hk
  rw [hr.bits_new (by decide) (by decide), hnoz] at hhead hfree
  rw [hleft, Dev.stateWr, hr.bits_new (by decide) (by decide), hr.bits_new (by decide) (by decide), hnoz, hst]
  have hk0 : (if k.val = 0 then 1 else 2) = if k = 0 then 1 else 2 := if_congr Fin.val_eq_zero_iff rfl rfl
  have hframe := frame_rewrite ({ s.dev with twn := t, out := o } : Dev) R.NZM_STATEWR []
  rw [hk0]
  exact ⟨Nat.le_of_lt_succ hk, hhead, hfree, hrun, ⟨⟨hframe.regs, hframe.mem⟩, rfl, rfl, rfl⟩, rfl⟩

/-! ### CAL_PB4REQ -/

theorem nzmCheck_pb4req {w : Wr} (hw : w.base = R.CAL_PB4REQLO ∨ w.base = R.CAL_PB4REQHI) (h : nzmCheck d w = sOk) :
    d.get F.CAL_CFG_MODE = 2 := by
  have hat : (w.at R.CAL_PB4REQLO || w.at R.CAL_PB4REQHI) = true := by
    rw [Bool.or_eq_true]
    exact hw.imp beq_iff_eq.mpr beq_iff_eq.mpr
  unfold nzmCheck at h
  obtain ⟨-, h⟩ := firstFail_cons_ok h fun _ => by decide
  obtain ⟨-, h⟩ := firstFail_cons_ok h fun _ => by decide
  obtain ⟨-, h⟩ := firstFail_cons_ok h fun _ => by decide
  obtain ⟨-, h⟩ := firstFail_cons_ok h (by simp)
  obtain ⟨hmode, -⟩ := firstFail_cons_ok h fun _ => by decide
  simpa [hat] using hmode

theorem pb4req_base {hi : Bool} {a : Nat} (ha : a = if hi then R.CAL_PB4REQHI else R.CAL_PB4REQLO) :
    (a = R.CAL_PB4REQLO ∨ a = R.CAL_PB4REQHI) ∧ mirrored 13 a [⟨31, 0, .w1s⟩] = true ∧ a ≠ R.NZM_STATEWR := by
  subst ha
  cases hi <;> decide

theorem calPb4req_granted {hi : Bool} {a heads : Nat} (ha : a = if hi then R.CAL_PB4REQHI else R.CAL_PB4REQLO) (hg : Granted d req a heads) :
    heads < 2 ^ 32 ∧ d.get F.CAL_CFG_MODE = 2 ∧
      ∃ t o, d.regWrite req a heads = (({ d with twn := t, out := o } : Dev).wrN a ((d.rd a).toNat ||| heads)).answer req a sOk 0 := by
  have hr : OpenReg 13 a 0xFFFFFFFF ⟨a, [], [⟨31, 0, .w1s⟩], 0⟩ := by rw [ha]; exact openReg_calPb4req hi
  obtain ⟨hbase, hmir, hother⟩ := pb4req_base ha
  have hlt := hr.lt_of_granted hg
  obtain ⟨hcheck, hleft⟩ := hr.granted hg
  rw [blockCheck_nzm (.inr rfl)] at hcheck
  obtain ⟨t, o, hstore⟩ := regStore_mirrored (d := d) (v := heads) (r := ⟨a, [], [⟨31, 0, .w1s⟩], 0⟩) hmir
    (d.rowWr req 13 a heads ⟨a, [], [⟨31, 0, .w1s⟩], 0⟩)
  refine ⟨hlt, nzmCheck_pb4req hbase hcheck, t, o, ?_⟩
  have hst : storedValue [⟨31, 0, .w1s⟩] (d.rd a).toNat heads = (d.rd a).toNat ||| heads := storedValue_w1s (d.rd a).isLt hlt
  rw [hleft, hstore, blockApply_nzm (.inr rfl), nzmApply_other hother, hr.new_eq rfl hg]
  exact congrArg (fun x => (({ d with twn := t, out := o } : Dev).wrN a x).answer req a sOk 0) hst

theorem calPb4req_ends (s : State) (req : Nat) (hi : Bool) (heads : Nat) : Ends (.calPb4req req hi heads) s fun e =>
    let d := s.dev
    let a := if hi then R.CAL_PB4REQHI else R.CAL_PB4REQLO
    Granted d req a heads → d.get F.CAL_CFG_MODE = 2 ∧ WriteOk d e req a [a] ∧ (e.rd a).toNat = (d.rd a).toNat ||| heads := by
  refine ends_of_upd (f := fun d => d.regWrite req (if hi then R.CAL_PB4REQHI else R.CAL_PB4REQLO) heads) rfl fun hg => ?_
  obtain ⟨hlt, hmode, t, o, hleft⟩ := calPb4req_granted rfl hg
  rw [hleft]
  generalize (if hi then R.CAL_PB4REQHI else R.CAL_PB4REQLO) = a
  have hframe := frame_wrN ({ s.dev with twn := t, out := o } : Dev) a ((s.dev.rd a).toNat ||| heads) [a] (List.mem_singleton_self a)
  refine ⟨hmode, ⟨⟨hframe.regs, hframe.mem⟩, rfl, rfl, rfl⟩, ?_⟩
  rw [rd_answer, rd_wrN_same, BitVec.toNat_ofNat, Nat.mod_eq_of_lt (Nat.or_lt_two_pow (s.dev.rd a).isLt hlt)]

/-! ### FIR_HG_COMMIT -/

theorem firCheck_commit {w : Wr} (hw : w.base = R.FIR_HG_COMMIT 0) (hgo : bitB w.new 0 = true) (h : firCheck d w = sOk) :
    d.trimsApart w.i = false ∧ (d.running = true ∨ d.st? = stSafe) := by
  have hat : w.at (R.FIR_HG_COMMIT 0) = true := beq_iff_eq.mpr hw
  unfold firCheck at h
  obtain ⟨-, h⟩ := firstFail_cons_ok h fun _ => by decide
  obtain ⟨-, h⟩ := firstFail_cons_ok h fun _ => by decide
  obtain ⟨-, h⟩ := firstFail_cons_ok h fun _ => by decide
  obtain ⟨htrims, h⟩ := firstFail_cons_ok h fun _ => by decide
  obtain ⟨hrun, -⟩ := firstFail_cons_ok h fun _ => by decide
  rw [hat, hgo, Bool.true_and, Bool.true_and] at htrims hrun
  exact ⟨htrims, running_or_safe hrun⟩

/-- The first index of an element of an array. -/
theorem rowWr_i (d : Dev) (req b a v base st k size : Nat) (dims : List (Nat × Nat)) (fields : List FieldRow) :
    (d.rowWr req b a v ⟨base, (st, k) :: dims, fields, size⟩).i = (a - base) / st := rfl

theorem firCommit_ix (n : Fin 8) : (d.rowWr req 15 (R.FIR_HG_COMMIT n) v ⟨R.FIR_HG_COMMIT 0, [(0x100, 8)], [⟨0, 0, .wo⟩], 0⟩).i = n := by
  rw [rowWr_i]
  unfold R.FIR_HG_COMMIT
  omega

theorem firCommit_granted {n : Fin 8} (hg : Granted d req (R.FIR_HG_COMMIT n) 1) :
    (d.running = true ∨ d.st? = stSafe) ∧ d.trimsApart n = false ∧ ∃ t o, d.regWrite req (R.FIR_HG_COMMIT n) 1 =
      ((({ d with twn := t, out := o } : Dev).rewrite (R.FIR_HG_COMMIT n)).put (F.FIR_HG_STAT_ARMED n) 1).answer req (R.FIR_HG_COMMIT n) sOk 0 := by
  have hr := openReg_firCommit n
  obtain ⟨hcheck, hleft⟩ := hr.granted hg
  have hgo : bitB (d.rowWr req 15 (R.FIR_HG_COMMIT n) 1 _).new 0 = true := hr.bitB_new (by decide) (by decide)
  rw [blockCheck_fir (.inl rfl)] at hcheck
  obtain ⟨htrims, hrun⟩ := firCheck_commit rfl hgo hcheck
  rw [firCommit_ix] at htrims
  obtain ⟨t, o, hstore⟩ := regStore_mirrored (d := d) (b := 15) (v := 1) (r := ⟨R.FIR_HG_COMMIT 0, [(0x100, 8)], [⟨0, 0, .wo⟩], 0⟩) (by decide)
    (d.rowWr req 15 (R.FIR_HG_COMMIT n) 1 _)
  refine ⟨hrun, htrims, t, o, ?_⟩
  rw [hleft, hstore, blockApply_fir (.inl rfl), firApply_commit rfl, hgo, when_true, firCommit_ix, storedValue_holdsNothing (by simp)]
  rfl

theorem firCommit_ends (s : State) (req : Nat) (n : Fin 8) : Ends (.firCommit req n) s fun e =>
    let d := s.dev
    Granted d req (R.FIR_HG_COMMIT n) 1 →
      (d.running = true ∨ d.st? = stSafe) ∧ d.trimsApart n = false ∧ WriteOk d e req (R.FIR_HG_COMMIT n) [R.FIR_HG_STAT n] ∧ e.get (F.FIR_HG_STAT_ARMED n) = 1 ∧
      e.act = d.act ∧ e.fir = d.fir := by
  refine ends_of_upd (f := fun d => d.regWrite req (R.FIR_HG_COMMIT n) 1) rfl fun hg => ?_
  obtain ⟨hrun, htrims, t, o, hleft⟩ := firCommit_granted hg
  rw [hleft]
  have hframe := (frame_rewrite ({ s.dev with twn := t, out := o } : Dev) (R.FIR_HG_COMMIT n) [R.FIR_HG_STAT n]).trans
    (frame_put _ (F.FIR_HG_STAT_ARMED n) 1 _ (List.mem_singleton_self _))
  have harmed := get_put_same (({ s.dev with twn := t, out := o } : Dev).rewrite (R.FIR_HG_COMMIT n)) (F.FIR_HG_STAT_ARMED n) 1
    (by simp [F.FIR_HG_STAT_ARMED])
  exact ⟨hrun, htrims, ⟨⟨hframe.regs, hframe.mem⟩, rfl, rfl, rfl⟩, (get_answer _ _ _ _ _ _).trans harmed, rfl, rfl⟩

/-! ### FIR_STATCLR and SLU_STATCLR -/

section
variable {x : Nat} {l : List Nat} {regs : Nat → List Nat} {a m : Nat}

theorem onlyRegs_clearEach (d : Dev) : OnlyRegs d (d.clearEach x l regs) :=
  (OnlyRegs.refl d).each fun d _ => (OnlyRegs.refl d).when fun d => (OnlyRegs.refl d).each fun _ _ => rfl

theorem frame_clearEach (d : Dev) {as : List Nat} (h : ∀ n ∈ l, ∀ a ∈ regs n, a ∈ as) : Frame d (d.clearEach x l regs) as :=
  Frame.each l (fun d n hn => Frame.when _ d (Frame.each _ (fun d a ha => frame_wrN d a 0 as (h n hn a ha)) d)) d

/-- A register that no element clears stands. -/
theorem rd_clearEach_ne (d : Dev) (h : ∀ n ∈ l, a ∉ regs n) : (d.clearEach x l regs).rd a = d.rd a :=
  (frame_clearEach d (as := l.flatMap regs) fun n hn _ ha => List.mem_flatMap.mpr ⟨n, hn, ha⟩).regs a fun ha =>
    have ⟨n, hn, hmem⟩ := List.mem_flatMap.mp ha
    h n hn hmem

/-- A register of element `m` alone reads 0 where the bit of `m` is set, else as before. -/
theorem toNat_rd_clearEach (d : Dev) (hm : m ∈ l) (ha : a ∈ regs m) (hown : ∀ n ∈ l, a ∈ regs n → n = m) :
    ((d.clearEach x l regs).rd a).toNat = if bitB x m then 0 else (d.rd a).toNat := by
  have hzero (d : Dev) (as : List Nat) (h : a ∈ as ∨ d.rd a = 0) : (d.each as fun d a => d.wrN a 0).rd a = 0 := by
    induction as generalizing d with
    | nil => exact h.resolve_left List.not_mem_nil
    | cons b as ih =>
      refine ih _ ?_
      by_cases hab : a = b
      · exact .inr (by rw [hab, rd_wrN_same]; rfl)
      · exact h.imp (fun h => (List.mem_cons.mp h).resolve_left hab) fun h => by rw [rd_wrN_ne _ _ _ _ hab, h]
  split
  · next hb =>
    have hset := each_sets (l := l) (d := d) (f := fun d n => d.when (bitB x n) fun d => d.each (regs n) fun d a => d.wrN a 0) (Q := fun _ => True)
      (P := fun n d => bitB x n = true → a ∈ regs n → d.rd a = 0) trivial (fun _ _ _ => trivial)
      (fun d n _ hn han => by rw [hn, when_true]; exact hzero d _ (.inl han))
      (fun d n k hk _ hkb hka => by
        cases bitB x n
        · exact hk hkb hka
        · exact hzero d _ (.inr (hk hkb hka)))
    exact congrArg BitVec.toNat (hset m hm hb ha)
  · next hb =>
    have hkeep : d.clearEach x l regs = d.clearEach x l (fun n => if n = m then [] else regs n) :=
      each_congr (fun d n _ => by
        by_cases hnm : n = m
        · rw [hnm, Bool.eq_false_iff.mpr hb, when_false, when_false]
        · simp only [if_neg hnm]) d
    rw [hkeep, rd_clearEach_ne]
    intro n hn han
    by_cases hnm : n = m
    · rw [if_pos hnm] at han
      exact List.not_mem_nil han
    · rw [if_neg hnm] at han
      exact hnm (hown n hn han)

end

/-- What FIR_STATCLR clears, and what it leaves. -/
theorem firStatclr_spec (d : Dev) (x : Nat) :
    let e := (d.clearIf (bitB x 8) R.FIR_RECDROP).clearEach x (List.range 8) firCleared
    OnlyRegs d e ∧ Frame d e (R.FIR_RECDROP :: ((List.range 8).map R.FIR_HG_SQUEEZE ++ (List.range 8).map R.FIR_HG_MAXLAG)) ∧
      (e.rd R.FIR_RECDROP).toNat = (if bitB x 8 then 0 else (d.rd R.FIR_RECDROP).toNat) ∧
      ∀ n < 8, ∀ a ∈ firCleared n, (e.rd a).toNat = if bitB x n then 0 else (d.rd a).toNat := by
  refine ⟨(onlyRegs_clearIf _ _ _).trans (onlyRegs_clearEach _), (frame_clearIf _ _ _ _ List.mem_cons_self).trans (frame_clearEach _ ?_), ?_, ?_⟩
  · intro n hn a ha
    refine List.mem_cons_of_mem _ (List.mem_append.mpr ?_)
    rcases List.mem_cons.mp ha with rfl | ha
    · exact .inl (List.mem_map_of_mem hn)
    · exact .inr (List.mem_singleton.mp ha ▸ List.mem_map_of_mem hn)
  · rw [rd_clearEach_ne _ fun n _ => ?_, rd_clearIf_same]
    simp only [List.mem_cons, List.not_mem_nil, or_false, R.FIR_RECDROP, R.FIR_HG_SQUEEZE, R.FIR_HG_MAXLAG]
    omega
  · intro n hn a ha
    rw [toNat_rd_clearEach _ (List.mem_range.mpr hn) ha, rd_clearIf_ne]
    all_goals
      simp only [List.mem_cons, List.not_mem_nil, or_false, R.FIR_RECDROP, R.FIR_HG_SQUEEZE, R.FIR_HG_MAXLAG] at *
      omega

theorem firStatclr_granted (hg : Granted d req R.FIR_STATCLR v) :
    ∃ x, (∀ i < 9, bitB x i = bitB v i) ∧ d.regWrite req R.FIR_STATCLR v =
      (((d.rewrite R.FIR_STATCLR).clearIf (bitB x 8) R.FIR_RECDROP).clearEach x (List.range 8) firCleared).answer req R.FIR_STATCLR sOk 0 := by
  have hr := openReg_firStatclr
  refine ⟨_, fun i hi => hr.bitB_new (d := d) (req := req) (v := v) (by interval_cases i <;> decide) (by interval_cases i <;> decide), ?_⟩
  rw [(hr.granted hg).2, regStore_holdsNothing (by decide) (by simp), blockApply_fir (.inl rfl), firApply_firStatclr rfl]

theorem firStatclr_ends (s : State) (req v : Nat) : Ends (.firStatclr req v) s fun e =>
    let d := s.dev
    Granted d req R.FIR_STATCLR v →
      WriteOk d e req R.FIR_STATCLR (R.FIR_RECDROP :: ((List.range 8).map R.FIR_HG_SQUEEZE ++ (List.range 8).map R.FIR_HG_MAXLAG)) ∧ e = { d with regs := e.regs, out := e.out } ∧
      (e.rd R.FIR_RECDROP).toNat = (if bitB v 8 then 0 else (d.rd R.FIR_RECDROP).toNat) ∧
      ∀ n : Fin 8, (e.rd (R.FIR_HG_SQUEEZE n)).toNat = (if bitB v n then 0 else (d.rd (R.FIR_HG_SQUEEZE n)).toNat) ∧
        (e.rd (R.FIR_HG_MAXLAG n)).toNat = if bitB v n then 0 else (d.rd (R.FIR_HG_MAXLAG n)).toNat := by
  refine ends_of_upd (f := fun d => d.regWrite req R.FIR_STATCLR v) rfl fun hg => ?_
  obtain ⟨x, hbit, hleft⟩ := firStatclr_granted hg
  rw [hleft]
  obtain ⟨hregs, hframe, hrec, hof⟩ := firStatclr_spec (s.dev.rewrite R.FIR_STATCLR) x
  simp only [rd_rewrite] at hrec hof
  have hbit8 := hbit 8 (by decide)
  generalize ((s.dev.rewrite R.FIR_STATCLR).clearIf (bitB x 8) R.FIR_RECDROP).clearEach x (List.range 8) firCleared = e at *
  have hall := (OnlyRegs.rewrite s.dev R.FIR_STATCLR).trans hregs
  refine ⟨hall.writeOk ((frame_rewrite _ _ _).trans hframe), hall.answer, hbit8 ▸ hrec, fun n => ?_⟩
  rw [← hbit n (by omega)]
  exact ⟨hof n n.isLt _ (by simp), hof n n.isLt _ (by simp)⟩

theorem frame_clearLoads (d : Dev) (b : Bool) : Frame d (d.clearLoads b) ((List.range 64).map R.SLU_HEAD_STAT) :=
  Frame.when b d (Frame.each _ (fun d h hh => frame_put d (F.SLU_HEAD_STAT_MAXLOAD h) 0 _ (List.mem_map_of_mem (f := R.SLU_HEAD_STAT) hh)) d)

theorem onlyRegs_clearLoads (d : Dev) (b : Bool) : OnlyRegs d (d.clearLoads b) :=
  (OnlyRegs.refl d).when fun d => (OnlyRegs.refl d).each fun _ _ => rfl

theorem sluHeadStat_ne {h k : Nat} (hne : h ≠ k) : R.SLU_HEAD_STAT h ≠ R.SLU_HEAD_STAT k := by
  unfold R.SLU_HEAD_STAT
  omega

/-- MAXLOAD goes, STALE stands. -/
theorem get_clearLoads (d : Dev) (b : Bool) {h : Nat} (hh : h < 64) :
    (d.clearLoads b).get (F.SLU_HEAD_STAT_MAXLOAD h) = (if b then 0 else d.get (F.SLU_HEAD_STAT_MAXLOAD h)) ∧
      (d.clearLoads b).get (F.SLU_HEAD_STAT_STALE h) = d.get (F.SLU_HEAD_STAT_STALE h) := by
  refine ⟨?_, when_keeps d (Dev.get · (F.SLU_HEAD_STAT_STALE h)) b _ fun d =>
    each_keeps d _ _ (Dev.get · (F.SLU_HEAD_STAT_STALE h)) fun d k => ?_⟩
  · cases b
    · rfl
    · exact get_each_put (fld := F.SLU_HEAD_STAT_MAXLOAD) 0 (fun _ => by simp [F.SLU_HEAD_STAT_MAXLOAD]) (fun _ _ => sluHeadStat_ne) d
        (List.mem_range.mpr hh)
  · by_cases hk : h = k
    · rw [hk]
      exact get_put_apart _ _ _ _ (by simp [F.SLU_HEAD_STAT_MAXLOAD]) rfl (by simp [F.SLU_HEAD_STAT_STALE, F.SLU_HEAD_STAT_MAXLOAD])
    · exact get_put_ne _ _ _ _ (sluHeadStat_ne hk)

/-- What a write to SLU_STATCLR leaves. -/
def Dev.sluStatClr (d : Dev) (x : Nat) : Dev :=
  ((d.clearEach x (List.range 8) sluCleared).clearLoads (bitB x 8)).clearEach x [9] fun _ => (List.range 16).map R.SLU_ZONE_LATECNT

theorem onlyRegs_sluStatClr (d : Dev) (x : Nat) : OnlyRegs d (d.sluStatClr x) :=
  ((onlyRegs_clearEach d).trans (onlyRegs_clearLoads _ _)).trans (onlyRegs_clearEach _)

/-- Where a register of SLU_STATCLR lies. -/
theorem mem_sluCleared {n a : Nat} (ha : a ∈ sluCleared n) :
    a = 0x080A0134 + 0x40 * n ∨ a = 0x080A0138 + 0x40 * n ∨ a = 0x080A013C + 0x40 * n ∨ a = 0x080A0300 + 0x4 * n := by
  simp only [List.mem_cons, List.not_mem_nil, or_false] at ha
  exact ha

/-- The counters of the zones are none of the registers below them. -/
theorem rd_clearLates_ne (d : Dev) (x : Nat) {a : Nat} (ha : a < 0x080A0600) :
    (d.clearEach x [9] fun _ => (List.range 16).map R.SLU_ZONE_LATECNT).rd a = d.rd a :=
  rd_clearEach_ne d fun _ _ hmem => by
    obtain ⟨z, -, rfl⟩ := List.mem_map.mp hmem
    unfold R.SLU_ZONE_LATECNT at ha
    omega

/-- A status register of a head is none of the counters of the head groups. -/
theorem rd_clearGroups_ne (d : Dev) (x : Nat) {a : Nat} (ha : 0x080A0400 ≤ a) : (d.clearEach x (List.range 8) sluCleared).rd a = d.rd a :=
  rd_clearEach_ne d fun n hn hmem => by
    have hlt := List.mem_range.mp hn
    have hadr := mem_sluCleared hmem
    omega

theorem rd_clearLoads_ne (d : Dev) (b : Bool) {a : Nat} (ha : a < 0x080A0400 ∨ 0x080A0600 ≤ a) : (d.clearLoads b).rd a = d.rd a :=
  (frame_clearLoads d b).regs a fun hmem => by
    obtain ⟨h, hh, rfl⟩ := List.mem_map.mp hmem
    have hlt := List.mem_range.mp hh
    unfold R.SLU_HEAD_STAT at ha
    omega

theorem sluStatClr_groups (d : Dev) (x : Nat) {n a : Nat} (hn : n < 8) (ha : a ∈ sluCleared n) :
    ((d.sluStatClr x).rd a).toNat = if bitB x n then 0 else (d.rd a).toNat := by
  have hadr := mem_sluCleared ha
  rw [Dev.sluStatClr, rd_clearLates_ne _ _ (by omega), rd_clearLoads_ne _ _ (by omega), toNat_rd_clearEach _ (List.mem_range.mpr hn) ha]
  intro m hm hmem
  have hlt := List.mem_range.mp hm
  have hadr' := mem_sluCleared hmem
  omega

theorem sluStatClr_lates (d : Dev) (x : Nat) {z : Nat} (hz : z < 16) :
    ((d.sluStatClr x).rd (R.SLU_ZONE_LATECNT z)).toNat = if bitB x 9 then 0 else (d.rd (R.SLU_ZONE_LATECNT z)).toNat := by
  have hhigh : 0x080A0600 ≤ R.SLU_ZONE_LATECNT z := by
    unfold R.SLU_ZONE_LATECNT
    omega
  rw [Dev.sluStatClr, toNat_rd_clearEach (m := 9) _ List.mem_cons_self (List.mem_map_of_mem (List.mem_range.mpr hz)) (by simp),
    rd_clearLoads_ne _ _ (.inr hhigh), rd_clearGroups_ne _ _ (by omega)]

theorem sluStatClr_heads (d : Dev) (x : Nat) {h : Nat} (hh : h < 64) :
    (d.sluStatClr x).get (F.SLU_HEAD_STAT_MAXLOAD h) = (if bitB x 8 then 0 else d.get (F.SLU_HEAD_STAT_MAXLOAD h)) ∧
      (d.sluStatClr x).get (F.SLU_HEAD_STAT_STALE h) = d.get (F.SLU_HEAD_STAT_STALE h) := by
  have hlate (e : Dev) : (e.clearEach x [9] fun _ => (List.range 16).map R.SLU_ZONE_LATECNT).rd (R.SLU_HEAD_STAT h) = e.rd (R.SLU_HEAD_STAT h) :=
    rd_clearLates_ne e x (by unfold R.SLU_HEAD_STAT; omega)
  have hgroup : (d.clearEach x (List.range 8) sluCleared).rd (R.SLU_HEAD_STAT h) = d.rd (R.SLU_HEAD_STAT h) :=
    rd_clearGroups_ne d x (by unfold R.SLU_HEAD_STAT; omega)
  have hload := get_clearLoads (d.clearEach x (List.range 8) sluCleared) (bitB x 8) hh
  simpa only [Dev.sluStatClr, Dev.get, F.SLU_HEAD_STAT_MAXLOAD, F.SLU_HEAD_STAT_STALE, hlate, hgroup] using hload

theorem sluStatclr_granted (hg : Granted d req R.SLU_STATCLR v) :
    ∃ x, (∀ i < 10, bitB x i = bitB v i) ∧
      d.regWrite req R.SLU_STATCLR v = ((d.rewrite R.SLU_STATCLR).sluStatClr x).answer req R.SLU_STATCLR sOk 0 := by
  have hr := openReg_sluStatclr
  refine ⟨_, fun i hi => hr.bitB_new (d := d) (req := req) (v := v) (by interval_cases i <;> decide) (by interval_cases i <;> decide), ?_⟩
  rw [(hr.granted hg).2, regStore_holdsNothing (by decide) (by simp), blockApply_fir (.inr rfl), firApply_sluStatclr rfl]
  rfl

theorem sluStatclr_ends (s : State) (req v : Nat) : Ends (.sluStatclr req v) s fun e =>
    let d := s.dev
    let of (r : Nat → Nat) (n : Nat) : Nat := if bitB v n then 0 else (d.rd (r n)).toNat
    Granted d req R.SLU_STATCLR v →
      (∀ x, e.ldB x = d.ldB x) ∧ e = { d with regs := e.regs, out := .reg req R.SLU_STATCLR sOk 0 :: d.out } ∧
      (∀ n : Fin 8, (e.rd (R.SLU_HG_THINEV n)).toNat = of R.SLU_HG_THINEV n ∧ (e.rd (R.SLU_HG_STEPS n)).toNat = of R.SLU_HG_STEPS n ∧
        (e.rd (R.SLU_HG_ROUNDS n)).toNat = of R.SLU_HG_ROUNDS n ∧ (e.rd (R.SLU_HG_HARDCNT n)).toNat = of R.SLU_HG_HARDCNT n) ∧
      (∀ h : Fin 64, e.get (F.SLU_HEAD_STAT_MAXLOAD h) = (if bitB v 8 then 0 else d.get (F.SLU_HEAD_STAT_MAXLOAD h)) ∧ e.get (F.SLU_HEAD_STAT_STALE h) = d.get (F.SLU_HEAD_STAT_STALE h)) ∧
      ∀ z : Fin 16, (e.rd (R.SLU_ZONE_LATECNT z)).toNat = if bitB v 9 then 0 else (d.rd (R.SLU_ZONE_LATECNT z)).toNat := by
  refine ends_of_upd (f := fun d => d.regWrite req R.SLU_STATCLR v) rfl fun hg => ?_
  obtain ⟨x, hbit, hleft⟩ := sluStatclr_granted hg
  rw [hleft]
  have hregs := (OnlyRegs.rewrite s.dev R.SLU_STATCLR).trans (onlyRegs_sluStatClr _ x)
  have hgroups (n : Fin 8) (a : Nat) (ha : a ∈ sluCleared n) := sluStatClr_groups (s.dev.rewrite R.SLU_STATCLR) x n.isLt ha
  have hheads (h : Fin 64) := sluStatClr_heads (s.dev.rewrite R.SLU_STATCLR) x h.isLt
  have hlates (z : Fin 16) := sluStatClr_lates (s.dev.rewrite R.SLU_STATCLR) x z.isLt
  simp only [rd_rewrite, get_rewrite, hbit 8 (by decide), hbit 9 (by decide), fun n : Fin 8 => hbit n (by omega)] at hgroups hheads hlates
  generalize (s.dev.rewrite R.SLU_STATCLR).sluStatClr x = e at *
  refine ⟨fun a => (congrArg (fun d : Dev => d.ldB a) hregs :), ?_, fun n => ?_, hheads, hlates⟩
  · exact hregs.out_answer (req := req) (a := R.SLU_STATCLR) ▸ hregs.answer
  · exact ⟨hgroups n _ (by simp), hgroups n _ (by simp), hgroups n _ (by simp), hgroups n _ (by simp)⟩

end Sys2Proof.Machine
end

section
/-! Arming and disarming a compare unit (R243, R244). -/

namespace Sys2Proof.Machine

variable {d e : Dev} {req v : Nat}

/-! ### The register -/

/-- The row of the ARM registers. -/
abbrev armRow : RegRow := ⟨R.POS_CMP_ARM 0, [(0x20, 16)], [⟨2, 2, .wo⟩, ⟨1, 1, .wo⟩, ⟨0, 0, .wo⟩], 0⟩

theorem openReg_cmpArm (c : Fin 16) : OpenReg 14 (R.POS_CMP_ARM c) 7 armRow :=
  ⟨by revert c; decide +kernel, by revert c; decide +kernel, by revert c; decide +kernel, fun _ _ => rfl⟩

theorem cmpArm_ix (c : Fin 16) : (d.rowWr req 14 (R.POS_CMP_ARM c) v armRow).i = c := by
  rw [rowWr_i]
  unfold R.POS_CMP_ARM
  omega

section
variable {w : Wr}

theorem blockApply_pos : blockApply d 14 w = posApply d w := rfl

theorem posApply_arm (h : w.base = R.POS_CMP_ARM 0) :
    posApply d w = if bitB w.new 0 then d.armCmp w.i else d.when (bitB w.new 2) fun d => d.put (F.POS_CMP_STAT_ARMED w.i) 0 := by
  rw [posApply, Wr.at, h]
  rfl

theorem posCheck_arm (hw : w.base = R.POS_CMP_ARM 0) (hgo : bitB w.new 0 = true) (h : posCheck d w = sOk) :
    d.armCheck w.i (bitB w.new 1) = sOk := by
  have hat : w.at (R.POS_CMP_ARM 0) = true := beq_iff_eq.mpr hw
  rw [posCheck, if_pos hat, hgo] at h
  obtain ⟨-, h⟩ := firstFail_cons_ok h fun _ => by decide
  obtain ⟨harm, -⟩ := firstFail_cons_ok h (by simp)
  simpa using harm

end

/-- A position that has passed is armed with LATE_OK alone (R243). -/
theorem late_of_armCheck {c : Nat} {late : Bool} (h : d.armCheck c late = sOk)
    (hp : passed (d.zonePos (d.get (F.POS_CMP_CFG_ZONE c))) (d.cmpPos c) = true) : late = true := by
  unfold Dev.armCheck at h
  obtain ⟨-, h⟩ := firstFail_cons_ok h fun _ => by decide
  obtain ⟨-, h⟩ := firstFail_cons_ok h fun _ => by decide
  obtain ⟨-, h⟩ := firstFail_cons_ok h fun _ => by decide
  obtain ⟨-, h⟩ := firstFail_cons_ok h fun _ => by decide
  obtain ⟨-, h⟩ := firstFail_cons_ok h fun _ => by decide
  obtain ⟨hlate, -⟩ := firstFail_cons_ok h fun _ => by decide
  simpa [hp] using hlate

/-! ### The write -/

theorem bits_armWord (late : Bool) : bitB (1 + 2 * late.toNat) 0 = true ∧ bitB (1 + 2 * late.toNat) 1 = late := by cases late <;> decide

theorem compareArm_granted {c : Fin 16} {late : Bool} (hg : Granted d req (R.POS_CMP_ARM c) (1 + 2 * late.toNat)) :
    d.armCheck c late = sOk ∧
      d.regWrite req (R.POS_CMP_ARM c) (1 + 2 * late.toNat) = ((d.rewrite (R.POS_CMP_ARM c)).armCmp c).answer req (R.POS_CMP_ARM c) sOk 0 := by
  have hr := openReg_cmpArm c
  obtain ⟨hcheck, hleft⟩ := hr.granted hg
  obtain ⟨hgo, hok⟩ := bits_armWord late
  have hnew : bitB (d.rowWr req 14 (R.POS_CMP_ARM c) (1 + 2 * late.toNat) armRow).new 0 = true := (hr.bitB_new (by decide) (by decide)).trans hgo
  have hlate : bitB (d.rowWr req 14 (R.POS_CMP_ARM c) (1 + 2 * late.toNat) armRow).new 1 = late := (hr.bitB_new (by decide) (by decide)).trans hok
  have harm := posCheck_arm rfl hnew hcheck
  rw [hlate, cmpArm_ix] at harm
  refine ⟨harm, ?_⟩
  rw [hleft, regStore_holdsNothing (by decide) (by simp), blockApply_pos, posApply_arm rfl, if_pos hnew, cmpArm_ix]

theorem compareDisarm_granted {c : Fin 16} (hg : Granted d req (R.POS_CMP_ARM c) 4) :
    d.regWrite req (R.POS_CMP_ARM c) 4 =
      ((d.rewrite (R.POS_CMP_ARM c)).put (F.POS_CMP_STAT_ARMED c) 0).answer req (R.POS_CMP_ARM c) sOk 0 := by
  have hr := openReg_cmpArm c
  have hgo : bitB (d.rowWr req 14 (R.POS_CMP_ARM c) 4 armRow).new 0 = false := hr.bitB_new (by decide) (by decide)
  have hdis : bitB (d.rowWr req 14 (R.POS_CMP_ARM c) 4 armRow).new 2 = true := hr.bitB_new (by decide) (by decide)
  rw [(hr.granted hg).2, regStore_holdsNothing (by decide) (by simp), blockApply_pos, posApply_arm rfl, hgo, hdis, when_true, cmpArm_ix]
  rfl

theorem compareDisarm_ends (s : State) (req : Nat) (c : Fin 16) : Ends (.compareDisarm req c) s fun e =>
    let d := s.dev
    Granted d req (R.POS_CMP_ARM c) 4 →
      WriteOk d e req (R.POS_CMP_ARM c) [R.POS_CMP_STAT c] ∧ e.get (F.POS_CMP_STAT_ARMED c) = 0 ∧ e = { d with regs := e.regs, out := e.out } ∧
      e.get (F.POS_CMP_STAT_MATCHED c) = d.get (F.POS_CMP_STAT_MATCHED c) ∧ e.get (F.POS_CMP_STAT_MISSCNT c) = d.get (F.POS_CMP_STAT_MISSCNT c) := by
  refine ends_of_upd (f := fun d => d.regWrite req (R.POS_CMP_ARM c) 4) rfl fun hg => ?_
  rw [compareDisarm_granted hg]
  have hregs := (OnlyRegs.rewrite s.dev (R.POS_CMP_ARM c)).put (F.POS_CMP_STAT_ARMED c) 0
  have hframe := (frame_rewrite s.dev (R.POS_CMP_ARM c) [R.POS_CMP_STAT c]).trans
    (frame_put _ (F.POS_CMP_STAT_ARMED c) 0 _ (List.mem_singleton_self _))
  have harmed := get_put_same (s.dev.rewrite (R.POS_CMP_ARM c)) (F.POS_CMP_STAT_ARMED c) 0 (by simp [F.POS_CMP_STAT_ARMED])
  have hmatched := get_put_apart (s.dev.rewrite (R.POS_CMP_ARM c)) (F.POS_CMP_STAT_ARMED c) (F.POS_CMP_STAT_MATCHED c) 0
    (by simp [F.POS_CMP_STAT_ARMED]) rfl (by simp [F.POS_CMP_STAT_ARMED, F.POS_CMP_STAT_MATCHED])
  have hmiss := get_put_apart (s.dev.rewrite (R.POS_CMP_ARM c)) (F.POS_CMP_STAT_ARMED c) (F.POS_CMP_STAT_MISSCNT c) 0
    (by simp [F.POS_CMP_STAT_ARMED]) rfl (by simp [F.POS_CMP_STAT_ARMED, F.POS_CMP_STAT_MISSCNT])
  rw [get_rewrite] at hmatched hmiss
  generalize (s.dev.rewrite (R.POS_CMP_ARM c)).put (F.POS_CMP_STAT_ARMED c) 0 = e at *
  exact ⟨hregs.writeOk hframe, (get_answer _ _ _ _ _ _).trans harmed, hregs.answer, (get_answer _ _ _ _ _ _).trans hmatched,
    (get_answer _ _ _ _ _ _).trans hmiss⟩

/-! ### What a match leaves -/

/-- The registers that a match of a compare unit can change outside POS: those of the trigger generators that it starts. -/
abbrev trgRegs : List Nat := R.CAM_IRQ_STAT :: ((List.range 4).map R.CAM_TRG_STAT ++ (List.range 4).map R.CAM_TRG_COUNT)

/-- Registers outside `as`, the memory and the items stand. -/
structure ItemFrame (d e : Dev) (as : List Nat) : Prop where
  frame : Frame d e as
  itk : e.itk = d.itk

namespace ItemFrame
variable {f : Dev} {as : List Nat}

theorem refl (d : Dev) (as : List Nat) : ItemFrame d d as := ⟨.refl d as, rfl⟩

theorem trans (h : ItemFrame d e as) (k : ItemFrame e f as) : ItemFrame d f as := ⟨h.frame.trans k.frame, k.itk.trans h.itk⟩

theorem put (h : ItemFrame d e as) {g : Fld} (hg : g.addr ∈ as) (x : Nat) : ItemFrame d (e.put g x) as :=
  ⟨h.frame.trans (frame_put e g x as hg), h.itk⟩

theorem each {α : Type} {l : List α} {g : Dev → α → Dev} (h : ItemFrame d e as) (hg : ∀ d, ∀ x ∈ l, ItemFrame d (g d x) as) :
    ItemFrame d (e.each l g) as := by
  induction l generalizing e with
  | nil => exact h
  | cons x l ih => exact ih (h.trans (hg e x List.mem_cons_self)) fun d y hy => hg d y (List.mem_cons_of_mem x hy)

end ItemFrame

theorem itemFrame_driveCmp (d : Dev) (c : Nat) (l : Bool) : ItemFrame d (d.driveCmp c l) trgRegs := by
  unfold Dev.driveCmp
  dsimp only
  split <;> exact ⟨⟨fun _ _ => rfl, fun _ => rfl⟩, rfl⟩

/-- The lines read of the comparator's source start anew with its generator. -/
theorem itemFrame_startGen (d : Dev) {k : Nat} (t0 : Nat) (late : Bool) (hk : k < 4) : ItemFrame d (d.startGen k t0 late) trgRegs := by
  have hstat : R.CAM_TRG_STAT k ∈ trgRegs :=
    List.mem_cons_of_mem _ (List.mem_append_left _ (List.mem_map_of_mem (List.mem_range.mpr hk)))
  have hcount : R.CAM_TRG_COUNT k ∈ trgRegs :=
    List.mem_cons_of_mem _ (List.mem_append_right _ (List.mem_map_of_mem (List.mem_range.mpr hk)))
  have hopen (d : Dev) (g : Gen → Gen) :
      ItemFrame d ((d.when (d.insGenIs k) fun d => d.onIns fun t => { t with front := [0, 0, 0, 0], readTo := 0 }).onGen k g) trgRegs := by
    cases d.insGenIs k <;> exact ⟨⟨fun _ _ => rfl, fun _ => rfl⟩, rfl⟩
  unfold Dev.startGen
  have hrun := ((((hopen d fun g => { t0 := t0, next := t0, late := late, epoch := g.epoch + 1 }).put (g := F.CAM_TRG_STAT_WAITING k) hstat 0).put
    (g := F.CAM_TRG_STAT_RUNNING k) hstat 1).put (g := F.CAM_TRG_STAT_LATE k) hstat (if late then 1 else 0)).put
    (g := F.CAM_TRG_COUNT_COUNT k) hcount 0
  cases late
  · exact hrun
  · exact hrun.put (g := F.CAM_IRQ_STAT_LATE) List.mem_cons_self 1

/-- What a match does beside its flags (R244): it drives its pad, or starts the generators that wait for it. -/
def Dev.cmpAct (d : Dev) (c act at' : Nat) : Dev :=
  if act = 1 then d.driveCmp c true
  else if act = 2 then d.driveCmp c (!(nth d.pos.cmpPad c false))
  else if act = 3 then
    d.each ((List.range 4).filter fun k => d.get (F.CAM_TRG_STAT_WAITING k) == 1 && d.get (F.CAM_TRG_CFG_CMP k) == c) fun d k =>
      d.startGen k (at' * 2 ^ 16) false
  else d

theorem itemFrame_cmpAct (d : Dev) (c act at' : Nat) : ItemFrame d (d.cmpAct c act at') trgRegs := by
  unfold Dev.cmpAct
  split_ifs
  · exact itemFrame_driveCmp d c true
  · exact itemFrame_driveCmp d c _
  · exact (ItemFrame.refl d _).each fun d k hk => itemFrame_startGen d _ _ (List.mem_range.mp (List.mem_filter.mp hk).1)
  · exact .refl d _

/-- The flags of a match. -/
def Dev.cmpFlags (d : Dev) (c : Nat) (late : Bool) : Dev :=
  ((d.put (F.POS_CMP_STAT_MATCHED c) 1).put (F.POS_CMP_STAT_LATE c) (if late then 1 else 0)).put F.POS_IRQ_STAT_CMP 1

/-- The next position of a periodic unit, past the `skip` that have gone by. -/
def Dev.cmpNext (d : Dev) (c at' per skip : Nat) : Dev :=
  (d.onPos fun p => { p with cmpAt := upd p.cmpAt c fun _ => (at' + (skip + 1) * per) % 2 ^ 48 }).addSat (F.POS_CMP_STAT_MISSCNT c) skip

theorem cmpMatch_eq (d : Dev) (c : Nat) (late : Bool) :
    d.cmpMatch c late =
      if d.get (F.POS_CMP_PERIOD_VALUE c) = 0 then
        ((d.cmpFlags c late).cmpAct c (d.get (F.POS_CMP_CFG_ACTION c)) (nth d.pos.cmpAt c 0)).put (F.POS_CMP_STAT_ARMED c) 0
      else
        ((d.cmpFlags c late).cmpAct c (d.get (F.POS_CMP_CFG_ACTION c)) (nth d.pos.cmpAt c 0)).cmpNext c (nth d.pos.cmpAt c 0)
          (d.get (F.POS_CMP_PERIOD_VALUE c))
          ((d.zonePos (d.get (F.POS_CMP_CFG_ZONE c)) + 2 ^ 48 - nth d.pos.cmpAt c 0 % 2 ^ 48) % 2 ^ 48 / d.get (F.POS_CMP_PERIOD_VALUE c)) := rfl

/-- The flags of a late match, as its last step finds and leaves them. -/
structure LateMatch (e : Dev) (c : Nat) : Prop where
  matched : e.get (F.POS_CMP_STAT_MATCHED c) = 1
  late : e.get (F.POS_CMP_STAT_LATE c) = 1
  irq : e.get F.POS_IRQ_STAT_CMP = 1

theorem cmpStat_ne_irq (c : Nat) : R.POS_IRQ_STAT ≠ R.POS_CMP_STAT c := by
  unfold R.POS_IRQ_STAT R.POS_CMP_STAT
  omega

theorem cmpFlags_spec (d : Dev) (c : Nat) :
    LateMatch (d.cmpFlags c true) c ∧ (d.cmpFlags c true).get (F.POS_CMP_STAT_ARMED c) = d.get (F.POS_CMP_STAT_ARMED c) ∧
      ItemFrame d (d.cmpFlags c true) [R.POS_CMP_STAT c, R.POS_IRQ_STAT] := by
  have hirq (d : Dev) {f : Fld} (hf : f.addr = R.POS_CMP_STAT c) : (d.put F.POS_IRQ_STAT_CMP 1).get f = d.get f :=
    get_put_ne d _ _ _ (hf ▸ (cmpStat_ne_irq c).symm)
  have hlate (d : Dev) {f : Fld} (hf : f.addr = R.POS_CMP_STAT c) (hlow : f.lo + f.width ≤ 2) : (d.put (F.POS_CMP_STAT_LATE c) 1).get f = d.get f :=
    get_put_apart d (F.POS_CMP_STAT_LATE c) f 1 (by simp [F.POS_CMP_STAT_LATE]) hf (.inl hlow)
  refine ⟨⟨?_, ?_, get_put_same _ F.POS_IRQ_STAT_CMP 1 (by decide)⟩, ?_, ?_⟩
  · exact (hirq _ rfl).trans ((hlate _ rfl (by simp [F.POS_CMP_STAT_MATCHED])).trans
      (get_put_same d (F.POS_CMP_STAT_MATCHED c) 1 (by simp [F.POS_CMP_STAT_MATCHED])))
  · exact (hirq _ rfl).trans (get_put_same _ (F.POS_CMP_STAT_LATE c) 1 (by simp [F.POS_CMP_STAT_LATE]))
  · exact (hirq _ rfl).trans ((hlate _ rfl (by simp [F.POS_CMP_STAT_ARMED])).trans
      (get_put_apart d (F.POS_CMP_STAT_MATCHED c) (F.POS_CMP_STAT_ARMED c) 1 (by simp [F.POS_CMP_STAT_MATCHED]) rfl
        (by simp [F.POS_CMP_STAT_MATCHED, F.POS_CMP_STAT_ARMED])))
  · exact (((ItemFrame.refl d _).put (g := F.POS_CMP_STAT_MATCHED c) (by simp [F.POS_CMP_STAT_MATCHED]) 1).put (g := F.POS_CMP_STAT_LATE c)
      (by simp [F.POS_CMP_STAT_LATE]) 1).put (g := F.POS_IRQ_STAT_CMP) (by simp [F.POS_IRQ_STAT_CMP]) 1

/-- The registers of the trigger generators are none of POS. -/
theorem notMem_trgRegs {a : Nat} (h : a < 0x080B0000) : a ∉ trgRegs := fun ha => by
  simp only [List.mem_cons, List.mem_append, List.mem_map] at ha
  obtain rfl | ⟨k, -, rfl⟩ | ⟨k, -, rfl⟩ := ha
  · exact absurd h (by decide)
  · unfold R.CAM_TRG_STAT at h
    omega
  · unfold R.CAM_TRG_COUNT at h
    omega

/-- A field of a register that reads as before reads as before. -/
theorem get_of_rd {f : Fld} (h : e.rd f.addr = d.rd f.addr) : e.get f = d.get f := by rw [Dev.get, Dev.get, h]

theorem LateMatch.congr {c : Nat} (hm : LateMatch d c) (hstat : e.rd (R.POS_CMP_STAT c) = d.rd (R.POS_CMP_STAT c))
    (hirq : e.rd R.POS_IRQ_STAT = d.rd R.POS_IRQ_STAT) : LateMatch e c :=
  ⟨(get_of_rd (f := F.POS_CMP_STAT_MATCHED c) hstat).trans hm.matched, (get_of_rd (f := F.POS_CMP_STAT_LATE c) hstat).trans hm.late,
    (get_of_rd (f := F.POS_IRQ_STAT_CMP) hirq).trans hm.irq⟩

/-- A write to ARMED or MISSCNT leaves the flags. -/
theorem LateMatch.put {c : Nat} {f : Fld} (hm : LateMatch d c) (hf : f = F.POS_CMP_STAT_ARMED c ∨ f = F.POS_CMP_STAT_MISSCNT c) (x : Nat) :
    LateMatch (d.put f x) c := by
  have haddr : f.addr = R.POS_CMP_STAT c := by rcases hf with rfl | rfl <;> rfl
  have hlow : f.lo + f.width ≤ 32 := by rcases hf with rfl | rfl <;> simp [F.POS_CMP_STAT_ARMED, F.POS_CMP_STAT_MISSCNT]
  have hapart : f.lo + f.width ≤ 1 ∨ 3 ≤ f.lo := by rcases hf with rfl | rfl <;> simp [F.POS_CMP_STAT_ARMED, F.POS_CMP_STAT_MISSCNT]
  exact ⟨(get_put_apart d f (F.POS_CMP_STAT_MATCHED c) x hlow haddr.symm (by simp only [F.POS_CMP_STAT_MATCHED]; omega)).trans hm.matched,
    (get_put_apart d f (F.POS_CMP_STAT_LATE c) x hlow haddr.symm (by simp only [F.POS_CMP_STAT_LATE]; omega)).trans hm.late,
    (get_put_ne d f F.POS_IRQ_STAT_CMP x (haddr ▸ cmpStat_ne_irq c)).trans hm.irq⟩

theorem cmpMatch_spec (d : Dev) (c : Fin 16) :
    LateMatch (d.cmpMatch c true) c ∧ (∀ x, (d.cmpMatch c true).ldB x = d.ldB x) ∧ (d.cmpMatch c true).itk = d.itk ∧
      (d.cmpMatch c true).get (F.POS_CMP_STAT_ARMED c) =
        if d.get (F.POS_CMP_PERIOD_VALUE c) = 0 then 0 else d.get (F.POS_CMP_STAT_ARMED c) := by
  obtain ⟨hflags, harmed, hmine⟩ := cmpFlags_spec d c
  have hact := itemFrame_cmpAct (d.cmpFlags c true) c (d.get (F.POS_CMP_CFG_ACTION c)) (nth d.pos.cmpAt c 0)
  have hstat := hact.frame.regs (R.POS_CMP_STAT c) (notMem_trgRegs (by unfold R.POS_CMP_STAT; omega))
  have hirq := hact.frame.regs R.POS_IRQ_STAT (notMem_trgRegs (by decide))
  rw [cmpMatch_eq]
  generalize (d.cmpFlags c true).cmpAct c (d.get (F.POS_CMP_CFG_ACTION c)) (nth d.pos.cmpAt c 0) = e at *
  have hmatch := hflags.congr hstat hirq
  have hmem (x : Nat) : e.ldB x = d.ldB x := (hact.frame.mem x).trans (hmine.frame.mem x)
  have hitk : e.itk = d.itk := hact.itk.trans hmine.itk
  have hkept : e.get (F.POS_CMP_STAT_ARMED c) = d.get (F.POS_CMP_STAT_ARMED c) :=
    (get_of_rd (f := F.POS_CMP_STAT_ARMED c) hstat).trans harmed
  split
  · exact ⟨hmatch.put (.inl rfl) 0, hmem, hitk, get_put_same _ _ _ (by simp [F.POS_CMP_STAT_ARMED])⟩
  · refine ⟨LateMatch.put (d := e.onPos _) (hmatch.congr rfl rfl) (.inr rfl) _, hmem, hitk, Eq.trans ?_ hkept⟩
    exact get_put_apart _ (F.POS_CMP_STAT_MISSCNT c) (F.POS_CMP_STAT_ARMED c) _ (by simp [F.POS_CMP_STAT_MISSCNT]) rfl
      (by simp [F.POS_CMP_STAT_ARMED, F.POS_CMP_STAT_MISSCNT])

/-! ### Arming -/

theorem zonePos_congr {z : Nat} (hpos : e.pos.encs = d.pos.encs) (henc : e.get (F.POS_ZONE_CFG_ENC z) = d.get (F.POS_ZONE_CFG_ENC z))
    (hofs : ∀ k < 4, e.get64 (R.TWN_ENC_OFSLO k) (R.TWN_ENC_OFSHI k) = d.get64 (R.TWN_ENC_OFSLO k) (R.TWN_ENC_OFSHI k)) :
    e.zonePos z = d.zonePos z := by
  have hk : d.get (F.POS_ZONE_CFG_ENC z) < 4 := get_lt d (F.POS_ZONE_CFG_ENC z)
  rw [Dev.zonePos, Dev.zonePos, Dev.pairH, Dev.pairH, henc, hofs _ hk, hpos]

theorem get64_rewrite (d : Dev) (a lo hi : Nat) : (d.rewrite a).get64 lo hi = d.get64 lo hi := by
  rw [Dev.get64, Dev.get64, rd_rewrite, rd_rewrite]

theorem zonePos_rewrite (d : Dev) (a z : Nat) : (d.rewrite a).zonePos z = d.zonePos z :=
  zonePos_congr rfl (get_rewrite _ _ _) fun _ _ => get64_rewrite _ _ _ _

/-- The unit armed at its position. -/
def Dev.cmpArmed (d : Dev) (c : Nat) : Dev :=
  (d.put (F.POS_CMP_STAT_ARMED c) 1).onPos fun q => { q with cmpAt := upd q.cmpAt c fun _ => d.cmpPos c }

theorem armCmp_eq (d : Dev) (c : Nat) :
    d.armCmp c = (d.cmpArmed c).when (passed ((d.cmpArmed c).zonePos ((d.cmpArmed c).get (F.POS_CMP_CFG_ZONE c))) (d.cmpPos c)) fun d =>
      d.cmpMatch c true := rfl

theorem rd_cmpArmed (d : Dev) (c : Nat) {a : Nat} (h : a ≠ R.POS_CMP_STAT c) : (d.cmpArmed c).rd a = d.rd a :=
  rd_put_ne d (F.POS_CMP_STAT_ARMED c) a 1 h

theorem get_cmpArmed (d : Dev) (c : Nat) {f : Fld} (h : f.addr ≠ R.POS_CMP_STAT c) : (d.cmpArmed c).get f = d.get f :=
  get_put_ne d (F.POS_CMP_STAT_ARMED c) f 1 h

theorem armed_cmpArmed (d : Dev) (c : Nat) : (d.cmpArmed c).get (F.POS_CMP_STAT_ARMED c) = 1 :=
  get_put_same d (F.POS_CMP_STAT_ARMED c) 1 (by simp [F.POS_CMP_STAT_ARMED])

theorem zone_cmpArmed (d : Dev) (c : Fin 16) :
    (d.cmpArmed c).zonePos ((d.cmpArmed c).get (F.POS_CMP_CFG_ZONE c)) = d.zonePos (d.get (F.POS_CMP_CFG_ZONE c)) := by
  have hz : (d.cmpArmed c).get (F.POS_CMP_CFG_ZONE c) = d.get (F.POS_CMP_CFG_ZONE c) :=
    get_cmpArmed d c (by simp only [F.POS_CMP_CFG_ZONE, R.POS_CMP_CFG, R.POS_CMP_STAT]; omega)
  have hlt : d.get (F.POS_CMP_CFG_ZONE c) < 16 := get_lt d (F.POS_CMP_CFG_ZONE c)
  rw [hz]
  refine zonePos_congr rfl (get_cmpArmed d c ?_) fun k hk => ?_
  · simp only [F.POS_ZONE_CFG_ENC, R.POS_ZONE_CFG, R.POS_CMP_STAT]
    omega
  · rw [Dev.get64, Dev.get64, rd_cmpArmed d c (by unfold R.TWN_ENC_OFSLO R.POS_CMP_STAT; omega),
      rd_cmpArmed d c (by unfold R.TWN_ENC_OFSHI R.POS_CMP_STAT; omega)]

theorem nth_upd_same {α : Type} (l : List α) (i : Nat) (f : α → α) (x : α) (h : i < l.length) : nth (upd l i f) i x = f (nth l i x) := by
  simp [nth, upd, h]

/-- A unit whose position has passed matches at once, late (R243). -/
theorem armCmp_passed (d : Dev) (c : Fin 16) (h : passed (d.zonePos (d.get (F.POS_CMP_CFG_ZONE c))) (d.cmpPos c) = true) :
    LateMatch (d.armCmp c) c ∧ (∀ x, (d.armCmp c).ldB x = d.ldB x) ∧ (d.armCmp c).itk = d.itk ∧
      (d.armCmp c).get (F.POS_CMP_STAT_ARMED c) = if d.get (F.POS_CMP_PERIOD_VALUE c) = 0 then 0 else 1 := by
  have hper : (d.cmpArmed c).get (F.POS_CMP_PERIOD_VALUE c) = d.get (F.POS_CMP_PERIOD_VALUE c) :=
    get_cmpArmed d c (by simp only [F.POS_CMP_PERIOD_VALUE, R.POS_CMP_PERIOD, R.POS_CMP_STAT]; omega)
  have hspec := cmpMatch_spec (d.cmpArmed c) c
  rw [hper, armed_cmpArmed] at hspec
  rw [armCmp_eq, zone_cmpArmed, h, when_true]
  exact hspec

/-- A unit whose position lies ahead waits for it. -/
theorem armCmp_ahead (d : Dev) (c : Fin 16) (h : ¬ passed (d.zonePos (d.get (F.POS_CMP_CFG_ZONE c))) (d.cmpPos c) = true) :
    (d.armCmp c).get (F.POS_CMP_STAT_ARMED c) = 1 ∧ Frame d (d.armCmp c) [R.POS_CMP_STAT c] ∧
      d.armCmp c = { d with regs := (d.armCmp c).regs, pos := { d.pos with cmpAt := (d.armCmp c).pos.cmpAt } } ∧
      (c.val < d.pos.cmpAt.length → nth (d.armCmp c).pos.cmpAt c 0 = d.cmpPos c) := by
  rw [armCmp_eq, zone_cmpArmed, Bool.eq_false_iff.mpr h, when_false]
  have hframe := frame_put d (F.POS_CMP_STAT_ARMED c) 1 [R.POS_CMP_STAT c] (List.mem_singleton_self _)
  exact ⟨armed_cmpArmed d c, ⟨hframe.regs, hframe.mem⟩, rfl, fun hc => nth_upd_same _ _ _ _ hc⟩

theorem compareArm_ends (s : State) (req : Nat) (c : Fin 16) (late : Bool) : Ends (.compareArm req c late) s fun e =>
    let d := s.dev
    let p := d.get64 (R.POS_CMP_POSLO c) (R.POS_CMP_POSHI c)
    let z := d.get (F.POS_CMP_CFG_ZONE c)
    Granted d req (R.POS_CMP_ARM c) (1 + 2 * late.toNat) →
      (passed (d.zonePos z) p = true → late = true) ∧ e.out.head? = some (.reg req (R.POS_CMP_ARM c) sOk 0) ∧ (∀ x, e.ldB x = d.ldB x) ∧ e.itk = d.itk ∧
      if passed (d.zonePos z) p = true then
        e.get (F.POS_CMP_STAT_MATCHED c) = 1 ∧ e.get (F.POS_CMP_STAT_LATE c) = 1 ∧ e.get F.POS_IRQ_STAT_CMP = 1 ∧
        e.get (F.POS_CMP_STAT_ARMED c) = if d.get (F.POS_CMP_PERIOD_VALUE c) = 0 then 0 else 1
      else
        e.get (F.POS_CMP_STAT_ARMED c) = 1 ∧ WriteOk d e req (R.POS_CMP_ARM c) [R.POS_CMP_STAT c] ∧ e = { d with regs := e.regs, out := e.out, pos := { d.pos with cmpAt := e.pos.cmpAt } } ∧
        (c.val < d.pos.cmpAt.length → nth e.pos.cmpAt c 0 = p) := by
  refine ends_of_upd (f := fun d => d.regWrite req (R.POS_CMP_ARM c) (1 + 2 * late.toNat)) rfl fun hg => ?_
  obtain ⟨hcheck, hleft⟩ := compareArm_granted hg
  have hpos : (s.dev.rewrite (R.POS_CMP_ARM c)).cmpPos c = s.dev.cmpPos c := get64_rewrite _ _ _ _
  have hzone : (s.dev.rewrite (R.POS_CMP_ARM c)).zonePos ((s.dev.rewrite (R.POS_CMP_ARM c)).get (F.POS_CMP_CFG_ZONE c)) =
      s.dev.zonePos (s.dev.get (F.POS_CMP_CFG_ZONE c)) := by rw [get_rewrite, zonePos_rewrite]
  refine ⟨fun h => late_of_armCheck hcheck h, ?_⟩
  rw [hleft]
  have hregs := frame_rewrite s.dev (R.POS_CMP_ARM c) [R.POS_CMP_STAT c]
  have hlate := armCmp_passed (s.dev.rewrite (R.POS_CMP_ARM c)) c
  have hahead := armCmp_ahead (s.dev.rewrite (R.POS_CMP_ARM c)) c
  rw [hzone, hpos, get_rewrite] at hlate
  rw [hzone, hpos] at hahead
  generalize (s.dev.rewrite (R.POS_CMP_ARM c)).armCmp c = e at *
  change _ ∧ _ ∧ _ ∧ if passed (s.dev.zonePos (s.dev.get (F.POS_CMP_CFG_ZONE c))) (s.dev.cmpPos c) = true then _ else _
  by_cases h : passed (s.dev.zonePos (s.dev.get (F.POS_CMP_CFG_ZONE c))) (s.dev.cmpPos c) = true
  · obtain ⟨hmatch, hmem, hitk, harmed⟩ := hlate h
    rw [if_pos h]
    exact ⟨rfl, hmem, hitk, hmatch.matched, hmatch.late, hmatch.irq, harmed⟩
  · obtain ⟨harmed, hframe, hrest, hat⟩ := hahead h
    have hitk := congrArg Dev.itk hrest
    have hreps := congrArg Dev.reps hrest
    have hall := hregs.trans hframe
    rw [if_neg h]
    exact ⟨rfl, hall.mem, hitk, harmed, ⟨⟨hall.regs, hall.mem⟩, rfl, hitk, hreps⟩,
      (congrArg (fun x : Dev => { x with out := (e.answer req (R.POS_CMP_ARM c) sOk 0).out }) hrest :), hat⟩

/-- Settles O53: each write that passes its checks leaves what its register's effect says (R501). -/
theorem printPathWrites : Obligations.PrintPathWrites :=
  ⟨brdDjobGo_ends, brcGo_ends, brcOutsize_ends, rasStatclr_ends, rasErrClear_ends, impErrClear_ends, nzmStatewr_ends, calPb4req_ends,
    compareArm_ends, compareDisarm_ends, firCommit_ends, firStatclr_ends, sluStatclr_ends⟩

end Sys2Proof.Machine
end

section
/-! What the end of an item leaves of a decompressor's error and of the item's mark as abandoned (R160, R188). -/

namespace Sys2Proof.Machine

/-- BRD_HGn_ERR holds an error, and every item with the ID is abandoned. -/
structure Breached (n id : Nat) (d : Dev) : Prop where
  valid : d.get (F.BRD_HG_ERR_VALID n) = 1
  items : ∀ j ∈ d.itk.items, j.id = id → j.abandoned = true

/-- No register but BRD_HGn_ERR shares its place within 16 bytes. -/
theorem ne_brdHgErr (n : Nat) {a : Nat} (h : a % 16 ≠ 12) : a ≠ R.BRD_HG_ERR n := by
  unfold R.BRD_HG_ERR
  omega

namespace Breached

variable {n id : Nat} {d e : Dev}

/-- A step that changes no register and no item. -/
theorem same (h : Breached n id d) (hregs : e.regs = d.regs) (hitems : e.itk.items = d.itk.items) : Breached n id e :=
  ⟨(congrArg (fun r => ({ d with regs := r } : Dev).get (F.BRD_HG_ERR_VALID n)) hregs).trans h.valid, hitems ▸ h.items⟩

/-- VALID is the last bit of its register: no field that ends below it and none of another register touches it. -/
theorem put (h : Breached n id d) {f : Fld} (hf : f.lo + f.width ≤ 31 ∨ f.lo + f.width ≤ 32 ∧ f.addr ≠ R.BRD_HG_ERR n) (v : Nat) :
    Breached n id (d.put f v) := by
  refine ⟨Eq.trans ?_ h.valid, h.items⟩
  by_cases ha : R.BRD_HG_ERR n = f.addr
  · have hlow : f.lo + f.width ≤ 31 := hf.resolve_right fun hne => hne.2 ha.symm
    exact get_put_apart d f (F.BRD_HG_ERR_VALID n) v (by omega) ha (.inr hlow)
  · exact get_put_ne d f (F.BRD_HG_ERR_VALID n) v ha

theorem report (h : Breached n id d) (src : Nat) (x : Option Nat) : Breached n id (d.report src x) :=
  h.same (report_regs d src x) (by rw [report_itk])

theorem emit (h : Breached n id d) (o : Out) : Breached n id (d.emit o) := h.same rfl rfl

theorem onPos (h : Breached n id d) (f : PosSt → PosSt) : Breached n id (d.onPos f) := h.same rfl rfl

theorem onRas (h : Breached n id d) (f : RasSt → RasSt) : Breached n id (d.onRas f) := h.same rfl rfl

theorem onFir (h : Breached n id d) (f : FirSt → FirSt) : Breached n id (d.onFir f) := h.same rfl rfl

theorem onTwn (h : Breached n id d) (f : TwnSt → TwnSt) : Breached n id (d.onTwn f) := h.same rfl rfl

theorem onPgf (h : Breached n id d) (f : PgfSt → PgfSt) : Breached n id (d.onPgf f) := h.same rfl rfl

theorem onDmc (h : Breached n id d) (f : DmcSt → DmcSt) : Breached n id (d.onDmc f) := h.same rfl rfl

theorem onPages (h : Breached n id d) (f : ItkSt → List Page) : Breached n id (d.onItk fun t => { t with pages := f t }) := h.same rfl rfl

theorem when (h : Breached n id d) {b : Bool} {f : Dev → Dev} (hf : Breached n id (f d)) : Breached n id (d.when b f) := by
  cases b
  · exact h
  · exact hf

theorem each {α : Type} (h : Breached n id d) {l : List α} {f : Dev → α → Dev}
    (hf : ∀ d, ∀ x ∈ l, Breached n id d → Breached n id (f d x)) : Breached n id (d.each l f) := by
  induction l generalizing d with
  | nil => exact h
  | cons x l ih => exact ih (hf d x List.mem_cons_self h) fun d y hy => hf d y (List.mem_cons_of_mem x hy)

/-- An item that is changed keeps its ID and its mark. -/
theorem updItem (h : Breached n id d) (k : Nat) {f : Item → Item} (hf : ∀ i, (f i).id = i.id ∧ (f i).abandoned = i.abandoned) :
    Breached n id (d.updItem k f) := by
  refine ⟨h.valid, fun j hj hid => ?_⟩
  obtain ⟨i, hi, rfl⟩ := List.mem_map.mp hj
  split_ifs at hid ⊢
  · rw [(hf i).1] at hid
    rw [(hf i).2]
    exact h.items i hi hid
  · exact h.items i hi hid

theorem syncOpen (h : Breached n id d) (k : Nat) : Breached n id (d.syncOpen k) := by
  unfold Dev.syncOpen
  exact (h.put (f := F.BRD_HG_STAT_OPEN k) (.inl (by simp [F.BRD_HG_STAT_OPEN])) _).put (f := F.BRD_HG_STAT_HISTKIB k)
    (.inl (by simp [F.BRD_HG_STAT_HISTKIB])) _

/-! ### Messages -/

theorem twSend (h : Breached n id d) (type : Nat) (body : List Nat) : Breached n id (d.twSend type body) := (h.onTwn _).emit _

theorem twInput (h : Breached n id d) (kind unit count : Nat) (args : List Nat) : Breached n id (d.twInput kind unit count args) :=
  h.when (h.twSend _ _)

theorem fabBroadcast (h : Breached n id d) (ptype : Nat) (payload : List Byte) : Breached n id (d.fabBroadcast ptype payload) :=
  h.each fun _ _ _ h => h.when (h.onPgf _)

theorem sendRefusal (h : Breached n id d) (link i reason : Nat) : Breached n id (d.sendRefusal link i reason) := by
  have h1 : Breached n id ((d.put F.ITK_IRQ_STAT_LINKREF 1).report 47) := (h.put (.inl (by decide)) 1).report 47 none
  unfold Dev.sendRefusal
  extract_lets d1 d2 rep d3
  have h2 : Breached n id d2 := h1.put (.inr ⟨by decide, ne_brdHgErr n (by decide)⟩) _
  split_ifs
  · exact h
  · exact (h2.onPgf _).fabBroadcast _ _
  · exact h1

theorem mwr (h : Breached n id d) (a v : Nat) : Breached n id (d.mwr a v).1 := by
  have hst (e : Dev) (x : Nat) (he : Breached n id e) : Breached n id (e.st a 8 x) :=
    he.same (by rw [Dev.st, stBs_mem]) (by rw [Dev.st, stBs_mem])
  have hfresh : Breached n id (d.fresh 64).2 := h.same rfl rfl
  unfold Dev.mwr
  split_ifs
  · exact h
  · exact (hst _ _ hfresh).put (.inl (by decide)) 1
  · exact hst _ _ h

theorem writeFinal (h : Breached n id d) (slot w : Nat) : Breached n id (d.writeFinal slot w).1 := by
  unfold Dev.writeFinal
  dsimp only
  split_ifs
  · exact ((h.mwr _ _).mwr _ _).mwr _ _
  · exact h.mwr _ _

/-! ### Reject requests -/

theorem rejPulse (h : Breached n id d) (o z : Nat) : Breached n id (d.rejPulse o z) := h.same rfl rfl

theorem rejRequest1 (h : Breached n id d) (o z p : Nat) : Breached n id (d.rejRequest1 o z p) := by
  have hstat (f : Fld) (hf : f.addr = R.POS_REJ_STAT o ∧ f.lo + f.width ≤ 32) :
      f.lo + f.width ≤ 31 ∨ f.lo + f.width ≤ 32 ∧ f.addr ≠ R.BRD_HG_ERR n :=
    .inr ⟨hf.2, ne_brdHgErr n (by rw [hf.1]; unfold R.POS_REJ_STAT; omega)⟩
  unfold Dev.rejRequest1
  extract_lets d1 q d2 d3
  have h1 : Breached n id d1 :=
    h.put (.inr ⟨by simp [F.POS_REJ_COUNT_COUNT], ne_brdHgErr n (by simp only [F.POS_REJ_COUNT_COUNT, R.POS_REJ_COUNT]; omega)⟩) _
  have h2 : Breached n id d2 := h1.onPos _
  have h3 : Breached n id d3 := h1.onPos _
  have hpulse : Breached n id (d1.rejPulse o z) := h1.rejPulse o z
  split_ifs
  · exact h1
  · exact ((hpulse.put (hstat (F.POS_REJ_STAT_LATECNT o) ⟨rfl, by simp [F.POS_REJ_STAT_LATECNT]⟩) _).put (.inl (by decide)) 1).report 91 none
  · exact h2.put (hstat (F.POS_REJ_STAT_PENDING o) ⟨rfl, by simp [F.POS_REJ_STAT_PENDING]⟩) _
  · exact ((h3.put (hstat (F.POS_REJ_STAT_HELD o) ⟨rfl, by simp [F.POS_REJ_STAT_HELD]⟩) 1).put (.inl (by decide)) 1).report 92 none

theorem rejItem (h : Breached n id d) (i : Item) : Breached n id (d.rejItem i) := by
  have hat (e : Dev) (z p : Nat) (he : Breached n id e) : Breached n id (e.rejAt z p) := by
    have h0 := he.when (b := decide (e.get (F.POS_ZONE_CFG_REJOUT z) % 2 = 1)) (f := fun d => d.rejRequest1 0 z p) (he.rejRequest1 0 z p)
    exact h0.when (f := fun d => d.rejRequest1 1 z p) (h0.rejRequest1 1 z p)
  unfold Dev.rejItem Dev.rejRequest
  split_ifs
  · exact hat _ _ _ (h.twInput _ _ _ _)
  · exact h

/-! ### The end of an item -/

theorem enter (h : Breached n id d) (k : Nat) : Breached n id (d.enter k) := by
  unfold Dev.enter
  split_ifs
  · exact h
  · exact ((h.put (.inl (by decide)) _).put (.inl (by decide)) _).put (.inl (by decide)) _

theorem syncPrinting (h : Breached n id d) : Breached n id d.syncPrinting := by
  unfold Dev.syncPrinting
  dsimp only
  split_ifs
  · exact (h.enter stPrinting).onDmc _
  · exact h.enter stReady
  · exact h

theorem finaliseHere (h : Breached n id d) (k state reason : Nat) (bound rejected : Bool) :
    Breached n id (d.finaliseHere k state reason bound rejected) := by
  unfold Dev.finaliseHere
  split
  · exact h
  · next i hi =>
    extract_lets r d1 d2 d3 d4 d5 now d6
    have hr : Breached n id r.1 := h.writeFinal _ _
    have h1 : Breached n id d1 := hr.updItem _ fun _ => ⟨rfl, rfl⟩
    have h2 : Breached n id d2 := h1.put (.inl (by simp [F.ITK_ZONE_STAT_LIVE])) _
    have h3 : Breached n id d3 := h2.when (h2.sendRefusal _ _ _)
    have h4 : Breached n id d4 := h3.when (h3.rejItem i)
    have h5 : Breached n id d5 := h4.when ((h4.twSend 0x11 [i.slot, mkFinal state reason i.defects]).onTwn _)
    have h6 : Breached n id d6 := h5.onPages _
    split_ifs
    · exact h
    · exact (hr.updItem k (f := fun j => { j with stuck := true }) fun _ => ⟨rfl, rfl⟩).report 24 none
    · exact h6.syncPrinting

theorem finalise (h : Breached n id d) (k state reason : Nat) (bound rejected : Bool) :
    Breached n id (d.finalise k state reason bound rejected) := by
  unfold Dev.finalise
  split_ifs
  · exact h.finaliseHere _ _ _ _ _
  · exact h

theorem endItem (h : Breached n id d) (k state reason : Nat) : Breached n id (d.endItem k state reason) := by
  unfold Dev.endItem
  split
  · exact h
  · next i hi =>
    extract_lets d1
    have h1 : Breached n id d1 := h.finalise _ _ _ _ _
    split_ifs
    · exact h
    · exact h1
    · exact (h1.updItem k (f := fun j => { j with rejected := true }) fun _ => ⟨rfl, rfl⟩).rejItem i

theorem zeroLines (h : Breached n id d) (k : Nat) (pan : Bool) : Breached n id (d.zeroLines k pan) := by
  unfold Dev.zeroLines Dev.closeBlocks
  exact ((h.onFir _).onRas _).each fun _ k _ h => h.syncOpen k

/-- An item that is abandoned is marked, and what ends it leaves the mark. -/
theorem of_abandon (hv : d.get (F.BRD_HG_ERR_VALID n) = 1) (reason : Nat) (pan : Bool) : Breached n id (d.abandon id reason pan) := by
  unfold Dev.abandon
  split
  · next hnone =>
    refine ⟨hv, fun j hj hid => absurd hnone ?_⟩
    rw [Dev.findItem, List.find?_eq_none]
    exact fun hall => hall j hj (beq_iff_eq.mpr hid)
  · next i hi =>
    have hmark : Breached n id (d.updItem id fun j => { j with abandoned := true }) := by
      refine ⟨hv, fun j hj hid => ?_⟩
      obtain ⟨x, -, rfl⟩ := List.mem_map.mp hj
      split_ifs at hid ⊢ with hx
      · rfl
      · exact absurd hid hx
    exact (hmark.zeroLines id pan).endItem _ _ _

end Breached

section
variable {d : Dev} {n : Nat}

/-- The first error of a decompressor goes to its registers. -/
def Dev.keepBreach (d : Dev) (n kind blk pg : Nat) : Dev :=
  d.when (d.get (F.BRD_HG_ERR_VALID n) == 0) fun d => (d.wrN (R.BRD_HG_ERR n) (2 ^ 31 + kind * 2 ^ 16 + blk)).wrN (R.BRD_HG_ERRPAGE n) pg

theorem brdBreach_eq (d : Dev) (n kind blk id : Nat) : d.brdBreach n kind blk id =
    (((d.keepBreach n kind blk (((d.findItem id).map (·.page)).getD 0)).abandon id 0x0B false).put F.BRD_IRQ_STAT_ERR 1).report
      (if kind = 7 then 53 else 52) := rfl

theorem valid_keepBreach (d : Dev) (n : Nat) {kind blk : Nat} (hk : kind < 16) (hb : blk < 2 ^ 16) (pg : Nat) :
    (d.keepBreach n kind blk pg).get (F.BRD_HG_ERR_VALID n) = 1 := by
  have hlt := get_lt d (F.BRD_HG_ERR_VALID n)
  by_cases h : d.get (F.BRD_HG_ERR_VALID n) = 0
  · have hne : R.BRD_HG_ERR n ≠ R.BRD_HG_ERRPAGE n := by
      unfold R.BRD_HG_ERR R.BRD_HG_ERRPAGE
      omega
    rw [Dev.keepBreach, h, beq_self_eq_true, when_true, get_wrN_ne _ _ _ (F.BRD_HG_ERR_VALID n) hne]
    refine (get_wrN_same d (R.BRD_HG_ERR n) _ 31 1).trans ?_
    rw [bits, Nat.shiftRight_eq_div_pow]
    omega
  · rw [Dev.keepBreach, beq_eq_false_iff_ne.mpr h, when_false]
    exact Nat.le_antisymm (Nat.le_of_lt_succ hlt) (Nat.pos_of_ne_zero h)

/-- A breach ends the item, keeps an error of the decompressor and raises line 0. -/
theorem brdBreach_spec (d : Dev) (n : Nat) {kind blk : Nat} (hk : kind < 16) (hb : blk < 2 ^ 16) (id : Nat) :
    (d.brdBreach n kind blk id).get F.BRD_IRQ_STAT_ERR = 1 ∧ Breached n id (d.brdBreach n kind blk id) ∧
      (if kind = 7 then 53 else 52) ∈ (d.brdBreach n kind blk id).reps.map fun r => r.src := by
  rw [brdBreach_eq]
  have hbr := Breached.of_abandon (id := id) (valid_keepBreach d n hk hb (((d.findItem id).map (·.page)).getD 0)) 0x0B false
  generalize (d.keepBreach n kind blk (((d.findItem id).map (·.page)).getD 0)).abandon id 0x0B false = e at *
  refine ⟨?_, (hbr.put (.inl (by decide)) 1).report _ none, ?_⟩
  · rw [report_get]
    exact get_put_same e F.BRD_IRQ_STAT_ERR 1 (by decide)
  · rw [report_srcs]
    exact List.mem_append_right _ (List.mem_singleton_self _)

end

/-! ### INPUT_RING_FETCH -/

theorem inputRingFetch_ends (s : State) (hg : Fin 8) (k : Fin 8) (ecc : Bool) : Ends (.inputRingFetch hg k ecc) s fun e =>
    let d := s.dev
    let l := nth d.ras.opened hg []
    match l[k.val]? with
    | none => e = d
    | some b =>
      (ecc = false → e = if b.fetched < b.total ∧ b.fetched + 256 - b.used ≤ 65536 / l.length then
          { d with ras := { d.ras with opened := upd d.ras.opened hg fun l => upd l k fun b => { b with fetched := min b.total (b.fetched + 256) } } }
        else d) ∧
      (ecc = true → b.idx < 2 ^ 16 → e.get F.BRD_IRQ_STAT_ERR = 1 ∧ e.get (F.BRD_HG_ERR_VALID hg) = 1 ∧ 53 ∈ e.reps.map (fun r => r.src) ∧
        ∀ j ∈ e.itk.items, j.id = b.item → j.abandoned = true) := by
  have hexec : exec (.inputRingFetch hg k ecc) s = execInputRingFetch hg k ecc s := rfl
  unfold execInputRingFetch at hexec
  refine ends_of_upd hexec ?_
  dsimp only
  cases (nth s.dev.ras.opened hg [])[k.val]? with
  | none => rfl
  | some b =>
    refine ⟨fun h => by subst h; rfl, fun h hidx => ?_⟩
    subst h
    obtain ⟨hirq, ⟨hvalid, hitems⟩, hrep⟩ := brdBreach_spec s.dev hg (kind := 7) (by decide) hidx b.item
    exact ⟨hirq, hvalid, hrep, hitems⟩

end Sys2Proof.Machine
end

section
/-! A decoder that waits or has stopped (R158, R159), the job to DRAM (R161, R162), and a compressor that waits for room (R166). -/

namespace Sys2Proof.Machine

/-- A step under a condition, by the condition's meaning. -/
theorem when_eq_ite {c : Bool} {p : Prop} [Decidable p] (h : c = true ↔ p) (d : Dev) (f : Dev → Dev) :
    d.when c f = if p then f d else d := by
  rw [Dev.when]
  exact if_congr h rfl rfl

/-! ### DECODER_INPUT_READY and DECODER_STALL_END -/

theorem decoderInputReady_ends (s : State) (hg : Fin 8) (k : Fin 8) : Ends (.decoderInputReady hg k) s fun e =>
    let d := s.dev
    match (nth d.ras.opened hg [])[k.val]? with
    | none => e = d
    | some b => e = if b.waiting = true ∧ min b.total (b.used + 8) ≤ b.fetched then
        { d with ras := { d.ras with opened := upd d.ras.opened hg fun l => upd l k fun b => { b with waiting := false } } }
      else d := by
  have hexec : exec (.decoderInputReady hg k) s = execDecoderInputReady hg k s := rfl
  unfold execDecoderInputReady at hexec
  refine ends_of_upd hexec ?_
  dsimp only
  cases (nth s.dev.ras.opened hg [])[k.val]? with
  | none => rfl
  | some b =>
    exact when_eq_ite (by rw [Bool.and_eq_true, decide_eq_true_eq, ringNeed]) s.dev _

/-- A counter of a whole register that grows by `n` stops at its largest value. -/
theorem toNat_addSat (d : Dev) (a n : Nat) : ((d.addSat ⟨a, 0, 32⟩ n).rd a).toNat = min (2 ^ 32 - 1) ((d.rd a).toNat + n) := by
  rw [toNat_rd_eq_get, toNat_rd_eq_get, Dev.addSat, get_put_same _ _ _ (by simp)]
  exact Nat.mod_eq_of_lt ((Nat.min_le_left _ _).trans_lt (by norm_num))

theorem decoderStallEnd_ends (s : State) (hg : Fin 8) (n : Nat) : Ends (.decoderStallEnd hg n) s fun e =>
    let d := s.dev
    if nth d.ras.stopped hg false = true ∧ (d.hgHeads hg).all d.panRoom = true then
      Frame d e [R.BRD_HG_STALL hg] ∧ e = { d with regs := e.regs, ras := { d.ras with stopped := upd d.ras.stopped hg fun _ => false } } ∧
      (e.rd (R.BRD_HG_STALL hg)).toNat = min (2 ^ 32 - 1) ((d.rd (R.BRD_HG_STALL hg)).toNat + n)
    else e = d := by
  have hexec : exec (.decoderStallEnd hg n) s = execDecoderStallEnd hg n s := rfl
  unfold execDecoderStallEnd at hexec
  refine ends_of_upd hexec ?_
  dsimp only
  rw [when_eq_ite (p := nth s.dev.ras.stopped hg false = true ∧ (s.dev.hgHeads hg).all s.dev.panRoom = true) (by rw [Bool.and_eq_true])]
  split
  · have hframe := frame_put (s.dev.onRas fun t => { t with stopped := upd t.stopped hg fun _ => false }) (F.BRD_HG_STALL_COUNT hg)
      (min (2 ^ (F.BRD_HG_STALL_COUNT hg).width - 1) (s.dev.get (F.BRD_HG_STALL_COUNT hg) + n)) _ (List.mem_singleton_self _)
    exact ⟨⟨hframe.regs, hframe.mem⟩, rfl, toNat_addSat (s.dev.onRas _) (R.BRD_HG_STALL hg) n⟩
  · rfl

/-! ### BRC_RING_ROOM -/

theorem brcRingRoom_ends (s : State) : Ends .brcRingRoom s fun e =>
    let d := s.dev
    match d.ras.jobs with
    | [] => e = d
    | j :: _ =>
      if d.get F.BRC_STAT_STATE = 2 ∧ j.need ≤ d.ringFree then
        Frame d e [R.BRC_STAT] ∧ e = { d with regs := e.regs } ∧ e.get F.BRC_STAT_STATE = 1
      else e = d := by
  have hexec : exec .brcRingRoom s = execBrcRingRoom s := rfl
  unfold execBrcRingRoom at hexec
  refine ends_of_upd hexec ?_
  dsimp only
  cases s.dev.ras.jobs with
  | nil => rfl
  | cons j l =>
    dsimp only
    rw [when_eq_ite (p := s.dev.get F.BRC_STAT_STATE = 2 ∧ j.need ≤ s.dev.ringFree) (by rw [Bool.and_eq_true, beq_iff_eq, decide_eq_true_eq])]
    split
    · exact ⟨frame_put _ _ _ _ (by decide), rfl, get_put_same _ F.BRC_STAT_STATE 1 (by decide)⟩
    · rfl

/-! ### DJOB_COMPLETE -/

/-- A step that changes the memory alone. -/
def OnlyMem (d e : Dev) : Prop := e = { d with mem := e.mem }

namespace OnlyMem
variable {d e f : Dev}

theorem refl (d : Dev) : OnlyMem d d := rfl

theorem trans (h : OnlyMem d e) (k : OnlyMem e f) : OnlyMem d f := by
  unfold OnlyMem at *
  rw [k, h]

theorem each {α : Type} (h : OnlyMem d e) {l : List α} {g : Dev → α → Dev} (hg : ∀ d x, OnlyMem d (g d x)) : OnlyMem d (e.each l g) := by
  induction l generalizing e with
  | nil => exact h
  | cons x l ih => exact ih (h.trans (hg e x))

end OnlyMem

section
variable (pg p : Nat) (h : StreamHdr) (dst st : Nat)

theorem onlyMem_djobBand (d : Dev) (band : Nat) : OnlyMem d (d.djobBand pg p h dst st band).1 :=
  (OnlyMem.refl d).each fun d _ => OnlyMem.each (stBs_mem d _ _) fun d _ => (OnlyMem.refl d).each fun _ _ => rfl

theorem onlyMem_djobBands (d : Dev) (l : List Nat) : OnlyMem d (d.djobBands pg p h dst st l).1 := by
  induction l generalizing d with
  | nil => exact .refl d
  | cons b l ih =>
    have hband := onlyMem_djobBand pg p h dst st d b
    unfold Dev.djobBands
    split
    · next d1 heq => exact (heq ▸ hband).trans (ih d1)
    · next d1 heq => exact heq ▸ hband

end

/-! ### Reports -/

section
variable {d e f : Dev} {ns : List Nat}

theorem reports_nil (h : e.reps = d.reps) : Reports d e [] := by rw [Reports, h, List.append_nil]

theorem Reports.report (h : Reports d e ns) (n : Nat) : Reports d (e.report n) (ns ++ [n]) := by
  rw [Reports] at h ⊢
  rw [report_srcs, h, List.append_assoc]

/-- A step that changes registers, memory and the reports that wait, and nothing else. -/
def RegsReps (d e : Dev) : Prop := e = { d with regs := e.regs, mem := e.mem, reps := e.reps, freeCtr := e.freeCtr }

theorem RegsReps.trans (h : RegsReps d e) (k : RegsReps e f) : RegsReps d f := by
  unfold RegsReps at *
  rw [k, h]

theorem OnlyRegs.regsReps (h : OnlyRegs d e) : RegsReps d e := by
  unfold OnlyRegs at h
  unfold RegsReps
  rw [h]

theorem OnlyMem.regsReps (h : OnlyMem d e) : RegsReps d e := by
  unfold OnlyMem at h
  unfold RegsReps
  rw [h]

theorem regsReps_report (d : Dev) (n : Nat) : RegsReps d (d.report n) := rfl

end

/-! ### The end of a job -/

/-- The registers that the end of a job changes. -/
abbrev djobRegs : List Nat := [R.BRD_DJOB_STAT, R.BRD_IRQ_STAT]

/-- The status of a job's end, before its report. -/
def Dev.djobEnded (d : Dev) (code : Nat) : Dev :=
  ((d.put F.BRD_DJOB_STAT_CODE code).put F.BRD_DJOB_STAT_STATE (if code = sOk then 2 else 3)).put F.BRD_IRQ_STAT_DJOB 1

theorem djobEnd_eq (d : Dev) (code : Nat) : d.djobEnd code = (d.djobEnded code).when (code != sOk) fun d => d.report 55 := rfl

theorem djobEnded_spec (d : Dev) {code : Nat} (hc : code < 256) :
    OnlyRegs d (d.djobEnded code) ∧ Frame d (d.djobEnded code) djobRegs ∧ (d.djobEnded code).get F.BRD_IRQ_STAT_DJOB = 1 ∧
      (d.djobEnded code).get F.BRD_DJOB_STAT_STATE = (if code = sOk then 2 else 3) ∧ (d.djobEnded code).get F.BRD_DJOB_STAT_CODE = code := by
  refine ⟨rfl, ((frame_put _ _ _ _ (by decide)).trans (frame_put _ _ _ _ (by decide))).trans (frame_put _ _ _ _ (by decide)),
    get_put_same _ F.BRD_IRQ_STAT_DJOB 1 (by decide), ?_, ?_⟩
  · refine (get_put_ne _ F.BRD_IRQ_STAT_DJOB F.BRD_DJOB_STAT_STATE 1 (by decide)).trans
      ((get_put_same _ F.BRD_DJOB_STAT_STATE _ (by decide)).trans ?_)
    split <;> rfl
  · refine (get_put_ne _ F.BRD_IRQ_STAT_DJOB F.BRD_DJOB_STAT_CODE 1 (by decide)).trans
      ((get_put_apart _ F.BRD_DJOB_STAT_STATE F.BRD_DJOB_STAT_CODE _ (by decide) rfl (by decide)).trans
        ((get_put_same d F.BRD_DJOB_STAT_CODE code (by decide)).trans (Nat.mod_eq_of_lt hc)))

/-- What a job's end leaves of the device that it ends on. -/
structure DjobEnd (d e : Dev) (ok : Bool) : Prop where
  frame : Frame { d with mem := e.mem } e djobRegs
  rest : RegsReps d e
  irq : e.get F.BRD_IRQ_STAT_DJOB = 1
  state : e.get F.BRD_DJOB_STAT_STATE = if ok then 2 else 3
  code : e.get F.BRD_DJOB_STAT_CODE = if ok then sOk else sIntegrity
  reports : Reports d e (if ok then [] else [55])

theorem djobEnd_spec (d : Dev) (ok : Bool) :
    DjobEnd d (d.djobEnd (if ok then sOk else sIntegrity)) ok ∧ (d.djobEnd (if ok then sOk else sIntegrity)).mem = d.mem := by
  obtain ⟨hregs, hframe, hirq, hstate, hcode⟩ := djobEnded_spec d (code := if ok then sOk else sIntegrity) (by cases ok <;> decide)
  rw [djobEnd_eq]
  generalize d.djobEnded (if ok then sOk else sIntegrity) = e at *
  have hmem : e.mem = d.mem := (congrArg Dev.mem hregs :)
  have hkept : e.reps = d.reps := (congrArg Dev.reps hregs :)
  have hreps := reports_nil hkept
  cases ok with
  | true =>
    have hok : ((if true = true then sOk else sIntegrity) != sOk) = false := rfl
    rw [hok, when_false]
    exact ⟨⟨⟨hframe.regs, fun _ => rfl⟩, hregs.regsReps, hirq, hstate, hcode, hreps⟩, hmem⟩
  | false =>
    have hbad : ((if false = true then sOk else sIntegrity) != sOk) = true := rfl
    rw [hbad, when_true]
    exact ⟨⟨⟨fun a ha => (report_rd _ _ _ _).trans (hframe.regs a ha), fun _ => rfl⟩, hregs.regsReps.trans (regsReps_report e 55),
      (report_get _ _ _ _).trans hirq, (report_get _ _ _ _).trans hstate, (report_get _ _ _ _).trans hcode, hreps.report 55⟩, hmem⟩

/-- A job that ends on a device whose memory alone differs. -/
theorem DjobEnd.of_mem {d e f : Dev} {ok : Bool} (h : OnlyMem d e) (k : DjobEnd e f ok) : DjobEnd d f ok := by
  have hreps : e.reps = d.reps := (congrArg Dev.reps h :)
  have hframe : Frame ({ d with mem := f.mem } : Dev) ({ e with mem := f.mem } : Dev) djobRegs :=
    ⟨fun a _ => (congrArg (fun x : Dev => x.rd a) h :), fun _ => rfl⟩
  exact ⟨hframe.trans k.frame, h.regsReps.trans k.rest, k.irq, k.state, k.code, by rw [Reports, k.reports, hreps]⟩

theorem djobComplete_ends (s : State) : Ends .djobComplete s fun e =>
    let d := s.dev
    if d.get F.BRD_DJOB_STAT_STATE ≠ 1 then e = d
    else
      Frame { d with mem := e.mem } e [R.BRD_DJOB_STAT, R.BRD_IRQ_STAT] ∧
      e = { d with regs := e.regs, mem := e.mem, reps := e.reps, freeCtr := e.freeCtr } ∧ e.get F.BRD_IRQ_STAT_DJOB = 1 ∧
      (e.get F.BRD_DJOB_STAT_STATE = 2 ∧ e.get F.BRD_DJOB_STAT_CODE = sOk ∧ Reports d e [] ∨
        e.get F.BRD_DJOB_STAT_STATE = 3 ∧ e.get F.BRD_DJOB_STAT_CODE = sIntegrity ∧ Reports d e [55]) ∧
      (d.pageHdr (d.get F.BRD_DJOB_PAGE_PAGE) = none → e.mem = d.mem ∧ e.get F.BRD_DJOB_STAT_STATE = 3) := by
  have hexec : exec .djobComplete s = execDjobComplete s := rfl
  unfold execDjobComplete at hexec
  refine ends_of_upd hexec ?_
  dsimp only [Dev.djobRange]
  split
  · rfl
  · have hends {e : Dev} {ok : Bool} (h : DjobEnd s.dev e ok) : Frame { s.dev with mem := e.mem } e [R.BRD_DJOB_STAT, R.BRD_IRQ_STAT] ∧
        e = { s.dev with regs := e.regs, mem := e.mem, reps := e.reps, freeCtr := e.freeCtr } ∧ e.get F.BRD_IRQ_STAT_DJOB = 1 ∧
        (e.get F.BRD_DJOB_STAT_STATE = 2 ∧ e.get F.BRD_DJOB_STAT_CODE = sOk ∧ Reports s.dev e [] ∨
          e.get F.BRD_DJOB_STAT_STATE = 3 ∧ e.get F.BRD_DJOB_STAT_CODE = sIntegrity ∧ Reports s.dev e [55]) := by
      refine ⟨h.frame, h.rest, h.irq, ?_⟩
      cases ok
      · exact .inr ⟨h.state, h.code, h.reports⟩
      · exact .inl ⟨h.state, h.code, h.reports⟩
    split
    · next hnone =>
      obtain ⟨hend, hmem⟩ := djobEnd_spec s.dev false
      obtain ⟨h1, h2, h3, h4⟩ := hends hend
      exact ⟨h1, h2, h3, h4, fun _ => ⟨hmem, hend.state⟩⟩
    · next h hsome =>
      have hbands := onlyMem_djobBands (s.dev.get F.BRD_DJOB_PAGE_PAGE) (s.dev.get F.BRD_DJOB_PAGE_PLANE) h
        (s.dev.addr40 R.BRD_DJOB_DSTLO R.BRD_DJOB_DSTHI) (s.dev.get F.BRD_DJOB_STRIDE_STRIDE) s.dev
        ((List.range (s.dev.get F.BRD_DJOB_BANDS_FIRST + s.dev.get F.BRD_DJOB_BANDS_COUNTM1 + 1 - s.dev.get F.BRD_DJOB_BANDS_FIRST)).map
          (s.dev.get F.BRD_DJOB_BANDS_FIRST + ·))
      obtain ⟨hend, -⟩ := djobEnd_spec (s.dev.djobBands _ _ h _ _ _).1 (s.dev.djobBands _ _ h _ _ _).2
      obtain ⟨h1, h2, h3, h4⟩ := hends (hend.of_mem hbands)
      exact ⟨h1, h2, h3, h4, fun hnone => absurd (hnone ▸ hsome) (by simp)⟩

end Sys2Proof.Machine
end

section
/-! A block that the compressor has coded (R166, R167): its verdict, the output ring, and the end of its job. -/

namespace Sys2Proof.Machine

/-! ### The output ring -/

/-- The place in the output ring of the byte that the count `i` names. -/
def Dev.brcAt (d : Dev) (i : Nat) : Nat := d.addr40 R.BRC_OUTBASELO R.BRC_OUTBASEHI + i % max 1 (d.get F.BRC_OUTSIZE_BYTES)

/-- One byte goes to the ring. -/
def Dev.brcPut (d : Dev) (b : Byte) : Dev :=
  (d.stB (d.brcAt (d.get F.BRC_OUTWR_COUNT)) b).put F.BRC_OUTWR_COUNT (d.get F.BRC_OUTWR_COUNT + 1)

theorem ringWrite_cons (d : Dev) (b : Byte) (l : List Byte) : d.ringWrite (b :: l) = (d.brcPut b).ringWrite l := rfl

theorem rd_brcPut_ne (d : Dev) (b : Byte) {a : Nat} (h : a ≠ R.BRC_OUTWR) : (d.brcPut b).rd a = d.rd a :=
  rd_put_ne (d.stB _ b) F.BRC_OUTWR_COUNT a _ h

theorem brcAt_congr {d e : Dev} (h : ∀ a, a ≠ R.BRC_OUTWR → e.rd a = d.rd a) (i : Nat) : e.brcAt i = d.brcAt i := by
  have hlo := h R.BRC_OUTBASELO (by decide)
  have hhi := h R.BRC_OUTBASEHI (by decide)
  have hsize := get_of_rd (f := F.BRC_OUTSIZE_BYTES) (h R.BRC_OUTSIZE (by decide))
  rw [Dev.brcAt, Dev.brcAt, Dev.addr40, Dev.addr40, hlo, hhi, hsize]

theorem count_brcPut (d : Dev) (b : Byte) : (d.brcPut b).get F.BRC_OUTWR_COUNT = (d.get F.BRC_OUTWR_COUNT + 1) % 2 ^ 32 :=
  get_put_same (d.stB _ b) F.BRC_OUTWR_COUNT _ (by decide)

/-- The bytes move OUTWR on, and change the memory beside it and nothing else. -/
theorem ringWrite_rest (d : Dev) (l : List Byte) :
    d.ringWrite l = { d with regs := (d.ringWrite l).regs, mem := (d.ringWrite l).mem } ∧
      (∀ a, a ≠ R.BRC_OUTWR → (d.ringWrite l).rd a = d.rd a) ∧
      (d.ringWrite l).get F.BRC_OUTWR_COUNT = (d.get F.BRC_OUTWR_COUNT + l.length) % 2 ^ 32 := by
  induction l generalizing d with
  | nil => exact ⟨rfl, fun _ _ => rfl, (Nat.mod_eq_of_lt (get_lt d F.BRC_OUTWR_COUNT)).symm⟩
  | cons b l ih =>
    obtain ⟨hrest, hregs, hcount⟩ := ih (d.brcPut b)
    rw [ringWrite_cons]
    refine ⟨?_, fun a ha => (hregs a ha).trans (rd_brcPut_ne d b ha), ?_⟩
    · rw [hrest]
      rfl
    · rw [hcount, count_brcPut, List.length_cons, Nat.mod_add_mod, Nat.add_assoc, Nat.add_comm 1]

/-- Counts that differ by less than the ring's size name different places. -/
theorem add_mod_ne {w k size : Nat} (h0 : 0 < k) (h : k < size) : (w + k) % size ≠ w % size := fun heq => by
  have hmul := Nat.sub_mod_eq_zero_of_mod_eq heq
  rw [Nat.add_sub_cancel_left, Nat.mod_eq_of_lt h] at hmul
  omega

theorem brcAt_ne (d : Dev) {w k : Nat} (h0 : 0 < k) (h : k < d.get F.BRC_OUTSIZE_BYTES) : d.brcAt (w + k) ≠ d.brcAt w := fun heq => by
  unfold Dev.brcAt at heq
  rw [Nat.max_eq_right (by omega)] at heq
  exact add_mod_ne h0 h (Nat.add_left_cancel heq)

theorem size_brcPut (d : Dev) (b : Byte) : (d.brcPut b).get F.BRC_OUTSIZE_BYTES = d.get F.BRC_OUTSIZE_BYTES :=
  get_of_rd (rd_brcPut_ne d b (by decide))

/-- A byte that none of the counts names stands. -/
theorem ldB_ringWrite_out {d : Dev} {l : List Byte} (hw : d.get F.BRC_OUTWR_COUNT + l.length ≤ 2 ^ 32) {a : Nat}
    (ha : ∀ k < l.length, a ≠ d.brcAt (d.get F.BRC_OUTWR_COUNT + k)) : (d.ringWrite l).ldB a = d.ldB a := by
  induction l generalizing d with
  | nil => rfl
  | cons b l ih =>
    have hfirst : (d.brcPut b).ldB a = d.ldB a := ldB_stB_ne d _ a b (ha 0 (Nat.succ_pos _))
    rw [ringWrite_cons]
    by_cases hl : l = []
    · rw [hl]
      exact hfirst
    · have hpos := List.length_pos_iff.mpr hl
      rw [List.length_cons] at hw ha
      have hcount : (d.brcPut b).get F.BRC_OUTWR_COUNT = d.get F.BRC_OUTWR_COUNT + 1 := by
        rw [count_brcPut, Nat.mod_eq_of_lt (by omega)]
      refine (ih (by omega) fun k hk => ?_).trans hfirst
      rw [hcount, brcAt_congr (fun _ => rd_brcPut_ne d b), Nat.add_assoc, Nat.add_comm 1]
      exact ha (k + 1) (by omega)

/-- The bytes that follow the first one leave it, where all fit in the ring. -/
theorem ldB_brcRest {d : Dev} {b : Byte} {l : List Byte} (hw : d.get F.BRC_OUTWR_COUNT + (l.length + 1) ≤ 2 ^ 32)
    (hl : l.length + 1 ≤ d.get F.BRC_OUTSIZE_BYTES) :
    ((d.brcPut b).ringWrite l).ldB (d.brcAt (d.get F.BRC_OUTWR_COUNT)) = (d.brcPut b).ldB (d.brcAt (d.get F.BRC_OUTWR_COUNT)) := by
  by_cases hnil : l = []
  · rw [hnil]
    rfl
  · have hpos := List.length_pos_iff.mpr hnil
    have hcount : (d.brcPut b).get F.BRC_OUTWR_COUNT = d.get F.BRC_OUTWR_COUNT + 1 := by
      rw [count_brcPut, Nat.mod_eq_of_lt (by omega)]
    refine ldB_ringWrite_out (by omega) fun k hk => ?_
    rw [hcount, brcAt_congr (fun _ => rd_brcPut_ne d b), Nat.add_assoc]
    exact (brcAt_ne d (by omega) (by omega)).symm

/-- Bytes that fit in the ring stand at the places of their counts. -/
theorem ldB_ringWrite {d : Dev} {l : List Byte} (hw : d.get F.BRC_OUTWR_COUNT + l.length ≤ 2 ^ 32)
    (hl : l.length ≤ d.get F.BRC_OUTSIZE_BYTES) {k : Nat} (hk : k < l.length) :
    (d.ringWrite l).ldB (d.brcAt (d.get F.BRC_OUTWR_COUNT + k)) = nth l k 0 := by
  induction l generalizing d k with
  | nil => exact absurd hk (Nat.not_lt_zero _)
  | cons b l ih =>
    rw [ringWrite_cons]
    rw [List.length_cons] at hw hl hk
    have hcount (h : 0 < l.length) : (d.brcPut b).get F.BRC_OUTWR_COUNT = d.get F.BRC_OUTWR_COUNT + 1 := by
      rw [count_brcPut, Nat.mod_eq_of_lt (by omega)]
    have hat (i : Nat) : (d.brcPut b).brcAt i = d.brcAt i := brcAt_congr (fun _ => rd_brcPut_ne d b) i
    cases k with
    | zero =>
      refine (ldB_brcRest hw hl).trans ?_
      exact ldB_stB_same d _ b
    | succ k =>
      have hstep := ih (d := d.brcPut b) (k := k) (by rw [hcount (by omega)]; omega) (by rw [size_brcPut]; omega) (by omega)
      rw [hcount (by omega), hat, Nat.add_assoc, Nat.add_comm 1] at hstep
      exact hstep

/-! ### The end of a job -/

/-- The registers that the end of a compressor's job changes. -/
abbrev brcEndRegs : List Nat := [R.BRC_JOBBYTES, R.BRC_STAT, R.BRC_IRQ_STAT]

/-- The status of the first job's end, before the next one starts. -/
def Dev.brcEnded (d : Dev) (code n : Nat) : Dev :=
  (((d.onRas fun t => { t with jobs := t.jobs.drop 1 }).put F.BRC_STAT_CODE code).wrN R.BRC_JOBBYTES n).put F.BRC_IRQ_STAT_DONE 1

/-- What the end of a job leaves. -/
structure BrcEnd (d e : Dev) (code bytes : Nat) (rest : List BrcJob) : Prop where
  frame : Frame d e brcEndRegs
  mem : e.mem = d.mem
  reps : e.reps = d.reps
  jobs : e.ras.jobs = rest
  code : e.get F.BRC_STAT_CODE = code
  done : e.get F.BRC_IRQ_STAT_DONE = 1
  bytes : (e.rd R.BRC_JOBBYTES).toNat = bytes % 2 ^ 32

theorem brcEnd_eq {d : Dev} {j : BrcJob} {rest : List BrcJob} (h : d.ras.jobs = j :: rest) (code : Nat) :
    d.brcEnd code = (d.brcEnded code j.bytes).brcSync := by
  rw [Dev.brcEnd, Dev.brcEnded, h]
  rfl

/-- The registers before the compressor's state follows its queue. -/
theorem brcEnded_spec (d : Dev) (code n : Nat) (hc : code < 256) :
    Frame d (d.brcEnded code n) brcEndRegs ∧ (d.brcEnded code n).get F.BRC_STAT_CODE = code ∧
      (d.brcEnded code n).get F.BRC_IRQ_STAT_DONE = 1 ∧ ((d.brcEnded code n).rd R.BRC_JOBBYTES).toNat = n % 2 ^ 32 := by
  have hframe := ((frame_put (d.onRas fun t => { t with jobs := t.jobs.drop 1 }) F.BRC_STAT_CODE code brcEndRegs (by decide)).trans
    (frame_wrN _ R.BRC_JOBBYTES n brcEndRegs (by decide))).trans (frame_put _ F.BRC_IRQ_STAT_DONE 1 brcEndRegs (by decide))
  refine ⟨⟨hframe.regs, hframe.mem⟩, ?_, get_put_same _ F.BRC_IRQ_STAT_DONE 1 (by decide), ?_⟩
  · exact (get_put_ne _ F.BRC_IRQ_STAT_DONE F.BRC_STAT_CODE 1 (by decide)).trans
      ((get_wrN_ne _ R.BRC_JOBBYTES n F.BRC_STAT_CODE (by decide)).trans
        ((get_put_same _ F.BRC_STAT_CODE code (by decide)).trans (Nat.mod_eq_of_lt hc)))
  · rw [Dev.brcEnded, rd_put_ne _ F.BRC_IRQ_STAT_DONE R.BRC_JOBBYTES 1 (by decide), rd_wrN_same, BitVec.toNat_ofNat]

theorem brcEnd_spec {d : Dev} {j : BrcJob} {rest : List BrcJob} (h : d.ras.jobs = j :: rest) {code : Nat} (hc : code < 256) :
    BrcEnd d (d.brcEnd code) code j.bytes rest := by
  obtain ⟨hframe, hcode, hdone, hbytes⟩ := brcEnded_spec d code j.bytes hc
  have hjobs : (d.brcEnded code j.bytes).ras.jobs = rest := (congrArg (List.drop 1) h).trans rfl
  have hmem : (d.brcEnded code j.bytes).mem = d.mem := rfl
  have hreps : (d.brcEnded code j.bytes).reps = d.reps := rfl
  rw [brcEnd_eq h]
  generalize d.brcEnded code j.bytes = x at *
  have hsync := onlyRegs_brcSync x
  have hregs := (frame_brcSync x).mono (bs := brcEndRegs) (by decide)
  refine ⟨hframe.trans hregs, (congrArg Dev.mem hsync).trans hmem, (congrArg Dev.reps hsync).trans hreps,
    (congrArg (fun d : Dev => d.ras.jobs) hsync).trans hjobs, (get_brcSync x (.inl rfl)).trans hcode, (get_brcSync x (.inr rfl)).trans hdone, ?_⟩
  rw [(frame_brcSync x).regs R.BRC_JOBBYTES (by decide), hbytes]

/-! ### The verdict on a block, and its bytes -/

/-- A block that does not decode to its source is counted and reported. -/
def Dev.brcVerdict (d : Dev) (good : Bool) : Dev :=
  d.when (!good) fun d => ((d.incSat F.BRC_VFYCNT_COUNT).put F.BRC_IRQ_STAT_VERIFY 1).report 60

/-- The registers of a verdict. -/
abbrev verdictRegs : List Nat := [R.BRC_VFYCNT, R.BRC_IRQ_STAT]

theorem brcVerdict_spec (d : Dev) (good : Bool) :
    Frame d (d.brcVerdict good) verdictRegs ∧ (d.brcVerdict good).mem = d.mem ∧ (d.brcVerdict good).ras = d.ras ∧
      Reports d (d.brcVerdict good) (if good then [] else [60]) := by
  cases good with
  | true => exact ⟨.refl d _, rfl, rfl, reports_nil rfl⟩
  | false =>
    exact ⟨((frame_incSat d F.BRC_VFYCNT_COUNT _ (by decide)).trans (frame_put _ F.BRC_IRQ_STAT_VERIFY 1 _ (by decide))).trans
      (frame_report _ 60 none _), rfl, rfl, Reports.report (reports_nil rfl) 60⟩

/-- The bytes of a block go out, and its job is on its next block. -/
def Dev.brcWritten (d : Dev) (out : List Byte) : Dev :=
  (d.ringWrite out).onRas fun t => { t with jobs := upd t.jobs 0 fun j => { j with next := j.next + 1, bytes := j.bytes + out.length } }

/-- The STORED block of a job's next block. -/
def Dev.brcStored (d : Dev) (j : BrcJob) : List Byte :=
  storedBlock j.place.1 j.place.2.2 j.place.2.1 (j.hdr.stripW j.place.1 j.place.2.2) (j.hdr.bandH j.place.2.1) j.depth (d.jobRows j)

/-- The coded block decodes to its source. -/
def Dev.brcGood (d : Dev) (j : BrcJob) (c : List Byte) : Bool :=
  decodesTo j.hdr (j.hdr.index j.place.1 j.place.2.1 j.place.2.2) c (d.jobRows j)

/-- The bytes that go out: the stream's header before its first block, and the coded block where it is good and shorter than STORED. -/
def Dev.brcOut (d : Dev) (j : BrcJob) (c : List Byte) : List Byte :=
  (if j.next = 0 then streamBytes j.hdr else []) ++ (if d.brcGood j c ∧ c.length < (d.brcStored j).length then c else d.brcStored j)

/-- The effect of BRC_BLOCK_VERIFY while a job codes. -/
def Dev.blockVerify (d : Dev) (j : BrcJob) (c : List Byte) (fail : Fin 3) : Dev :=
  if fail = 2 then (d.brcEnd sIntegrity).report 62
  else if fail = 1 ∧ d.brcGood j c = false then ((d.brcVerdict (d.brcGood j c)).brcEnd sIntegrity).report 61
  else if j.next + 1 = j.hdr.blocks then ((d.brcVerdict (d.brcGood j c)).brcWritten (d.brcOut j c)).brcEnd sOk
  else ((d.brcVerdict (d.brcGood j c)).brcWritten (d.brcOut j c)).brcSync

theorem exec_brcBlockVerify (s : State) (c : List Byte) (fail : Fin 3) : exec (.brcBlockVerify c fail) s = s.upd fun d =>
    match d.ras.jobs with
    | [] => d
    | j :: _ => if d.get F.BRC_STAT_STATE ≠ 1 then d else d.blockVerify j c fail := by
  have hexec : exec (.brcBlockVerify c fail) s = execBrcBlockVerify c fail s := rfl
  rw [hexec, execBrcBlockVerify]
  refine congrArg s.upd (funext fun d => ?_)
  cases d.ras.jobs with
  | nil => rfl
  | cons j rest =>
    dsimp only
    refine if_congr Iff.rfl rfl (if_congr (Fin.ext_iff (a := fail) (b := 2)).symm rfl ?_)
    exact if_congr (and_congr (Fin.ext_iff (a := fail) (b := 1)).symm (by rw [Bool.not_eq_true']; rfl)) rfl rfl

/-- What the bytes of a block leave of the ring, the reports and the queue. -/
structure BrcOut (d e : Dev) (out : List Byte) : Prop where
  reps : e.reps = d.reps
  count : e.get F.BRC_OUTWR_COUNT = (d.get F.BRC_OUTWR_COUNT + out.length) % 2 ^ 32
  bytes : out.length ≤ d.get F.BRC_OUTSIZE_BYTES → d.get F.BRC_OUTWR_COUNT + out.length ≤ 2 ^ 32 →
    ∀ k < out.length, e.ldB (d.brcAt (d.get F.BRC_OUTWR_COUNT + k)) = nth out k 0

theorem brcWritten_spec (d : Dev) (out : List Byte) : BrcOut d (d.brcWritten out) out := by
  obtain ⟨hrest, -, hcount⟩ := ringWrite_rest d out
  exact ⟨(congrArg Dev.reps hrest :), hcount, fun hl hw k hk => ldB_ringWrite hw hl hk⟩

theorem jobs_brcWritten {d : Dev} {j : BrcJob} {rest : List BrcJob} (h : d.ras.jobs = j :: rest) (out : List Byte) :
    (d.brcWritten out).ras.jobs = { j with next := j.next + 1, bytes := j.bytes + out.length } :: rest := by
  have hjobs : (d.ringWrite out).ras.jobs = j :: rest := (congrArg (fun d : Dev => d.ras.jobs) (ringWrite_rest d out).1).trans h
  exact congrArg (fun l => upd l 0 fun j => { j with next := j.next + 1, bytes := j.bytes + out.length }) hjobs

/-- Registers that keep the ring's place, and the memory, keep what the bytes left. -/
theorem BrcOut.keep {d e f : Dev} {out : List Byte} {as : List Nat} (h : BrcOut d e out) (hframe : Frame e f as) (hreps : f.reps = e.reps)
    (has : R.BRC_OUTWR ∉ as) : BrcOut d f out :=
  ⟨hreps.trans h.reps, (get_of_rd (f := F.BRC_OUTWR_COUNT) (hframe.regs _ has)).trans h.count,
    fun hl hw k hk => (hframe.mem _).trans (h.bytes hl hw k hk)⟩

theorem brcWritten_ends {d : Dev} {j : BrcJob} {rest : List BrcJob} (h : d.ras.jobs = j :: rest) (out : List Byte) :
    BrcEnd (d.brcWritten out) ((d.brcWritten out).brcEnd sOk) sOk (j.bytes + out.length) rest :=
  brcEnd_spec (jobs_brcWritten h out) (by decide)

/-- A job that ends with INTEGRITY and a report. -/
theorem brcEnd_reported {d0 d : Dev} {j : BrcJob} {rest : List BrcJob} {ns : List Nat} (h : d.ras.jobs = j :: rest) (hr : Reports d0 d ns) (n : Nat) :
    let e := (d.brcEnd sIntegrity).report n
    e.ras.jobs = rest ∧ e.get F.BRC_STAT_CODE = sIntegrity ∧ e.get F.BRC_IRQ_STAT_DONE = 1 ∧ Reports d0 e (ns ++ [n]) ∧ e.mem = d.mem := by
  have hend := brcEnd_spec h (code := sIntegrity) (by decide)
  have hreps : Reports d0 (d.brcEnd sIntegrity) ns := by rw [Reports, hend.reps, hr]
  generalize d.brcEnd sIntegrity = e at *
  exact ⟨(congrArg RasSt.jobs (report_ras e n none)).trans hend.jobs, (report_get _ _ _ _).trans hend.code, (report_get _ _ _ _).trans hend.done,
    hreps.report n, (report_mem _ _ _).trans hend.mem⟩

/-- The bytes that follow a verdict, by the device before it. -/
theorem brcOut_verdict {d e : Dev} {good : Bool} {out : List Byte} (k : BrcOut (d.brcVerdict good) e out) :
    Reports d e (if good then [] else [60]) ∧ e.get F.BRC_OUTWR_COUNT = (d.get F.BRC_OUTWR_COUNT + out.length) % 2 ^ 32 ∧
      (out.length ≤ d.get F.BRC_OUTSIZE_BYTES → d.get F.BRC_OUTWR_COUNT + out.length ≤ 2 ^ 32 → ∀ k < out.length,
        e.ldB (d.addr40 R.BRC_OUTBASELO R.BRC_OUTBASEHI + (d.get F.BRC_OUTWR_COUNT + k) % d.get F.BRC_OUTSIZE_BYTES) = nth out k 0) := by
  obtain ⟨hframe, -, -, hrep⟩ := brcVerdict_spec d good
  have hlo := hframe.regs R.BRC_OUTBASELO (by decide)
  have hhi := hframe.regs R.BRC_OUTBASEHI (by decide)
  have hw := get_of_rd (f := F.BRC_OUTWR_COUNT) (hframe.regs _ (by decide))
  have hsize := get_of_rd (f := F.BRC_OUTSIZE_BYTES) (hframe.regs _ (by decide))
  obtain ⟨hreps, hcount, hbytes⟩ := k
  simp only [Dev.brcAt, Dev.addr40, hlo, hhi, hw, hsize] at hcount hbytes
  refine ⟨by rw [Reports, hreps, hrep], hcount, fun hl hle k hk => ?_⟩
  have hplace := hbytes hl hle k hk
  rwa [Nat.max_eq_right (by omega)] at hplace

/-- What a block's verification leaves (R167). -/
theorem blockVerify_spec {d : Dev} {j : BrcJob} {rest : List BrcJob} (h : d.ras.jobs = j :: rest) (c : List Byte) (fail : Fin 3) :
    let e := d.blockVerify j c fail
    let good := d.brcGood j c
    let out := d.brcOut j c
    if fail = 2 then
      e.ras.jobs = rest ∧ e.get F.BRC_STAT_CODE = sIntegrity ∧ e.get F.BRC_IRQ_STAT_DONE = 1 ∧ Reports d e [62] ∧ e.mem = d.mem
    else if fail = 1 ∧ good = false then
      e.ras.jobs = rest ∧ e.get F.BRC_STAT_CODE = sIntegrity ∧ e.get F.BRC_IRQ_STAT_DONE = 1 ∧ Reports d e [60, 61] ∧ e.mem = d.mem
    else
      Reports d e (if good then [] else [60]) ∧ e.get F.BRC_OUTWR_COUNT = (d.get F.BRC_OUTWR_COUNT + out.length) % 2 ^ 32 ∧
      (out.length ≤ d.get F.BRC_OUTSIZE_BYTES → d.get F.BRC_OUTWR_COUNT + out.length ≤ 2 ^ 32 → ∀ k : Fin 192, k.val < out.length →
        e.ldB (d.addr40 R.BRC_OUTBASELO R.BRC_OUTBASEHI + (d.get F.BRC_OUTWR_COUNT + k) % d.get F.BRC_OUTSIZE_BYTES) = nth out k 0) ∧
      (j.next + 1 = j.hdr.blocks → e.ras.jobs = rest ∧ e.get F.BRC_STAT_CODE = sOk ∧ e.get F.BRC_IRQ_STAT_DONE = 1 ∧
        (e.rd R.BRC_JOBBYTES).toNat = (j.bytes + out.length) % 2 ^ 32) ∧
      (j.next + 1 ≠ j.hdr.blocks → e.ras.jobs = { j with next := j.next + 1, bytes := j.bytes + out.length } :: rest) := by
  intro e good out
  obtain ⟨-, hmem, hras, hrep⟩ := brcVerdict_spec d good
  have hjobs : (d.brcVerdict good).ras.jobs = j :: rest := by rw [hras, h]
  split
  · next hfail =>
    have he : e = (d.brcEnd sIntegrity).report 62 := if_pos hfail
    rw [he]
    exact brcEnd_reported h (reports_nil rfl) 62
  · next hfail =>
    split
    · next hbad =>
      have he : e = ((d.brcVerdict good).brcEnd sIntegrity).report 61 := (if_neg hfail).trans (if_pos hbad)
      rw [he]
      rw [if_neg (Bool.eq_false_iff.mp hbad.2)] at hrep
      obtain ⟨h1, h2, h3, h4, h5⟩ := brcEnd_reported hjobs hrep 61
      exact ⟨h1, h2, h3, h4, h5.trans hmem⟩
    · next hbad =>
      have hrest : e = if j.next + 1 = j.hdr.blocks then ((d.brcVerdict good).brcWritten out).brcEnd sOk
          else ((d.brcVerdict good).brcWritten out).brcSync := (if_neg hfail).trans (if_neg hbad)
      have hout := brcWritten_spec (d.brcVerdict good) out
      have hnext := jobs_brcWritten hjobs out
      have hend := brcWritten_ends hjobs out
      rw [hrest]
      generalize (d.brcVerdict good).brcWritten out = x at *
      split
      · next hlast =>
        obtain ⟨h1, h2, h3⟩ := brcOut_verdict (hout.keep hend.frame hend.reps (by decide))
        exact ⟨h1, h2, fun hl hw k => h3 hl hw k, fun _ => ⟨hend.jobs, hend.code, hend.done, hend.bytes⟩, fun hne => absurd hlast hne⟩
      · next hmore =>
        have hsync := onlyRegs_brcSync x
        obtain ⟨h1, h2, h3⟩ := brcOut_verdict (hout.keep (frame_brcSync x) (congrArg Dev.reps hsync :) (by decide))
        exact ⟨h1, h2, fun hl hw k => h3 hl hw k, fun hlast => absurd hlast hmore,
          fun _ => (congrArg (fun d : Dev => d.ras.jobs) hsync).trans hnext⟩

theorem brcBlockVerify_ends (s : State) (c : List Byte) (fail : Fin 3) : Ends (.brcBlockVerify c fail) s fun e =>
    let d := s.dev
    match d.ras.jobs with
    | [] => e = d
    | j :: rest =>
      let h := j.hdr
      let p := j.place
      let rows := d.jobRows j
      let stored := storedBlock p.1 p.2.2 p.2.1 (h.stripW p.1 p.2.2) (h.bandH p.2.1) j.depth rows
      let good := decodesTo h (h.index p.1 p.2.1 p.2.2) c rows
      let out := (if j.next = 0 then streamBytes h else []) ++ (if good ∧ c.length < stored.length then c else stored)
      let w := d.get F.BRC_OUTWR_COUNT
      let size := d.get F.BRC_OUTSIZE_BYTES
      let base := d.addr40 R.BRC_OUTBASELO R.BRC_OUTBASEHI
      if d.get F.BRC_STAT_STATE ≠ 1 then e = d
      else if fail = 2 then
        e.ras.jobs = rest ∧ e.get F.BRC_STAT_CODE = sIntegrity ∧ e.get F.BRC_IRQ_STAT_DONE = 1 ∧ Reports d e [62] ∧ e.mem = d.mem
      else if fail = 1 ∧ good = false then
        e.ras.jobs = rest ∧ e.get F.BRC_STAT_CODE = sIntegrity ∧ e.get F.BRC_IRQ_STAT_DONE = 1 ∧ Reports d e [60, 61] ∧ e.mem = d.mem
      else
        Reports d e (if good then [] else [60]) ∧ e.get F.BRC_OUTWR_COUNT = (w + out.length) % 2 ^ 32 ∧
        (out.length ≤ size → w + out.length ≤ 2 ^ 32 →
          ∀ k : Fin 192, k.val < out.length → e.ldB (base + (w + k) % size) = nth out k 0) ∧
        (j.next + 1 = h.blocks → e.ras.jobs = rest ∧ e.get F.BRC_STAT_CODE = sOk ∧ e.get F.BRC_IRQ_STAT_DONE = 1 ∧
          (e.rd R.BRC_JOBBYTES).toNat = (j.bytes + out.length) % 2 ^ 32) ∧
        (j.next + 1 ≠ h.blocks → e.ras.jobs = { j with next := j.next + 1, bytes := j.bytes + out.length } :: rest) := by
  refine ends_of_upd (exec_brcBlockVerify s c fail) ?_
  dsimp only
  generalize s.dev = d
  cases hjobs : d.ras.jobs with
  | nil => rfl
  | cons j rest =>
    dsimp only
    by_cases hstate : d.get F.BRC_STAT_STATE ≠ 1
    · rw [if_pos hstate, if_pos hstate]
    · simp only [if_neg hstate]
      exact blockVerify_spec hjobs c fail

/-- Settles O30, event by event: what ends the item of a breach keeps its mark, and the ring takes the bytes of a block in order. -/
theorem decodersAndCompressor : Obligations.DecodersAndCompressor :=
  ⟨inputRingFetch_ends, decoderInputReady_ends, decoderStallEnd_ends, djobComplete_ends, brcRingRoom_ends, brcBlockVerify_ends⟩

end Sys2Proof.Machine
end

section
/-! A late line on the STANDBY of a pair (R188, R381, R384). Only the ACTIVE finalises an item: its partner takes the final state from a
JFIN, so its own late line leaves the item as it is. `Ends` speaks of a device before the margins and the collector have run, so the
refutation also needs that neither takes an item back from a final state (`Finalised.settle_margins`). -/

namespace Sys2Proof.Machine

/-! ### More steps that leave the items (R124, R248) -/

namespace ItemsKept

variable {d e : Dev}

theorem onDmc (k : ItemsKept d e) (f : DmcSt → DmcSt) : ItemsKept d (e.onDmc f) := ⟨k.items⟩

theorem onPages (k : ItemsKept d e) (f : ItkSt → List Page) : ItemsKept d (e.onItk fun t => { t with pages := f t }) := ⟨k.items⟩

theorem writeFinal (k : ItemsKept d e) (slot w : Nat) : ItemsKept d (e.writeFinal slot w).1 := by
  unfold Dev.writeFinal
  dsimp only
  split_ifs
  · exact ((k.mwr _ _).mwr _ _).mwr _ _
  · exact k.mwr _ _

theorem syncPrinting (k : ItemsKept d e) : ItemsKept d e.syncPrinting := by
  unfold Dev.syncPrinting
  dsimp only
  split_ifs
  · exact (k.enter stPrinting).onDmc _
  · exact k.enter stReady
  · exact k

theorem rejRequest1 (k : ItemsKept d e) (o z p : Nat) : ItemsKept d (e.rejRequest1 o z p) := by
  unfold Dev.rejRequest1
  extract_lets d1 q d2 d3
  have h1 : ItemsKept d d1 := k.incWrap _
  have hpulse : ItemsKept d (d1.rejPulse o z) := ⟨h1.items⟩
  split_ifs
  · exact h1
  · exact ((hpulse.incSat _).put F.POS_IRQ_STAT_REJ 1).report 91 none
  · exact (h1.onPos _).put _ _
  · exact (((h1.onPos _).put _ _).put F.POS_IRQ_STAT_REJ 1).report 92 none

theorem rejItem (k : ItemsKept d e) (i : Item) : ItemsKept d (e.rejItem i) := by
  unfold Dev.rejItem Dev.rejRequest
  split_ifs
  · exact ((k.twInput _ _ _ _).when fun d => (refl d).rejRequest1 _ _ _).when fun d => (refl d).rejRequest1 _ _ _
  · exact k

end ItemsKept

/-! ### An item in a final state stays in it (R115, R116) -/

/-- The item held under the ID is in the final state `st`. -/
structure Finalised (id st : Nat) (d : Dev) : Prop where
  found : (d.findItem id).map (fun i => i.state) = some st
  final : 8 ≤ st

namespace Finalised

variable {id st : Nat} {d e : Dev}

theorem kept (h : Finalised id st d) (k : ItemsKept d e) : Finalised id st e := by
  refine ⟨Eq.trans ?_ h.found, h.final⟩
  rw [Dev.findItem, Dev.findItem, k.items]

/-- The item found is not live. -/
theorem live_eq_false (h : Finalised id st d) {i : Item} (hi : d.findItem id = some i) : i.live = false := by
  have hst : i.state = st := by simpa [hi] using h.found
  have hfinal := h.final
  simp [Item.live]
  omega

/-- A change of items that keeps their IDs, and the state of every final one of this ID. -/
theorem mapItems (h : Finalised id st d) {g : Item → Item} (hid : ∀ i, (g i).id = i.id)
    (hst : ∀ i, i.id = id → 8 ≤ i.state → (g i).state = i.state) :
    Finalised id st (d.onItk fun t => { t with items := t.items.map g }) := by
  obtain ⟨i, hi, histate⟩ := Option.map_eq_some_iff.mp h.found
  have hiid : i.id = id := by simpa using List.find?_some hi
  have hsame : ((fun i : Item => i.id == id) ∘ g) = fun i => i.id == id := funext fun i => by simp [hid i]
  have hmap : (d.onItk fun t => { t with items := t.items.map g }).findItem id = (d.findItem id).map g := by
    simp only [Dev.findItem, onItk_itk, List.find?_map, hsame]
  refine ⟨?_, h.final⟩
  rw [hmap, hi, Option.map_some, Option.map_some, hst i hiid (histate ▸ h.final), histate]

theorem updOther (h : Finalised id st d) {k : Nat} (hk : k ≠ id) {f : Item → Item} (hid : ∀ i, (f i).id = i.id) :
    Finalised id st (d.updItem k f) := by
  refine h.mapItems (fun i => ?_) fun i hi _ => ?_
  · split_ifs
    · exact hid i
    · rfl
  · rw [if_neg (hi.trans_ne hk.symm)]

theorem each {α : Type} (h : Finalised id st d) {l : List α} {f : Dev → α → Dev}
    (hf : ∀ d x, Finalised id st d → Finalised id st (f d x)) : Finalised id st (d.each l f) := by
  induction l generalizing d with
  | nil => exact h
  | cons x l ih => exact ih (hf d x h)

/-- Of the items that an end finds, one of this ID is not live, so it is left; another one leaves this one. -/
theorem finaliseHere (h : Finalised id st d) (k state reason : Nat) (bound rejected : Bool) :
    Finalised id st (d.finaliseHere k state reason bound rejected) := by
  unfold Dev.finaliseHere
  split
  · exact h
  · next i hi =>
    by_cases hk : k = id
    · have hlive := h.live_eq_false (hk ▸ hi)
      simpa [hlive] using h
    · extract_lets r d1 d2 d3 d4 d5 now d6
      have hr : Finalised id st r.1 := h.kept ((ItemsKept.refl d).writeFinal _ _)
      have h1 : Finalised id st d1 := hr.updOther hk fun _ => rfl
      have h2 : Finalised id st d2 := h1.kept ((ItemsKept.refl d1).put _ _)
      have h3 : Finalised id st d3 := h2.kept ((ItemsKept.refl d2).when fun d => (ItemsKept.refl d).sendRefusal _ _ _)
      have h4 : Finalised id st d4 := h3.kept ((ItemsKept.refl d3).when fun d => (ItemsKept.refl d).rejItem i)
      have h5 : Finalised id st d5 := h4.kept ((ItemsKept.refl d4).when fun d => ((ItemsKept.refl d).twSend _ _).onTwn _)
      have h6 : Finalised id st d6 := h5.kept ((ItemsKept.refl d5).onPages _)
      split_ifs
      · exact h
      · exact Finalised.kept (hr.updOther hk (f := fun j => { j with stuck := true }) fun _ => rfl) ((ItemsKept.refl _).report 24 none)
      · exact h6.kept (ItemsKept.refl d6).syncPrinting

theorem finalise (h : Finalised id st d) (k state reason : Nat) (bound : Bool) : Finalised id st (d.finalise k state reason bound) := by
  unfold Dev.finalise
  split_ifs
  · exact h.finaliseHere _ _ _ _ _
  · exact h

/-! ### The collector (R461, R472) -/

theorem safeSteps (h : Finalised id st d) (cause src : Nat) (finals : Bool) : Finalised id st (d.safeSteps cause src finals) := by
  have hbefore := h.kept ((ItemsKept.refl d).safeStepsBefore cause src)
  cases finals with
  | false => exact hbefore
  | true =>
    rw [safeSteps_split]
    refine (hbefore.each fun d i h => h.finalise i.id _ _ _).mapItems (fun i => ?_) fun i _ hfinal => ?_
    · split_ifs <;> rfl
    · rw [if_neg (by simp only [isScheduled]; omega)]

theorem enterSafe (h : Finalised id st d) (cause src : Nat) : Finalised id st (d.enterSafe cause src) := by
  unfold Dev.enterSafe
  split_ifs
  · exact h
  · exact (h.kept ((ItemsKept.refl d).resign 4 d.takeoverCounts)).safeSteps _ _ _
  · exact (h.kept ((ItemsKept.refl d).twInput 16 0xFF 0 [cause, src])).safeSteps _ _ _

theorem react (h : Finalised id st d) (r : HistRec) : Finalised id st (d.react r) := by
  unfold Dev.react
  extract_lets d0 fatal hold d1 twd c t
  have h0 : Finalised id st d0 := h.kept ((ItemsKept.refl d).when fun d => (ItemsKept.refl d).event _ _ _ _)
  have h1 : Finalised id st d1 := h0.enterSafe _ _
  split
  · exact h0
  · exact h1.kept ((ItemsKept.refl d1).when fun d => (ItemsKept.refl d).onSys _)

theorem collect (h : Finalised id st d) : Finalised id st d.collect := by
  unfold Dev.collect
  extract_lets ms recs d0 d1 d2 d3 c d3b d4
  have h0 : ItemsKept d d0 := ⟨rfl⟩
  have h1 : ItemsKept d d1 := h0.each fun d r => (ItemsKept.refl d).when fun d => (ItemsKept.refl d).setBit _ _
  have h2 : ItemsKept d d2 := h1.each fun d r => (ItemsKept.refl d).writeRec r
  have h3 : ItemsKept d d3 := h2.each fun d _ => (ItemsKept.refl d).loseRecord
  have h3b : ItemsKept d d3b := h3.each fun d r => (ItemsKept.refl d).when fun d => (ItemsKept.refl d).onTwn _
  have h4 : ItemsKept d d4 := h3b.each fun d r => (ItemsKept.refl d).when fun d => (ItemsKept.refl d).put F.FLT_IRQ_STAT_REGERR 1
  have hreact : Finalised id st (d4.each (recs.filter d.acts) Dev.react) := (h.kept h4).each fun d r h => h.react r
  exact hreact.kept (ItemsKept.refl _).syncStop

theorem settleN (h : Finalised id st d) (n : Nat) : Finalised id st (d.settleN n) := by
  induction n generalizing d with
  | zero => exact h
  | succ n ih =>
    unfold Dev.settleN
    split_ifs
    · exact h
    · exact ih h.collect

/-- Nothing that follows a command takes an item back from its final state. -/
theorem settle_margins (h : Finalised id st d) (old : Dev) : Finalised id st (d.margins old).settle :=
  (h.kept ((ItemsKept.refl d).margins old)).settleN 4

end Finalised

/-! ### The late line -/

/-- An item bound at position 0, none of whose lines has entered a pan. -/
def itemBound : Item :=
  { id := 9, zseq := 1, zone := 0, trig := 0, trigArg := 0, lines := 8, lateOk := false, link := 0, offset := 0, page := 5, blocks := 2,
    fields := [], sess := 0, slot := 0, state := isScheduled, bound := true }

/-- Its first line, mapped at position 0 and still in the queue of head 0. -/
def lineQueued : MLine := { item := 9, zone := 0, row := 0, y := 0, pass := 0, f := 0, sels := [(0, 1, 0)], last := false }

/-- A STANDBY in READY. Its fault history is frozen (R462), so that no record takes in the DETAIL that the spec leaves open. -/
def frozenStandby : Dev :=
  ((({} : Dev).put F.SYS_STATE_STATE stReady).put F.TWN_STAT_ROLE roleStandby).put F.FLT_STAT_FROZEN 1

/-- The STANDBY holds the item, and that line is due. -/
def lateOnStandby : State :=
  { dev := (frozenStandby.onItk fun t => { t with items := [itemBound] }).onHead 0 fun x => { x with queue := [lineQueued] } }

/-- The device at the fire instant. -/
abbrev lateDev : Dev := lateOnStandby.dev.posAt 0

/-- The head whose line is due. -/
abbrev lateHead : Fin 64 := 0

theorem lateDev_running : lateDev.running = true := by decide +kernel

theorem lateDev_noEvent : ((lateDev.head lateHead).pan.zipIdx.find? fun x => x.1.left.isNone) = none := by decide +kernel

theorem lateDev_dueLine : lateDev.dueLine lateHead = some (0, lineQueued) := by decide +kernel

theorem lateDev_reached : lateDev.reached (lateDev.zoneEnc lineQueued.zone) (lateDev.fireAdv lateHead (lateDev.zoneEnc lineQueued.zone)
    (lateDev.getAct (F.FIR_HG_HEAD_THROW_THROW (lateHead / 8) (lateHead % 8))) 0) 0 = true := by decide +kernel

theorem lateDev_mramGood : MramGood lateDev := by decide +kernel

theorem lateDev_findItem : lateDev.findItem lineQueued.item = some itemBound := by decide +kernel

/-- The state of an item after a step. -/
def itemStateAfter (id : Nat) : Host.Outcome State Fault Refusal → Option Nat
  | .next t => (t.dev.findItem id).map fun i => i.state
  | _ => none

/-- The model leaves the item SCHEDULED, for the ACTIVE to finalise. -/
theorem lateOnStandby_scheduled : itemStateAfter 9 (exec (.fireInstant lateHead 0) lateOnStandby) = some isScheduled := by decide +kernel

/-- Refutes O34: the clause on a late line has its item final at once with no premise on the pair role, and a STANDBY leaves the end of
an item to the ACTIVE (R381, R384), so there the item stays SCHEDULED. -/
theorem not_firingAndHeat : ¬ Obligations.FiringAndHeat := by
  rintro ⟨hfire, -⟩
  obtain ⟨e, hexec, hlate⟩ := hfire lateOnStandby lateHead 0
  simp only [lateDev_running, lateDev_noEvent, lateDev_dueLine, lateDev_reached, Bool.true_eq_false, if_false] at hlate
  obtain ⟨-, -, -, -, hend⟩ := hlate
  have hclaim : (e.findItem 9).map (fun j => (j.state, j.reason)) = some (isNotPrinted, 0x09) :=
    hend lateDev_mramGood itemBound lateDev_findItem rfl rfl (by decide)
  have hfinal : Finalised 9 isNotPrinted e := ⟨by simpa using congrArg (Option.map Prod.fst) hclaim, by decide⟩
  have hstays : itemStateAfter 9 (exec (.fireInstant lateHead 0) lateOnStandby) = some isNotPrinted := by
    rw [hexec]
    exact (hfinal.settle_margins lateOnStandby.dev).found
  exact absurd (lateOnStandby_scheduled.symm.trans hstays) (by decide)

end Sys2Proof.Machine
end

section
/-! A field failure of an item whose zone is no zone of the part (R210). IMP_ERR is one word, made as the sum of VALID, KIND, TPL and the
item's zone. The statement is about every state, and in one that holds an item of zone 2^31 the sum carries out of bit 31 and VALID is
written as 0. `Ends` speaks of a device before the margins and the collector have run, so the refutation also needs that neither of them
clears VALID where it is set (`FailureRecorded.settle_margins`). -/

namespace Sys2Proof.Machine

/-- VALID is set in IMP_ERR: a failure is recorded (R210). -/
structure FailureRecorded (d : Dev) : Prop where
  valid : (d.rd R.IMP_ERR).toNat.testBit 31 = true

namespace FailureRecorded

variable {d e : Dev}

theorem of_get (h : d.get F.IMP_ERR_VALID = 1) : FailureRecorded d := by
  have hbit : (bits (d.rd R.IMP_ERR).toNat 31 1).testBit 0 = true := congrArg (fun x : Nat => x.testBit 0) h
  rw [testBit_bits] at hbit
  exact ⟨hbit⟩

/-! ### Parts of the device and registers -/

/-- A step that changes no register. -/
theorem same (h : FailureRecorded d) (hregs : e.regs = d.regs) : FailureRecorded e := ⟨by rw [Dev.rd, hregs]; exact h.valid⟩

/-- A step that leaves IMP_ERR. -/
theorem of_rd (h : FailureRecorded d) (hrd : e.rd R.IMP_ERR = d.rd R.IMP_ERR) : FailureRecorded e := ⟨hrd ▸ h.valid⟩

/-- VALID is the last bit of its register: a field that ends below it leaves it, in whatever register it lies. -/
theorem put (h : FailureRecorded d) (f : Fld) (v : Nat) (hf : f.lo + f.width ≤ 31 := by exact Nat.le_of_ble_eq_true rfl) :
    FailureRecorded (d.put f v) := by
  by_cases ha : R.IMP_ERR = f.addr
  · refine ⟨?_⟩
    rw [ha, toNat_put d f v (by omega), testBit_setBits, if_neg (by omega), ← ha]
    exact h.valid
  · exact h.of_rd (rd_put_ne d f _ v ha)

theorem putElsewhere (h : FailureRecorded d) (f : Fld) (v : Nat) (hf : R.IMP_ERR ≠ f.addr) : FailureRecorded (d.put f v) :=
  h.of_rd (rd_put_ne d f _ v hf)

theorem wr (h : FailureRecorded d) {a : Nat} (ha : R.IMP_ERR ≠ a) (v : Word) : FailureRecorded (d.wr a v) := h.of_rd (rd_wr_ne d a _ v ha)

theorem wrN (h : FailureRecorded d) {a : Nat} (ha : R.IMP_ERR ≠ a) (v : Nat) : FailureRecorded (d.wrN a v) := h.wr ha _

theorem report (h : FailureRecorded d) (n : Nat) (x : Option Nat) : FailureRecorded (d.report n x) := h.same (report_regs d n x)

theorem emit (h : FailureRecorded d) (o : Out) : FailureRecorded (d.emit o) := h.same rfl

theorem onSys (h : FailureRecorded d) (f : SysSt → SysSt) : FailureRecorded (d.onSys f) := h.same rfl

theorem onItk (h : FailureRecorded d) (f : ItkSt → ItkSt) : FailureRecorded (d.onItk f) := h.same rfl

theorem onPos (h : FailureRecorded d) (f : PosSt → PosSt) : FailureRecorded (d.onPos f) := h.same rfl

theorem onFir (h : FailureRecorded d) (f : FirSt → FirSt) : FailureRecorded (d.onFir f) := h.same rfl

theorem onLmp (h : FailureRecorded d) (f : LmpSt → LmpSt) : FailureRecorded (d.onLmp f) := h.same rfl

theorem onTwn (h : FailureRecorded d) (f : TwnSt → TwnSt) : FailureRecorded (d.onTwn f) := h.same rfl

theorem onPgf (h : FailureRecorded d) (f : PgfSt → PgfSt) : FailureRecorded (d.onPgf f) := h.same rfl

theorem onDmc (h : FailureRecorded d) (f : DmcSt → DmcSt) : FailureRecorded (d.onDmc f) := h.same rfl

theorem when (h : FailureRecorded d) {b : Bool} {f : Dev → Dev} (hf : FailureRecorded d → FailureRecorded (f d)) :
    FailureRecorded (d.when b f) := by
  cases b
  · exact h
  · exact hf h

theorem each {α : Type} (h : FailureRecorded d) {l : List α} {f : Dev → α → Dev}
    (hf : ∀ d, ∀ x ∈ l, FailureRecorded d → FailureRecorded (f d x)) : FailureRecorded (d.each l f) := by
  induction l generalizing d with
  | nil => exact h
  | cons x l ih => exact ih (hf d x List.mem_cons_self h) fun d y hy => hf d y (List.mem_cons_of_mem x hy)

/-! ### Memory and messages -/

theorem st (h : FailureRecorded d) (a n x : Nat) : FailureRecorded (d.st a n x) := h.same (by rw [Dev.st, stBs_mem])

theorem mwr (h : FailureRecorded d) (a v : Nat) : FailureRecorded (d.mwr a v).1 := by
  have hfresh : FailureRecorded (d.fresh 64).2 := h.same rfl
  unfold Dev.mwr
  split_ifs
  · exact h
  · exact (hfresh.st a 8 _).put F.JNL_IRQ_STAT_MRAMERR 1
  · exact h.st a 8 v

theorem twSend (h : FailureRecorded d) (type : Nat) (body : List Nat) : FailureRecorded (d.twSend type body) := (h.onTwn _).emit _

theorem twInput (h : FailureRecorded d) (kind unit count : Nat) (args : List Nat) : FailureRecorded (d.twInput kind unit count args) :=
  h.when fun h => h.twSend _ _

theorem fabBroadcast (h : FailureRecorded d) (ptype : Nat) (payload : List Byte) : FailureRecorded (d.fabBroadcast ptype payload) :=
  h.each fun _ _ _ h => h.when fun h => h.onPgf _

theorem fabEpoch (h : FailureRecorded d) : FailureRecorded d.fabEpoch := by
  unfold Dev.fabEpoch
  exact h.when fun h => h.fabBroadcast _ _

theorem sendRefusal (h : FailureRecorded d) (link id reason : Nat) : FailureRecorded (d.sendRefusal link id reason) := by
  have h1 := (h.put F.ITK_IRQ_STAT_LINKREF 1).report 47 none
  unfold Dev.sendRefusal
  extract_lets d1 d2 rep d3
  have h2 : FailureRecorded d2 := h1.putElsewhere F.PGF_REFCNT_SENT _ (by decide)
  split_ifs
  · exact h
  · exact (h2.onPgf _).fabBroadcast _ _
  · exact h1

theorem refuseLinked (h : FailureRecorded d) : FailureRecorded d.refuseLinked := h.each fun _ _ _ h => h.sendRefusal _ _ _

theorem sendSeq (h : FailureRecorded d) (n type : Nat) (body : List Byte) : FailureRecorded (d.sendSeq n type body) := by
  rcases sendSeq_cases d n type body with ⟨-, heq⟩ | ⟨-, -, f, v, seq, -, heq⟩ | ⟨-, f, -, heq⟩ <;> rw [heq]
  · exact h
  · have hshown : FailureRecorded ((d.updSess n f).put (F.ITK_SESS_STAT_UNACKED n) v) := (h.onItk _).put _ _
    exact hshown.of_rd ((carried_wire _ _ _ _ _ _).frame.regs _ (by decide))
  · exact h.onItk _

theorem event (h : FailureRecorded d) (code zone a0 a1 : Nat) : FailureRecorded (d.event code zone a0 a1) :=
  h.each fun _ _ _ h => h.when fun h => h.sendSeq _ _ _

/-! ### The margins (R309) -/

theorem syncMargin (h : FailureRecorded d) (z : Nat) : FailureRecorded (d.syncMargin z) := by
  have hmargin : R.IMP_ERR ≠ R.SLU_ZONE_MARGIN z := by
    unfold R.IMP_ERR R.SLU_ZONE_MARGIN
    omega
  unfold Dev.syncMargin
  extract_lets l m th d1 d2
  have h1 : FailureRecorded d1 := h.wrN hmargin _
  split_ifs
  · exact h.wrN hmargin _
  · exact h1
  · exact h1
  · exact ((((h1.onFir _).event 2 z m th).put F.SLU_IRQ_STAT_MARGIN 1).put (F.SLU_ZONE_LATECNT_LOW z) _).report 123 none
  · exact h1.onFir _

theorem margins (h : FailureRecorded d) (old : Dev) : FailureRecorded (d.margins old) := by
  unfold Dev.margins
  split_ifs
  · exact h
  · exact h.each fun _ z _ h => h.syncMargin z

/-! ### The records of the collector (R460, R462, R463) -/

/-- A pending source only sets a bit, which clears none: this needs no bound on the source's number. -/
theorem setPend (h : FailureRecorded d) (k i : Nat) : FailureRecorded (d.setBit (F.FLT_PEND_PEND k) i) := by
  by_cases ha : R.IMP_ERR = R.FLT_PEND k
  · refine ⟨?_⟩
    have hset : (d.get (F.FLT_PEND_PEND k) ||| 2 ^ i).testBit 31 = true := by
      have hmine := h.valid
      rw [ha] at hmine
      simp [Dev.get, F.FLT_PEND_PEND, testBit_bits, hmine]
    rw [ha, Dev.setBit]
    refine (congrArg (fun x : Nat => x.testBit 31) (toNat_put d (F.FLT_PEND_PEND k) _ (by simp [F.FLT_PEND_PEND]))).trans ?_
    simpa [testBit_setBits, F.FLT_PEND_PEND] using hset
  · exact h.putElsewhere (F.FLT_PEND_PEND k) _ ha

theorem loseRecord (h : FailureRecorded d) : FailureRecorded d.loseRecord := by
  unfold Dev.loseRecord
  extract_lets first d1 d2
  have h1 : FailureRecorded d1 := (h.putElsewhere F.FLT_LOSTCNT_COUNT _ (by decide)).put F.FLT_IRQ_STAT_LOST 1
  exact (h1.onSys _).when fun h => h.setPend 1 2

theorem captureDetail (h : FailureRecorded d) (src : Nat) : FailureRecorded (d.captureDetail src) := by
  refine h.each fun _ w hw h => h.wr ?_ _
  have hw16 := List.mem_range.mp hw
  unfold R.IMP_ERR R.FLT_DETAIL
  omega

theorem writeRec (h : FailureRecorded d) (r : HistRec) : FailureRecorded (d.writeRec r) := by
  unfold Dev.writeRec
  split
  · exact h.loseRecord
  · extract_lets r' detail opens d0 n b d1 d2 d3 d4 left op d5 d6
    have h0 : FailureRecorded d0 := h.when fun h => h.captureDetail _
    have hn : n < 2 ^ 6 := get_lt d0 F.FLT_STAT_NEXT
    have h1 : FailureRecorded d1 := h0.each fun _ w hw h => by
      have hw8 := List.mem_range.mp hw
      refine h.wrN ?_ _
      unfold R.IMP_ERR R.FLT_HIST_W
      omega
    have h2 : FailureRecorded d2 := (h1.put F.FLT_STAT_NEXT _).putElsewhere F.FLT_STAT_LAST _ (by decide)
    have h4 : FailureRecorded d4 := (h2.put F.FLT_STAT_COUNT _).when fun h => h.wrN (by decide) _
    exact ((h4.onSys _).put F.FLT_IRQ_STAT_RECORD 1).when fun h => ((h.put F.FLT_STAT_FROZEN 1).put F.FLT_IRQ_STAT_LOST 1).onSys _

theorem syncStop (h : FailureRecorded d) : FailureRecorded d.syncStop := by
  unfold Dev.syncStop
  extract_lets now
  split_ifs
  · exact ((h.put F.FLT_STAT_STOP 1).put F.FLT_IRQ_STAT_STOP 1).refuseLinked
  · exact h.put F.FLT_STAT_STOP _
  · exact h.put F.FLT_STAT_STOP _

/-! ### The end of an item (R115, R124, R248) -/

theorem writeFinal (h : FailureRecorded d) (slot w : Nat) : FailureRecorded (d.writeFinal slot w).1 := by
  unfold Dev.writeFinal
  dsimp only
  split_ifs
  · exact ((h.mwr _ _).mwr _ _).mwr _ _
  · exact h.mwr _ _

theorem enter (h : FailureRecorded d) (n : Nat) : FailureRecorded (d.enter n) := by
  unfold Dev.enter
  split_ifs
  · exact h
  · exact ((h.put F.SYS_STATE_PREV _).put F.SYS_STATE_STATE n).put F.SYS_IRQ_STAT_STATE 1

theorem syncPrinting (h : FailureRecorded d) : FailureRecorded d.syncPrinting := by
  unfold Dev.syncPrinting
  dsimp only
  split_ifs
  · exact (h.enter stPrinting).onDmc _
  · exact h.enter stReady
  · exact h

theorem rejRequest1 (h : FailureRecorded d) (o z p : Nat) : FailureRecorded (d.rejRequest1 o z p) := by
  have hcount : R.IMP_ERR ≠ R.POS_REJ_COUNT o := by
    unfold R.IMP_ERR R.POS_REJ_COUNT
    omega
  have hstat : R.IMP_ERR ≠ R.POS_REJ_STAT o := by
    unfold R.IMP_ERR R.POS_REJ_STAT
    omega
  unfold Dev.rejRequest1
  extract_lets d1 q d2 d3
  have h1 : FailureRecorded d1 := h.putElsewhere (F.POS_REJ_COUNT_COUNT o) _ hcount
  have hpulse : FailureRecorded (d1.rejPulse o z) := h1.same rfl
  split_ifs
  · exact h1
  · exact ((hpulse.putElsewhere (F.POS_REJ_STAT_LATECNT o) _ hstat).put F.POS_IRQ_STAT_REJ 1).report 91 none
  · exact (h1.onPos _).put (F.POS_REJ_STAT_PENDING o) _
  · exact (((h1.onPos _).put (F.POS_REJ_STAT_HELD o) 1).put F.POS_IRQ_STAT_REJ 1).report 92 none

theorem rejAt (h : FailureRecorded d) (z p : Nat) : FailureRecorded (d.rejAt z p) := by
  unfold Dev.rejAt
  exact (h.when fun h => h.rejRequest1 0 z p).when fun h => h.rejRequest1 1 z p

theorem rejItem (h : FailureRecorded d) (i : Item) : FailureRecorded (d.rejItem i) := by
  unfold Dev.rejItem Dev.rejRequest
  split_ifs
  · exact (h.twInput _ _ _ _).rejAt _ _
  · exact h

theorem finaliseHere (h : FailureRecorded d) (id state reason : Nat) (bound rejected : Bool) :
    FailureRecorded (d.finaliseHere id state reason bound rejected) := by
  unfold Dev.finaliseHere
  split
  · exact h
  · next i hi =>
    extract_lets r d1 d2 d3 d4 d5 now d6
    have hr : FailureRecorded r.1 := h.writeFinal _ _
    have h2 : FailureRecorded d2 := (hr.onItk _).put (F.ITK_ZONE_STAT_LIVE i.zone) _
    have h3 : FailureRecorded d3 := h2.when fun h => h.sendRefusal _ _ _
    have h4 : FailureRecorded d4 := h3.when fun h => h.rejItem i
    have h5 : FailureRecorded d5 := h4.when fun h => (h.twSend _ _).onTwn _
    split_ifs
    · exact h
    · exact (hr.onItk _).report 24 none
    · exact (h5.onItk _).syncPrinting

theorem finalise (h : FailureRecorded d) (id state reason : Nat) (bound rejected : Bool) :
    FailureRecorded (d.finalise id state reason bound rejected) := by
  unfold Dev.finalise
  split_ifs
  · exact h.finaliseHere _ _ _ _ _
  · exact h

/-! ### The safe state and the collector (R389, R461, R472) -/

theorem setRole (h : FailureRecorded d) (r : Nat) : FailureRecorded (d.setRole r) := by
  unfold Dev.setRole
  extract_lets d1 d2
  have h1 : FailureRecorded d1 := (h.putElsewhere F.TWN_STAT_ROLE r (by decide)).put F.TWN_IRQ_STAT_ROLE 1
  have h2 : FailureRecorded d2 := h1.when fun h => h.mwr _ _
  split_ifs
  · exact h
  · exact (h2.put F.HLK_EPOCH_ACT _).fabEpoch
  · exact (h2.put F.HLK_EPOCH_ACT _).fabEpoch

theorem resign (h : FailureRecorded d) (cause : Nat) (counts : List Nat) : FailureRecorded (d.resign cause counts) := by
  unfold Dev.resign
  extract_lets d1 d2
  have h1 : FailureRecorded d1 := (h.twSend _ _).onTwn _
  exact ((h1.setRole _).putElsewhere F.TWN_LASTTKO_CAUSE cause (by decide)).report 38 none

theorem speedSafe (h : FailureRecorded d) : FailureRecorded d.speedSafe :=
  ((h.put F.SLU_SPD_STAT_DUTY _).put F.SLU_SPD_STAT_SRC _).put F.SLU_SPD_STAT_CAUSE _

theorem lampSafe (h : FailureRecorded d) : FailureRecorded d.lampSafe := by
  refine h.each fun d c _ h => h.when fun h => ?_
  have hstat : R.IMP_ERR ≠ R.LMP_CH_STAT c := by
    unfold R.IMP_ERR R.LMP_CH_STAT
    omega
  extract_lets d1 d2
  have h1 : FailureRecorded d1 := (h.putElsewhere (F.LMP_CH_STAT_STATE c) 3 hstat).put (F.LMP_CH_STAT_STAGING c) 0
  exact (h1.onLmp _).when fun h => h.emit _

theorem safeSteps (h : FailureRecorded d) (cause src : Nat) (finals : Bool) : FailureRecorded (d.safeSteps cause src finals) := by
  unfold Dev.safeSteps
  extract_lets old d0 d1 d2 d3 d4 d5 d6 d7
  have h2 : FailureRecorded d2 := (((h.enter stSafe).wrN (by decide) _).put F.FLT_STAT_SAFE 1).put F.FLT_IRQ_STAT_SAFE 1
  have h3 : FailureRecorded d3 := h2.each fun _ o _ h => (h.onPos _).put (F.POS_REJ_STAT_PENDING o) 0
  have h5 : FailureRecorded d5 := h3.speedSafe.each fun _ n _ h => h.put (F.FIR_HG_STAT_IDLESAFE n) 1
  exact h5.lampSafe.refuseLinked.when fun h => (h.each fun _ _ _ h => h.finalise _ _ _ _ _).onItk _

theorem enterSafe (h : FailureRecorded d) (cause src : Nat) : FailureRecorded (d.enterSafe cause src) := by
  unfold Dev.enterSafe
  split_ifs
  · exact h
  · exact (h.resign _ _).safeSteps _ _ _
  · exact (h.twInput _ _ _ _).safeSteps _ _ _

theorem react (h : FailureRecorded d) (r : HistRec) : FailureRecorded (d.react r) := by
  unfold Dev.react
  extract_lets d0 fatal hold d1 twd c t
  have h0 : FailureRecorded d0 := h.when fun h => h.event _ _ _ _
  split
  · exact h0
  · exact (h0.enterSafe _ _).when fun h => h.onSys _

theorem collect (h : FailureRecorded d) : FailureRecorded d.collect := by
  unfold Dev.collect
  extract_lets ms recs d0 d1 d2 d3 c d3b d4
  have h0 : FailureRecorded d0 := h.same rfl
  have h1 : FailureRecorded d1 := h0.each fun _ _ _ h => h.when fun h => h.setPend _ _
  have h2 : FailureRecorded d2 := h1.each fun _ r _ h => h.writeRec r
  have h3 : FailureRecorded d3 := h2.each fun _ _ _ h => h.loseRecord
  have h3b : FailureRecorded d3b := h3.each fun _ _ _ h => h.when fun h => h.onTwn _
  have h4 : FailureRecorded d4 := h3b.each fun _ _ _ h => h.when fun h => h.put F.FLT_IRQ_STAT_REGERR 1
  exact (h4.each fun _ r _ h => h.react r).syncStop

theorem settleN (h : FailureRecorded d) (n : Nat) : FailureRecorded (d.settleN n) := by
  induction n generalizing d with
  | zero => exact h
  | succ n ih =>
    unfold Dev.settleN
    split_ifs
    · exact h
    · exact ih h.collect

/-- Nothing that follows a command takes back the record of a failure. -/
theorem settle_margins (h : FailureRecorded d) (old : Dev) : FailureRecorded (d.margins old).settle := (h.margins old).settleN 4

end FailureRecorded

/-- An error in IMP's own buffers fails an item that prints no field. -/
theorem fieldFails_of_buffers {x e : Dev} {i : Item} {h : StreamHdr} {T : Nat} (hplan : x.fieldPlan i = []) (hend : FieldsEnd x e i h T 1) :
    FieldFails x e i := by
  simp only [FieldsEnd, hplan, Dev.drawAll, if_true] at hend
  exact hend.1

/-! ### A zone whose number carries into VALID -/

/-- An ACCEPTED item of zone 2^31, for which no template is enabled. -/
def farItem : Item := { itemNine 5 0 with zone := 2 ^ 31 }

/-- IMP has it in work and waits for room in the field store; its page's header has passed. The fault history is frozen (R462), so that
no record takes in the DETAIL that the spec leaves open. -/
def farState : State :=
  { dev := (((({} : Dev).put F.FLT_STAT_FROZEN 1).onItk fun t =>
    { t with items := [farItem], pages := [{ page := 5, hdr := some threeBlocks }] }).onRas fun t =>
    { t with impQ := [9], impWork := some (9, 0), impRoom := true }) }

/-- The device at FIELD_STORE_ROOM, its queue purged: the item is still in work. -/
abbrev farDev : Dev := farState.dev.impPurge

theorem farDev_impItem : farDev.impItem = some (farItem, threeBlocks, 0) := by decide +kernel

theorem farDev_impRoom : farDev.ras.impRoom = true := by decide +kernel

theorem farDev_fieldPlan : farDev.fieldPlan farItem = [] := by decide +kernel

/-- IMP_ERR after a step. -/
def impErrAfter : Host.Outcome State Fault Refusal → Option Word
  | .next t => some (t.dev.rd R.IMP_ERR)
  | _ => none

/-- An error in IMP's own buffers fails the item, and IMP_ERR then shows its KIND, 11, without VALID. -/
theorem farState_impErr : impErrAfter (exec (.fieldStoreRoom 1) farState) = some 0x000B0000 := by decide +kernel

/-- Refutes O32: the statement is about every state, and in one where IMP holds an item of zone 2^31, a failure (R210) leaves VALID of
IMP_ERR clear, where the statement has it set. A zone below 16, as every zone of the part is, cannot carry into VALID. -/
theorem not_fieldRendering : ¬ Obligations.FieldRendering := by
  rintro ⟨-, -, hroom⟩
  obtain ⟨e, hexec, hend⟩ := hroom farState 1
  have hends : FieldsEnd farDev e farItem threeBlocks 0 (1 : Fin 3) := by
    simpa only [farDev_impItem, farDev_impRoom, if_true] using hend
  obtain ⟨-, -, -, hvalid, -, -⟩ : FieldFails farDev e farItem := fieldFails_of_buffers farDev_fieldPlan hends
  have hstays := ((FailureRecorded.of_get hvalid).settle_margins farState.dev).valid
  have hshown : (e.margins farState.dev).settle.rd R.IMP_ERR = 0x000B0000 := by
    have hafter := farState_impErr
    rw [hexec] at hafter
    exact Option.some.inj hafter
  rw [hshown] at hstays
  exact absurd hstays (by decide)

end Sys2Proof.Machine
end

section
/-! The nozzle states at a line boundary (R221, R222). -/

namespace Sys2Proof.Machine

/-! ### The table of state changes (R222) -/

/-- The state that a nozzle in state `st` takes by the change `k`, as the table of R222 has it. -/
def nextNozState (st k : Nat) : Nat :=
  if k = 0 then (if st = 0 ∨ st = 2 then 1 else st) else if k = 1 then (if st = 3 then 3 else 0)
  else if k = 2 then (if st = 3 then 3 else 1) else if k = 3 then (if st = 1 then 2 else st)
  else if k = 4 then (if st = 2 then 0 else st) else (if st = 2 then 1 else st)

/-- The states of all nozzles after the change `x`, which names one nozzle. -/
def applyTo (st : Nat → Nat) (x : Nat × Nat) : Nat → Nat := Function.update st x.1 (nextNozState (st x.1) x.2)

/-- After a list of changes a nozzle has gone through those that name it, in order. -/
theorem foldl_applyTo (l : List (Nat × Nat)) (st : Nat → Nat) (n : Nat) :
    l.foldl applyTo st n = (l.filter fun x => x.1 = n).foldl (fun s x => nextNozState s x.2) (st n) := by
  induction l generalizing st with
  | nil => rfl
  | cons x l ih =>
    rw [List.foldl_cons, ih]
    by_cases hx : x.1 = n
    · simp [hx, applyTo]
    · simp [hx, applyTo, Function.update_of_ne (Ne.symm hx)]

/-! ### What the changes of a line boundary leave -/

/-- The nozzles of `e` have the states `st`; of what else a line boundary must leave, `e` has what `d` has. -/
structure NozStep (d e : Dev) (st : Nat → Nat) : Prop where
  states : ∀ n, e.nozState n = st n
  changes : e.nzm.changes = d.nzm.changes
  active : e.nzm.active = d.nzm.active
  next : e.nzm.next = d.nzm.next
  mem : e.mem = d.mem
  itk : e.itk = d.itk
  fir : e.fir = d.fir

namespace NozStep

variable {d e : Dev} {st : Nat → Nat} (h : NozStep d e st) (n : Nat)

theorem refl (d : Dev) : NozStep d d d.nozState := ⟨fun _ => rfl, rfl, rfl, rfl, rfl, rfl, rfl⟩

include h

theorem put (f : Fld) (v : Nat) : NozStep d (e.put f v) st :=
  ⟨h.states, h.changes, h.active, h.next, h.mem, h.itk, h.fir⟩

theorem report (src : Nat) : NozStep d (e.report src) st :=
  ⟨h.states, h.changes, h.active, h.next, h.mem, h.itk, h.fir⟩

/-- The heads marked full (R222) are none of it. -/
theorem maxout (f : List Nat → List Nat) : NozStep d (e.onNzm fun t => { t with maxout := f t.maxout }) st :=
  ⟨h.states, h.changes, h.active, h.next, h.mem, h.itk, h.fir⟩

/-- The waits of nozzles that are out, and their delays (R223), are none of it. -/
theorem waits (f : List (Nat × Nat × Nat) → List (Nat × Nat × Nat)) (g : List (Nat × Nat) → List (Nat × Nat)) :
    NozStep d (e.onNzm fun t => { t with outs := f t.outs, delays := g t.delays }) st :=
  ⟨h.states, h.changes, h.active, h.next, h.mem, h.itk, h.fir⟩

theorem syncCounts : NozStep d (e.syncCounts n) st := by
  have hput := (h.put (F.NZM_HEAD_STAT_OUTCNT n) (e.countState n 1)).put (F.NZM_HEAD_STAT_DISCNT n) (e.countState n 3)
  unfold Dev.syncCounts
  extract_lets o mx d1 full
  split_ifs
  · exact hput
  · exact ((hput.maxout (n :: ·)).put F.NZM_IRQ_STAT_MAXOUT 1).report 82
  · exact hput.maxout _

theorem setNoz (v : Nat) : NozStep d (e.setNoz n v) (Function.update st n v) := by
  have hset : NozStep d (e.onNzm fun t => { t with states := spPut 0 t.states n v }) (Function.update st n v) := by
    refine ⟨fun m => ?_, h.changes, h.active, h.next, h.mem, h.itk, h.fir⟩
    by_cases hm : m = n
    · rw [hm, Function.update_self]
      exact spGet_spPut_same 0 e.nzm.states n v
    · rw [Function.update_of_ne hm, ← h.states m]
      exact spGet_spPut_ne 0 0 e.nzm.states n m v hm
  unfold Dev.setNoz
  extract_lets d1
  split
  · exact hset.syncCounts _
  · exact hset

theorem startWait : NozStep d (e.startWait n) st :=
  h.waits (fun l => (l.filter fun x => x.1 != n) ++ [(n, e.c, e.probeDelay n)]) id

theorem endWait : NozStep d (e.endWait n) st := h.waits _ _

theorem declared : NozStep d (e.declared n) st := (h.put F.NZM_IRQ_STAT_OUT 1).report 81

theorem probeFail : NozStep d (e.probeFail n) (Function.update st n 1) := by
  unfold Dev.probeFail
  extract_lets w d1
  have hdelay : NozStep d d1 st := h.waits id fun l => (l.filter fun x => x.1 != n) ++ [(n, w)]
  exact (hdelay.setNoz n 1).startWait n

/-- A change that leaves its nozzle's state. -/
theorem stay {k : Nat} (hk : nextNozState (st n) k = st n) : NozStep d e (applyTo st (n, k)) := by
  rwa [applyTo, hk, Function.update_eq_self]

omit h in
/-- A change that gives its nozzle the state `v`. -/
theorem moved {k v : Nat} {f : Dev} (hk : nextNozState (st n) k = v) (hf : NozStep d f (Function.update st n v)) :
    NozStep d f (applyTo st (n, k)) := by
  rwa [applyTo, hk]

theorem applyChange (k : Nat) : NozStep d (e.applyChange n k) (applyTo st (n, k)) := by
  have hst := h.states n
  unfold Dev.applyChange
  rw [hst]
  dsimp only
  split_ifs with h0 hok hprobe hdis h1 hdis h2 hdis h3 hout h4 hprobe hprobe
  · exact moved n (by simp [nextNozState, h0, hok]) (((h.setNoz n 1).declared n).startWait n)
  · exact moved n (by simp [nextNozState, h0, hprobe]) (h.probeFail n)
  · exact (h.put F.NZM_DECLIGN_COUNT _).stay n (by simp [nextNozState, h0, hdis])
  · exact h.stay n (by simp [nextNozState, h0, hok, hprobe])
  · exact h.stay n (by simp [nextNozState, h1, hdis])
  · exact moved n (by simp [nextNozState, h1, hdis]) ((h.setNoz n 0).endWait n)
  · exact h.stay n (by simp [nextNozState, h2, hdis])
  · exact moved n (by simp [nextNozState, h2, hdis]) ((h.setNoz n 1).waits _ id)
  · exact moved n (by simp [nextNozState, h3, hout]) (h.setNoz n 2)
  · exact h.stay n (by simp [nextNozState, h3, hout])
  · exact moved n (by simp [nextNozState, h4, hprobe]) (((h.setNoz n 0).endWait n).put F.NZM_IRQ_STAT_RESTORED 1)
  · exact h.stay n (by simp [nextNozState, h4, hprobe])
  · exact moved n (by simp [nextNozState, h0, h1, h2, h3, h4, hprobe]) (h.probeFail n)
  · exact h.stay n (by simp [nextNozState, h0, h1, h2, h3, h4, hprobe])

omit n in
theorem each (l : List (Nat × Nat)) : NozStep d (e.each l fun d x => d.applyChange x.1 x.2) (l.foldl applyTo st) := by
  induction l generalizing e st with
  | nil => exact h
  | cons x l ih => exact ih (h.applyChange x.1 x.2)

end NozStep

theorem nozzleStateApply_ends (s : State) (hg : Fin 8) : Ends (.nozzleStateApply hg) s fun e =>
    let d := s.dev
    (∀ n : Nat, e.nozState n = if n / 32768 = hg then (d.nzm.changes.filter fun x => x.1 = n).foldl (fun st x => nextNozState st x.2) (d.nozState n)
      else d.nozState n) ∧
    e.nzm.changes = d.nzm.changes.filter (fun x => x.1 / 32768 ≠ hg.val) ∧ e.nzm.active = d.nzm.active ∧ e.nzm.next = d.nzm.next ∧
    (∀ a, e.ldB a = d.ldB a) ∧ e.itk = d.itk ∧ e.fir = d.fir ∧
    ((d.nzm.changes.filter fun x => x.1 / 32768 = hg.val) = [] → e = d) := by
  have hexec : exec (.nozzleStateApply hg) s = execNozzleStateApply hg s := rfl
  unfold execNozzleStateApply at hexec
  refine ends_of_upd hexec ?_
  dsimp only
  generalize s.dev = d
  unfold Dev.lineBoundary
  extract_lets mine d1
  have hmine : mine = d.nzm.changes.filter fun x => x.1 / 32768 = hg.val := rfl
  have hrest : d1.nzm.changes = d.nzm.changes.filter (fun x => x.1 / 32768 ≠ hg.val) := List.filter_congr fun x _ => by simp [bne, beq_eq_decide]
  have hstep := (NozStep.refl d1).each mine
  refine ⟨fun n => ?_, hstep.changes.trans hrest, hstep.active, hstep.next, fun a => congrArg (spGet memDefault · a) hstep.mem, hstep.itk,
    hstep.fir, fun hnone => ?_⟩
  · rw [hstep.states, foldl_applyTo, hmine, List.filter_filter]
    by_cases hn : n / 32768 = hg
    · rw [if_pos hn]
      congr 1
      exact List.filter_congr fun x _ => by grind
    · rw [if_neg hn, List.filter_eq_nil_iff.mpr (fun x _ => by grind)]
      rfl
  · have hall : d.nzm.changes.filter (fun x => x.1 / 32768 != hg.val) = d.nzm.changes :=
      List.filter_eq_self.mpr fun x hx => by simpa using List.filter_eq_nil_iff.mp hnone x hx
    rw [hmine, hnone, each_nil]
    exact congrArg (fun l => d.onNzm fun t => { t with changes := l }) hall

end Sys2Proof.Machine
end

section
/-! The rake's own changes: a probe (R223), a correction (R228), a temperature that has gone stale (R225), and the PB4-compatible
calibration (R229). -/

namespace Sys2Proof.Machine

/-! ### Changes that reach NZM (R221, R381) -/

/-- The changes `l` join those that wait, and the partner may have been told of them. -/
def Dev.queued (d : Dev) (t : TwnSt) (o : List Out) (l : List (Nat × Nat)) : Dev :=
  { d with twn := t, out := o, nzm := { d.nzm with changes := d.nzm.changes ++ l } }

theorem queued_nil (d : Dev) : d.queued d.twn d.out [] = d := by
  unfold Dev.queued
  rw [List.append_nil]

theorem queued_queued (d : Dev) (t t' : TwnSt) (o o' : List Out) (l l' : List (Nat × Nat)) :
    (d.queued t o l).queued t' o' l' = d.queued t' o' (l ++ l') := by
  unfold Dev.queued
  rw [← List.append_assoc]

/-- On the chip that decides, a change is queued. -/
theorem takeChange_of_decides {d : Dev} (h : d.decides = true) (n k : Nat) : ∃ t o, d.takeChange n k = d.queued t o [(n, k)] := by
  obtain ⟨t, o, ht⟩ := twInput_rest d 5 0xFF 0 [n, k]
  refine ⟨t, o, ?_⟩
  rw [Dev.takeChange, if_pos h, ht]
  rfl

theorem takeChange_of_not_decides {d : Dev} (h : d.decides = false) (n k : Nat) : d.takeChange n k = d := by
  rw [Dev.takeChange, h, if_neg Bool.false_ne_true]

/-- A list of changes of one kind. -/
theorem each_takeChange (k : Nat) (l : List Nat) {d : Dev} (h : d.decides = true) :
    ∃ t o, d.each l (fun d n => d.takeChange n k) = d.queued t o (l.map fun n => (n, k)) := by
  induction l generalizing d with
  | nil => exact ⟨d.twn, d.out, (queued_nil d).symm⟩
  | cons n l ih =>
    obtain ⟨t, o, hn⟩ := takeChange_of_decides h n k
    obtain ⟨t', o', hl⟩ := ih (d := d.queued t o [(n, k)]) h
    exact ⟨t', o', by rw [each_cons, hn, hl, queued_queued, List.map_cons, List.singleton_append]⟩

/-! ### PROBE_DELAY_EXPIRY (R223) -/

theorem probeDelayExpiry_ends (s : State) (n : Fin 262144) : Ends (.probeDelayExpiry n) s fun e =>
    let d := s.dev
    match d.nzm.outs.find? fun x => x.1 == n.val with
    | none => e = d
    | some (_, t0, w) =>
      e.c = max d.c (t0 + w * 1000000000) % 2 ^ 64 ∧ e.regs = d.regs ∧ e.mem = d.mem ∧
      (d.get F.CAL_CFG_RESTORE ≠ 1 → e = { d with c := e.c }) ∧
      (d.get F.CAL_CFG_RESTORE = 1 → e.nzm = { d.nzm with outs := d.nzm.outs.filter (fun x => x.1 ≠ n.val), changes := e.nzm.changes } ∧
        e.nzm.changes = if d.decides then d.nzm.changes ++ [(n.val, 3)] else d.nzm.changes) := by
  have hexec : exec (.probeDelayExpiry n) s = execProbeDelayExpiry n s := rfl
  unfold execProbeDelayExpiry at hexec
  refine ends_of_upd hexec ?_
  dsimp only
  generalize s.dev = d
  cases d.nzm.outs.find? fun x => x.1 == n.val with
  | none => rfl
  | some x =>
    obtain ⟨m, t0, w⟩ := x
    dsimp only
    rw [when_eq_ite (p := d.get F.CAL_CFG_RESTORE = 1) (by simp [Dev.atTime, Dev.get, Dev.rd])]
    split
    · next hrestore =>
      have hfilter : d.nzm.outs.filter (fun x => x.1 != n.val) = d.nzm.outs.filter fun x => x.1 ≠ n.val :=
        List.filter_congr fun x _ => by simp [bne, beq_eq_decide]
      have hsame : ((d.atTime (t0 + w * 1000000000)).onNzm fun t =>
        { t with outs := t.outs.filter fun x => x.1 != n.val }).decides = d.decides := rfl
      cases hdec : d.decides with
      | true =>
        obtain ⟨t, o, hleft⟩ := takeChange_of_decides (hsame.trans hdec) n 3
        rw [hleft, ← hfilter]
        exact ⟨rfl, rfl, rfl, fun h => absurd hrestore h, fun _ => ⟨rfl, rfl⟩⟩
      | false =>
        rw [takeChange_of_not_decides (hsame.trans hdec), ← hfilter]
        exact ⟨rfl, rfl, rfl, fun h => absurd hrestore h, fun _ => ⟨rfl, rfl⟩⟩
    · next hrestore => exact ⟨rfl, rfl, rfl, fun _ => rfl, fun h => absurd h hrestore⟩

/-! ### Corrections (R228) -/

/-- What a correction may change: registers, the corrections, the settling marks. -/
def OnlyCorr (d e : Dev) : Prop := e = { d with regs := e.regs, nzm := { d.nzm with corr := e.nzm.corr, settle := e.nzm.settle } }

theorem OnlyCorr.refl (d : Dev) : OnlyCorr d d := rfl

theorem OnlyCorr.trans {d e f : Dev} (h : OnlyCorr d e) (k : OnlyCorr e f) : OnlyCorr d f := by
  unfold OnlyCorr at *
  rw [k, h]

theorem OnlyCorr.each {α : Type} {d e : Dev} (h : OnlyCorr d e) {l : List α} {f : Dev → α → Dev} (hf : ∀ d x, OnlyCorr d (f d x)) :
    OnlyCorr d (e.each l f) := by
  induction l generalizing e with
  | nil => exact h
  | cons x l ih => exact ih (h.trans (hf e x))

/-- The registers that a correction writes. -/
abbrev corrRegs : List Nat := [R.CAL_UPDCNT, R.CAL_STAT]

/-- A correction, where it changes the value of its nozzle: it is held and counted, and the settling mark is set. -/
def Dev.corrected (d : Dev) (n : Nat) (c : Int) (mark : Nat) : Dev :=
  ((d.onNzm fun t => { t with corr := spPut 0 t.corr n c, settle := (t.settle.filter fun x => x.1 != n) ++ [(n, mark)] }).incSat
    F.CAL_UPDCNT_COUNT).syncSettling

theorem correct_eq (d : Dev) (h i : Nat) (delta : Int) :
    ∃ mark, d.correct h i delta = if clampI (-63) 63 (d.corr (d.devNoz h i) + delta) = d.corr (d.devNoz h i) then d
      else d.corrected (d.devNoz h i) (clampI (-63) 63 (d.corr (d.devNoz h i) + delta)) mark := ⟨_, rfl⟩

theorem onlyCorr_correct (d : Dev) (h i : Nat) (delta : Int) : OnlyCorr d (d.correct h i delta) := by
  obtain ⟨mark, heq⟩ := correct_eq d h i delta
  rw [heq]
  split <;> rfl

theorem frame_correct (d : Dev) (h i : Nat) (delta : Int) : Frame d (d.correct h i delta) corrRegs := by
  obtain ⟨mark, heq⟩ := correct_eq d h i delta
  rw [heq]
  split
  · exact .refl _ _
  · rw [Dev.corrected, Dev.syncSettling]
    have hcount := frame_incSat (d.onNzm fun t => { t with
      corr := spPut 0 t.corr (d.devNoz h i) (clampI (-63) 63 (d.corr (d.devNoz h i) + delta))
      settle := (t.settle.filter fun x => x.1 != d.devNoz h i) ++ [(d.devNoz h i, mark)] }) F.CAL_UPDCNT_COUNT corrRegs (by decide)
    exact Frame.trans ⟨hcount.regs, hcount.mem⟩ (frame_put _ F.CAL_STAT_SETTLING _ _ (by decide))

theorem corr_correct_same (d : Dev) (h i : Nat) (delta : Int) :
    (d.correct h i delta).corr (d.devNoz h i) = clampI (-63) 63 (d.corr (d.devNoz h i) + delta) := by
  obtain ⟨mark, heq⟩ := correct_eq d h i delta
  rw [heq]
  split
  · next hsame => exact hsame.symm
  · exact spGet_spPut_same 0 d.nzm.corr _ _

theorem corr_correct_ne (d : Dev) (h i : Nat) (delta : Int) {m : Nat} (hm : m ≠ d.devNoz h i) : (d.correct h i delta).corr m = d.corr m := by
  obtain ⟨mark, heq⟩ := correct_eq d h i delta
  rw [heq]
  split
  · rfl
  · exact spGet_spPut_ne 0 0 d.nzm.corr _ m _ hm

/-- A correction that changes the value of its nozzle is counted. -/
theorem updcnt_correct (d : Dev) (h i : Nat) (delta : Int) (hne : (d.correct h i delta).corr (d.devNoz h i) ≠ d.corr (d.devNoz h i)) :
    ((d.correct h i delta).rd R.CAL_UPDCNT).toNat = min (2 ^ 32 - 1) ((d.rd R.CAL_UPDCNT).toNat + 1) := by
  obtain ⟨mark, heq⟩ := correct_eq d h i delta
  rw [corr_correct_same] at hne
  rw [heq, if_neg hne, Dev.corrected, Dev.syncSettling, rd_put_ne _ _ _ _ (by decide)]
  exact toNat_incSat (d.onNzm _) R.CAL_UPDCNT

/-! ### DENSITY_REPORT (R228) -/

/-- The head and head nozzle found for a device nozzle are its own. -/
theorem devNoz_of_nozHead {d : Dev} {n h i : Nat} (hn : d.nozHead n = some (h, i)) : d.devNoz h i = n := by
  unfold Dev.nozHead at hn
  obtain ⟨k, hfind, hk⟩ := Option.map_eq_some_iff.mp hn
  obtain ⟨rfl, rfl⟩ := Prod.mk.inj hk
  have hin := List.find?_some hfind
  simp only [Bool.and_eq_true, decide_eq_true_eq] at hin
  exact Nat.add_sub_cancel' hin.2.1

/-- The rake discards a report of nozzle `n` whose lowest STEPSEQ is `low` (R228): the nozzle is not OK, its head group degrades, the
report covers steps before its settling mark, or the rake is held. -/
abbrev Dev.discards (d : Dev) (n low : Nat) : Prop :=
  d.nozState n ≠ 0 ∨ d.get (F.NZM_HG_FLAGS_DEGRADE (n / 32768)) = 1 ∨
    ((d.nzm.settle.find? fun x => x.1 == n).any fun x =>
      decide ((x.2 + 2 ^ 32 - low % 2 ^ 32) % 2 ^ 32 ≠ 0 ∧ (x.2 + 2 ^ 32 - low % 2 ^ 32) % 2 ^ 32 < 2 ^ 31)) = true ∨ d.get F.CAL_HOLD_HOLD = 1

theorem takeDensity_of_nozHead {d : Dev} {n h i : Nat} (hn : d.nozHead n = some (h, i)) (r low : Nat) :
    d.takeDensity n r low = if d.discards n low then d.incSat F.CAL_DISCCNT_COUNT
      else d.correct h i (rakeDelta (d.get F.CAL_CFG_GAIN) (d.get F.CAL_CFG_DEADBAND) r) := by
  unfold Dev.takeDensity Dev.discards
  rw [hn]
  cases d.nzm.settle.find? fun x => x.1 == n <;> rfl

/-- The device once the partner has been told of a report. -/
def Dev.told (d : Dev) (t : TwnSt) (o : List Out) : Dev := { d with twn := t, out := o }

/-- What a report that the rake takes leaves: the correction of its nozzle, held within -63 to 63, and its count. -/
theorem correct_spec {d : Dev} {n h i : Nat} (hn : d.devNoz h i = n) (delta : Int) :
    let e := d.correct h i delta
    Frame d e [R.CAL_UPDCNT, R.CAL_STAT] ∧ e.corr n = clampI (-63) 63 (d.corr n + delta) ∧ (∀ m, m ≠ n → e.corr m = d.corr m) ∧
      (e.corr n ≠ d.corr n → (e.rd R.CAL_UPDCNT).toNat = min (2 ^ 32 - 1) ((d.rd R.CAL_UPDCNT).toNat + 1)) := by
  subst hn
  exact ⟨frame_correct d h i delta, corr_correct_same d h i delta, fun _ => corr_correct_ne d h i delta, updcnt_correct d h i delta⟩

theorem densityReport_ends (s : State) (n : Fin 262144) (r low : Nat) : Ends (.densityReport n r low) s fun e =>
    let d := s.dev
    let early := (d.nzm.settle.find? fun x => x.1 == n.val).any fun x =>
      decide ((x.2 + 2 ^ 32 - low % 2 ^ 32) % 2 ^ 32 ≠ 0 ∧ (x.2 + 2 ^ 32 - low % 2 ^ 32) % 2 ^ 32 < 2 ^ 31)
    if d.get F.CAL_CFG_MODE ≠ 1 ∨ d.decides = false then e = d
    else match d.nozHead n with
      | none => e.regs = d.regs ∧ e.nzm = d.nzm
      | some (_, _) =>
        if d.nozState n ≠ 0 ∨ d.get (F.NZM_HG_FLAGS_DEGRADE (n / 32768)) = 1 ∨ early = true ∨ d.get F.CAL_HOLD_HOLD = 1 then
          e.nzm = d.nzm ∧ Frame d e [R.CAL_DISCCNT] ∧ (e.rd R.CAL_DISCCNT).toNat = min (2 ^ 32 - 1) ((d.rd R.CAL_DISCCNT).toNat + 1)
        else
          let x := roundDiv ((d.get F.CAL_CFG_GAIN : Int) * 128 * (16384 - (r : Int))) (256 * 16384)
          let delta : Int := if x.natAbs ≤ d.get F.CAL_CFG_DEADBAND then 0 else x
          Frame d e [R.CAL_UPDCNT, R.CAL_STAT] ∧ e.corr n = clampI (-63) 63 (d.corr n + delta) ∧ (∀ m : Nat, m ≠ n → e.corr m = d.corr m) ∧
          (e.corr n ≠ d.corr n → (e.rd R.CAL_UPDCNT).toNat = min (2 ^ 32 - 1) ((d.rd R.CAL_UPDCNT).toNat + 1)) := by
  have hexec : exec (.densityReport n r low) s = execDensityReport n r low s := rfl
  unfold execDensityReport at hexec
  refine ends_of_upd hexec ?_
  dsimp only
  generalize s.dev = d
  rw [when_eq_ite (p := d.get F.CAL_CFG_MODE = 1) (by simp), Dev.densityReport]
  by_cases hleave : d.get F.CAL_CFG_MODE ≠ 1 ∨ d.decides = false
  · rw [if_pos hleave]
    rcases hleave with hmode | hdec
    · rw [if_neg hmode]
    · rw [hdec, if_neg Bool.false_ne_true, ite_self]
  · obtain ⟨hmode, hdec⟩ : d.get F.CAL_CFG_MODE = 1 ∧ d.decides = true := by simpa using hleave
    obtain ⟨t, o, ht⟩ : ∃ t o, d.twInput 6 0xFF 0 [n, r, low] = d.told t o := twInput_rest d 6 0xFF 0 [n, r, low]
    have hnoz : (d.told t o).nozHead n = d.nozHead n := rfl
    rw [if_neg hleave, if_pos hmode, if_pos hdec, ht]
    cases hhead : d.nozHead n with
    | none =>
      rw [Dev.takeDensity, hnoz, hhead]
      exact ⟨rfl, rfl⟩
    | some x =>
      obtain ⟨h, i⟩ := x
      have htake : (d.told t o).takeDensity n r low = if d.discards n low then (d.told t o).incSat F.CAL_DISCCNT_COUNT
          else (d.told t o).correct h i (rakeDelta (d.get F.CAL_CFG_GAIN) (d.get F.CAL_CFG_DEADBAND) r) :=
        takeDensity_of_nozHead (hnoz.trans hhead) r low
      dsimp only
      rw [htake]
      by_cases hdisc : d.discards n low
      · rw [if_pos hdisc, if_pos hdisc]
        have hframe := frame_incSat (d.told t o) F.CAL_DISCCNT_COUNT [R.CAL_DISCCNT] (by decide)
        exact ⟨rfl, ⟨hframe.regs, hframe.mem⟩, toNat_incSat (d.told t o) R.CAL_DISCCNT⟩
      · rw [if_neg hdisc, if_neg hdisc]
        obtain ⟨hframe, hcorr⟩ := correct_spec (d := d.told t o) (devNoz_of_nozHead (hnoz.trans hhead))
          (rakeDelta (d.get F.CAL_CFG_GAIN) (d.get F.CAL_CFG_DEADBAND) r)
        exact ⟨⟨hframe.regs, hframe.mem⟩, hcorr⟩

/-! ### TEMP_STALE_TIMEOUT (R225) -/

theorem tempStaleTimeout_ends (s : State) (h : Fin 64) : Ends (.tempStaleTimeout h) s fun e =>
    let d := s.dev
    if d.headOk h = true ∧ 100 ≤ d.tempAge h then
      Frame d e [R.CAL_IRQ_STAT] ∧ e = { d with regs := e.regs, reps := e.reps, freeCtr := e.freeCtr } ∧
      e.get F.CAL_IRQ_STAT_TEMPSTALE = 1 ∧ Reports d e [84]
    else e = d := by
  have hexec : exec (.tempStaleTimeout h) s = execTempStaleTimeout h s := rfl
  unfold execTempStaleTimeout at hexec
  refine ends_of_upd hexec ?_
  dsimp only
  rw [when_eq_ite (p := s.dev.headOk h = true ∧ 100 ≤ s.dev.tempAge h) (by rw [Bool.and_eq_true, decide_eq_true_eq])]
  split
  · exact ⟨(frame_put _ F.CAL_IRQ_STAT_TEMPSTALE 1 _ (List.mem_singleton_self _)).trans (frame_report _ _ _ _), rfl,
      (report_get _ _ _ _).trans (get_put_same _ F.CAL_IRQ_STAT_TEMPSTALE 1 (by decide)), Reports.report (reports_nil rfl) 84⟩
  · rfl

/-! ### PB4_RUN (R229) -/

/-- Patterns with these zones, heads and assembled lines have been bound, with no register written but those that show the run. -/
structure PatternStep (d e : Dev) (ps : List (Nat × List Nat × List (Nat × Nat))) : Prop where
  frame : Frame d e [R.CAL_STAT, R.CAL_PB4LAST]
  patterns : e.nzm.patterns.map (fun p => (p.zone, p.heads, p.asm)) = d.nzm.patterns.map (fun p => (p.zone, p.heads, p.asm)) ++ ps

theorem patternStep_bindPattern (d : Dev) (z : Nat) (hs : List Nat) : PatternStep d (d.bindPattern z hs) [(z, hs, [])] := by
  unfold Dev.bindPattern
  extract_lets now base line0 fp endp ts p v us d1
  obtain ⟨t, o, ht⟩ := twInput_rest d 8 z 0 ([fp, endp] ++ hs)
  have h1 : d1 = { d with twn := t, out := o, nzm := { d.nzm with patterns := d.nzm.patterns ++ [p] } } :=
    congrArg (fun d : Dev => d.onNzm fun t => { t with patterns := t.patterns ++ [p] }) ht
  have hframe := frame_put (d1.onItk fun t => { t with bound := upd t.bound z fun l => (0, endp) :: l }) F.CAL_PB4LAST_TIME us
    [R.CAL_STAT, R.CAL_PB4LAST] (by decide)
  rw [h1] at hframe ⊢
  exact ⟨⟨hframe.regs, hframe.mem⟩, List.map_append⟩

theorem patternStep_each (hs zs : List Nat) (d : Dev) :
    PatternStep d (d.each zs fun d z => d.bindPattern z hs) (zs.map fun z => (z, hs, [])) := by
  induction zs generalizing d with
  | nil => exact ⟨.refl _ _, (List.append_nil _).symm⟩
  | cons z zs ih =>
    have hz := patternStep_bindPattern d z hs
    have hzs := ih (d.bindPattern z hs)
    exact ⟨hz.frame.trans hzs.frame, by rw [each_cons, hzs.patterns, hz.patterns, List.append_assoc]; rfl⟩

theorem pb4Run_ends (s : State) : Ends .pb4Run s fun e =>
    let d := s.dev
    let due := (List.range 64).filter d.pbDue
    if d.get F.CAL_CFG_MODE ≠ 2 ∨ due = [] ∨ d.running = false ∨ d.nzm.patterns ≠ [] ∨ d.decides = false then e = d
    else
      e.nzm.patterns.map (fun p => (p.zone, p.heads, p.asm)) =
        ((List.range 16).filter fun z => d.zoneOk z && (d.zoneHeads z).any fun h => due.contains h).map (fun z => (z, due, [])) ∧
      Frame d e [R.CAL_STAT, R.CAL_PB4LAST] ∧ e.get F.CAL_STAT_STATE = 2 := by
  have hexec : exec .pb4Run s = execPb4Run s := rfl
  unfold execPb4Run at hexec
  refine ends_of_upd hexec ?_
  dsimp only
  generalize s.dev = d
  simp only [Bool.not_eq_true']
  split_ifs with hleave
  · rfl
  · have hnone : d.nzm.patterns = [] := by
      by_contra hne
      exact hleave (.inr (.inr (.inr (.inl hne))))
    have hstep := patternStep_each ((List.range 64).filter d.pbDue)
      ((List.range 16).filter fun z => d.zoneOk z && (d.zoneHeads z).any fun h => ((List.range 64).filter d.pbDue).contains h) d
    have hpat := hstep.patterns
    rw [hnone, List.map_nil, List.nil_append] at hpat
    exact ⟨hpat, hstep.frame.trans (frame_put _ F.CAL_STAT_STATE 2 _ List.mem_cons_self), get_put_same _ F.CAL_STAT_STATE 2 (by decide)⟩

/-! ### PB4_ANALYSIS (R229) -/

/-- Taking a set bit out of a number leaves its other bits. -/
theorem testBit_sub_two_pow {x i j : Nat} (hi : x.testBit i = true) (hj : j ≠ i) : (x - 2 ^ i).testBit j = x.testBit j := by
  have hlow : x % 2 ^ i < 2 ^ i := Nat.mod_lt _ (Nat.two_pow_pos i)
  have hodd : x / 2 ^ i % 2 = 1 := by simpa [Nat.testBit_eq_decide_div_mod_eq] using hi
  obtain ⟨q, hq⟩ : ∃ q, x / 2 ^ i = 2 * q + 1 := ⟨x / 2 ^ i / 2, by omega⟩
  have hx : x = 2 ^ i * (2 * q + 1) + x % 2 ^ i := by rw [← hq, Nat.div_add_mod]
  have hsub : x - 2 ^ i = 2 ^ i * (2 * q) + x % 2 ^ i := by
    rw [Nat.mul_add, Nat.mul_one] at hx
    omega
  rw [hsub, Nat.testBit_two_pow_mul_add _ hlow, hx, Nat.testBit_two_pow_mul_add _ (by simpa using hlow)]
  by_cases hlt : j < i
  · simp [hlt]
  · obtain ⟨k, hk⟩ : ∃ k, j - i = k + 1 := ⟨j - i - 1, by omega⟩
    have hhalf : (2 * q + 1) / 2 = q := by omega
    simp [hlt, hk, Nat.testBit_add_one, hhalf]

/-- A clear bit stays clear when a bit of its field is cleared. -/
theorem bit_clrBit_of_clear {d : Dev} {f : Fld} {j : Nat} (hf : f.lo + f.width ≤ 32) (h : d.bit f j = false) (i : Nat) :
    (d.clrBit f i).bit f j = false := by
  by_cases hj : j = i
  · exact hj ▸ bit_clrBit_same d f j hf
  · unfold Dev.clrBit
    split
    · next hset =>
      rw [Dev.bit, get_put_same _ _ _ hf, bitB, Nat.testBit_mod_two_pow, testBit_sub_two_pow hset hj,
        show (d.get f).testBit j = false from h, Bool.and_false]
    · exact h

/-- The request of a head for a calibration run is cleared. -/
def Dev.clrRequest (d : Dev) (h : Nat) : Dev := if h < 32 then d.clrBit F.CAL_PB4REQLO_HEADS h else d.clrBit F.CAL_PB4REQHI_HEADS (h - 32)

/-- No calibration run is requested for the head. -/
def NoRequest (h : Nat) (d : Dev) : Prop :=
  (h < 32 → d.bit F.CAL_PB4REQLO_HEADS h = false) ∧ (32 ≤ h → d.bit F.CAL_PB4REQHI_HEADS (h - 32) = false)

/-- A bit of a field whose register reads as before. -/
theorem bit_of_frame {d e : Dev} {as : List Nat} (h : Frame d e as) {f : Fld} (hf : f.addr ∉ as) (i : Nat) : e.bit f i = d.bit f i := by
  rw [Dev.bit, Dev.bit, h.get hf]

theorem noRequest_clrRequest (d : Dev) (h : Nat) : NoRequest h (d.clrRequest h) := by
  unfold Dev.clrRequest
  split
  · exact ⟨fun _ => bit_clrBit_same d _ _ (by decide), fun _ => by omega⟩
  · exact ⟨fun _ => by omega, fun _ => bit_clrBit_same d _ _ (by decide)⟩

theorem NoRequest.clrRequest {d : Dev} {h : Nat} (hn : NoRequest h d) (k : Nat) : NoRequest h (d.clrRequest k) := by
  obtain ⟨hlo, hhi⟩ := hn
  unfold Dev.clrRequest
  split
  · exact ⟨fun hh => bit_clrBit_of_clear (by decide) (hlo hh) k,
      fun hh => (bit_of_frame (frame_clrBit d F.CAL_PB4REQLO_HEADS k [R.CAL_PB4REQLO] (by decide)) (by decide) _).trans (hhi hh)⟩
  · exact ⟨fun hh => (bit_of_frame (frame_clrBit d F.CAL_PB4REQHI_HEADS (k - 32) [R.CAL_PB4REQHI] (by decide)) (by decide) _).trans (hlo hh),
      fun hh => bit_clrBit_of_clear (by decide) (hhi hh) _⟩

/-- After the requests of the heads `hs` have been cleared none of them stands. -/
theorem noRequest_each (d : Dev) (hs : List Nat) : ∀ h ∈ hs, NoRequest h (d.each hs Dev.clrRequest) :=
  each_sets (Q := fun _ => True) trivial (fun _ _ _ => trivial) (fun d h _ => noRequest_clrRequest d h) fun _ k _ hn _ => hn.clrRequest k

theorem onlyRegs_clrRequest (d : Dev) (h : Nat) : OnlyRegs d (d.clrRequest h) := by
  unfold Dev.clrRequest
  split
  · exact clrBit_eq _ _ _
  · exact clrBit_eq _ _ _

/-- The verdicts of an analysis on the nozzles that `mine` names: those in `bad` are declared out, the other probed ones pass. -/
def Dev.verdicts (d : Dev) (mine : Nat → Bool) (bad : List Nat) : Dev :=
  let d1 := d.each (bad.filter mine) fun d n => d.takeChange n 0
  d1.each ((d1.nzm.states.filter fun x => x.2 == 2 && mine x.1 && !(bad.contains x.1)).map (·.1)) fun d n => d.takeChange n 4

theorem verdicts_eq {d : Dev} (h : d.decides = true) (mine : Nat → Bool) (bad : List Nat) :
    ∃ t o, d.verdicts mine bad = d.queued t o ((bad.filter mine).map (fun n => (n, 0)) ++
      (d.nzm.states.filter fun x => x.2 == 2 && mine x.1 && !(bad.contains x.1)).map fun x => (x.1, 4)) := by
  obtain ⟨t, o, hbad⟩ := each_takeChange 0 (bad.filter mine) h
  obtain ⟨t', o', hpass⟩ := each_takeChange (d := d.queued t o ((bad.filter mine).map fun n => (n, 0))) 4
    ((d.nzm.states.filter fun x => x.2 == 2 && mine x.1 && !(bad.contains x.1)).map (·.1)) h
  rw [queued_queued, List.map_map] at hpass
  refine ⟨t', o', ?_⟩
  unfold Dev.verdicts
  rw [hbad]
  exact hpass

/-- What an analysis corrects: the ratio of each nozzle of a due head, with GAIN 256/256 (R228). -/
def Dev.ratiosTaken (d : Dev) (rs : List (Nat × Nat)) : Dev :=
  d.each rs fun d x =>
    match d.nozHead x.1 with
    | some (h, i) => d.correct h i (rakeDelta 256 (d.get F.CAL_CFG_DEADBAND) x.2)
    | none => d

theorem onlyCorr_ratiosTaken (d : Dev) (rs : List (Nat × Nat)) : OnlyCorr d (d.ratiosTaken rs) :=
  (OnlyCorr.refl d).each fun d x => by
    split
    · exact onlyCorr_correct d _ _ _
    · exact .refl d

/-- The end of an analysis: TREF takes the temperatures at binding, the requests are cleared, and the patterns are gone. -/
def Dev.analysed (d : Dev) (ts : List (Nat × Nat)) (hs : List Nat) : Dev :=
  ((((d.each ts fun d x => d.put (F.CAL_HEAD_TREF_TEMP x.1) x.2).each hs Dev.clrRequest).onNzm fun t => { t with patterns := [] }).put
    F.CAL_STAT_STATE 0).put F.CAL_IRQ_STAT_PB4DONE 1

theorem analysed_spec (d : Dev) (ts : List (Nat × Nat)) (hs : List Nat) :
    let e := d.analysed ts hs
    e = { d with regs := e.regs, nzm := { d.nzm with patterns := [] } } ∧ e.get F.CAL_STAT_STATE = 0 ∧ e.get F.CAL_IRQ_STAT_PB4DONE = 1 ∧
      ∀ h ∈ hs, NoRequest h e := by
  have hregs : OnlyRegs d ((d.each ts fun d x => d.put (F.CAL_HEAD_TREF_TEMP x.1) x.2).each hs Dev.clrRequest) :=
    ((OnlyRegs.refl d).each fun d x => OnlyRegs.put (.refl d) _ _).each onlyRegs_clrRequest
  have hclear := noRequest_each (d.each ts fun d x => d.put (F.CAL_HEAD_TREF_TEMP x.1) x.2) hs
  unfold Dev.analysed
  generalize (d.each ts fun d x => d.put (F.CAL_HEAD_TREF_TEMP x.1) x.2).each hs Dev.clrRequest = q at *
  have hframe : Frame q (((q.onNzm fun t => { t with patterns := [] }).put F.CAL_STAT_STATE 0).put F.CAL_IRQ_STAT_PB4DONE 1)
      [R.CAL_STAT, R.CAL_IRQ_STAT] :=
    have h := (frame_put (q.onNzm fun t => { t with patterns := [] }) F.CAL_STAT_STATE 0 [R.CAL_STAT, R.CAL_IRQ_STAT] (by decide)).trans
      (frame_put _ F.CAL_IRQ_STAT_PB4DONE 1 _ (by decide))
    ⟨h.regs, h.mem⟩
  refine ⟨?_, (get_put_ne _ _ _ _ (by decide)).trans (get_put_same _ F.CAL_STAT_STATE 0 (by decide)),
    get_put_same _ F.CAL_IRQ_STAT_PB4DONE 1 (by decide), fun h hh => ?_⟩
  · unfold OnlyRegs at hregs
    rw [hregs]
    rfl
  · obtain ⟨hlo, hhi⟩ := hclear h hh
    exact ⟨fun hlt => (bit_of_frame hframe (by decide) h).trans (hlo hlt), fun hle => (bit_of_frame hframe (by decide) _).trans (hhi hle)⟩

/-- What an analysis of the heads `hs` leaves on the chip that decides: no pattern, the rake at rest, a declaration for each nozzle in
`bad` that `mine` names, a pass for the other probed ones, and no request of these heads. -/
abbrev AnalysisEnd (d e : Dev) (mine : Nat → Bool) (bad hs : List Nat) : Prop :=
  e.nzm.patterns = [] ∧ e.get F.CAL_STAT_STATE = 0 ∧ e.get F.CAL_IRQ_STAT_PB4DONE = 1 ∧ (∀ a, e.ldB a = d.ldB a) ∧
    e.nzm.states = d.nzm.states ∧
    e.nzm.changes = d.nzm.changes ++ (bad.filter mine).map (fun n => (n, 0)) ++
      (d.nzm.states.filter fun x => x.2 == 2 && mine x.1 && !(bad.contains x.1)).map (fun x => (x.1, 4)) ∧
    (∀ h ∈ hs, h < 32 → e.bit F.CAL_PB4REQLO_HEADS h = false) ∧
    (∀ h ∈ hs, 32 ≤ h → h < 64 → e.bit F.CAL_PB4REQHI_HEADS (h - 32) = false)

theorem analysisEnd_of_decides {d : Dev} (hdec : d.decides = true) (mine : Nat → Bool) (bad : List Nat) (rs ts : List (Nat × Nat))
    (hs : List Nat) : AnalysisEnd d (((d.verdicts mine bad).ratiosTaken rs).analysed ts hs) mine bad hs := by
  obtain ⟨t, o, hverdicts⟩ := verdicts_eq hdec mine bad
  have hcorr := onlyCorr_ratiosTaken (d.verdicts mine bad) rs
  obtain ⟨hend, hstate, hdone, hreq⟩ := analysed_spec ((d.verdicts mine bad).ratiosTaken rs) ts hs
  rw [hverdicts] at hcorr hend hstate hdone hreq ⊢
  generalize (d.queued t o _).ratiosTaken rs = q at *
  generalize q.analysed ts hs = e at *
  have hmem : e.mem = d.mem := (congrArg Dev.mem hend :).trans (congrArg Dev.mem hcorr :)
  have hpat : e.nzm.patterns = [] := (congrArg (fun d => d.nzm.patterns) hend :)
  have hstates : e.nzm.states = d.nzm.states :=
    (congrArg (fun d => d.nzm.states) hend :).trans (congrArg (fun d => d.nzm.states) hcorr :)
  have hchanges : e.nzm.changes = d.nzm.changes ++ _ :=
    (congrArg (fun d => d.nzm.changes) hend :).trans (congrArg (fun d => d.nzm.changes) hcorr :)
  rw [← List.append_assoc] at hchanges
  exact ⟨hpat, hstate, hdone, fun a => congrArg (spGet memDefault · a) hmem, hstates, hchanges, fun h hh => (hreq h hh).1,
    fun h hh hle _ => (hreq h hh).2 hle⟩

theorem pb4Analysis_ends (s : State) (bad : List Nat) (rs : List (Nat × Nat)) : Ends (.pb4Analysis bad rs) s fun e =>
    let d := s.dev
    let hs := ((d.nzm.patterns.map fun p => p.heads).flatten).eraseDups
    let mine (n : Nat) : Bool := (d.nozHead n).any fun x => hs.contains x.1
    if d.nzm.patterns = [] ∨ d.decides = false then e = d else AnalysisEnd d e mine bad hs := by
  have hexec : exec (.pb4Analysis bad rs) s = execPb4Analysis bad rs s := rfl
  unfold execPb4Analysis at hexec
  refine ends_of_upd hexec ?_
  dsimp only
  generalize s.dev = d
  simp only [Bool.not_eq_true']
  by_cases hleave : d.nzm.patterns = [] ∨ d.decides = false
  · rw [if_pos hleave, if_pos hleave]
  · rw [if_neg hleave, if_neg hleave]
    obtain ⟨-, hdec⟩ : d.nzm.patterns ≠ [] ∧ d.decides = true := by simpa using hleave
    exact analysisEnd_of_decides hdec _ bad _ _ _

/-! ### PB4_ANALYSIS_TIMEOUT (R229) -/

theorem pb4AnalysisTimeout_ends (s : State) : Ends .pb4AnalysisTimeout s fun e =>
    let d := s.dev
    if d.nzm.patterns = [] then e = d
    else
      Frame d e [R.CAL_STAT, R.CAL_IRQ_STAT] ∧ e.get F.CAL_STAT_STATE = 0 ∧ e.get F.CAL_IRQ_STAT_PB4FAIL = 1 ∧ Reports d e [86] ∧
      e = { d with regs := e.regs, nzm := { d.nzm with patterns := [] }, reps := e.reps, freeCtr := e.freeCtr } := by
  have hexec : exec .pb4AnalysisTimeout s = execPb4AnalysisTimeout s := rfl
  unfold execPb4AnalysisTimeout at hexec
  refine ends_of_upd hexec ?_
  dsimp only
  split_ifs
  · rfl
  · have hframe := (frame_put (s.dev.onNzm fun t => { t with patterns := [] }) F.CAL_STAT_STATE 0 [R.CAL_STAT, R.CAL_IRQ_STAT] (by decide)).trans
      (frame_put _ F.CAL_IRQ_STAT_PB4FAIL 1 _ (by decide))
    have hreps : Reports s.dev (((s.dev.onNzm fun t => { t with patterns := [] }).put F.CAL_STAT_STATE 0).put F.CAL_IRQ_STAT_PB4FAIL 1) [] :=
      reports_nil rfl
    refine ⟨.trans ⟨hframe.regs, hframe.mem⟩ (frame_report _ _ _ _), ?_, ?_, hreps.report 86, rfl⟩
    · rw [report_get, get_put_ne _ _ _ _ (by decide), get_put_same _ _ _ (by decide)]
      rfl
    · rw [report_get, get_put_same _ _ _ (by decide)]
      rfl

end Sys2Proof.Machine
end

section
/-! A sweep of the rake (R225 to R227, R230): the next bank of a head group, head by head, with the trims of the bank in force moved
toward their targets. -/

namespace Sys2Proof.Machine

/-! ### What a sweep leaves -/

/-- What a target is made of stands, but for the temperatures: the geometry, the sets in memory, the corrections, and the bank in force. -/
structure RakeKept (d e : Dev) : Prop where
  regs : ∀ a < R.NZM_CFG, e.rd a = d.rd a
  mem : e.mem = d.mem
  nzm : e.nzm = { d.nzm with next := e.nzm.next, temps := e.nzm.temps, satAt := e.nzm.satAt, heldHeads := e.nzm.heldHeads }

namespace RakeKept

variable {d e f : Dev}

theorem refl (d : Dev) : RakeKept d d := ⟨fun _ _ => rfl, rfl, rfl⟩

theorem trans (h : RakeKept d e) (k : RakeKept e f) : RakeKept d f :=
  ⟨fun a ha => (k.regs a ha).trans (h.regs a ha), k.mem.trans h.mem, by rw [k.nzm, h.nzm]⟩

theorem active (h : RakeKept d e) : e.nzm.active = d.nzm.active := (congrArg NzmSt.active h.nzm :)

theorem states (h : RakeKept d e) : e.nzm.states = d.nzm.states := (congrArg NzmSt.states h.nzm :)

theorem trimA (h : RakeKept d e) (n : Nat) : e.trimA n = d.trimA n := congrArg (spGet 0 · n) h.active

theorem corr (h : RakeKept d e) (n : Nat) : e.corr n = d.corr n := congrArg (spGet 0 · n) (congrArg NzmSt.corr h.nzm :)

theorem get (h : RakeKept d e) {g : Fld} (hg : g.addr < R.NZM_CFG) : e.get g = d.get g := get_of_rd (h.regs _ hg)

theorem put (h : RakeKept d e) {g : Fld} (hg : R.NZM_CFG ≤ g.addr) (v : Nat) : RakeKept d (e.put g v) :=
  ⟨fun a ha => (rd_put_ne _ _ _ _ (by omega)).trans (h.regs a ha), h.mem, h.nzm⟩

theorem report (h : RakeKept d e) (n : Nat) (x : Option Nat) : RakeKept d (e.report n x) :=
  ⟨fun a ha => (report_rd e n x a).trans (h.regs a ha), (report_mem e n x).trans h.mem, (report_nzm e n x).symm ▸ h.nzm⟩

/-! The geometry of a head -/

section
variable (k : RakeKept d e) {h : Nat} (hh : h < 64)
include k hh

theorem headOk : e.headOk h = d.headOk h := by
  rw [Dev.headOk, Dev.headOk, k.get (by simp only [F.RAS_HEAD_CFG_VALID, R.RAS_HEAD_CFG, R.NZM_CFG]; omega)]

theorem headN : e.headN h = d.headN h := by
  rw [Dev.headN, Dev.headN, k.get (by simp only [F.RAS_HEAD_CFG_NOZCOUNTM1, R.RAS_HEAD_CFG, R.NZM_CFG]; omega)]

theorem headNozzles : e.headNozzles h = d.headNozzles h := by rw [Dev.headNozzles, Dev.headNozzles, k.headN hh]

theorem devNoz (i : Nat) : e.devNoz h i = d.devNoz h i := by
  rw [Dev.devNoz, Dev.devNoz, Dev.headNoz, Dev.headNoz, k.get (by simp only [F.RAS_HEAD_NOZ_NOZFIRST, R.RAS_HEAD_NOZ, R.NZM_CFG]; omega)]

/-- Where the temperatures stand too, so do the targets. -/
theorem target (ht : e.nzm.temps = d.nzm.temps) (i : Nat) : e.target h i = d.target h i := by
  have hld (a n : Nat) : e.ld a n = d.ld a n := by
    unfold Dev.ld Dev.ldBs Dev.ldB
    rw [k.mem]
  have htemp (a j : Nat) : e.setTemp a j = d.setTemp a j := by rw [Dev.setTemp, Dev.setTemp, hld]
  have hbase : e.nzm.setsBase = d.nzm.setsBase := (congrArg NzmSt.setsBase k.nzm :)
  have hsets : e.nzm.sets = d.nzm.sets := (congrArg NzmSt.sets k.nzm :)
  have htrim (a j : Nat) : e.setTrim h a j i = d.setTrim h a j i := by rw [Dev.setTrim, Dev.setTrim, hld, hld, hbase, k.headN hh]
  have hk (t : Int) : e.ktemp h i t = d.ktemp h i t := by
    simp only [Dev.ktemp, Dev.setEntry, hsets, htemp, htrim, hld]
  rw [Dev.target, Dev.target, Dev.rawTarget, Dev.rawTarget, k.corr, k.devNoz hh, hk, Dev.rakeTemp, Dev.rakeTemp, ht]

end

/-- The heads of the group are those that were in it. -/
theorem hgHeads (k : RakeKept d e) {n : Nat} (hn : n < 8) : e.hgHeads n = d.hgHeads n := by
  refine List.filter_congr fun h hmem => k.headOk ?_
  obtain ⟨j, hj, rfl⟩ := List.mem_map.mp hmem
  have hlt := List.mem_range.mp hj
  omega

end RakeKept

theorem lt_of_mem_hgHeads {d : Dev} {n h : Nat} (hn : n < 8) (hmem : h ∈ d.hgHeads n) : h < 64 := by
  obtain ⟨j, hj, rfl⟩ := List.mem_map.mp (List.mem_filter.mp hmem).1
  have hlt := List.mem_range.mp hj
  omega

/-- What the sweep of a head leaves as well: the heads that are held, and of the reports that wait those of source 85 alone are new. -/
structure HeadsKept (d e : Dev) : Prop extends RakeKept d e where
  held : e.nzm.heldHeads = d.nzm.heldHeads
  reps : ∃ l, e.reps = d.reps ++ l ∧ ∀ r ∈ l, r.src = 85

namespace HeadsKept

variable {d e f : Dev}

theorem refl (d : Dev) : HeadsKept d d := ⟨.refl d, rfl, [], (List.append_nil _).symm, by simp⟩

theorem trans (h : HeadsKept d e) (k : HeadsKept e f) : HeadsKept d f := by
  obtain ⟨l, hl, hsrc⟩ := h.reps
  obtain ⟨l', hl', hsrc'⟩ := k.reps
  refine ⟨h.toRakeKept.trans k.toRakeKept, k.held.trans h.held, l ++ l', by rw [hl', hl, List.append_assoc], fun r hr => ?_⟩
  exact (List.mem_append.mp hr).elim (hsrc r) (hsrc' r)

theorem each {α : Type} (h : HeadsKept d e) {l : List α} {g : Dev → α → Dev} (hg : ∀ d x, HeadsKept d (g d x)) :
    HeadsKept d (e.each l g) := by
  induction l generalizing e with
  | nil => exact h
  | cons x l ih => exact ih (h.trans (hg e x))

theorem put (h : HeadsKept d e) {g : Fld} (hg : R.NZM_CFG ≤ g.addr) (v : Nat) : HeadsKept d (e.put g v) :=
  ⟨h.toRakeKept.put hg v, h.held, h.reps⟩

end HeadsKept

/-! ### The next bank -/

/-- A trim is put into the next bank. -/
def Dev.putNext (d : Dev) (n : Nat) (v : Int) : Dev := d.onNzm fun t => { t with next := spPut 0 t.next n v }

/-- Nothing but the next bank may have changed. -/
def OnlyNext (d e : Dev) : Prop := e = { d with nzm := { d.nzm with next := e.nzm.next } }

theorem OnlyNext.headsKept {d e : Dev} (h : OnlyNext d e) : HeadsKept d e := by
  unfold OnlyNext at h
  rw [h]
  exact ⟨⟨fun _ _ => rfl, rfl, rfl⟩, rfl, [], (List.append_nil _).symm, by simp⟩

theorem OnlyNext.putNext {d e : Dev} (h : OnlyNext d e) (n : Nat) (v : Int) : OnlyNext d (e.putNext n v) := by
  unfold OnlyNext at *
  rw [h]
  rfl

/-- The trims `v` of the head's nozzles `l` are put into the next bank. -/
def Dev.fillNext (d : Dev) (h : Nat) (v : Dev → Nat → Int) (l : List Nat) : Dev := d.each l fun d i => d.putNext (d.devNoz h i) (v d i)

section
variable {d : Dev} {h : Nat} {v : Dev → Nat → Int} {l : List Nat}

theorem onlyNext_fillNext (d : Dev) (h : Nat) (v : Dev → Nat → Int) (l : List Nat) : OnlyNext d (d.fillNext h v l) := by
  have hloop (e : Dev) (he : OnlyNext d e) : OnlyNext d (e.fillNext h v l) := by
    induction l generalizing e with
    | nil => exact he
    | cons i l ih => exact ih _ (he.putNext _ _)
  exact hloop d rfl

theorem OnlyNext.devNoz {d e : Dev} (h : OnlyNext d e) (k i : Nat) : e.devNoz k i = d.devNoz k i := (congrArg (fun d => d.devNoz k i) h :)

/-- Where `v` looks at nothing of the next bank, each nozzle has its trim. -/
theorem trimN_fillNext (hv : ∀ e, OnlyNext d e → ∀ i, v e i = v d i) : ∀ i ∈ l, (d.fillNext h v l).trimN (d.devNoz h i) = v d i := by
  refine each_sets (Q := OnlyNext d) (P := fun i e => e.trimN (d.devNoz h i) = v d i) rfl (fun e i he => he.putNext _ _) (fun e i he => ?_)
    fun e i j hj he => ?_
  · rw [he.devNoz, hv e he]
    exact spGet_spPut_same 0 e.nzm.next _ _
  · by_cases hij : j = i
    · rw [hij, he.devNoz, hv e he]
      exact spGet_spPut_same 0 e.nzm.next _ _
    · rw [← hj]
      exact spGet_spPut_ne 0 0 e.nzm.next _ _ _ (by rw [he.devNoz, Dev.devNoz, Dev.devNoz]; omega)

/-- The next trim of nozzle `n` lies within `step` of the trim in force. -/
def Near (step n : Nat) (d : Dev) : Prop := (d.trimN n - d.trimA n).natAbs ≤ step

theorem Near.putNext {step m n : Nat} {x : Int} (hm : Near step m d) (hx : (x - d.trimA n).natAbs ≤ step) : Near step m (d.putNext n x) := by
  unfold Near
  by_cases hmn : m = n
  · rw [hmn, show (d.putNext n x).trimN n = x from spGet_spPut_same 0 d.nzm.next n x]
    exact hx
  · rw [show (d.putNext n x).trimN m = d.trimN m from spGet_spPut_ne 0 0 d.nzm.next n m x hmn]
    exact hm

theorem Near.fillNext {step m : Nat} (hm : Near step m d) (hv : ∀ e i, (v e i - e.trimA (e.devNoz h i)).natAbs ≤ step) :
    Near step m (d.fillNext h v l) := by
  induction l generalizing d with
  | nil => exact hm
  | cons i l ih => exact ih (hm.putNext (hv d i))

end

/-! ### The sweep of a head (R225 to R227) -/

/-- The trim in force moved toward the target by at most `step`. -/
def Dev.swept (d : Dev) (step : Int) (h i : Nat) : Int :=
  d.trimA (d.devNoz h i) + clampI (-step) step (d.target h i - d.trimA (d.devNoz h i))

theorem clampI_near (step : Nat) (x : Int) : (clampI (-step) step x).natAbs ≤ step := by
  unfold clampI
  omega

theorem swept_near (d : Dev) (step h i : Nat) : (d.swept step h i - d.trimA (d.devNoz h i)).natAbs ≤ step := by
  rw [Dev.swept, add_sub_cancel_left]
  exact clampI_near _ _

/-- The trims of a head that is held stand. -/
def Dev.heldBank (d : Dev) (h : Nat) : Dev := d.fillNext h (fun d i => d.trimA (d.devNoz h i)) (d.headNozzles h)

/-- The rake takes the head's temperature, where it is fresh, and shows the one it uses (R225). -/
def Dev.tempTaken (d : Dev) (h : Nat) : Dev :=
  let tNow := sx 16 (d.get (F.HLK_HEAD_TEMP_TEMP h))
  let da := if d.hasTemp h && d.tempAge h < 100 then d.onNzm fun t => { t with temps := spPut 400 t.temps h tNow } else d
  da.when (da.get F.CAL_CFG_MODE != 2) fun d => d.put (F.CAL_HEAD_TREF_TEMP h) (ux 16 (d.rakeTemp h))

/-- The trims of a head that is not held are swept. -/
def Dev.sweptBank (d : Dev) (step : Int) (h : Nat) : Dev := d.fillNext h (fun d i => d.swept step h i) (d.headNozzles h)

/-- The sweep of one head. -/
def Dev.rakeHead (step : Int) (d : Dev) (h : Nat) : Dev :=
  if d.nzm.heldHeads.contains h then d.heldBank h else ((d.tempTaken h).sweptBank step h).satCheck h

theorem headsKept_tempTaken (d : Dev) (h : Nat) : HeadsKept d (d.tempTaken h) ∧ (d.tempTaken h).nzm.next = d.nzm.next := by
  have htref (e : Dev) (b : Bool) : HeadsKept e (e.when b fun d => d.put (F.CAL_HEAD_TREF_TEMP h) (ux 16 (d.rakeTemp h))) ∧
      (e.when b fun d => d.put (F.CAL_HEAD_TREF_TEMP h) (ux 16 (d.rakeTemp h))).nzm.next = e.nzm.next := by
    cases b
    · exact ⟨.refl e, rfl⟩
    · exact ⟨(HeadsKept.refl e).put (by simp only [F.CAL_HEAD_TREF_TEMP, R.CAL_HEAD_TREF, R.NZM_CFG]; omega) _, rfl⟩
  unfold Dev.tempTaken
  extract_lets tNow da
  have hda : HeadsKept d da ∧ da.nzm.next = d.nzm.next := by
    unfold da
    split
    · exact ⟨⟨⟨fun _ _ => rfl, rfl, rfl⟩, rfl, [], (List.append_nil _).symm, by simp⟩, rfl⟩
    · exact ⟨.refl d, rfl⟩
  obtain ⟨hkept, hnext⟩ := htref da (da.get F.CAL_CFG_MODE != 2)
  exact ⟨hda.1.trans hkept, hnext.trans hda.2⟩

/-- The check for saturation reports source 85 or nothing. -/
theorem headsKept_satCheck (d : Dev) (h : Nat) :
    HeadsKept d (d.satCheck h) ∧ (d.satCheck h).nzm.next = d.nzm.next ∧ (d.satCheck h).nzm.temps = d.nzm.temps := by
  unfold Dev.satCheck
  extract_lets sat recent
  cases sat && !recent
  · exact ⟨.refl d, rfl, rfl⟩
  · have hmark : HeadsKept d (d.onNzm fun t => { t with satAt := (t.satAt.filter fun x => x.1 != h) ++ [(h, d.c)] }) :=
      ⟨⟨fun _ _ => rfl, rfl, rfl⟩, rfl, [], (List.append_nil _).symm, by simp⟩
    have hshown := hmark.put (g := F.CAL_IRQ_STAT_SAT) (by decide) 1
    exact ⟨⟨hshown.toRakeKept.report 85 none, rfl, _, rfl, by simp⟩, rfl, rfl⟩

section
variable (d : Dev) (step h : Nat)

theorem headsKept_rakeHead : HeadsKept d (Dev.rakeHead step d h) := by
  unfold Dev.rakeHead
  split
  · exact (onlyNext_fillNext d h _ _).headsKept
  · exact ((headsKept_tempTaken d h).1.trans (onlyNext_fillNext _ h _ _).headsKept).trans (headsKept_satCheck _ h).1

/-- The sweep of a head keeps every next trim within STEP that was. -/
theorem near_rakeHead {m : Nat} (hm : Near step m d) : Near step m (Dev.rakeHead step d h) := by
  unfold Dev.rakeHead
  split
  · exact hm.fillNext fun e i => by simp
  · obtain ⟨htemp, hnext⟩ := headsKept_tempTaken d h
    obtain ⟨hsat, hnext', -⟩ := headsKept_satCheck ((d.tempTaken h).sweptBank step h) h
    have hm' : Near step m (d.tempTaken h) := by
      rw [Near, Dev.trimN, hnext, htemp.trimA]
      exact hm
    have hfill := hm'.fillNext (l := (d.tempTaken h).headNozzles h) (h := h) (v := fun d i => d.swept step h i) fun e i => swept_near e step h i
    rw [Near, Dev.trimN, hnext', hsat.trimA]
    exact hfill

/-- A held head's next trims are those in force. -/
theorem trimN_rakeHead_held (hheld : d.nzm.heldHeads.contains h = true) {i : Nat} (hi : i ∈ d.headNozzles h) :
    (Dev.rakeHead step d h).trimN (d.devNoz h i) = d.trimA (d.devNoz h i) := by
  rw [Dev.rakeHead, if_pos hheld]
  exact trimN_fillNext (fun e he i => (congrArg (fun d => d.trimA (d.devNoz h i)) he :)) i hi

/-- Another head's next trims are those in force moved toward the targets. -/
theorem trimN_rakeHead_swept (hheld : d.nzm.heldHeads.contains h = false) (hh : h < 64) {i : Nat} (hi : i ∈ d.headNozzles h) :
    (Dev.rakeHead step d h).trimN (d.devNoz h i) = d.trimA (d.devNoz h i) +
      clampI (-step) step ((Dev.rakeHead step d h).target h i - d.trimA (d.devNoz h i)) := by
  rw [Dev.rakeHead, hheld, if_neg Bool.false_ne_true]
  obtain ⟨htemp, -⟩ := headsKept_tempTaken d h
  obtain ⟨hsat, hnext, htemps⟩ := headsKept_satCheck ((d.tempTaken h).sweptBank step h) h
  have honly : OnlyNext (d.tempTaken h) ((d.tempTaken h).sweptBank step h) := onlyNext_fillNext _ _ _ _
  have hfill : ((d.tempTaken h).sweptBank step h).trimN ((d.tempTaken h).devNoz h i) = (d.tempTaken h).swept step h i :=
    trimN_fillNext (fun e he i => (congrArg (fun d => d.swept step h i) he :)) i (htemp.headNozzles hh ▸ hi)
  have htarget : (((d.tempTaken h).sweptBank step h).satCheck h).target h i = (d.tempTaken h).target h i :=
    (honly.headsKept.trans hsat).target hh (htemps.trans (congrArg (fun d => d.nzm.temps) honly :)) i
  rw [Dev.swept, htemp.devNoz hh, htemp.trimA] at hfill
  rw [Dev.trimN, hnext, htarget]
  exact hfill

theorem near_rakeHead_own (hh : h < 64) {i : Nat} (hi : i ∈ d.headNozzles h) : Near step (d.devNoz h i) (Dev.rakeHead step d h) := by
  unfold Near
  rw [(headsKept_rakeHead d step h).trimA]
  cases hheld : d.nzm.heldHeads.contains h with
  | true =>
    rw [trimN_rakeHead_held d step h hheld hi]
    simp
  | false =>
    rw [trimN_rakeHead_swept d step h hheld hh hi, add_sub_cancel_left]
    exact clampI_near _ _

end

/-- After the sweep of a list of heads every next trim of theirs lies within STEP of the trim in force. -/
theorem near_rakeHeads (d : Dev) (step : Nat) (l : List Nat) :
    ∀ h ∈ l, h < 64 → ∀ i ∈ d.headNozzles h, Near step (d.devNoz h i) (d.each l (Dev.rakeHead step)) :=
  each_sets (Q := HeadsKept d) (P := fun h e => h < 64 → ∀ i ∈ d.headNozzles h, Near step (d.devNoz h i) e) (.refl d)
    (fun e h he => he.trans (headsKept_rakeHead e step h))
    (fun e h he hh i hi => he.devNoz hh i ▸ near_rakeHead_own e step h hh (he.headNozzles hh ▸ hi))
    fun e h _ hk _ hh i hi => near_rakeHead e step h (hk hh i hi)

/-! ### RAKE_SWEEP (R225, R227, R230) -/

/-- The start of a sweep: the head whose reads met an error that could not be corrected is held, and source 87 reported (R230). -/
def Dev.rakeStart (d : Dev) (hg : Fin 8) (ecc : Option (Fin 8)) : Dev :=
  let d1 := d.put F.CAL_STAT_STATE 1
  match ecc with
  | some j =>
    ((d1.onNzm fun t => { t with heldHeads := (8 * hg.val + j.val) :: t.heldHeads }).put F.CAL_IRQ_STAT_ECC 1).report 87 (8 * hg.val + j.val)
  | none => d1

/-- The end of a sweep: the bank is ready, and what CAL_STAT shows. -/
def Dev.rakeEnd (d : Dev) (hg : Fin 8) : Dev :=
  ((d.put (F.NZM_HG_FLAGS_READY hg) 1).put F.CAL_STAT_STATE (if d.nzm.heldHeads = [] then 0 else 4)).syncSettling

/-- The sweep of the heads of a group. -/
def Dev.rakeHeads (d : Dev) (hg : Fin 8) (ecc : Option (Fin 8)) : Dev :=
  (d.rakeStart hg ecc).each ((d.rakeStart hg ecc).hgHeads hg) (Dev.rakeHead (d.get F.CAL_CFG_STEP : Nat))

theorem exec_rakeSweep (s : State) (hg : Fin 8) (ecc : Option (Fin 8)) :
    exec (.rakeSweep hg ecc) s = s.upd fun d => (d.rakeHeads hg ecc).rakeEnd hg := rfl

theorem rakeKept_rakeStart (d : Dev) (hg : Fin 8) (ecc : Option (Fin 8)) : RakeKept d (d.rakeStart hg ecc) := by
  have hput : RakeKept d (d.put F.CAL_STAT_STATE 1) := (RakeKept.refl d).put (by decide) 1
  unfold Dev.rakeStart
  cases ecc with
  | none => exact hput
  | some j =>
    have hheld : RakeKept d ((d.put F.CAL_STAT_STATE 1).onNzm fun t => { t with heldHeads := (8 * hg.val + j.val) :: t.heldHeads }) :=
      ⟨hput.regs, rfl, rfl⟩
    exact (hheld.put (g := F.CAL_IRQ_STAT_ECC) (by decide) 1).report _ _

theorem rakeEnd_spec (d : Dev) (hg : Fin 8) :
    OnlyRegs d (d.rakeEnd hg) ∧ RakeKept d (d.rakeEnd hg) ∧ (d.rakeEnd hg).get (F.NZM_HG_FLAGS_READY hg) = 1 := by
  have haddr : R.CAL_STAT ≠ (F.NZM_HG_FLAGS_READY hg).addr := by
    simp only [F.NZM_HG_FLAGS_READY, R.NZM_HG_FLAGS, R.CAL_STAT]
    omega
  have hready : R.NZM_CFG ≤ (F.NZM_HG_FLAGS_READY hg).addr := by
    simp only [F.NZM_HG_FLAGS_READY, R.NZM_HG_FLAGS, R.NZM_CFG]
    omega
  refine ⟨rfl, (((RakeKept.refl d).put hready 1).put (by decide) _).put (g := F.CAL_STAT_SETTLING) (by decide) _, ?_⟩
  rw [Dev.rakeEnd, Dev.syncSettling, get_put_ne _ _ _ _ haddr.symm, get_put_ne _ _ _ _ haddr.symm]
  exact get_put_same _ (F.NZM_HG_FLAGS_READY hg) 1 (by simp [F.NZM_HG_FLAGS_READY])

section
variable (d : Dev) (hg : Fin 8) (ecc : Option (Fin 8))

theorem headsKept_rakeHeads : HeadsKept (d.rakeStart hg ecc) (d.rakeHeads hg ecc) :=
  (HeadsKept.refl _).each fun d h => headsKept_rakeHead d _ h

theorem rakeKept_rakeHeads : RakeKept d (d.rakeHeads hg ecc) := (rakeKept_rakeStart d hg ecc).trans (headsKept_rakeHeads d hg ecc).toRakeKept

/-- After the sweep of a group every next trim of its heads lies within STEP of the trim in force. -/
theorem near_rakeHeads_group {h : Nat} (hmem : h ∈ d.hgHeads hg) {i : Nat} (hi : i ∈ d.headNozzles h) :
    Near (d.get F.CAL_CFG_STEP) (d.devNoz h i) (d.rakeHeads hg ecc) := by
  have hstart := rakeKept_rakeStart d hg ecc
  have hh := lt_of_mem_hgHeads hg.isLt hmem
  exact hstart.devNoz hh i ▸ near_rakeHeads _ _ _ h (hstart.hgHeads hg.isLt ▸ hmem) hh i (hstart.headNozzles hh ▸ hi)

/-- A group of one head is swept as that head is. -/
theorem rakeHeads_single {h : Nat} (hone : d.hgHeads hg = [h]) :
    d.rakeHeads hg ecc = Dev.rakeHead (d.get F.CAL_CFG_STEP : Nat) (d.rakeStart hg ecc) h := by
  rw [Dev.rakeHeads, (rakeKept_rakeStart d hg ecc).hgHeads hg.isLt, hone]
  rfl

/-- The next trims of a group's only head: those in force where it is held, else those swept. -/
theorem trimN_rakeHeads_single {h : Nat} (hone : d.hgHeads hg = [h]) {i : Nat} (hi : i ∈ d.headNozzles h) :
    (d.rakeHeads hg ecc).trimN (d.devNoz h i) =
      if (d.rakeHeads hg ecc).nzm.heldHeads.contains h then d.trimA (d.devNoz h i)
      else d.trimA (d.devNoz h i) + clampI (-(d.get F.CAL_CFG_STEP : Nat)) (d.get F.CAL_CFG_STEP : Nat)
        ((d.rakeHeads hg ecc).target h i - d.trimA (d.devNoz h i)) := by
  have hstart := rakeKept_rakeStart d hg ecc
  have hh : h < 64 := lt_of_mem_hgHeads hg.isLt (hone ▸ List.mem_singleton_self h)
  have hi' : i ∈ (d.rakeStart hg ecc).headNozzles h := hstart.headNozzles hh ▸ hi
  rw [(headsKept_rakeHeads d hg ecc).held, rakeHeads_single d hg ecc hone, ← hstart.devNoz hh, ← hstart.trimA]
  cases hheld : (d.rakeStart hg ecc).nzm.heldHeads.contains h with
  | true => rw [if_pos rfl, trimN_rakeHead_held _ _ _ hheld hi']
  | false => rw [if_neg Bool.false_ne_true, trimN_rakeHead_swept _ _ _ hheld hh hi']

/-- Source 87 is among the reports of a sweep where reads met an error, and only there. -/
theorem reports_rakeHeads :
    match ecc with
    | none => 87 ∉ ((d.rakeHeads hg ecc).reps.drop d.reps.length).map fun x => x.src
    | some j => (d.rakeHeads hg ecc).nzm.heldHeads.contains (8 * hg.val + j.val) = true ∧
        87 ∈ ((d.rakeHeads hg ecc).reps.drop d.reps.length).map fun x => x.src := by
  obtain ⟨l, hl, hsrc⟩ := (headsKept_rakeHeads d hg ecc).reps
  rw [(headsKept_rakeHeads d hg ecc).held, hl]
  cases ecc with
  | none =>
    have hreps : (d.rakeStart hg none).reps = d.reps := rfl
    rw [hreps, List.drop_left, List.mem_map]
    rintro ⟨r, hr, h87⟩
    exact absurd ((hsrc r hr).symm.trans h87) (by decide)
  | some j =>
    have hreps : (d.rakeStart hg (some j)).reps = d.reps ++ [{ src := 87, detail := (8 * hg.val + j.val) % 2 ^ 32 }] := rfl
    have hheld : (d.rakeStart hg (some j)).nzm.heldHeads = (8 * hg.val + j.val) :: d.nzm.heldHeads := rfl
    rw [hreps, hheld, List.append_assoc, List.drop_left]
    simp

end

theorem rakeSweep_ends (s : State) (hg : Fin 8) (ecc : Option (Fin 8)) : Ends (.rakeSweep hg ecc) s fun e =>
    let d := s.dev
    let step := d.get F.CAL_CFG_STEP
    let held (h : Nat) : Bool := e.nzm.heldHeads.contains h
    e.nzm.active = d.nzm.active ∧ e.get (F.NZM_HG_FLAGS_READY hg) = 1 ∧ (∀ a, e.ldB a = d.ldB a) ∧ e.nzm.states = d.nzm.states ∧
    (∀ h ∈ d.hgHeads hg, ∀ i ∈ d.headNozzles h, (e.trimN (d.devNoz h i) - d.trimA (d.devNoz h i)).natAbs ≤ step) ∧
    (∀ h ∈ d.hgHeads hg, d.hgHeads hg = [h] → held h = false → ∀ i ∈ d.headNozzles h,
      let a := d.trimA (d.devNoz h i)
      e.trimN (d.devNoz h i) = a + clampI (-step) step (e.target h i - a)) ∧
    (∀ h ∈ d.hgHeads hg, d.hgHeads hg = [h] → held h = true → ∀ i ∈ d.headNozzles h, e.trimN (d.devNoz h i) = d.trimA (d.devNoz h i)) ∧
    (match ecc with
      | none => 87 ∉ (e.reps.drop d.reps.length).map fun x => x.src
      | some j => held (8 * hg + j) = true ∧ 87 ∈ (e.reps.drop d.reps.length).map fun x => x.src) := by
  refine ends_of_upd (exec_rakeSweep s hg ecc) ?_
  dsimp only
  generalize s.dev = d
  obtain ⟨honly, hend, hready⟩ := rakeEnd_spec (d.rakeHeads hg ecc) hg
  have hheads := rakeKept_rakeHeads d hg ecc
  have hall := hheads.trans hend
  have hnear {h : Nat} (hmem : h ∈ d.hgHeads hg) {i : Nat} (hi : i ∈ d.headNozzles h) := near_rakeHeads_group d hg ecc hmem hi
  have hsingle {h : Nat} (hone : d.hgHeads hg = [h]) {i : Nat} (hi : i ∈ d.headNozzles h) := trimN_rakeHeads_single d hg ecc hone hi
  have hreports := reports_rakeHeads d hg ecc
  have hnzm : ((d.rakeHeads hg ecc).rakeEnd hg).nzm = (d.rakeHeads hg ecc).nzm := (congrArg Dev.nzm honly :)
  have hreps : ((d.rakeHeads hg ecc).rakeEnd hg).reps = (d.rakeHeads hg ecc).reps := (congrArg Dev.reps honly :)
  have htrim (n : Nat) : ((d.rakeHeads hg ecc).rakeEnd hg).trimN n = (d.rakeHeads hg ecc).trimN n := congrArg (fun t : NzmSt => spGet 0 t.next n) hnzm
  simp only [htrim, hreps, hnzm]
  refine ⟨hheads.active, hready, fun a => congrArg (spGet memDefault · a) hall.mem, hheads.states, fun h hmem i hi => ?_,
    fun h hmem hone hheld i hi => ?_, fun h hmem hone hheld i hi => ?_, hreports⟩
  · rw [← hheads.trimA]
    exact hnear hmem hi
  · rw [hend.target (lt_of_mem_hgHeads hg.isLt hmem) (congrArg NzmSt.temps hnzm), hsingle hone hi, hheld, if_neg Bool.false_ne_true]
  · rw [hsingle hone hi, hheld, if_pos rfl]

/-- Settles O33, command by command: the line boundary as a fold of the table of R222 over the changes taken, the sweep as a loop that
keeps every next trim within STEP of the trim in force, the analysis as the changes, corrections and cleared requests that it makes. -/
theorem nozzlesAndRake : Obligations.NozzlesAndRake :=
  ⟨nozzleStateApply_ends, probeDelayExpiry_ends, rakeSweep_ends, densityReport_ends, tempStaleTimeout_ends, pb4Run_ends, pb4Analysis_ends,
    pb4AnalysisTimeout_ends⟩

end Sys2Proof.Machine
end
